-- ==== Sys2Proof/Word.lean ====
section
/-!
DEFINITION. Sys2Proof/Word.lean: the word types of the CH7200 and the names of its numbered resources (R3, R7, R8).
-/
namespace Sys2Proof

/-- A byte of memory. -/
abbrev Byte := BitVec 8
/-- A 32-bit word: a register of the default width (R11), a phase-core register, an instruction word. -/
abbrev Word32 := BitVec 32
/-- A 64-bit word: a general register of a main core, GT, a wide register. -/
abbrev Word64 := BitVec 64
/-- A physical address: 46 bits (R8). -/
abbrev PAddr := BitVec 46
/-- One coherent line of 64 bytes, byte 0 in the low bits. -/
abbrev Line := BitVec 512
/-- An enclave number; 0 is the open world (R7). -/
abbrev Eid := BitVec 6
/-- A privilege level PL0 to PL3 (R7). -/
abbrev Pl := BitVec 2
/-- A deadline stamp, GT[33:2] at the deadline (R30). -/
abbrev Stamp := BitVec 32

/-- Main core number, logical (R7). -/
abbrev CoreId := Fin 96
/-- Phase core number, logical (R7). -/
abbrev PcId := Fin 256
/-- Phase base PB0 to PB15 (R7). -/
abbrev BaseId := Fin 16
/-- Compare CMP0 to CMP1023 (R7). -/
abbrev CmpId := Fin 1024
/-- Capture CAP0 to CAP255 (R7). -/
abbrev CapId := Fin 256
/-- Sigma-delta channel SD0 to SD63 (R7). -/
abbrev SdId := Fin 64
/-- Linked counter CTR0 to CTR63 (R7). -/
abbrev CtrId := Fin 64
/-- Phase pin PP0 to PP511 (R7). -/
abbrev PinId := Fin 512
/-- Pin bank k holding PP32k to PP32k+31 (R7). -/
abbrev BankId := Fin 16
/-- Deadline arbiter a: 0 to 7 ARB_MC, 8 to 11 ARB_IO, 12 ARB_PT, 13 ARB_PAIR (R155). -/
abbrev ArbId := Fin 14
/-- Home slice HS0 to HS63 (R7). -/
abbrev HsId := Fin 64
/-- Memory controller MC0 to MC7 (R7). -/
abbrev McId := Fin 8
/-- Queue engine QE0 to QE3 (R7). -/
abbrev QeId := Fin 4
/-- Hardware queue Q0 to Q262143 (R7). -/
abbrev QueueId := Fin 262144
/-- Virtual interface VI0 to VI4095 (R7). -/
abbrev ViId := Fin 4096
/-- Ethernet port ETH0 to ETH127 (R7). -/
abbrev PortId := Fin 128
/-- Point PT0 to PT131071 (R7). -/
abbrev PointId := Fin 131072
/-- Command ring 0 to 31 (R476). -/
abbrev RingId := Fin 32
/-- Interrupt router source 0 to 4,095 (R191). -/
abbrev SrcId := Fin 4096
/-- Transfer channel of a queue engine. -/
abbrev ChanId := Fin 32
/-- Cross-trigger channel (R546). -/
abbrev XtId := Fin 8

end Sys2Proof
end

