-- ==== Sys2Proof/Config.lean ====
section
/-!
DEFINITION. Sys2Proof/Config.lean: what the spec leaves to the silicon or leaves open, as constants without a body: nothing can
be proved of their values, so a statement about them holds whatever they are.
-/
namespace Sys2Proof

/-- A value that the spec leaves undefined after a step that goes on; each use takes the next number (assumption 2). -/
opaque Config.freeWord : Nat → Word64

/-- The counter of the base table that a branch address names: R233 says that the table is indexed by PC, and not how. -/
opaque Config.baseIndex : Word64 → BitVec 11

/-- The entry of tagged table k that a branch address and the outcomes before it name, before reduction to 1,536 (R233). -/
opaque Config.tagIndex : BitVec 2 → Word64 → BitVec 100 → BitVec 16

/-- What an entry of tagged table k says of a branch, if its tag matches: R233 gives neither tags nor counters. -/
opaque Config.tagSays : BitVec 2 → Word64 → BitVec 100 → Word32 → Option Bool

/-- What becomes of an entry of tagged table k when a branch with an outcome retires (R233). -/
opaque Config.tagUpdate : BitVec 2 → Word64 → BitVec 100 → Option Word32 → Bool → Option Word32

/-- A byte of the boot ROM, whose contents the spec does not give (assumption 5). -/
opaque Config.romByte : Nat → Byte

/-- Whether a refresh-rate field of MR4 requires more than the 1× rate: JESD79-5 gives the codes, the spec does not (R324). -/
opaque Config.mr4Hot : BitVec 3 → Bool

/-- The version of Lemam's ROM, which GET_INFO reports (R486). -/
opaque Config.romVersion : Byte

/-- The root secret of the device, 256 bits held in fuses (R438). -/
opaque Config.rootSecret : BitVec 256

/-- Whether an ECDSA P-384 signature over a SHA-384 digest verifies under a public key (R440, R445). -/
opaque Config.ecdsaVerify : List Byte → List Byte → List Byte → Bool

end Sys2Proof
end

