-- ==== Sys2Proof/Syntax.lean ====
section
/-!
DEFINITION. Sys2Proof/Syntax.lean: the commands of the CH7200, one constructor of `Instr` for each row of the table of
operations and events, with the operands each takes, and the small types those operands are made of.
-/
namespace Sys2Proof

/-! ### Who makes an access or sends a command -/

/-- The agent that makes a bus access (R10, R160). -/
inductive Agent where
  | core (c : CoreId)
  | phaseCore (p : PcId)
  | queueEngine (e : QeId)
  | lemam
  | router
  | debug
  /-- a compare, for the doorbell it rings (R70) -/
  | compare (n : CmpId)
  /-- a sigma-delta channel, for the point it writes (R87) -/
  | sigmaDelta (n : SdId)
deriving DecidableEq, Repr

/-- What a bus access carries beside its address: the agent, its privilege level and its enclave (R160). -/
structure Requester where
  agent : Agent
  pl : Pl
  eid : Eid
deriving DecidableEq, Repr

/-- Where a Lemam command came from (R475): a ring and its level, the management SPI, the peer device, or an MGMT frame. -/
inductive CmdSource where
  | ring (j : RingId)
  | spi
  | peer (ring : RingId) (pl3 : Bool)
  | mgmt
deriving DecidableEq, Repr

/-! ### Registers and function selectors of the two instruction sets -/

/-- Main-core general register g0 to g31 (R193). -/
abbrev GReg := BitVec 5
/-- Main-core floating-point register f0 to f31 (R193). -/
abbrev FReg := BitVec 5
/-- Phase-core register p0 to p15 (R101). -/
abbrev PReg := BitVec 4
/-- Phase-core accumulator acc0 or acc1 (R101). -/
abbrev AccId := Bool

/-- Signed or unsigned. -/
inductive Sign where | signed | unsigned
deriving DecidableEq, Repr
/-- SLL, SRL, SRA. -/
inductive ShiftFn where | sll | srl | sra
deriving DecidableEq, Repr
/-- AND, OR, XOR. -/
inductive LogicFn where | and | or | xor
deriving DecidableEq, Repr
/-- Minimum or maximum. -/
inductive MinMaxFn where | min | max
deriving DecidableEq, Repr
/-- MULH, MULHU, MULHSU (R199). -/
inductive MulhFn where | ss | uu | su
deriving DecidableEq, Repr
/-- DIV, DIVU, REM, REMU. -/
inductive DivFn where | div | divu | rem | remu
deriving DecidableEq, Repr
/-- The six branch conditions. -/
inductive BranchFn where | eq | ne | lt | ge | ltu | geu
deriving DecidableEq, Repr
/-- LB to LD (R201). -/
inductive LoadFn where | lb | lbu | lh | lhu | lw | lwu | ld
deriving DecidableEq, Repr
/-- SB to SD (R201). -/
inductive StoreFn where | sb | sh | sw | sd
deriving DecidableEq, Repr
/-- binary32 or binary64 (R210). -/
inductive FpFmt where | s | d
deriving DecidableEq, Repr
/-- The five rounding directions of R212. -/
inductive Rounding where | nearestEven | nearestAway | towardZero | towardPos | towardNeg
deriving DecidableEq, Repr
/-- FADD, FSUB, FMUL, FDIV. -/
inductive FpArith where | add | sub | mul | div
deriving DecidableEq, Repr
/-- FEQ, FLT, FLE. -/
inductive FpCmp where | eq | lt | le
deriving DecidableEq, Repr
/-- FSIGN.C, FSIGN.N, FSIGN.X. -/
inductive SignFn where | copy | neg | xor
deriving DecidableEq, Repr
/-- Phase-core ADD SUB AND OR XOR (R107). -/
inductive PcAluFn where | add | sub | and | or | xor
deriving DecidableEq, Repr
/-- Phase-core ADDI ANDI ORI XORI SLTI (R107). -/
inductive PcAluImmFn where | addi | andi | ori | xori | slti
deriving DecidableEq, Repr
/-- Phase-core MAC MSU MULA (R107). -/
inductive MacFn where | mac | msu | mula
deriving DecidableEq, Repr
/-- Phase-core FADD FSUB FMUL (R107). -/
inductive PcFaddFn where | add | sub | mul
deriving DecidableEq, Repr
/-- Phase-core FMIN FMAX FEQ FLT FLE (R107). -/
inductive PcFcmpFn where | min | max | eq | lt | le
deriving DecidableEq, Repr
/-- Phase-core LB LBU LH LHU LW (R107). -/
inductive PcLoadFn where | lb | lbu | lh | lhu | lw
deriving DecidableEq, Repr
/-- Phase-core SB SH SW (R107). -/
inductive PcStoreFn where | sb | sh | sw
deriving DecidableEq, Repr
/-- The 64-bit operand of LD and SD (a register pair) or of LDA and STA (an accumulator) (R106). -/
inductive PairOrAcc where
  | pair (r : PReg)
  | acc (a : AccId)
deriving DecidableEq, Repr
/-- The registers of a phase core that R130 guards. -/
inductive PccGuarded where
  | eid
  | winBase (k : BitVec 3)
  | winCfg (k : BitVec 3)
deriving DecidableEq, Repr
/-- A local interrupt view of a main core (R179). -/
inductive View where | one | two | three
deriving DecidableEq, Repr

/-! ### Operands of the events -/

/-- The source of a synchronisation message (R23): a port for IEEE 802.1AS, or the pair link. -/
inductive SyncSource where
  | port (p : PortId)
  | pair
deriving DecidableEq, Repr

/-- A request presented to a deadline arbiter (R133, R134). -/
structure ArbReq where
  port : Nat
  stamp : Stamp
  key : PAddr
  bytes : Nat
  tag : Nat
deriving DecidableEq, Repr

/-- An agent of the coherence protocol: a main-core cache, another requester, or the home (R278). -/
inductive CohAgent where
  | core (c : CoreId)
  | engine (e : QeId)
  | phaseCore (p : PcId)
  | lemam
  | router
  | debug
  | home
deriving DecidableEq, Repr

/-- What the check bits of a directory entry say: nothing wrong, an error that is corrected, or an uncorrectable one (R289). -/
inductive DirCheck where | good | corrected | bad
deriving DecidableEq, Repr

/-- A request to a home slice (R290): from whom, for which line, with its level, EID, stamp and TYPE (NC or DEV), and what the home finds
of the line's directory entry when it orders the request (R289). Its line stands for the transaction tag of the message: a line has one
open transaction (R293). -/
structure CohReq where
  from_ : CohAgent
  line : PAddr
  pl : Pl
  eid : Eid
  stamp : Stamp
  dev : Bool
  dirErr : DirCheck
deriving DecidableEq, Repr

/-- The status a Comp carries (R299). -/
inductive CohStatus where | ok | denied | error | poison
deriving DecidableEq, Repr

/-- A link with a CRC (R347). -/
inductive LinkId where
  | mesh (x : BitVec 4) (y : BitVec 4)
  | pair (lane : BitVec 2)
deriving DecidableEq, Repr

/-- An access to the point image (R414). A write carries the GT that stamps it when that is not the GT of its grant (R416). -/
inductive PointAccess where
  | readValue
  | readStatus
  | write (value : Word64) (stamp : Option Word64)
deriving DecidableEq, Repr

/-- An item of the agreement gate (R459): its key, its sequence count, the GT of submission, its tag and value. The value is the
action for a pin, the digest for a frame. -/
structure GateItem where
  frame : Bool
  key : BitVec 18
  seq : Word32
  subGt : Word64
  phase : Bool
  tag : Word64
  value : BitVec 128
deriving DecidableEq, Repr

/-- A group received over the pair link (R452, R453): the receive lanes whose CRC failed, and what its trailer reports: the sender's
mode, its fault notice, whether its link is up, its AGREE_WIN, whether its GT follows the pair, and a start or an end of RUN_PAIRED
that it proposes. -/
structure PairGroup where
  bad : BitVec 4
  mode : BitVec 3
  notice : Option (Bool × BitVec 18 × Word32)
  up : Bool
  win : BitVec 7
  follows : Bool
  agree : Option (Bool × Word64)
deriving DecidableEq, Repr

/-- One entry of a write list (R489). -/
structure CfgWrite where
  offset : Word32
  width : Byte
  value : Word64
deriving DecidableEq, Repr

/-- What wakes the device from STANDBY (R503). -/
inductive WakeSource where
  | command
  | interrupt (n : SrcId)
deriving DecidableEq, Repr

/-- A monitor kind (R528). -/
inductive MonKind where | ts | vm | pm | am
deriving DecidableEq, Repr

/-- A bank of unit counters (R554). -/
inductive BankUnit where
  | hs (h : HsId)
  | mc (m : McId)
  | arb (a : ArbId)
deriving DecidableEq, Repr

/-- What the start-up steps find outside the device or in its parts (R440, R473, R508, R513, R527): the flash contents of XSPI0 and
XSPI1 from offset 0; the version of each device's patch and whether its signature verifies; the parameter block of DRAM_CONFIG and the
words of the delay sets that the image's DRAM section holds; units that fail self-test, by KIND, group and index; quadrants whose shared
unit fails; a unit whose failure stops the start; the PMBus addresses that answer; and channels whose ranks do not answer as
configured. -/
structure BootInput where
  images : List (List Byte)
  patches : List (Option (BitVec 16 × Bool))
  dram : List Byte
  sets : List Word32
  failed : List (Nat × Nat × Nat)
  quads : List (BitVec 2)
  fatal : Option Word32
  pmbus : BitVec 16
  chFail : BitVec 8
deriving DecidableEq, Repr

/-! ### The commands -/

/-- The commands and events of the device, one constructor for each row of the table; those that the device
sends itself or that an instruction word is stand first. -/
inductive Instr where
  /-- SRC_LOST (R26). The HOLDOFF intervals expire with no synchronisation message, so the servo holds its rate and sets SRC_LOST. -/
  | srcLost
  /-- MAINS_CROSSING (R594). A good zero crossing updates the second-order loop of a MAINS base and its rate. -/
  | mainsCrossing (b : BaseId) (rising : Bool) (instant : Word64)
  /-- MAINS_INPUT_LOST (R36). The loss timer of 2.5 half-cycles expires, or a crossing falls out of range, so LOCKED clears and holdover begins. -/
  | mainsInputLost (b : BaseId)
  /-- MAINS_HOLDOVER_END (R36). The HOLDOVER cycles expire after the last good crossing, and the MAINS base stops with rate zero. -/
  | mainsHoldoverEnd (b : BaseId)
  /-- RATE_WINDOW (R38). The end of a PHB_RATE_WIN window sets the ENCODER rate, or sets STOPPED when no edge was counted. -/
  | rateWindow (b : BaseId)
  /-- STREAM_TIMEOUT (R41). The TIMEOUT expires with no update, so the STREAM base stops and sets STALE. -/
  | streamTimeout (b : BaseId)
  /-- PROJECTION_RECOMPUTE (R44). The projections of all compares bound to a base are recomputed within 1.024 us of a rate update. -/
  | projectionRecompute (b : BaseId)
  /-- COMPARE_MATCH (R63). An armed compare crosses in an armed direction, records its match GT and schedules its actions. -/
  | compareMatch (n : CmpId)
  /-- PIN_ACTION (R74). The pin actions that reach one pin in one phase clock are resolved, and the edge follows 8 ns later. -/
  | pinAction (p : PinId)
  /-- CAPTURE_EVENT (R83). A pin edge or threshold event captures a base value or GT, sets FULL or OVERRUN and raises the enabled actions. -/
  | captureEvent (n : CapId) (rise : Bool) (instant : Word64)
  /-- CTR_TICK (R88). A prescaler tick or a lower counter's wrap increments a linked counter. -/
  | ctrTick (n : CtrId)
  /-- LINKED_COUNTER_ACTION (R88). A compare's CTR_ACT loads COUNT with 0 or sets RUN, 2 ns after the match. -/
  | linkedCounterAction (n : CtrId) (act : BitVec 2)
  /-- TASK_EVENT (R117). An event enters a phase-core task input queue, or is dropped when the queue is full. -/
  | taskEvent (pc : PcId) (input : BitVec 3) (source : BitVec 11) (instant : Word64)
  /-- WAITEV_WAKE (R119). An event enters a masked input of a waiting core, and WAITEV completes 4 clocks later. -/
  | waitevWake (pc : PcId)
  /-- PREEMPTION_ENTRY (R121). A preemption request at a boundary saves the shadow and continues at PCC_PRE_VEC. -/
  | preemptionEntry (pc : PcId)
  /-- POST_QUEUE_DRAIN (R126). The oldest post-queue entry is sent, with the stamp taken at its issue. -/
  | postQueueDrain (pc : PcId)
  /-- ARB_REQUEST (R141). A request presented to an arbiter is accepted into the tray, refused with a hint, or back-pressured. -/
  | arbRequest (a : ArbId) (r : ArbReq)
  /-- ARB_GRANT (R139). The arbiter grants a beat to the entry that ranks first. -/
  | arbGrant (a : ArbId)
  /-- INTERRUPT_ENTRY (R179). A takeable pending vector is taken at a boundary and acknowledged in its view. -/
  | interruptEntry (c : CoreId)
  /-- TIMER_VECTOR (R180). GT reaches TMR_PLx, and vector 253 is raised once in that view. -/
  | timerVector (c : CoreId) (view : View)
  /-- INTERRUPT_SOURCE_EVENT (R182). An event on a router source sets its PENDING bit. -/
  | interruptSourceEvent (n : SrcId)
  /-- INTERRUPT_DELIVERY (R182). The router delivers an enabled pending source to a core view, posts it, or sets TGT_ERR. -/
  | interruptDelivery (n : SrcId)
  /-- INTERRUPT_POST (R183). The router posts a vector into a virtual CPU record by an atomic operation and rings its bell. -/
  | interruptPost (n : SrcId)
  /-- POST_RETRY (R183). A post that found the log full is retried every 1 us. -/
  | postRetry (n : SrcId)
  /-- BELL (R184). A bell is absorbed into PEND_PL1 at the matching core, or delivered to view 2. -/
  | bell (c : CoreId) (record : PAddr) (vector : Byte)
  /-- TLBI_COMPLETION (R259). A TLBI completes once every agent reached has removed its entries and drained. -/
  | tlbiCompletion (c : CoreId)
  /-- STORE_DRAIN (R266). The oldest store-buffer entry becomes visible, or is sent and leaves on its Comp. -/
  | storeDrain (c : CoreId)
  /-- RESERVATION_TIMEOUT (R271). 4,096 cycles pass with no STCOND, and the reservation is lost. -/
  | reservationTimeout (c : CoreId)
  /-- READ_SHARED (R296). A ReadShared ordered at the home is handled in the line's state. -/
  | readShared (q : CohReq)
  /-- READ_UNIQUE (R296). A ReadUnique ordered at the home is handled in the line's state. -/
  | readUnique (q : CohReq)
  /-- UPGRADE (R296). An Upgrade ordered at the home is handled in the line's state. -/
  | upgrade (q : CohReq)
  /-- WRITE_BACK (R296). A WriteBack is absorbed into the LLC, or discarded as stale. -/
  | writeBack (c : CoreId) (line : PAddr)
  /-- READ_ONCE (R296). A ReadOnce is served without any change of state. -/
  | readOnce (q : CohReq)
  /-- WRITE_UNIQUE (R297). A whole-line write invalidates the holders and writes the line. -/
  | writeUnique (q : CohReq) (data : Line) (poison : Bool)
  /-- WRITE_PARTIAL (R297). A masked partial write is merged at the home or at the controller. -/
  | writePartial (q : CohReq) (mask : Word64) (data : Line)
  /-- WRITE_PARTIAL_POST (R297). The router's POST operation appends a vector to the log indivisibly and returns the prior bytes. -/
  | writePartialPost (q : CohReq) (vector : Byte)
  /-- FWD_SHARED (R298). The owner supplies shared data and answers FwdAck. -/
  | fwdShared (owner : CoreId) (line : PAddr) (dst : CohAgent) (once : Bool)
  /-- FWD_UNIQUE (R298). The owner supplies the line unique and gives it up. -/
  | fwdUnique (owner : CoreId) (line : PAddr) (dst : CohAgent) (acks : BitVec 7)
  /-- INVALIDATE (R298). A cache drops the line and sends InvAck. -/
  | invalidate (c : CoreId) (line : PAddr) (ackTo : CohAgent)
  /-- BACK_INVALIDATE (R298). A cache gives the line up to the home, with DataDirty when it is dirty. -/
  | backInvalidate (c : CoreId) (line : PAddr)
  /-- INV_ACK (R301). An acknowledgement lowers the requester's count, or completes the home's wait. -/
  | invAck (c : CoreId) (line : PAddr) (dst : CohAgent)
  /-- FWD_ACK (R296). The owner's acknowledgement closes a forwarded read at the home. -/
  | fwdAck (c : CoreId) (line : PAddr) (dirty : Bool)
  /-- FWD_MISS (R287). A cache without the line answers, and the home supplies the data. -/
  | fwdMiss (c : CoreId) (line : PAddr)
  /-- DATA_SHARED (R299). Shared data reaches the requester. -/
  | dataShared (dst : CohAgent) (line : PAddr) (data : Line) (poison : Bool) (once : Bool)
  /-- DATA_UNIQUE (R301). A unique grant reaches the requester or the home. -/
  | dataUnique (dst : CohAgent) (line : PAddr) (data : Line) (poison : Bool) (acks : BitVec 7)
  /-- DATA_DIRTY (R301). Dirty data reaches the requester or the home. -/
  | dataDirty (dst : CohAgent) (line : PAddr) (data : Line) (poison : Bool) (acks : BitVec 7)
  /-- WB_ACK (R299). The home's acknowledgement of a WriteBack moves the cache to I. -/
  | wbAck (c : CoreId) (line : PAddr)
  /-- COMP (R299). The home's completion, with its status, reaches the requester. -/
  | comp (dst : CohAgent) (line : PAddr) (status : CohStatus) (acks : BitVec 7) (write : Bool) (prior : Word64)
  /-- COMP_TO_HOME (R300). The requester's Comp ends an exclusive grant at the home. -/
  | compToHome (c : CohAgent) (line : PAddr)
  /-- HS_QUERY_ADDR (R307). A write queries the directory and LLC state of a line. -/
  | hsQueryAddr (h : HsId) (who : Requester) (value : Word64)
  /-- BACKINV_WINDOW (R306). The end of a window compares the count of victim removals with THR. -/
  | backinvWindow (h : HsId)
  /-- LINK_RETRY (R347). A transfer that fails its CRC is sent again, and 16 failures on a mesh link give LINK_FATAL. -/
  | linkRetry (link : LinkId) (times : BitVec 8)
  /-- MC_COMMAND_ISSUE (R316). At a command slot the controller issues the next command of the first eligible entry. -/
  | mcCommandIssue (mc : McId) (sub : Bool) (bad : List (BitVec 4))
  /-- READ_DATA_HANDOFF (R312). Read data is handed to the mesh 78.0 ns after admission. -/
  | readDataHandoff (mc : McId)
  /-- IDLE_TIMER (R318). The bank idle timer expires and the controller precharges the bank. -/
  | idleTimer (mc : McId) (sub : Bool) (rank : Bool) (bank : BitVec 5)
  /-- MR4_POLL (R320). Every 1 ms the controller reads MR4, and the refresh rate is doubled or restored. -/
  | mr4Poll (mc : McId) (codes : List (BitVec 3))
  /-- AGE_PROMOTION (R316). An entry waiting longer than MC_AGE_LIMIT is promoted to class 0. -/
  | agePromotion (mc : McId)
  /-- BLACKOUT_START (R322). The refresh timer starts a blackout: PREab, then REFab on every rank. -/
  | blackoutStart (mc : McId)
  /-- BLACKOUT_END (R323). tRFC ends, and admission and waiting requests resume. -/
  | blackoutEnd (mc : McId)
  /-- SCRUB_VISIT (R348). The patrol scrubber presents the next line's scrub entry. -/
  | scrubVisit (mc : McId)
  /-- CONTACT_EVENT (R355). The intake releases an event, which makes a new entry or merges into an existing one. -/
  | contactEvent
  /-- MIRROR_COPY (R358). Lemam copies a new or merged entry into the DRAM mirror. -/
  | mirrorCopy
  /-- DOORBELL (R375). A doorbell sets or adds to TAIL, or is rejected, and goes to the FIFO or the bitmap. -/
  | doorbell (q : QueueId) (who : Requester) (value : Word64) (stamp : Stamp)
  /-- DOORBELL_SCAN (R377). The scanner finds a queue's bit in the bitmap and stamps its work. -/
  | doorbellScan (e : QeId)
  /-- CHANNEL_ASSIGN (R378). A free transfer channel takes work from the FIFO or the scanner. -/
  | channelAssign (e : QeId)
  /-- DESCRIPTOR_FETCHED (R380). A fetched descriptor is checked and its beats are performed. -/
  | descriptorFetched (e : QeId) (ch : ChanId) (bad : Bool)
  /-- COMPLETION_WRITE (R372). A completion is written once every data write has received Comp. -/
  | completionWrite (q : QueueId)
  /-- COMPLETION_RETURN (R385). A completion from the switch or the point image is written, or discarded on a generation mismatch. -/
  | completionReturn (q : QueueId) (gen : Byte) (index : BitVec 24) (status : Byte) (length : Word32)
  /-- FRAME_TRANSMIT (R401). An egress port starts the highest open class's frame that fits before its gate closes. -/
  | frameTransmit (p : PortId) (bad : Bool)
  /-- FRAME_AGE (R400). A frame that has waited AGE us is discarded. -/
  | frameAge (p : PortId)
  /-- GCL_ENTRY (R401). A gate control entry's interval ends, and the next entry's gates apply. -/
  | gclEntry (p : PortId)
  /-- SWAP_TAKE (R402). At the next cycle start the pending list becomes operational. -/
  | swapTake (p : PortId)
  /-- SYNC_SEND (R404). Master ports send Sync at the configured interval. -/
  | syncSend (p : PortId)
  /-- DINATH_RECEIVE (R409). The Dinath receiver takes and checks a copy of a frame. -/
  | dinathReceive (p : PortId) (frame : List Byte) (instant : Word64)
  /-- POINT_UPDATE (R410). A POINT_UPDATE record is presented to ARB_PT port 8 and written under the point rules. -/
  | pointUpdate (pt : PointId) (value : Word64) (stamp : Word64) (node : BitVec 18)
  /-- POSITION (R411). A POSITION record updates the matching STREAM bases 200 ns after the SFD. -/
  | position (node : BitVec 18) (stream : BitVec 4) (value : BitVec 48) (instant : Word64)
  /-- POINT_ACCESS (R414). A granted access reads or writes one point entry, subject to the ownership and stamp checks. -/
  | pointAccess (pt : PointId) (who : Requester) (access : PointAccess) (bad : Bool)
  /-- STALE_SWEEP (R418). The sweep visits points and marks the stale ones. -/
  | staleSweep
  /-- COMMIT_END (R431). Every walk and acknowledgement is complete, and COMMIT_BUSY clears. -/
  | commitEnd
  /-- PURGE_DONE (R432). The purge completes, and its Comp is returned. -/
  | purgeDone (c : CoreId)
  /-- READY (R438). The key is placed in ENC_KEY0 to ENC_KEY3, and READY sets 2 us after DERIVE. -/
  | ready (c : CoreId)
  /-- PAIR_LINK_LOSS (R455). Four group times pass without a good group, and the link is declared lost. -/
  | pairLinkLoss
  /-- GATE_SUBMIT (R459). A local paired action or frame is submitted as a gate item and sent to the peer. -/
  | gateSubmit (item : GateItem)
  /-- GATE_TIMEOUT (R462). An item is still unmatched at SUB_GT + W, so the side declares TIMEOUT. -/
  | gateTimeout
  /-- PAIRED_ENTRY (R464). At the agreed GT both sides enter RUN_PAIRED. -/
  | pairedEntry
  /-- PAIRED_EXIT (R499). At the agreed GT both sides leave RUN_PAIRED. -/
  | pairedExit
  /-- PEER_COMMAND (R466). A command arrives from the peer and is checked and executed there. -/
  | peerCommand (packet : List Byte)
  /-- PEER_REPLY (R466). A peer's reply arrives and completes the local ring command. -/
  | peerReply (packet : List Byte)
  /-- COMMAND_TAKE (R481). Lemam takes the next command from its sources in turn and checks it. -/
  | commandTake
  /-- DEFERRED_COMPLETE (R482). The hardware finishes a deferred command, and its reply is sent. -/
  | deferredComplete (seq : BitVec 16) (opcode : BitVec 16) (src : CmdSource) (results : List Byte)
  /-- READ_STATUS (R477). A management SPI transaction reads the status byte and clears REJECT. -/
  | readStatus
  /-- STANDBY_SEQUENCE (R501). 100 us after the reply the cores stop, the fabric powers down and DRAM enters self-refresh. -/
  | standbySequence
  /-- STANDBY_DONE (R501). The STANDBY entry completes, and STANDBY_DONE is set. -/
  | standbyDone
  /-- WAKE (R503). A command or a pending enabled source wakes the device from STANDBY. -/
  | wake (src : WakeSource)
  /-- PLL_LOCK (R508). The PLLs lock on REFCLK and start-up continues. -/
  | pllLock
  /-- AVS_PERIOD (R514). Every 1 ms Lemam recomputes the VDD_CORE target and adjusts it. -/
  | avsPeriod
  /-- CORE_HALT (R541). A main core halts at a boundary, discarding younger instructions and committing changes. -/
  | coreHalt (c : CoreId)
  /-- CROSS_TRIGGER (R546). A channel fires and halts cores, freezes counters or takes a shutter. -/
  | crossTrigger (x : XtId)
  /-- SHUTTER_TAKE (R555). At the instant, every counter is copied into its shadow and SEQ increments. -/
  | shutterTake
  /-- SLEW_COMPLETE (R592). The servo's correction term has slewed out the measured offset, so it stops, GT_SLEW_REMAIN reaches 0 and SLEWING clears. -/
  | slewComplete
  /-- HELD_RESUME (R40). The interpolated path of a HELD STREAM base passes the held value v, so the base resumes, HELD clears and the base follows that path. -/
  | heldResume (b : BaseId)
  /-- PC_NOP (R107). Phase-core NOP does nothing for 2 clocks. -/
  | pcNop (pc : PcId)
  /-- PC_ALU (R107). Phase-core ADD, SUB, AND, OR and XOR. -/
  | pcAlu (pc : PcId) (fn : PcAluFn) (rd rs1 rs2 : PReg)
  /-- PC_SHIFT (R107). Phase-core SLL, SRL and SRA. -/
  | pcShift (pc : PcId) (fn : ShiftFn) (rd rs1 rs2 : PReg)
  /-- PC_SLT (R107). Phase-core SLT and SLTU. -/
  | pcSlt (pc : PcId) (sign : Sign) (rd rs1 rs2 : PReg)
  /-- PC_MUL (R107). Phase-core MUL gives the low 32 bits of the product. -/
  | pcMul (pc : PcId) (rd rs1 rs2 : PReg)
  /-- PC_MULH (R107). Phase-core MULH and MULHU give the high 32 bits of the product. -/
  | pcMulh (pc : PcId) (sign : Sign) (rd rs1 rs2 : PReg)
  /-- QADD (R108). Phase-core saturating QADD and QSUB, which set SAT on a clamp. -/
  | qadd (pc : PcId) (sub : Bool) (rd rs1 rs2 : PReg)
  /-- PC_MIN_MAX (R107). Phase-core signed MIN and MAX. -/
  | pcMinMax (pc : PcId) (fn : MinMaxFn) (rd rs1 rs2 : PReg)
  /-- PC_ALU_IMM (R107). Phase-core ADDI, ANDI, ORI, XORI and SLTI. -/
  | pcAluImm (pc : PcId) (fn : PcAluImmFn) (rd rs1 : PReg) (imm : BitVec 18)
  /-- PC_SHIFT_IMM (R107). Phase-core SLLI, SRLI and SRAI. -/
  | pcShiftImm (pc : PcId) (fn : ShiftFn) (rd rs1 : PReg) (amount : BitVec 5)
  /-- PC_LUI (R107). Phase-core LUI loads imm22 times 1,024. -/
  | pcLui (pc : PcId) (rd : PReg) (imm : BitVec 22)
  /-- MAC (R107). Phase-core MAC, MSU and MULA multiply into an accumulator. -/
  | mac (pc : PcId) (fn : MacFn) (acc : AccId) (rs1 rs2 : PReg)
  /-- ACCRD (R107). Reads an accumulator shifted, rounded and saturated into a register. -/
  | accrd (pc : PcId) (rd : PReg) (acc : AccId) (shift : BitVec 6) (round : Bool)
  /-- ACCWR (R107). Writes an accumulator from a shifted register. -/
  | accwr (pc : PcId) (acc : AccId) (rs1 : PReg) (shift : BitVec 5)
  /-- PC_DIV (R108). Phase-core DIV, DIVU, REM and REMU, with a fixed count of 20. -/
  | pcDiv (pc : PcId) (fn : DivFn) (rd rs1 rs2 : PReg)
  /-- PC_FADD (R109). Phase-core binary32 FADD, FSUB and FMUL. -/
  | pcFadd (pc : PcId) (fn : PcFaddFn) (rd rs1 rs2 : PReg)
  /-- FMAC (R109). Phase-core fused binary32 multiply-accumulate. -/
  | fmac (pc : PcId) (rd rs1 rs2 : PReg)
  /-- PC_FDIV (R109). Phase-core binary32 division. -/
  | pcFdiv (pc : PcId) (rd rs1 rs2 : PReg)
  /-- PC_FSQRT (R109). Phase-core binary32 square root. -/
  | pcFsqrt (pc : PcId) (rd rs1 : PReg)
  /-- PC_FCOMPARE (R109). Phase-core FMIN, FMAX, FEQ, FLT and FLE. -/
  | pcFcompare (pc : PcId) (fn : PcFcmpFn) (rd rs1 rs2 : PReg)
  /-- PC_FCVT (R109). Phase-core FCVT.W.S and FCVT.S.W conversions. -/
  | pcFcvt (pc : PcId) (toInt : Bool) (rd rs1 : PReg)
  /-- FABS_FNEG (R107). Phase-core sign-bit operations FABS and FNEG. -/
  | fabsFneg (pc : PcId) (neg : Bool) (rd rs1 : PReg)
  /-- PC_LOAD (R104). Phase-core LB, LBU, LH, LHU and LW from a permitted region, timed by region. -/
  | pcLoad (pc : PcId) (fn : PcLoadFn) (rd rs1 : PReg) (imm : BitVec 18)
  /-- PC_LD (R107). Phase-core LD and LDA load 64 bits into a register pair or an accumulator. -/
  | pcLd (pc : PcId) (dst : PairOrAcc) (rs1 : PReg) (imm : BitVec 18)
  /-- PC_STORE (R104). Phase-core SB, SH and SW. -/
  | pcStore (pc : PcId) (size : PcStoreFn) (rs2 rs1 : PReg) (imm : BitVec 18)
  /-- PC_SD (R107). Phase-core SD and STA store a register pair or an accumulator. -/
  | pcSd (pc : PcId) (src : PairOrAcc) (rs1 : PReg) (imm : BitVec 18)
  /-- PC_BRANCH (R107). Phase-core conditional branches BEQ to BGEU. -/
  | pcBranch (pc : PcId) (fn : BranchFn) (rs1 rs2 : PReg) (off : BitVec 18)
  /-- PC_JAL (R107). Phase-core JAL links p15 and jumps. -/
  | pcJal (pc : PcId) (off : BitVec 26)
  /-- PC_JALR (R107). Phase-core JALR jumps indirectly. -/
  | pcJalr (pc : PcId) (rd rs1 : PReg) (imm : BitVec 18)
  /-- PC_LOOP (R116). Phase-core LOOP sets up a zero-overhead loop from a register count. -/
  | pcLoop (pc : PcId) (rs1 : PReg) (imm : BitVec 18)
  /-- PC_LOOPI (R116). Phase-core LOOPI sets up a zero-overhead loop from an immediate count. -/
  | pcLoopi (pc : PcId) (count : BitVec 12) (length : BitVec 14)
  /-- WAITEV (R119). Pops the oldest event of the lowest masked input, or enters WAITING. -/
  | waitev (pc : PcId) (rd : PReg) (imm : BitVec 9)
  /-- EVSEND (R127). Sends an event to another phase core's task input. -/
  | evsend (pc : PcId) (rs1 : PReg) (input : BitVec 3)
  /-- PINA (R123). Performs a pin action from a phase core in the instruction's last clock. -/
  | pina (pc : PcId) (rs1 : PReg) (act : BitVec 2)
  /-- PTLD (R124). Reads a point's value or status through ARB_PT. -/
  | ptld (pc : PcId) (status : Bool) (rd rs1 : PReg)
  /-- PTST (R124). Posts a point write to the post queue. -/
  | ptst (pc : PcId) (rs1 rs2 : PReg)
  /-- DBELL (R125). Posts a doorbell for a queue to the post queue. -/
  | dbell (pc : PcId) (rs1 rs2 : PReg)
  /-- PC_RDGT (R107). Phase-core read of GT into a register pair. -/
  | pcRdgt (pc : PcId) (rd : PReg)
  /-- SETDL (R107). SETDL and ADDDL set the task deadline TDL. -/
  | setdl (pc : PcId) (add : Bool) (rs1 : PReg)
  /-- SETTM (R115). Changes the timing mode, effective from the third instruction after. -/
  | settm (pc : PcId) (mode : Bool)
  /-- TRET (R121). Returns from preemption by restoring the shadow and clearing INPRE. -/
  | tret (pc : PcId)
  /-- PC_STOP (R129). Halts the phase core and sets STOPPED. -/
  | pcStop (pc : PcId)
  /-- ADD (R197). ADD and SUB, modulo 2^64. -/
  | add (c : CoreId) (sub : Bool) (rd rs1 rs2 : GReg)
  /-- AND (R197). Bitwise AND, OR and XOR. -/
  | and (c : CoreId) (fn : LogicFn) (rd rs1 rs2 : GReg)
  /-- SLL (R197). Shifts SLL, SRL and SRA by register. -/
  | sll (c : CoreId) (fn : ShiftFn) (rd rs1 rs2 : GReg)
  /-- SLT (R197). SLT and SLTU. -/
  | slt (c : CoreId) (sign : Sign) (rd rs1 rs2 : GReg)
  /-- MIN_MAX (R197). Signed MIN and MAX. -/
  | minMax (c : CoreId) (fn : MinMaxFn) (rd rs1 rs2 : GReg)
  /-- MINU_MAXU (R197). Unsigned MINU and MAXU. -/
  | minuMaxu (c : CoreId) (fn : MinMaxFn) (rd rs1 rs2 : GReg)
  /-- CLZ_CTZ (R197). Leading and trailing zero counts. -/
  | clzCtz (c : CoreId) (trailing : Bool) (rd rs1 : GReg)
  /-- POPC (R197). Population count. -/
  | popc (c : CoreId) (rd rs1 : GReg)
  /-- ADDW_SUBW (R198). 32-bit sum and difference, sign-extended. -/
  | addwSubw (c : CoreId) (sub : Bool) (rd rs1 rs2 : GReg)
  /-- SLLW (R198). 32-bit shifts SLLW, SRLW and SRAW. -/
  | sllw (c : CoreId) (fn : ShiftFn) (rd rs1 rs2 : GReg)
  /-- MUL (R199). Low 64 bits of a product. -/
  | mul (c : CoreId) (rd rs1 rs2 : GReg)
  /-- MULH (R199). MULH, MULHU and MULHSU give the high 64 bits of the 128-bit product. -/
  | mulh (c : CoreId) (fn : MulhFn) (rd rs1 rs2 : GReg)
  /-- MULW (R199). Low 32 bits of a product, sign-extended. -/
  | mulw (c : CoreId) (rd rs1 rs2 : GReg)
  /-- DIV (R199). DIV and DIVU, rounded toward zero. -/
  | div (c : CoreId) (sign : Sign) (rd rs1 rs2 : GReg)
  /-- REM (R199). REM and REMU. -/
  | rem (c : CoreId) (sign : Sign) (rd rs1 rs2 : GReg)
  /-- DIVW (R199). 32-bit DIVW, DIVUW, REMW and REMUW. -/
  | divw (c : CoreId) (fn : DivFn) (rd rs1 rs2 : GReg)
  /-- ADDI (R200). Add immediate. -/
  | addi (c : CoreId) (rd rs1 : GReg) (imm : BitVec 16)
  /-- ADDIW (R200). 32-bit add immediate, sign-extended. -/
  | addiw (c : CoreId) (rd rs1 : GReg) (imm : BitVec 16)
  /-- ANDI (R200). ANDI, ORI and XORI with a zero-extended immediate. -/
  | andi (c : CoreId) (fn : LogicFn) (rd rs1 : GReg) (imm : BitVec 16)
  /-- SLTI (R200). SLTI and SLTIU. -/
  | slti (c : CoreId) (sign : Sign) (rd rs1 : GReg) (imm : BitVec 16)
  /-- SLLI (R200). Shifts by immediate, including the 32-bit forms. -/
  | slli (c : CoreId) (fn : ShiftFn) (word : Bool) (rd rs1 : GReg) (amount : BitVec 6)
  /-- LUI (R200). Loads imm21 times 2^16. -/
  | lui (c : CoreId) (rd : GReg) (imm : BitVec 21)
  /-- AUIPC (R200). Adds imm21 times 2^12 to the PC. -/
  | auipc (c : CoreId) (rd : GReg) (imm : BitVec 21)
  /-- LOAD (R201). LB to LD load after translation and checks. -/
  | load (c : CoreId) (fn : LoadFn) (rd rs1 : GReg) (imm : BitVec 16)
  /-- FLW_FLD (R201). Floating-point loads. -/
  | flwFld (c : CoreId) (fmt : FpFmt) (rd : FReg) (rs1 : GReg) (imm : BitVec 16)
  /-- STORE (R203). SB to SD are checked and enter the store buffer at retirement. -/
  | store (c : CoreId) (fn : StoreFn) (rs2 rs1 : GReg) (imm : BitVec 16)
  /-- FSW_FSD (R201). Floating-point stores. -/
  | fswFsd (c : CoreId) (fmt : FpFmt) (rs2 : FReg) (rs1 : GReg) (imm : BitVec 16)
  /-- BEQ_BNE (R204). Branch on equal or not equal. -/
  | beqBne (c : CoreId) (ne : Bool) (rs1 rs2 : GReg) (off : BitVec 16)
  /-- BLT_BGE (R204). Signed conditional branches. -/
  | bltBge (c : CoreId) (ge : Bool) (rs1 rs2 : GReg) (off : BitVec 16)
  /-- BLTU_BGEU (R204). Unsigned conditional branches. -/
  | bltuBgeu (c : CoreId) (ge : Bool) (rs1 rs2 : GReg) (off : BitVec 16)
  /-- J (R204). Direct jump. -/
  | j (c : CoreId) (off : BitVec 26)
  /-- JAL (R204). Jump and link g1. -/
  | jal (c : CoreId) (off : BitVec 26)
  /-- JALR (R204). Indirect jump and link. -/
  | jalr (c : CoreId) (rd rs1 : GReg) (imm : BitVec 16)
  /-- LOOP (R206). Opens a zero-overhead loop with a register count. -/
  | loop (c : CoreId) (lvl : Bool) (rs1 : GReg) (len : BitVec 14)
  /-- LOOPI (R206). Opens a zero-overhead loop with an immediate count. -/
  | loopi (c : CoreId) (lvl : Bool) (count : BitVec 11) (len : BitVec 14)
  /-- FADD (R210). FADD, FSUB, FMUL and FDIV. -/
  | fadd (c : CoreId) (fn : FpArith) (fmt : FpFmt) (rm : Rounding) (rd rs1 rs2 : FReg)
  /-- FSQRT (R210). Square root. -/
  | fsqrt (c : CoreId) (fmt : FpFmt) (rm : Rounding) (rd rs1 : FReg)
  /-- FMIN_FMAX (R213). Floating-point minimum and maximum. -/
  | fminFmax (c : CoreId) (fn : MinMaxFn) (fmt : FpFmt) (rd rs1 rs2 : FReg)
  /-- FSIGN (R210). FSIGN.C, FSIGN.N and FSIGN.X sign operations. -/
  | fsign (c : CoreId) (fn : SignFn) (fmt : FpFmt) (rd rs1 rs2 : FReg)
  /-- FEQ (R210). FEQ, FLT and FLE comparisons. -/
  | feq (c : CoreId) (fn : FpCmp) (fmt : FpFmt) (rd : GReg) (rs1 rs2 : FReg)
  /-- FKIND (R213). Classifies a floating-point value. -/
  | fkind (c : CoreId) (fmt : FpFmt) (rd : GReg) (rs1 : FReg)
  /-- FTOI_W (R210). Conversion to int32 or uint32. -/
  | ftoiW (c : CoreId) (sign : Sign) (fmt : FpFmt) (rm : Rounding) (rd : GReg) (rs1 : FReg)
  /-- FTOI_L (R210). Conversion to int64 or uint64. -/
  | ftoiL (c : CoreId) (sign : Sign) (fmt : FpFmt) (rm : Rounding) (rd : GReg) (rs1 : FReg)
  /-- ITOF_W (R210). Conversion from int32 or uint32. -/
  | itofW (c : CoreId) (sign : Sign) (fmt : FpFmt) (rm : Rounding) (rd : FReg) (rs1 : GReg)
  /-- ITOF_L (R210). Conversion from int64 or uint64. -/
  | itofL (c : CoreId) (sign : Sign) (fmt : FpFmt) (rm : Rounding) (rd : FReg) (rs1 : GReg)
  /-- FRESIZE (R210). Conversion between binary32 and binary64. -/
  | fresize (c : CoreId) (fmt : FpFmt) (rm : Rounding) (rd rs1 : FReg)
  /-- FBITS_G (R210). Copies bits from an f register to a g register. -/
  | fbitsG (c : CoreId) (fmt : FpFmt) (rd : GReg) (rs1 : FReg)
  /-- FBITS_F (R210). Copies bits from a g register to an f register. -/
  | fbitsF (c : CoreId) (fmt : FpFmt) (rd : FReg) (rs1 : GReg)
  /-- FMADD (R211). Fused rs1 times rs2 plus rs3. -/
  | fmadd (c : CoreId) (fmt : FpFmt) (rm : Rounding) (rd rs1 rs2 rs3 : FReg)
  /-- FMSUB (R211). Fused rs1 times rs2 minus rs3. -/
  | fmsub (c : CoreId) (fmt : FpFmt) (rm : Rounding) (rd rs1 rs2 rs3 : FReg)
  /-- FNMSUB (R211). Fused negated product plus rs3. -/
  | fnmsub (c : CoreId) (fmt : FpFmt) (rm : Rounding) (rd rs1 rs2 rs3 : FReg)
  /-- FNMADD (R211). Fused negated product minus rs3. -/
  | fnmadd (c : CoreId) (fmt : FpFmt) (rm : Rounding) (rd rs1 rs2 rs3 : FReg)
  /-- LDRES (R270). Loads and reserves a 128-byte granule. -/
  | ldres (c : CoreId) (double : Bool) (rd rs1 : GReg)
  /-- STCOND (R272). Stores only while the reservation holds, and reports success in rd. -/
  | stcond (c : CoreId) (double : Bool) (rd rs1 rs2 : GReg)
  /-- FENCE (R268). Orders all earlier accesses before all later ones. -/
  | fence (c : CoreId)
  /-- FENCE_SL (R268). Drains the store buffer before later loads. -/
  | fenceSl (c : CoreId)
  /-- FENCE_L (R268). Orders earlier loads before later loads. -/
  | fenceL (c : CoreId)
  /-- FENCE_IO (R269). Orders DEV accesses against normal accesses. -/
  | fenceIo (c : CoreId)
  /-- SYNC_I (R215). Makes later fetches observe earlier stores, and empties the fetch queue and loop buffer. -/
  | syncI (c : CoreId)
  /-- RDGT (R216). Reads GT, or traps under HCTL.TRDGT. -/
  | rdgt (c : CoreId) (rd : GReg)
  /-- MFSR (R217). Reads a system register. -/
  | mfsr (c : CoreId) (rd : GReg) (number : BitVec 12)
  /-- MTSR (R217). Writes a system register, opening a latent window when the register is marked Latent. -/
  | mtsr (c : CoreId) (rs1 : GReg) (number : BitVec 12)
  /-- SVCALL (R218). Supervisor call exception. -/
  | svcall (c : CoreId) (imm : BitVec 16)
  /-- HVCALL (R218). Hypervisor call exception. -/
  | hvcall (c : CoreId) (imm : BitVec 16)
  /-- MONCALL (R218). Monitor call, taken at PL3. -/
  | moncall (c : CoreId) (imm : BitVec 16)
  /-- ERET (R176). Returns from an exception level, committing pending changes. -/
  | eret (c : CoreId)
  /-- WFI (R186). Waits until an interrupt becomes takeable. -/
  | wfi (c : CoreId)
  /-- TLBI_VA (R258). Invalidates the entries for a virtual address and ASID. -/
  | tlbiVa (c : CoreId) (rs1 rs2 : GReg)
  /-- TLBI_ASID (R258). Invalidates the entries of an ASID. -/
  | tlbiAsid (c : CoreId) (rs1 : GReg)
  /-- TLBI_GUEST (R258). Invalidates every entry of the current VMID. -/
  | tlbiGuest (c : CoreId)
  /-- TLBI_IPA (R258). Invalidates the entries of an IPA page, including those of the queue engines. -/
  | tlbiIpa (c : CoreId) (rs1 rs2 : GReg)
  /-- TLBI_VMID (R258). Invalidates every entry of a VMID. -/
  | tlbiVmid (c : CoreId) (rs1 : GReg)
  /-- TLBI_ALL (R258). Invalidates every entry. -/
  | tlbiAll (c : CoreId)
  /-- GT_CTRL (R593). A write that changes the discipline source drops the outstanding correction and restarts the servo or free-running rate. -/
  | gtCtrl (who : Requester) (value : Word32)
  /-- SYNC (R592). A synchronisation message arrives, and the servo measures GT_OFFSET and updates its rate and correction terms. -/
  | sync (src : SyncSource) (offset : Word64) (interval : Word32)
  /-- RTC_TICK (R46). Each 32.768 kHz RTC tick advances the RTC count and refreshes the GT backup. -/
  | rtcTick
  /-- VDD_AO_LOSS (R49). Loss of VDD_AO invalidates the backup, so GT restarts at 0 with BACKUP_LOST set. -/
  | vddAoLoss
  /-- PHB_CTRL (R34). A write to PHB_CTRL starts or stops a phase base, applies a stored source and clears STALE and HELD. -/
  | phbCtrl (b : BaseId) (who : Requester) (value : Word32)
  /-- PHB_PRESET (R57). A write loads the base value while EN is 0, and is ignored while EN is 1. -/
  | phbPreset (b : BaseId) (value : Word64)
  /-- PHB_STREAM_POS (R40). A software position update is applied to a STREAM base by moving, jumping or holding it. -/
  | phbStreamPos (b : BaseId) (value : Word64)
  /-- ENCODER_EDGE (R37). A counted quadrature or pulse edge adds or subtracts INC, or an illegal transition sets EDGE_ERR. -/
  | encoderEdge (b : BaseId) (levelA : Bool) (levelB : Bool)
  /-- CMP_CTRL (R64). A write to CMP_CTRL arms or disarms a compare, checks it for LATE and records the writer's EID. -/
  | cmpCtrl (n : CmpId) (who : Requester) (value : Word32)
  /-- CMP_VALUE (R65). A write of the compare value is checked for LATE while armed, and it overrides a same-clock AUTO_STEP. -/
  | cmpValue (n : CmpId) (value : Word64)
  /-- CMP_ACTION (R70). A write of the actions records the writer's EID in CMP_CTRL.EID. -/
  | cmpAction (n : CmpId) (who : Requester) (value : Word32)
  /-- PIN_CFG (R72). A write to PIN_CFG changes the mode or levels, and the change reaches the ball 8 ns later. -/
  | pinCfg (p : PinId) (who : Requester) (value : Word32)
  /-- PIN_LOCK (R79). Writing PIN_CFG.LOCK locks PIN_CFG and PIN_OWNER until reset. -/
  | pinLock (p : PinId) (who : Requester)
  /-- PIN_ACT (R73). A software write to PIN_ACT submits a pin action after the enclave check. -/
  | pinAct (p : PinId) (who : Requester) (value : Word32)
  /-- PIN_OWNER (R75). A write of the owning enclave of a pin is performed only at PL3. -/
  | pinOwner (p : PinId) (who : Requester) (value : Word32)
  /-- VSEL (R78). A write that changes PIN_BANK_CFG.VSEL clears SUPPLY_OK and holds the bank high-impedance. -/
  | vsel (k : BankId) (who : Requester) (value : Word32)
  /-- SUPPLY_ERR (R78). A bank supply leaves its range, so SUPPLY_OK clears and the pins are released at the pad. -/
  | supplyErr (k : BankId)
  /-- SUPPLY_OK (R78). After 100 us of supply in range, SUPPLY_OK is set and the pins drive their states again. -/
  | supplyOk (k : BankId)
  /-- CAP_VALUE (R83). A 64-bit read of CAP_VALUE returns the capture and clears FULL. -/
  | capValue (n : CapId)
  /-- SD_RESULT (R84). A sinc3 result is produced, and the device checks thresholds, asserts trips and writes the point. -/
  | sdResult (n : SdId) (sum : BitVec 25)
  /-- CLK_LOSS (R85). No modulator clock edge arrives for 1 us, so VALID clears and an optional trip is asserted. -/
  | clkLoss (n : SdId)
  /-- LOCAL_MEMORY_ACCESS (R105). An outside agent's access to phase-core local memory is served in a free clock. -/
  | localMemoryAccess (pc : PcId) (who : Requester) (offset : BitVec 16) (size : BitVec 2) (store : Option Word64)
  /-- RUN_START (R129). Writing PCC_CTRL.RUN from 0 to 1 starts a halted or faulted core at PCC_ENTRY. -/
  | runStart (pc : PcId) (who : Requester)
  /-- RUN_STOP (R122). Writing RUN to 0 stops the core, abandoning or completing the instruction in progress. -/
  | runStop (pc : PcId) (who : Requester)
  /-- CORE_RST (R129). Writing CORE_RST resets a phase core's state, registers and event queues. -/
  | coreRst (pc : PcId) (who : Requester)
  /-- TMODE (R115). A write of PCC_CTRL.TMODE changes the timing mode after two instructions. -/
  | tmode (pc : PcId) (who : Requester) (mode : Bool)
  /-- PCC_EV_POST (R132). A write posts an event with source 2,047 to a task input. -/
  | pccEvPost (pc : PcId) (who : Requester) (input : BitVec 3)
  /-- PCC_EID (R130). A write of PCC_EID or a window register is accepted only while the core is halted or faulted, and PCC_EID only at PL3. -/
  | pccEid (pc : PcId) (who : Requester) (reg : PccGuarded) (value : Word64)
  /-- ARB_FREEZE (R145). A write of ARB_CTRL.FREEZE stops or resumes new grants. -/
  | arbFreeze (a : ArbId) (who : Requester) (value : Word32)
  /-- MISS_CLR (R156). Writing MISS_CLR clears the miss counters and the greatest lateness. -/
  | missClr (a : ArbId) (who : Requester) (value : Word32)
  /-- LATENT_WINDOW_END (R165). After three instructions a mode-changing write takes effect. -/
  | latentWindowEnd (c : CoreId)
  /-- IRT_SRC_CFG (R182). A write to a router source's registers retries a source held with a target error. -/
  | irtSrcCfg (n : SrcId) (who : Requester) (record : Bool) (value : Word64)
  /-- IRT_SWGEN (R191). A write raises one software-generated source. -/
  | irtSwgen (page : BitVec 6) (who : Requester) (value : Word32)
  /-- FRAME_RECEIVE (R396). A received frame is identified, filtered and given its destination set and buffer cells. -/
  | frameReceive (p : PortId) (frame : List Byte)
  /-- FRAME_END (R398). At a frame's end its unused cells are returned. -/
  | frameEnd (p : PortId) (good : Bool)
  /-- SWAP (R402). Writing PORT_GCL_CTRL.SWAP arms the pending gate list. -/
  | swap (p : PortId) (who : Requester)
  /-- PDELAY_REQ (R404). A port answers a peer-delay request. -/
  | pdelayReq (p : PortId) (frame : List Byte) (instant : Word64)
  /-- LINK_CHG (R423). A port's link status changes. -/
  | linkChg (p : PortId) (up : Bool)
  /-- GO (R417). Writing PT_ASG_CTRL.GO assigns a range of points to an owner and class. -/
  | go (who : Requester)
  /-- SET (R419). Writing PT_FRC_CTRL.SET forces a point's value. -/
  | set (who : Requester)
  /-- CLEAR (R419). Writing PT_FRC_CTRL.CLEAR ends the forcing of a point. -/
  | clear (who : Requester)
  /-- ERT_COMMIT (R431). Copies, validates and adopts the ERT, then starts the directory walks. -/
  | ertCommit (c : CoreId) (who : Requester)
  /-- PURGE (R432). The target core writes back and invalidates its caches. -/
  | purge (c : CoreId) (who : Requester)
  /-- DERIVE (R438). Starts the HMAC derivation of a sealing key. -/
  | derive (c : CoreId) (who : Requester)
  /-- KEY_CLEAR (R438). Writing ENC_KEY_CTRL.CLEAR zeroes the key registers and clears READY. -/
  | keyClear (c : CoreId) (who : Requester)
  /-- LINK_EN (R454). Writing PAIR_CFG.LINK_EN starts the training of the pair link. -/
  | linkEn (who : Requester) (value : Word32)
  /-- LINK_UP (R454). Training completes with the lanes locked and the sides checked. -/
  | linkUp (lanes : BitVec 4) (peerSide : Bool)
  /-- PAIR_GROUP (R453). A received group is delivered once every lane's CRC checks, or is refused and replayed. -/
  | pairGroup (g : PairGroup)
  /-- ALIGNMENT_EXCHANGE (R457). Side B computes its offset from the four timestamps and steers GT. -/
  | alignmentExchange (t1 t2 t3 t4 : Word64)
  /-- GATE_PEER_ITEM (R461). A peer item arrives, and a matched pair is released or declared a mismatch. -/
  | gatePeerItem (item : GateItem)
  /-- CMDR_TAIL (R476). A write of the ring tail posts commands, or sets TAIL_ERR. -/
  | cmdrTail (j : RingId) (who : Requester) (value : Word32)
  /-- CMDR_CFG (R476). A write of EN starts a ring with HEAD and TAIL at 0, or stops it. -/
  | cmdrCfg (j : RingId) (who : Requester) (value : Word32)
  /-- WATCHDOG (R474). The 10 ms watchdog expires, WDOG is set, and a CORE_FATAL entry is written. -/
  | watchdog
  /-- WRITE_CMD (R477). A management SPI packet is accepted, or rejected with REJECT. -/
  | writeCmd (packet : List Byte)
  /-- READ_REPLY (R477). A management SPI transaction reads the waiting reply. -/
  | readReply
  /-- ENGAGE_SPARE (R474). While WDOG is 1, this SPI instruction starts spare command core 1. -/
  | engageSpare
  /-- REFCLK_STOP (R502). REFCLK stops in STANDBY, and the units hold their state. -/
  | refclkStop
  /-- REFCLK_RETURN (R502). REFCLK returns, the PLLs relock and the held units resume. -/
  | refclkReturn (boot : BootInput)
  /-- REFCLK_LOSS (R506). REFCLK is lost outside STANDBY, so pins are released and the device is held in reset. -/
  | refclkLoss
  /-- PORESET_ASSERT (R505). A cold reset resets everything except the items kept. -/
  | poresetAssert
  /-- PORESET_RELEASE (R508). A cold start runs the start-up steps. -/
  | poresetRelease (boot : BootInput)
  /-- RESET_ASSERT (R331). A warm reset drains stores and dirty lines to DRAM and puts DRAM into self-refresh. -/
  | resetAssert
  /-- RESET_RELEASE (R509). A warm start exits self-refresh and restarts the device. -/
  | resetRelease (boot : BootInput)
  /-- SAFELIGHT_RESET (R505). TRST_N held low for 1 ms, or a rise of a safelight rail, resets the safelight domain. -/
  | safelightReset
  /-- RAIL_LOSS (R512). A rail of group 2 or 3 out of range for 2 us acts as PORESET_N and sets mode OFF. -/
  | railLoss (rail : Byte)
  /-- PMBUS_ALERT (R513). Lemam reads every regulator's STATUS_WORD and handles the faults. -/
  | pmbusAlert (words : List (BitVec 16))
  /-- SDSREF_LOSS (R581). Loss of a SerDes reference takes the quadrant's links down. -/
  | sdsrefLoss (quadrant : BitVec 2)
  /-- MONITOR_SAMPLE (R531). A monitor samples and raises its alarm level. -/
  | monitorSample (kind : MonKind) (n : Byte) (reading : BitVec 16) (slots : List (BitVec 16))
  /-- DBG_ACC (R539). A TAP access reads or writes the debug space. -/
  | dbgAcc (dr : BitVec 67)
  /-- HALT_REQ (R541). Requests a main-core halt at the next boundary. -/
  | haltReq (c : CoreId)
  /-- RESUME (R541). A halted main core continues at its PC. -/
  | resume (c : CoreId)
  /-- STEP (R542). A halted main core executes one instruction and halts again. -/
  | step (c : CoreId)
  /-- PC_HALT_REQ (R545). A phase core halts after its instruction in progress. -/
  | pcHaltReq (pc : PcId)
  /-- PC_RESUME (R545). A halted phase core continues at PCC_PC. -/
  | pcResume (pc : PcId)
  /-- PC_STEP (R545). A halted phase core executes one instruction. -/
  | pcStep (pc : PcId)
  /-- DBG_SYS_GO (R540). A system access is made at a physical address at PL3. -/
  | dbgSysGo (value : Word32)
  /-- COUNTER_OVERFLOW (R553). A performance counter wraps, sets OVF, takes a sample and raises vector 254. -/
  | counterOverflow (c : CoreId) (ctr : BitVec 4)
  /-- PMU_CLR (R551). Writing PMU_CTRL.CLR zeroes every counter of the core. -/
  | pmuClr (c : CoreId)
  /-- PMB_CLR (R554). Writing xx_PMB_CTRL.CLR zeroes a unit's four counters. -/
  | pmbClr (bank : BankUnit) (who : Requester)
  /-- PMB_WRAP (R554). A bank counter wraps and sets OVF. -/
  | pmbWrap (bank : BankUnit) (k : BitVec 2)
  /-- ARM (R555). Writing GT_SHUTTER_CTRL.ARM arms the shutter instant. -/
  | arm (who : Requester)
  /-- FREEZE (R556). A write of GT_PMU_FREEZE stops or restarts every counter. -/
  | freeze (who : Requester) (value : Word32)
  /-- RAIL_RETURN (R512). The supply rails come back into range after OFF or after a rail loss, and the device starts again as after a cold reset. -/
  | railReturn (boot : BootInput)
  /-- SAFELIGHT_RAIL_LOSS (R446). VDD_SL08 or VDD_SL18 leaves its range, so DEBUG_OPEN clears, comparators and cross-triggers go inactive, and the closing of debug clears every core's key registers. -/
  | safelightRailLoss
  /-- REGISTER_WRITE (R12). A write to a register that has no row of its own stores or ignores each field according to its type. -/
  | registerWrite (who : Requester) (addr : PAddr) (size : BitVec 2) (value : Word64)
  /-- TIME_STEP (R27). The command adds a forward step to GT and lowers the slack held in arbiters and home slices. -/
  | timeStep (src : CmdSource) (step : Word64)
  /-- ECHO (R485). Returns the parameter bytes. -/
  | echo (src : CmdSource) (bytes : List Byte)
  /-- GET_INFO (R486). Returns the device information. -/
  | getInfo (src : CmdSource)
  /-- MODE_SET (R496). Requests a permitted mode change. -/
  | modeSet (src : CmdSource) (mode : Byte)
  /-- MODE_GET (R485). Returns the mode, the previous mode, the cause and the GT of the change. -/
  | modeGet (src : CmdSource)
  /-- POWER_POINT_SET (R515). Sets a main core's clock point, or powers it off or on. -/
  | powerPointSet (src : CmdSource) (core : Byte) (point : Byte)
  /-- PVT_READ (R485). Returns monitor readings. -/
  | pvtRead (src : CmdSource) (kind : Byte) (first : Byte) (count : Byte)
  /-- SPARE_STATUS (R534). Returns the spare records of a group kind. -/
  | spareStatus (src : CmdSource) (kind quad : Byte)
  /-- SPARE_ENGAGE (R524). Replaces a unit by a spare. -/
  | spareEngage (src : CmdSource) (kind quad group : Byte) (unit : BitVec 16)
  /-- CONTACT_READ (R591). Returns contact-sheet entries from a SEQ onward. -/
  | contactRead (src : CmdSource) (first : Word32) (count : Byte)
  /-- CONTACT_CLEAR (R357). Writes VALID 0 in every entry. -/
  | contactClear (src : CmdSource)
  /-- DRAM_CONFIG (R329). Sets the DRAM configuration before initialisation. -/
  | dramConfig (src : CmdSource) (params : List Byte)
  /-- DRAM_DELAYSET_LOAD (R326). Writes a delay set of one channel. -/
  | dramDelaysetLoad (src : CmdSource) (params : List Byte)
  /-- DRAM_DELAYSET_SELECT (R327). Selects a delay set, applied at the next blackout. -/
  | dramDelaysetSelect (src : CmdSource) (set mask : Byte)
  /-- DRAM_MARGIN_SCAN (R328). Sweeps a frozen channel's delays and preflashes the channel. -/
  | dramMarginScan (src : CmdSource) (params : List Byte)
  /-- DRAM_ERASE_DEVICE (R361). Treats one device of a rank as erasures. -/
  | dramEraseDevice (src : CmdSource) (channel sub rank device : Byte)
  /-- DRAM_REPAIR_ROW (R362). Performs a hard post-package repair of a row. -/
  | dramRepairRow (src : CmdSource) (params : List Byte)
  /-- DRAM_SCRUB_SET (R348). Sets the scrub period, or turns scrubbing off. -/
  | dramScrubSet (src : CmdSource) (mask hours : Byte)
  /-- VI_CREATE (R366). Makes a VI valid with its queues UNBOUND. -/
  | viCreate (src : CmdSource) (params : List Byte)
  /-- VI_DESTROY (R366). Resets a VI and makes it invalid. -/
  | viDestroy (src : CmdSource) (vi : BitVec 16)
  /-- VI_RESET (R366). Resets every bound queue of a VI. -/
  | viReset (src : CmdSource) (vi : BitVec 16)
  /-- QUEUE_BIND (R366). Binds a queue with its type and rings. -/
  | queueBind (src : CmdSource) (params : List Byte)
  /-- QUEUE_RESET (R384). Advances the generation, clears the queue and abandons its descriptor. -/
  | queueReset (src : CmdSource) (queue : Word32)
  /-- PORT_CONFIG (R489). Writes a list of port registers. -/
  | portConfig (src : CmdSource) (port : Byte) (writes : List CfgWrite)
  /-- SWITCH_CONFIG (R489). Writes a list of switch registers. -/
  | switchConfig (src : CmdSource) (writes : List CfgWrite)
  /-- DINATH_CONFIG (R489). Writes a list of Dinath and point-image registers. -/
  | dinathConfig (src : CmdSource) (writes : List CfgWrite)
  /-- PHASE_BASE_CONFIG (R489). Writes a list of phase-base registers. -/
  | phaseBaseConfig (src : CmdSource) (base : Byte) (writes : List CfgWrite)
  /-- PAIR_CONFIG (R489). Writes a list of pair-link registers. -/
  | pairConfig (src : CmdSource) (writes : List CfgWrite)
  /-- PAIR_STATUS (R485). Returns the pair-link status registers. -/
  | pairStatus (src : CmdSource)
  /-- SHUTTER (R555). Arms a shutter instant, or takes a shutter at once. -/
  | shutter (src : CmdSource) (instant : Word64)
  /-- LIFECYCLE_ADVANCE (R444). Burns a lifecycle transition or raises SECVER. -/
  | lifecycleAdvance (src : CmdSource) (params : List Byte)
  /-- DEBUG_UNLOCK (R445). Erases the device and opens debug in DEVELOPMENT. -/
  | debugUnlock (src : CmdSource)
  /-- LOCK_REGION (R493). Locks the covered fields of an area until reset. -/
  | lockRegion (src : CmdSource) (area : BitVec 16) (first : Word32) (count : Word32)
  /-- CONFIG_CHECKSUM (R492). Returns the CRC-32C over the covered fields of an area. -/
  | configChecksum (src : CmdSource) (area : BitVec 16) (first : Word32) (count : Word32)
  /-- EXTEST (R538). Drives the balls from the boundary register when permitted. -/
  | extest (levels : BitVec 512) (enables : BitVec 512)
  /-- SAMPLE_PRELOAD (R538). Samples the boundary-scan chain. -/
  | samplePreload (levels : BitVec 512) (enables : BitVec 512)
  /-- ILLEGAL_INSTRUCTION (R194). A main core reaches an instruction word with an unassigned opcode, fn value or non-zero must-be-zero field, such as preflashed zero memory, and raises ILLEGAL. -/
  | illegalInstruction (c : CoreId) (word : Word32)
  /-- PC_ILLEGAL_INSTRUCTION (R107). A phase core reaches opcode 0x00, an unlisted opcode or fn value, or an odd register in a pair position, and faults with cause ILLEGAL. -/
  | pcIllegalInstruction (pc : PcId) (word : Word32)
deriving DecidableEq, Repr

end Sys2Proof
end

