-- ==== Sys2Proof/Machine/Util.lean ====
section
/-!
DEFINITION. Sys2Proof/Machine/Util.lean: bit fields, signed readings, byte order, saturating counts and the sorted tables that
hold sparse data in one canonical form.
-/
namespace Sys2Proof.Machine

/-- The bits [hi:lo] of a number (R16). -/
def fld (v hi lo : Nat) : Nat := (v >>> lo) % 2 ^ (hi - lo + 1)

/-- The number `v` with its bits [hi:lo] replaced by the low bits of `x`. -/
def putFld (v hi lo x : Nat) : Nat :=
  let m := 2 ^ (hi - lo + 1)
  (v >>> (hi + 1)) <<< (hi + 1) + (x % m) <<< lo + v % 2 ^ lo

/-- Bit `i` of a number. -/
def bitOf (v i : Nat) : Bool := v.testBit i

/-- A truth value as the bit 1 or 0. -/
def b2n (b : Bool) : Nat := if b then 1 else 0

/-- The low `w` bits of `v` read as a signed two's-complement number. -/
def toSigned (w v : Nat) : Int :=
  let x := v % 2 ^ w
  if x < 2 ^ (w - 1) then (x : Int) else (x : Int) - 2 ^ w

/-- A signed number taken modulo 2^w. -/
def wrapTo (w : Nat) (v : Int) : Nat := (v % (2 ^ w : Int)).toNat

/-- A signed number clamped to the signed range of `w` bits. -/
def satSigned (w : Nat) (v : Int) : Int :=
  if v < -(2 ^ (w - 1) : Int) then -(2 ^ (w - 1) : Int)
  else if v > (2 ^ (w - 1) : Int) - 1 then (2 ^ (w - 1) : Int) - 1 else v

/-- A count that saturates at `2^w - 1`. -/
def satInc (w v : Nat) (by_ : Nat := 1) : Nat := min (v + by_) (2 ^ w - 1)

/-- `n` bytes of a number, least significant first (R11). -/
def toBytes : Nat → Nat → List Byte
  | 0, _ => []
  | n + 1, v => BitVec.ofNat 8 v :: toBytes n (v / 256)

/-- The number that little-endian bytes spell. -/
def ofBytes : List Byte → Nat
  | [] => 0
  | b :: bs => b.toNat + 256 * ofBytes bs

/-- The number that big-endian bytes spell (network order). -/
def ofBytesBE (bs : List Byte) : Nat := ofBytes bs.reverse

/-- `n` bytes of a number, most significant first. -/
def toBytesBE (n v : Nat) : List Byte := (toBytes n v).reverse

/-- Signed comparison of two deadline stamps (R30): `a` is the earlier. -/
def stampBefore (a b : Stamp) : Bool := (a - b).slt 0

/-! ### Sorted tables -/

/-- Sparse data by number: entries sorted by key, none equal to what an unlisted key reads as. -/
abbrev Tab (α : Type) := List (Nat × α)

variable {α : Type}

/-- What the table holds under a key, if it lists one. -/
def tabFind : Tab α → Nat → Option α
  | [], _ => none
  | (k, v) :: t, i => if k = i then some v else tabFind t i

/-- What the table reads as under a key: the listed entry, else the default of that key. -/
def tabGet (d : α) (t : Tab α) (i : Nat) : α := (tabFind t i).getD d

/-- The table without a key. -/
def tabErase (t : Tab α) (i : Nat) : Tab α := t.filter (fun e => e.1 != i)

/-- The table with one entry put at its sorted place. -/
def tabInsert (i : Nat) (v : α) : Tab α → Tab α
  | [] => [(i, v)]
  | (k, x) :: t => if i < k then (i, v) :: (k, x) :: t else (k, x) :: tabInsert i v t

/-- The table after a write: the entry goes when the value is what an unlisted key reads as. -/
def tabSet [DecidableEq α] (d : α) (t : Tab α) (i : Nat) (v : α) : Tab α :=
  if v = d then tabErase t i else tabInsert i v (tabErase t i)

/-- The keys rise strictly. -/
def tabSorted : Tab α → Bool
  | [] => true
  | [_] => true
  | (a, _) :: (b, y) :: t => decide (a < b) && tabSorted ((b, y) :: t)

/-- The canonical form of a table whose unlisted keys read as `d` gives. -/
def tabWf [DecidableEq α] (d : Nat → α) (t : Tab α) : Bool :=
  tabSorted t && t.all (fun e => decide (e.2 ≠ d e.1))

end Sys2Proof.Machine
end

