-- ==== Sys2Proof/Machine/RegMap.lean ====
section
/-!
DEFINITION. Sys2Proof/Machine/RegMap.lean: the register map. The address of every memory-mapped register of the spec's register
tables, and for each its width, its value after PORESET_N and which of its bits have which type of R12. Registers of the
debug space (R540) are keyed at 2^46 plus their debug-space address, above every physical address. A field wider than 64 bits
is held as consecutive 32-bit registers (R11).
-/
namespace Sys2Proof.Machine

/-- One row of the register map: an array of up to two dimensions of like registers. -/
structure RegDesc where
  base : Nat
  n1 : Nat
  s1 : Nat
  n2 : Nat
  s2 : Nat
  /-- 64 bits wide (R11); else 32. -/
  wide : Bool
  /-- the Reset column (R14) -/
  reset : Nat
  /-- bits of type RW, RWL, W1C and WO (R12); every other bit is RO or reserved -/
  rw : Nat
  rwl : Nat
  w1c : Nat
  wo : Nat
  /-- the AREA of R491 that covers it, 0 for none, and the bits covered -/
  area : Nat
  cover : Nat
deriving DecidableEq, Repr

/-- The register of the array at an address: its two indices. -/
def RegDesc.find (d : RegDesc) (a : Nat) : Option (Nat × Nat) :=
  if a < d.base then none
  else
    let o := a - d.base
    let i := if d.n1 ≤ 1 then 0 else o / d.s1
    let r := o - i * d.s1
    let j := if d.n2 ≤ 1 then 0 else r / d.s2
    if i < d.n1 ∧ j < d.n2 ∧ r = j * d.s2 then some (i, j) else none

namespace Reg
/-- GT_NOW (R50). -/
def GT_NOW : Nat := 0x13000000
/-- GT_CTRL (R51). -/
def GT_CTRL : Nat := 0x13000008
/-- GT_RATE_SW (R52). -/
def GT_RATE_SW : Nat := 0x13000010
/-- GT_RATE_EFF (R52). -/
def GT_RATE_EFF : Nat := 0x13000014
/-- GT_STATUS (R53). -/
def GT_STATUS : Nat := 0x13000018
/-- GT_OFFSET (R54). -/
def GT_OFFSET : Nat := 0x13000020
/-- GT_SLEW_REMAIN (R54). -/
def GT_SLEW_REMAIN : Nat := 0x13000028
/-- GT_DLS (R54). -/
def GT_DLS : Nat := 0x13000030
/-- GT_RTC_ELAPSED (R54). -/
def GT_RTC_ELAPSED : Nat := 0x13000038
/-- GT_STEP_COUNT (R54). -/
def GT_STEP_COUNT : Nat := 0x13000040
/-- PHB_CTRL (R55). -/
def PHB_CTRL (n : Nat) : Nat := 0x12000000 + n * 0x100
/-- PHB_INPUT (R56). -/
def PHB_INPUT (n : Nat) : Nat := 0x12000004 + n * 0x100
/-- PHB_VALUE (R57). -/
def PHB_VALUE (n : Nat) : Nat := 0x12000008 + n * 0x100
/-- PHB_PRESET (R57). -/
def PHB_PRESET (n : Nat) : Nat := 0x12000010 + n * 0x100
/-- PHB_RATE (R57). -/
def PHB_RATE (n : Nat) : Nat := 0x12000018 + n * 0x100
/-- PHB_RATE_GT (R57). -/
def PHB_RATE_GT (n : Nat) : Nat := 0x12000020 + n * 0x100
/-- PHB_STATUS (R58). -/
def PHB_STATUS (n : Nat) : Nat := 0x12000028 + n * 0x100
/-- PHB_DPLL (R59). -/
def PHB_DPLL (n : Nat) : Nat := 0x12000030 + n * 0x100
/-- PHB_RATE_WIN (R59). -/
def PHB_RATE_WIN (n : Nat) : Nat := 0x12000034 + n * 0x100
/-- PHB_STREAM_CFG (R59). -/
def PHB_STREAM_CFG (n : Nat) : Nat := 0x12000038 + n * 0x100
/-- PHB_STREAM_POS (R59). -/
def PHB_STREAM_POS (n : Nat) : Nat := 0x12000040 + n * 0x100
/-- PHB_TIME_RATIO (R59). -/
def PHB_TIME_RATIO (n : Nat) : Nat := 0x12000048 + n * 0x100
/-- PHB_NODE (R59). -/
def PHB_NODE (n : Nat) : Nat := 0x12000050 + n * 0x100
/-- PHB_LAST_UPD_GT (R59). -/
def PHB_LAST_UPD_GT (n : Nat) : Nat := 0x12000058 + n * 0x100
/-- CMP_CTRL (R91). -/
def CMP_CTRL (n : Nat) : Nat := 0x12010000 + n * 0x40
/-- CMP_ACTION (R92). -/
def CMP_ACTION (n : Nat) : Nat := 0x12010004 + n * 0x40
/-- CMP_LINK (R92). -/
def CMP_LINK (n : Nat) : Nat := 0x12010008 + n * 0x40
/-- CMP_ALLOW (R93). -/
def CMP_ALLOW (n : Nat) : Nat := 0x1201000c + n * 0x40
/-- CMP_VALUE (R93). -/
def CMP_VALUE (n : Nat) : Nat := 0x12010010 + n * 0x40
/-- CMP_STEP (R93). -/
def CMP_STEP (n : Nat) : Nat := 0x12010018 + n * 0x40
/-- CMP_PROJ (R93). -/
def CMP_PROJ (n : Nat) : Nat := 0x12010020 + n * 0x40
/-- CMP_MATCH_GT (R93). -/
def CMP_MATCH_GT (n : Nat) : Nat := 0x12010028 + n * 0x40
/-- CMP_STATUS (R93). -/
def CMP_STATUS (n : Nat) : Nat := 0x12010030 + n * 0x40
/-- CAP_CTRL (R94). -/
def CAP_CTRL (n : Nat) : Nat := 0x12020000 + n * 0x20
/-- CAP_VALUE (R94). -/
def CAP_VALUE (n : Nat) : Nat := 0x12020008 + n * 0x20
/-- CAP_STATUS (R94). -/
def CAP_STATUS (n : Nat) : Nat := 0x12020010 + n * 0x20
/-- SDF_CTRL (R95). -/
def SDF_CTRL (n : Nat) : Nat := 0x12030000 + n * 0x40
/-- SDF_PINS (R95). -/
def SDF_PINS (n : Nat) : Nat := 0x12030004 + n * 0x40
/-- SDF_RESULT (R95). -/
def SDF_RESULT (n : Nat) : Nat := 0x12030008 + n * 0x40
/-- SDF_THR_HI (R95). -/
def SDF_THR_HI (n : Nat) : Nat := 0x1203000c + n * 0x40
/-- SDF_THR_LO (R95). -/
def SDF_THR_LO (n : Nat) : Nat := 0x12030010 + n * 0x40
/-- SDF_STATUS (R95). -/
def SDF_STATUS (n : Nat) : Nat := 0x12030014 + n * 0x40
/-- SDF_PT (R95). -/
def SDF_PT (n : Nat) : Nat := 0x12030018 + n * 0x40
/-- PIN_CFG (R96). -/
def PIN_CFG (n : Nat) : Nat := 0x12040000 + n * 0x10
/-- PIN_OWNER (R97). -/
def PIN_OWNER (n : Nat) : Nat := 0x12040004 + n * 0x10
/-- PIN_STATUS (R97). -/
def PIN_STATUS (n : Nat) : Nat := 0x12040008 + n * 0x10
/-- PIN_ACT (R97). -/
def PIN_ACT (n : Nat) : Nat := 0x1204000c + n * 0x10
/-- PIN_BANK_CFG (R98). -/
def PIN_BANK_CFG (n : Nat) : Nat := 0x12050000 + n * 0x10
/-- PIN_BANK_STATUS (R98). -/
def PIN_BANK_STATUS (n : Nat) : Nat := 0x12050004 + n * 0x10
/-- PIN_BANK_IRQ_EN (R98). -/
def PIN_BANK_IRQ_EN (n : Nat) : Nat := 0x12050008 + n * 0x10
/-- CTR_CTRL (R99). -/
def CTR_CTRL (n : Nat) : Nat := 0x12060000 + n * 0x10
/-- CTR_COUNT (R99). -/
def CTR_COUNT (n : Nat) : Nat := 0x12060004 + n * 0x10
/-- CTR_TOP (R99). -/
def CTR_TOP (n : Nat) : Nat := 0x12060008 + n * 0x10
/-- CTR_STATUS (R99). -/
def CTR_STATUS (n : Nat) : Nat := 0x1206000c + n * 0x10
/-- PCC_CTRL (R131). -/
def PCC_CTRL (n : Nat) : Nat := 0x11000000 + n * 0x1000
/-- PCC_STATUS (R131). -/
def PCC_STATUS (n : Nat) : Nat := 0x11000004 + n * 0x1000
/-- PCC_ENTRY (R132). -/
def PCC_ENTRY (n : Nat) : Nat := 0x11000008 + n * 0x1000
/-- PCC_PRE_VEC (R132). -/
def PCC_PRE_VEC (n : Nat) : Nat := 0x1100000c + n * 0x1000
/-- PCC_PC (R132). -/
def PCC_PC (n : Nat) : Nat := 0x11000010 + n * 0x1000
/-- PCC_FAULT (R132). -/
def PCC_FAULT (n : Nat) : Nat := 0x11000014 + n * 0x1000
/-- PCC_FAULT_ADDR (R132). -/
def PCC_FAULT_ADDR (n : Nat) : Nat := 0x11000018 + n * 0x1000
/-- PCC_EID (R132). -/
def PCC_EID (n : Nat) : Nat := 0x1100001c + n * 0x1000
/-- PCC_TDL (R132). -/
def PCC_TDL (n : Nat) : Nat := 0x11000020 + n * 0x1000
/-- PCC_EV_GT (R132). -/
def PCC_EV_GT (n : Nat) : Nat := 0x11000028 + n * 0x1000
/-- PCC_CYCLES (R132). -/
def PCC_CYCLES (n : Nat) : Nat := 0x11000030 + n * 0x1000
/-- PCC_PRE_PC (R132). -/
def PCC_PRE_PC (n : Nat) : Nat := 0x11000038 + n * 0x1000
/-- PCC_CTASK (R132). -/
def PCC_CTASK (n : Nat) : Nat := 0x1100003c + n * 0x1000
/-- PCC_TASK_CFG (R132). -/
def PCC_TASK_CFG (n : Nat) (k : Nat) : Nat := 0x11000040 + n * 0x1000 + k * 0x8
/-- PCC_TASK_STAT (R132). -/
def PCC_TASK_STAT (n : Nat) (k : Nat) : Nat := 0x11000044 + n * 0x1000 + k * 0x8
/-- PCC_EV_POST (R132). -/
def PCC_EV_POST (n : Nat) : Nat := 0x11000080 + n * 0x1000
/-- PCC_WIN_BASE (R132). -/
def PCC_WIN_BASE (n : Nat) (k : Nat) : Nat := 0x11000100 + n * 0x1000 + k * 0x10
/-- PCC_WIN_CFG (R132). -/
def PCC_WIN_CFG (n : Nat) (k : Nat) : Nat := 0x11000108 + n * 0x1000 + k * 0x10
/-- ARB_CTRL (R156). -/
def ARB_CTRL (n : Nat) : Nat := 0x51000000 + n * 0x10000
/-- ARB_STATUS (R156). -/
def ARB_STATUS (n : Nat) : Nat := 0x51000004 + n * 0x10000
/-- ARB_PREEMPT_MARGIN (R157). -/
def ARB_PREEMPT_MARGIN (n : Nat) : Nat := 0x51000008 + n * 0x10000
/-- ARB_CLASS_T01 (R157). -/
def ARB_CLASS_T01 (n : Nat) : Nat := 0x51000010 + n * 0x10000
/-- ARB_CLASS_T2 (R157). -/
def ARB_CLASS_T2 (n : Nat) : Nat := 0x51000014 + n * 0x10000
/-- ARB_MISS_COUNT (R157). -/
def ARB_MISS_COUNT (n : Nat) : Nat := 0x51000018 + n * 0x10000
/-- ARB_MAX_LATE (R157). -/
def ARB_MAX_LATE (n : Nat) : Nat := 0x5100001c + n * 0x10000
/-- ARB_GRANT_COUNT (R157). -/
def ARB_GRANT_COUNT (n : Nat) : Nat := 0x51000020 + n * 0x10000
/-- ARB_PREEMPT_COUNT (R157). -/
def ARB_PREEMPT_COUNT (n : Nat) : Nat := 0x51000028 + n * 0x10000
/-- ARB_BP_CYCLES (R157). -/
def ARB_BP_CYCLES (n : Nat) : Nat := 0x51000030 + n * 0x10000
/-- ARB_BLACKOUT_NEXT (R157). -/
def ARB_BLACKOUT_NEXT (n : Nat) : Nat := 0x51000038 + n * 0x10000
/-- ARB_PORT_CFG (R158). -/
def ARB_PORT_CFG (n : Nat) (k : Nat) : Nat := 0x51001000 + n * 0x10000 + k * 0x10
/-- ARB_PORT_STAT (R158). -/
def ARB_PORT_STAT (n : Nat) (k : Nat) : Nat := 0x51001004 + n * 0x10000 + k * 0x10
/-- IRT_SRC_CFG (R192). -/
def IRT_SRC_CFG (n : Nat) : Nat := 0x60000000 + n * 0x10
/-- IRT_SRC_REC (R192). -/
def IRT_SRC_REC (n : Nat) : Nat := 0x60000008 + n * 0x10
/-- IRT_SWGEN (R192). -/
def IRT_SWGEN (n : Nat) : Nat := 0x60100000 + n * 0x1000
/-- HS_CFG (R305). -/
def HS_CFG (n : Nat) : Nat := 0x52000000 + n * 0x10000
/-- HS_STATUS (R305). -/
def HS_STATUS (n : Nat) : Nat := 0x52000004 + n * 0x10000
/-- HS_IRQ_EN (R305). -/
def HS_IRQ_EN (n : Nat) : Nat := 0x52000008 + n * 0x10000
/-- HS_IRQ_STATUS (R305). -/
def HS_IRQ_STATUS (n : Nat) : Nat := 0x5200000c + n * 0x10000
/-- HS_BACKINV_WIN (R306). -/
def HS_BACKINV_WIN (n : Nat) : Nat := 0x52000010 + n * 0x10000
/-- HS_DIR_USED (R306). -/
def HS_DIR_USED (n : Nat) : Nat := 0x52000014 + n * 0x10000
/-- HS_COUNT_BACKINV (R306). -/
def HS_COUNT_BACKINV (n : Nat) : Nat := 0x52000018 + n * 0x10000
/-- HS_COUNT_FWDMISS (R306). -/
def HS_COUNT_FWDMISS (n : Nat) : Nat := 0x52000020 + n * 0x10000
/-- HS_COUNT_STALE_WB (R306). -/
def HS_COUNT_STALE_WB (n : Nat) : Nat := 0x52000028 + n * 0x10000
/-- HS_COUNT_DENY (R306). -/
def HS_COUNT_DENY (n : Nat) : Nat := 0x52000030 + n * 0x10000
/-- HS_QUERY_ADDR (R307). -/
def HS_QUERY_ADDR (n : Nat) : Nat := 0x52000040 + n * 0x10000
/-- HS_QUERY_STATE (R307). -/
def HS_QUERY_STATE (n : Nat) : Nat := 0x52000048 + n * 0x10000
/-- HS_QUERY_SHR0 (R307). -/
def HS_QUERY_SHR0 (n : Nat) : Nat := 0x52000050 + n * 0x10000
/-- HS_QUERY_SHR1 (R307). -/
def HS_QUERY_SHR1 (n : Nat) : Nat := 0x52000058 + n * 0x10000
/-- MC_CFG (R334). -/
def MC_CFG (n : Nat) : Nat := 0x50000000 + n * 0x10000
/-- MC_STATUS (R334). -/
def MC_STATUS (n : Nat) : Nat := 0x50000004 + n * 0x10000
/-- MC_CTRL (R334). -/
def MC_CTRL (n : Nat) : Nat := 0x50000008 + n * 0x10000
/-- MC_AGE_LIMIT (R334). -/
def MC_AGE_LIMIT (n : Nat) : Nat := 0x5000000c + n * 0x10000
/-- MC_IRQ_EN (R335). -/
def MC_IRQ_EN (n : Nat) : Nat := 0x50000010 + n * 0x10000
/-- MC_IRQ_STATUS (R335). -/
def MC_IRQ_STATUS (n : Nat) : Nat := 0x50000014 + n * 0x10000
/-- MC_TEMP (R335). -/
def MC_TEMP (n : Nat) : Nat := 0x50000018 + n * 0x10000
/-- MC_BLACKOUT_NEXT (R335). -/
def MC_BLACKOUT_NEXT (n : Nat) : Nat := 0x50000020 + n * 0x10000
/-- MC_BLACKOUT_COUNT (R335). -/
def MC_BLACKOUT_COUNT (n : Nat) : Nat := 0x50000028 + n * 0x10000
/-- MC_PROMOTE_COUNT (R335). -/
def MC_PROMOTE_COUNT (n : Nat) : Nat := 0x50000030 + n * 0x10000
/-- MC_RMW_COUNT (R335). -/
def MC_RMW_COUNT (n : Nat) : Nat := 0x50000034 + n * 0x10000
/-- MC_DS_WORD (R335). -/
def MC_DS_WORD (n : Nat) (k : Nat) : Nat := 0x50001000 + n * 0x10000 + k * 0x4
/-- QE_CTRL (R389). -/
def QE_CTRL (n : Nat) : Nat := 0x31000000 + n * 0x200000
/-- QE_STATUS (R389). -/
def QE_STATUS (n : Nat) : Nat := 0x31000004 + n * 0x200000
/-- QE_DB_COUNT (R389). -/
def QE_DB_COUNT (n : Nat) : Nat := 0x31000008 + n * 0x200000
/-- QE_SCAN_COUNT (R389). -/
def QE_SCAN_COUNT (n : Nat) : Nat := 0x31000010 + n * 0x200000
/-- QE_DESC_COUNT (R389). -/
def QE_DESC_COUNT (n : Nat) : Nat := 0x31000018 + n * 0x200000
/-- QE_DB_REJECT (R389). -/
def QE_DB_REJECT (n : Nat) : Nat := 0x31000020 + n * 0x200000
/-- QE_QSTAT (R390). -/
def QE_QSTAT (n : Nat) (k : Nat) : Nat := 0x31080000 + n * 0x200000 + k * 0x8
/-- QE_QDISC (R391). -/
def QE_QDISC (n : Nat) (k : Nat) : Nat := 0x31100000 + n * 0x200000 + k * 0x4
/-- VI_CFG (R392). -/
def VI_CFG (n : Nat) : Nat := 0x31800000 + n * 0x40
/-- VI_QRANGE (R392). -/
def VI_QRANGE (n : Nat) : Nat := 0x31800004 + n * 0x40
/-- VI_VEC (R392). -/
def VI_VEC (n : Nat) : Nat := 0x31800008 + n * 0x40
/-- VI_S2BASE (R392). -/
def VI_S2BASE (n : Nat) : Nat := 0x31800010 + n * 0x40
/-- PORT_CFG (R423). -/
def PORT_CFG (n : Nat) : Nat := 0x40000000 + n * 0x2000
/-- PORT_STATUS (R423). -/
def PORT_STATUS (n : Nat) : Nat := 0x40000004 + n * 0x2000
/-- PORT_PCP_MAP (R423). -/
def PORT_PCP_MAP (n : Nat) : Nat := 0x40000008 + n * 0x2000
/-- PORT_IRQ_EN (R423). -/
def PORT_IRQ_EN (n : Nat) : Nat := 0x4000000c + n * 0x2000
/-- PORT_RXQ (R423). -/
def PORT_RXQ (n : Nat) (k : Nat) : Nat := 0x40000010 + n * 0x2000 + k * 0x4
/-- PORT_IRQ_STATUS (R423). -/
def PORT_IRQ_STATUS (n : Nat) : Nat := 0x40000030 + n * 0x2000
/-- PORT_GCL_CTRL (R423). -/
def PORT_GCL_CTRL (n : Nat) : Nat := 0x40000040 + n * 0x2000
/-- PORT_GCL_BASE (R423). -/
def PORT_GCL_BASE (n : Nat) : Nat := 0x40000048 + n * 0x2000
/-- PORT_GCL_CYCLE (R423). -/
def PORT_GCL_CYCLE (n : Nat) : Nat := 0x40000050 + n * 0x2000
/-- PORT_GCL_LEN (R423). -/
def PORT_GCL_LEN (n : Nat) : Nat := 0x40000054 + n * 0x2000
/-- PORT_RX_FRAMES (R423). -/
def PORT_RX_FRAMES (n : Nat) : Nat := 0x40000080 + n * 0x2000
/-- PORT_TX_FRAMES (R423). -/
def PORT_TX_FRAMES (n : Nat) : Nat := 0x40000088 + n * 0x2000
/-- PORT_RX_FCS_ERR (R423). -/
def PORT_RX_FCS_ERR (n : Nat) : Nat := 0x40000090 + n * 0x2000
/-- PORT_BUF_DROP (R423). -/
def PORT_BUF_DROP (n : Nat) : Nat := 0x40000098 + n * 0x2000
/-- PORT_AGE_DROP (R423). -/
def PORT_AGE_DROP (n : Nat) : Nat := 0x400000a0 + n * 0x2000
/-- PORT_TX_DROP (R423). -/
def PORT_TX_DROP (n : Nat) : Nat := 0x400000a8 + n * 0x2000
/-- PORT_GCL (R423). -/
def PORT_GCL (n : Nat) (k : Nat) : Nat := 0x40001000 + n * 0x2000 + k * 0x8
/-- SW_CTRL (R424). -/
def SW_CTRL : Nat := 0x40100000
/-- SW_STATUS (R424). -/
def SW_STATUS : Nat := 0x40100004
/-- SW_IRQ_STATUS (R424). -/
def SW_IRQ_STATUS : Nat := 0x40100008
/-- SW_TC_LIMIT (R424). -/
def SW_TC_LIMIT (n : Nat) : Nat := 0x40100010 + n * 0x4
/-- SW_PTP (R424). -/
def SW_PTP : Nat := 0x40100040
/-- VLAN_MEMBER (R424). -/
def VLAN_MEMBER (n : Nat) (k : Nat) : Nat := 0x40110000 + n * 0x40 + k * 0x4
/-- VLAN_CTRL (R424). -/
def VLAN_CTRL (n : Nat) : Nat := 0x40110010 + n * 0x40
/-- VLAN_UNTAG (R424). -/
def VLAN_UNTAG (n : Nat) (k : Nat) : Nat := 0x40110020 + n * 0x40 + k * 0x4
/-- STR_ID (R424). -/
def STR_ID (n : Nat) : Nat := 0x40180000 + n * 0x20
/-- STR_CFG (R424). -/
def STR_CFG (n : Nat) : Nat := 0x40180008 + n * 0x20
/-- STR_CIR (R424). -/
def STR_CIR (n : Nat) : Nat := 0x4018000c + n * 0x20
/-- STR_CBS (R424). -/
def STR_CBS (n : Nat) : Nat := 0x40180010 + n * 0x20
/-- STR_EIR (R424). -/
def STR_EIR (n : Nat) : Nat := 0x40180014 + n * 0x20
/-- STR_EBS (R424). -/
def STR_EBS (n : Nat) : Nat := 0x40180018 + n * 0x20
/-- STR_DROPS (R424). -/
def STR_DROPS (n : Nat) : Nat := 0x4018001c + n * 0x20
/-- FDB_KEY (R424). -/
def FDB_KEY (n : Nat) : Nat := 0x40200000 + n * 0x20
/-- FDB_PORTS (R424). -/
def FDB_PORTS (n : Nat) (k : Nat) : Nat := 0x40200008 + n * 0x20 + k * 0x4
/-- FDB_HOST (R424). -/
def FDB_HOST (n : Nat) : Nat := 0x40200018 + n * 0x20
/-- DIN_NODE (R425). -/
def DIN_NODE : Nat := 0x40100100
/-- DIN_DOMAIN (R425). -/
def DIN_DOMAIN : Nat := 0x40100104
/-- DIN_IRQ_STATUS (R425). -/
def DIN_IRQ_STATUS : Nat := 0x40100108
/-- DIN_BAD (R425). -/
def DIN_BAD : Nat := 0x40100110
/-- DIN_BUSY (R425). -/
def DIN_BUSY : Nat := 0x40100114
/-- DIN_MGMT_DROP (R425). -/
def DIN_MGMT_DROP : Nat := 0x40100118
/-- PT_CLASS (R425). -/
def PT_CLASS (n : Nat) : Nat := 0x40300000 + n * 0x10
/-- PT_DIN_SRC_LO (R425). -/
def PT_DIN_SRC_LO (n : Nat) : Nat := 0x40300004 + n * 0x10
/-- PT_DIN_SRC_HI (R425). -/
def PT_DIN_SRC_HI (n : Nat) : Nat := 0x40300008 + n * 0x10
/-- PT_DIN_EID (R425). -/
def PT_DIN_EID (n : Nat) : Nat := 0x4030000c + n * 0x10
/-- PT_ASG_FIRST (R425). -/
def PT_ASG_FIRST : Nat := 0x40300100
/-- PT_ASG_COUNT (R425). -/
def PT_ASG_COUNT : Nat := 0x40300104
/-- PT_ASG_OWNER (R425). -/
def PT_ASG_OWNER : Nat := 0x40300108
/-- PT_ASG_CTRL (R425). -/
def PT_ASG_CTRL : Nat := 0x4030010c
/-- PT_FRC_POINT (R425). -/
def PT_FRC_POINT : Nat := 0x40300110
/-- PT_FRC_VALUE (R425). -/
def PT_FRC_VALUE : Nat := 0x40300118
/-- PT_FRC_CTRL (R425). -/
def PT_FRC_CTRL : Nat := 0x40300120
/-- PT_IRQ_EN (R425). -/
def PT_IRQ_EN : Nat := 0x40300124
/-- PT_IRQ_STATUS (R425). -/
def PT_IRQ_STATUS : Nat := 0x40300128
/-- PT_REJECT (R425). -/
def PT_REJECT : Nat := 0x40300130
/-- PT_OLD_DROP (R425). -/
def PT_OLD_DROP : Nat := 0x40300134
/-- PT_FORCE_DROP (R425). -/
def PT_FORCE_DROP : Nat := 0x40300138
/-- PT_STALE_COUNT (R425). -/
def PT_STALE_COUNT : Nat := 0x4030013c
/-- PT_FORCED_COUNT (R425). -/
def PT_FORCED_COUNT : Nat := 0x40300140
/-- PT_LAST_STALE (R425). -/
def PT_LAST_STALE : Nat := 0x40300144
/-- ENC_CTRL (R450). -/
def ENC_CTRL (n : Nat) : Nat := 0x61008000 + n * 0x10000
/-- ENC_STATUS (R450). -/
def ENC_STATUS (n : Nat) : Nat := 0x61008004 + n * 0x10000
/-- ENC_LIFECYCLE (R450). -/
def ENC_LIFECYCLE (n : Nat) : Nat := 0x61008008 + n * 0x10000
/-- ENC_MEASURE (R450). -/
def ENC_MEASURE (n : Nat) (k : Nat) : Nat := 0x61008010 + n * 0x10000 + k * 0x8
/-- ENC_KEY_LABEL (R450). -/
def ENC_KEY_LABEL (n : Nat) : Nat := 0x61008040 + n * 0x10000
/-- ENC_KEY_CTRL (R450). -/
def ENC_KEY_CTRL (n : Nat) : Nat := 0x61008048 + n * 0x10000
/-- ENC_KEY (R450). -/
def ENC_KEY (n : Nat) (k : Nat) : Nat := 0x61008050 + n * 0x10000 + k * 0x8
/-- PAIR_CFG (R471). -/
def PAIR_CFG : Nat := 0x70000000
/-- PAIR_STATUS (R471). -/
def PAIR_STATUS : Nat := 0x70000004
/-- PAIR_ASYM (R471). -/
def PAIR_ASYM : Nat := 0x70000008
/-- PAIR_LAT (R471). -/
def PAIR_LAT : Nat := 0x7000000c
/-- PAIR_ALIGN_OFFSET (R471). -/
def PAIR_ALIGN_OFFSET : Nat := 0x70000010
/-- PAIR_GATE_USED (R472). -/
def PAIR_GATE_USED : Nat := 0x70000018
/-- PAIR_FAULT_KEY (R472). -/
def PAIR_FAULT_KEY : Nat := 0x70000020
/-- PAIR_FAULT_GT (R472). -/
def PAIR_FAULT_GT : Nat := 0x70000028
/-- PAIR_RELEASE_COUNT (R472). -/
def PAIR_RELEASE_COUNT : Nat := 0x70000030
/-- PAIR_RETRY_COUNT (R472). -/
def PAIR_RETRY_COUNT : Nat := 0x70000038
/-- PAIR_IRQ_EN (R472). -/
def PAIR_IRQ_EN : Nat := 0x7000003c
/-- PAIR_IRQ_STATUS (R472). -/
def PAIR_IRQ_STATUS : Nat := 0x70000040
/-- CMDR_BASE (R476). -/
def CMDR_BASE (n : Nat) : Nat := 0x2000000 + n * 0x1000
/-- CMDR_CFG (R476). -/
def CMDR_CFG (n : Nat) : Nat := 0x2000008 + n * 0x1000
/-- CMDR_TAIL (R476). -/
def CMDR_TAIL (n : Nat) : Nat := 0x200000c + n * 0x1000
/-- CMDR_HEAD (R476). -/
def CMDR_HEAD (n : Nat) : Nat := 0x2000010 + n * 0x1000
/-- CMDR_STATUS (R476). -/
def CMDR_STATUS (n : Nat) : Nat := 0x2000014 + n * 0x1000
/-- CMD_STATUS (R476). -/
def CMD_STATUS : Nat := 0x2100000
/-- PVT_MODE (R521). -/
def PVT_MODE : Nat := 0x71f00000
/-- PVT_MODE_GT (R521). -/
def PVT_MODE_GT : Nat := 0x71f00008
/-- PVT_RESET_CTRL (R521). -/
def PVT_RESET_CTRL : Nat := 0x71f00010
/-- PVT_RESET_CAUSE (R521). -/
def PVT_RESET_CAUSE : Nat := 0x71f00014
/-- PVT_AVS (R521). -/
def PVT_AVS : Nat := 0x71f00018
/-- PVT_PMBUS (R521). -/
def PVT_PMBUS : Nat := 0x71f0001c
/-- PVT_COREPT (R521). -/
def PVT_COREPT (n : Nat) : Nat := 0x71f01000 + n * 0x4
/-- PVT_TS (R535). -/
def PVT_TS (n : Nat) : Nat := 0x71000000 + n * 0x4
/-- PVT_VM (R535). -/
def PVT_VM (n : Nat) : Nat := 0x71000100 + n * 0x4
/-- PVT_PM (R535). -/
def PVT_PM (n : Nat) : Nat := 0x71000180 + n * 0x4
/-- PVT_AM (R535). -/
def PVT_AM (n : Nat) : Nat := 0x710001c0 + n * 0x4
/-- PVT_ALARM_STATUS (R535). -/
def PVT_ALARM_STATUS : Nat := 0x71000400
/-- PVT_IRQ_EN (R535). -/
def PVT_IRQ_EN : Nat := 0x71000404
/-- PVT_LAST_ALARM (R535). -/
def PVT_LAST_ALARM : Nat := 0x71000408
/-- PVT_TEMP_WARN (R535). -/
def PVT_TEMP_WARN : Nat := 0x7100040c
/-- PVT_WEAR_CFG (R535). -/
def PVT_WEAR_CFG : Nat := 0x71000410
/-- DBG_CTRL (R547). -/
def DBG_CTRL (n : Nat) : Nat := 0x400000000000 + n * 0x1000
/-- DBG_STATUS (R547). -/
def DBG_STATUS (n : Nat) : Nat := 0x400000000004 + n * 0x1000
/-- DBG_REG_SEL (R547). -/
def DBG_REG_SEL (n : Nat) : Nat := 0x400000000010 + n * 0x1000
/-- DBG_REG_DATA (R547). -/
def DBG_REG_DATA (n : Nat) : Nat := 0x400000000018 + n * 0x1000
/-- DBG_CMP_ADDR (R547). -/
def DBG_CMP_ADDR (n : Nat) (k : Nat) : Nat := 0x400000000100 + n * 0x1000 + k * 0x10
/-- DBG_CMP_CFG (R547). -/
def DBG_CMP_CFG (n : Nat) (k : Nat) : Nat := 0x400000000108 + n * 0x1000 + k * 0x10
/-- DBG_PC_CTRL (R548). -/
def DBG_PC_CTRL (n : Nat) : Nat := 0x400000100000 + n * 0x100
/-- DBG_PC_STATUS (R548). -/
def DBG_PC_STATUS (n : Nat) : Nat := 0x400000100004 + n * 0x100
/-- DBG_PC_REG_SEL (R548). -/
def DBG_PC_REG_SEL (n : Nat) : Nat := 0x400000100008 + n * 0x100
/-- DBG_PC_REG_DATA (R548). -/
def DBG_PC_REG_DATA (n : Nat) : Nat := 0x40000010000c + n * 0x100
/-- DBG_PCMP_ADDR (R548). -/
def DBG_PCMP_ADDR (n : Nat) (k : Nat) : Nat := 0x400000100010 + n * 0x100 + k * 0x10
/-- DBG_PCMP_CFG (R548). -/
def DBG_PCMP_CFG (n : Nat) (k : Nat) : Nat := 0x400000100014 + n * 0x100 + k * 0x10
/-- DBG_XT_CFG (R549). -/
def DBG_XT_CFG (n : Nat) : Nat := 0x400000200000 + n * 0x40
/-- DBG_XT_MHALT (R549). -/
def DBG_XT_MHALT (n : Nat) (k : Nat) : Nat := 0x400000200004 + n * 0x40 + k * 0x4
/-- DBG_XT_PHALT (R549). -/
def DBG_XT_PHALT (n : Nat) (k : Nat) : Nat := 0x400000200010 + n * 0x40 + k * 0x4
/-- DBG_XT_STATUS (R549). -/
def DBG_XT_STATUS (n : Nat) : Nat := 0x400000200030 + n * 0x40
/-- DBG_SYS_ADDR (R549). -/
def DBG_SYS_ADDR : Nat := 0x400000300000
/-- DBG_SYS_DATA (R549). -/
def DBG_SYS_DATA : Nat := 0x400000300008
/-- DBG_SYS_CTRL (R549). -/
def DBG_SYS_CTRL : Nat := 0x400000300010
/-- ARB_PMB_CTRL (R554). -/
def ARB_PMB_CTRL (n : Nat) : Nat := 0x51000800 + n * 0x10000
/-- HS_PMB_CTRL (R554). -/
def HS_PMB_CTRL (n : Nat) : Nat := 0x52000800 + n * 0x10000
/-- MC_PMB_CTRL (R554). -/
def MC_PMB_CTRL (n : Nat) : Nat := 0x50000800 + n * 0x10000
/-- ARB_PMB_SEL (R554). -/
def ARB_PMB_SEL (n : Nat) (k : Nat) : Nat := 0x51000810 + n * 0x10000 + k * 0x4
/-- HS_PMB_SEL (R554). -/
def HS_PMB_SEL (n : Nat) (k : Nat) : Nat := 0x52000810 + n * 0x10000 + k * 0x4
/-- MC_PMB_SEL (R554). -/
def MC_PMB_SEL (n : Nat) (k : Nat) : Nat := 0x50000810 + n * 0x10000 + k * 0x4
/-- ARB_PMB_CNT (R554). -/
def ARB_PMB_CNT (n : Nat) (k : Nat) : Nat := 0x51000820 + n * 0x10000 + k * 0x8
/-- HS_PMB_CNT (R554). -/
def HS_PMB_CNT (n : Nat) (k : Nat) : Nat := 0x52000820 + n * 0x10000 + k * 0x8
/-- MC_PMB_CNT (R554). -/
def MC_PMB_CNT (n : Nat) (k : Nat) : Nat := 0x50000820 + n * 0x10000 + k * 0x8
/-- ARB_PMB_SHD (R554). -/
def ARB_PMB_SHD (n : Nat) (k : Nat) : Nat := 0x51000840 + n * 0x10000 + k * 0x8
/-- HS_PMB_SHD (R554). -/
def HS_PMB_SHD (n : Nat) (k : Nat) : Nat := 0x52000840 + n * 0x10000 + k * 0x8
/-- MC_PMB_SHD (R554). -/
def MC_PMB_SHD (n : Nat) (k : Nat) : Nat := 0x50000840 + n * 0x10000 + k * 0x8
/-- ARB_PMB_SHADOW (R554). -/
def ARB_PMB_SHADOW (n : Nat) : Nat := 0x51000860 + n * 0x10000
/-- HS_PMB_SHADOW (R554). -/
def HS_PMB_SHADOW (n : Nat) : Nat := 0x52000860 + n * 0x10000
/-- MC_PMB_SHADOW (R554). -/
def MC_PMB_SHADOW (n : Nat) : Nat := 0x50000860 + n * 0x10000
/-- GT_SHUTTER (R556). -/
def GT_SHUTTER : Nat := 0x13000100
/-- GT_SHUTTER_CTRL (R556). -/
def GT_SHUTTER_CTRL : Nat := 0x13000108
/-- GT_SHUTTER_GT (R556). -/
def GT_SHUTTER_GT : Nat := 0x13000110
/-- GT_PMU_FREEZE (R556). -/
def GT_PMU_FREEZE : Nat := 0x13000118
end Reg

/-- The register map at addresses 0x13000000 upward. -/
def regs13 : List RegDesc :=
  [⟨0x13000000, 1, 0x0, 1, 0x0, true, 0x0, 0x0, 0x0, 0x0, 0x0, 0, 0x0⟩,
   ⟨0x13000008, 1, 0x0, 1, 0x0, false, 0x30000, 0x0, 0xf7f03, 0x0, 0x0, 16, 0xf7f03⟩,
   ⟨0x13000010, 1, 0x0, 1, 0x0, false, 0x0, 0xffffffff, 0x0, 0x0, 0x0, 0, 0x0⟩,
   ⟨0x13000014, 1, 0x0, 1, 0x0, false, 0x0, 0x0, 0x0, 0x0, 0x0, 0, 0x0⟩,
   ⟨0x13000018, 1, 0x0, 1, 0x0, false, 0x1, 0x0, 0x0, 0x72, 0x0, 0, 0x0⟩,
   ⟨0x13000020, 1, 0x0, 1, 0x0, true, 0x0, 0x0, 0x0, 0x0, 0x0, 0, 0x0⟩,
   ⟨0x13000028, 1, 0x0, 1, 0x0, true, 0x0, 0x0, 0x0, 0x0, 0x0, 0, 0x0⟩,
   ⟨0x13000030, 1, 0x0, 1, 0x0, false, 0x0, 0x0, 0x0, 0x0, 0x0, 0, 0x0⟩,
   ⟨0x13000038, 1, 0x0, 1, 0x0, true, 0x0, 0x0, 0x0, 0x0, 0x0, 0, 0x0⟩,
   ⟨0x13000040, 1, 0x0, 1, 0x0, false, 0x0, 0x0, 0x0, 0x0, 0x0, 0, 0x0⟩,
   ⟨0x13000100, 1, 0x0, 1, 0x0, true, 0x0, 0xffffffffffffffff, 0x0, 0x0, 0x0, 0, 0x0⟩,
   ⟨0x13000108, 1, 0x0, 1, 0x0, false, 0x0, 0x0, 0x0, 0x4, 0x1, 0, 0x0⟩,
   ⟨0x13000110, 1, 0x0, 1, 0x0, true, 0x0, 0x0, 0x0, 0x0, 0x0, 0, 0x0⟩,
   ⟨0x13000118, 1, 0x0, 1, 0x0, false, 0x0, 0x1, 0x0, 0x0, 0x0, 0, 0x0⟩]

/-- The register map at addresses 0x12000000 upward. -/
def regs12 : List RegDesc :=
  [⟨0x12000000, 16, 0x100, 1, 0x0, false, 0x10000, 0x0, 0xffff00ff, 0x0, 0x0, 1, 0xffff00ff⟩,
   ⟨0x12000004, 16, 0x100, 1, 0x0, false, 0x0, 0x0, 0xffff01ff, 0x0, 0x0, 1, 0xffff01ff⟩,
   ⟨0x12000008, 16, 0x100, 1, 0x0, true, 0x0, 0x0, 0x0, 0x0, 0x0, 0, 0x0⟩,
   ⟨0x12000010, 16, 0x100, 1, 0x0, true, 0x0, 0x0, 0x0, 0x0, 0xffffffffffff, 0, 0x0⟩,
   ⟨0x12000018, 16, 0x100, 1, 0x0, true, 0x0, 0x0, 0x0, 0x0, 0x0, 0, 0x0⟩,
   ⟨0x12000020, 16, 0x100, 1, 0x0, true, 0x0, 0x0, 0x0, 0x0, 0x0, 0, 0x0⟩,
   ⟨0x12000028, 16, 0x100, 1, 0x0, false, 0x2, 0x0, 0x0, 0x2f0, 0x0, 0, 0x0⟩,
   ⟨0x12000030, 16, 0x100, 1, 0x0, false, 0xb60402, 0x0, 0xffffff07, 0x0, 0x0, 1, 0xffffff07⟩,
   ⟨0x12000034, 16, 0x100, 1, 0x0, false, 0x64, 0x0, 0x3ff, 0x0, 0x0, 1, 0x3ff⟩,
   ⟨0x12000038, 16, 0x100, 1, 0x0, false, 0x640100, 0x0, 0xffffffff, 0x0, 0x0, 1, 0xffffffff⟩,
   ⟨0x12000040, 16, 0x100, 1, 0x0, true, 0x0, 0x0, 0x0, 0x0, 0xffffffffffff, 0, 0x0⟩,
   ⟨0x12000048, 16, 0x100, 1, 0x0, true, 0x100000000, 0x0, 0xffffffffffff, 0x0, 0x0, 1, 0xffffffffffff⟩,
   ⟨0x12000050, 16, 0x100, 1, 0x0, false, 0x0, 0x0, 0xf3ffff, 0x0, 0x0, 1, 0xf3ffff⟩,
   ⟨0x12000058, 16, 0x100, 1, 0x0, true, 0x0, 0x0, 0x0, 0x0, 0x0, 0, 0x0⟩,
   ⟨0x12010000, 1024, 0x40, 1, 0x0, false, 0xa, 0x1f, 0x7e0, 0x0, 0x0, 2, 0x7e0⟩,
   ⟨0x12010004, 1024, 0x40, 1, 0x0, false, 0x0, 0x0, 0xfffff7f, 0x0, 0x0, 2, 0xfffff7f⟩,
   ⟨0x12010008, 1024, 0x40, 1, 0x0, false, 0x0, 0x0, 0xffffff, 0x0, 0x0, 2, 0xffffff⟩,
   ⟨0x1201000c, 1024, 0x40, 1, 0x0, false, 0x0, 0xffffffff, 0x0, 0x0, 0x0, 0, 0x0⟩,
   ⟨0x12010010, 1024, 0x40, 1, 0x0, true, 0x0, 0xffffffffffffffff, 0x0, 0x0, 0x0, 0, 0x0⟩,
   ⟨0x12010018, 1024, 0x40, 1, 0x0, true, 0x0, 0xffffffffffffffff, 0x0, 0x0, 0x0, 0, 0x0⟩,
   ⟨0x12010020, 1024, 0x40, 1, 0x0, true, 0xffffffffffffffff, 0x0, 0x0, 0x0, 0x0, 0, 0x0⟩,
   ⟨0x12010028, 1024, 0x40, 1, 0x0, true, 0x0, 0x0, 0x0, 0x0, 0x0, 0, 0x0⟩,
   ⟨0x12010030, 1024, 0x40, 1, 0x0, false, 0x0, 0x0, 0x0, 0x1f, 0x0, 0, 0x0⟩,
   ⟨0x12020000, 256, 0x20, 1, 0x0, false, 0x2, 0x0, 0x7fffffff, 0x0, 0x0, 3, 0x7fffffff⟩,
   ⟨0x12020008, 256, 0x20, 1, 0x0, true, 0x0, 0x0, 0x0, 0x0, 0x0, 0, 0x0⟩,
   ⟨0x12020010, 256, 0x20, 1, 0x0, false, 0x0, 0x0, 0x0, 0xa, 0x0, 0, 0x0⟩,
   ⟨0x12030000, 64, 0x40, 1, 0x0, false, 0x100a0, 0x0, 0x3fffff, 0x0, 0x0, 4, 0x3fffff⟩,
   ⟨0x12030004, 64, 0x40, 1, 0x0, false, 0x0, 0x0, 0x1ff01ff, 0x0, 0x0, 4, 0x1ff01ff⟩,
   ⟨0x12030008, 64, 0x40, 1, 0x0, false, 0x0, 0x0, 0x0, 0x0, 0x0, 0, 0x0⟩,
   ⟨0x1203000c, 64, 0x40, 1, 0x0, false, 0x7fffffff, 0xffffffff, 0x0, 0x0, 0x0, 0, 0x0⟩]
  ++ [⟨0x12030010, 64, 0x40, 1, 0x0, false, 0x80000000, 0xffffffff, 0x0, 0x0, 0x0, 0, 0x0⟩,
   ⟨0x12030014, 64, 0x40, 1, 0x0, false, 0x0, 0x0, 0x0, 0x3e, 0x0, 0, 0x0⟩,
   ⟨0x12030018, 64, 0x40, 1, 0x0, false, 0x0, 0x0, 0x1ffff, 0x0, 0x0, 4, 0x1ffff⟩,
   ⟨0x12040000, 512, 0x10, 1, 0x0, false, 0xb0, 0x0, 0x800fffff, 0x0, 0x0, 5, 0x800fffff⟩,
   ⟨0x12040004, 512, 0x10, 1, 0x0, false, 0x0, 0x0, 0x3f, 0x0, 0x0, 5, 0x3f⟩,
   ⟨0x12040008, 512, 0x10, 1, 0x0, false, 0x0, 0x0, 0x0, 0xfc, 0x0, 0, 0x0⟩,
   ⟨0x1204000c, 512, 0x10, 1, 0x0, false, 0x0, 0x0, 0x0, 0x0, 0x3, 0, 0x0⟩,
   ⟨0x12050000, 16, 0x10, 1, 0x0, false, 0x0, 0x0, 0x1, 0x0, 0x0, 6, 0x1⟩,
   ⟨0x12050004, 16, 0x10, 1, 0x0, false, 0x0, 0x0, 0x0, 0xa, 0x0, 0, 0x0⟩,
   ⟨0x12050008, 16, 0x10, 1, 0x0, false, 0x0, 0x7, 0x0, 0x0, 0x0, 0, 0x0⟩,
   ⟨0x12060000, 64, 0x10, 1, 0x0, false, 0x0, 0xffff7fff, 0x0, 0x0, 0x0, 0, 0x0⟩,
   ⟨0x12060004, 64, 0x10, 1, 0x0, false, 0x0, 0xffffffff, 0x0, 0x0, 0x0, 0, 0x0⟩,
   ⟨0x12060008, 64, 0x10, 1, 0x0, false, 0xffffffff, 0xffffffff, 0x0, 0x0, 0x0, 0, 0x0⟩,
   ⟨0x1206000c, 64, 0x10, 1, 0x0, false, 0x0, 0x0, 0x0, 0x1, 0x0, 0, 0x0⟩]

/-- The register map at addresses 0x11000000 upward. -/
def regs11 : List RegDesc :=
  [⟨0x11000000, 256, 0x1000, 1, 0x0, false, 0x0, 0x39, 0x2, 0x0, 0x4, 7, 0x2⟩,
   ⟨0x11000004, 256, 0x1000, 1, 0x0, false, 0x0, 0x0, 0x0, 0x7c0, 0x0, 0, 0x0⟩,
   ⟨0x11000008, 256, 0x1000, 1, 0x0, false, 0x0, 0x0, 0xfffc, 0x0, 0x0, 7, 0xfffc⟩,
   ⟨0x1100000c, 256, 0x1000, 1, 0x0, false, 0x0, 0x0, 0xfffc, 0x0, 0x0, 7, 0xfffc⟩,
   ⟨0x11000010, 256, 0x1000, 1, 0x0, false, 0x0, 0x0, 0x0, 0x0, 0x0, 0, 0x0⟩,
   ⟨0x11000014, 256, 0x1000, 1, 0x0, false, 0x0, 0x0, 0x0, 0x0, 0x0, 0, 0x0⟩,
   ⟨0x11000018, 256, 0x1000, 1, 0x0, false, 0x0, 0x0, 0x0, 0x0, 0x0, 0, 0x0⟩,
   ⟨0x1100001c, 256, 0x1000, 1, 0x0, false, 0x0, 0x0, 0x3f, 0x0, 0x0, 7, 0x3f⟩,
   ⟨0x11000020, 256, 0x1000, 1, 0x0, true, 0x0, 0x0, 0x0, 0x0, 0x0, 0, 0x0⟩,
   ⟨0x11000028, 256, 0x1000, 1, 0x0, true, 0x0, 0x0, 0x0, 0x0, 0x0, 0, 0x0⟩,
   ⟨0x11000030, 256, 0x1000, 1, 0x0, true, 0x0, 0x0, 0x0, 0x0, 0x0, 0, 0x0⟩,
   ⟨0x11000038, 256, 0x1000, 1, 0x0, false, 0x0, 0x0, 0x0, 0x0, 0x0, 0, 0x0⟩,
   ⟨0x1100003c, 256, 0x1000, 1, 0x0, false, 0x0, 0x0, 0x0, 0x0, 0x0, 0, 0x0⟩,
   ⟨0x11000040, 256, 0x1000, 8, 0x8, false, 0x0, 0x0, 0x1ffffff, 0x0, 0x0, 7, 0x1ffffff⟩,
   ⟨0x11000044, 256, 0x1000, 8, 0x8, false, 0x0, 0x0, 0x0, 0x10, 0x0, 0, 0x0⟩,
   ⟨0x11000080, 256, 0x1000, 1, 0x0, false, 0x0, 0x0, 0x0, 0x0, 0x7, 0, 0x0⟩,
   ⟨0x11000100, 256, 0x1000, 8, 0x10, true, 0x0, 0x0, 0x3ffffffff000, 0x0, 0x0, 7, 0x3ffffffff000⟩,
   ⟨0x11000108, 256, 0x1000, 8, 0x10, false, 0x0, 0x0, 0xffff7, 0x0, 0x0, 7, 0xffff7⟩]

/-- The register map at addresses 0x51000000 upward. -/
def regs51 : List RegDesc :=
  [⟨0x51000000, 14, 0x10000, 1, 0x0, false, 0x2, 0x7, 0x0, 0x0, 0x8, 0, 0x0⟩,
   ⟨0x51000004, 14, 0x10000, 1, 0x0, false, 0x0, 0x0, 0x0, 0x18, 0x0, 0, 0x0⟩,
   ⟨0x51000008, 14, 0x10000, 1, 0x0, false, 0xfa, 0x0, 0xffffffff, 0x0, 0x0, 8, 0xffffffff⟩,
   ⟨0x51000010, 8, 0x10000, 1, 0x0, false, 0x9c400fa, 0x0, 0xffffffff, 0x0, 0x0, 8, 0xffffffff⟩,
   ⟨0x51000014, 8, 0x10000, 1, 0x0, false, 0x61a8, 0x0, 0xffff, 0x0, 0x0, 8, 0xffff⟩,
   ⟨0x51000018, 14, 0x10000, 1, 0x0, false, 0x0, 0x0, 0x0, 0x0, 0x0, 0, 0x0⟩,
   ⟨0x5100001c, 14, 0x10000, 1, 0x0, false, 0x0, 0x0, 0x0, 0x0, 0x0, 0, 0x0⟩,
   ⟨0x51000020, 14, 0x10000, 1, 0x0, true, 0x0, 0x0, 0x0, 0x0, 0x0, 0, 0x0⟩,
   ⟨0x51000028, 14, 0x10000, 1, 0x0, false, 0x0, 0x0, 0x0, 0x0, 0x0, 0, 0x0⟩,
   ⟨0x51000030, 14, 0x10000, 1, 0x0, true, 0x0, 0x0, 0x0, 0x0, 0x0, 0, 0x0⟩,
   ⟨0x51000038, 8, 0x10000, 1, 0x0, true, 0x0, 0x0, 0x0, 0x0, 0x0, 0, 0x0⟩,
   ⟨0x51001000, 8, 0x10000, 66, 0x10, false, 0x61a800, 0x0, 0xffffff01, 0x0, 0x0, 8, 0xffffff01⟩,
   ⟨0x51081000, 4, 0x10000, 33, 0x10, false, 0x61a800, 0x0, 0xffffff01, 0x0, 0x0, 8, 0xffffff01⟩,
   ⟨0x510c1000, 1, 0x0, 14, 0x10, false, 0x61a800, 0x0, 0xffffff01, 0x0, 0x0, 8, 0xffffff01⟩,
   ⟨0x510d1000, 1, 0x0, 3, 0x10, false, 0x61a800, 0x0, 0xffffff01, 0x0, 0x0, 8, 0xffffff01⟩,
   ⟨0x51001004, 8, 0x10000, 66, 0x10, false, 0x0, 0x0, 0x0, 0x80, 0x0, 0, 0x0⟩,
   ⟨0x51081004, 4, 0x10000, 33, 0x10, false, 0x0, 0x0, 0x0, 0x80, 0x0, 0, 0x0⟩,
   ⟨0x510c1004, 1, 0x0, 14, 0x10, false, 0x0, 0x0, 0x0, 0x80, 0x0, 0, 0x0⟩,
   ⟨0x510d1004, 1, 0x0, 3, 0x10, false, 0x0, 0x0, 0x0, 0x80, 0x0, 0, 0x0⟩,
   ⟨0x51000800, 14, 0x10000, 1, 0x0, false, 0x0, 0x1, 0x0, 0xf00, 0x2, 0, 0x0⟩,
   ⟨0x51000810, 14, 0x10000, 4, 0x4, false, 0x0, 0xff, 0x0, 0x0, 0x0, 0, 0x0⟩,
   ⟨0x51000820, 14, 0x10000, 4, 0x8, true, 0x0, 0xffffffffffff, 0x0, 0x0, 0x0, 0, 0x0⟩,
   ⟨0x51000840, 14, 0x10000, 4, 0x8, true, 0x0, 0x0, 0x0, 0x0, 0x0, 0, 0x0⟩,
   ⟨0x51000860, 14, 0x10000, 1, 0x0, false, 0x0, 0x0, 0x0, 0x0, 0x0, 0, 0x0⟩]

/-- The register map at addresses 0x60000000 upward. -/
def regs60 : List RegDesc :=
  [⟨0x60000000, 4096, 0x10, 1, 0x0, false, 0x0, 0x0, 0xff07f3, 0xc, 0x0, 9, 0xff07f3⟩,
   ⟨0x60000008, 4096, 0x10, 1, 0x0, true, 0x0, 0x0, 0x3fffffffffc0, 0x0, 0x0, 9, 0x3fffffffffc0⟩,
   ⟨0x60100000, 64, 0x1000, 1, 0x0, false, 0x0, 0x0, 0x0, 0x0, 0xf, 0, 0x0⟩]

/-- The register map at addresses 0x52000000 upward. -/
def regs52 : List RegDesc :=
  [⟨0x52000000, 64, 0x10000, 1, 0x0, false, 0x0, 0x0, 0x0, 0x0, 0x0, 0, 0x0⟩,
   ⟨0x52000004, 64, 0x10000, 1, 0x0, false, 0x0, 0x0, 0x0, 0x0, 0x0, 0, 0x0⟩,
   ⟨0x52000008, 64, 0x10000, 1, 0x0, false, 0x0, 0x7, 0x0, 0x0, 0x0, 0, 0x0⟩,
   ⟨0x5200000c, 64, 0x10000, 1, 0x0, false, 0x0, 0x0, 0x0, 0xf, 0x0, 0, 0x0⟩,
   ⟨0x52000010, 64, 0x10000, 1, 0x0, false, 0xffff03e8, 0x0, 0xffffffff, 0x0, 0x0, 0, 0x0⟩,
   ⟨0x52000014, 64, 0x10000, 1, 0x0, false, 0x0, 0x0, 0x0, 0x0, 0x0, 0, 0x0⟩,
   ⟨0x52000018, 64, 0x10000, 1, 0x0, true, 0x0, 0x0, 0x0, 0x0, 0x0, 0, 0x0⟩,
   ⟨0x52000020, 64, 0x10000, 1, 0x0, true, 0x0, 0x0, 0x0, 0x0, 0x0, 0, 0x0⟩,
   ⟨0x52000028, 64, 0x10000, 1, 0x0, true, 0x0, 0x0, 0x0, 0x0, 0x0, 0, 0x0⟩,
   ⟨0x52000030, 64, 0x10000, 1, 0x0, false, 0x0, 0x0, 0x0, 0x0, 0x0, 0, 0x0⟩,
   ⟨0x52000040, 64, 0x10000, 1, 0x0, true, 0x0, 0x0, 0x0, 0x0, 0x3fffffffffc0, 0, 0x0⟩,
   ⟨0x52000048, 64, 0x10000, 1, 0x0, false, 0x0, 0x0, 0x0, 0x0, 0x0, 0, 0x0⟩,
   ⟨0x52000050, 64, 0x10000, 1, 0x0, true, 0x0, 0x0, 0x0, 0x0, 0x0, 0, 0x0⟩,
   ⟨0x52000058, 64, 0x10000, 1, 0x0, false, 0x0, 0x0, 0x0, 0x0, 0x0, 0, 0x0⟩,
   ⟨0x52000800, 64, 0x10000, 1, 0x0, false, 0x0, 0x1, 0x0, 0xf00, 0x2, 0, 0x0⟩,
   ⟨0x52000810, 64, 0x10000, 4, 0x4, false, 0x0, 0xff, 0x0, 0x0, 0x0, 0, 0x0⟩,
   ⟨0x52000820, 64, 0x10000, 4, 0x8, true, 0x0, 0xffffffffffff, 0x0, 0x0, 0x0, 0, 0x0⟩,
   ⟨0x52000840, 64, 0x10000, 4, 0x8, true, 0x0, 0x0, 0x0, 0x0, 0x0, 0, 0x0⟩,
   ⟨0x52000860, 64, 0x10000, 1, 0x0, false, 0x0, 0x0, 0x0, 0x0, 0x0, 0, 0x0⟩]

/-- The register map at addresses 0x50000000 upward. -/
def regs50 : List RegDesc :=
  [⟨0x50000000, 8, 0x10000, 1, 0x0, false, 0x0, 0x0, 0x0, 0x0, 0x0, 0, 0x0⟩,
   ⟨0x50000004, 8, 0x10000, 1, 0x0, false, 0x0, 0x0, 0x0, 0x0, 0x0, 0, 0x0⟩,
   ⟨0x50000008, 8, 0x10000, 1, 0x0, false, 0x80, 0x0, 0x3ff, 0x0, 0x0, 15, 0x3ff⟩,
   ⟨0x5000000c, 8, 0x10000, 1, 0x0, false, 0x3e8, 0x0, 0xffff, 0x0, 0x0, 15, 0xffff⟩,
   ⟨0x50000010, 8, 0x10000, 1, 0x0, false, 0x0, 0x7, 0x0, 0x0, 0x0, 0, 0x0⟩,
   ⟨0x50000014, 8, 0x10000, 1, 0x0, false, 0x0, 0x0, 0x0, 0xf, 0x0, 0, 0x0⟩,
   ⟨0x50000018, 8, 0x10000, 1, 0x0, false, 0x0, 0x0, 0x0, 0x0, 0x0, 0, 0x0⟩,
   ⟨0x50000020, 8, 0x10000, 1, 0x0, true, 0x0, 0x0, 0x0, 0x0, 0x0, 0, 0x0⟩,
   ⟨0x50000028, 8, 0x10000, 1, 0x0, true, 0x0, 0x0, 0x0, 0x0, 0x0, 0, 0x0⟩,
   ⟨0x50000030, 8, 0x10000, 1, 0x0, false, 0x0, 0x0, 0x0, 0x0, 0x0, 0, 0x0⟩,
   ⟨0x50000034, 8, 0x10000, 1, 0x0, false, 0x0, 0x0, 0x0, 0x0, 0x0, 0, 0x0⟩,
   ⟨0x50001000, 8, 0x10000, 1024, 0x4, false, 0x0, 0x0, 0x0, 0x0, 0x0, 14, 0xffffffff⟩,
   ⟨0x50000800, 8, 0x10000, 1, 0x0, false, 0x0, 0x1, 0x0, 0xf00, 0x2, 0, 0x0⟩,
   ⟨0x50000810, 8, 0x10000, 4, 0x4, false, 0x0, 0xff, 0x0, 0x0, 0x0, 0, 0x0⟩,
   ⟨0x50000820, 8, 0x10000, 4, 0x8, true, 0x0, 0xffffffffffff, 0x0, 0x0, 0x0, 0, 0x0⟩,
   ⟨0x50000840, 8, 0x10000, 4, 0x8, true, 0x0, 0x0, 0x0, 0x0, 0x0, 0, 0x0⟩,
   ⟨0x50000860, 8, 0x10000, 1, 0x0, false, 0x0, 0x0, 0x0, 0x0, 0x0, 0, 0x0⟩]

/-- The register map at addresses 0x31000000 upward. -/
def regs31 : List RegDesc :=
  [⟨0x31000000, 4, 0x200000, 1, 0x0, false, 0x8, 0x0, 0xff, 0x0, 0x0, 18, 0xff⟩,
   ⟨0x31000004, 4, 0x200000, 1, 0x0, false, 0x0, 0x0, 0x0, 0xc000, 0x0, 0, 0x0⟩,
   ⟨0x31000008, 4, 0x200000, 1, 0x0, true, 0x0, 0x0, 0x0, 0x0, 0x0, 0, 0x0⟩,
   ⟨0x31000010, 4, 0x200000, 1, 0x0, true, 0x0, 0x0, 0x0, 0x0, 0x0, 0, 0x0⟩,
   ⟨0x31000018, 4, 0x200000, 1, 0x0, true, 0x0, 0x0, 0x0, 0x0, 0x0, 0, 0x0⟩,
   ⟨0x31000020, 4, 0x200000, 1, 0x0, false, 0x0, 0x0, 0x0, 0x0, 0x0, 0, 0x0⟩,
   ⟨0x31080000, 4, 0x200000, 65536, 0x8, true, 0x0, 0x0, 0x0, 0x0, 0x0, 0, 0x0⟩,
   ⟨0x31100000, 4, 0x200000, 65536, 0x4, false, 0x0, 0x0, 0x0, 0x0, 0x0, 0, 0x0⟩,
   ⟨0x31800000, 4096, 0x40, 1, 0x0, false, 0x0, 0x0, 0x0, 0x0, 0x0, 0, 0x0⟩,
   ⟨0x31800004, 4096, 0x40, 1, 0x0, false, 0x0, 0x0, 0x0, 0x0, 0x0, 0, 0x0⟩,
   ⟨0x31800008, 4096, 0x40, 1, 0x0, false, 0x0, 0x0, 0x0, 0x0, 0x0, 0, 0x0⟩,
   ⟨0x31800010, 4096, 0x40, 1, 0x0, true, 0x0, 0x0, 0x0, 0x0, 0x0, 0, 0x0⟩]

/-- The register map at addresses 0x40000000 upward. -/
def regs40 : List RegDesc :=
  [⟨0x40000000, 128, 0x2000, 1, 0x0, false, 0x17c810, 0x0, 0x7ffffff, 0x0, 0x0, 10, 0x7ffffff⟩,
   ⟨0x40000004, 128, 0x2000, 1, 0x0, false, 0x0, 0x0, 0x0, 0x0, 0x0, 0, 0x0⟩,
   ⟨0x40000008, 128, 0x2000, 1, 0x0, false, 0xfac688, 0x0, 0xffffff, 0x0, 0x0, 10, 0xffffff⟩,
   ⟨0x4000000c, 128, 0x2000, 1, 0x0, false, 0x0, 0x7, 0x0, 0x0, 0x0, 0, 0x0⟩,
   ⟨0x40000010, 128, 0x2000, 8, 0x4, false, 0x0, 0x0, 0x8003ffff, 0x0, 0x0, 10, 0x8003ffff⟩,
   ⟨0x40000030, 128, 0x2000, 1, 0x0, false, 0x0, 0x0, 0x0, 0xf, 0x0, 0, 0x0⟩,
   ⟨0x40000040, 128, 0x2000, 1, 0x0, false, 0x0, 0x0, 0x1, 0x0, 0x2, 11, 0x1⟩,
   ⟨0x40000048, 128, 0x2000, 1, 0x0, true, 0x0, 0xffffffffffffffff, 0x0, 0x0, 0x0, 11, 0xffffffffffffffff⟩,
   ⟨0x40000050, 128, 0x2000, 1, 0x0, false, 0xf4240, 0xffffffff, 0x0, 0x0, 0x0, 11, 0xffffffff⟩,
   ⟨0x40000054, 128, 0x2000, 1, 0x0, false, 0x1, 0x1ff, 0x0, 0x0, 0x0, 11, 0x1ff⟩,
   ⟨0x40000080, 128, 0x2000, 1, 0x0, true, 0x0, 0x0, 0x0, 0x0, 0x0, 0, 0x0⟩,
   ⟨0x40000088, 128, 0x2000, 1, 0x0, true, 0x0, 0x0, 0x0, 0x0, 0x0, 0, 0x0⟩,
   ⟨0x40000090, 128, 0x2000, 1, 0x0, true, 0x0, 0x0, 0x0, 0x0, 0x0, 0, 0x0⟩,
   ⟨0x40000098, 128, 0x2000, 1, 0x0, true, 0x0, 0x0, 0x0, 0x0, 0x0, 0, 0x0⟩,
   ⟨0x400000a0, 128, 0x2000, 1, 0x0, true, 0x0, 0x0, 0x0, 0x0, 0x0, 0, 0x0⟩,
   ⟨0x400000a8, 128, 0x2000, 1, 0x0, true, 0x0, 0x0, 0x0, 0x0, 0x0, 0, 0x0⟩,
   ⟨0x40001000, 128, 0x2000, 512, 0x8, true, 0xff, 0xffffffffff, 0x0, 0x0, 0x0, 11, 0xffffffffff⟩,
   ⟨0x40100000, 1, 0x0, 1, 0x0, false, 0x3e8, 0x0, 0x3ff, 0x0, 0x0, 12, 0x3ff⟩,
   ⟨0x40100004, 1, 0x0, 1, 0x0, false, 0x0, 0x0, 0x0, 0x0, 0x0, 0, 0x0⟩,
   ⟨0x40100008, 1, 0x0, 1, 0x0, false, 0x0, 0x0, 0x0, 0x1, 0x0, 0, 0x0⟩,
   ⟨0x40100010, 8, 0x4, 1, 0x0, false, 0x4002000, 0x0, 0xff01ffff, 0x0, 0x0, 12, 0xff01ffff⟩,
   ⟨0x40100040, 1, 0x0, 1, 0x0, false, 0xd, 0x0, 0xf, 0x0, 0x0, 12, 0xf⟩,
   ⟨0x40110000, 4096, 0x40, 4, 0x4, false, 0x0, 0xffffffff, 0x0, 0x0, 0x0, 12, 0xffffffff⟩,
   ⟨0x40110010, 4096, 0x40, 1, 0x0, false, 0x0, 0x7, 0x0, 0x0, 0x0, 12, 0x7⟩,
   ⟨0x40110020, 4096, 0x40, 4, 0x4, false, 0x0, 0xffffffff, 0x0, 0x0, 0x0, 12, 0xffffffff⟩,
   ⟨0x40180000, 1024, 0x20, 1, 0x0, true, 0x0, 0xbfffffffffffffff, 0x0, 0x0, 0x0, 12, 0xbfffffffffffffff⟩,
   ⟨0x40180008, 1024, 0x20, 1, 0x0, false, 0x123fc, 0x1fffff, 0x0, 0x0, 0x0, 12, 0x1fffff⟩,
   ⟨0x4018000c, 1024, 0x20, 1, 0x0, false, 0x0, 0xffffffff, 0x0, 0x0, 0x0, 12, 0xffffffff⟩,
   ⟨0x40180010, 1024, 0x20, 1, 0x0, false, 0x0, 0xffffffff, 0x0, 0x0, 0x0, 12, 0xffffffff⟩,
   ⟨0x40180014, 1024, 0x20, 1, 0x0, false, 0x0, 0xffffffff, 0x0, 0x0, 0x0, 12, 0xffffffff⟩]
  ++ [⟨0x40180018, 1024, 0x20, 1, 0x0, false, 0x0, 0xffffffff, 0x0, 0x0, 0x0, 12, 0xffffffff⟩,
   ⟨0x4018001c, 1024, 0x20, 1, 0x0, false, 0x0, 0x0, 0x0, 0x0, 0x0, 0, 0x0⟩,
   ⟨0x40200000, 16384, 0x20, 1, 0x0, true, 0x0, 0x8fffffffffffffff, 0x0, 0x0, 0x0, 12, 0x8fffffffffffffff⟩,
   ⟨0x40200008, 16384, 0x20, 4, 0x4, false, 0x0, 0xffffffff, 0x0, 0x0, 0x0, 12, 0xffffffff⟩,
   ⟨0x40200018, 16384, 0x20, 1, 0x0, false, 0x0, 0x1, 0x0, 0x0, 0x0, 12, 0x1⟩,
   ⟨0x40100100, 1, 0x0, 1, 0x0, false, 0x3ffff, 0x0, 0x3ffff, 0x0, 0x0, 0, 0x0⟩,
   ⟨0x40100104, 1, 0x0, 1, 0x0, false, 0x0, 0x0, 0xffff, 0x0, 0x0, 0, 0x0⟩,
   ⟨0x40100108, 1, 0x0, 1, 0x0, false, 0x0, 0x0, 0x0, 0x7, 0x0, 0, 0x0⟩,
   ⟨0x40100110, 1, 0x0, 1, 0x0, false, 0x0, 0x0, 0x0, 0x0, 0x0, 0, 0x0⟩,
   ⟨0x40100114, 1, 0x0, 1, 0x0, false, 0x0, 0x0, 0x0, 0x0, 0x0, 0, 0x0⟩,
   ⟨0x40100118, 1, 0x0, 1, 0x0, false, 0x0, 0x0, 0x0, 0x0, 0x0, 0, 0x0⟩,
   ⟨0x40300000, 8, 0x10, 1, 0x0, false, 0x0, 0x1fffffff, 0x0, 0x0, 0x0, 13, 0x1fffffff⟩,
   ⟨0x40300004, 8, 0x10, 1, 0x0, false, 0x0, 0x3ffff, 0x0, 0x0, 0x0, 13, 0x3ffff⟩,
   ⟨0x40300008, 8, 0x10, 1, 0x0, false, 0x0, 0x3ffff, 0x0, 0x0, 0x0, 13, 0x3ffff⟩,
   ⟨0x4030000c, 8, 0x10, 1, 0x0, false, 0x0, 0x3f, 0x0, 0x0, 0x0, 13, 0x3f⟩,
   ⟨0x40300100, 1, 0x0, 1, 0x0, false, 0x0, 0x1ffff, 0x0, 0x0, 0x0, 0, 0x0⟩,
   ⟨0x40300104, 1, 0x0, 1, 0x0, false, 0x1, 0x3ffff, 0x0, 0x0, 0x0, 0, 0x0⟩,
   ⟨0x40300108, 1, 0x0, 1, 0x0, false, 0x0, 0x73ffff, 0x0, 0x0, 0x0, 0, 0x0⟩,
   ⟨0x4030010c, 1, 0x0, 1, 0x0, false, 0x0, 0x0, 0x0, 0x0, 0x1, 0, 0x0⟩,
   ⟨0x40300110, 1, 0x0, 1, 0x0, false, 0x0, 0x1ffff, 0x0, 0x0, 0x0, 0, 0x0⟩,
   ⟨0x40300118, 1, 0x0, 1, 0x0, true, 0x0, 0xffffffffffffffff, 0x0, 0x0, 0x0, 0, 0x0⟩,
   ⟨0x40300120, 1, 0x0, 1, 0x0, false, 0x0, 0x0, 0x0, 0x0, 0x3, 0, 0x0⟩,
   ⟨0x40300124, 1, 0x0, 1, 0x0, false, 0x0, 0x7, 0x0, 0x0, 0x0, 0, 0x0⟩,
   ⟨0x40300128, 1, 0x0, 1, 0x0, false, 0x0, 0x0, 0x0, 0x7, 0x0, 0, 0x0⟩,
   ⟨0x40300130, 1, 0x0, 1, 0x0, false, 0x0, 0x0, 0x0, 0x0, 0x0, 0, 0x0⟩,
   ⟨0x40300134, 1, 0x0, 1, 0x0, false, 0x0, 0x0, 0x0, 0x0, 0x0, 0, 0x0⟩,
   ⟨0x40300138, 1, 0x0, 1, 0x0, false, 0x0, 0x0, 0x0, 0x0, 0x0, 0, 0x0⟩,
   ⟨0x4030013c, 1, 0x0, 1, 0x0, false, 0x0, 0x0, 0x0, 0x0, 0x0, 0, 0x0⟩,
   ⟨0x40300140, 1, 0x0, 1, 0x0, false, 0x0, 0x0, 0x0, 0x0, 0x0, 0, 0x0⟩,
   ⟨0x40300144, 1, 0x0, 1, 0x0, false, 0x0, 0x0, 0x0, 0x0, 0x0, 0, 0x0⟩]

/-- The register map at addresses 0x61000000 upward. -/
def regs61 : List RegDesc :=
  [⟨0x61008000, 96, 0x10000, 1, 0x0, false, 0x0, 0x0, 0x0, 0x0, 0x3, 0, 0x0⟩,
   ⟨0x61008004, 96, 0x10000, 1, 0x0, false, 0x0, 0x0, 0x0, 0xa, 0x0, 0, 0x0⟩,
   ⟨0x61008008, 96, 0x10000, 1, 0x0, false, 0x0, 0x0, 0x0, 0x0, 0x0, 0, 0x0⟩,
   ⟨0x61008010, 96, 0x10000, 6, 0x8, true, 0x0, 0x0, 0x0, 0x0, 0x0, 0, 0x0⟩,
   ⟨0x61008040, 96, 0x10000, 1, 0x0, true, 0x0, 0xffffffffffffffff, 0x0, 0x0, 0x0, 0, 0x0⟩,
   ⟨0x61008048, 96, 0x10000, 1, 0x0, false, 0x0, 0x0, 0x0, 0x0, 0x3, 0, 0x0⟩,
   ⟨0x61008050, 96, 0x10000, 4, 0x8, true, 0x0, 0x0, 0x0, 0x0, 0x0, 0, 0x0⟩]

/-- The register map at addresses 0x70000000 upward. -/
def regs70 : List RegDesc :=
  [⟨0x70000000, 1, 0x0, 1, 0x0, false, 0xa00, 0x0, 0x7f03, 0x0, 0x0, 17, 0x7f03⟩,
   ⟨0x70000004, 1, 0x0, 1, 0x0, false, 0x0, 0x0, 0x0, 0x0, 0x0, 0, 0x0⟩,
   ⟨0x70000008, 1, 0x0, 1, 0x0, false, 0x0, 0x0, 0xffff, 0x0, 0x0, 17, 0xffff⟩,
   ⟨0x7000000c, 1, 0x0, 1, 0x0, false, 0x0, 0x0, 0x0, 0x0, 0x0, 0, 0x0⟩,
   ⟨0x70000010, 1, 0x0, 1, 0x0, true, 0x0, 0x0, 0x0, 0x0, 0x0, 0, 0x0⟩,
   ⟨0x70000018, 1, 0x0, 1, 0x0, false, 0x0, 0x0, 0x0, 0x0, 0x0, 0, 0x0⟩,
   ⟨0x70000020, 1, 0x0, 1, 0x0, true, 0x0, 0x0, 0x0, 0x0, 0x0, 0, 0x0⟩,
   ⟨0x70000028, 1, 0x0, 1, 0x0, true, 0x0, 0x0, 0x0, 0x0, 0x0, 0, 0x0⟩,
   ⟨0x70000030, 1, 0x0, 1, 0x0, true, 0x0, 0x0, 0x0, 0x0, 0x0, 0, 0x0⟩,
   ⟨0x70000038, 1, 0x0, 1, 0x0, false, 0x0, 0x0, 0x0, 0x0, 0x0, 0, 0x0⟩,
   ⟨0x7000003c, 1, 0x0, 1, 0x0, false, 0x0, 0x7, 0x0, 0x0, 0x0, 0, 0x0⟩,
   ⟨0x70000040, 1, 0x0, 1, 0x0, false, 0x0, 0x0, 0x0, 0xf, 0x0, 0, 0x0⟩]

/-- The register map at addresses 0x2000000 upward. -/
def regs2 : List RegDesc :=
  [⟨0x2000000, 32, 0x1000, 1, 0x0, true, 0x0, 0x3ffffffff000, 0x0, 0x0, 0x0, 0, 0x0⟩,
   ⟨0x2000008, 32, 0x1000, 1, 0x0, false, 0x0, 0x10f, 0x0, 0x0, 0x0, 0, 0x0⟩,
   ⟨0x200000c, 32, 0x1000, 1, 0x0, false, 0x0, 0xffff, 0x0, 0x0, 0x0, 0, 0x0⟩,
   ⟨0x2000010, 32, 0x1000, 1, 0x0, false, 0x0, 0x0, 0x0, 0x0, 0x0, 0, 0x0⟩,
   ⟨0x2000014, 32, 0x1000, 1, 0x0, false, 0x0, 0x0, 0x0, 0x7, 0x0, 0, 0x0⟩,
   ⟨0x2100000, 1, 0x0, 1, 0x0, false, 0x0, 0x0, 0x0, 0x0, 0x0, 0, 0x0⟩]

/-- The register map at addresses 0x71000000 upward. -/
def regs71 : List RegDesc :=
  [⟨0x71f00000, 1, 0x0, 1, 0x0, false, 0x1, 0x0, 0x0, 0x0, 0x0, 0, 0x0⟩,
   ⟨0x71f00008, 1, 0x0, 1, 0x0, true, 0x0, 0x0, 0x0, 0x0, 0x0, 0, 0x0⟩,
   ⟨0x71f00010, 1, 0x0, 1, 0x0, false, 0x0, 0x1, 0x0, 0x0, 0x0, 0, 0x0⟩,
   ⟨0x71f00014, 1, 0x0, 1, 0x0, false, 0x0, 0x0, 0x0, 0x0, 0x0, 0, 0x0⟩,
   ⟨0x71f00018, 1, 0x0, 1, 0x0, false, 0x3520001, 0x0, 0x1, 0x0, 0x0, 0, 0x0⟩,
   ⟨0x71f0001c, 1, 0x0, 1, 0x0, false, 0x0, 0x0, 0x0, 0xffff0000, 0x0, 0, 0x0⟩,
   ⟨0x71f01000, 96, 0x4, 1, 0x0, false, 0x4, 0x0, 0x0, 0x0, 0x0, 0, 0x0⟩,
   ⟨0x71000000, 64, 0x4, 1, 0x0, false, 0x0, 0x0, 0x0, 0x0, 0x0, 0, 0x0⟩,
   ⟨0x71000100, 32, 0x4, 1, 0x0, false, 0x0, 0x0, 0x0, 0x0, 0x0, 0, 0x0⟩,
   ⟨0x71000180, 16, 0x4, 1, 0x0, false, 0x0, 0x0, 0x0, 0x0, 0x0, 0, 0x0⟩,
   ⟨0x710001c0, 24, 0x4, 1, 0x0, false, 0x0, 0x0, 0x0, 0x0, 0x0, 0, 0x0⟩,
   ⟨0x71000400, 1, 0x0, 1, 0x0, false, 0x0, 0x0, 0x0, 0xff, 0x0, 0, 0x0⟩,
   ⟨0x71000404, 1, 0x0, 1, 0x0, false, 0x0, 0x7f, 0x0, 0x0, 0x0, 0, 0x0⟩,
   ⟨0x71000408, 1, 0x0, 1, 0x0, false, 0x0, 0x0, 0x0, 0x0, 0x0, 0, 0x0⟩,
   ⟨0x7100040c, 1, 0x0, 1, 0x0, false, 0x64, 0x0, 0xff, 0x0, 0x0, 0, 0x0⟩,
   ⟨0x71000410, 1, 0x0, 1, 0x0, false, 0x10a14, 0x0, 0x1ffff, 0x0, 0x0, 0, 0x0⟩]

/-- The register map at addresses 0x400000000000 upward. -/
def regs400000 : List RegDesc :=
  [⟨0x400000000000, 96, 0x1000, 1, 0x0, false, 0x0, 0x18, 0x0, 0x0, 0x7, 0, 0x0⟩,
   ⟨0x400000000004, 96, 0x1000, 1, 0x0, false, 0x0, 0x0, 0x0, 0x0, 0x0, 0, 0x0⟩,
   ⟨0x400000000010, 96, 0x1000, 1, 0x0, false, 0x0, 0x3fff, 0x0, 0x0, 0x0, 0, 0x0⟩,
   ⟨0x400000000018, 96, 0x1000, 1, 0x0, true, 0x0, 0xffffffffffffffff, 0x0, 0x0, 0x0, 0, 0x0⟩,
   ⟨0x400000000100, 96, 0x1000, 8, 0x10, true, 0x0, 0xffffffffffffffff, 0x0, 0x0, 0x0, 0, 0x0⟩,
   ⟨0x400000000108, 96, 0x1000, 8, 0x10, false, 0x8010, 0x1fffff, 0x0, 0x0, 0x0, 0, 0x0⟩,
   ⟨0x400000100000, 256, 0x100, 1, 0x0, false, 0x0, 0x0, 0x0, 0x0, 0x7, 0, 0x0⟩,
   ⟨0x400000100004, 256, 0x100, 1, 0x0, false, 0x0, 0x0, 0x0, 0x0, 0x0, 0, 0x0⟩,
   ⟨0x400000100008, 256, 0x100, 1, 0x0, false, 0x0, 0x1f, 0x0, 0x0, 0x0, 0, 0x0⟩,
   ⟨0x40000010000c, 256, 0x100, 1, 0x0, false, 0x0, 0xffffffff, 0x0, 0x0, 0x0, 0, 0x0⟩,
   ⟨0x400000100010, 256, 0x100, 2, 0x10, false, 0x0, 0xfffffffc, 0x0, 0x0, 0x0, 0, 0x0⟩,
   ⟨0x400000100014, 256, 0x100, 2, 0x10, false, 0x0, 0xff, 0x0, 0x0, 0x0, 0, 0x0⟩,
   ⟨0x400000200000, 8, 0x40, 1, 0x0, false, 0x0, 0x7, 0x0, 0x0, 0x0, 0, 0x0⟩,
   ⟨0x400000200004, 8, 0x40, 3, 0x4, false, 0x0, 0xffffffff, 0x0, 0x0, 0x0, 0, 0x0⟩,
   ⟨0x400000200010, 8, 0x40, 8, 0x4, false, 0x0, 0xffffffff, 0x0, 0x0, 0x0, 0, 0x0⟩,
   ⟨0x400000200030, 8, 0x40, 1, 0x0, false, 0x0, 0x0, 0x0, 0x1, 0x0, 0, 0x0⟩,
   ⟨0x400000300000, 1, 0x0, 1, 0x0, true, 0x0, 0x3fffffffffff, 0x0, 0x0, 0x0, 0, 0x0⟩,
   ⟨0x400000300008, 1, 0x0, 1, 0x0, true, 0x0, 0xffffffffffffffff, 0x0, 0x0, 0x0, 0, 0x0⟩,
   ⟨0x400000300010, 1, 0x0, 1, 0x0, false, 0x0, 0x1ff, 0x0, 0x0, 0x200, 0, 0x0⟩]

/-- The rows of the map that may hold an address. -/
def regWindow (a : Nat) : List RegDesc :=
  match a / 0x1000000 with
  | 0x13 => regs13
  | 0x12 => regs12
  | 0x11 => regs11
  | 0x51 => regs51
  | 0x60 => regs60
  | 0x52 => regs52
  | 0x50 => regs50
  | 0x31 => regs31
  | 0x40 => regs40
  | 0x61 => regs61
  | 0x70 => regs70
  | 0x2 => regs2
  | 0x71 => regs71
  | 0x400000 => regs400000
  | _ => []

/-- The first row of a list that holds the register at an address, with the register's indices. -/
def regFindIn : List RegDesc → Nat → Option (RegDesc × Nat × Nat)
  | [], _ => none
  | d :: ds, a =>
    match d.find a with
    | some (i, j) => some (d, i, j)
    | none => regFindIn ds a

/-- The register at an address, by the register map. -/
def regFind (a : Nat) : Option (RegDesc × Nat × Nat) := regFindIn (regWindow a) a

/-- What a register that no write has changed reads as: the Reset column (R14); an address that holds no register reads 0. -/
def regReset (a : Nat) : Word64 :=
  match regFind a with
  | some (d, _, _) => BitVec.ofNat 64 d.reset
  | none => 0

end Sys2Proof.Machine
end

