-- ==== Sys2Proof/Machine/State.lean ====
section
/-!
DEFINITION. Sys2Proof/Machine/State.lean: everything the spec gives the device to hold, as plain data, and its value just after
PORESET_N. Memory-mapped registers stand in `regs`, keyed by physical address; a register that no one has changed is not
listed and reads as its Reset column gives (R14, Machine/RegMap.lean). What the registers only show, and what lies behind
them, stands in the records below, one for each unit.
-/
namespace Sys2Proof.Machine

/-! ### What a ball is driven to -/

/-- What a pin drives onto its ball (R72): a level at a DRIVE setting, a modulator clock of 1 GHz divided (R85), or nothing, with
the pull that then applies. -/
inductive Drive where
  | level (high : Bool) (strength : BitVec 2)
  | clock (divisor : Nat)
  | released (pull : BitVec 2)
deriving DecidableEq, Repr

/-! ### Global time and phase bases -/

/-- Global time and its servo (R18 to R26, R46 to R49, R592). -/
structure Gt where
  /-- the visible nanoseconds (R18) -/
  now : Word64 := 0
  /-- the hidden fraction, in 2^-32 ns -/
  frac : BitVec 32 := 0
  /-- the servo's rate term, in 2^-32 ns per clock -/
  rho : Int := 0
  /-- the correction still to slew, in 2^-32 ns -/
  slew : Int := 0
  /-- what the correction has slewed since the last measurement, in 2^-32 ns -/
  slewed : Int := 0
  /-- measurements since the servo last started or resumed: 0, 1, or 2 for more -/
  measured : Nat := 0
  lastOffset : Int := 0
  lastMeasure : Word64 := 0
  /-- GT at the arrival of the last valid message, from which HOLDOFF counts (R26) -/
  lastMessage : Word64 := 0
  /-- the received Sync interval in ns (R26); before any Sync has come it is taken as the 125 ms that R404 sends at (DESIGN CHOICE,
  assumption 116) -/
  interval : Nat := 125000000
  /-- the source has been lost, and no message has come since (R26) -/
  lost : Bool := false
  /-- consecutive intervals within 100 ns (R25) -/
  good : Nat := 0
  /-- the RTC count (R46) -/
  rtc : BitVec 48 := 0
  backup : Word64 := 0
  backupRtc : BitVec 48 := 0
  backupValid : Bool := false
  /-- GT held when the reference stopped or a reset began (R48) -/
  held : Word64 := 0
  /-- the last forward step: its phase clock and GT before it (R28, R65) -/
  stepped : Option (Nat × Nat) := none
deriving DecidableEq, Repr

/-- One phase base (R33 to R42, R594). Between updates its value is `anchor` plus its rate times the GT elapsed since `anchorGt`. -/
structure Base where
  /-- the value at the anchor, in 2^-32 counts -/
  anchor : Int := 0
  anchorGt : Word64 := 0
  /-- the rate in effect, signed 32.32 counts per ns -/
  rate : Int := 0
  /-- MAINS: the last crossing, its polarity and GT -/
  lastCross : Option (Bool × Word64) := none
  lastGood : Option Word64 := none
  /-- MAINS: the last measured half-cycle in ns; 0 before the first -/
  half : Nat := 0
  /-- MAINS: the integral term, a rate in 2^-32 counts per ns -/
  integral : Int := 0
  inputLost : Bool := true
  /-- ENCODER: the levels of PIN_A and PIN_B as last sampled -/
  levelA : Bool := false
  levelB : Bool := false
  /-- ENCODER: the phase clock of the last edge (R37, R578) -/
  lastEdge : Option Nat := none
  /-- ENCODER: the length in ns of the present window, its count change and the edges counted in it, and the GT at its start (R38) -/
  winLen : Nat := 0
  winChange : Int := 0
  winEdges : Nat := 0
  winStart : Word64 := 0
  /-- STREAM: the last update and its GT -/
  lastUpd : Option (BitVec 48 × Word64) := none
  /-- STREAM: a rate may be computed from the next update (R39, R41) -/
  haveRate : Bool := false
  /-- STREAM: while HELD, the interpolated path from the last update, in 2^-32 counts at `anchorGt` (R40) -/
  heldPath : Option Int := none
  /-- the GT at which EN was last set (R41, R42) -/
  enGt : Word64 := 0
  /-- the lines that the value has followed, newest first, each with the GT from which it held: a value at an anchor in 2^-32 counts, the
  anchor's GT and the rate (R82) -/
  past : List (Word64 × Int × Word64 × Int) := []
  /-- the last move by an update rather than by the passing of time: its phase clock, the value before it, the counts moved, and whether
  it was a jump (R40, R65) -/
  lastMove : Option (Nat × Nat × Int × Bool) := none
deriving DecidableEq, Repr

/-! ### Compares, pins, filters and counters -/

/-- What a compare holds beside its registers. -/
structure Cmp where
  /-- the phase clock of the last write of CMP_VALUE (R65) -/
  writtenAt : Option Nat := none
  /-- the phase clock of the last match (R63) -/
  matchedAt : Option Nat := none
deriving DecidableEq, Repr

/-- A pin action waiting for the resolution of its phase clock (R73, R74). -/
inductive PinAct where | active | safe | toggle | trip
deriving DecidableEq, Repr

/-- What a phase pin holds beside its registers. -/
structure Pin where
  /-- what the device drives at the ball -/
  ball : Drive := .released 1
  /-- the level an outside driver was last seen to give -/
  outside : Option Bool := none
  /-- the phase clock since which the ball holds its level, and the level that has last passed the filter (R96) -/
  levelSince : Nat := 0
  filtered : Bool := false
  /-- the actions that have reached the pin, with the phase clock in which they are resolved -/
  acts : List (Nat × PinAct) := []
  /-- the phase clock last resolved, and the pin's state before it -/
  resolvedAt : Option Nat := none
  before : Bool := false
  /-- those actions have set CONFLICT -/
  clashed : Bool := false
  /-- the boundary register drives the ball (R538) -/
  scan : Option Drive := none
deriving DecidableEq, Repr

/-- What a pin bank holds beside its registers (R78). -/
structure Bank where
  /-- the supply is known to lie outside the range for VSEL -/
  outside : Bool := false
  /-- the phase clock of the last clearing of SUPPLY_OK, from which 100 µs count -/
  since : Nat := 0
  /-- PIN_BANK_CFG has been written since the last reset (R80) -/
  written : Bool := false
deriving DecidableEq, Repr

/-- What a capture channel holds beside its registers: for a read in the phase clock of a capture, that clock and what a read
before the capture would have given (R83). -/
structure Cap where
  landed : Option Nat := none
  oldValue : Word64 := 0
  oldOverrun : Bool := false
  /-- the phase clock of the last read -/
  readAt : Option Nat := none
deriving DecidableEq, Repr

/-- What a sigma-delta channel holds beside its registers (R84 to R86). -/
structure Sdf where
  /-- results since EN was set or the clock returned -/
  results : Nat := 0
  wasHigh : Bool := false
  wasLow : Bool := false
  /-- no modulator clock edge arrives -/
  clockLost : Bool := false
  /-- the last result with VALID and its GT, for MAINS crossings (R35) -/
  last : Option (Int × Word64) := none
deriving DecidableEq, Repr

/-- What a linked counter holds beside its registers (R88): the phase clock from which its prescaler counts ticks, and the last
compare action with its step of 2 ns. -/
structure Ctr where
  tickBase : Nat := 0
  lastAct : Option (Nat × BitVec 2) := none
deriving DecidableEq, Repr

/-! ### Main cores -/

/-- A mode-changing write that has not taken effect (R165): the instructions still to run, the register, the value. -/
structure LatentWrite where
  left : Nat
  number : Nat
  value : Word64
deriving DecidableEq, Repr

/-- What a main core is doing. -/
inductive CoreRun where
  | running
  /-- waiting in WFI (R186) -/
  | waiting
  /-- stopped after a fault at entry to PL3 (R177) -/
  | stopped
  /-- halted by debug (R541) -/
  | halted
deriving DecidableEq, Repr

/-- A region type (R243, R250). -/
inductive MemType where | wb | nc | dev
deriving DecidableEq, Repr

/-- Permissions a leaf gives (R243). -/
structure Perm where
  r : Bool
  w : Bool
  x : Bool
  u : Bool
deriving DecidableEq, Repr

/-- A TLB entry: a combined translation (R255). Pages are held as byte addresses of their first byte. -/
structure TlbEntry where
  vmid : BitVec 12
  asid : BitVec 16
  global : Bool
  /-- log2 of the bytes covered: 12, 16, 21 or 30 -/
  size : Nat
  vpage : Nat
  ipage : Nat
  ppage : Nat
  type1 : MemType
  type2 : MemType
  perm1 : Perm
  perm2 : Perm
  /-- the levels of the two leaves -/
  level1 : Nat
  level2 : Nat
deriving DecidableEq, Repr

/-- An entry of the store buffer (R264). -/
structure StoreEntry where
  addr : Nat
  /-- bytes, 1 to 8 -/
  bytes : Nat
  data : Word64
  type : MemType
  pl : Pl
  eid : Eid
  slack : Word32
  /-- log2 of the bytes of the whole store -/
  size : Nat
  /-- sent to the mesh, its Comp awaited (R266) -/
  sent : Bool
deriving DecidableEq, Repr

/-- The state of a line in a main core's caches (R298). -/
inductive LineSt where
  | m | o | e | s
  | isD | isDI | imAD | imA | smAD | omAD | miA | oiA | iiA
deriving DecidableEq, Repr

/-- A line in a main core's caches. -/
structure CLine where
  st : LineSt
  data : Line
  poison : Bool
  /-- acknowledgements expected less those received (R301) -/
  acks : Int
  /-- the data or Comp of the grant has arrived -/
  granted : Bool
  grantDirty : Bool
  /-- the home has ordered the core's request for the line (R270) -/
  ordered : Bool := false
deriving DecidableEq, Repr

/-- What has come for a load or a fetch that waits: its line, or the home's refusal (R299). -/
inductive MissGot where
  | data (line : Line) (poison : Bool)
  | refused (status : CohStatus)
deriving DecidableEq, Repr

/-- An outstanding load or fetch of a line (R228, R267): answers still to come for loads that were given up, which are dropped when they
come (R174), whether a load or fetch waits now, and what has come for it. -/
structure Miss where
  drop : Nat
  wanted : Bool
  got : Option MissGot
deriving DecidableEq, Repr

/-- The reservation of a core (R270, R271): the line that LDRES addressed, the core cycles counted since it retired up to a phase clock,
whether writes to the granule's other line are tracked yet, and whether a STCOND has issued, which stops the count. -/
structure Reservation where
  line : Nat
  at_ : Nat
  cycles : Nat := 0
  companion : Bool
  issued : Bool
deriving DecidableEq, Repr

/-- What a TLBI removes (R258). -/
inductive TlbiOp where
  | va (vmid addr asid : Nat)
  | asid (vmid asid : Nat)
  | guest (vmid : Nat)
  | ipa (vmid addr : Nat)
  | vmid (vmid : Nat)
  | all
deriving DecidableEq, Repr

/-- A main core (R159 to R192, R195, R254, R264, R270). -/
structure Core where
  g : Tab Word64 := []
  f : Tab Word64 := []
  pc : Word64 := 0
  pl : Pl := 3
  run : CoreRun := .running
  /-- system registers, by number, as MFSR reads them -/
  sys : Tab Word64 := []
  /-- the values in effect of those marked Latent (R165) -/
  eff : Tab Word64 := []
  latent : List LatentWrite := []
  /-- views whose vector 253 has been raised for the present value of TMR_PLx (R180) -/
  timerFired : List View := []
  reserved : Option Reservation := none
  /-- lines for which the home has refused a request, and why (R299) -/
  refused : Tab CohStatus := []
  stores : List StoreEntry := []
  /-- the fence or TLBI at the PC waits for the store buffer to drain (R227, R268) -/
  drainWait : Bool := false
  /-- stores that have left the buffer so far, and how many must have done so before a DEV load after a FENCE.IO (R269) -/
  drained : Nat := 0
  ioWait : Nat := 0
  /-- a TLBI in progress, and, once it has reached its agents, how many stores each core must have drained (R259) -/
  tlbi : Option (TlbiOp × Option (List (Nat × Nat))) := none
  itlb : List TlbEntry := []
  dtlb : List TlbEntry := []
  l2tlb : List TlbEntry := []
  lines : Tab CLine := []
  /-- outstanding loads and fetches, by twice the line's number, and one more for a read that enters no cache (R228, R267, R299) -/
  misses : Tab Miss := []
  /-- the fetch of a handler's first instruction, at this level, is to come: a fault of it is ENTRY_FAULT (R177) -/
  entering : Option Nat := none
  /-- the instruction at the PC waits, and its fetch has been compared (R543) -/
  compared : Bool := false
  /-- the return-address stack of at most 32 entries, the outcomes of the last 100 conditional branches, newest in bit 0, the number of
  conditional branches so far, and the range the loop buffer holds (R233, R234, R236). The two-bit counters of the base table, and the
  entries of the four tagged tables with 1,536 numbers each: none is valid after a reset, and every base counter is weakly not taken
  (R233). The levels of loop whose present pass has been fetched from its first instruction on, so that it is captured (R236) -/
  returnStack : List Word64 := []
  history : BitVec 100 := 0
  branches : Nat := 0
  loopBuffer : Option (Word64 × Word64) := none
  baseTable : Tab (BitVec 2) := []
  tagTables : Tab Word32 := []
  wholePass : List Nat := []
  /-- debug STEP: one instruction runs before the core halts again (R542) -/
  stepping : Bool := false
  /-- a halt at the next boundary, with its REASON (R541) -/
  haltReq : Option Nat := none
  /-- STEP or RESUME has let the core go since its last halt, so that MASKINT counts (R542) -/
  resumed : Bool := false
  /-- cycles are counted from this phase clock (R550) -/
  cycSince : Option Nat := none
  /-- a counter has overflowed with its interrupt, and the entry for vector 254 is still to come: SKID counts (R553) -/
  skidding : Bool := false
deriving DecidableEq, Repr


/-! ### The contact sheet -/

/-- An event on its way to the contact sheet (R351, R355). -/
structure SheetEvent where
  cls : Byte
  unit : Word32
  addr : Word64
  synd : Word32
  scrub : Bool
  gt : Word64
deriving DecidableEq, Repr

/-- An entry of the contact sheet (R351). -/
structure SheetEntry where
  ev : SheetEvent
  valid : Bool
  lost : Bool
  repeats : BitVec 16
  seq : Word32
deriving DecidableEq, Repr

/-- The contact sheet, its intake and its mirror (R350 to R358). -/
structure Sheet where
  /-- the ring, newest first -/
  ring : List SheetEntry := []
  /-- the next sequence number -/
  seq : Word32 := 0
  intake : List SheetEvent := []
  /-- events lost, and whether the next new entry carries LOST (R355) -/
  lostCount : Nat := 0
  lostPending : Bool := false
  /-- SEQ of entries not yet copied to the mirror (R358) -/
  toMirror : List Word32 := []
  mirrorBase : Nat := 0
  mirrorSize : Nat := 0
deriving DecidableEq, Repr

/-! ### Modes, resets and spares -/

/-- The mode machine beside its registers (R495 to R509). -/
structure Modes where
  /-- REFCLK is running (R502) -/
  refclk : Bool := true
  /-- a change agreed with the peer: to RUN_PAIRED or from it, at this GT (R464, R499) -/
  agreed : Option (Bool × Word64) := none
  /-- the cause of a SAFE_HOLD trigger that fell in STANDBY (R503) -/
  holdCause : Option Nat := none
  /-- SAFE_N asserted, PAIR_OK high -/
  safeN : Bool := true
  pairOk : Bool := false
  /-- compares whose interrupt waits for REFCLK to return (R502) -/
  heldIrqs : List Nat := []
  /-- quadrants disabled (R527) -/
  quadsOff : List Nat := []
  /-- the monitor's first instruction, from the boot image (R439, R440) -/
  monEntry : Word64 := 0
  /-- both safelight rails are in range (R537) -/
  safelightUp : Bool := true
  /-- PORESET_N and RESET_N are low -/
  poreset : Bool := true
  reset : Bool := false
  /-- a start in progress: what it finds, whether it is a warm one, and whether preflash is part of it -/
  boot : Option BootInput := none
  /-- what the last start found: the boot devices' contents -/
  found : Option BootInput := none
  warm : Bool := false
  willFlash : Bool := false
  /-- a preflash has begun and has not ended (R506) -/
  flashing : Bool := false
  /-- Lemam runs (R477, R508 step 5), and the version of its patch -/
  lemamUp : Bool := false
  patch : Nat := 0
  /-- the boot image that verified -/
  image : List Byte := []
  /-- DRAM_CONFIG values that replace the image's, and whether DRAM is initialised (R329) -/
  dramBlock : Option (List Byte) := none
  dramReady : Bool := false
  /-- a wake in progress: the mode to enter and its cause (R503) -/
  waking : Option (Nat × Nat) := none
  /-- the wake's steps have begun -/
  going : Bool := false
  /-- the PLLs are locked -/
  pll : Bool := false
  /-- the phase clock at which the reference stopped -/
  stopClk : Nat := 0
  /-- the phase clock at which the drain of a warm reset ends (R331) -/
  drainEnd : Nat := 0
  /-- the record of lost units (R500): main cores, phase cores, ports -/
  lostCores : List Nat := []
  lostPcs : List Nat := []
  lostPorts : List Nat := []
  /-- rails out of their range -/
  railsOut : List Nat := []
  thermtrip : Bool := false
  /-- stored margins in mV by slot, cluster × 5 + slot (R533) -/
  margins : Tab Int := []
  /-- voltage monitors whose last sample was critical (R531) -/
  voltCrit : List Nat := []
deriving DecidableEq, Repr

/-- Spares in use (R5, R6, R522). A replaced logical index is held plus one; 0 is a free spare. -/
structure Spare where
  /-- by main cluster, quadrant × 6 + cluster -/
  main : Tab Nat := []
  /-- by phase-core spare, quadrant × 4 + spare -/
  phase : Tab Nat := []
  /-- by home slice, the LLC way and the directory way replaced; by SPL lane, the port whose MAC it serves -/
  llcWay : Tab Nat := []
  dirWay : Tab Nat := []
  serdes : Tab Nat := []
  /-- command core 1 has been engaged -/
  command : Bool := false
  /-- spares that failed their last self-test: KIND, group and spare -/
  failed : List (Nat × Nat × Nat) := []
deriving DecidableEq, Repr

/-! ### Phase cores -/

/-- What an access of a phase core writes when it has been read (R107): a register, sign-extended from its width or not, a pair,
or an accumulator. -/
inductive PcDest where
  | reg (r : PReg) (signed : Bool)
  | pair (r : PReg)
  | acc (a : AccId)
deriving DecidableEq, Repr

/-- An access of a phase core beyond its local memory: its address as the core issued it, the physical address, its bytes, and the
data of a store or the destination of a load. -/
structure PcAccess where
  vaddr : Word32
  paddr : Nat
  bytes : Nat
  store : Option Word64
  dest : PcDest
deriving DecidableEq, Repr

/-- An entry of a phase core's post queue (R126): a point write or a doorbell. -/
structure PostEntry where
  point : Bool
  target : Nat
  value : Word64
  stamp : Stamp
  eid : Eid
deriving DecidableEq, Repr

/-- What a phase core waits for in the O state of its present instruction. -/
inductive PcWait where
  /-- a WINDOW access: lines not yet answered, and the lines received -/
  | window (a : PcAccess) (lines : List Nat) (got : Tab Line)
  /-- a PTLD of a point -/
  | point (pt : Nat) (dest : PcDest)
  /-- room in the post queue (R126) -/
  | post (e : PostEntry)
deriving DecidableEq, Repr

/-- An instruction that R122 abandons: until when it runs, its address, and the register it writes with its old value. -/
structure PcLong where
  until_ : Nat
  pc : Word32
  rd : PReg
  old : Word32
  lcnt : Word32
deriving DecidableEq, Repr

/-- The preemption shadow (R121). -/
structure PcShadow where
  pc : Word32 := 0
  ctask : BitVec 3 := 0
  tdl : Word64 := 0
  lcnt : Word32 := 0
  lbeg : Word32 := 0
  lend : Word32 := 0
  flat : Bool := false
deriving DecidableEq, Repr

/-- An event in a task input's queue (R117): its source, its GT and the phase clock in which it entered. -/
structure PcEvent where
  source : BitVec 11
  gt : Word64
  clk : Nat
deriving DecidableEq, Repr

/-- A phase core beside its registers (R101, R117, R126). -/
structure PCore where
  p : Tab Word32 := []
  acc0 : Word64 := 0
  acc1 : Word64 := 0
  pc : Word32 := 0
  lcnt : Word32 := 0
  lbeg : Word32 := 0
  lend : Word32 := 0
  ctask : BitVec 3 := 0
  tdl : Word64 := 0
  /-- flat-timed -/
  flat : Bool := false
  /-- a change of timing mode to come: instructions still to run under the old mode, and the new mode (R115) -/
  flatNext : Option (Nat × Bool) := none
  shadow : PcShadow := {}
  queues : Tab (List PcEvent) := []
  /-- events dropped in the present clock, by input (R117) -/
  shed : Tab (List PcEvent) := []
  post : List PostEntry := []
  /-- the oldest entry's point write has been presented to ARB_PT -/
  posting : Bool := false
  /-- the next instruction starts at this phase clock -/
  busy : Nat := 0
  /-- a sleeping WAITEV: its rd and mask, and when it completes once an event has entered -/
  sleep : Option (PReg × BitVec 8 × Option Nat) := none
  wait : Option PcWait := none
  long : Option PcLong := none
  /-- the core halts when its present instruction completes: by RUN (R122), or by debug (R545) with its REASON -/
  stopping : Bool := false
  halting : Option Nat := none
  /-- halted by debug; what STEP lets run -/
  halted : Bool := false
  stepping : Bool := false
  /-- clocks spent RUNNING, up to `since` -/
  cycles : Nat := 0
  since : Option Nat := none
deriving DecidableEq, Repr

/-! ### Deadline arbiters and DRAM -/

/-- A request in an arbiter's tray, or held by back-pressure (R141, R144). -/
structure ArbEntry where
  id : Nat
  req : ArbReq
  /-- the slack when it was last fixed, and GT in 4 ns units then (R135) -/
  slack : Int
  dls : Nat
  /-- beats granted (R140) -/
  done : Nat
  /-- the phase clock of its presentation (R137) -/
  since : Nat
  /-- it has not yet been ranked, so it may preempt (R140) -/
  fresh : Bool
deriving DecidableEq, Repr

/-- An arbiter beside its registers (R141). -/
structure Arb where
  tray : List ArbEntry := []
  held : List ArbEntry := []
  nextId : Nat := 0
  /-- the entry whose grant is in progress -/
  granted : Option Nat := none
  /-- the next beat slot, in ps from power-up, and whether it is due in the agenda -/
  slot : Nat := 0
  armed : Bool := false
  /-- the phase clock from which back-pressure counts (R157) -/
  bpSince : Option Nat := none
deriving DecidableEq, Repr

/-- What a request stands for, and what follows its last beat. -/
inductive Work where
  /-- the home's read of a line from DRAM -/
  | fill (line : Nat)
  /-- a whole-line write of the home, or a partial one; `holds`: the line stays busy until admission (R294) -/
  | store (line : Nat) (part : Bool) (holds : Bool)
  | scrub (line : Nat)
  /-- a mirror entry's write by Lemam (R358) -/
  | mirror (seq : Word32)
  /-- an access to a point, a Dinath record, the assignment of a point and of those that follow it, and forcing or its end -/
  | point (pt : PointId) (who : Requester) (access : PointAccess)
  /-- an access that has been answered already and only takes its beat (R414) -/
  | pass
  | record (pt : PointId) (value stamp : Word64) (node : BitVec 18)
  | assign (pt left port : Nat) (stamp : Stamp)
  | force (pt : Nat) (value : Option Word64)
  /-- a channel's descriptor fetch or transfer, and the completion write of a queue -/
  | fetch (e : QeId) (ch : ChanId)
  | transfer (e : QeId) (ch : ChanId)
  | completion (q : QueueId)
  /-- a message on the pair link: to the agreement gate, a peer command, or its reply -/
  | gate (item : GateItem)
  | peerCommand (packet : List Byte)
  | peerReply (packet : List Byte)
deriving DecidableEq, Repr

/-- What a controller entry does (R315, R319, R349). -/
inductive DramKind where | read | write | part | scrub
deriving DecidableEq, Repr

/-- An entry of a memory controller's queue (R315 to R317). -/
structure DramEntry where
  tag : Nat
  addr : Nat
  sub : Nat
  rank : Nat
  /-- bank group × 4 + bank -/
  bank : Nat
  row : Nat
  kind : DramKind
  cls : Nat
  /-- the phase clock of admission -/
  since : Nat
  /-- a read whose column command has issued: the phase clock at which its data is handed on (R312) -/
  hand : Option Nat
deriving DecidableEq, Repr

/-- A memory controller beside its registers. -/
structure Mc where
  queue : List DramEntry := []
  /-- the open row plus one, and the phase clock of the bank's next command, by subchannel × 64 + rank × 32 + bank -/
  rows : Tab Nat := []
  ready : Tab Nat := []
  /-- the phase clock of the last column command of a bank -/
  lastCol : Tab Nat := []
  /-- the next command slot of a subchannel -/
  slot : Tab Nat := []
  blackout : Bool := false
  /-- the phase clock of the next blackout's start, while blackouts run -/
  next : Option Nat := none
  /-- consecutive polls in which every device reports 1× (R324) -/
  cool : Nat := 0
  /-- the erased device plus one, by subchannel × 2 + rank (R361) -/
  erased : Tab Nat := []
  /-- erasures asked for, which take effect at the next blackout -/
  erasing : Tab Nat := []
  /-- the patrol scrubber: its period in hours, and the next line of the channel -/
  scrubHours : Nat := 24
  scrubLine : Nat := 0
  /-- self-refresh is entered at the next blackout start (R331, R332) -/
  toSelfRefresh : Bool := false
  /-- the phase clock from which the clocks with the queue full are still to be counted (R554) -/
  full : Option Nat := none
deriving DecidableEq, Repr

/-! ### Home slices and enclave ranges -/

/-- A line's entry in a directory (R285, R286): the owner, whether it holds the line alone (X, else O), and the sharers. -/
structure DirEntry where
  owner : Option Nat
  excl : Bool
  sharers : BitVec 96
  /-- the slice's count at the last use, for replacement -/
  used : Nat
deriving DecidableEq, Repr

/-- A line of the last-level cache (R284). -/
structure LlcLine where
  data : Line
  dirty : Bool
  poison : Bool
  used : Nat
deriving DecidableEq, Repr

/-- What an open transaction of a home waits for (R292, R296). -/
inductive TxnWait where
  /-- the line from DRAM -/
  | memory
  /-- the requester's Comp -/
  | comp
  /-- the owner's FwdAck or FwdMiss -/
  | forward
  /-- acknowledgements and data that come to the home -/
  | acks
  /-- the removal of a directory entry (R288, R289, R431) -/
  | removal
  /-- ARB_MC's admission of a write (R294) -/
  | admission
deriving DecidableEq, Repr

/-- An open transaction: its line, its request if it has one, what it waits for, how many acknowledgements are still to come, and
the bytes that a partial write has gathered (R297). -/
structure Txn where
  line : Nat
  req : Option Instr
  wait : TxnWait
  left : Nat
  mask : Word64
deriving DecidableEq, Repr

/-- A home slice beside its registers (R283, R285, R292). -/
structure Home where
  queue : List Instr := []
  txns : List Txn := []
  /-- by line number, the address over 64 -/
  dir : Tab (Option DirEntry) := []
  llc : Tab (Option LlcLine) := []
  /-- uses so far -/
  count : Nat := 0
  /-- victim removals in the present window (R306) -/
  window : Nat := 0
  /-- a line query that waits for its line (R307) -/
  query : Option Nat := none
  /-- the phase clock from which the clocks with the request queue full are still to be counted (R554) -/
  full : Option Nat := none
deriving DecidableEq, Repr

/-- A valid range of the Enclave Range Table as its checkers hold it (R427): enclave, entry, first and last page, and W. -/
structure ErtRange where
  eid : Nat
  index : Nat
  base : Nat
  last : Nat
  w : Bool
deriving DecidableEq, Repr

/-! ### The point image -/

/-- An entry of the point image (R413). -/
structure Point where
  value : Word64 := 0
  stamp : BitVec 40 := 0
  valid : Bool := false
  stale : Bool := false
  forced : Bool := false
  cls : BitVec 3 := 0
  vmid : BitVec 12 := 0
  eid : Eid := 0
  /-- an uncorrectable error has been found in the entry (R346) -/
  bad : Bool := false
deriving DecidableEq, Repr

/-! ### Queue engines -/

/-- A descriptor (R368) as a channel or the switch works on it, and its outcome once it has one: status and length. -/
structure Descr where
  index : Nat
  gen : Byte
  a : Word64
  b : Word64
  length : Nat
  irq : Bool
  kind : Nat
  opt : Byte
  cookie : Word64
  stamp : Stamp
  done : Option (Nat × Nat)
deriving DecidableEq, Repr

/-- The context of a queue (R363, R366, R367) beside its status word: the next descriptor to fetch, and the descriptors fetched whose
completions are not yet written, in index order. -/
structure Queue where
  kind : Nat := 0
  ring : Nat := 0
  comp : Nat := 0
  log2 : Nat := 0
  vec : Nat := 0
  port : Nat := 0
  next : Nat := 0
  flight : List Descr := []
  /-- a completion write has been presented -/
  writing : Bool := false
deriving DecidableEq, Repr

/-- A transfer channel (R364). -/
structure Chan where
  queue : Option Nat := none
  /-- the TAIL up to which it serves, with the stamp of that work; whether the work is an entry of the FIFO; descriptors served -/
  tail : Nat := 0
  stamp : Stamp := 0
  fifo : Bool := false
  served : Nat := 0
  /-- the descriptor in progress, its ranges as translated (bytes and physical address), what has been moved, and its status -/
  desc : Option Descr := none
  a : List (Nat × Nat) := []
  b : List (Nat × Nat) := []
  pos : Nat := 0
  status : Nat := 0
  /-- lines whose Comp is awaited, and whether every beat has been issued -/
  out : List Nat := []
  issued : Bool := false
  /-- a received frame that it writes to a buffer -/
  frame : Option (List Byte) := none
  /-- descriptors ended so far -/
  ended : Nat := 0
deriving DecidableEq, Repr

/-- An entry of an engine's translation cache (R260). -/
structure QeTlb where
  vmid : Nat
  size : Nat
  ipage : Nat
  ppage : Nat
  type : MemType
  r : Bool
  w : Bool
deriving DecidableEq, Repr

/-- A queue engine beside its registers (R363). -/
structure Qe where
  /-- queue, TAIL and stamp, oldest first -/
  fifo : List (Nat × Nat × Stamp) := []
  /-- queues whose bitmap bit is set, ascending -/
  bitmap : List Nat := []
  /-- the queue that the scanner last found, and whether the present pass has found one -/
  scanAt : Nat := 0
  scanHit : Bool := false
  chans : Tab Chan := []
  tlb : List QeTlb := []
  /-- frames received for ETH_RX queues: queue, bytes and the GT of the SFD -/
  rx : List (Nat × List Byte × Word64) := []
deriving DecidableEq, Repr

/-! ### Ports and switch -/

/-- Where a frame from an ETH_TX queue came from: queue, generation and index of its descriptor. -/
structure TxFrom where
  queue : Nat
  gen : Byte
  index : Nat
deriving DecidableEq, Repr

/-- A frame in the switch's buffer, without FCS (R396 to R400): its ingress port if it was received, the phase clock and GT of its SFD,
whether its end has come, its cells, the destinations (port and class; 128 is HOST) that have not begun to receive it, those to which it
is being sent, and where it came from when a queue handed it over. `order` ranks frames that wait for one port; `taken`: the Dinath
receiver may take a copy. -/
structure Frame where
  bytes : List Byte
  inPort : Option Nat
  sfd : Word64
  whole : Bool
  taken : Bool
  order : Nat
  cells : Nat
  dropEligible : Bool
  wait : List (Nat × Nat)
  active : List (Nat × Nat)
  since : Nat
  from_ : Option TxFrom
  /-- the phase clock of its last byte, once it is whole -/
  ended : Nat := 0
deriving DecidableEq, Repr

/-- A port beside its registers. -/
structure Port where
  /-- the frame being received -/
  rx : Option Nat := none
  /-- the frame being sent, its class, its first and its last phase clock, and whether its received FCS has proved bad -/
  tx : Option (Nat × Nat × Nat × Nat × Bool) := none
  /-- the last frame sent, as it left -/
  sent : List Byte := []
  /-- the operational gate list: BASE, CYCLE and LEN (R401, R402) -/
  base : Nat := 0
  cycle : Nat := 1000000
  len : Nat := 1
  /-- the GT at which a swap was asked for -/
  swapAt : Nat := 0
  /-- the GT of the last Sync sent, and of the last peer-delay response with that of its request (R404) -/
  synced : Option Word64 := none
  pdelay : Option (Word64 × Word64) := none
deriving DecidableEq, Repr

/-- What the switch keeps of a stream (R403): the highest sequence number and the history of sequence recovery, and the tokens of its
meter in 1/8,000,000 bytes with the GT of their last filling. -/
structure Stream where
  seq : Option Nat := none
  history : List Bool := []
  green : Nat := 0
  yellow : Nat := 0
  filled : Word64 := 0
  started : Bool := false
deriving DecidableEq, Repr

/-- The ports and the switch. -/
structure Net where
  ports : Tab Port := []
  frames : Tab (Option Frame) := []
  nextFrame : Nat := 0
  streams : Tab Stream := []
  /-- copies at the Dinath receiver: the phase clock at which each is done with (R409) -/
  dinath : List Nat := []
  /-- MGMT frames for Lemam, oldest first: ingress port and bytes (R412) -/
  mgmt : List (Nat × List Byte) := []
  /-- paired frames held at the gate: queue, port, class, bytes and origin (R406, R462) -/
  gated : List (Nat × Nat × Nat × List Byte × TxFrom) := []
deriving DecidableEq, Repr

/-! ### Enclaves and lifecycle -/

/-- The fuses, the debug lock and the enclave page's work (R431, R432, R438, R443, R446). -/
structure Enc where
  /-- fused lifecycle STATE, SECVER and key hash -/
  state : Nat := 0
  secver : Nat := 0
  keyHash : List Byte := []
  debugOpen : Bool := false
  /-- lines that the walks of a commit have still to remove -/
  walk : List Nat := []
  /-- cores whose purge a store waits for: target and writer -/
  purgers : List (Nat × Nat) := []
  /-- a derivation in progress by core: the key's 32 bytes and the EID -/
  deriving_ : Tab (Option (Nat × Nat)) := []
deriving DecidableEq, Repr

/-! ### The redundant pair -/

/-- The pair link and the agreement gate (R451 to R466). -/
structure Pair where
  /-- unmatched items of this side and of the peer, and agreeing pairs that wait for an earlier one of their key -/
  items : List GateItem := []
  peers : List GateItem := []
  agreed : List GateItem := []
  /-- by key (a frame's plus 2^18): the SEQ of the next local item, and of the next release -/
  nextSeq : Tab Nat := []
  nextOut : Tab Nat := []
  /-- the phase clock of the last good group, and consecutive refusals -/
  lastGood : Nat := 0
  refusals : Nat := 0
  /-- no alignment exchange has followed the link's coming up, and consecutive intervals within 20 ns -/
  first : Bool := true
  good : Nat := 0
  /-- what the peer's last good trailer reported: mode, AGREE_WIN, and whether its GT_CTRL.SRC is PAIR -/
  peerMode : Nat := 0
  peerWin : Nat := 0
  peerFollows : Bool := false
deriving DecidableEq, Repr

/-! ### Lemam -/

/-- Where the reply to a command goes: its source, its OPCODE, SEQUENCE and recorded SOURCE, a ring's slot address, NOTIFY, and for an
MGMT frame its port and bytes. `live`: it came as a packet. -/
structure Route where
  src : CmdSource
  opcode : Nat
  seq : Nat
  slot : Nat := 0
  notify : Bool := false
  port : Nat := 0
  frame : List Byte := []
  live : Bool := false
deriving DecidableEq, Repr

/-- A deferred command and the queues and channels it holds (R482). -/
structure Deferred where
  route : Route
  queues : List Nat
  channels : List Nat
  /-- VI_DESTROY: the VI to drop at the end -/
  vi : Option Nat := none
  params : List Byte := []
deriving DecidableEq, Repr

/-- Lemam and its transports (R473 to R484). -/
structure Lemam where
  /-- the source next in turn: rings 0 to 31, then 32 the SPI, 33 the peer, 34 MGMT -/
  turn : Nat := 0
  deferred : List Deferred := []
  /-- local commands whose peer has not answered, and commands of the peer not yet taken -/
  outs : List Route := []
  peerIn : List (List Byte) := []
  /-- commands that are answered later: MODE_SET with the mode to enter, and the gating of core c as 256 + c, or 512 + c for a lost one -/
  waiting : List (Route × Nat) := []
  /-- the management SPI: the command in progress, its packet while not taken, the reply that waits, and REJECT -/
  spiBusy : Bool := false
  spiCmd : Option (List Byte) := none
  spiReply : Option (List Byte) := none
  reject : Bool := false
  /-- MGMT replies sent -/
  mgmtSent : Nat := 0
  /-- the model's own records: STATUS and data of the last reply formed, and what the last management SPI read returned -/
  reply : Nat × List Byte := (0, [])
  spiOut : List Byte := []
deriving DecidableEq, Repr

/-! ### Debug -/

/-- The debug access port (R539): STATUS and DATA of the last access, and the low word of a 64-bit write whose upper word has not
come; and the boundary register of the phase pins with the last sample taken (R538). -/
structure Dbg where
  status : Nat := 0
  data : Word32 := 0
  low : Option (Nat × Word32) := none
  levels : BitVec 512 := 0
  enables : BitVec 512 := 0
  sample : BitVec 512 := 0
deriving DecidableEq, Repr

/-! ### Later effects -/

/-- An effect that follows at a later phase clock. -/
inductive Act where
  /-- a command of the device's own -/
  | cmd (i : Instr)
  /-- a ball takes a new drive, through the output path of R67 -/
  | ball (p : PinId) (d : Drive)
  /-- a level that the ball took of the device's own drive has passed the pin's filter: the level, the GT and phase clock of its edge -/
  | seen (p : PinId) (level : Bool) (gt : Word64) (since : Nat)
  /-- an ENCODER base samples its two pins (R37) -/
  | sample (b : BaseId)
  /-- a capture becomes readable: its value, its edge and the GT of its event (R82) -/
  | capture (n : CapId) (value : Word64) (rise : Bool) (gt : Word64)
  /-- a PINA resolves in its last clock (R123) -/
  | pina (n : PcId) (p : PinId) (act : BitVec 2) (eid : Eid)
  /-- an EVSEND completes (R127): sender, target, input -/
  | evsend (n : PcId) (target : PcId) (input : BitVec 3)
  /-- an access of a phase core to LOCAL, CTRL or ENGINE is performed in its O clock (R100, R110, R111) -/
  | engine (n : PcId) (a : PcAccess)
  /-- the clock in which a phase core's input dropped an event is over (R117) -/
  | shed (n : PcId)
  /-- the last beat of a request has been granted, or it was refused with a hint -/
  | granted (a : ArbId) (tag : Nat)
  | hinted (a : ArbId) (tag : Nat) (gt : Word64)
  /-- an interrupt reaches the controller of its target core: core, view and vector (R185) -/
  | vector (c : CoreId) (v : View) (n : Byte)
  /-- a pending delay set has been applied on a channel (R327) -/
  | dsApplied (mc : McId)
  /-- a phase core's present instruction has completed, and the core halts if it is to -/
  | pcHalt (n : PcId)
  /-- a step of a start (R508) -/
  | boot (k : Nat)
deriving DecidableEq, Repr

/-! ### The state of the device -/

/-- The whole state of the device. -/
structure State where
  /-- commands waiting, first in first out -/
  pending : List Instr
  /-- effects that follow at a later phase clock, with that clock -/
  agenda : List (Nat × Act)
  /-- phase clocks of 1 ns since power-up -/
  clk : Nat
  /-- the model's own counter that makes one free value differ from the next -/
  free : Nat
  /-- the model's own record of what the last read command returned to its requester -/
  lastRead : Word64
  regs : Tab Word64
  /-- memory: DRAM, monitor SRAM and phase-core local memories, by physical address -/
  mem : List Host.Cell
  gt : Gt
  bases : Tab Base
  cmps : Tab Cmp
  /-- the compares that cross in an armed direction: number, JUMPED, and the phase clock of the crossing (R62, R28, R40) -/
  crossed : List (Nat × Bool × Nat)
  pins : Tab Pin
  banks : Tab Bank
  caps : Tab Cap
  sdfs : Tab Sdf
  ctrs : Tab Ctr
  /-- bits locked by LOCK_REGION until the next reset: area and unit (R493) -/
  locks : List (Nat × Nat)
  sheet : Sheet
  cores : Tab Core
  modes : Modes
  spare : Spare
  /-- DRAM and monitor SRAM lines, and local-memory words, that hold poisoned or uncorrectable data -/
  poison : Tab Bool
  pcores : Tab PCore
  arbs : Tab Arb
  /-- what each request tag stands for, and the next tag -/
  work : Tab (Option Work)
  nextTag : Nat
  mcs : Tab Mc
  homes : Tab Home
  ert : List ErtRange
  /-- posts of the router whose Comp has not come: the record's line and the source (R183) -/
  posting : List (Nat × Nat)
  points : Tab Point
  queues : Tab Queue
  qes : Tab Qe
  net : Net
  enc : Enc
  pair : Pair
  lemam : Lemam
  dbg : Dbg
deriving DecidableEq, Repr

/-- The device with PORESET_N asserted at its first power-up: every register reads its Reset column, nothing is in flight. -/
def State.reset : State :=
  { pending := [], agenda := [], clk := 0, free := 0, lastRead := 0, regs := [], mem := [], gt := {}, bases := [], cmps := [],
    crossed := [], pins := [], banks := [], caps := [], sdfs := [], ctrs := [], pcores := [], locks := [], sheet := {}, cores := [],
    modes := {}, spare := {}, poison := [], arbs := [], work := [],
    nextTag := 0, mcs := [], homes := [], ert := [], posting := [], points := [], queues := [], qes := [], net := {},
    enc := {}, pair := {}, lemam := {}, dbg := {} }

/-- Why a command is given no meaning. -/
inductive Refusal where
  /-- raised by `exec` for a command whose meaning is not written yet; safe: the machine stops and nothing is claimed -/
  | notModelled (mnemonic : String)
deriving DecidableEq, Repr

/-- Why the machine stops. No command of this device stops it: every one has a next state. -/
inductive Fault where
  /-- raised by no command; the device has no behaviour that the spec leaves without any effect -/
  | none
deriving DecidableEq, Repr

end Sys2Proof.Machine
end

