-- ==== Sys2Proof/Machine/Ops.lean ====
section
/-!
DEFINITION. Sys2Proof/Machine/Ops.lean: the operations that the units share: registers, later effects, free values, memory
bytes, the contact sheet's intake, the interrupt router, and the mode machine's entry into a mode.
-/
namespace Sys2Proof.Machine

/-! ### Registers -/

/-- The value a register holds (R12, R14). -/
def State.rd (s : State) (a : Nat) : Nat := (tabGet (regReset a) s.regs a).toNat

/-- The state with a register holding a value. -/
def State.wr (s : State) (a v : Nat) : State :=
  { s with regs := tabSet (regReset a) s.regs a (BitVec.ofNat 64 v) }

/-- A field of a register. -/
def State.rf (s : State) (a hi lo : Nat) : Nat := fld (s.rd a) hi lo

/-- A field of a register replaced. -/
def State.wf (s : State) (a hi lo v : Nat) : State := s.wr a (putFld (s.rd a) hi lo v)

/-- One bit of a register. -/
def State.rb (s : State) (a i : Nat) : Bool := (s.rd a).testBit i

/-- One bit of a register replaced. -/
def State.wb (s : State) (a i : Nat) (b : Bool) : State := s.wf a i i (b2n b)

/-- A register that counts and saturates at its width. -/
def State.count (s : State) (a w : Nat) : State := s.wr a (satInc w (s.rd a))

/-- A 64-bit register that counts and wraps. -/
def State.tally (s : State) (a : Nat) (by_ : Nat := 1) : State := s.wr a ((s.rd a + by_) % 2 ^ 64)

/-! ### Time, later effects and free values -/

/-- A later effect put into the agenda behind every effect due no later. -/
def agendaInsert (due : Nat) (a : Act) : List (Nat × Act) → List (Nat × Act)
  | [] => [(due, a)]
  | (d, x) :: t => if due < d then (due, a) :: (d, x) :: t else (d, x) :: agendaInsert due a t

/-- An effect that follows after `ns` phase clocks. -/
def State.after (s : State) (ns : Nat) (a : Act) : State :=
  { s with agenda := agendaInsert (s.clk + ns) a s.agenda }

/-- A command of the device's own that follows after `ns` phase clocks. -/
def State.send (s : State) (ns : Nat) (i : Instr) : State := s.after ns (.cmd i)

/-- A value that the spec leaves open, and the state that will give another value next time (assumption 2). -/
def State.fresh (s : State) : Word64 × State :=
  (Config.freeWord s.free, { s with free := s.free + 1 })

/-- GT in ns. -/
def State.now (s : State) : Nat := s.gt.now.toNat

/-- The stamp of a deadline instant in ns, GT[33:2] (R30). -/
def stampOf (gt : Nat) : Stamp := BitVec.ofNat 32 (gt / 4)

/-- A computed deadline clamped to GT_DLS + 0x7FFF_FFFF (R31). -/
def State.clampStamp (s : State) (deadline : Nat) : Stamp :=
  if deadline / 4 > s.now / 4 + 0x7FFFFFFF then BitVec.ofNat 32 (s.now / 4 + 0x7FFFFFFF) else stampOf deadline

/-! ### Memory bytes -/

/-- Whether an address lies in the boot ROM (R8). -/
def inRom (a : Nat) : Bool := a < 0x40000
/-- Whether an address lies in the monitor SRAM (R8). -/
def inMonSram (a : Nat) : Bool := decide (0x1000000 ≤ a ∧ a < 0x1100000)
/-- Whether an address lies in a phase-core local memory (R8). -/
def inLocal (a : Nat) : Bool := decide (0x10000000 ≤ a ∧ a < 0x11000000)
/-- The first address of DRAM (R8). -/
def dramBase : Nat := 0x80000000

/-- A byte of memory as it stands in DRAM, SRAM or ROM. A byte that nothing has written reads 0, as preflash leaves it
(R129, R330; assumption 4). -/
def State.byte (s : State) (a : Nat) : Byte :=
  if inRom a then Config.romByte a else tabGet 0 s.mem a

/-- The state with one byte of memory written. -/
def State.setByte (s : State) (a : Nat) (v : Byte) : State := { s with mem := tabSet 0 s.mem a v }

/-- `n` bytes of memory from an address upward, as a little-endian number. -/
def State.bytes (s : State) (a : Nat) : Nat → Nat
  | 0 => 0
  | n + 1 => (s.byte a).toNat + 256 * s.bytes (a + 1) n

/-- Bytes written to memory from an address upward. -/
def State.setBytes (s : State) (a : Nat) : List Byte → State
  | [] => s
  | b :: bs => (s.setByte a b).setBytes (a + 1) bs

/-- The canonical form of memory: addresses strictly rising, none listed at 0. -/
def Mem.wf (m : List Host.Cell) : Bool := tabWf (fun _ => (0 : Byte)) m

/-- Whether a line or word is poisoned (R338, R346). -/
def State.poisoned (s : State) (a : Nat) : Bool := tabGet false s.poison a
/-- The mark on a line or word set or cleared. -/
def State.setPoison (s : State) (a : Nat) (p : Bool) : State :=
  { s with poison := tabSet false s.poison a p }

/-! ### Failed accesses -/

/-- Why an access to a register window or to memory is not performed (R10, R11, R160, R189). -/
inductive AccessErr where
  /-- no window holds the address, or DRAM is not installed there (R10) -/
  | noTarget
  /-- a width or an alignment that R11 forbids -/
  | form
  /-- the privilege level may not use the window (R160) -/
  | priv
  /-- an enclave check refuses it -/
  | enclave
  /-- the target answers with an error -/
  | target
  /-- the data are poisoned or uncorrectable -/
  | poison
deriving DecidableEq, Repr

/-! ### Units -/

/-- The physical slot that runs a logical main core (R5). -/
def State.coreSlot (s : State) (n : Nat) : Nat :=
  if tabGet 0 s.spare.main (n / 4) = n % 4 + 1 then 4 else n % 4

/-- The physical slot that runs a logical phase core (R6). -/
def State.pcSlot (s : State) (n : Nat) : Nat :=
  match [0, 1, 2, 3].find? (fun k => tabGet 0 s.spare.phase (n / 64 * 4 + k) = n % 64 + 1) with
  | some k => 64 + k
  | none => n % 64

/-- The UNIT field of a contact-sheet entry (R352). -/
def unitCode (quad group kind index : Nat) : Word32 :=
  BitVec.ofNat 32 (quad + group * 2 ^ 3 + kind * 2 ^ 7 + index * 2 ^ 12)

/-- A unit that lies outside every quadrant, or takes DIE under R352. -/
def dieUnit (kind index : Nat) : Word32 := unitCode 4 0 kind index

def State.unitCore (s : State) (n : Nat) : Word32 := unitCode (n / 24) (n % 24 / 4) 0 (s.coreSlot n)
def unitHs (n : Nat) : Word32 := unitCode (n / 16) 0 1 n
def State.unitPc (s : State) (n : Nat) : Word32 := unitCode (n / 64) 0 2 (s.pcSlot n)
def unitPort (n : Nat) : Word32 := unitCode (n / 32) 0 3 n
def unitSub (mc sub : Nat) : Word32 := unitCode (mc / 2) mc 4 sub
def unitQe (n : Nat) : Word32 := unitCode n 0 5 n
/-- An arbiter lies with the resource it guards (R7). -/
def unitArb (a : Nat) : Word32 :=
  unitCode (if a < 8 then a / 2 else if a < 12 then a - 8 else 4) 0 6 a
def unitPin (n : Nat) : Word32 := unitCode (n / 128) 0 7 n
def unitPoints : Word32 := dieUnit 8 0
def unitSwitch : Word32 := dieUnit 9 0
def unitCmp (n : Nat) : Word32 := unitCode 4 (n / 512) 16 (n % 512)
def unitBank (k : Nat) : Word32 := unitCode (k / 4) 0 21 k
def unitMc (n : Nat) : Word32 := unitCode (n / 2) n 24 0

/-! ### The contact sheet's intake (R355) -/

/-- Classes of R354. -/
inductive SheetClass where
  | dramCe | dramUe | dramPoisonWrite | poisonUse | dramErased | dramRepair | dramTemp | dramInit
  | sramCe | sramUe | dirError | linkRetry | linkFatal | storeError | enclaveDeny | lockedWrite
  | deadlineMiss | coreFatal | spareEngaged | pvtAlarm | modeChange | pairFault | boot
deriving DecidableEq, Repr

/-- The class codes of R354. -/
def SheetClass.code : SheetClass → Byte
  | .dramCe => 0x01 | .dramUe => 0x02 | .dramPoisonWrite => 0x03 | .poisonUse => 0x04
  | .dramErased => 0x05 | .dramRepair => 0x06 | .dramTemp => 0x07 | .dramInit => 0x08
  | .sramCe => 0x10 | .sramUe => 0x11 | .dirError => 0x12 | .linkRetry => 0x13 | .linkFatal => 0x14
  | .storeError => 0x20 | .enclaveDeny => 0x21 | .lockedWrite => 0x22 | .deadlineMiss => 0x23
  | .coreFatal => 0x24 | .spareEngaged => 0x30 | .pvtAlarm => 0x31 | .modeChange => 0x32
  | .pairFault => 0x33 | .boot => 0x34

/-- An event enters the intake of 64, or is lost when it is full; the intake lets one go in each clock (R355). -/
def State.intake (s : State) (e : SheetEvent) : State :=
  if s.sheet.intake.length < 64 then
    { s with sheet := { s.sheet with intake := s.sheet.intake ++ [e] } }.send (s.sheet.intake.length + 1) .contactEvent
  else
    { s with sheet := { s.sheet with lostCount := s.sheet.lostCount + 1, lostPending := true } }

/-- A unit reports an event to the contact sheet. -/
def State.log (s : State) (c : SheetClass) (unit : Word32) (addr : Nat) (synd : Nat := 0)
    (scrub : Bool := false) : State :=
  s.intake { cls := c.code, unit := unit, addr := BitVec.ofNat 64 addr, synd := BitVec.ofNat 32 synd,
             scrub := scrub, gt := s.gt.now }

/-! ### Unit counter banks (R554) -/

/-- An event counted in the bank of four counters at a block: each enabled counter whose SEL names the event counts, and a wrap
sets its OVF bit. -/
def State.bankEvent (s : State) (block event : Nat) (by_ : Nat := 1) : State :=
  let ctrl := block + 0x800
  if s.rb ctrl 0 ∧ ¬ s.rb Reg.GT_PMU_FREEZE 0 then
    [0, 1, 2, 3].foldl (fun s k =>
      if s.rf (block + 0x810 + 4 * k) 7 0 = event then
        let v := s.rd (block + 0x820 + 8 * k) + by_
        let s1 := s.wr (block + 0x820 + 8 * k) (v % 2 ^ 48)
        if v < 2 ^ 48 then s1 else s1.wb ctrl (8 + k) true
      else s) s
  else s

/-- Mesh clocks of 1.6 GHz between two phase clocks, in whole clocks (assumption 129). -/
def meshClocks (t u : Nat) : Nat := u * 8 / 5 - t * 8 / 5

/-- A queue that becomes full is noted in its clock; one that stops being full has its clocks counted as an event of the bank. -/
def State.countFull (s : State) (block event : Nat) (was full : Bool) (since : Option Nat) : State :=
  match since with
  | some t => if was ∧ ¬ full then s.bankEvent block event (meshClocks t s.clk) else s
  | none => s

/-- The clock that such a queue keeps. -/
def fullSince (was full : Bool) (since : Option Nat) (clk : Nat) : Option Nat :=
  if was = full then since else if full then some clk else none

/-! ### Requests to the deadline arbiters (R133, R134) -/

def State.arb (s : State) (a : Nat) : Arb := tabGet {} s.arbs a
def State.setArb (s : State) (a : Nat) (x : Arb) : State := { s with arbs := tabSet {} s.arbs a x }

/-- The stamp of a request with the DEFAULT_SLACK of a port (R134). -/
def State.defaultStamp (s : State) (a port : Nat) : Stamp :=
  s.clampStamp (s.now + 4 * s.rf (Reg.ARB_PORT_CFG a port) 31 8)

/-- A request is presented to an arbiter after `ns`; its tag names the work it stands for. -/
def State.present (s : State) (ns a port : Nat) (stamp : Stamp) (key bytes : Nat) (w : Work) : State :=
  let tag := s.nextTag
  { s with work := tabSet none s.work tag (some w), nextTag := tag + 1 }.send ns
    (.arbRequest (Fin.ofNat 14 a) { port := port, stamp := stamp, key := BitVec.ofNat 46 key, bytes := bytes, tag := tag })

/-- What a tag stands for. -/
def State.workOf (s : State) (tag : Nat) : Option Work := tabGet none s.work tag

/-- The tag stands for nothing any more. -/
def State.dropWork (s : State) (tag : Nat) : State := { s with work := tabErase s.work tag }

/-! ### DRAM as configured (R309 to R311, R334) -/

def State.home (s : State) (h : Nat) : Home := tabGet {} s.homes h
def State.mc (s : State) (n : Nat) : Mc := tabGet {} s.mcs n
def State.putMc (s : State) (n : Nat) (x : Mc) : State := { s with mcs := tabSet {} s.mcs n x }
def State.putHome (s : State) (h : Nat) (x : Home) : State := { s with homes := tabSet {} s.homes h x }
/-- A controller takes a state; its queue of 64 entries may become full, or stop being so (R315). -/
def State.setMc (s : State) (n : Nat) (x : Mc) : State :=
  let was := decide (64 ≤ (s.mc n).queue.length)
  let full := decide (64 ≤ x.queue.length)
  (s.countFull (Reg.MC_CFG n) 6 was full (s.mc n).full).putMc n { x with full := fullSince was full x.full s.clk }

/-- The ranks of each subchannel. -/
def State.ranks (s : State) : Nat := if s.rb (Reg.MC_CFG 0) 4 then 2 else 1

/-- The installed capacity in bytes; 0 until DRAM is configured (R309). -/
def State.capacity (s : State) : Nat :=
  if s.rb (Reg.MC_CFG 0) 6 then
    (match s.rf (Reg.MC_CFG 0) 3 2 with | 0 => 256 | 1 => 384 | _ => 512) * s.ranks * 2 ^ 30
  else 0

/-- An address lies in installed DRAM. -/
def State.inDram (s : State) (a : Nat) : Bool := decide (dramBase ≤ a ∧ a < dramBase + s.capacity)

/-- An address lies in memory that home slices serve: DRAM, the boot ROM or the monitor SRAM (R279). -/
def State.inHomed (s : State) (a : Nat) : Bool := s.inDram a || inRom a || inMonSram a

/-! ### The interrupt router (R182) -/

/-- The mode the device is in (R495). -/
def State.mode (s : State) : Nat := s.rf Reg.PVT_MODE 2 0

/-- Modes of R495. -/
def modeOff : Nat := 0
def modePreflash : Nat := 1
def modeStandby : Nat := 2
def modeRun : Nat := 3
def modePaired : Nat := 4
def modeDegraded : Nat := 5
def modeSafeHold : Nat := 6
def modeService : Nat := 7

/-- The sources that R181 and R421 reserve; they never raise. -/
def sourceReserved (n : Nat) : Bool :=
  decide (2467 ≤ n ∧ n < 2560) || decide (2906 ≤ n ∧ n < 2912) || decide (3008 ≤ n ∧ n < 3072) || decide (4096 ≤ n)

/-- The source that an effect delivers at a phase clock. -/
def deliveryAt (t : Nat) (e : Nat × Act) : Option Nat :=
  match e.2 with
  | .cmd (.interruptDelivery n) => if e.1 = t then some n.val else none
  | _ => none

/-- The delivery of a source put before those of greater number at the same clock, and behind every other effect due no later. -/
def putDelivery (t n : Nat) : List (Nat × Act) → List (Nat × Act)
  | [] => [(t, .cmd (.interruptDelivery (Fin.ofNat 4096 n)))]
  | e :: rest =>
    let first : Bool := match deliveryAt t e with | some m => decide (n < m) | none => decide (t < e.1)
    if first then (t, .cmd (.interruptDelivery (Fin.ofNat 4096 n))) :: e :: rest else e :: putDelivery t n rest

/-- The router delivers up to four sources in a mesh clock, the lowest numbers first; what finds no place is delivered in a later one
(R182). -/
def State.dispatchAt : Nat → State → Nat → Nat → State
  | 0, s, t, n => { s with agenda := putDelivery t n s.agenda }
  | fuel + 1, s, t, n =>
    let same := s.agenda.filterMap (deliveryAt t)
    let last := same.foldl max 0
    if same.contains n then s
    else if same.length < 4 then { s with agenda := putDelivery t n s.agenda }
    else if n < last then
      State.dispatchAt fuel { s with agenda := putDelivery t n (s.agenda.filter fun e => deliveryAt t e != some last) } (t + 1) last
    else State.dispatchAt fuel s (t + 1) n

/-- A source is selected and dispatched, 20 ns from now (R185). -/
def State.dispatch (s : State) (n : Nat) : State := State.dispatchAt s.agenda.length s (s.clk + 20) n

/-- An event of a router source sets PENDING, or merges into an event that is pending already; an enabled source is dispatched
20 ns later (R182, R185). In STANDBY an enabled source that becomes pending wakes the device (R503). -/
def State.source (s : State) (n : Nat) : State :=
  let cfg := Reg.IRT_SRC_CFG n
  if sourceReserved n ∨ s.rb cfg 2 = true then s
  else
    let s1 := s.wb cfg 2 true
    if s1.rb cfg 0 then
      if s1.mode = modeStandby then s1.send 0 (.wake (.interrupt (Fin.ofNat 4096 n)))
      else s1.dispatch n
    else s1

/-- A source event that reaches the router after `ns`. -/
def State.sourceAfter (s : State) (ns n : Nat) : State :=
  if n < 4096 then s.send ns (.interruptSourceEvent (Fin.ofNat 4096 n)) else s

/-- A quadrant is disabled (R500, R527). -/
def State.quadOff (s : State) (q : Nat) : Bool := s.modes.quadsOff.contains q

/-! ### Pins (R72 to R77) -/

/-- The phase pin's MODE: 0 OFF, 1 OUTPUT, 2 INPUT; 3 acts as OFF (R96). -/
def State.pinMode (s : State) (p : Nat) : Nat :=
  let m := s.rf (Reg.PIN_CFG p) 1 0
  if m = 3 then 0 else m

/-- PULL, with 0b11 acting as 0b01 (R96). -/
def State.pinPull (s : State) (p : Nat) : BitVec 2 :=
  let q := s.rf (Reg.PIN_CFG p) 6 5
  if q = 3 then 1 else BitVec.ofNat 2 q

/-- The divisor of the modulator clock that a sigma-delta channel drives at a pin, if one does (R85). -/
def State.clockDivisor (s : State) (p : Nat) : Option Nat :=
  s.regs.findSome? fun e =>
    let n := (e.1 - Reg.SDF_CTRL 0) / 0x40
    if Reg.SDF_CTRL 0 ≤ e.1 ∧ n < 64 ∧ e.1 = Reg.SDF_CTRL n ∧ e.2.toNat.testBit 1 ∧ s.rf (Reg.SDF_PINS n) 24 16 = p then
      some (max 40 (fld e.2.toNat 9 2)) else none

def State.bank (s : State) (k : Nat) : Bank := tabGet {} s.banks k
def State.setBank (s : State) (k : Nat) (x : Bank) : State := { s with banks := tabSet {} s.banks k x }

/-- A bank is held high-impedance: until PIN_BANK_CFG has been written, and while SUPPLY_OK is 0 (R78, R80). That a write after SUPPLY_OK
frees the bank as well as one before it is DEDUCED (assumption 121). -/
def State.bankHeld (s : State) (k : Nat) : Bool := !(s.bank k).written || !s.rb (Reg.PIN_BANK_STATUS k) 0

/-- The device is unpowered or in reset, which holds every pin high-impedance with its weak pull-down (R17, R80, R518). -/
def State.pinsInReset (s : State) : Bool :=
  s.modes.poreset || s.modes.reset || s.mode == modeOff || s.mode == modePreflash

/-- What the pin's state asks of the ball: its driven level or clock, or release with its pull (R72, R85); nothing is driven
while the bank is held (R78), and a pin of a disabled quadrant or of a device in reset is released with its weak pull-down (R500,
R518, R595). -/
def State.pinDrive (s : State) (p : Nat) : Drive :=
  let cfg := s.rd (Reg.PIN_CFG p)
  let strength := BitVec.ofNat 2 (cfg >>> 7)
  if s.quadOff (p / 128) ∨ s.pinsInReset then .released 1
  else if s.pinMode p = 1 ∧ ¬ s.bankHeld (p / 32) then
    match s.clockDivisor p with
    | some d => .clock d
    | none =>
      if s.rb (Reg.PIN_STATUS p) 1 then .level (cfg.testBit 4) strength
      else
        match fld cfg 3 2 with
        | 0 => .level false strength
        | 1 => .level true strength
        | _ => .released (s.pinPull p)
  else .released (s.pinPull p)

/-- What a pin holds beside its registers. -/
def State.pin (s : State) (p : Nat) : Pin := tabGet {} s.pins p
def State.setPin (s : State) (p : Nat) (x : Pin) : State := { s with pins := tabSet {} s.pins p x }

/-- The ball follows the pin's state 8 ns after a phase clock, which lies `late` clocks ahead (R67, R72). -/
def State.ballFollows (s : State) (p : Nat) (late : Nat := 0) : State :=
  s.after (8 + late) (.ball (Fin.ofNat 512 p) (s.pinDrive p))

/-- The level at a pin's ball as its input buffer judges it; none where the spec leaves it undefined: a held bank, a floating pin, a
driven output opposed from outside, a modulator clock (R596). -/
def State.levelAt (s : State) (p : Nat) : Option Bool :=
  let x := s.pin p
  if s.bankHeld (p / 32) then none
  else
    match x.scan.getD x.ball, x.outside with
    | .level h _, none => some h
    | .level h _, some o => if o = h then some h else none
    | .clock _, _ => none
    | .released _, some o => some o
    | .released pull, none => if pull = 1 then some false else if pull = 2 then some true else none

/-- FILT of a pin in ns (R96). -/
def State.filt (s : State) (p : Nat) : Nat := s.rf (Reg.PIN_CFG p) 11 9

/-- The ball takes a drive. An edge at it passes the filter after FILT ns, if the level stays (R61, R72, R96). -/
def State.setBall (s : State) (p : Nat) (d : Drive) : State :=
  let old := s.levelAt p
  let s1 := s.setPin p { s.pin p with ball := d }
  match old, s1.levelAt p with
  | some o, some l =>
    if o = l then s1
    else (s1.setPin p { s1.pin p with levelSince := s.clk }).after (s.filt p) (.seen (Fin.ofNat 512 p) l s.gt.now s.clk)
  | none, some _ => s1.setPin p { s1.pin p with levelSince := s.clk }
  | _, none => s1

/-- The ball is released at the pad (R595). -/
def State.releasePad (s : State) (p : Nat) (pull : BitVec 2) : State :=
  let x := s.pin p
  { s.setPin p { x with ball := .released pull } with
    agenda := s.agenda.filter (fun e => match e.2 with | .ball q _ => q.val != p | _ => true) }

/-- The pins whose MODE is OUTPUT. -/
def State.outputPins (s : State) : List Nat :=
  (s.regs.filterMap fun e =>
    if Reg.PIN_CFG 0 ≤ e.1 ∧ e.1 < Reg.PIN_CFG 512 ∧ (e.1 - Reg.PIN_CFG 0) % 16 = 0 ∧ e.2.toNat % 4 = 1 then
      some ((e.1 - Reg.PIN_CFG 0) / 16) else none)

/-- An action that takes part in R74 reaches a pin in a phase clock, `late` clocks ahead: 0 for an event of the present clock,
1 for a write, which belongs to the clock that follows (assumption 30). -/
def State.pinArrive (s : State) (p : Nat) (a : PinAct) (late : Nat := 0) : State :=
  let x := s.pin p
  (s.setPin p { x with acts := x.acts.filter (fun e => decide (e.1 ≥ s.clk)) ++ [(s.clk + late, a)] }).send late
    (.pinAction (Fin.ofNat 512 p))

/-- Every OUTPUT pin is driven to SAFE, but for one that serves as a driven modulator clock (R73, R77). -/
def State.allPinsSafe (s : State) : State :=
  s.outputPins.foldl (fun s p => if (s.clockDivisor p).isSome then s else s.pinArrive p .safe) s

/-! ### Entering a mode (R495, R504) -/

/-- A mode change is recorded in PVT_MODE, PVT_MODE_GT and a contact-sheet entry (R504); SAFE_N is asserted in OFF, PREFLASH,
SAFE_HOLD and SERVICE (R495), and PAIR_OK is driven high in RUN_PAIRED only. -/
def State.enterMode (s : State) (m cause : Nat) : State :=
  let prev := s.mode
  let s1 := ((s.wf Reg.PVT_MODE 6 4 prev).wf Reg.PVT_MODE 15 8 cause).wf Reg.PVT_MODE 2 0 m
  let s2 := s1.wr Reg.PVT_MODE_GT s.now
  let s3 := { s2 with modes := { s2.modes with
    safeN := m = modeOff ∨ m = modePreflash ∨ m = modeSafeHold ∨ m = modeService
    pairOk := m = modePaired } }
  s3.log .modeChange (dieUnit 23 0) (m + prev * 2 ^ 8 + cause * 2 ^ 16)

end Sys2Proof.Machine
end

