-- ==== Sys2Proof/Machine/Dram.lean ====
section
/-!
DEFINITION. Sys2Proof/Machine/Dram.lean: the memory controllers of chapter 11: where a line lives, the queue and its scheduling,
the decoder of R336, refresh blackouts, temperature and the patrol scrubber. Times are rounded up to phase clocks of 1 ns.
-/
namespace Sys2Proof.Machine

/-! ### Where a line lives (R310, R311) -/

/-- The place of a line in DRAM. -/
structure DramLoc where
  mc : Nat
  sub : Nat
  rank : Nat
  /-- bank group × 4 + bank -/
  bank : Nat
  row : Nat
  /-- the first column of the line's burst, which covers it and the 15 after it -/
  column : Nat
deriving DecidableEq, Repr

/-- The place of the line that holds an address of DRAM. -/
def State.dramLoc (s : State) (a : Nat) : DramLoc :=
  let d := a - dramBase
  let r := s.ranks
  if s.rb (Reg.MC_CFG 0) 5 then
    let q := d / (s.capacity / 4)
    let l := (d - q * (s.capacity / 4)) / 64
    let u := l / 16384
    { mc := 2 * q + (l / 2 % 2) ^^^ (u % 2), sub := l % 2, rank := u % r
      bank := ((fld l 4 2) ^^^ (fld u 3 1)) * 4 + ((fld l 6 5) ^^^ (fld u 5 4)), row := u / r, column := fld l 13 7 * 16 }
  else
    let l := d / 64
    let u := l / 65536
    { mc := (fld l 3 1) ^^^ (fld u 2 0), sub := l % 2, rank := u % r
      bank := ((fld l 6 4) ^^^ (fld u 5 3)) * 4 + ((fld l 8 7) ^^^ (fld u 7 6)), row := u / r, column := fld l 15 9 * 16 }

/-- The lines of one channel. -/
def State.channelLines (s : State) : Nat := s.capacity / 64 / 8

/-- The address of the k-th line of channel n, in ascending order (R348). Each aligned group of 16 lines under GLOBAL, and of 4
under QUADRANT, holds two lines of the channel. -/
def State.channelLine (s : State) (n k : Nat) : Nat :=
  if s.rb (Reg.MC_CFG 0) 5 then
    let l := k / 2 * 4
    let u := l / 16384
    dramBase + (n / 2) * (s.capacity / 4) + (l + 2 * ((n % 2) ^^^ (u % 2)) + k % 2) * 64
  else
    let l := k / 2 * 16
    let u := l / 65536
    dramBase + (l + 2 * (n ^^^ (fld u 2 0)) + k % 2) * 64

/-! ### Reports (R333, R353) -/

/-- A bit of MC_IRQ_STATUS sets, and source 2,830 + n is raised if its enable bit is 1. -/
def State.mcIrq (s : State) (n bit : Nat) : State :=
  let s1 := s.wb (Reg.MC_IRQ_STATUS n) bit true
  if s1.rb (Reg.MC_IRQ_EN n) bit then s1.source (2830 + n) else s1

/-- SYNDROME of a DRAM error. -/
def State.dramSyndrome (s : State) (n : Nat) (e : DramEntry) (device : Nat) : Nat :=
  device + e.rank * 2 ^ 4 + (e.bank / 4) * 2 ^ 5 + (e.bank % 4) * 2 ^ 8 + (e.row % 2 ^ 18) * 2 ^ 10 +
    (s.rf (Reg.MC_STATUS n) 4 3) * 2 ^ 28

/-- An event of DRAM at an entry's line. -/
def State.dramLog (s : State) (n : Nat) (e : DramEntry) (c : SheetClass) (device : Nat) : State :=
  s.log c (unitSub n e.sub) e.addr (s.dramSyndrome n e device) (e.kind == .scrub)

/-! ### The decoder (R336, R338, R361) -/

/-- What the decoder makes of a burst. -/
inductive Decoded where
  | good
  /-- corrected, in this device -/
  | corrected (device : Nat)
  | uncorrectable
  /-- the stored pattern of R338 -/
  | poisoned
  /-- three or more devices, decoded as an error of one -/
  | wrong
deriving DecidableEq, Repr

/-- The burst of an entry's line with the named devices in error. The pattern of R338 is the code word zero with the check devices 8 and
9 in error, so an error in it is decoded upon those two; an erased device counts as one more of which the place is known (R361). Three
devices or more are decoded as two or as one by a free value. -/
def State.decode (s : State) (n : Nat) (e : DramEntry) (bad : List (BitVec 4)) : Decoded × State :=
  let erased := tabGet 0 (s.mc n).erased (e.sub * 2 + e.rank)
  let devices := ((bad.map (·.toNat)).filter fun d => decide (d < 10) && decide (d + 1 ≠ erased)).eraseDups
  if devices.isEmpty then (if s.poisoned e.addr then .poisoned else .good, s)
  else
    let wrong := if s.poisoned e.addr then (devices ++ ([8, 9].filter fun d => decide (d + 1 ≠ erased))).eraseDups else devices
    let k := wrong.length + (if erased ≠ 0 then 1 else 0)
    if k = 1 then (.corrected (wrong.headD 0), s)
    else if k = 2 then (.uncorrectable, s)
    else
      let (v, s1) := s.fresh
      (if v.toNat % 2 = 0 then .uncorrectable else .wrong, s1)

/-- Eight free words in place of a line's data. -/
def State.scramble (s : State) (a : Nat) : State :=
  [0, 1, 2, 3, 4, 5, 6, 7].foldl (fun s k =>
    let (v, s1) := s.fresh
    s1.setBytes (a + 8 * k) (toBytes 8 v.toNat)) s

/-- A line becomes poisoned: its data bytes 0 (R338). -/
def State.poisonLine (s : State) (a : Nat) : State := (s.setBytes a (toBytes 64 0)).setPoison a true

/-- A scrub entry for a line is presented to ARB_MC port 64 (R339, R348). -/
def State.presentScrub (s : State) (n a : Nat) : State := s.present 1 n 64 (s.defaultStamp n 64) a 64 (.scrub a)

/-- A demand read that corrects leaves the line to a scrub entry of its own, unless one waits already (R339). -/
def State.rewrite (s : State) (n : Nat) (e : DramEntry) : State :=
  let waits := s.work.any fun w => w.2 == some (.scrub e.addr)
  if e.kind = .read ∧ ¬ waits then s.presentScrub n e.addr else s

/-- What follows the decoding of the burst that an entry reads (R336, R339, R345, R349). -/
def State.decoded (s : State) (n : Nat) (e : DramEntry) (bad : List (BitVec 4)) : State :=
  match s.decode n e bad with
  | (.good, s1) => s1
  | (.poisoned, s1) => s1
  | (.corrected d, s1) =>
    (s1.dramLog n e .dramCe d).rewrite n e
  | (.wrong, s1) =>
    let (v, s2) := s1.fresh
    ((s2.scramble e.addr).dramLog n e .dramCe (v.toNat % 10)).rewrite n e
  | (.uncorrectable, s1) =>
    match e.kind with
    | .read => (s1.setPoison e.addr true).dramLog n e .dramUe 15
    | .part => (s1.poisonLine e.addr).dramLog n e .dramPoisonWrite 15
    | _ => s1.dramLog n e .dramUe 15

/-! ### The queue (R315 to R319) -/

def State.setQueue (s : State) (n : Nat) (q : List DramEntry) : State :=
  (s.setMc n { s.mc n with queue := q }).wf (Reg.MC_STATUS n) 22 16 q.length

/-- The next command slots of a channel. -/
def State.kickMc (s : State) (n ns : Nat) : State :=
  (s.send ns (.mcCommandIssue (Fin.ofNat 8 n) false [])).send ns (.mcCommandIssue (Fin.ofNat 8 n) true [])

/-- An entry that is still to issue its column command. -/
def DramEntry.waits (e : DramEntry) : Bool := e.hand.isNone

/-- MC_AGE_LIMIT in ns. -/
def State.ageLimit (s : State) (n : Nat) : Nat := 4 * max 1 (s.rf (Reg.MC_AGE_LIMIT n) 15 0)

/-- The next promotion of a channel is due when the first of its waiting entries passes the limit; one already on its way serves. -/
def State.rearmAge (s : State) (n : Nat) : State :=
  let cmd : Act := .cmd (.agePromotion (Fin.ofNat 8 n))
  match (s.mc n).queue.find? fun e => e.waits && decide (e.cls ≠ 0) with
  | some e =>
    let due := e.since + s.ageLimit n + 1
    if s.agenda.any fun x => x.2 == cmd && decide (x.1 ≤ due) then s else s.after (due - s.clk) cmd
  | none => s

/-- A request admitted by ARB_MC enters the queue with its service class (R152, R315). -/
def State.queueEntry (s : State) (n tag addr : Nat) (kind : DramKind) (cls : Nat) : State :=
  let l := s.dramLoc addr
  let e : DramEntry := { tag := tag, addr := addr, sub := l.sub, rank := l.rank, bank := l.bank, row := l.row
                         kind := kind, cls := cls, since := s.clk, hand := none }
  let s1 := s.setQueue n ((s.mc n).queue ++ [e])
  let s2 :=
    match kind with
    | .read => s1.bankEvent (Reg.MC_CFG n) 1
    | .write => s1.bankEvent (Reg.MC_CFG n) 2
    | .part => (s1.bankEvent (Reg.MC_CFG n) 3).count (Reg.MC_RMW_COUNT n) 32
    | .scrub => s1
  let s3 := s2.send 1 (.mcCommandIssue (Fin.ofNat 8 n) (l.sub == 1) [])
  if cls = 0 then s3 else s3.rearmAge n

/-- An earlier entry for the same line that has not been performed (R317). -/
def blockedBy (q : List DramEntry) (e : DramEntry) : Option DramEntry :=
  (q.takeWhile fun x => x.tag != e.tag).find? fun x => x.waits && decide (x.addr = e.addr)

/-- The ranking class: an entry takes the class of one that waits behind it for its line, when that is lower (R316). -/
def rankClass (q : List DramEntry) (e : DramEntry) : Nat :=
  (((q.dropWhile fun x => x.tag != e.tag).filter fun x => decide (x.addr = e.addr)).map (·.cls)).foldl min e.cls

/-- Entries in order of ranking class, oldest first within a class. -/
def byClass (q : List DramEntry) : List DramEntry :=
  [0, 1, 2, 3].flatMap fun k => q.filter fun e => rankClass q e = k

/-- What an entry's next command is. -/
inductive DramCmd where | precharge | activate | column
deriving DecidableEq, Repr

/-- The index of an entry's bank. -/
def DramEntry.key (e : DramEntry) : Nat := e.sub * 64 + e.rank * 32 + e.bank

/-- The next command of an entry: by the row its bank has open. -/
def Mc.nextCmd (m : Mc) (e : DramEntry) : DramCmd :=
  let r := tabGet 0 m.rows e.key
  if r = 0 then .activate else if r = e.row + 1 then .column else .precharge

/-- The time in ns from an entry's next command to its column command: 16.25 for each of tRP and tRCD. -/
def DramCmd.lead : DramCmd → Nat
  | .precharge => 33
  | .activate => 17
  | .column => 0

/-- The command may issue now: the bank is ready, and its column command can come 5.0 ns before the next blackout (R322). -/
def Mc.mayIssue (m : Mc) (clk : Nat) (e : DramEntry) : Bool :=
  decide (tabGet 0 m.ready e.key ≤ clk) &&
    (match m.next with | some b => decide (clk + (m.nextCmd e).lead + 5 ≤ b) | none => true)

/-- The entry whose next command issues in a slot of a subchannel (R316, R317): the first that is not held by its line, whose
command may issue, and that neither closes a row nor opens a bank that an entry ranked ahead needs. -/
def Mc.choose (m : Mc) (clk sub : Nat) : Option DramEntry :=
  let q := m.queue.filter fun e => decide (e.sub = sub)
  let ranked := byClass (q.filter (·.waits))
  ranked.find? fun e =>
    let ahead := ranked.takeWhile fun x => x.tag != e.tag
    (blockedBy q e).isNone && m.mayIssue clk e &&
      (match m.nextCmd e with
       | .column => true
       | .activate => ahead.all fun x => x.key != e.key
       | .precharge => ahead.all fun x => x.key != e.key)

/-- A read that follows a queued write of the whole line takes its data from that write (R317). -/
def Mc.forward (m : Mc) (sub : Nat) : Option DramEntry :=
  m.queue.find? fun e => e.waits && decide (e.sub = sub) && e.kind == .read &&
    (match ((m.queue.takeWhile fun x => x.tag != e.tag).filter fun x => x.waits && decide (x.addr = e.addr)).reverse with
     | x :: _ => x.kind == .write
     | [] => false)

/-- A read will be handed on at its time (R312). -/
def State.readDone (s : State) (n : Nat) (e : DramEntry) (checked : Nat) : State :=
  let hand := max (e.since + 78) checked
  (s.setQueue n ((s.mc n).queue.map fun x => if x.tag = e.tag then { x with hand := some hand } else x)).send (hand - s.clk)
    (.readDataHandoff (Fin.ofNat 8 n))

/-- The bank and rank that a key names. -/
def idleOf (n key : Nat) : Instr :=
  .idleTimer (Fin.ofNat 8 n) (decide (key / 64 % 2 = 1)) (decide (key / 32 % 2 = 1)) (BitVec.ofNat 5 key)

/-- The idle timer of a channel in ns, in DRAM clocks of its data rate (R318). -/
def State.idleNs (s : State) (n : Nat) : Nat :=
  (s.rf (Reg.MC_CTRL n) 9 0 * (match s.rf (Reg.MC_CFG n) 1 0 with | 0 => 417 | 1 => 358 | _ => 313) + 999) / 1000

/-- A changed idle timer holds for the rows that are open. -/
def State.rearmIdle (s : State) (n : Nat) : State :=
  (s.mc n).rows.foldl (fun t e => t.send (max 1 (tabGet 0 (s.mc n).lastCol e.1 + s.idleNs n - s.clk)) (idleOf n e.1)) s

/-- The column command of an entry: a write leaves the queue; the read of a partial write and of a scrub entry is decoded, and its
write follows on the open row, 48 ns of bank time in all; a read's data is checked CL plus the burst later. -/
def State.column (s : State) (n : Nat) (e : DramEntry) (bad : List (BitVec 4)) : State :=
  let m := s.mc n
  let busy := if e.kind = .part ∨ e.kind = .scrub then 48 else 3
  let s1 := s.setMc n { m with ready := tabSet 0 m.ready e.key (s.clk + busy), lastCol := tabSet 0 m.lastCol e.key s.clk }
  let s2 := if e.kind = .write then s1 else s1.decoded n e bad
  let s3 := if e.kind = .read then s2.readDone n e (s.clk + 20)
    else (s2.setQueue n ((s2.mc n).queue.filter fun x => x.tag != e.tag)).dropWork e.tag
  let wanted := (s3.mc n).queue.any fun x => x.waits && decide (x.key = e.key) && decide (x.row = e.row)
  if s.idleNs n = 0 ∧ ¬ wanted then s3.setMc n { s3.mc n with rows := tabSet 0 (s3.mc n).rows e.key 0 }
  else s3.send (max 1 (s.idleNs n)) (idleOf n e.key)

/-- The next command of an entry issues. -/
def State.issue (s : State) (n : Nat) (e : DramEntry) (bad : List (BitVec 4)) : State :=
  let m := s.mc n
  match m.nextCmd e with
  | .precharge => s.setMc n { m with rows := tabSet 0 m.rows e.key 0, ready := tabSet 0 m.ready e.key (s.clk + 17) }
  | .activate =>
    (s.setMc n { m with rows := tabSet 0 m.rows e.key (e.row + 1), ready := tabSet 0 m.ready e.key (s.clk + 17) }).bankEvent
      (Reg.MC_CFG n) 4
  | .column => s.column n e bad

/-- MC_COMMAND_ISSUE: a command slot of a subchannel, in which at most one command issues (R316). `bad` names the devices in error in the burst that a column command reads. -/
def State.commandSlot (s : State) (n sub : Nat) (bad : List (BitVec 4)) : State :=
  let m := s.mc n
  if m.blackout ∨ s.rb (Reg.MC_STATUS n) 1 ∨ s.clk < tabGet 0 m.slot sub then s
  else
    match m.forward sub with
    | some e => s.readDone n e s.clk
    | none =>
      match m.choose s.clk sub with
      | some e =>
        let s1 := s.issue n { e with cls := rankClass m.queue e } bad
        s1.setMc n { s1.mc n with slot := tabSet 0 (s1.mc n).slot sub (s.clk + 1) }
      | none => s

/-- A channel whose queue still has entries to issue takes its next slot. -/
def State.rearmMc (s : State) (n sub : Nat) : State :=
  let m := s.mc n
  if ¬ m.blackout ∧ m.queue.any (fun e => e.waits && decide (e.sub = sub)) then
    s.send 1 (.mcCommandIssue (Fin.ofNat 8 n) (sub == 1) [])
  else s

/-! ### Time-driven commands -/

/-- IDLE_TIMER: a bank whose row no queued entry needs, and whose last column command lies the timer back, is precharged (R318). One
that comes earlier follows again at the timer's end. -/
def execIdleTimer (mc : McId) (sub rank : Bool) (bank : BitVec 5) (s : State) : Host.Outcome State Fault Refusal :=
  let m := s.mc mc.val
  let key := b2n sub * 64 + b2n rank * 32 + bank.toNat
  let row := tabGet 0 m.rows key
  let due := tabGet 0 m.lastCol key + s.idleNs mc.val
  if m.queue.any (fun x => x.waits && decide (x.key = key) && decide (x.row + 1 = row)) then .next s
  else if row = 0 then .next s
  else if s.clk < due then
    .next (if s.agenda.any fun e => e.2 == .cmd (.idleTimer mc sub rank bank) then s
      else s.send (due - s.clk) (.idleTimer mc sub rank bank))
  else .next (s.setMc mc.val { m with rows := tabSet 0 m.rows key 0, ready := tabSet 0 m.ready key (s.clk + 17) })

/-- AGE_PROMOTION: entries that have waited longer than MC_AGE_LIMIT for their column command take class 0, each counted (R316). -/
def execAgePromotion (mc : McId) (s : State) : Host.Outcome State Fault Refusal :=
  let n := mc.val
  let q := (s.mc n).queue
  let old := fun (e : DramEntry) => e.waits && decide (e.cls ≠ 0) && decide (s.clk > e.since + s.ageLimit n)
  let s1 := s.setQueue n (q.map fun e => if old e then { e with cls := 0 } else e)
  .next (((q.filter old).foldl (fun s _ => (s.count (Reg.MC_PROMOTE_COUNT n) 32).bankEvent (Reg.MC_CFG n) 5) s1).rearmAge n)

/-- The interval between blackout starts (R321, R324). -/
def State.refreshInterval (s : State) (n : Nat) : Nat := if s.rb (Reg.MC_STATUS n) 2 then 1950 else 3900

/-- The length of a blackout (R321). -/
def State.blackoutLength (s : State) : Nat := if s.rf (Reg.MC_CFG 0) 3 2 = 0 then 315 else 430

/-- The start of the next blackout, published in GT. -/
def State.publishBlackout (s : State) (n : Nat) (gt : Nat) : State :=
  (s.wr (Reg.MC_BLACKOUT_NEXT n) gt).wr (Reg.ARB_BLACKOUT_NEXT n) gt

/-- Blackouts of a channel begin at once: at configuration, and on exit from self-refresh (R329, R331). -/
def State.startBlackouts (s : State) (n : Nat) : State :=
  ((s.setMc n { s.mc n with next := some s.clk, toSelfRefresh := false }).publishBlackout n s.now).send 0 (.blackoutStart (Fin.ofNat 8 n))

/-- A pending delay set takes effect during a blackout (R327). -/
def State.applyDelaySet (s : State) (n : Nat) : State :=
  let a := Reg.MC_STATUS n
  if s.rb a 5 then
    (((s.wf a 4 3 (s.rf a 7 6)).wb a 5 false).mcIrq n 2).after 0 (.dsApplied (Fin.ofNat 8 n))
  else s

/-- Erasures that wait take effect at a blackout (R361). -/
def State.applyErasures (s : State) (n : Nat) : State :=
  let m := s.mc n
  if m.erasing.isEmpty then s
  else
    let s1 := s.setMc n { m with erased := m.erasing.foldl (fun t e => tabSet 0 t e.1 e.2) m.erased, erasing := [] }
    (m.erasing.foldl (fun s e => s.log .dramErased (unitSub n (e.1 / 2)) 0) s1).send 0 .commandTake

/-- BLACKOUT_START: every row closes, the erasure and delay set that wait take effect, and the next start is fixed (R321, R322); or
self-refresh is entered in its place (R331, R332), with what waits taking effect there (R327, R361; assumption 127). -/
def execBlackoutStart (mc : McId) (s : State) : Host.Outcome State Fault Refusal :=
  let n := mc.val
  let m := s.mc n
  if m.blackout ∨ m.next.isNone ∨ s.rb (Reg.MC_STATUS n) 1 then .next s
  else if m.toSelfRefresh ∧ m.queue.isEmpty then
    let s1 := s.setMc n { m with next := none, rows := [], toSelfRefresh := false }
    let s2 := ((s1.wb (Reg.MC_STATUS n) 1 true).wb (Reg.MC_STATUS n) 0 false).publishBlackout n (2 ^ 64 - 1)
    .next ((s2.applyDelaySet n).applyErasures n)
  else
    let t := s.refreshInterval n
    let s1 := s.setMc n { m with blackout := true, rows := [], next := some (s.clk + t) }
    let s2 := (s1.publishBlackout n (s.now + t)).tally (Reg.MC_BLACKOUT_COUNT n)
    let s3 := s2.bankEvent (Reg.MC_CFG n) 7 (s.blackoutLength * 8 / 5)
    .next ((((s3.applyDelaySet n).applyErasures n).send s.blackoutLength (.blackoutEnd mc)).send t (.blackoutStart mc))

/-- The time in ns to the end of a channel's blackout. -/
def State.blackoutLeft (s : State) (n : Nat) : Nat :=
  match s.agenda.find? fun e => e.2 == .cmd (.blackoutEnd (Fin.ofNat 8 n)) with
  | some e => max 1 (e.1 - s.clk)
  | none => 1

/-- MR4_POLL: the refresh-rate fields of a channel's devices set MC_TEMP, and double or restore the rate on every channel
(R320, R324). A channel that is not in service is not polled (R332; assumption 9); in a blackout the poll waits for its end (R322). -/
def execMr4Poll (mc : McId) (codes : List (BitVec 3)) (s : State) : Host.Outcome State Fault Refusal :=
  let n := mc.val
  let top := (codes.map (·.toNat)).foldl max 0
  let hot := codes.any Config.mr4Hot
  let m := s.mc n
  let s1 := s.setMc n { m with cool := if hot then 0 else min 16 (m.cool + 1)
                               slot := tabSet 0 (tabSet 0 m.slot 0 (s.clk + 24)) 1 (s.clk + 24) }
  let s2 := (s1.wf (Reg.MC_TEMP n) 2 0 top).wb (Reg.MC_TEMP n) 3 hot
  let s3 := if top = 7 then (s2.mcIrq n 1).log .dramTemp (unitMc n) 0 else s2
  let all := [0, 1, 2, 3, 4, 5, 6, 7]
  let two := s3.rb (Reg.MC_STATUS n) 2
  let change := fun (b : Bool) (s : State) => all.foldl (fun s k => (s.wb (Reg.MC_STATUS k) 2 b).mcIrq k 0) s
  if ¬ s.rb (Reg.MC_STATUS n) 0 then .next s
  else if m.blackout then .next (s.send (s.blackoutLeft n) (.mr4Poll mc codes))
  else if hot ∧ ¬ two then .next (change true s3)
  else if two ∧ all.all (fun k => decide ((s3.mc k).cool ≥ 16)) then .next (change false s3)
  else .next s3

/-- SCRUB_VISIT: the patrol scrubber presents the next line of its channel, one entry at a time, and the next visit follows after
the period divided by the lines of one channel (R348). -/
def execScrubVisit (mc : McId) (s : State) : Host.Outcome State Fault Refusal :=
  let n := mc.val
  let m := s.mc n
  if m.scrubHours = 0 ∨ s.channelLines = 0 ∨ ¬ s.rb (Reg.MC_STATUS n) 0 then .next s
  else
    let ns := m.scrubHours * 3600000000000 / s.channelLines
    let s1 := s.send ns (.scrubVisit mc)
    let waits := s.work.any fun w =>
      match w.2 with
      | some (.scrub a) => decide ((s.dramLoc a).mc = n)
      | _ => false
    if waits then .next s1
    else
      let a := s.channelLine n (m.scrubLine % s.channelLines)
      .next ((s1.setMc n { m with scrubLine := (m.scrubLine + 1) % s.channelLines }).presentScrub n a)

end Sys2Proof.Machine
end

