-- ==== Sys2Proof/Machine/Arbiter.lean ====
section
/-!
DEFINITION. Sys2Proof/Machine/Arbiter.lean: the fourteen deadline arbiters of chapter 04. One ARB_GRANT command is one beat slot.
-/
namespace Sys2Proof.Machine

/-- The ports of an arbiter (R133). -/
def arbPorts (a : Nat) : Nat := if a < 8 then 66 else if a < 12 then 33 else if a = 12 then 14 else 3

/-- The beats of a request: 64 bytes each at ARB_IO and ARB_PAIR, one beat elsewhere (R133). -/
def arbBeats (a : Nat) (r : ArbReq) : Nat := if (8 ≤ a ∧ a < 12) ∨ a = 13 then max 1 ((r.bytes + 63) / 64) else 1

/-- The beat time in ps (R133). -/
def beatPs (a : Nat) : Nat := if a = 13 then 5120 else 625

/-- The slack of an entry now: it falls with GT_DLS, and is held at -2^30 (R135, R136). -/
def State.slack (s : State) (e : ArbEntry) : Int :=
  max (-(2 ^ 30 : Int)) (e.slack - ((s.now / 4 : Nat) - e.dls : Int))

/-- The slack of a stamp against GT_DLS: a signed 32-bit difference (R135), held at -2^30. -/
def State.stampSlack (s : State) (st : Stamp) : Int := max (-(2 ^ 30 : Int)) (st - stampOf s.now).toInt

/-- The lines that a request addresses, by number; a line of the point image holds four points. -/
def reqLines (a : Nat) (r : ArbReq) : Nat × Nat :=
  if a = 12 then (r.key.toNat / 4, r.key.toNat / 4) else (r.key.toNat / 64, (r.key.toNat + max 1 r.bytes - 1) / 64)

/-- Two entries of one port that address the same 64-byte line (R138). The messages of ARB_PAIR address none. -/
def sameTarget (a : Nat) (x y : ArbEntry) : Bool :=
  let l := reqLines a x.req
  let m := reqLines a y.req
  decide (a < 13) && decide (x.req.port = y.req.port) && decide (l.1 ≤ m.2) && decide (m.1 ≤ l.2)

/-- The slack with which an entry is ranked: the earliest of its own and of those that wait behind it for its line (R138). -/
def State.rankSlack (s : State) (a : Nat) (tray : List ArbEntry) (e : ArbEntry) : Int :=
  ((tray.filter fun x => decide (e.id < x.id) && sameTarget a e x).map s.slack).foldl min (s.slack e)

/-- `x` ranks before `y`: smaller slack, then the lower port, then the earlier arrival. -/
def State.ranksBefore (s : State) (a : Nat) (tray : List ArbEntry) (x y : ArbEntry) : Bool :=
  let p := s.rankSlack a tray x
  let q := s.rankSlack a tray y
  decide (p < q) || (decide (p = q) && (decide (x.req.port < y.req.port) ||
    (decide (x.req.port = y.req.port) && decide (x.id < y.id))))

/-- The entry that ranks first among some (R135), leaving out those behind an earlier one for their line (R138). -/
def State.rankFirst (s : State) (a : Nat) (tray : List ArbEntry) (among : List ArbEntry) : Option ArbEntry :=
  let free := among.filter fun e => !tray.any fun x => decide (x.id < e.id) && sameTarget a e x
  free.foldl (fun best e =>
    match best with
    | none => some e
    | some b => if s.ranksBefore a tray e b then some e else some b) none

/-! ### The status register (R141, R144, R146) -/

/-- A command of the device's own is on its way. -/
def State.underway (s : State) (p : Instr → Bool) : Bool :=
  s.pending.any p || s.agenda.any fun e => match e.2 with | .cmd i => p i | _ => false

/-- What a granted beat of ARB_IO or ARB_PT brings about: a fetched descriptor, a completion write, or an access to a point. -/
def granting (a : Nat) : Instr → Bool
  | .descriptorFetched e _ _ => e.val + 8 == a
  | .completionWrite q => q.val / 65536 + 8 == a
  | .writeUnique q _ _ | .writePartial q _ _ => a < 12 && q.from_ == .engine (Fin.ofNat 4 (a - 8))
  | .comp to_ _ _ _ _ _ => a < 12 && to_ == .engine (Fin.ofNat 4 (a - 8))
  | .pointAccess .. => a == 12
  | _ => false

/-- A granted beat is still outstanding beyond the arbiter (R146): at ARB_MC, while the controller's queue holds an entry; at ARB_IO,
while the engine awaits a Comp; elsewhere, while what the beat brings about is on its way. -/
def State.beyond (s : State) (a : Nat) : Bool :=
  if a < 8 then !(s.mc a).queue.isEmpty
  else
    s.underway (granting a) || (s.agenda.any fun e => match e.2 with | .granted b _ => b.val == a | _ => false) ||
      (decide (a < 12) && (tabGet {} s.qes (a - 8)).chans.any fun c => !c.2.out.isEmpty)

/-- FREEZE is set, and no beat is in progress (R145). -/
def State.arbFrozen (s : State) (a : Nat) : Bool := s.rb (Reg.ARB_CTRL a) 0 && decide ((s.arb a).slot ≤ s.clk * 1000)

/-- ARB_STATUS and the ports' IN_TRAY follow the tray. -/
def State.arbShow (s : State) (a : Nat) : State :=
  let x := s.arb a
  let st := Reg.ARB_STATUS a
  let frozen := s.arbFrozen a
  let s1 := (s.wf st 22 16 x.tray.length).wb st 1 frozen
  let s2 := (s1.wb st 0 (frozen && !s.beyond a)).wb st 2 (!x.held.isEmpty)
  if x.tray.length = 64 then s2.wb st 3 true else s2

/-- The count of tray entries of a port. -/
def State.portShow (s : State) (a port : Nat) : State :=
  s.wf (Reg.ARB_PORT_STAT a port) 6 0 (((s.arb a).tray.filter fun e => e.req.port = port).length)

/-- The next beat slot, in ps: a slot that began within the clock that has just passed stands where it began, so that slots follow one
another without a gap. At ARB_PAIR the slots are those of the link, and the sixteenth of a group is never granted (R452). -/
def slotFrom (a now slot : Nat) : Nat :=
  let t := if now * 1000 < slot + 1000 then slot else now * 1000
  if a = 13 then
    let k := (t + 5119) / 5120
    5120 * (if k % 16 = 15 then k + 1 else k)
  else t

/-- The phase clocks from now to the next beat slot. -/
def State.slotWait (s : State) (a : Nat) : Nat := (slotFrom a s.clk (s.arb a).slot + 999) / 1000 - s.clk

/-- A beat slot is due. -/
def State.slotDue (s : State) (a : Nat) : Bool := s.slotWait a == 0

/-- The next beat slot is put into the agenda, if it is not there already. -/
def State.arbArm (s : State) (a ns : Nat) : State :=
  let x := s.arb a
  if x.armed ∨ x.tray.isEmpty then s
  else (s.setArb a { x with armed := true }).send (max ns (s.slotWait a)) (.arbGrant (Fin.ofNat 14 a))

/-! ### Requests (R137, R141 to R144) -/

/-- A request enters the tray. -/
def State.accept (s : State) (a : Nat) (e : ArbEntry) : State :=
  let x := s.arb a
  let s1 := s.setArb a { x with tray := x.tray ++ [e] }
  ((s1.portShow a e.req.port).bankEvent (Reg.ARB_CTRL a) 6).arbArm a 2

/-- Only ARB_IO ports 0 to 31 have a HINT mode (R143). -/
def hasHints (a port : Nat) : Bool := decide (8 ≤ a ∧ a < 12 ∧ port < 32)

/-- HINT mode of a port. -/
def State.hintMode (s : State) (a port : Nat) : Bool := hasHints a port && s.rb (Reg.ARB_PORT_CFG a port) 0

/-- An entry would preempt the grant in progress (R140). -/
def State.preempts (s : State) (a : Nat) (e g : ArbEntry) : Bool :=
  decide (s.slack e + (s.rd (Reg.ARB_PREEMPT_MARGIN a) : Int) < s.slack g)

/-- Beats still to be granted to the entries that rank ahead of a request once it has joined them (R142). -/
def State.beatsAhead (s : State) (a : Nat) (e : ArbEntry) : Nat :=
  let t := (s.arb a).tray
  ((t.filter fun x => s.ranksBefore a (t ++ [e]) x e).map fun x => arbBeats a x.req - x.done).foldl (· + ·) 0

/-- The request would be granted in clock k + 2 (R142): what ranks ahead of it, or holds a grant that it would not preempt, has its last
beat before, and none of it came in this clock. -/
def State.grantedNext (s : State) (a : Nat) (e : ArbEntry) : Bool :=
  let x := s.arb a
  let ahead := x.tray.filter fun y =>
    !s.ranksBefore a (x.tray ++ [e]) e y || (x.granted == some y.id && !s.preempts a e y)
  let beats := (ahead.map fun y => arbBeats a y.req - y.done).foldl (· + ·) 0
  !s.rb (Reg.ARB_CTRL a) 0 && (ahead.all fun y => decide (y.since < s.clk)) &&
    decide (max x.slot (s.clk * 1000) + beats * beatPs a ≤ s.clk * 1000 + 2 * beatPs a)

/-- ARB_REQUEST: the request is accepted, refused with a hint, or held by back-pressure. -/
def execArbRequest (a : ArbId) (r : ArbReq) (s : State) : Host.Outcome State Fault Refusal :=
  let n := a.val
  let x := s.arb n
  let e : ArbEntry := { id := x.nextId, req := r, slack := s.stampSlack r.stamp, dls := s.now / 4, done := 0
                        since := s.clk, fresh := true }
  if r.port ≥ arbPorts n then .next (s.dropWork r.tag)
  else if x.tray.length ≥ 64 then
    .next ((s.setArb n { x with held := x.held ++ [e], nextId := x.nextId + 1, bpSince := some (x.bpSince.getD s.clk) }).arbShow n)
  else if s.hintMode n r.port ∧ ¬ s.grantedNext n e then
    let gt := s.now + (s.beatsAhead n e * beatPs n + 999) / 1000
    .next ((s.after 0 (.hinted a r.tag (BitVec.ofNat 64 gt))).bankEvent (Reg.ARB_CTRL n) 5)
  else .next (((s.setArb n { x with nextId := x.nextId + 1 }).accept n e).arbShow n)

/-! ### Grants (R139, R140, R145, R148, R151, R152) -/

/-- A miss is counted, reported and logged (R148). -/
def State.arbMiss (s : State) (a : Nat) (r : ArbReq) (late : Nat) : State :=
  let p := Reg.ARB_PORT_STAT a r.port
  let s1 := (s.count (Reg.ARB_MISS_COUNT a) 32).wf p 31 16 (satInc 16 (s.rf p 31 16))
  let s2 := (s1.wb p 7 true).wr (Reg.ARB_MAX_LATE a) (max (s1.rd (Reg.ARB_MAX_LATE a)) late)
  let s3 := if s2.rb (Reg.ARB_CTRL a) 2 then s2.source (2816 + a) else s2
  let s4 := if s3.rb (Reg.ARB_CTRL a) 1 then s3.log .deadlineMiss (unitArb a) (if a = 13 then 0 else r.key.toNat) late else s3
  s4.bankEvent (Reg.ARB_CTRL a) 3

/-- The service class of a slack at admission (R152). -/
def State.serviceClass (s : State) (a : Nat) (slack : Int) : Nat :=
  let t0 := s.rf (Reg.ARB_CLASS_T01 a) 15 0
  let t1 := max t0 (s.rf (Reg.ARB_CLASS_T01 a) 31 16)
  let t2 := max t1 (s.rf (Reg.ARB_CLASS_T2 a) 15 0)
  if slack < t0 then 0 else if slack < t1 then 1 else if slack < t2 then 2 else 3

/-- ARB_MC admits only outside a blackout, with the controller ready and an entry free (R151, R315). -/
def State.mayAdmit (s : State) (a : Nat) : Bool :=
  !decide (a < 8) || (!(s.mc a).blackout && decide ((s.mc a).queue.length < 64) && s.rb (Reg.MC_STATUS a) 0)

/-- Mesh clocks of back-pressure that ARB_BP_CYCLES does not hold yet. -/
def State.bpRunning (s : State) (a : Nat) : Nat := match (s.arb a).bpSince with | some t => meshClocks t s.clk | none => 0

/-- Back-pressure ends: its mesh clocks are counted (R157). -/
def State.bpEnds (s : State) (a : Nat) : State :=
  match (s.arb a).bpSince with
  | some _ =>
    ((s.setArb a { s.arb a with bpSince := none }).tally (Reg.ARB_BP_CYCLES a) (s.bpRunning a)).bankEvent (Reg.ARB_CTRL a) 4
      (s.bpRunning a)
  | none => s

/-- The held request that is accepted next: each port presents the one that it has held longest; of these the smallest slack, then the
lower port (R144). -/
def State.heldFirst (s : State) (held : List ArbEntry) : Option ArbEntry :=
  (held.filter fun e => !held.any fun x => decide (x.req.port = e.req.port) && decide (x.id < e.id)).foldl (fun best e =>
    match best with
    | none => some e
    | some b => if s.slack e < s.slack b ∨ (s.slack e = s.slack b ∧ e.req.port < b.req.port) then some e else some b) none

/-- A held request is accepted as an entry frees. -/
def State.acceptHeld (s : State) (a : Nat) : State :=
  let x := s.arb a
  if x.tray.length < 64 then
    match s.heldFirst x.held with
    | some e =>
      let held := x.held.filter fun y => y.id != e.id
      let s1 := s.setArb a { x with held := held }
      (if held.isEmpty then s1.bpEnds a else s1).accept a e
    | none => s
  else s

/-- The entry takes a beat; after the last one it leaves the tray, a miss is counted, and its work follows. -/
def State.takeBeat (s : State) (a : Nat) (e : ArbEntry) : State :=
  let x := s.arb a
  let s0 := (s.tally (Reg.ARB_GRANT_COUNT a)).bankEvent (Reg.ARB_CTRL a) 1
  if e.done + 1 < arbBeats a e.req then
    s0.setArb a { x with granted := some e.id, tray := x.tray.map fun y => if y.id = e.id then { y with done := y.done + 1 } else y }
  else
    let slack := s.slack e
    let s1 := s0.setArb a { x with granted := none, tray := x.tray.filter fun y => y.id != e.id }
    let s2 := if slack < 0 then s1.arbMiss a e.req (-slack).toNat else s1
    let s3 :=
      if a < 8 then
        let cls := s.serviceClass a slack
        match s2.workOf e.req.tag with
        | some (.fill l) => s2.queueEntry a e.req.tag l .read cls
        | some (.store l part _) => s2.queueEntry a e.req.tag l (if part then .part else .write) cls
        | some (.scrub l) => s2.queueEntry a e.req.tag l .scrub cls
        | _ => s2.queueEntry a e.req.tag e.req.key.toNat .part cls
      else s2
    ((s3.portShow a e.req.port).acceptHeld a).after 0 (.granted (Fin.ofNat 14 a) e.req.tag)

/-- The entries that are ranked: those presented two mesh clocks ago or longer (R137). -/
def State.ranked (s : State) (a : Nat) : List ArbEntry := (s.arb a).tray.filter fun e => decide (e.since + 2 ≤ s.clk)

/-- An entry that preempts a grant: a newly ranked one, or the earlier one for its line to which such a one lends its slack (R138,
R140). -/
def State.overtakes (s : State) (a : Nat) (tray : List ArbEntry) (g e : ArbEntry) : Bool :=
  (e.fresh && s.preempts a e g) || tray.any fun x => decide (e.id < x.id) && sameTarget a e x && x.fresh && s.preempts a x g

/-- The entry that takes the next beat: one that preempts, the grant in progress, or the one that ranks first. -/
def State.nextBeat (s : State) (a : Nat) : Option ArbEntry :=
  let x := s.arb a
  let tray := s.ranked a
  match x.granted.bind fun g => tray.find? fun y => y.id = g with
  | some g => some ((s.rankFirst a tray (tray.filter (s.overtakes a tray g))).getD g)
  | none => s.rankFirst a tray tray

/-- ARB_GRANT: one beat slot. -/
def execArbGrant (a : ArbId) (s : State) : Host.Outcome State Fault Refusal :=
  let n := a.val
  let x := s.arb n
  let s0 := s.setArb n { x with armed := false }
  if s.rb (Reg.ARB_CTRL n) 0 then .next (s0.arbShow n)
  else if ¬ s.mayAdmit n then .next s0
  else if ¬ s.slotDue n then .next (s0.arbArm n 1)
  else
    match s.nextBeat n with
    | none => .next (s0.arbArm n 1)
    | some e =>
      let preempted := decide (x.granted.isSome ∧ x.granted ≠ some e.id)
      let s1 := if preempted then (s0.count (Reg.ARB_PREEMPT_COUNT n) 32).bankEvent (Reg.ARB_CTRL n) 2 else s0
      let y := s1.arb n
      let seen := fun (z : ArbEntry) => if z.since + 2 ≤ s.clk then { z with fresh := false } else z
      let s2 := s1.setArb n { y with slot := slotFrom n s.clk x.slot + beatPs n, tray := y.tray.map seen }
      let s3 := s2.takeBeat n e
      .next ((s3.arbArm n 0).arbShow n)

/-! ### Freezing and clearing (R145, R156) -/

/-- A write of ARB_CTRL: FREEZE keeps the rest of a grant in the tray as though preempted, and FROZEN follows when the beat in progress
has completed; grants resume in rank order. MISS_CLR clears the miss counters. -/
def State.writeArbCtrl (s : State) (a v : Nat) : State :=
  let s0 := s.wf (Reg.ARB_CTRL a) 2 0 v
  let s1 :=
    if v.testBit 0 then
      let s1 := s0.setArb a { s.arb a with granted := none }
      let x := s1.arb a
      if s1.arbFrozen a ∨ x.armed ∨ ¬ x.tray.isEmpty then s1
      else (s1.setArb a { x with armed := true }).send (s1.slotWait a) (.arbGrant (Fin.ofNat 14 a))
    else s0
  let s2 :=
    if v.testBit 3 then
      (List.range (arbPorts a)).foldl (fun s p => s.wf (Reg.ARB_PORT_STAT a p) 31 16 0)
        ((s1.wr (Reg.ARB_MISS_COUNT a) 0).wr (Reg.ARB_MAX_LATE a) 0)
    else s1
  (s2.arbShow a).arbArm a 1

/-- ARB_FREEZE. -/
def execArbFreeze (a : ArbId) (_who : Requester) (value : Word32) (s : State) : Host.Outcome State Fault Refusal :=
  .next (s.writeArbCtrl a.val (putFld (s.rd (Reg.ARB_CTRL a.val)) 0 0 (fld value.toNat 0 0)))

/-- MISS_CLR. -/
def execMissClr (a : ArbId) (_who : Requester) (value : Word32) (s : State) : Host.Outcome State Fault Refusal :=
  .next (s.writeArbCtrl a.val (putFld (s.rd (Reg.ARB_CTRL a.val)) 3 3 (fld value.toNat 3 3)))

/-- The tray empties and nothing is held any more: the work of its requests is discarded (R455). -/
def State.arbClear (s : State) (a : Nat) : State :=
  let x := s.arb a
  let s1 := (x.tray ++ x.held).foldl (fun s e => s.dropWork e.req.tag) (s.bpEnds a)
  let s2 := s1.setArb a { s1.arb a with tray := [], held := [], granted := none }
  ((List.range (arbPorts a)).foldl (fun s p => s.portShow a p) s2).arbShow a

/-- Every waiting request's slack falls with the step of a TIME_STEP, held at -2^30: it falls with GT (R136). What waits is ranked
anew; a blackout's published start moves forward by the step (R321). -/
def State.arbStepped (s : State) (step : Nat) : State :=
  [0, 1, 2, 3, 4, 5, 6, 7].foldl (fun s n =>
    if (s.mc n).next.isSome then s.publishBlackout n (s.rd (Reg.MC_BLACKOUT_NEXT n) + step) else s) s

/-- A reset of the arbiters: every tray empties (R147). Registers are cleared with the rest. -/
def State.arbReset (s : State) : State := { s with arbs := [], work := [] }

/-! ### Commands of the controllers that let the arbiters go on -/

/-- MC_COMMAND_ISSUE: a command slot of a subchannel; an entry that leaves the queue makes room for an admission (R315, R316). -/
def execMcCommandIssue (mc : McId) (sub : Bool) (bad : List (BitVec 4)) (s : State) : Host.Outcome State Fault Refusal :=
  let n := mc.val
  let s1 := s.commandSlot n (b2n sub) bad
  let s2 := if (s1.mc n).queue.length < (s.mc n).queue.length then (s1.arbArm n 1).arbShow n else s1
  .next (s2.rearmMc n (b2n sub))

/-- BLACKOUT_END: admission resumes, and entries that waited begin (R323). -/
def execBlackoutEnd (mc : McId) (s : State) : Host.Outcome State Fault Refusal :=
  let n := mc.val
  let m := s.mc n
  if m.blackout then .next (((s.setMc n { m with blackout := false }).arbArm n 0).kickMc n 0) else .next s

end Sys2Proof.Machine
end

