-- ==== Sys2Proof/Machine/Coherence.lean ====
section
/-!
DEFINITION. Sys2Proof/Machine/Coherence.lean: the home slices and the caching agents of chapter 10. Memory is kept as its readers see
it (R261, R263): a store or a write changes it at its point of visibility. Caches and the LLC hold copies beside it.
-/
namespace Sys2Proof.Machine

/-! ### Lines and homes -/

/-- The address of the line that holds an address. -/
def lineOf (a : Nat) : Nat := a / 64 * 64

/-- XOR of the six-bit fields of a line address (R279). -/
def hash6 (l : Nat) : Nat :=
  (fld l 5 0) ^^^ (fld l 11 6) ^^^ (fld l 17 12) ^^^ (fld l 23 18) ^^^ (fld l 29 24) ^^^ (fld l 35 30) ^^^ (fld l 39 36)

/-- XOR of the four-bit fields of a line address (R279). -/
def hash4 (l : Nat) : Nat :=
  [0, 1, 2, 3, 4, 5, 6, 7, 8, 9].foldl (fun x k => x ^^^ (fld l (4 * k + 3) (4 * k))) 0

/-- QUADRANT interleave is in force. -/
def State.quadrantMode (s : State) : Bool := s.rb (Reg.HS_CFG 0) 0

/-- The home slice of a line (R279). -/
def State.homeOf (s : State) (a : Nat) : Nat :=
  let l := a / 64
  if s.quadrantMode ∧ s.inDram a then 16 * ((a - dramBase) / (s.capacity / 4)) + hash4 l else hash6 l

/-- The set of a line in the LLC and the directory (R283, R285). -/
def State.setOf (s : State) (line : Nat) : Nat := if s.quadrantMode then fld line 13 4 else fld line 15 6

/-- A line's 64 bytes as its readers see them. -/
def State.lineData (s : State) (a : Nat) : Line := BitVec.ofNat 512 (s.bytes (lineOf a) 64)

/-- The bytes of a line that a mask names are written. -/
def State.writeMasked (s : State) (a : Nat) (mask : Word64) (data : Line) : State :=
  (List.range 64).foldl (fun s k =>
    if mask.toNat.testBit k then s.setByte (lineOf a + k) (BitVec.ofNat 8 (data.toNat >>> (8 * k))) else s) s

/-- A line with the bytes that a mask names replaced. -/
def mergeLine (old new : Line) (mask : Word64) : Line :=
  BitVec.ofNat 512 (ofBytes ((List.range 64).map fun k =>
    BitVec.ofNat 8 ((if mask.toNat.testBit k then new.toNat else old.toNat) >>> (8 * k))))

/-- Message delays, unloaded (R313; assumption 34). -/
def reqNs : Nat := 14
def rspNs : Nat := 13

/-- From a home slice to the port of ARB_MC: with the two clocks of R137, 3.0 ns to admission (R313). -/
def homeNs : Nat := 1

def paddr (a : Nat) : PAddr := BitVec.ofNat 46 a

/-! ### Enclave ranges (R428) -/

/-- A request of an enclave for an address is permitted by the checkers' table. -/
def State.ertPermits (s : State) (eid a : Nat) (write : Bool) : Bool :=
  match s.ert.find? fun r => decide (r.base ≤ a / 4096 * 4096 ∧ a / 4096 * 4096 ≤ r.last) with
  | none => true
  | some r => decide (r.eid = eid) && (!write ||
      (s.ert.filter fun r => decide (r.base ≤ a / 4096 * 4096 ∧ a / 4096 * 4096 ≤ r.last)).any (·.w))

/-! ### Reservations (R270, R271) -/

def State.core (s : State) (n : Nat) : Core := tabGet {} s.cores n
def State.setCore (s : State) (n : Nat) (x : Core) : State := { s with cores := tabSet {} s.cores n x }

/-- A write to a line by another agent takes a reservation of its granule away. -/
def Core.written (c : Core) (line : Nat) : Core :=
  match c.reserved with
  | some r =>
    if r.line / 128 = line / 128 ∧ (r.line = line ∨ r.companion) then { c with reserved := none } else c
  | none => c

/-- A write to a line becomes visible: every core but its writer loses a reservation of the granule. -/
def State.losesReservation (s : State) (line : Nat) (writer : Option Nat) : State :=
  { s with cores := s.cores.map fun e => if writer = some e.1 then e else (e.1, e.2.written (lineOf line)) }

/-! ### A core's lines -/

/-- The state of a line in a core's caches; none is I. -/
def Core.line (c : Core) (a : Nat) : Option CLine := tabFind c.lines (lineOf a)
def Core.setLine (c : Core) (a : Nat) (x : Option CLine) : Core :=
  match x with
  | some l => { c with lines := tabInsert (lineOf a) l (tabErase c.lines (lineOf a)) }
  | none => { c with lines := tabErase c.lines (lineOf a) }
def State.setLine (s : State) (n a : Nat) (x : Option CLine) : State := s.setCore n ((s.core n).setLine a x)

/-- The cache holds valid data of the line. -/
def LineSt.valid : LineSt → Bool
  | .m | .o | .e | .s | .smAD | .omAD | .miA | .oiA | .imA => true
  | _ => false

/-- The line is in M, O, E or S (R298). -/
def LineSt.stable : LineSt → Bool
  | .m | .o | .e | .s => true
  | _ => false

/-- The cache holds the line unique: M or E. -/
def LineSt.unique : LineSt → Bool
  | .m | .e => true
  | _ => false

/-- The drain of a core's store buffer goes on. -/
def State.kickDrain (s : State) (n ns : Nat) : State :=
  if (s.core n).stores.isEmpty then s else s.send ns (.storeDrain (Fin.ofNat 96 n))

/-! ### Home state -/

/-- The home's registers follow its state (R305, R306). -/
def State.setHome (s : State) (h : Nat) (x : Home) : State :=
  let was := decide (192 ≤ (s.home h).queue.length)
  let full := decide (192 ≤ x.queue.length)
  let s1 := (s.countFull (Reg.HS_CFG h) 6 was full (s.home h).full).putHome h { x with full := fullSince was full x.full s.clk }
  ((s1.wf (Reg.HS_STATUS h) 7 0 (min 192 x.queue.length)).wf (Reg.HS_STATUS h) 15 8 x.txns.length).wr (Reg.HS_DIR_USED h) x.dir.length

def Home.entry (x : Home) (line : Nat) : Option DirEntry := tabGet none x.dir (line / 64)
def Home.setEntry (x : Home) (line : Nat) (e : Option DirEntry) : Home :=
  { x with dir := tabSet none x.dir (line / 64) (e.map fun d => { d with used := x.count }), count := x.count + 1 }
def Home.cached (x : Home) (line : Nat) : Option LlcLine := tabGet none x.llc (line / 64)
def Home.setCached (x : Home) (line : Nat) (l : Option LlcLine) : Home :=
  { x with llc := tabSet none x.llc (line / 64) (l.map fun d => { d with used := x.count }), count := x.count + 1 }
def Home.txn (x : Home) (line : Nat) : Option Txn := x.txns.find? fun t => t.line = line
def Home.busy (x : Home) (line : Nat) : Bool := (x.txn line).isSome
def Home.openTxn (x : Home) (t : Txn) : Home := { x with txns := x.txns ++ [t] }
def Home.closeTxn (x : Home) (line : Nat) : Home := { x with txns := x.txns.filter fun t => t.line != line }
def Home.editTxn (x : Home) (line : Nat) (f : Txn → Txn) : Home :=
  { x with txns := x.txns.map fun t => if t.line = line then f t else t }

/-- A bit of HS_IRQ_STATUS sets, and source 2,838 + h is raised if its enable bit is 1 (R304). -/
def State.hsIrq (s : State) (h bit : Nat) : State :=
  let s1 := s.wb (Reg.HS_IRQ_STATUS h) bit true
  if s1.rb (Reg.HS_IRQ_EN h) bit then s1.source (2838 + h) else s1

/-- The main cores that a directory entry names. -/
def DirEntry.holders (e : DirEntry) : List Nat :=
  (List.range 96).filter fun c => e.owner = some c || e.sharers.getLsbD c
def DirEntry.sharing (e : DirEntry) : List Nat := (List.range 96).filter fun c => e.sharers.getLsbD c

def coreId (n : Nat) : CoreId := Fin.ofNat 96 n

/-- The logical core of an agent. -/
def agentCore : CohAgent → Option Nat
  | .core c => some c.val
  | _ => none

/-! ### The LLC (R283, R284) -/

/-- A dirty line leaves the LLC for DRAM. While the home's copy is the current one, memory takes its bytes. -/
def State.evict (s : State) (h line : Nat) (l : LlcLine) (stamp : Stamp) : State :=
  let s1 := s.setHome h ((s.home h).setCached line none)
  if l.dirty then
    let owned := match (s.home h).entry line with | some e => e.owner.isSome | none => false
    let s2 := if owned then s1 else (s1.setBytes line (toBytes 64 l.data.toNat)).setPoison line l.poison
    if s.inDram line then s2.present homeNs (s.dramLoc line).mc h stamp line 64 (.store line false false) else s2
  else s1

/-- A dirty line that no way of the LLC takes goes to DRAM: memory holds its bytes already (DESIGN CHOICE, assumption 126). -/
def State.passBy (s : State) (h line : Nat) (dirty poison : Bool) (stamp : Stamp) : State :=
  if dirty ∧ s.inDram line then (s.setPoison line poison).present homeNs (s.dramLoc line).mc h stamp line 64 (.store line false false) else s

/-- A line is put into the LLC; of a full set of 16 ways the least recently used line without an open transaction leaves, and while every
way holds a line of an open transaction none is taken (R283). -/
def State.allocate (s : State) (h line : Nat) (data : Line) (dirty poison : Bool) (stamp : Stamp) : State :=
  let x := s.home h
  let set := x.llc.filter fun e => decide (e.1 ≠ line / 64) && decide (s.setOf (64 * e.1) = s.setOf line)
  let victims := set.filter fun e => !x.busy (64 * e.1)
  let oldest := victims.foldl (fun b e =>
    match b, e.2 with
    | some (k, l), some l' => if l'.used < l.used then some (e.1, l') else some (k, l)
    | none, some l' => some (e.1, l')
    | b, none => b) (none : Option (Nat × LlcLine))
  let put := fun (s : State) => s.setHome h ((s.home h).setCached line (some { data := data, dirty := dirty, poison := poison, used := 0 }))
  if set.length < 16 then put s
  else match oldest with
    | some (k, l) => put (s.evict h (64 * k) l stamp)
    | none => s.passBy h line dirty poison stamp

/-- The home uses the LLC's copy of a line: the least recently used of a set is another (R283). -/
def State.touch (s : State) (h line : Nat) : State :=
  match (s.home h).cached line with
  | some l => s.setHome h ((s.home h).setCached line (some l))
  | none => s

/-- The line as the home supplies it: the LLC's copy, else memory (R296). -/
def State.homeData (s : State) (h line : Nat) : Line × Bool :=
  match (s.home h).cached line with
  | some l => (l.data, l.poison)
  | none => (s.lineData line, s.poisoned line)

/-! ### Requests -/

/-- The request fields of a command of class REQ. -/
def reqOf : Instr → Option CohReq
  | .readShared q | .readUnique q | .upgrade q | .readOnce q | .writeUnique q _ _ | .writePartial q _ _ | .writePartialPost q _ => some q
  | _ => none

/-- A request is write-type (R428). -/
def reqWrites : Instr → Bool
  | .readShared _ | .readOnce _ => false
  | _ => true

/-- The line of a request, a WriteBack included. -/
def reqLine : Instr → Nat
  | .writeBack _ l => lineOf l.toNat
  | i => match reqOf i with | some q => lineOf q.line.toNat | none => 0

def reqStamp (i : Instr) : Stamp := match reqOf i with | some q => q.stamp | none => 0

/-- Whether a reply to a request goes as the answer to a write (R290). -/
def repliesWrite : Instr → Bool
  | .writeUnique .. | .writePartial .. | .writePartialPost .. => true
  | _ => false

/-- Comp from the home to a requester. -/
def State.sendComp (s : State) (i : Instr) (q : CohReq) (st : CohStatus) (acks : Nat := 0) (prior : Word64 := 0) : State :=
  s.send rspNs (.comp q.from_ q.line st (BitVec.ofNat 7 acks) (repliesWrite i) prior)

/-- Invalidates to some cores, with the InvAcks going to an agent. -/
def State.invalidateAll (s : State) (cores : List Nat) (line : Nat) (dst : CohAgent) : State :=
  cores.foldl (fun s c => s.send rspNs (.invalidate (coreId c) (paddr line) dst)) s

/-- The home closes the transaction of a line. -/
def State.closeHome (s : State) (h line : Nat) : State := s.setHome h ((s.home h).closeTxn line)

/-- The transaction waits for something else. -/
def State.waitFor (s : State) (h line : Nat) (w : TxnWait) (left : Nat := 0) : State :=
  s.setHome h ((s.home h).editTxn line fun t => { t with wait := w, left := left })

/-- The line is granted to a core exclusively, with `acks` InvAcks to come to it, and the transaction waits for its Comp. -/
def State.grant (s : State) (h : Nat) (q : CohReq) (c acks : Nat) : State :=
  let line := lineOf q.line.toNat
  let (data, poison) := s.homeData h line
  let s1 := s.setHome h ((s.home h).setEntry line (some { owner := some c, excl := true, sharers := 0, used := 0 }))
  (s1.waitFor h line .comp).send rspNs (.dataUnique q.from_ q.line data poison (BitVec.ofNat 7 acks))

/-- The post of R183 on the bytes of a record, and the prior bytes 0 to 7 (R297). -/
def postBytes (rec : List Byte) (vector : Byte) : List Byte :=
  let get := fun k => rec.getD k 0
  let tail := get 0
  let flags := get 2
  if (tail - get 1).toNat < 32 then
    let f := if flags.getLsbD 0 || flags.getLsbD 1 then flags else flags ||| 1
    ((rec.set (32 + tail.toNat % 32) vector).set 0 (tail + 1)).set 2 f
  else
    let spills := BitVec.ofNat 64 (ofBytes ((rec.drop 8).take 8) + 1)
    ((rec.set 2 (flags ||| 4)).take 8) ++ toBytes 8 spills.toNat ++ rec.drop 16

/-- The home performs a write on a line that no cache holds (R297): in the LLC, or by a write sent to the controller, which keeps the
line busy until its admission (R294). Comp goes at once. -/
def State.homeWrite (s : State) (h : Nat) (i : Instr) (q : CohReq) : State :=
  let line := lineOf q.line.toNat
  let x := s.home h
  let s0 := s.losesReservation line (agentCore q.from_)
  match i with
  | .writeUnique _ data poison =>
    let s1 := (s0.setBytes line (toBytes 64 data.toNat)).setPoison line poison
    match x.cached line with
    | some l =>
      ((s1.setHome h (x.setCached line (some { l with data := data, dirty := true, poison := poison }))).closeHome h line).sendComp i q .ok
    | none =>
      if s.inDram line then
        ((s1.waitFor h line .admission).present homeNs (s.dramLoc line).mc h q.stamp line 64 (.store line false true)).sendComp i q .ok
      else (s1.closeHome h line).sendComp i q .ok
  | .writePartial _ mask data =>
    match x.cached line with
    | some l =>
      let s1 := s0.writeMasked line mask data
      ((s1.setHome h (x.setCached line (some { l with data := mergeLine l.data data mask, dirty := true }))).closeHome h line).sendComp i q .ok
    | none =>
      let s1 := s0.writeMasked line mask data
      if s.inDram line then
        let s2 := s1.setHome h ((s1.home h).editTxn line fun t => { t with wait := .admission, mask := t.mask ||| mask })
        (s2.present homeNs (s.dramLoc line).mc h q.stamp line 64 (.store line true true)).sendComp i q .ok
      else (s1.closeHome h line).sendComp i q .ok
  | .writePartialPost _ vector =>
    let (old, poison) := s.homeData h line
    let new := ofBytes (postBytes (toBytes 64 old.toNat) vector)
    let s1 := s0.setBytes line (toBytes 64 new)
    let s2 := s1.allocate h line (BitVec.ofNat 512 new) true poison q.stamp
    (s2.closeHome h line).sendComp i q .ok 0 (BitVec.ofNat 64 old.toNat)
  | _ => s.closeHome h line

/-- How long the answer to a ReadOnce of a filled line takes: to a phase core 2 ns more than to others, so that its WINDOW access to a
closed row takes the 128 clocks of R112. -/
def fillNs (q : CohReq) : Nat := match q.from_ with | .phaseCore _ => rspNs + 2 | _ => rspNs

/-- The home has the line and serves a request in the line's present state, which is I, S, or X or O whose owner has answered that it
has no copy (R296). -/
def State.supply (s : State) (h : Nat) (i : Instr) (q : CohReq) : State :=
  let line := lineOf q.line.toNat
  let x := s.home h
  let e := x.entry line
  let (data, poison) := s.homeData h line
  match i with
  | .readShared _ =>
    match agentCore q.from_, e with
    | some r, some d =>
      if d.owner.isNone then
        let s1 := s.setHome h (x.setEntry line (some { d with sharers := d.sharers ||| (1 <<< r) }))
        (s1.closeHome h line).send rspNs (.dataShared q.from_ q.line data poison false)
      else s.grant h q r 0
    | some r, none => s.grant h q r 0
    | none, _ => s.closeHome h line
  | .readUnique _ | .upgrade _ =>
    match agentCore q.from_ with
    | some r =>
      let others := match e with | some d => if d.owner.isNone then d.sharing.filter (· != r) else [] | none => []
      (s.invalidateAll others line q.from_).grant h q r others.length
    | none => s.closeHome h line
  | .readOnce _ => (s.closeHome h line).send (fillNs q) (.dataShared q.from_ q.line data poison true)
  | _ => s.homeWrite h i q

/-- How long the answer to a ReadOnce from the LLC takes: to a phase core 5 ns less than others, so that its WINDOW access takes the
40 clocks of R112. -/
def hitNs (q : CohReq) : Nat := match q.from_ with | .phaseCore _ => rspNs - 5 | _ => rspNs

/-- The stamp of a fill: the earliest of those of the request that missed and of the others that wait for its line (R134). -/
def State.fillStamp (s : State) (h : Nat) (q : CohReq) : Stamp :=
  (((s.home h).queue.filter fun j => decide (reqLine j = lineOf q.line.toNat)).map reqStamp).foldl
    (fun b st => if s.stampSlack st < s.stampSlack b then st else b) q.stamp

/-- The home reads the line: from the LLC, from the ROM or the SRAM, or from DRAM through ARB_MC, and then serves the request. -/
def State.homeRead (s : State) (h : Nat) (i : Instr) (q : CohReq) : State :=
  let line := lineOf q.line.toNat
  if ((s.home h).cached line).isSome then
    let s1 := (s.bankEvent (Reg.HS_CFG h) 2).touch h line
    match i with
    | .readOnce _ =>
      let (data, poison) := s1.homeData h line
      (s1.closeHome h line).send (hitNs q) (.dataShared q.from_ q.line data poison true)
    | _ => s1.supply h i q
  else if s.inDram line then
    ((s.bankEvent (Reg.HS_CFG h) 3).waitFor h line .memory).present homeNs (s.dramLoc line).mc h (s.fillStamp h q) line 64 (.fill line)
  else (s.bankEvent (Reg.HS_CFG h) 3).supply h i q

/-- A write that no cache stands in the way of. A POST needs the line in the LLC first (R297). -/
def State.startWrite (s : State) (h : Nat) (i : Instr) (q : CohReq) : State :=
  match i with
  | .writePartialPost .. => s.homeRead h i q
  | _ => s.homeWrite h i q

/-- A directory entry is removed as a transaction of its own (R288): BackInvalidate to every core named. -/
def State.removeEntry (s : State) (h line : Nat) (cores : List Nat) : State :=
  let s1 := s.setHome h ((s.home h).openTxn { line := line, req := none, wait := .removal, left := cores.length, mask := 0 })
  cores.foldl (fun s c => s.send rspNs (.backInvalidate (coreId c) (paddr line))) s1

/-- The entry of a full set that gives way: the least recently used whose line has no open transaction. -/
def State.dirVictim (s : State) (h line : Nat) : Option (Nat × DirEntry) :=
  let x := s.home h
  ((x.dir.filter fun e => decide (s.setOf (64 * e.1) = s.setOf line) && !x.busy (64 * e.1)).foldl (fun b e =>
    match b, e.2 with
    | some (k, l), some l' => if l'.used < l.used then some (e.1, l') else some (k, l)
    | none, some l' => some (e.1, l')
    | b, none => b) (none : Option (Nat × DirEntry)))

/-- A request that takes a directory entry when its line has none (R288). -/
def reqNeedsEntry : Instr → Bool
  | .readShared _ | .readUnique _ | .upgrade _ => true
  | _ => false

/-- The request needs a directory entry and the set of 9 ways is full; a way that an open transaction will fill is taken. -/
def State.dirFull (s : State) (h line : Nat) : Bool :=
  let x := s.home h
  let coming := x.txns.filter fun t =>
    t.req.any reqNeedsEntry && (x.entry t.line).isNone && decide (t.line ≠ line ∧ s.setOf t.line = s.setOf line)
  (x.entry line).isNone &&
    decide ((x.dir.filter fun e => decide (s.setOf (64 * e.1) = s.setOf line)).length + coming.length ≥ 9)

/-- A request is handled in the state of its line (R296). Its transaction is open. -/
def State.handle (s : State) (h : Nat) (i : Instr) (q : CohReq) : State :=
  let line := lineOf q.line.toNat
  let x := s.home h
  let r := agentCore q.from_
  let e := x.entry line
  let s := if e.isSome then s.setHome h (x.setEntry line e) else s
  match e with
  | none =>
    match i with
    | .readShared _ | .readUnique _ | .upgrade _ | .readOnce _ => s.homeRead h i q
    | _ => s.startWrite h i q
  | some d =>
    match i with
    | .readShared _ =>
      match d.owner with
      | none => s.homeRead h i q
      | some o =>
        if r = some o ∧ d.excl then s.homeRead h i q
        else (s.waitFor h line .forward).send rspNs (.fwdShared (coreId o) q.line q.from_ false)
    | .readOnce _ =>
      match d.owner with
      | none => s.homeRead h i q
      | some o => (s.waitFor h line .forward).send rspNs (.fwdShared (coreId o) q.line q.from_ true)
    | .readUnique _ | .upgrade _ =>
      let up : Bool := match i with | .upgrade _ => true | _ => false
      match d.owner, r with
      | none, some r =>
        if up ∧ d.sharers.getLsbD r then
          let others := d.sharing.filter (· != r)
          let s1 := s.invalidateAll others line q.from_
          let s2 := s1.setHome h ((s1.home h).setEntry line (some { owner := some r, excl := true, sharers := 0, used := 0 }))
          (s2.waitFor h line .comp).sendComp i q .ok others.length
        else s.homeRead h i q
      | some o, some r =>
        let held := o = r || d.sharers.getLsbD r
        if d.excl ∧ o = r then
          if up then (s.waitFor h line .comp).sendComp i q .ok else s.homeRead h i q
        else if ¬ d.excl ∧ held ∧ (up ∨ o = r) then
          let others := d.holders.filter (· != r)
          let s1 := s.invalidateAll others line q.from_
          let s2 := s1.setHome h ((s1.home h).setEntry line (some { owner := some r, excl := true, sharers := 0, used := 0 }))
          (s2.waitFor h line .comp).sendComp i q .ok others.length
        else
          let others := (d.sharing.filter (· != r)).filter (· != o)
          let n := if d.excl then 0 else others.length
          let s1 := if d.excl then s else s.invalidateAll others line q.from_
          let s2 := if d.excl then s1 else
            s1.setHome h ((s1.home h).setEntry line (some { owner := some r, excl := true, sharers := 0, used := 0 }))
          (s2.waitFor h line .forward).send rspNs (.fwdUnique (coreId o) q.line q.from_ (BitVec.ofNat 7 n))
      | _, none => s.closeHome h line
    | .writePartial .. | .writePartialPost .. =>
      match d.owner with
      | none => (s.waitFor h line .acks d.sharing.length).invalidateAll d.sharing line .home
      | some o =>
        let others := if d.excl then [] else d.sharing.filter (· != o)
        ((s.waitFor h line .acks (others.length + 1)).invalidateAll others line .home).send rspNs (.fwdUnique (coreId o) q.line .home 0)
    | _ => (s.waitFor h line .acks d.holders.length).invalidateAll d.holders line .home

/-- The home takes a line that its recorded owner gives up in M or O (R296). -/
def State.takeDirty (s : State) (h line : Nat) (d : DirEntry) (l : CLine) : State :=
  let e := if d.excl then none else some { d with owner := none, excl := false }
  (s.setHome h ((s.home h).setEntry line e)).allocate h line l.data true l.poison (stampOf s.now)

/-- A WriteBack of a core's line is ordered (R296): absorbed from the recorded owner, discarded as stale from any other. -/
def State.absorb (s : State) (h c line : Nat) : State :=
  let s1 :=
    match (s.core c).line line, (s.home h).entry line with
    | some l, some d => if d.owner = some c then s.takeDirty h line d l else s.tally (Reg.HS_COUNT_STALE_WB h)
    | _, _ => s.tally (Reg.HS_COUNT_STALE_WB h)
  s1.send rspNs (.wbAck (coreId c) (paddr line))

/-- The home cannot order a request yet: its line is busy, or no transaction slot is free, or an earlier request waits for the line
(R292, R293); or it needs a directory entry of a full set where a removal is in progress or every way is busy (R288). -/
def State.mustWait (s : State) (h : Nat) (i : Instr) (queued : List Instr) : Bool :=
  let x := s.home h
  let line := reqLine i
  x.busy line || decide (x.txns.length ≥ 128) || (queued.any fun j => decide (reqLine j = line)) ||
    (reqNeedsEntry i && s.dirFull h line &&
      ((x.txns.any fun t => t.wait == .removal && decide (s.setOf t.line = s.setOf line)) || (s.dirVictim h line).isNone))

/-- The partial write of a line has become a whole-line write. -/
def wholeWrite (line : Nat) (t : Tab (Option Work)) : Tab (Option Work) :=
  t.map fun w =>
    match w.2 with
    | some (.store l true holds) => if l = line then (w.1, some (.store l false holds)) else w
    | _ => w

/-- An NC partial write joins one of the same line that waits for admission; once all 64 bytes are written it is a full-line write,
which clears poison (R297, R341). -/
def State.combine (s : State) (h : Nat) (i : Instr) : Option State :=
  match i with
  | .writePartial q mask data =>
    let line := lineOf q.line.toNat
    match (s.home h).txn line with
    | some t =>
      match t.req with
      | some (.writePartial p _ _) =>
        if t.wait = .admission ∧ ¬ q.dev ∧ ¬ p.dev ∧ s.ertPermits q.eid.toNat line true then
          let all := t.mask ||| mask
          let s1 := (s.losesReservation line (agentCore q.from_)).writeMasked line mask data
          let s2 := s1.setHome h ((s1.home h).editTxn line fun t => { t with mask := all })
          let s3 :=
            if all = BitVec.allOnes 64 then
              { s2.setPoison line false with work := wholeWrite line s2.work }
            else s2
          some (s3.sendComp i q .ok)
        else none
      | _ => none
    | none => none
  | _ => none

/-- A refusal at the home (R295): Comp with DENIED, and no other state. -/
def State.refuse (s : State) (h : Nat) (i : Instr) (q : CohReq) : State :=
  (((s.count (Reg.HS_COUNT_DENY h) 32).hsIrq h 2).bankEvent (Reg.HS_CFG h) 7).sendComp i q .denied

/-- The window of R306 in ns: WIN µs, 0 acting as 1. -/
def State.backinvWin (s : State) (h : Nat) : Nat := 1000 * max 1 (s.rf (Reg.HS_BACKINV_WIN h) 15 0)

/-- A victim removal is counted; the first of a window sends for the window's end, the next multiple of WIN µs of GT (R306). -/
def State.countRemoval (s : State) (h : Nat) : State :=
  let s1 := (s.tally (Reg.HS_COUNT_BACKINV h)).bankEvent (Reg.HS_CFG h) 4
  let x := s1.home h
  let s2 := if x.window = 0 then s1.send (s1.backinvWin h - s1.now % s1.backinvWin h) (.backinvWindow (Fin.ofNat 64 h)) else s1
  s2.setHome h { x with window := x.window + 1 }

/-- A corrected error of a directory entry is reported (R289, R346); which bit of which macro it was is a free value (R353). -/
def State.dirCorrected (s : State) (h : Nat) (q : CohReq) : State :=
  if q.dirErr = .corrected then
    let (w, s1) := s.fresh
    s1.log .sramCe (unitHs h ||| (BitVec.ofNat 32 (fld w.toNat 42 32) <<< 21)) (lineOf q.line.toNat)
      (fld w.toNat 5 0 + fld w.toNat 23 8 * 2 ^ 8)
  else s

/-- A core's request has been ordered: it is marked on the core's line, and writes to the other line of a reserved granule are tracked
from now on (R270). -/
def State.noteOrdered (s : State) (q : CohReq) : State :=
  match q.from_ with
  | .core c =>
    let x := s.core c.val
    let line := lineOf q.line.toNat
    let x1 := match x.line line with | some l => x.setLine line (some { l with ordered := true }) | none => x
    let x2 := { x1 with reserved := x1.reserved.map fun r =>
      if r.line / 128 = line / 128 ∧ r.line ≠ line then { r with companion := true } else r }
    s.setCore c.val x2
  | _ => s

/-- A request is ordered (R293, R295 to R297), or an entry is removed before it, and it waits (R288, R289). -/
def State.order (s : State) (h : Nat) (i : Instr) : State × Bool :=
  match i with
  | .writeBack c l => ((s.bankEvent (Reg.HS_CFG h) 1).absorb h c.val (lineOf l.toNat), true)
  | _ =>
    match reqOf i with
    | none => (s, true)
    | some q =>
      let line := lineOf q.line.toNat
      if ¬ s.inHomed line ∨ (inRom line ∧ reqWrites i) then (s.sendComp i q .error, true)
      else if s.inDram line ∧ ¬ s.ertPermits q.eid.toNat line (reqWrites i) then
        ((s.bankEvent (Reg.HS_CFG h) 1).refuse h i q, true)
      else if q.dirErr = .bad then
        (((s.log .dirError (unitHs h) line).hsIrq h 1).removeEntry h line (List.range 96), false)
      else
        match if reqNeedsEntry i && s.dirFull h line then s.dirVictim h line else none with
        | some v => ((s.countRemoval h).removeEntry h (64 * v.1) v.2.holders, false)
        | none =>
          let s1 := (((s.dirCorrected h q).noteOrdered q).bankEvent (Reg.HS_CFG h) 1)
          let s2 := s1.setHome h ((s1.home h).openTxn { line := line, req := some i, wait := .memory, left := 0, mask := 0 })
          (s2.handle h i q, true)

/-- A request of class REQ with its header changed. -/
def mapReq (f : CohReq → CohReq) : Instr → Instr
  | .readShared q => .readShared (f q)
  | .readUnique q => .readUnique (f q)
  | .upgrade q => .upgrade (f q)
  | .readOnce q => .readOnce (f q)
  | .writeUnique q d p => .writeUnique (f q) d p
  | .writePartial q m d => .writePartial (f q) m d
  | .writePartialPost q v => .writePartialPost (f q) v
  | i => i

/-- A request without the mark of R289: it is ordered anew once the entry has gone. -/
def clearDirErr : Instr → Instr := mapReq fun q => { q with dirErr := .good }

/-- A TIME_STEP has taken GT forward from `old`: what waits at the homes keeps its stamps, so its slack has fallen by the step, and an
entry that this would take below -2^30 is held there (R29, R136). -/
def State.homesStepped (s : State) (old : Nat) : State :=
  let fell : Int := (s.now / 4 : Nat) - (old / 4 : Nat)
  let hold (st : Stamp) : Stamp := if (st - stampOf old).toInt - fell < -(2 ^ 30) then stampOf s.now - 0x40000000 else st
  { s with homes := s.homes.map fun e => (e.1, { e.2 with queue := e.2.queue.map (mapReq fun q => { q with stamp := hold q.stamp }) }) }

/-- A request that waits behind a fill of its line lends the fill its stamp, if that is the earlier (R134). -/
def State.hasten (s : State) (line : Nat) (st : Stamp) : State :=
  let a := (s.dramLoc line).mc
  let fills := fun (e : ArbEntry) => match s.workOf e.req.tag with | some (.fill l) => l == line | _ => false
  if s.inDram line then
    let x := s.arb a
    let sent := fun (r : ArbReq) => match s.workOf r.tag with | some (.fill l) => l == line | _ => false
    let agenda := s.agenda.map fun e =>
      match e.2 with
      | .cmd (.arbRequest b r) =>
        if sent r ∧ s.stampSlack st < s.stampSlack r.stamp then (e.1, Act.cmd (.arbRequest b { r with stamp := st })) else e
      | _ => e
    let lend := fun (e : ArbEntry) =>
      if fills e then { e with slack := min e.slack (s.stampSlack st + ((s.now / 4 : Nat) - e.dls : Int)) } else e
    { s with agenda := agenda }.setArb a { x with tray := x.tray.map lend, held := x.held.map lend }
  else s

/-- Puts a request at an end of the queue. -/
def State.enqueue (s : State) (h : Nat) (i : Instr) (front : Bool) : State :=
  let x := s.home h
  s.setHome h { x with queue := if front then i :: x.queue else x.queue ++ [i] }

/-- A request is ordered, or waits at the front of the queue for a removal. -/
def State.tryOrder (s : State) (h : Nat) (i : Instr) : State :=
  let (s1, done) := s.order h i
  if done then s1 else s1.enqueue h (clearDirErr i) true

/-- The request that starts next among those of the queue's 192 entries that can: WriteBacks first in their order of arrival, then the smallest slack (R293). -/
def State.nextStart (s : State) (h : Nat) : Option (Nat × Instr) :=
  let x := s.home h
  let free := ((x.queue.take 192).zipIdx.filter fun e => !s.mustWait h e.1 (x.queue.take e.2)).map fun e => (e.2, e.1)
  match free.find? fun e => match e.2 with | .writeBack .. => true | _ => false with
  | some e => some e
  | none => free.foldl (fun b e =>
      match b with
      | none => some e
      | some b => if s.stampSlack (reqStamp e.2) < s.stampSlack (reqStamp b.2) then some e else some b) none

/-- Waiting requests start, as far as they can. -/
def State.settle (h : Nat) : Nat → State → State
  | 0, s => s
  | fuel + 1, s =>
    match s.nextStart h with
    | none => s
    | some (k, i) =>
      let x := s.home h
      let s1 := s.setHome h { x with queue := x.queue.eraseIdx k }
      State.settle h fuel (s1.tryOrder h i)

/-- The state of a line as a query gives it (R307). -/
def State.queryResult (s : State) (h line : Nat) : State :=
  let x := s.home h
  let (st, owner, sh) :=
    match x.entry line with
    | none => (0, 0, 0)
    | some d =>
      match d.owner with
      | none => (1, 0, d.sharers.toNat)
      | some o => (if d.excl then 2 else 3, o, d.sharers.toNat)
  let (hit, dirty) := match x.cached line with | some l => (1, b2n l.dirty) | none => (0, 0)
  ((s.wr (Reg.HS_QUERY_STATE h) (1 + st * 4 + owner * 16 + hit * 2048 + dirty * 4096)).wr (Reg.HS_QUERY_SHR0 h)
    (sh % 2 ^ 64)).wr (Reg.HS_QUERY_SHR1 h) (sh / 2 ^ 64)

/-- A line query whose line is not busy is answered. -/
def State.answerQuery (s : State) (h : Nat) : State :=
  let x := s.home h
  match x.query with
  | some line => if x.busy line then s else (s.setHome h { x with query := none }).queryResult h line
  | none => s

/-- What waits at a home starts, as far as it can. -/
def State.settleHome (s : State) (h : Nat) : State := (State.settle h ((s.home h).queue.length + 1) s).answerQuery h

/-- A command of class REQ arrives at the home of its line. One that finds the queue full waits behind it, in the mesh (R292). -/
def State.arrive (s : State) (i : Instr) : State :=
  let h := s.homeOf (reqLine i)
  match s.combine h i with
  | some s1 => s1
  | none =>
    if 192 ≤ (s.home h).queue.length ∨ s.mustWait h i (s.home h).queue then ((s.hasten (reqLine i) (reqStamp i)).enqueue h i false).settleHome h
    else (s.tryOrder h i).settleHome h

/-- READ_SHARED. -/
def execReadShared (q : CohReq) (s : State) : Host.Outcome State Fault Refusal :=
  .next (s.arrive (.readShared q))
/-- READ_UNIQUE. -/
def execReadUnique (q : CohReq) (s : State) : Host.Outcome State Fault Refusal := .next (s.arrive (.readUnique q))
/-- UPGRADE. -/
def execUpgrade (q : CohReq) (s : State) : Host.Outcome State Fault Refusal := .next (s.arrive (.upgrade q))
/-- READ_ONCE. -/
def execReadOnce (q : CohReq) (s : State) : Host.Outcome State Fault Refusal := .next (s.arrive (.readOnce q))
/-- WRITE_UNIQUE. -/
def execWriteUnique (q : CohReq) (data : Line) (poison : Bool) (s : State) : Host.Outcome State Fault Refusal :=
  .next (s.arrive (.writeUnique q data poison))
/-- WRITE_PARTIAL. -/
def execWritePartial (q : CohReq) (mask : Word64) (data : Line) (s : State) : Host.Outcome State Fault Refusal :=
  .next (s.arrive (.writePartial q mask data))
/-- WRITE_PARTIAL_POST. -/
def execWritePartialPost (q : CohReq) (vector : Byte) (s : State) : Host.Outcome State Fault Refusal :=
  .next (s.arrive (.writePartialPost q vector))

/-- A line of the core's reserved granule, which is no victim while the reservation is held (R270). -/
def Core.inGranule (c : Core) (line : Nat) : Bool := match c.reserved with | some r => decide (r.line / 128 = line / 128) | none => false

/-- A core chooses a line for replacement (R298): from M or O it sends WriteBack, and waits for WBAck with the dirty line still held; a line
in E or S goes silently. -/
def State.replaceLine (s : State) (c : CoreId) (line : Nat) (l : CLine) : State :=
  let out := fun (st : LineSt) => (s.setLine c.val line (some { l with st := st })).send reqNs (.writeBack c (paddr line))
  match l.st with
  | .m => out .miA
  | .o => out .oiA
  | .e | .s => s.setLine c.val line none
  | _ => s

/-- WRITE_BACK: a stable line is chosen for replacement, but for one of a reserved granule; of a line on its way out the message arrives
at its home, behind what the core sent before it (R278, R298). -/
def execWriteBack (c : CoreId) (line : PAddr) (s : State) : Host.Outcome State Fault Refusal :=
  let a := lineOf line.toNat
  match (s.core c.val).line a with
  | some l =>
    if l.st.stable then
      (if (s.core c.val).inGranule a ∧ ¬ s.rb (Reg.ENC_STATUS c.val) 2 then .next s else .next (s.replaceLine c a l))
    else if l.st = .miA ∨ l.st = .oiA ∨ l.st = .iiA then .next (s.arrive (.writeBack c line))
    else .next s
  | none => .next (s.arrive (.writeBack c line))

/-! ### What comes back to the home -/

/-- A removal is complete: the entry goes, and the request that needed it starts (R288). -/
def State.removed (s : State) (h line : Nat) : State :=
  ((s.setHome h ((s.home h).setEntry line none)).closeHome h line).settleHome h

/-- Every acknowledgement has come: the holders have given the line up, and the write is performed (R296). -/
def State.acksDone (s : State) (h line : Nat) (t : Txn) : State :=
  let s1 := s.setHome h ((s.home h).setEntry line none)
  match t.req with
  | some i =>
    match reqOf i with
    | some q => (s1.startWrite h i q).settleHome h
    | none => (s1.closeHome h line).settleHome h
  | none => (s1.closeHome h line).settleHome h

/-- One acknowledgement has come to the home. -/
def State.ackHome (s : State) (line : Nat) : State :=
  let h := s.homeOf line
  match (s.home h).txn line with
  | none => s
  | some t =>
    if t.wait = .acks ∨ t.wait = .removal then
      if t.left ≤ 1 then (if t.wait = .removal then s.removed h line else s.acksDone h line t)
      else s.setHome h ((s.home h).editTxn line fun t => { t with left := t.left - 1 })
    else s

/-- Data comes to the home from a cache: it enters the LLC (R284, R288). -/
def State.dataHome (s : State) (line : Nat) (data : Line) (poison dirty : Bool) : State :=
  let h := s.homeOf line
  match (s.home h).txn line with
  | none => s
  | some t =>
    let st := match t.req with | some i => reqStamp i | none => stampOf s.now
    if t.wait = .acks ∨ t.wait = .removal then (s.allocate h line data dirty poison st).ackHome line else s

/-- FWD_ACK: the owner has kept the line; the forwarded read closes (R296). -/
def execFwdAck (c : CoreId) (line : PAddr) (dirty : Bool) (s : State) : Host.Outcome State Fault Refusal :=
  let a := lineOf line.toNat
  let h := s.homeOf a
  let x := s.home h
  match x.txn a with
  | some t =>
    if t.wait = .forward then
      match t.req, x.entry a with
      | some (.readShared q), some d =>
        match agentCore q.from_ with
        | some r =>
          let e : DirEntry :=
            if d.excl ∧ ¬ dirty then { d with owner := none, excl := false, sharers := (1 <<< c.val) ||| (1 <<< r) }
            else if d.excl then { d with excl := false, sharers := 1 <<< r }
            else { d with sharers := d.sharers ||| (1 <<< r) }
          .next (((s.setHome h (x.setEntry a (some e))).closeHome h a).settleHome h)
        | none => .next ((s.closeHome h a).settleHome h)
      | _, _ => .next ((s.closeHome h a).settleHome h)
    else .next s
  | none => .next s

/-- FWD_MISS: the cache has dropped the line; the home supplies it (R287, R296). -/
def execFwdMiss (_c : CoreId) (line : PAddr) (s : State) : Host.Outcome State Fault Refusal :=
  let a := lineOf line.toNat
  let h := s.homeOf a
  let s1 := (s.tally (Reg.HS_COUNT_FWDMISS h)).bankEvent (Reg.HS_CFG h) 5
  match (s1.home h).txn a with
  | some t =>
    if t.wait = .forward then
      match t.req.bind reqOf, t.req with
      | some q, some i => .next ((s1.homeRead h i q).settleHome h)
      | _, _ => .next s1
    else if t.wait = .acks then .next (s1.ackHome a)
    else .next s1
  | none => .next s1

/-- COMP_TO_HOME: the requester's Comp ends an exclusive grant (R300). -/
def execCompToHome (c : CohAgent) (line : PAddr) (s : State) : Host.Outcome State Fault Refusal :=
  let a := lineOf line.toNat
  let h := s.homeOf a
  match (s.home h).txn a with
  | some t =>
    let mine : Bool := match t.req.bind reqOf with | some q => decide (q.from_ = c) | none => false
    if mine ∧ (t.wait = .comp ∨ t.wait = .forward) then
      let s1 :=
        match agentCore c, t.wait with
        | some r, .forward => s.setHome h ((s.home h).setEntry a (some { owner := some r, excl := true, sharers := 0, used := 0 }))
        | _, _ => s
      .next ((s1.closeHome h a).settleHome h)
    else .next s
  | none => .next s

/-- A line has been read from DRAM for an open transaction: it is allocated clean for all but ReadOnce, and served (R284). -/
def State.filled (s : State) (line : Nat) : State :=
  let h := s.homeOf line
  match (s.home h).txn line with
  | some t =>
    match t.wait, t.req.bind reqOf, t.req with
    | .memory, some q, some i =>
      let alloc := match i with | .readOnce _ => false | _ => true
      let s1 := if alloc then s.allocate h line (s.lineData line) false (s.poisoned line) q.stamp else s
      (s1.supply h i q).settleHome h
    | _, _, _ => s
  | none => s

/-- ARB_MC has admitted a write of the home: its line is free again (R294). -/
def State.admitted (s : State) (line : Nat) : State :=
  let h := s.homeOf line
  match (s.home h).txn line with
  | some t => if t.wait = .admission then (s.closeHome h line).settleHome h else s
  | none => s

/-- READ_DATA_HANDOFF: the read of a controller whose time has come leaves the queue, and its data goes to the home (R312, R315). -/
def execReadDataHandoff (mc : McId) (s : State) : Host.Outcome State Fault Refusal :=
  let n := mc.val
  match (s.mc n).queue.find? fun e => match e.hand with | some t => decide (t ≤ s.clk) | none => false with
  | none => .next s
  | some e =>
    let s1 := (s.setQueue n ((s.mc n).queue.filter fun x => x.tag != e.tag)).dropWork e.tag
    .next (((s1.filled e.addr).arbArm n 1).arbShow n)

/-! ### The caching agents (R298, R299, R301) -/

/-- The line is granted and its count is 0: it enters M, and Comp goes to the home (R301). -/
def State.completeGrant (s : State) (c line : Nat) (l : CLine) (st : LineSt) : State :=
  let s1 := s.setLine c line (some { l with st := st, acks := 0, granted := false, grantDirty := false })
  (s1.send rspNs (.compToHome (.core (coreId c)) (paddr line))).kickDrain c 1

/-- A grant with ACKS arrives in a state that waits for data and acknowledgements. -/
def State.granted (s : State) (c line : Nat) (l : CLine) (acks : Nat) : State :=
  let n := l.acks + acks
  if n = 0 then s.completeGrant c line l .m else s.setLine c line (some { l with st := .imA, acks := n, granted := true })

/-- A write of another agent reaches the core's line: an Invalidate, a FwdUnique or a BackInvalidate (R271). -/
def State.lostTo (s : State) (c line : Nat) : State := s.setCore c ((s.core c).written line)

/-- FWD_SHARED. -/
def execFwdShared (owner : CoreId) (line : PAddr) (dst : CohAgent) (once : Bool) (s : State) : Host.Outcome State Fault Refusal :=
  let a := lineOf line.toNat
  let c := owner.val
  match (s.core c).line a with
  | none => .next (s.send rspNs (.fwdMiss owner line))
  | some l =>
    let give := fun (s : State) (dirty : Bool) =>
      (s.send rspNs (.dataShared dst line l.data l.poison once)).send rspNs (.fwdAck owner line dirty)
    match l.st with
    | .m => .next (give (if once then s else s.setLine c a (some { l with st := .o })) true)
    | .o | .omAD | .oiA => .next (give s true)
    | .miA => .next (give (if once then s else s.setLine c a (some { l with st := .oiA })) true)
    | .e => .next (give (if once then s else s.setLine c a (some { l with st := .s })) false)
    | _ => .next (s.send rspNs (.fwdMiss owner line))

/-- FWD_UNIQUE. -/
def execFwdUnique (owner : CoreId) (line : PAddr) (dst : CohAgent) (acks : BitVec 7) (s : State) :
    Host.Outcome State Fault Refusal :=
  let a := lineOf line.toNat
  let c := owner.val
  let s0 := s.lostTo c a
  match (s.core c).line a with
  | none => .next (s0.send rspNs (.fwdMiss owner line))
  | some l =>
    let dirty := fun (s : State) => s.send rspNs (.dataDirty dst line l.data l.poison acks)
    match l.st with
    | .m | .o => .next (dirty (s0.setLine c a none))
    | .e => .next ((s0.setLine c a none).send rspNs (.dataUnique dst line l.data l.poison acks))
    | .omAD => .next (dirty (s0.setLine c a (some { l with st := .imAD })))
    | .miA | .oiA => .next (dirty (s0.setLine c a (some { l with st := .iiA })))
    | _ => .next (s0.send rspNs (.fwdMiss owner line))

/-- INVALIDATE: the line is given up and InvAck goes to the agent named. -/
def execInvalidate (c : CoreId) (line : PAddr) (ackTo : CohAgent) (s : State) : Host.Outcome State Fault Refusal :=
  let a := lineOf line.toNat
  let s0 := (s.lostTo c.val a).send rspNs (.invAck c line ackTo)
  match (s.core c.val).line a with
  | none => .next s0
  | some l =>
    match l.st with
    | .m | .o | .e | .s => .next (s0.setLine c.val a none)
    | .isD => .next (s0.setLine c.val a (some { l with st := .isDI }))
    | .smAD | .omAD => .next (s0.setLine c.val a (some { l with st := .imAD }))
    | .miA | .oiA => .next (s0.setLine c.val a (some { l with st := .iiA }))
    | _ => .next s0

/-- BACK_INVALIDATE: the line is given up to the home, with its data when it is dirty. -/
def execBackInvalidate (c : CoreId) (line : PAddr) (s : State) : Host.Outcome State Fault Refusal :=
  let a := lineOf line.toNat
  let s0 := s.lostTo c.val a
  let ack := s0.send rspNs (.invAck c line .home)
  match (s.core c.val).line a with
  | none => .next ack
  | some l =>
    let dirty := s0.send rspNs (.dataDirty .home line l.data l.poison 0)
    match l.st with
    | .m | .o => .next (dirty.setLine c.val a none)
    | .e | .s => .next (ack.setLine c.val a none)
    | .isD => .next (ack.setLine c.val a (some { l with st := .isDI }))
    | .smAD => .next (ack.setLine c.val a (some { l with st := .imAD }))
    | .omAD => .next (dirty.setLine c.val a (some { l with st := .imAD }))
    | .miA | .oiA => .next (dirty.setLine c.val a (some { l with st := .iiA }))
    | _ => .next ack

/-- INV_ACK: it lowers the requester's count, or completes the home's wait (R301). -/
def execInvAck (_c : CoreId) (line : PAddr) (dst : CohAgent) (s : State) : Host.Outcome State Fault Refusal :=
  let a := lineOf line.toNat
  match dst with
  | .home => .next (s.ackHome a)
  | .core c =>
    match (s.core c.val).line a with
    | some l =>
      match l.st with
      | .imA => if l.acks = 1 then .next (s.completeGrant c.val a l .m)
                else .next (s.setLine c.val a (some { l with acks := l.acks - 1 }))
      | .imAD | .smAD | .omAD => .next (s.setLine c.val a (some { l with acks := l.acks - 1 }))
      | _ => .next s
    | none => .next s
  | _ => .next s

/-- WB_ACK: the cache's wait ends in I (R299). -/
def execWbAck (c : CoreId) (line : PAddr) (s : State) : Host.Outcome State Fault Refusal :=
  let a := lineOf line.toNat
  match (s.core c.val).line a with
  | some l =>
    match l.st with
    | .miA | .oiA | .iiA => .next ((s.setLine c.val a none).kickDrain c.val 1)
    | _ => .next s
  | none => .next s

/-- A write of a line query: DONE clears, and the state is given at once or, of a busy line, once it is free; a query that still waits is
given up (R307). -/
def State.hsQuery (s : State) (h : Nat) (_who : Requester) (v : Word64) : State :=
  let line := lineOf (v.toNat % 2 ^ 46)
  if s.homeOf line ≠ h then (s.setHome h { s.home h with query := none }).wr (Reg.HS_QUERY_STATE h) 3
  else ((s.setHome h { s.home h with query := some line }).wr (Reg.HS_QUERY_STATE h) 0).answerQuery h

/-- HS_QUERY_ADDR. -/
def execHsQueryAddr (h : HsId) (who : Requester) (value : Word64) (s : State) : Host.Outcome State Fault Refusal :=
  .next (s.hsQuery h.val who value)

/-- BACKINV_WINDOW: the count of removals in the window that ends is compared with THR (R306). -/
def execBackinvWindow (h : HsId) (s : State) : Host.Outcome State Fault Refusal :=
  let x := s.home h.val
  let s1 := s.setHome h.val { x with window := 0 }
  .next (if s.rf (Reg.HS_BACKINV_WIN h.val) 31 16 < x.window then s1.hsIrq h.val 0 else s1)

end Sys2Proof.Machine
end

