-- ==== Sys2Proof/Machine/CoreBase.lean ====
section
/-!
DEFINITION. Sys2Proof/Machine/CoreBase.lean: what the operations of a main core share: its registers, the system registers of R161
to R163 and R551, the latent window of R164 to R168, the counters of R550 to R553, pending interrupts and the timers.
-/
namespace Sys2Proof.Machine

/-! ### General and floating-point registers (R195) -/

/-- g0 reads as zero. -/
def Core.greg (c : Core) (r : GReg) : Word64 := if r = 0 then 0 else tabGet 0 c.g r.toNat
/-- A write to g0 is discarded. -/
def Core.setG (c : Core) (r : GReg) (v : Word64) : Core := if r = 0 then c else { c with g := tabSet 0 c.g r.toNat v }
def Core.freg (c : Core) (r : FReg) : Word64 := tabGet 0 c.f r.toNat
def Core.setF (c : Core) (r : FReg) (v : Word64) : Core := { c with f := tabSet 0 c.f r.toNat v }

/-! ### System registers (R161 to R163, R551) -/

namespace Sr
def COREID : Nat := 0x000
def PSTATE : Nat := 0x001
def EID : Nat := 0x002
def TCTL : Nat := 0x003
def DLSFLOOR : Nat := 0x004
def HCTL : Nat := 0x005
def MCTL : Nat := 0x006
def HPIPA : Nat := 0x007
def SERR_ADDR : Nat := 0x008
def SERR_INFO : Nat := 0x009
/-- LOOPCNTn, LOOPBEGn, LOOPENDn -/
def LOOPCNT (n : Nat) : Nat := 0x010 + 3 * n
def LOOPBEG (n : Nat) : Nat := 0x011 + 3 * n
def LOOPEND (n : Nat) : Nat := 0x012 + 3 * n
def DLSLACK (p : Nat) : Nat := 0x018 + p
def TTB1 : Nat := 0x020
def TCR1 : Nat := 0x021
def TTB2 : Nat := 0x022
def TCR2 : Nat := 0x023
/-- A register of the block of PLx. -/
def blk (x i : Nat) : Nat := 0x100 + 0x40 * (x - 1) + i
def ELR (x : Nat) : Nat := blk x 0
def ESTAT (x : Nat) : Nat := blk x 1
def ECAUSE (x : Nat) : Nat := blk x 2
def EADDR (x : Nat) : Nat := blk x 3
def ESYND (x : Nat) : Nat := blk x 4
def VBAR (x : Nat) : Nat := blk x 5
def IVBAR (x : Nat) : Nat := blk x 6
def IML (x : Nat) : Nat := blk x 8
def ISL (x : Nat) : Nat := blk x 9
def EOI (x : Nat) : Nat := blk x 10
def PEND (x k : Nat) : Nat := blk x (11 + k)
def TMR (x : Nat) : Nat := blk x 15
def LSAVE (x k : Nat) : Nat := blk x (16 + k)
def PMU_CTRL : Nat := 0x200
def PMU_OVF : Nat := 0x201
def PMU_SAMPLE : Nat := 0x202
def PMSEL (n : Nat) : Nat := 0x208 + n
def PMC (n : Nat) : Nat := 0x210 + n
def PMS (n : Nat) : Nat := 0x220 + n
def PMU_SHADOW : Nat := 0x22A
end Sr

/-- What a system register permits: least level to read, least level to write if any, whether its writes are latent, and the bits that
a write stores, clears where 1 is written, or that are neither. -/
structure SrInfo where
  read : Nat
  write : Option Nat
  latent : Bool
  rw : Nat
  w1c : Nat
deriving DecidableEq, Repr

def ones (n : Nat) : Nat := 2 ^ n - 1

/-- The registers of a block (R162, R163). -/
def blockInfo (x i : Nat) : Option SrInfo :=
  match i with
  | 0 => some ⟨x, some x, false, ones 64, 0⟩
  | 1 => some ⟨x, some x, false, 3, 0⟩
  | 2 => some ⟨x, some x, false, ones 22, 0⟩
  | 3 => some ⟨x, some x, false, ones 64, 0⟩
  | 4 => some ⟨x, some x, false, 0xFFFF, 0⟩
  | 5 => some ⟨x, some x, false, ones 64 - ones 12, 0⟩
  | 6 => some ⟨x, some x, false, ones 64 - ones 11, 0⟩
  | 7 => some ⟨x, some x, false, ones 64, 0⟩
  | 8 => some ⟨x, some x, true, 15, 0⟩
  | 9 => some ⟨x, some (if x = 1 then 2 else x), false, 0xFFFF, 0⟩
  | 10 => some ⟨x, some x, false, 0, 0⟩
  | 11 | 12 | 13 | 14 => some (if x = 1 then ⟨1, some 2, false, ones 64, 0⟩ else ⟨x, some x, false, 0, ones 64⟩)
  | 15 => some ⟨x, some x, false, ones 64, 0⟩
  | 16 | 17 | 18 | 19 | 20 | 21 => some ⟨x, some x, false, ones 64, 0⟩
  | _ => none

/-- The system registers; none for a number that R161, R162 and R551 do not list. The levels of the counter registers follow R551. -/
def srInfo (n : Nat) : Option SrInfo :=
  match n with
  | 0x000 | 0x001 => some ⟨0, none, false, 0, 0⟩
  | 0x002 => some ⟨1, some 3, true, 0x3F, 0⟩
  | 0x003 => some ⟨1, some 2, true, 7, 0⟩
  | 0x004 => some ⟨1, some 2, true, ones 31, 0⟩
  | 0x005 => some ⟨2, some 2, true, 15, 0⟩
  | 0x006 => some ⟨3, some 3, true, 3, 0⟩
  | 0x007 => some ⟨2, some 2, false, ones 46 - ones 6, 0⟩
  | 0x008 => some ⟨2, none, false, 0, 0⟩
  | 0x009 => some ⟨2, some 2, false, 0, 3⟩
  | 0x010 | 0x013 => some ⟨0, some 0, false, ones 32, 0⟩
  | 0x011 | 0x012 | 0x014 | 0x015 => some ⟨0, some 0, false, ones 48 - 3, 0⟩
  | 0x018 | 0x019 => some ⟨0, some 1, true, ones 31, 0⟩
  | 0x01A => some ⟨0, some 2, true, ones 31, 0⟩
  | 0x01B => some ⟨0, some 3, true, ones 31, 0⟩
  | 0x020 => some ⟨1, some 1, true, (ones 46 - ones 12) + (ones 64 - ones 48), 0⟩
  | 0x021 => some ⟨1, some 1, true, 15, 0⟩
  | 0x022 => some ⟨2, some 2, true, (ones 46 - ones 12) + (ones 60 - ones 48), 0⟩
  | 0x023 => some ⟨2, some 2, true, 13, 0⟩
  | 0x200 => some ⟨1, some 1, false, 0x6F, 0⟩
  | 0x201 => some ⟨1, some 1, false, 0, 0x3FF⟩
  | 0x202 => some ⟨1, some 1, false, 0, 2 ^ 31⟩
  | _ =>
    if 0x208 ≤ n ∧ n < 0x210 then some ⟨1, some 1, false, ones 13, 0⟩
    else if 0x210 ≤ n ∧ n ≤ 0x219 then some ⟨1, some 1, false, ones 48, 0⟩
    else if 0x220 ≤ n ∧ n ≤ 0x22A then some ⟨1, none, false, 0, 0⟩
    else if 0x100 ≤ n ∧ n < 0x1C0 then blockInfo ((n - 0x100) / 0x40 + 1) ((n - 0x100) % 0x40)
    else none

/-- Reset values (R163, R551). -/
def srReset (n : Nat) : Word64 :=
  match n with
  | 0x018 => 25000
  | 0x019 => 12500
  | 0x01A => 2500
  | 0x01B => 250
  | 0x108 | 0x148 | 0x188 => 15
  | 0x10F | 0x14F | 0x18F => BitVec.allOnes 64
  | 0x200 => 8
  | _ => 0

/-- A system register as MFSR reads it. -/
def Core.sr (c : Core) (n : Nat) : Nat := (tabGet (srReset n) c.sys n).toNat
def Core.setSr (c : Core) (n v : Nat) : Core := { c with sys := tabSet (srReset n) c.sys n (BitVec.ofNat 64 v) }
/-- The value in effect of a register marked Latent (R165). -/
def Core.ef (c : Core) (n : Nat) : Nat := (tabGet (srReset n) c.eff n).toNat
/-- The EID in effect. -/
def Core.eid (c : Core) : Nat := c.ef Sr.EID

def State.sr (s : State) (c n : Nat) : Nat := (s.core c).sr n
def State.setSr (s : State) (c n v : Nat) : State := s.setCore c ((s.core c).setSr n v)

/-- COREID of logical core c (R163). -/
def State.coreIdReg (s : State) (c : Nat) : Nat := c + s.coreSlot c * 2 ^ 7 + (c % 24 / 4) * 2 ^ 10 + (c / 24) * 2 ^ 13

/-- PSTATE. -/
def Core.pstate (c : Core) : Nat := c.pl.toNat + 4 * b2n (!c.latent.isEmpty) + c.eid * 2 ^ 8

/-! ### Presence (R282, R510, R515) -/

/-- The core is powered and present. -/
def State.coreUp (s : State) (c : Nat) : Bool := !s.rb (Reg.PVT_COREPT c) 2 && !s.rb (Reg.PVT_COREPT c) 3

/-- Core cycles per 5 ns at a clock point. -/
def clockPoint (p : Nat) : Nat := match p with | 0 => 12 | 1 => 9 | 2 => 6 | _ => 3

/-- Core cycles in some ns. -/
def State.cyclesIn (s : State) (c ns : Nat) : Nat := ns * clockPoint (s.rf (Reg.PVT_COREPT c) 1 0) / 5
/-- The ns that some core cycles take, rounded up. -/
def State.nsOf (s : State) (c cycles : Nat) : Nat :=
  let k := clockPoint (s.rf (Reg.PVT_COREPT c) 1 0)
  (cycles * 5 + k - 1) / k

/-- A clock point of a core: its cycles so far are counted at the old one, and those of a reservation's count go on at the new one
(R271). -/
def State.recountReservation (s : State) (c : Nat) (change : State → State) : State :=
  let x := s.core c
  match x.reserved with
  | some r =>
    let n := r.cycles + s.cyclesIn c (s.clk - r.at_)
    let s1 := change (s.setCore c { x with reserved := some { r with cycles := n, at_ := s.clk } })
    s1.send (s1.nsOf c (4096 - n)) (.reservationTimeout (coreId c))
  | none => change s

/-! ### Interrupts pending (R178, R179) -/

def viewNo : View → Nat
  | .one => 1
  | .two => 2
  | .three => 3
def viewOf (x : Nat) : View := if x = 1 then .one else if x = 2 then .two else .three

/-- The highest set bit of a number below 2^w. -/
def highBit (v : Nat) : Nat → Option Nat
  | 0 => none
  | w + 1 => if v.testBit w then some w else highBit v w

/-- The highest pending vector of a view whose level passes the bound. -/
def Core.highest (c : Core) (x : Nat) : Option Nat :=
  match highBit (c.sr (Sr.PEND x 3)) 64 with
  | some b => some (192 + b)
  | none =>
    match highBit (c.sr (Sr.PEND x 2)) 64 with
    | some b => some (128 + b)
    | none =>
      match highBit (c.sr (Sr.PEND x 1)) 64 with
      | some b => some (64 + b)
      | none => highBit (c.sr (Sr.PEND x 0)) 64

/-- The vector that view x offers at this boundary: its level lies above IML, above every level in service, and, while EID is not
0, above the level last presented (R171, R179). -/
def Core.offers (c : Core) (x : Nat) : Option Nat :=
  match c.highest x with
  | none => none
  | some v =>
    let level := v / 16
    let served : Bool := match highBit (c.sr (Sr.ISL x)) 16 with | some b => decide (b < level) | none => true
    let pres := if x = 1 then fld (c.sr Sr.MCTL) 6 2 else if x = 2 then fld (c.sr Sr.MCTL) 11 7 else 0
    let fresh := c.eid = 0 || decide (pres < level + 1)
    if c.pl.toNat ≤ x ∧ (x ≠ 1 ∨ c.pl.toNat ≤ 1) ∧ c.ef (Sr.IML x) < level ∧ served ∧ fresh then some v else none

/-- The view and vector of the interrupt that the core takes at this boundary: the highest view first. -/
def Core.takeable (c : Core) : Option (Nat × Nat) :=
  match c.offers 3 with
  | some v => some (3, v)
  | none =>
    match c.offers 2 with
    | some v => some (2, v)
    | none => (c.offers 1).map fun v => (1, v)

/-- A takeable interrupt is recognised after 16 cycles (R185). -/
def State.recognise (s : State) (c : Nat) : State :=
  if s.coreUp c ∧ ((s.core c).takeable).isSome then s.send (s.nsOf c 16) (.interruptEntry (coreId c)) else s

/-- A vector becomes pending in a view. -/
def State.pend (s : State) (c x v : Nat) : State :=
  let k := Sr.PEND x (v / 64)
  (s.setSr c k (putFld (s.sr c k) (v % 64) (v % 64) 1)).recognise c

/-! ### The latent window (R164 to R168) -/

/-- The loop buffer is emptied, and what has been fetched of a pass is not captured (R236). -/
def Core.emptyLoopBuffer (c : Core) : Core := { c with loopBuffer := none, wholePass := [] }

/-- A value takes effect. With EID at 0 the presented levels clear (R171). Instructions fetched under an old translation are fetched
again (R257). -/
def Core.commit (c : Core) (l : LatentWrite) : Core :=
  let c0 := if Sr.TTB1 ≤ l.number ∧ l.number ≤ Sr.TCR2 then c.emptyLoopBuffer else c
  let c1 := { c0 with eff := tabSet (srReset l.number) c0.eff l.number l.value }
  if l.number = Sr.EID ∧ l.value = 0 then c1.setSr Sr.MCTL (putFld (c1.sr Sr.MCTL) 11 2 0) else c1

/-- Every change whose window has ended takes effect, in program order. -/
def Core.latentEnd (c : Core) : Core :=
  (c.latent.filter fun l => l.left = 0).foldl Core.commit { c with latent := c.latent.filter fun l => l.left != 0 }

/-- Every pending change takes effect (R167, R168). -/
def Core.commitAll (c : Core) : Core := c.latent.foldl Core.commit { c with latent := [] }

/-- One more instruction of every window has been executed. -/
def Core.latentStep (c : Core) : Core := { c with latent := c.latent.map fun l => { l with left := l.left - 1 } }

/-- LATENT_WINDOW_END: a window of three instructions has ended, and its change takes effect (R165). -/
def execLatentWindowEnd (c : CoreId) (s : State) : Host.Outcome State Fault Refusal :=
  .next ((s.setCore c.val (s.core c.val).latentEnd).recognise c.val)

/-! ### Performance counters of a core (R550 to R553) -/

/-- The core's counters count. -/
def State.counting (s : State) (c : Nat) : Bool :=
  let x := s.core c
  x.sr Sr.PMU_CTRL % 2 == 1 && !s.rb Reg.GT_PMU_FREEZE 0 && s.coreUp c && x.run != .halted

/-- VIEW of the counters; 0 and 3 act as 2. -/
def Core.pmuView (c : Core) : Nat := if fld (c.sr Sr.PMU_CTRL) 3 2 = 1 then 1 else 2

/-- A counter overflows: OVF, the sample if none is held, and vector 254 if its interrupt is enabled (R553). -/
def State.overflow (s : State) (c k : Nat) : State :=
  let x := s.core c
  let x1 := x.setSr Sr.PMU_OVF (putFld (x.sr Sr.PMU_OVF) k k 1)
  let free := !(x.sr Sr.PMU_SAMPLE).testBit 31
  let x2 := if free then x1.setSr Sr.PMU_SAMPLE (2 ^ 31 + k * 2 ^ 8) else x1
  let ie := if k = 8 then (x.sr Sr.PMU_CTRL).testBit 5 else if k = 9 then (x.sr Sr.PMU_CTRL).testBit 6
    else (x.sr (Sr.PMSEL k)).testBit 12
  let s1 := s.setCore c { x2 with skidding := x2.skidding || (free && ie) }
  if ie then s1.pend c x.pmuView 254 else s1

/-- A counter advances, and overflows at a wrap. -/
def State.counter (s : State) (c k by_ : Nat) : State :=
  let v := s.sr c (Sr.PMC k) + by_
  let s1 := s.setSr c (Sr.PMC k) (v % 2 ^ 48)
  if v < 2 ^ 48 then s1 else s1.overflow c k

/-- An event counts in every PMCn that names it at the present level (R550, R552). -/
def State.coreEvent (s : State) (c event : Nat) (by_ : Nat := 1) : State :=
  if by_ ≠ 0 ∧ s.counting c then
    [0, 1, 2, 3, 4, 5, 6, 7].foldl (fun s k =>
      let sel := s.sr c (Sr.PMSEL k)
      if sel % 256 = event ∧ sel.testBit (8 + (s.core c).pl.toNat) then s.counter c k by_ else s) s
  else s

/-- Core cycles counted up to now, in PMCYC and as event 0x01, and with the store buffer full as event 0x10. -/
def State.syncCycles (s : State) (c : Nat) : State :=
  match (s.core c).cycSince with
  | some t =>
    let n := s.cyclesIn c (s.clk - t)
    let s1 := s.setCore c { s.core c with cycSince := if s.counting c then some s.clk else none }
    let s2 := if n = 0 then s1 else (s1.counter c 8 n).coreEvent c 1 n
    if 24 ≤ (s.core c).stores.length then s2.coreEvent c 16 n else s2
  | none => if s.counting c then s.setCore c { s.core c with cycSince := some s.clk } else s

/-- Entry k leaves the store buffer; once it is empty a fence that waits for that is complete, and a pending interrupt may be taken. -/
def State.popStore (s : State) (c k : Nat) : State :=
  let s0 := if 24 ≤ (s.core c).stores.length then s.syncCycles c else s
  let x := s0.core c
  let left := x.stores.eraseIdx k
  let s1 := s0.setCore c { x with stores := left, drained := x.drained + 1, drainWait := x.drainWait && !left.isEmpty }
  if left.isEmpty then s1.recognise c else s1.kickDrain c 1

/-- An instruction has retired (R550, R552, R553). -/
def State.countRetired (s : State) (c : Nat) : State :=
  let s1 := s.syncCycles c
  let x := s1.core c
  let s2 :=
    if x.skidding then
      let v := x.sr Sr.PMU_SAMPLE
      let k := v % 32
      s1.setCore c (x.setSr Sr.PMU_SAMPLE (if k < 31 then v + 1 else putFld v 5 5 1))
    else s1
  if s2.counting c then (s2.counter c 9 1).coreEvent c 2 else s2

/-- COUNTER_OVERFLOW: a counter wraps. -/
def execCounterOverflow (c : CoreId) (ctr : BitVec 4) (s : State) : Host.Outcome State Fault Refusal :=
  let k := ctr.toNat
  if k < 10 ∧ s.counting c.val then .next ((s.setSr c.val (Sr.PMC k) 0).overflow c.val k) else .next s

/-- Every counter of the core set to zero (R551). -/
def Core.clearCounters (c : Core) : Core :=
  [0, 1, 2, 3, 4, 5, 6, 7, 8, 9].foldl (fun c k => c.setSr (Sr.PMC k) 0) c

/-- PMU_CLR. -/
def execPmuClr (c : CoreId) (s : State) : Host.Outcome State Fault Refusal :=
  let s1 := s.syncCycles c.val
  .next (s1.setCore c.val (s1.core c.val).clearCounters)

/-! ### Timers (R180) -/

/-- Vector 253 of a view follows once GT reaches TMR_PLx. GT may run fast meanwhile, by 500 ppm at most (R19), so the time is found anew
a little before it could come, until it has. -/
def State.armTimer (s : State) (c : Nat) (v : View) : State :=
  let t := s.sr c (Sr.TMR (viewNo v))
  if (s.core c).timerFired.contains v then s
  else if t ≤ s.now then s.send 0 (.timerVector (coreId c) v)
  else s.send (max 1 ((min (t - s.now) 4611686018427387904) * 999 / 1000)) (.timerVector (coreId c) v)

/-- GT has jumped: the timers that have been written, of every core that is up, are looked at again. -/
def State.armTimers (s : State) : State :=
  (s.cores.map (·.1)).foldl (fun s c =>
    if s.coreUp c then
      [View.one, .two, .three].foldl (fun s v => if s.sr c (Sr.TMR (viewNo v)) = 2 ^ 64 - 1 then s else s.armTimer c v) s
    else s) s

/-- TIMER_VECTOR: raised once for each write of TMR_PLx. -/
def execTimerVector (c : CoreId) (view : View) (s : State) : Host.Outcome State Fault Refusal :=
  let x := s.core c.val
  let n := viewNo view
  if x.timerFired.contains view ∨ ¬ s.coreUp c.val then .next s
  else if x.sr (Sr.TMR n) ≤ s.now then
    .next ((s.setCore c.val { x with timerFired := view :: x.timerFired }).pend c.val n 253)
  else .next (s.armTimer c.val view)

/-! ### Deadline slack (R187) -/

/-- S of an access at a level, in 4 ns units. -/
def Core.slack (c : Core) (pl : Nat) : Nat :=
  if pl ≥ 2 then c.ef (Sr.DLSLACK pl) else max (c.ef (Sr.DLSLACK pl)) (c.ef Sr.DLSFLOOR)

/-- The stamp of an access issued now with slack S. -/
def State.stampWith (s : State) (slack : Nat) : Stamp := s.clampStamp (s.now + 4 * slack)

/-- A main core as a requester. -/
def Core.requester (c : Core) (n : Nat) : Requester := { agent := .core (coreId n), pl := c.pl, eid := BitVec.ofNat 6 c.eid }

end Sys2Proof.Machine
end

