-- ==== Sys2Proof/Machine/RegWrite.lean ====
section
/-!
DEFINITION. Sys2Proof/Machine/RegWrite.lean: the write of a register by the types of R12, with the locked fields of R491 to R494.
-/
namespace Sys2Proof.Machine

/-- The unit of an area that a register belongs to (R491). -/
def areaUnit (area a i j : Nat) : Nat :=
  match area with
  | 8 => (a - 0x51000000) / 0x10000
  | 12 => 0
  | 14 => i * 4 + j / 256
  | 16 => 0
  | 17 => 0
  | _ => i

/-- The sticky LOCKED_WRITE flag of an area's unit: register and bit (R494); the router, GT and the switch have none. -/
def lockFlag (area unit : Nat) : Option (Nat × Nat) :=
  match area with
  | 1 => some (Reg.PHB_STATUS unit, 9)
  | 2 => some (Reg.CMP_STATUS unit, 4)
  | 3 => some (Reg.CAP_STATUS unit, 3)
  | 4 => some (Reg.SDF_STATUS unit, 5)
  | 5 => some (Reg.PIN_STATUS unit, 7)
  | 6 => some (Reg.PIN_BANK_STATUS unit, 3)
  | 7 => some (Reg.PCC_STATUS unit, 9)
  | 8 => some (Reg.ARB_STATUS unit, 4)
  | 10 => some (Reg.PORT_IRQ_STATUS unit, 3)
  | 11 => some (Reg.PORT_IRQ_STATUS unit, 3)
  | 13 => some (Reg.PT_IRQ_STATUS, 2)
  | 14 => some (Reg.MC_IRQ_STATUS (unit / 4), 3)
  | 15 => some (Reg.MC_IRQ_STATUS unit, 3)
  | 17 => some (Reg.PAIR_IRQ_STATUS, 3)
  | 18 => some (Reg.QE_STATUS unit, 15)
  | _ => none

/-- The contact-sheet unit that owns an area's unit (R352). -/
def State.areaUnitCode (s : State) (area unit : Nat) : Word32 :=
  match area with
  | 1 => dieUnit 20 unit
  | 2 => unitCmp unit
  | 3 => dieUnit 17 unit
  | 4 => dieUnit 18 unit
  | 5 => unitPin unit
  | 6 => unitBank unit
  | 7 => s.unitPc unit
  | 8 => unitArb unit
  | 9 => dieUnit 15 0
  | 10 => unitPort unit
  | 11 => unitPort unit
  | 12 => unitSwitch
  | 13 => unitPoints
  | 14 => unitMc (unit / 4)
  | 15 => unitMc unit
  | 16 => dieUnit 25 0
  | 17 => dieUnit 11 0
  | 18 => unitQe unit
  | _ => dieUnit 23 0

/-- The bits of a register that are locked: by LOCK_REGION (R493), or for a pin by its LOCK bit (R79). -/
def State.lockedBits (s : State) (d : RegDesc) (a i j : Nat) : Nat :=
  if d.area = 0 then 0
  else if s.locks.contains (d.area, areaUnit d.area a i j) then d.cover
  else if d.area = 5 ∧ s.rb (Reg.PIN_CFG i) 31 = true then d.cover
  else 0

/-- A locked field is written with another value than it holds: the flag is set and an entry written (R494). -/
def State.lockedWrite (s : State) (area unit a : Nat) : State :=
  let s1 :=
    match lockFlag area unit with
    | some (r, b) => s.wb r b true
    | none => s
  s1.log .lockedWrite (s.areaUnitCode area unit) a

/-- The value a register takes from a write, field by field: RW and unlocked RWL bits store, W1C bits clear where 1 is written,
every other bit stays (R12, R13). -/
def storedValue (d : RegDesc) (locked old v : Nat) : Nat :=
  let store := (d.rw ||| d.rwl) &&& ((2 ^ 64 - 1) ^^^ locked)
  let keep := (2 ^ 64 - 1) ^^^ store
  (old &&& keep &&& ((2 ^ 64 - 1) ^^^ (d.w1c &&& v))) ||| (v &&& store)

/-- No field of the register at an address is locked (R79, R493). -/
def State.unlockedAt (s : State) (a : Nat) : Bool :=
  match regFind a with
  | none => true
  | some (d, i, j) => s.lockedBits d a i j == 0

/-- A write of a register that has no effect beyond its fields. An address that holds no register ignores it (R9). -/
def State.storeReg (s : State) (a v : Nat) : State :=
  match regFind a with
  | none => s
  | some (d, i, j) =>
    let v := if d.wide then v % 2 ^ 64 else v % 2 ^ 32
    let old := s.rd a
    let locked := s.lockedBits d a i j
    let s1 := s.wr a (storedValue d locked old v)
    if (v ^^^ old) &&& locked = 0 then s1 else s1.lockedWrite d.area (areaUnit d.area a i j) a

/-- Whether a write would alter a locked field (R480 step 5, R494). -/
def State.writeIsLocked (s : State) (a v : Nat) : Bool :=
  match regFind a with
  | none => false
  | some (d, i, j) => (v ^^^ s.rd a) &&& s.lockedBits d a i j != 0

end Sys2Proof.Machine
end

