-- ==== Sys2Proof/Machine/Counters.lean ====
section
/-!
DEFINITION. Sys2Proof/Machine/Counters.lean: the unit counter banks, the shutter and the freeze (R554 to R556). The counters of a main
core stand in CoreBase.lean.
-/
namespace Sys2Proof.Machine

/-! ### Unit counter banks (R554) -/

/-- The block of a bank's unit. -/
def bankBlock : BankUnit → Nat
  | .hs h => Reg.HS_CFG h.val
  | .mc m => Reg.MC_CFG m.val
  | .arb a => Reg.ARB_CTRL a.val

/-- The banks of the device. -/
def bankBlocks : List Nat :=
  (List.range 64).map Reg.HS_CFG ++ (List.range 8).map Reg.MC_CFG ++ (List.range 14).map Reg.ARB_CTRL

/-- The event of a bank whose clocks run now, and since when they are still to be counted: a full queue, or back-pressure. -/
def State.runningEvent (s : State) (block : Nat) : Option (Nat × Nat) :=
  if 0x52000000 ≤ block then (s.home ((block - 0x52000000) / 0x10000)).full.map (6, ·)
  else if 0x51000000 ≤ block then (s.arb ((block - 0x51000000) / 0x10000)).bpSince.map (4, ·)
  else (s.mc ((block - 0x50000000) / 0x10000)).full.map (6, ·)

/-- What counter k of a bank holds at this clock. -/
def State.bankCount (s : State) (block k : Nat) : Nat :=
  let v := s.rd (block + 0x820 + 8 * k)
  match s.runningEvent block with
  | some (e, t) =>
    if s.rb (block + 0x800) 0 ∧ ¬ s.rb Reg.GT_PMU_FREEZE 0 ∧ s.rf (block + 0x810 + 4 * k) 7 0 = e then (v + meshClocks t s.clk) % 2 ^ 48 else v
  | none => v

/-- The clocks that run are counted up to now, before what counts them changes. -/
def State.settleBank (s : State) (block : Nat) : State :=
  match s.runningEvent block with
  | some (e, t) =>
    let s1 := s.bankEvent block e (meshClocks t s.clk)
    if 0x52000000 ≤ block then
      let h := (block - 0x52000000) / 0x10000
      s1.putHome h { s1.home h with full := some s.clk }
    else if 0x51000000 ≤ block then
      let a := (block - 0x51000000) / 0x10000
      (s1.setArb a { s1.arb a with bpSince := some s.clk }).tally (Reg.ARB_BP_CYCLES a) (meshClocks t s.clk)
    else
      let n := (block - 0x50000000) / 0x10000
      s1.putMc n { s1.mc n with full := some s.clk }
  | none => s

/-- A write of a bank's selectors or counters. -/
def State.writeBankReg (s : State) (block a v : Nat) : State := (s.settleBank block).storeReg a v

/-- The registers of a bank of counters, but for its control: within 0x810 to 0x83F of its block. -/
def bankReg (a : Nat) : Bool := decide (0x810 ≤ a % 0x10000 ∧ a % 0x10000 < 0x840)

/-- A read of a register of a bank. -/
def State.readBank (s : State) (a : Nat) : Nat :=
  let block := a / 0x10000 * 0x10000
  let off := a % 0x10000
  if 0x820 ≤ off ∧ off < 0x840 then s.bankCount block ((off - 0x820) / 8) else s.rd a

/-- The four counters of a bank set to zero. -/
def State.clearBank (s : State) (block : Nat) : State :=
  [0, 1, 2, 3].foldl (fun s k => s.wr (block + 0x820 + 8 * k) 0) s

/-- A write of xx_PMB_CTRL. -/
def State.writePmb (s : State) (block v : Nat) : State :=
  let s1 := (s.settleBank block).storeReg (block + 0x800) v
  if v.testBit 1 then s1.clearBank block else s1

/-- PMB_CLR: CLR is written over EN as it stands. -/
def execPmbClr (bank : BankUnit) (_who : Requester) (s : State) : Host.Outcome State Fault Refusal :=
  let b := bankBlock bank
  .next (s.writePmb b (s.rf (b + 0x800) 0 0 + 2))

/-- PMB_WRAP: a counter of a bank that counts wraps, and its OVF bit sets. -/
def execPmbWrap (bank : BankUnit) (k : BitVec 2) (s : State) : Host.Outcome State Fault Refusal :=
  let b := bankBlock bank
  if s.rb (b + 0x800) 0 ∧ ¬ s.rb Reg.GT_PMU_FREEZE 0 then
    .next ((s.wr (b + 0x820 + 8 * k.toNat) 0).wb (b + 0x800) (8 + k.toNat) true)
  else .next s

/-! ### Shutter (R555) -/

/-- Every core's cycles are counted up to now. -/
def State.syncAll (s : State) : State := (List.range 96).foldl State.syncCycles s

/-- A core's counters copied to its shadows; a core that is not powered has none to copy. -/
def State.shadowCore (s : State) (seq c : Nat) : State :=
  if s.coreUp c then
    let x := [0, 1, 2, 3, 4, 5, 6, 7, 8, 9].foldl (fun (x : Core) k => x.setSr (Sr.PMS k) (x.sr (Sr.PMC k))) (s.core c)
    s.setCore c (x.setSr Sr.PMU_SHADOW (1 + seq * 2 ^ 16))
  else s

/-- A bank's counters copied to their shadows. -/
def State.shadowBank (s : State) (seq block : Nat) : State :=
  let s1 := [0, 1, 2, 3].foldl (fun s k => s.wr (block + 0x840 + 8 * k) (s.bankCount block k)) s
  s1.wf (block + 0x860) 31 16 seq

/-- A shutter of an instant. One that falls in the clock of the last is that shutter. -/
def State.shutter (s : State) (instant : Nat) : State :=
  if s.rb Reg.GT_SHUTTER_CTRL 2 ∧ s.rd Reg.GT_SHUTTER_GT = s.now then s
  else
    let seq := (s.rf Reg.GT_SHUTTER_CTRL 31 16 + 1) % 2 ^ 16
    let s1 := (List.range 96).foldl (fun s c => s.shadowCore seq c) s.syncAll
    let s2 := bankBlocks.foldl (fun s b => s.shadowBank seq b) s1
    ((s2.wf Reg.GT_SHUTTER_CTRL 31 16 seq).wb Reg.GT_SHUTTER_CTRL 2 true).wr Reg.GT_SHUTTER_GT instant

/-- An armed instant is looked for once GT reaches it. -/
def State.seekShutter (s : State) : State := s.send (s.rd Reg.GT_SHUTTER - s.now) .shutterTake

/-- ARM: an instant already past is taken at once. -/
def State.armShutter (s : State) : State := (s.wb Reg.GT_SHUTTER_CTRL 1 true).seekShutter

/-- A write of GT_SHUTTER replaces an armed instant. -/
def State.writeShutter (s : State) (v : Nat) : State :=
  let s1 := s.storeReg Reg.GT_SHUTTER v
  if s1.rb Reg.GT_SHUTTER_CTRL 1 then s1.seekShutter else s1

/-- A write of GT_SHUTTER_CTRL. -/
def State.writeShutterCtrl (s : State) (v : Nat) : State :=
  let s1 := s.storeReg Reg.GT_SHUTTER_CTRL v
  if v.testBit 0 then s1.armShutter else s1

/-- ARM. -/
def execArm (_who : Requester) (s : State) : Host.Outcome State Fault Refusal := .next (s.writeShutterCtrl 1)

/-- SHUTTER_TAKE: the armed instant has come. -/
def execShutterTake (s : State) : Host.Outcome State Fault Refusal :=
  if s.rb Reg.GT_SHUTTER_CTRL 1 then
    if s.now < s.rd Reg.GT_SHUTTER then .next s.seekShutter
    else .next ((s.wb Reg.GT_SHUTTER_CTRL 1 false).shutter (s.rd Reg.GT_SHUTTER))
  else .next s

/-! ### Freeze (R556) -/

/-- FREEZE takes a value: what has been counted so far stands, and counting stops or starts in this clock. -/
def State.setFreeze (s : State) (b : Bool) : State :=
  (((bankBlocks.foldl State.settleBank s).syncAll).wb Reg.GT_PMU_FREEZE 0 b).syncAll

/-- FREEZE. -/
def execFreeze (_who : Requester) (value : Word32) (s : State) : Host.Outcome State Fault Refusal :=
  .next (s.setFreeze (value.getLsbD 0))

end Sys2Proof.Machine
end

