-- ==== Sys2Proof/Machine/Contact.lean ====
section
/-!
DEFINITION. Sys2Proof/Machine/Contact.lean: the contact sheet's ring, its window and its mirror (R350 to R358).
-/
namespace Sys2Proof.Machine

/-- An event merges into an entry (R356). -/
def SheetEntry.merges (x : SheetEntry) (e : SheetEvent) : Bool :=
  x.valid && x.ev.cls == e.cls && x.ev.unit == e.unit && x.ev.addr == e.addr

/-- The ring with an event merged into the first of its newest 16 entries that it matches; none if there is none. -/
def mergeNewest (e : SheetEvent) : Nat → List SheetEntry → Option (Word32 × List SheetEntry)
  | 0, _ => none
  | _, [] => none
  | k + 1, x :: xs =>
    if x.merges e then
      some (x.seq, { x with repeats := if x.repeats = 0xFFFF then 0xFFFF else x.repeats + 1 } :: xs)
    else (mergeNewest e k xs).map fun r => (r.1, x :: r.2)

/-- An event released by the intake merges or makes a new entry (R350, R355, R356). -/
def Sheet.release (x : Sheet) (e : SheetEvent) : Sheet × Bool :=
  match mergeNewest e 16 x.ring with
  | some (seq, ring) => ({ x with ring := ring, toMirror := x.toMirror ++ [seq] }, false)
  | none =>
    let entry : SheetEntry := { ev := e, valid := true, lost := x.lostPending, repeats := 0, seq := x.seq }
    ({ x with ring := (entry :: x.ring).take 4096, seq := x.seq + 1, lostPending := false, toMirror := x.toMirror ++ [x.seq] }, true)

/-- CONTACT_EVENT: the intake releases its oldest event; a new entry raises source 2,902. -/
def execContactEvent (s : State) : Host.Outcome State Fault Refusal :=
  match s.sheet.intake with
  | [] => .next s
  | e :: rest =>
    let (sheet, fresh) := { s.sheet with intake := rest }.release e
    let s1 := { s with sheet := sheet }.send 10000 .mirrorCopy
    .next (if fresh then s1.source 2902 else s1)

/-- The 32 bytes of an entry (R351). -/
def SheetEntry.bytes (x : SheetEntry) : List Byte :=
  toBytes 8 x.ev.gt.toNat ++ toBytes 8 x.ev.addr.toNat ++ toBytes 4 x.ev.unit.toNat ++ toBytes 4 x.ev.synd.toNat ++
    [x.ev.cls, BitVec.ofNat 8 (b2n x.valid + 2 * b2n x.ev.scrub + 4 * b2n x.lost)] ++ toBytes 2 x.repeats.toNat ++
    toBytes 4 x.seq.toNat

/-- The entry that the ring holds at a slot. -/
def Sheet.slot (x : Sheet) (k : Nat) : Option SheetEntry := x.ring.find? fun e => e.seq.toNat % 4096 = k

/-- Bytes of the contact sheet's window, as a number; a slot never written reads 0 (R350). -/
def Sheet.read (x : Sheet) (off n : Nat) : Nat :=
  match x.slot (off / 32) with
  | some e => ofBytes ((e.bytes.drop (off % 32)).take n)
  | none => 0

/-- The address in DRAM of the mirror's copy of an entry (R358). -/
def Sheet.mirrorAddr (x : Sheet) (seq : Word32) : Nat := x.mirrorBase + seq.toNat % x.mirrorSize * 32

/-- MIRROR_COPY: Lemam presents the write of the oldest entry not yet copied to ARB_MC port 65 of its controller. -/
def execMirrorCopy (s : State) : Host.Outcome State Fault Refusal :=
  match s.sheet.toMirror with
  | [] => .next s
  | q :: rest =>
    let s1 := { s with sheet := { s.sheet with toMirror := rest } }
    let a := s.sheet.mirrorAddr q
    if s.sheet.mirrorSize = 0 ∨ ¬ s.inDram a then .next s1
    else
      let mc := (s.dramLoc a).mc
      .next (s1.present 1 mc 65 (s.defaultStamp mc 65) a 32 (.mirror q))

/-- The mirror's copy is written once its request is granted. -/
def State.mirrorWrite (s : State) (seq : Word32) : State :=
  match s.sheet.slot (seq.toNat % 4096) with
  | some e => if e.seq = seq then s.setBytes (s.sheet.mirrorAddr seq) e.bytes else s
  | none => s

/-- CONTACT_CLEAR: every entry reads with VALID 0 (R357). -/
def Sheet.clear (x : Sheet) : Sheet := { x with ring := x.ring.map fun e => { e with valid := false } }

end Sys2Proof.Machine
end

