-- ==== Sys2Proof/Machine/Translate.lean ====
section
/-!
DEFINITION. Sys2Proof/Machine/Translate.lean: the windows of R8, the tables and walks of R239 to R247, permissions and types
(R248 to R250), the order of the checks (R251 to R253) and the TLBs (R254, R255).
-/
namespace Sys2Proof.Machine

/-! ### Windows (R8, R160) -/

/-- The windows of R8. -/
inductive Win where
  | rom | monSram | rings | sheet | localMem | pcc | phase | gt | points | doorbell | queue | switch | mc | arb | hs | router
  | corePriv | pair | pvt | dram
deriving DecidableEq, Repr

/-- The window that holds an address. -/
def State.window (s : State) (a : Nat) : Option Win :=
  if a < 0x40000 then some .rom
  else if 0x1000000 ≤ a ∧ a < 0x1100000 then some .monSram
  else if 0x2000000 ≤ a ∧ a < 0x3000000 then some .rings
  else if 0x3000000 ≤ a ∧ a < 0x3020000 then some .sheet
  else if 0x10000000 ≤ a ∧ a < 0x11000000 then some .localMem
  else if 0x11000000 ≤ a ∧ a < 0x11100000 then some .pcc
  else if 0x12000000 ≤ a ∧ a < 0x13000000 then some .phase
  else if 0x13000000 ≤ a ∧ a < 0x14000000 then some .gt
  else if 0x20000000 ≤ a ∧ a < 0x20200000 then some .points
  else if 0x30000000 ≤ a ∧ a < 0x31000000 then some .doorbell
  else if 0x31000000 ≤ a ∧ a < 0x32000000 then some .queue
  else if 0x40000000 ≤ a ∧ a < 0x41000000 then some .switch
  else if 0x50000000 ≤ a ∧ a < 0x50080000 then some .mc
  else if 0x51000000 ≤ a ∧ a < 0x52000000 then some .arb
  else if 0x52000000 ≤ a ∧ a < 0x53000000 then some .hs
  else if 0x60000000 ≤ a ∧ a < 0x61000000 then some .router
  else if 0x61000000 ≤ a ∧ a < 0x61600000 then some .corePriv
  else if 0x70000000 ≤ a ∧ a < 0x71000000 then some .pair
  else if 0x71000000 ≤ a ∧ a < 0x72000000 then some .pvt
  else if s.inDram a then some .dram
  else none

/-- The least privilege level of a window (R8, R159, R160); the enclave page of a core private window is marked PL3 (R449). -/
def Win.level (w : Win) (a : Nat) : Nat :=
  match w with
  | .monSram => 3
  | .rings => 2
  | .queue => 2
  | .corePriv => if 0x8000 ≤ a % 0x10000 ∧ a % 0x10000 < 0x8100 then 3 else 0
  | _ => 0

/-- Whether a level may use a window: the queue-engine management window is open at PL2 and at no other level (R8, R388), and any other
window at its level and above. -/
def Win.admits (w : Win) (a pl : Nat) : Bool := if w = .queue then pl == 2 else decide (w.level a ≤ pl)

/-- The register windows: every window but the boot ROM, the monitor SRAM, the contact sheet, the local memories, the point image
and DRAM (R9). -/
def Win.registers : Win → Bool
  | .rom | .monSram | .sheet | .localMem | .points | .dram => false
  | _ => true

/-- Memory that the home slices serve. -/
def Win.homed : Win → Bool
  | .rom | .monSram | .dram => true
  | _ => false

/-! ### Faults -/

/-- A fault of an access: its code of R170, EADDR and ESYND. -/
structure CFault where
  code : Nat
  addr : Nat
  synd : Nat
deriving DecidableEq, Repr

/-- What an access does. -/
inductive AccKind where | load | store | fetch
deriving DecidableEq, Repr

def AccKind.code : AccKind → Nat
  | .load => 0
  | .store => 1
  | .fetch => 2

/-! ### Lines and what they hold for a core -/

/-- A core's miss asks the home for the line shared (R281); NC accesses read it once. -/
def State.ask (s : State) (c a : Nat) (nc : Bool) (pl slack : Nat) : State :=
  let x := s.core c
  let q : CohReq := { from_ := .core (coreId c), line := paddr (lineOf a), pl := BitVec.ofNat 2 pl, eid := BitVec.ofNat 6 x.eid
                      stamp := s.stampWith slack, dev := false, dirErr := .good }
  if nc then s.send reqNs (.readOnce q)
  else if (x.line a).isSome then s
  else ((s.setLine c a (some { st := .isD, data := 0, poison := false, acks := 0, granted := false, grantDirty := false })).send
    reqNs (.readShared q)).coreEvent c 12

/-- What a core reads from a line that the homes serve: its own copy, else the line as its readers see it. -/
def State.coreLine (s : State) (c a : Nat) : Line × Bool :=
  match (s.core c).line a with
  | some l => if l.st.valid then (l.data, l.poison) else (s.lineData a, s.poisoned (lineOf a))
  | none => (s.lineData a, s.poisoned (lineOf a))

/-! ### Outstanding loads and fetches (R228, R267, R299) -/

/-- The number under which a miss of a line is kept: reads that enter no cache apart from the others. -/
def missKey (a : Nat) (nc : Bool) : Nat := lineOf a / 64 * 2 + b2n nc

def Core.miss (c : Core) (k : Nat) : Option Miss := tabFind c.misses k
def Core.setMiss (c : Core) (k : Nat) (m : Miss) : Core := { c with misses := tabInsert k m (tabErase c.misses k) }

/-- The misses whose data have not come: of the 16 that a core may have (R228). -/
def Core.missesOut (c : Core) : Nat :=
  c.misses.foldl (fun n e => n + e.2.drop + b2n (e.2.wanted && e.2.got.isNone)) 0

/-- A load or fetch waits for the line. -/
def Core.want (c : Core) (k : Nat) : Core := c.setMiss k { drop := ((c.miss k).map (·.drop)).getD 0, wanted := true, got := none }

/-- No load or fetch waits any more: one has retired with what came, or entry has discarded it, and a read that enters no cache has its
answer dropped when it comes (R174). -/
def Core.dropMisses (c : Core) : Core :=
  { c with misses := c.misses.filterMap fun e =>
      let d := e.2.drop + b2n (e.2.wanted && e.2.got.isNone && e.1 % 2 == 1)
      if d = 0 then none else some (e.1, { drop := d, wanted := false, got := none }) }

/-- An answer for a line comes to the load or fetch that waits for it, if one does. -/
def Core.gets (c : Core) (k : Nat) (g : MissGot) : Core :=
  match c.miss k with
  | none => c
  | some m =>
    if k % 2 = 1 ∧ 0 < m.drop then
      if m.drop = 1 ∧ ¬ m.wanted then { c with misses := tabErase c.misses k } else c.setMiss k { m with drop := m.drop - 1 }
    else if m.wanted ∧ m.got.isNone then c.setMiss k { m with got := some g } else c

/-- What a load or fetch finds of a line: its data, a refusal, or nothing yet. -/
inductive LineGot where
  | data (line : Line) (poison : Bool)
  | refused (status : CohStatus)
  | wait
deriving DecidableEq, Repr

/-- What has come for a miss. -/
def Core.missGot (c : Core) (k : Nat) : Option LineGot :=
  match (c.miss k).bind (·.got) with
  | some (.data d p) => some (.data d p)
  | some (.refused st) => some (.refused st)
  | none => none

/-- The line of a load or a fetch: from the caches while it is in a stable state, else as it has come from its home. What is not there is
asked for and waited for; a line in a transient state is waited for, and in IS_D its miss is joined (R228, R298, R299). -/
def State.lineFor (s : State) (c a : Nat) (nc : Bool) (pl slack : Nat) : LineGot × State :=
  let x := s.core c
  let k := missKey a nc
  let held := if nc then none else x.line a
  let askNow := fun (s : State) =>
    if 16 ≤ x.missesOut then (LineGot.wait, s)
    else
      let s1 := s.ask c a nc pl slack
      (.wait, s1.setCore c ((s1.core c).want k))
  match held with
  | some l =>
    if l.st.stable then (.data l.data l.poison, s)
    else match x.missGot k with
      | some g => (g, s)
      | none => if l.st = .isD ∧ (x.miss k).isNone then (.wait, s.setCore c (x.want k)) else (.wait, s)
  | none =>
    match x.missGot k with
    | some g => (g, s)
    | none => if (x.miss k).any (·.wanted) then (if nc then (.wait, s) else askNow s) else askNow s

/-- The core holds a valid copy, so that no home checks the access (R295). -/
def State.holds (s : State) (c a : Nat) : Bool :=
  match (s.core c).line a with
  | some l => l.st.valid
  | none => false

/-- The home would refuse a read of the line by the core (R295). -/
def State.readRefused (s : State) (c a : Nat) : Bool :=
  !s.holds c a && s.inDram a && !s.ertPermits (s.core c).eid a false

/-! ### Walks (R241 to R247) -/

/-- A leaf found by a walk. -/
structure Leaf where
  out : Nat
  size : Nat
  type : MemType
  perm : Perm
  global : Bool
  level : Nat
deriving DecidableEq, Repr

/-- Why a walk ends. `S2` carries the IPA of the stage-1 entry that stage 2 did not give. -/
inductive WalkEnd where
  | fault (level reason : Nat)
  | s2 (perm : Bool) (level reason ipa : Nat)
  | poison (table : Nat)
  | denied
deriving DecidableEq, Repr

def memType (v : Nat) : MemType := match v with | 0 => .wb | 1 => .nc | _ => .dev

/-- The leaf that an entry holds at a level, or how it fails; none for a table. -/
def leafOf (stage2 : Bool) (level e input : Nat) : Except WalkEnd (Option Leaf) :=
  match e % 4 with
  | 0 => .error (.fault level 1)
  | 1 =>
    let mbz := fld e 11 11 + fld e 55 46 + (if stage2 then fld e 9 7 else fld e 9 9)
    let contig := e.testBit 10
    if level = 0 ∨ mbz ≠ 0 ∨ (contig ∧ level ≠ 3) then .error (.fault level 2)
    else
      let size := match level with | 1 => 30 | 2 => 21 | _ => if contig then 16 else 12
      let out := (fld e 45 12 * 4096) / 2 ^ size * 2 ^ size + input % 2 ^ size
      .ok (some { out := out, size := size, type := memType (fld e 3 2)
                  perm := { r := e.testBit 4, w := e.testBit 5, x := e.testBit 6, u := e.testBit 7 }
                  global := e.testBit 8, level := level })
  | 2 => .error (.fault level 2)
  | _ => if level = 3 then .error (.fault level 2) else .ok none

/-- A walk: `read` gives the entry at a table address, which for stage 1 it first translates. -/
def walk (stage2 : Bool) (read : State → Nat → Nat → Except WalkEnd Nat × State) (input : Nat) :
    Nat → State → Nat → Except WalkEnd Leaf × State
  | 0, s, _ => (.error (.fault 3 2), s)
  | fuel + 1, s, base =>
    let level := 3 - fuel
    let a := base + 8 * ((input >>> (39 - 9 * level)) % 512)
    match read s level a with
    | (.error e, s1) => (.error e, s1)
    | (.ok e, s1) =>
      match leafOf stage2 level e input with
      | .error x => (.error x, s1)
      | .ok (some l) => (.ok l, s1)
      | .ok none => walk stage2 read input fuel s1 (fld e 45 12 * 4096)

/-- A read of a table entry at a physical address for a core: in DRAM only, through its caches or not as WALK says (R246, R247). -/
def State.readTable (s : State) (c pl : Nat) (nc : Bool) (level a : Nat) : Except WalkEnd Nat × State :=
  if ¬ s.inDram a then (.error (.fault level 9), s)
  else if s.readRefused c a then (.error .denied, s)
  else
    let (data, poison) := s.coreLine c a
    let s1 := ((s.ask c a nc pl ((s.core c).slack pl)).coreEvent c 15)
    if poison then (.error (.poison a), s1) else (.ok (fld (data.toNat >>> (8 * (a % 64))) 63 0), s1)

/-- The stage-2 walk of an IPA for a core (R241). -/
def State.walk2 (s : State) (c pl ipa : Nat) : Except WalkEnd Leaf × State :=
  let x := s.core c
  let nc := fld (x.ef Sr.TCR2) 3 2 == 1
  walk true (fun s level a => s.readTable c pl nc level a) ipa 4 s (fld (x.ef Sr.TTB2) 45 12 * 4096)

/-- A read of a stage-1 entry, whose address stage 2 translates when it is on; R is needed there (R241, R246). -/
def State.readEntry1 (s : State) (c pl : Nat) (level ipa : Nat) : Except WalkEnd Nat × State :=
  let x := s.core c
  let nc := fld (x.ef Sr.TCR1) 3 2 == 1
  if (x.ef Sr.TCR2).testBit 0 then
    match s.walk2 c pl ipa with
    | (.error (.fault l r), s1) => (.error (.s2 false l r ipa), s1)
    | (.error e, s1) => (.error e, s1)
    | (.ok l, s1) => if l.perm.r then s1.readTable c pl nc level l.out else (.error (.s2 true l.level 5 ipa), s1)
  else s.readTable c pl nc level ipa

/-- The stage-1 walk of a virtual address. -/
def State.walk1 (s : State) (c pl va : Nat) : Except WalkEnd Leaf × State :=
  walk false (fun s level a => s.readEntry1 c pl level a) va 4 s (fld ((s.core c).ef Sr.TTB1) 45 12 * 4096)

/-! ### TLBs (R254, R255) -/

def allPerm : Perm := { r := true, w := true, x := true, u := true }

/-- An entry matches an access at PL0 or PL1. -/
def TlbEntry.hits (e : TlbEntry) (c : Core) (va : Nat) : Bool :=
  decide (e.vmid.toNat = fld (c.ef Sr.TTB2) 59 48) && (e.global || decide (e.asid.toNat = fld (c.ef Sr.TTB1) 63 48)) &&
    decide (e.vpage = va / 2 ^ e.size * 2 ^ e.size)

/-- The set of the L2 TLB that an entry is placed in, with its size. -/
def TlbEntry.set (e : TlbEntry) : Nat × Nat := (e.size, e.vpage / 2 ^ e.size % 256)

/-- An entry put first, so that the least recently used comes last. -/
def tlbPut (e : TlbEntry) (t : List TlbEntry) (n : Nat) : List TlbEntry := (e :: t.filter (· != e)).take n

/-- An entry put into the L2 TLB: of a full set of 8 ways the least recently used goes. -/
def tlbPut2 (e : TlbEntry) (t : List TlbEntry) : List TlbEntry :=
  let u := t.filter (· != e)
  let same := u.filter fun x => x.vpage / 2 ^ x.size % 256 = e.vpage / 2 ^ e.size % 256
  if same.length < 8 then e :: u else e :: u.filter fun x => x != same.getLastD e

/-- The core's TLBs after a hit on, or a walk that gave, an entry. -/
def Core.tlbUse (c : Core) (fetch : Bool) (e : TlbEntry) : Core :=
  let c1 := { c with l2tlb := tlbPut2 e c.l2tlb }
  if fetch then { c1 with itlb := tlbPut e c.itlb 48 } else { c1 with dtlb := tlbPut e c.dtlb 48 }

/-- The first-level TLB of an access, and then the second. -/
def Core.tlbFind (c : Core) (fetch : Bool) (va : Nat) : Option (TlbEntry × Bool) :=
  match (if fetch then c.itlb else c.dtlb).find? fun e => e.hits c va with
  | some e => some (e, true)
  | none => (c.l2tlb.find? fun e => e.hits c va).map fun e => (e, false)

/-! ### One part of an access (R240, R248, R249, R251 to R253) -/

/-- ESYND of a translation or permission fault (R252). -/
def syndOf (level reason : Nat) (k : AccKind) (s1walk cross : Bool) (size : Nat) : Nat :=
  level + reason * 4 + k.code * 2 ^ 6 + b2n s1walk * 2 ^ 8 + b2n cross * 2 ^ 9 + size * 2 ^ 10

/-- The fault that ends a walk. -/
def walkFault (stage2 : Bool) (k : AccKind) (cross : Bool) (size va ipa : Nat) : WalkEnd → CFault
  | .fault l r => if stage2 then ⟨8, ipa, syndOf l r k false cross size⟩ else ⟨6, va, syndOf l r k false cross size⟩
  | .s2 perm l r t => ⟨if perm then 9 else 8, t, syndOf l r k true cross size⟩
  | .poison _ => ⟨0x0B, va, 0⟩
  | .denied => ⟨0x0A, va, 0⟩

/-- A table read that returned poison is recorded with the table's address (R247, R344). -/
def State.walkLog (s : State) (c : Nat) : WalkEnd → State
  | .poison t => s.log .poisonUse (s.unitCore c) t
  | _ => s

/-- The reason for which a stage-1 leaf refuses an access (R248); none when it permits it. -/
def refuse1 (p : Perm) (pl : Nat) (k : AccKind) : Option Nat :=
  if pl = 0 ∧ ¬ p.u then some 8
  else if pl = 1 ∧ k = .fetch ∧ p.u then some 8
  else
    match k with
    | .load => if p.r then none else some 5
    | .store => if p.w then none else some 6
    | .fetch => if p.x then none else some 7

/-- The reason for which a stage-2 leaf refuses an access. -/
def refuse2 (p : Perm) (k : AccKind) : Option Nat :=
  match k with
  | .load => if p.r then none else some 5
  | .store => if p.w then none else some 6
  | .fetch => if p.x then none else some 7

/-- The stronger of two types (R249). -/
def stronger (a b : MemType) : MemType :=
  match a, b with
  | .dev, _ => .dev
  | _, .dev => .dev
  | .nc, _ => .nc
  | _, .nc => .nc
  | _, _ => .wb

/-- A translated part of an access. -/
structure Part where
  pa : Nat
  bytes : Nat
  type : MemType
deriving DecidableEq, Repr

/-- A physical address outside DRAM, the boot ROM and the monitor SRAM is always DEV (R249). -/
def State.typeAt (s : State) (a : Nat) (t : MemType) : MemType := if s.inHomed a then t else .dev

/-- The checks of an entry's permissions, and the part it gives (R248, R249, R251 steps 3 and 5). What the entry records applies: a stage
that took no part in its walk has level 0 there, and refuses nothing (R255). -/
def State.checkEntry (s : State) (e : TlbEntry) (pl va size bytes : Nat) (k : AccKind) (cross : Bool) : Except CFault Part :=
  let off := va % 2 ^ e.size
  let ipa := e.ipage + off
  let r1 := if k = .fetch ∧ e.type1 = .dev then some 7 else refuse1 e.perm1 pl k
  let r2 := if k = .fetch ∧ e.type2 = .dev then some 7 else refuse2 e.perm2 k
  match (if e.level1 = 0 then none else r1) with
  | some r => .error ⟨7, va, syndOf e.level1 r k false cross size⟩
  | none =>
    match (if e.level2 = 0 then none else r2) with
    | some r => .error ⟨9, ipa, syndOf e.level2 r k false cross size⟩
    | none => .ok { pa := e.ppage + off, bytes := bytes, type := s.typeAt (e.ppage + off) (stronger e.type1 e.type2) }

/-- A stage-1 leaf as an entry records it: while TCR1.WXN is 1 a page that can be written is not executable. -/
def Leaf.barred (l : Leaf) (wxn : Bool) : Leaf := if wxn && l.perm.w then { l with perm := { l.perm with x := false } } else l

/-- Walks for an address with no TLB entry, and the entry that the leaves give: it covers the smaller of the two pages, and 4 KiB when
only one stage applies (R255). -/
def State.walkEntry (s : State) (c pl va size : Nat) (k : AccKind) (cross : Bool) : Except CFault TlbEntry × State :=
  let x := s.core c
  let on1 := (x.ef Sr.TCR1).testBit 0
  let on2 := (x.ef Sr.TCR2).testBit 0
  let id1 : Leaf := { out := va, size := 30, type := .wb, perm := allPerm, global := false, level := 0 }
  let (r1, s1) := if on1 then s.walk1 c pl va else (.ok id1, s)
  match r1 with
  | .error e => (.error (walkFault false k cross size va va e), s1.walkLog c e)
  | .ok leaf =>
    let l1 := leaf.barred ((x.ef Sr.TCR1).testBit 1)
    let early := if on1 then (if k = .fetch ∧ l1.type = .dev then some 7 else refuse1 l1.perm pl k) else none
    match early with
    | some r => (.error ⟨7, va, syndOf l1.level r k false cross size⟩, s1)
    | none =>
      let id2 : Leaf := { out := l1.out, size := 30, type := .wb, perm := allPerm, global := false, level := 0 }
      let (r2, s2) := if on2 then s1.walk2 c pl l1.out else (.ok id2, s1)
      match r2 with
      | .error e => (.error (walkFault true k cross size va l1.out e), s2.walkLog c e)
      | .ok l2 =>
        let n := if on1 ∧ on2 then min l1.size l2.size else 12
        let m := 2 ^ n
        (.ok { vmid := BitVec.ofNat 12 (fld (x.ef Sr.TTB2) 59 48), asid := BitVec.ofNat 16 (fld (x.ef Sr.TTB1) 63 48)
               global := l1.global, size := n, vpage := va / m * m, ipage := l1.out / m * m, ppage := l2.out / m * m
               type1 := l1.type, type2 := l2.type, perm1 := l1.perm, perm2 := l2.perm, level1 := l1.level, level2 := l2.level }, s2)

/-- One part of an access, steps 1 to 5 of R251. An entry that matches serves every access at PL0 and PL1 (R255). -/
def State.translatePart (s : State) (c pl va size bytes : Nat) (k : AccKind) (cross : Bool) : Except CFault Part × State :=
  let x := s.core c
  let on1 := (x.ef Sr.TCR1).testBit 0
  let on2 := (x.ef Sr.TCR2).testBit 0
  if pl ≥ 2 then (.ok { pa := va, bytes := bytes, type := s.typeAt va .wb }, s)
  else if on1 ∧ ¬ (fld va 63 47 = 0 ∨ fld va 63 47 = 0x1FFFF) then (.error ⟨6, va, syndOf 0 3 k false cross size⟩, s)
  else if ¬ on1 ∧ fld va 63 46 ≠ 0 then (.error ⟨6, va, syndOf 0 4 k false cross size⟩, s)
  else
    let by_ := fun (s : State) (e : TlbEntry) =>
      match s.checkEntry e pl va size bytes k cross with
      | .error f => (.error f, s)
      | .ok p => (.ok p, s.setCore c ((s.core c).tlbUse (k == .fetch) e))
    match x.tlbFind (k == .fetch) va with
    | some (e, first) => by_ (if first then s else s.coreEvent c 13) e
    | none =>
      if ¬ on1 ∧ ¬ on2 then (.ok { pa := va, bytes := bytes, type := s.typeAt va .wb }, s)
      else
        match ((s.coreEvent c 13).coreEvent c 14).walkEntry c pl va size k cross with
        | (.error f, s1) => (.error f, s1)
        | (.ok e, s1) => by_ s1 e

/-! ### A whole access (R202, R250, R251) -/

/-- Step 7 of R251 for a part: it lies in a window that the level may use (R10, R160), and a fetch reaches memory only. Stores to
addresses in no window, or in one they may not use, fail at the target (R203). -/
def State.windowBad (s : State) (pl pa : Nat) (k : AccKind) : Bool :=
  k != .store && match s.window pa with
    | none => true
    | some w => !w.admits pa pl || (k == .fetch && !w.homed)

/-- Steps 1 to 7 of R251 for one part of an access to `whole`, of which it begins at `va`. -/
def State.checkPart (s : State) (c pl whole va size bytes : Nat) (k : AccKind) (reserved cross : Bool) : Except CFault Part × State :=
  match s.translatePart c pl va size bytes k cross with
  | (.error f, s1) => (.error f, s1)
  | (.ok p, s1) =>
    if whole % 2 ^ size ≠ 0 ∧ (reserved ∨ p.type = .dev) then (.error ⟨4, whole, 0⟩, s1)
    else if s1.windowBad pl p.pa k then (.error ⟨if k = .fetch then 3 else 5, va, 0⟩, s1)
    else if reserved ∧ p.type ≠ .wb then (.error ⟨5, va, 0⟩, s1)
    else (.ok p, s1)

/-- The parts of an access: the lower page, and the upper page of one that crosses. Every step is completed for the lower page before the
upper is checked (R251). -/
def State.translate (s : State) (c pl va size : Nat) (k : AccKind) (reserved : Bool) : Except CFault (List Part) × State :=
  let bytes := 2 ^ size
  let low := 4096 - va % 4096
  if bytes ≤ low then
    match s.checkPart c pl va va size bytes k reserved false with
    | (.ok p, s1) => (.ok [p], s1)
    | (.error f, s1) => (.error f, s1)
  else
    match s.checkPart c pl va va size low k reserved false with
    | (.error f, s1) => (.error f, s1)
    | (.ok p, s1) =>
      match s1.checkPart c pl va ((va + low) % 2 ^ 64) size (bytes - low) k reserved true with
      | (.error f, s2) => (.error f, s2)
      | (.ok q, s2) => (.ok [p, q], s2)

end Sys2Proof.Machine
end

