-- ==== Sys2Proof/Machine/CoreRun.lean ====
section
/-!
DEFINITION. Sys2Proof/Machine/CoreRun.lean: entry to exceptions and the return from them (R170 to R177), halts and
comparators (R541 to R544), the fetch, and what surrounds the effect of every instruction: the loop-end test and the latent window.
-/
namespace Sys2Proof.Machine

/-! ### Fetch -/

/-- What a fetch finds. -/
inductive Fetched where
  | ok
  | fault (f : CFault)
  | wait
deriving DecidableEq, Repr

/-- The fault of a load or fetch that its home has refused (R299). -/
def refusedCode : CohStatus → Nat
  | .denied => 0x0A
  | _ => 5

/-- The fetch of the instruction at an address, made at level pl (R196): its translation, window, enclave check and poison. -/
def State.fetchAt (s : State) (c pl va : Nat) : Fetched × State :=
  if va % 4 ≠ 0 then (.fault ⟨3, va, 0⟩, s)
  else
    match s.translate c pl va 2 .fetch false with
    | (.error f, s1) => (.fault f, s1)
    | (.ok ps, s1) =>
      match ps with
      | p :: _ =>
        let nc := p.type != .wb
        let old := (s1.core c).misses
        match s1.lineFor c p.pa nc pl ((s1.core c).slack pl) with
        | (.wait, s2) => (.wait, if (s2.core c).misses = old then s2 else s2.coreEvent c 10)
        | (.refused st, s2) => (.fault ⟨refusedCode st, va, 0⟩, s2)
        | (.data _ poison, s2) =>
          if poison then (.fault ⟨0x0B, va, 0⟩, s2.log .poisonUse (s.unitCore c) p.pa) else (.ok, s2)
      | [] => (.ok, s1)

/-! ### Entry (R170 to R173, R177) -/

/-- The level at which a cause is taken from a level (R170). -/
def entryLevel (code pl : Nat) : Nat :=
  match code with
  | 0x02 => if pl = 0 then 1 else if pl ≤ 2 then 2 else 3
  | 0x08 | 0x09 | 0x0D | 0x10 => 2
  | 0x0A => if pl ≤ 2 then 2 else 3
  | 0x0E | 0x11 => 3
  | _ => max 1 pl

/-- The six loop registers are saved at entry, and the counts cleared (R172 step 5). -/
def Core.saveLoops (c : Core) (t : Nat) : Core :=
  let c1 := [0, 1, 2, 3, 4, 5].foldl (fun x k => x.setSr (Sr.LSAVE t k) (c.sr (0x010 + k))) c
  (c1.setSr (Sr.LOOPCNT 0) 0).setSr (Sr.LOOPCNT 1) 0

/-- The registers that an entry to level t writes (R172 steps 3 to 6 and 8). -/
def Core.enter (c : Core) (t cause eaddr esynd elr : Nat) : Core :=
  let c1 := (c.setSr (Sr.ELR t) elr).setSr (Sr.ESTAT t) (c.pl.toNat + c.eid * 2 ^ 8)
  let c2 := ((c1.setSr (Sr.ECAUSE t) cause).setSr (Sr.EADDR t) eaddr).setSr (Sr.ESYND t) esynd
  { ((c2.saveLoops t).emptyLoopBuffer).dropMisses with
      reserved := none, pl := BitVec.ofNat 2 t, run := .running, drainWait := false, entering := none, compared := false }

/-- ECAUSE of an entry. -/
def causeWord (code vector : Nat) (intr latent : Bool) (from_ view : Nat) : Nat :=
  code + vector * 2 ^ 8 + b2n intr * 2 ^ 16 + b2n latent * 2 ^ 17 + from_ * 2 ^ 18 + view * 2 ^ 20

/-- The core stops until a core reset: a fault at entry to PL3 (R177). Nothing that debug has asked of it stays. -/
def State.coreStops (s : State) (c : Nat) : State :=
  let s1 := s.syncCycles c
  ((s1.setCore c { s1.core c with run := .stopped, stepping := false, haltReq := none, resumed := false }).log .coreFatal (s.unitCore c) 0).source (2912 + c)

/-- ENTRY_FAULT at PL3, with EADDR the failing address; a core that was entering PL3 stops (R177). -/
def State.entryFault (s : State) (c t addr elr : Nat) : State :=
  if t = 3 then s.coreStops c
  else
    let x := s.core c
    let x1 := x.enter 3 (causeWord 0x11 0 false false x.pl.toNat 0) addr 0 elr
    let target := x.sr (Sr.VBAR 3) + 0x200
    let s1 := s.setCore c { x1 with pc := BitVec.ofNat 64 target }
    match s1.fetchAt c 3 target with
    | (.ok, s2) => s2
    | (.fault _, s2) => s2.coreStops c
    | (.wait, s2) => s2.setCore c { s2.core c with entering := some 3 }

/-- Execution continues at the entry address of level t. A fetch there that is still to come is the handler's first. -/
def State.arriveAt (s : State) (c t target : Nat) : State :=
  let s1 := s.setCore c { s.core c with pc := BitVec.ofNat 64 target }
  match s1.fetchAt c t (target % 2 ^ 64) with
  | (.ok, s2) => s2
  | (.fault f, s2) => s2.entryFault c t f.addr (target % 2 ^ 64)
  | (.wait, s2) => s2.setCore c { s2.core c with entering := some t }

/-- A halted step ends at the handler's first instruction (R542). -/
def State.haltCore (s : State) (c reason : Nat) : State :=
  let s1 := s.syncCycles c
  let x := (s1.core c).commitAll
  let s2 := s1.setCore c { x.emptyLoopBuffer.dropMisses with
    run := .halted, haltReq := none, stepping := false, resumed := false, cycSince := none, drainWait := false, compared := false }
  (s2.wb (Reg.DBG_STATUS c) 0 true).wf (Reg.DBG_STATUS c) 3 1 reason

/-- A step under debug is complete: the core halts again with REASON 2. -/
def State.stepDone (s : State) (c : Nat) : State := if (s.core c).stepping then s.haltCore c 2 else s

/-- A synchronous exception (R172, R173): pending latent changes are committed, the level is that of R170, or PL3 while EID is not 0
(R171). `at_` overrides the level for DEBUG (R544). -/
def State.exception (s : State) (c : Nat) (f : CFault) (elr : Nat) (at_ : Option Nat := none) : State :=
  let s0 := s.syncCycles c
  let latent := !(s0.core c).latent.isEmpty
  let x := (s0.core c).commitAll
  let pl := x.pl.toNat
  let t := if x.eid ≠ 0 then 3 else at_.getD (entryLevel f.code pl)
  let x1 := x.enter t (causeWord f.code 0 false latent pl 0) f.addr f.synd elr
  let target := x.sr (Sr.VBAR t) + (if pl = t then 0 else 0x200)
  ((((s0.setCore c x1).arriveAt c t target).coreEvent c 20).recognise c).stepDone c

/-! ### Comparators (R543, R544) -/

/-- What a matching comparator asks for. -/
structure CmpHit where
  index : Nat
  act : Nat
  target : Nat
  trig : Option Nat
deriving DecidableEq, Repr

/-- The safelight rails are in range, so that comparators and halts act (R537). -/
def State.safelightUp (s : State) : Bool := s.modes.safelightUp

/-- The comparators of a core that match an access of some bytes at an address (R543). -/
def State.cmpHits (s : State) (c pl va bytes : Nat) (k : AccKind) : List CmpHit :=
  if ¬ s.safelightUp then []
  else
    (List.range 8).filterMap fun i =>
      let cfg := s.rd (Reg.DBG_CMP_CFG c i)
      let m := 2 ^ (min 48 (max 2 (fld cfg 8 3)))
      let base := s.rd (Reg.DBG_CMP_ADDR c i) / m * m
      let kind := fld cfg 2 1
      let kinds : Bool := match k with | .fetch => kind == 0 | .load => kind == 1 || kind == 3 | .store => kind == 2 || kind == 3
      if cfg.testBit 0 ∧ kinds ∧ cfg.testBit (9 + pl) ∧ va < base + m ∧ base < va + bytes then
        some { index := i, act := fld cfg 14 13, target := max 1 (fld cfg 16 15)
               trig := if cfg.testBit 17 then some (fld cfg 20 18) else none }
      else none

/-- Cross-trigger channels that matches signal fire within 30 ns (R546). -/
def State.signal (s : State) (hits : List CmpHit) : State :=
  hits.foldl (fun s h =>
    match h.trig with
    | some x => s.send 10 (.crossTrigger (Fin.ofNat 8 x))
    | none => s) s

/-- What the comparators that match an access do before it is performed: the state in which the instruction has been replaced by
DEBUG or a halt, or the state with which it goes on. -/
def State.compareAccess (s : State) (c pl va bytes : Nat) (k : AccKind) : Except State State :=
  let hits := s.cmpHits c pl va bytes k
  match hits with
  | [] => .ok s
  | h :: _ =>
    let s1 := (s.signal hits).wf (Reg.DBG_STATUS c) 6 4 h.index
    let pc := (s.core c).pc.toNat
    let halts := hits.any fun h => h.act == 1
    match hits.find? fun h => h.act == 0 with
    | some d =>
      if halts ∧ ¬ (s.core c).stepping then .error (s1.haltCore c 3)
      else .error (s1.exception c ⟨0x0F, va, 0⟩ pc (some (max d.target pl)))
    | none => if halts ∧ ¬ (s.core c).stepping then .error (s1.haltCore c 3) else .ok s1

/-! ### An instruction -/

/-- How the effect of an instruction ends. -/
inductive IRes where
  /-- it retires, and execution goes on at the next instruction, or at a target -/
  | next (s : State)
  | jump (s : State) (target : Word64)
  /-- it raises an exception and is not performed -/
  | fault (s : State) (f : CFault)
  /-- a call: the exception's ELR is the following instruction -/
  | call (s : State) (code imm : Nat)
  /-- it has not been performed: it waits -/
  | wait (s : State)
  /-- it has left the core in its final state -/
  | done (s : State)

/-- The fault ILLEGAL. -/
def illegal : CFault := ⟨0x01, 0, 0⟩
/-- The fault PRIV. -/
def privFault : CFault := ⟨0x02, 0, 0⟩
/-- The fault TRAP. -/
def trapFault : CFault := ⟨0x10, 0, 0⟩

/-- The core can execute an instruction at this boundary: no fence or TLBI waits, and the store buffer is not full, which stops retirement
(R231). -/
def State.ready (s : State) (c : Nat) : Bool :=
  let x := s.core c
  s.coreUp c && x.run == .running && x.haltReq.isNone && !x.drainWait && decide (x.stores.length < 24) && x.tlbi.isNone && !s.rb (Reg.ENC_STATUS c) 2 && s.modes.refclk

/-- A level of loop is open. -/
def Core.loopOpen (c : Core) (n : Nat) : Bool := c.sr (Sr.LOOPCNT n) != 0

/-- A loop address: the register holds bits [47:2] (R163), and bit 47 is copied upward as in every virtual address (R239; assumption 125). -/
def Core.loopAddr (c : Core) (n : Nat) : Nat := ((BitVec.ofNat 48 (c.sr n)).signExtend 64).toNat

/-- The bits of a loop address that its register holds. -/
def loopBits (a : Nat) : Nat := a % 2 ^ 48 / 4 * 4

/-- The instruction lies at the end of an open loop (R209). -/
def Core.atLoopEnd (c : Core) : Bool :=
  [0, 1].any fun n => c.loopOpen n && c.loopAddr (Sr.LOOPEND n) == c.pc.toNat

/-- A transfer to a target outside an open loop closes it, and empties the loop buffer if it leaves its body (R209, R236). -/
def Core.leaveLoops (c : Core) (target : Nat) : Core :=
  let c1 := [0, 1].foldl (fun x n =>
    if x.loopOpen n ∧ (target < x.loopAddr (Sr.LOOPBEG n) ∨ x.loopAddr (Sr.LOOPEND n) < target) then
      { x.setSr (Sr.LOOPCNT n) 0 with wholePass := x.wholePass.filter (· != n) } else x) c
  match c1.loopBuffer with
  | some (b, e) => if target < b.toNat ∨ e.toNat < target then { c1 with loopBuffer := none } else c1
  | none => c1

/-- A pass over the body of level n ends, and another begins. The loop buffer has captured a body of at most 64 instructions if all of
the pass was fetched (R236). -/
def Core.capture (c : Core) (n : Nat) : Core :=
  let b := c.loopAddr (Sr.LOOPBEG n)
  let e := c.loopAddr (Sr.LOOPEND n)
  let c1 := { c with wholePass := n :: c.wholePass.filter (· != n) }
  if (c.ef Sr.TCTL).testBit 2 ∨ e < b ∨ (e - b) / 4 + 1 > 64 ∨ ¬ c.wholePass.contains n then c1
  else { c1 with loopBuffer := some (BitVec.ofNat 64 b, BitVec.ofNat 64 e) }

/-- The last pass over the body of level n has ended. -/
def Core.endLoop (c : Core) (n : Nat) : Core :=
  { c.setSr (Sr.LOOPCNT n) 0 with loopBuffer := none, wholePass := c.wholePass.filter (· != n) }

/-- The loop-end test after an instruction at `pc` (R208): where execution continues. -/
def Core.loopEnd (c : Core) (pc next : Nat) : Core × Nat :=
  let level0 := fun (c : Core) =>
    if c.loopOpen 0 ∧ c.loopAddr (Sr.LOOPEND 0) = pc then
      let n := c.sr (Sr.LOOPCNT 0)
      if 1 < n then ((c.setSr (Sr.LOOPCNT 0) (n - 1)).capture 0, c.loopAddr (Sr.LOOPBEG 0))
      else (c.endLoop 0, next)
    else (c, next)
  if c.loopOpen 1 ∧ c.loopAddr (Sr.LOOPEND 1) = pc then
    let n := c.sr (Sr.LOOPCNT 1)
    if 1 < n then ((c.setSr (Sr.LOOPCNT 1) (n - 1)).capture 1, c.loopAddr (Sr.LOOPBEG 1))
    else level0 (c.endLoop 1)
  else level0 c

/-- The loop buffer holds the instruction at `pc`, so that it is not fetched (R236). -/
def Core.buffered (c : Core) (pc : Nat) : Bool :=
  match c.loopBuffer with
  | some (b, e) => decide (pc % 4 = 0 ∧ b.toNat ≤ pc ∧ pc ≤ e.toNat)
  | none => false

/-- The loop-back to `next` after the instruction at `pc` is served by the loop buffer, unless LBUF_OFF (R236, R237). -/
def Core.loopServed (c : Core) (pc next : Nat) : Bool :=
  !(c.ef Sr.TCTL).testBit 2 && c.loopBuffer == some (BitVec.ofNat 64 next, BitVec.ofNat 64 pc)

/-- What a core keeps of an instruction once it has retired: nothing of what it waited for. -/
def Core.settled (c : Core) : Core := { c.dropMisses with entering := none, compared := false }

/-- The instruction at `pc` retires: the loop-end test, unless it transferred control, and one instruction of every latent window. A
loop-back that the loop buffer serves is event 0x09. -/
def State.retire (s : State) (c pc : Nat) (target : Option Nat) : State :=
  let x := s.core c
  let x1 :=
    match target with
    | some t => { x.leaveLoops t with pc := BitVec.ofNat 64 t }
    | none =>
      let r := x.loopEnd pc (pc + 4)
      { r.1 with pc := BitVec.ofNat 64 r.2 }
  let s1 := (s.setCore c x1.settled.latentStep).countRetired c
  (if target.isNone && x1.loopServed pc x1.pc.toNat then s1.coreEvent c 9 else s1).stepDone c

/-- A call has retired: its instruction counts in every latent window, and a window that ends at it takes effect before the entry
(R165, R167). -/
def State.retireCall (s : State) (c : Nat) : State :=
  (s.setCore c (s.core c).settled.latentStep.latentEnd).countRetired c

/-- What surrounds every instruction: the end of latent windows, the fetch, the comparators, R209 for those it names, the effect, and
retirement or an exception. A core that cannot execute an instruction now does nothing (assumption 9). -/
def State.runInstr (s : State) (c : Nat) (notAtEnd : Bool) (op : State → IRes) : State :=
  let s0 := if (s.core c).latent.isEmpty then s else (s.setCore c (s.core c).latentEnd).recognise c
  if s0.ready c then
    let x := s0.core c
    let pc := x.pc.toNat
    match (if x.buffered pc then (.ok, s0) else s0.fetchAt c x.pl.toNat pc) with
    | (.wait, s1) => s1
    | (.fault f, s1) =>
      match x.entering with
      | some t => s1.entryFault c t f.addr pc
      | none => s1.exception c f pc
    | (.ok, s1) =>
      match (if x.compared then .ok s1 else s1.compareAccess c x.pl.toNat pc 4 .fetch) with
      | .error s2 => s2
      | .ok s2 =>
        if notAtEnd ∧ x.atLoopEnd then s2.exception c illegal pc
        else
          match op s2 with
          | .next s3 => s3.retire c pc none
          | .jump s3 t => s3.retire c pc (some t.toNat)
          | .fault s3 f => s3.exception c f pc
          | .call s3 code imm => (s3.retireCall c).exception c ⟨code, 0, imm⟩ ((pc + 4) % 2 ^ 64)
          | .wait s3 => s3.setCore c { s3.core c with compared := true }
          | .done s3 => s3
  else s0

/-- An instruction that reads registers and writes some of the core's registers. -/
def State.regInstr (s : State) (c : Nat) (f : Core → Core) : State :=
  s.runInstr c false fun s => .next (s.setCore c (f (s.core c)))

end Sys2Proof.Machine
end

