-- ==== Sys2Proof/Machine/GlobalTime.lean ====
section
/-!
DEFINITION. Sys2Proof/Machine/GlobalTime.lean: global time, its servo and its backup (R18 to R26, R46 to R49, R592, R593).
-/
namespace Sys2Proof.Machine

/-- ±500 ppm in units of 2^-32 ns per clock (R19). -/
def rateLimit : Int := 2147483

/-- An adjustment clamped under R19. -/
def clampRate (r : Int) : Int := max (-rateLimit) (min rateLimit r)

/-- The source of discipline in effect: `none` for FREE, and 0b11 acts as FREE (R23), as PAIR does on side A (R457). -/
def State.gtSource (s : State) : Option SyncSource :=
  match s.rf Reg.GT_CTRL 1 0 with
  | 1 => some (.port (Fin.ofNat 128 (s.rf Reg.GT_CTRL 14 8)))
  | 2 => if s.rb Reg.PAIR_CFG 0 then some .pair else none
  | _ => none

/-- The correction term beside ρ: toward the source as fast as R19 permits, zero when nothing is left to slew (R592). -/
def State.correction (s : State) : Int :=
  if s.gt.slew > 0 then max 0 (rateLimit - s.gt.rho)
  else if s.gt.slew < 0 then min 0 (-rateLimit - s.gt.rho) else 0

/-- What the correction term adds to GT in one clock: the adjustment applied less what ρ alone would apply (R592). -/
def State.slewRate (s : State) : Int := clampRate (s.gt.rho + s.correction) - clampRate s.gt.rho

/-- The adjustment asked for, before R19. -/
def State.rateAsked (s : State) : Int :=
  match s.gtSource with
  | none => toSigned 32 (s.rd Reg.GT_RATE_SW)
  | some _ => s.gt.rho + s.correction

/-- The adjustment in effect is worked out afresh: shown in GT_RATE_EFF, with RATE_CLAMPED set when more was asked (R19). -/
def State.applyRate (s : State) : State :=
  let r := s.rateAsked
  let s1 := s.wr Reg.GT_RATE_EFF (wrapTo 32 (clampRate r))
  if clampRate r ≠ r then s1.wb Reg.GT_STATUS 5 true else s1

/-- The outstanding correction is dropped (R593, R26). -/
def State.dropCorrection (s : State) : State :=
  ({ s with gt := { s.gt with slew := 0, slewed := 0 } }.wr Reg.GT_SLEW_REMAIN 0).wb Reg.GT_STATUS 3 false

/-- GT_CTRL (R593). A change to FREE with GT_RATE_SW beyond the limit is itself a request for more than R19 permits, and sets
RATE_CLAMPED; otherwise the write leaves that flag (DEDUCED, assumption 12). -/
def State.writeGtCtrl (s : State) (v : Nat) : State :=
  let old := s.gtSource
  let inEffect := toSigned 32 (s.rd Reg.GT_RATE_EFF) - s.slewRate
  let s1 := s.storeReg Reg.GT_CTRL v
  if s1.gtSource = old then s1
  else
    let s2 := (s1.dropCorrection).wb Reg.GT_STATUS 2 false
    match s1.gtSource with
    | none => s2.applyRate
    | some _ =>
      { s2 with gt := { s2.gt with rho := inEffect, measured := 0, good := 0, lastMessage := s.gt.now, lost := false } }.applyRate

/-- GT_CTRL: a write of the discipline register. -/
def execGtCtrl (_who : Requester) (value : Word32) (s : State) : Host.Outcome State Fault Refusal :=
  .next (s.writeGtCtrl value.toNat)

/-- The residual drift of an interval as a change of ρ in 2^-32 ns per clock (R592). -/
def drift (offset lastOffset slewed elapsed : Int) : Int :=
  if elapsed ≤ 0 then 0 else ((offset - lastOffset) * 2 ^ 32 + slewed).tdiv elapsed

/-- What follows from the size of a measured offset: SYNC_LOCKED after eight good intervals, which ends TIME_ESTIMATED, and its loss
above 1 µs (R25, R48). -/
def State.judgeOffset (s : State) (offset : Int) : State :=
  let good := if offset.natAbs ≤ 100 then min 8 (s.gt.good + 1) else 0
  let s1 := { s with gt := { s.gt with good := good } }
  if offset.natAbs > 1000 then s1.wb Reg.GT_STATUS 2 false
  else if good = 8 then (s1.wb Reg.GT_STATUS 2 true).wb Reg.GT_STATUS 0 false else s1

/-- A measurement of the servo (R24, R25, R592): the first after a start records the offset only. -/
def State.measure (s : State) (offset : Int) : State :=
  let g := s.gt
  let d := drift offset g.lastOffset g.slewed ((s.now : Int) - g.lastMeasure.toNat)
  let rho := match g.measured with
    | 0 => g.rho
    | 1 => g.rho + d
    | _ => g.rho + d.tdiv 8
  let g1 := { g with rho := rho, slewed := 0, measured := min 2 (g.measured + 1),
                     lastOffset := offset, lastMeasure := g.now, lastMessage := g.now, lost := false }
  let s1 := { s with gt := g1 }.wr Reg.GT_OFFSET (wrapTo 64 offset)
  let s2 := if g.measured = 0 then s1
    else ({ s1 with gt := { s1.gt with slew := offset * 2 ^ 32 } }.wr Reg.GT_SLEW_REMAIN (wrapTo 64 offset)).wb
      Reg.GT_STATUS 3 (decide (offset ≠ 0))
  (s2.judgeOffset offset).applyRate

/-- A measurement that the device meets with a forward step of GT, and so with no correction: the offset is written, the message
counted, and what is left to measure from is 0 (R24, R26, R458). -/
def State.measureStepped (s : State) (offset : Int) : State :=
  let g := s.gt
  let g1 := { g with measured := max 1 g.measured, lastOffset := 0, lastMeasure := g.now, lastMessage := g.now, lost := false }
  ((({ s with gt := g1 }.dropCorrection).wr Reg.GT_OFFSET (wrapTo 64 offset)).judgeOffset offset).applyRate

/-- SYNC: a message of the selected source measures the offset; a message of any other source steers nothing (R23). -/
def execSync (src : SyncSource) (offset : Word64) (interval : Word32) (s : State) : Host.Outcome State Fault Refusal :=
  if s.gtSource = some src then
    let s1 := match src with
      | .port _ => { s with gt := { s.gt with interval := interval.toNat } }
      | .pair => s
    .next (s1.measure offset.toInt)
  else .next s

/-- Twice the synchronisation interval in use, in hundredths of a ns (R26): 32 link groups of 81.92 ns for PAIR. -/
def State.syncInterval (s : State) : Nat :=
  match s.gtSource with
  | some .pair => 262144
  | _ => s.gt.interval * 100

/-- The instant at which R26 is met: the last message plus (HOLDOFF + 0.5) intervals; HOLDOFF 0 acts as 3 (R51). -/
def State.holdoffMet (s : State) : Bool :=
  let h := s.rf Reg.GT_CTRL 19 16
  let h := if h = 0 then 3 else h
  decide (s.now * 200 ≥ s.gt.lastMessage.toNat * 200 + (2 * h + 1) * s.syncInterval)

/-- The source of discipline is lost: the rate ratio is held with no correction (R26). -/
def State.sourceLost (s : State) : State :=
  let s1 := ((s.dropCorrection).wb Reg.GT_STATUS 4 true).wb Reg.GT_STATUS 2 false
  { s1 with gt := { s1.gt with measured := 0, good := 0, lost := true } }.applyRate

/-- SRC_LOST: HOLDOFF expires while a servo source is selected. -/
def execSrcLost (s : State) : Host.Outcome State Fault Refusal :=
  if s.gtSource.isSome ∧ s.holdoffMet then .next s.sourceLost else .next s

/-- SLEW_COMPLETE: nothing is left to slew. -/
def execSlewComplete (s : State) : Host.Outcome State Fault Refusal :=
  if s.gt.slew = 0 ∧ s.rb Reg.GT_STATUS 3 = true then .next (s.dropCorrection.applyRate) else .next s

/-- GT counts: the reference runs and the PLLs are locked. -/
def State.gtCounts (s : State) : Bool := s.modes.refclk && s.modes.pll

/-- RTC_TICK: the count advances, and the backup of GT is refreshed while GT counts; a GT that stands still is held already, and its
backup stays that of the last tick before it stopped, from which R48 counts (R46, R48; assumption 11). -/
def execRtcTick (s : State) : Host.Outcome State Fault Refusal :=
  let rtc := s.gt.rtc + 1
  .next { s with gt :=
    if s.gtCounts then { s.gt with rtc := rtc, backup := s.gt.now, backupRtc := rtc, backupValid := true }
    else { s.gt with rtc := rtc } }

/-- One clock of the accumulator of R18: the integer part it adds, and what the correction has slewed (R592). -/
def State.gtTick (s : State) : State :=
  let corr := match s.gtSource with
    | none => 0
    | some _ => s.slewRate
  let adj := clampRate s.rateAsked
  let total := (s.gt.frac.toNat : Int) + 2 ^ 32 + adj
  let left := if corr = 0 then s.gt.slew
    else if s.gt.slew.natAbs ≤ corr.natAbs then 0 else s.gt.slew - corr
  let g := { s.gt with now := BitVec.ofInt 64 (s.now + total / 2 ^ 32), frac := BitVec.ofInt 32 total,
                       slew := left, slewed := s.gt.slewed + corr }
  let s1 := { s with gt := g }
  if corr = 0 then s1
  else
    let s2 := s1.wr Reg.GT_SLEW_REMAIN (wrapTo 64 (left.tdiv (2 ^ 32)))
    if left = 0 then s2.send 0 .slewComplete else s2

/-- GT advanced from the backup and the RTC; never below the held value; a lost backup restarts GT at 0 (R48, R49). From then on
GT_RATE_EFF shows the adjustment being applied (R52). -/
def State.gtAdvance (s : State) : State :=
  if s.gt.backupValid then
    let ticks := (s.gt.rtc - s.gt.backupRtc).toNat
    let est := s.gt.backup.toNat + ticks * 1953125 / 64
    let gt := max est s.gt.held.toNat
    ((({ s with gt := { s.gt with now := BitVec.ofNat 64 gt, frac := 0 } }).wr Reg.GT_RTC_ELAPSED ticks).wb
      Reg.GT_STATUS 0 true).applyRate
  else
    ((({ s with gt := { s.gt with now := 0, frac := 0, held := 0 } }).wb Reg.GT_STATUS 1 true).wb Reg.GT_STATUS 0 true).applyRate

end Sys2Proof.Machine
end

