-- ==== Sys2Proof/Machine/PhaseBase.lean ====
section
/-!
DEFINITION. Sys2Proof/Machine/PhaseBase.lean: the phase bases, their four sources, the crossings of compares and projection
(R33 to R45, R62, R592 to R594).
-/
namespace Sys2Proof.Machine

def State.base (s : State) (b : Nat) : Base := tabGet {} s.bases b
def State.setBase (s : State) (b : Nat) (x : Base) : State := { s with bases := tabSet {} s.bases b x }

/-- The four sources (R34). -/
def srcMains : Nat := 0
def srcEncoder : Nat := 1
def srcStream : Nat := 2
def srcTime : Nat := 3

/-- PHB_CTRL.EN. -/
def State.baseOn (s : State) (b : Nat) : Bool := s.rb (Reg.PHB_CTRL b) 0
/-- The source in effect (R34). -/
def State.baseSrc (s : State) (b : Nat) : Nat := s.rf (Reg.PHB_STATUS b) 11 10

/-- The line that a base's value follows now: its value at an anchor in 2^-32 counts, the anchor's GT and the rate. -/
def State.baseLine (s : State) (b : Nat) : Int × Word64 × Int :=
  let x := s.base b
  if !s.baseOn b then (x.anchor, 0, 0)
  else if s.baseSrc b = srcTime then (x.anchor, x.enGt, s.rd (Reg.PHB_TIME_RATIO b))
  else if s.baseSrc b = srcEncoder ∨ s.rb (Reg.PHB_STATUS b) 3 = true then (x.anchor, 0, 0)
  else (x.anchor, x.anchorGt, x.rate)

/-- The value of a line at a GT, in 2^-32 counts, before it is taken modulo 2^48. -/
def lineAt (l : Int × Word64 × Int) (gt : Nat) : Int := l.1 + l.2.2 * ((gt : Int) - l.2.1.toNat)

/-- The base's value in 2^-32 counts at a GT on its present line, before it is taken modulo 2^48. -/
def State.baseAt (s : State) (b gt : Nat) : Int := lineAt (s.baseLine b) gt

/-- The base's value now, 48 bits (R33). -/
def State.baseValue (s : State) (b : Nat) : Nat := wrapTo 48 (s.baseAt b s.now / 2 ^ 32)

/-- The value that a base had at a GT that is past: on the line that it followed then (R82). -/
def State.baseThen (s : State) (b gt : Nat) : Nat :=
  let l := if s.now ≤ gt then s.baseLine b
    else (((s.base b).past.find? fun e => decide (e.1.toNat ≤ gt)).map (·.2)).getD (s.baseLine b)
  wrapTo 48 (lineAt l gt / 2 ^ 32)

/-- A base that counts, or has counted, notes the line that it begins a phase clock on. -/
def State.noteLine (s : State) (b : Nat) : State :=
  let x := s.base b
  let l := s.baseLine b
  if (!s.baseOn b && x.past.isEmpty) || x.past.head?.map (·.2) == some l then s
  else s.setBase b { x with past := ((s.gt.now, l) :: x.past).take 16 }

/-! ### Crossings and projection -/

/-- The compares whose ARM is 1. -/
def State.armed (s : State) : List Nat :=
  s.regs.filterMap fun e =>
    if Reg.CMP_CTRL 0 ≤ e.1 ∧ e.1 < Reg.CMP_CTRL 1024 ∧ (e.1 - Reg.CMP_CTRL 0) % 0x40 = 0 ∧ e.2.toNat % 2 = 1 then
      some ((e.1 - Reg.CMP_CTRL 0) / 0x40) else none

/-- BIND: 0 to 15 a base, 16 GT, above neither (R66). -/
def State.cmpBind (s : State) (n : Nat) : Nat := s.rf (Reg.CMP_CTRL n) 9 5

/-- DIR: up and down arming, 0b00 acting as up (R91). -/
def State.cmpUp (s : State) (n : Nat) : Bool := s.rf (Reg.CMP_CTRL n) 2 1 != 2
def State.cmpDown (s : State) (n : Nat) : Bool := s.rb (Reg.CMP_CTRL n) 2

/-- A signed 48-bit difference (R33). -/
def diff48 (a b : Nat) : Int := toSigned 48 (wrapTo 48 ((a : Int) - b))

/-- Whether a compare bound to a base crosses in an armed direction when the base goes from `old` to `new` (R62). -/
def State.crossesBase (s : State) (n old new : Nat) : Bool :=
  let c := s.rd (Reg.CMP_VALUE n) % 2 ^ 48
  (s.cmpUp n && decide (diff48 c old > 0 ∧ diff48 c new ≤ 0)) ||
  (s.cmpDown n && decide (diff48 c old < 0 ∧ diff48 c new ≥ 0))

/-- Whether a jump of a base from `old` by `d` counts passes a compare: the values up to and with the last in the sense of the jump,
with arming that includes it (R28, R40). -/
def State.jumpsBase (s : State) (n old : Nat) (d : Int) : Bool :=
  let c : Nat := s.rd (Reg.CMP_VALUE n) % 2 ^ 48
  let ahead := wrapTo 48 ((c : Int) - (old : Int))
  let behind := wrapTo 48 ((old : Int) - (c : Int))
  if d > 0 then s.cmpUp n && decide (0 < ahead ∧ (ahead : Int) ≤ d)
  else s.cmpDown n && decide (0 < behind ∧ (behind : Int) ≤ -d)

/-- Whether a compare bound to GT crosses as GT goes from `old` to its present value (R62). -/
def State.crossesGt (s : State) (n old : Nat) : Bool :=
  s.cmpBind n == 16 && s.cmpUp n && decide (old < s.rd (Reg.CMP_VALUE n) ∧ s.rd (Reg.CMP_VALUE n) ≤ s.now)

/-- Compares found to cross are noted for this phase clock, and their matches wait (R63, R65). -/
def State.noteCrossed (s : State) (ns : List Nat) (jumped : Bool) : State :=
  ns.foldl (fun s n =>
    { s with crossed := s.crossed ++ [(n, jumped, s.clk)] }.send 0 (.compareMatch (Fin.ofNat 1024 n))) s

/-- PHB_STATUS.DIR shows the sense of the last change of the value (R58). -/
def State.showSense (s : State) (b : Nat) (d : Int) : State := if d = 0 then s else s.wb (Reg.PHB_STATUS b) 8 (decide (d < 0))

/-- A base moved by an update in the present phase clock; the first move of the clock keeps the value at its start. -/
def State.noteMove (s : State) (b old : Nat) (d : Int) (jumped : Bool) : State :=
  let x := s.base b
  let old := match x.lastMove with
    | some (k, o, _, j) => if k = s.clk ∧ ¬ j ∧ ¬ jumped then o else old
    | none => old
  (s.setBase b { x with lastMove := some (s.clk, old, d, jumped) }).showSense b d

/-- A base went from `old` to its present value (R62). -/
def State.baseMoved (s : State) (b old : Nat) : State :=
  let s1 := s.noteMove b old (diff48 (s.baseValue b) old) false
  s1.noteCrossed (s1.armed.filter fun n => s1.cmpBind n = b ∧ s1.crossesBase n old (s1.baseValue b)) false

/-- A base jumped from `old` by `d` counts (R40). -/
def State.baseJumped (s : State) (b old : Nat) (d : Int) : State :=
  let s1 := s.noteMove b old d true
  s1.noteCrossed (s1.armed.filter fun n => s1.cmpBind n = b ∧ s1.jumpsBase n old d) true

/-- One phase clock has passed: GT went from `gt`, and each listed base from its listed value. The compares that cross do so in
ascending number (R18, R62). -/
def State.clockPassed (s : State) (gt : Nat) (old : List (Nat × Nat)) : State :=
  let s1 := old.foldl (fun s e => s.showSense e.1 (diff48 (s.baseValue e.1) e.2)) s
  s1.noteCrossed (s1.armed.filter fun n =>
    s1.crossesGt n gt || old.any fun e => s1.cmpBind n == e.1 && s1.crossesBase n e.2 (s1.baseValue e.1)) false

/-- GT went forward from `gt` in one clock, and each listed TIME base from its listed value in 2^-32 counts: the compares passed over
match with JUMPED set, in ascending number (R28, R48). -/
def State.gtStepped (s : State) (gt : Nat) (old : List (Nat × Int)) : State :=
  let moved := old.map fun e => (e.1, wrapTo 48 (e.2 / 2 ^ 32), s.baseAt e.1 s.now / 2 ^ 32 - e.2 / 2 ^ 32)
  let s0 := { s with gt := { s.gt with stepped := some (s.clk, gt) } }
  let s1 := moved.foldl (fun s e => s.noteMove e.1 e.2.1 e.2.2 true) s0
  s1.noteCrossed (s1.armed.filter fun n =>
    s1.crossesGt n gt || moved.any fun e => s1.cmpBind n == e.1 && s1.jumpsBase n e.2.1 e.2.2) true

/-- How the reference of a compare has moved in the present phase clock by an update: its value at the start of the clock, the counts
moved, and whether it jumped. -/
def State.movedNow (s : State) (n : Nat) : Option (Nat × Int × Bool) :=
  let b := s.cmpBind n
  if b < 16 then
    match (s.base b).lastMove with
    | some (k, m) => if k = s.clk then some m else none
    | none => none
  else if b = 16 then
    match s.gt.stepped with
    | some (k, old) => if k = s.clk then some (old, 0, true) else none
    | none => none
  else none

/-- A write of a compare: what its reference has done in this phase clock is evaluated on the written values (R65). -/
def State.recheck (s : State) (n : Nat) : State :=
  let s1 := { s with crossed := s.crossed.filter fun e => !(e.1 == n && e.2.2 == s.clk) }
  match s.movedNow n with
  | none => s1
  | some (old, d, jumped) =>
    let b := s.cmpBind n
    let goes := if b = 16 then s.crossesGt n old else if jumped then s.jumpsBase n old d else s.crossesBase n old (s.baseValue b)
    if s.rb (Reg.CMP_CTRL n) 0 ∧ goes = true then s1.noteCrossed [n] jumped else s1

/-- The running TIME bases with their values in 2^-32 counts. -/
def State.timeBases (s : State) : List (Nat × Int) :=
  ((List.range 16).filter fun b => s.baseOn b && s.baseSrc b == srcTime).map fun b => (b, s.baseAt b s.now)

/-- The projected GT of a compare; all ones when infinite or not armed (R43). -/
def State.projection (s : State) (n : Nat) : Nat :=
  let inf := 2 ^ 64 - 1
  let b := s.cmpBind n
  if !s.rb (Reg.CMP_CTRL n) 0 then inf
  else if b = 16 then s.rd (Reg.CMP_VALUE n)
  else if b > 16 then inf
  else
    let d := diff48 (s.rd (Reg.CMP_VALUE n) % 2 ^ 48) (s.baseValue b)
    let r := if s.baseOn b then (s.base b).rate else 0
    if (d > 0 ∧ r > 0 ∧ s.cmpUp n = true) ∨ (d < 0 ∧ r < 0 ∧ s.cmpDown n = true) then
      (s.now + d.natAbs * 2 ^ 32 / r.natAbs) % 2 ^ 64
    else inf

/-- A compare's projection is computed afresh (R44). -/
def State.project (s : State) (n : Nat) : State := s.wr (Reg.CMP_PROJ n) (s.projection n)

/-- PROJECTION_RECOMPUTE: all compares bound to a base are re-projected (R44). -/
def execProjectionRecompute (b : BaseId) (s : State) : Host.Outcome State Fault Refusal :=
  .next ((s.armed.filter fun n => s.cmpBind n = b.val).foldl (fun s n => s.project n) s)

/-! ### Rates -/

/-- A rate update: the base is re-anchored at its present value, PHB_RATE and PHB_RATE_GT show it, STOPPED shows a zero rate
(R58), and the projections follow within 1.024 µs (R44). That the start of a base and every stop of it is such an update of PHB_RATE_GT
is DEDUCED (assumption 117): the table of R34 lists the updates of a running source only. -/
def State.setRate (s : State) (b : Nat) (rate : Int) (gt : Nat) : State :=
  let x := s.base b
  let q := s.baseAt b s.now
  let anchored := if s.baseSrc b = srcTime ∨ s.rb (Reg.PHB_STATUS b) 3 = true then x
    else { x with anchor := q % 2 ^ 80, anchorGt := s.gt.now }
  let s1 := s.setBase b { anchored with rate := rate }
  let s2 := (s1.wr (Reg.PHB_RATE b) (wrapTo 64 rate)).wr (Reg.PHB_RATE_GT b) gt
  let s3 := s2.wb (Reg.PHB_STATUS b) 1 (decide (rate = 0))
  s3.send 1024 (.projectionRecompute (Fin.ofNat 16 b))

/-- A base stops and holds its value. -/
def State.stopBase (s : State) (b : Nat) : State := s.setRate b 0 s.now

/-- HOLDOVER, WIN, TIMEOUT and SNAP_LIMIT (R59). -/
def State.holdover (s : State) (b : Nat) : Nat := s.rf (Reg.PHB_DPLL b) 15 8
def State.rateWin (s : State) (b : Nat) : Nat := max 1 (min 1000 (s.rf (Reg.PHB_RATE_WIN b) 9 0))
def State.streamTimeout (s : State) (b : Nat) : Nat := s.rf (Reg.PHB_STREAM_CFG b) 31 16
def State.snapLimit (s : State) (b : Nat) : Nat := s.rf (Reg.PHB_STREAM_CFG b) 15 0

/-! ### PHB_CTRL and the value registers -/

/-- A base starts under its stored source (R34). SRC_EFF changes here only: a write of SRC while EN is 0 leaves it until EN is set
(DEDUCED, assumption 118). -/
def State.startBase (s : State) (b : Nat) : State :=
  let src := s.rf (Reg.PHB_CTRL b) 2 1
  let s1 := s.wf (Reg.PHB_STATUS b) 11 10 src
  let x : Base := { anchor := (s.base b).anchor, anchorGt := s.gt.now, enGt := s.gt.now, winStart := s.gt.now
                    winLen := s.rateWin b * 1000
                    levelA := (s.base b).levelA, levelB := (s.base b).levelB }
  let s2 := s1.setBase b x
  if src = srcTime then
    (s2.setBase b { x with anchor := (x.anchor / 2 ^ 32) * 2 ^ 32 }).setRate b (s.rd (Reg.PHB_TIME_RATIO b)) s.now
  else
    let s3 := s2.setRate b 0 s.now
    if src = srcEncoder then s3.send (s.rateWin b * 1000) (.rateWindow (Fin.ofNat 16 b))
    else if src = srcStream ∧ s.streamTimeout b ≠ 0 then
      s3.send (s.streamTimeout b * 1000000) (.streamTimeout (Fin.ofNat 16 b))
    else s3

/-- A base stops counting: its value is kept, its rate reads zero, STALE and HELD clear (R34). LOCKED clears with them: a loop that
takes no crossings is not locked (DEDUCED, assumption 118). -/
def State.endBase (s : State) (b : Nat) (v : Int) : State :=
  let s1 := s.setBase b { s.base b with anchor := v % 2 ^ 80, anchorGt := s.gt.now, rate := 0, heldPath := none }
  let s2 := (s1.wr (Reg.PHB_RATE b) 0).wr (Reg.PHB_RATE_GT b) s.now
  let s3 := ((s2.wb (Reg.PHB_STATUS b) 1 true).wb (Reg.PHB_STATUS b) 2 false).wb (Reg.PHB_STATUS b) 3 false
  (s3.wb (Reg.PHB_STATUS b) 0 false).send 1024 (.projectionRecompute (Fin.ofNat 16 b))

/-- A write of PHB_CTRL (R34, R55). -/
def State.writePhbCtrl (s : State) (b v : Nat) : State :=
  let v := if b < 8 then v else putFld v 6 6 0
  let was := s.baseOn b
  let q := s.baseAt b s.now
  let s1 := s.storeReg (Reg.PHB_CTRL b) v
  if !was && s1.baseOn b then s1.startBase b
  else if was && !s1.baseOn b then s1.endBase b q
  else s1

/-- PHB_CTRL. -/
def execPhbCtrl (b : BaseId) (_who : Requester) (value : Word32) (s : State) : Host.Outcome State Fault Refusal :=
  .next (s.writePhbCtrl b.val value.toNat)

/-- PHB_PRESET loads the value while EN is 0; it crosses nothing (R57, R62). -/
def State.preset (s : State) (b v : Nat) : State :=
  if s.baseOn b then s else s.setBase b { s.base b with anchor := (v % 2 ^ 48 : Nat) * 2 ^ 32 }

/-- PHB_PRESET. -/
def execPhbPreset (b : BaseId) (value : Word64) (s : State) : Host.Outcome State Fault Refusal :=
  .next (s.preset b.val value.toNat)

/-! ### MAINS (R35, R36, R594) -/

/-- The instant at which holdover ends: HOLDOVER cycles after the last good crossing (R36). -/
def State.holdoverEnd (s : State) (b : Nat) : Nat :=
  let x := s.base b
  (x.lastGood.map (·.toNat)).getD 0 + s.holdover b * 2 * x.half

/-- The input is lost: LOCKED clears, and the base runs on until holdover ends, or stops at once when that has passed (R36). -/
def State.mainsLost (s : State) (b : Nat) (freqRange : Bool) : State :=
  let s1 := (s.setBase b { s.base b with inputLost := true }).wb (Reg.PHB_STATUS b) 0 false
  let s2 := if freqRange then s1.wb (Reg.PHB_STATUS b) 6 true else s1
  if s.now ≥ s.holdoverEnd b then s2.stopBase b
  else s2.send (s.holdoverEnd b - s.now) (.mainsHoldoverEnd (Fin.ofNat 16 b))

/-- A base counts under a source. -/
def State.runsOn (s : State) (b src : Nat) : Bool := s.baseOn b && s.baseSrc b == src

/-- The half-cycles of 8 to 80 Hz, in ns (R36). -/
def halfGood (half : Int) : Bool := decide (6250000 ≤ half ∧ half ≤ 62500000)

/-- The loop bandwidth in mHz, at most a quarter of the measured supply frequency (R594). -/
def State.loopBw (s : State) (b half : Nat) : Nat :=
  min ([500, 1000, 2000, 4000].getD (s.rf (Reg.PHB_DPLL b) 2 0) 8000) (125000000000 / half)

/-- One update of the second-order loop at a good crossing: the new rate and integral term, in 2^-32 counts per ns (R594).
The proportional gain is 2 × 0.707 × 2π × BW and the integral gain (2π × BW)², per second (assumption 13). -/
def loopUpdate (bw half : Nat) (integral err : Int) : Int × Int :=
  let perNs := fun (n : Int) (d : Int) => (n * 2 ^ 32).tdiv (d * 1000000000)
  let integral' := integral - perNs (err * (39478418 * (bw : Int) * bw) * half) (1000000 * 1000000 * 1000000000)
  let want := integral' - perNs (err * 8884425 * bw) (1000000 * 1000)
  let meas : Int := (2 ^ 63 / half : Nat)
  (max 0 (max (meas * 3 / 4) (min (meas * 5 / 4) want)), integral')

/-- A good crossing updates the loop; the first after a start or a return of the input loads the integral term, and the base runs at
the measured rate (R594). -/
def State.goodCrossing (s : State) (b : Nat) (rising : Bool) (instant half : Nat) : State :=
  let x := s.base b
  let meas : Int := (2 ^ 63 / half : Nat)
  let count := s.baseAt b instant / 2 ^ 32
  let err := toSigned 32 (wrapTo 32 (count - (if rising then 0 else 2 ^ 31)))
  let (rate, integral') := if x.inputLost then (meas, meas) else loopUpdate (s.loopBw b half) half x.integral err
  let s1 := s.setBase b { x with lastCross := some (rising, BitVec.ofNat 64 instant),
                                 lastGood := some (BitVec.ofNat 64 instant), half := half,
                                 integral := integral', inputLost := false }
  let locked := decide (err.natAbs < s.rf (Reg.PHB_DPLL b) 31 16 * 2 ^ 16)
  let s2 := (s1.setRate b rate instant).wb (Reg.PHB_STATUS b) 0 locked
  s2.send (instant + half * 5 / 2 - s.now) (.mainsInputLost (Fin.ofNat 16 b))

/-- The base is fed by a channel with CLK_LOSS set, and so its input is lost (R85). -/
def State.mainsShut (s : State) (b : Nat) : Bool :=
  s.rb (Reg.PHB_INPUT b) 25 && s.rb (Reg.SDF_STATUS (s.rf (Reg.PHB_INPUT b) 31 26)) 3

/-- A zero crossing of a MAINS base (R36). -/
def State.crossing (s : State) (b : Nat) (rising : Bool) (instant : Nat) : State :=
  let x := s.base b
  let here := some (rising, BitVec.ofNat 64 instant)
  if s.mainsShut b then s.setBase b { x with lastCross := here }
  else match x.lastCross with
  | none => s.setBase b { x with lastCross := here }
  | some (r, g) =>
    if r = rising then s.setBase b { x with lastCross := here }
    else
      let half : Int := (instant : Int) - g.toNat
      if halfGood half then s.goodCrossing b rising instant half.toNat
      else ((s.setBase b { x with lastCross := here }).mainsLost b true)

/-- MAINS_CROSSING. -/
def execMainsCrossing (b : BaseId) (rising : Bool) (instant : Word64) (s : State) : Host.Outcome State Fault Refusal :=
  if s.runsOn b.val srcMains then .next (s.crossing b.val rising instant.toNat) else .next s

/-- MAINS_INPUT_LOST: 2.5 half-cycles have passed since the last good crossing. -/
def execMainsInputLost (b : BaseId) (s : State) : Host.Outcome State Fault Refusal :=
  let x := s.base b.val
  match x.lastGood with
  | some g =>
    if s.runsOn b.val srcMains ∧ ¬ x.inputLost ∧ s.now * 2 ≥ g.toNat * 2 + x.half * 5 then
      .next ((s.setBase b.val { x with lastCross := none }).mainsLost b.val false)
    else .next s
  | none => .next s

/-- MAINS_HOLDOVER_END. -/
def execMainsHoldoverEnd (b : BaseId) (s : State) : Host.Outcome State Fault Refusal :=
  if s.runsOn b.val srcMains ∧ (s.base b.val).inputLost ∧ s.now ≥ s.holdoverEnd b.val then .next (s.stopBase b.val)
  else .next s

/-! ### ENCODER (R37, R38) -/

/-- What a sample of A and B does in an ENC_MODE: `none` for nothing counted, else the sense, forward being up (R37). -/
def encoderStep (mode : Nat) (a b a' b' : Bool) : Option Bool :=
  let rise := !a && a'
  let fall := a && !a'
  match mode with
  | 0 => if a = a' ∧ b = b' then none
         else if a ≠ a' then some (if rise then !b' else b') else some (if !b && b' then a' else !a')
  | 1 => if rise then some (!b') else if fall then some b' else none
  | 2 => if rise && !b' then some true else if fall && !b' then some false else none
  | _ => if rise then some (!b') else none

/-- The least interval between counted edges, in phase clocks (R578). -/
def State.encoderGap (s : State) : Nat := if s.modes.refclk then 10 else 200

/-- A counted edge adds or subtracts INC (R37). -/
def State.countEdge (s : State) (b : Nat) (up : Bool) : State :=
  let x := s.base b
  let up := if s.rb (Reg.PHB_CTRL b) 5 then !up else up
  let inc := max 1 (s.rf (Reg.PHB_CTRL b) 31 16)
  let d : Int := if up then inc else -(inc : Int)
  let old := s.baseValue b
  let s1 := s.setBase b { x with anchor := (x.anchor + d * 2 ^ 32) % 2 ^ 80, winChange := x.winChange + d,
                                 winEdges := x.winEdges + 1, lastEdge := some s.clk }
  (s1.wb (Reg.PHB_STATUS b) 8 (!up)).baseMoved b old

/-- One sample of an encoder's pins. Edges closer than R578 allows may be counted or missed: a free value decides
(assumption 15). -/
def State.encoderSample (s : State) (b : Nat) (a' b' : Bool) : State :=
  let x := s.base b
  let mode := s.rf (Reg.PHB_CTRL b) 4 3
  let s1 := s.setBase b { x with levelA := a', levelB := b' }
  if x.levelA ≠ a' ∧ x.levelB ≠ b' ∧ mode ≠ 3 then s1.wb (Reg.PHB_STATUS b) 7 true
  else
    match encoderStep mode x.levelA x.levelB a' b' with
    | none => s1
    | some up =>
      match x.lastEdge with
      | some t =>
        if s.clk < t + s.encoderGap then
          let (w, s2) := s1.fresh
          if w.getLsbD 0 then s2.countEdge b up else s2.setBase b { s2.base b with lastEdge := some s.clk }
        else s1.countEdge b up
      | none => s1.countEdge b up

/-- A pin is seen at a level: by an outside driver, unless the device itself drives that level (R596). -/
def State.seeLevel (s : State) (p : Nat) (level : Bool) : State :=
  let x := s.pin p
  let own := match x.scan.getD x.ball with | .level h _ => h == level | _ => false
  s.setPin p { x with outside := if own then x.outside else some level, filtered := level
                      levelSince := if x.filtered = level then x.levelSince else s.clk }

/-- The base samples its pins: while the reference is stopped only with AO_COUNT (R37, R47). -/
def State.sampleEncoder (s : State) (b : Nat) (a' b' : Bool) : State :=
  if s.runsOn b srcEncoder ∧ (s.modes.refclk ∨ s.rb (Reg.PHB_CTRL b) 6 = true) then s.encoderSample b a' b'
  else s.setBase b { s.base b with levelA := a', levelB := b' }

/-- ENCODER_EDGE: new levels of A and B, as seen after the filter. -/
def execEncoderEdge (b : BaseId) (levelA levelB : Bool) (s : State) : Host.Outcome State Fault Refusal :=
  let s1 := (s.seeLevel (s.rf (Reg.PHB_INPUT b.val) 8 0) levelA).seeLevel (s.rf (Reg.PHB_INPUT b.val) 24 16) levelB
  .next (s1.sampleEncoder b.val levelA levelB)

/-- RATE_WINDOW: the end of a window sets the rate (R38). A window keeps the length it began with: a write of PHB_RATE_WIN sets that of
the next (DEDUCED, assumption 119). -/
def execRateWindow (b : BaseId) (s : State) : Host.Outcome State Fault Refusal :=
  let x := s.base b.val
  let next := s.rateWin b.val * 1000
  if s.runsOn b.val srcEncoder ∧ s.modes.refclk = true ∧ s.now ≥ x.winStart.toNat + x.winLen then
    let s1 := s.setBase b.val { x with winChange := 0, winEdges := 0, winStart := s.gt.now, winLen := next }
    .next ((s1.setRate b.val ((x.winChange * 2 ^ 32).tdiv x.winLen) s.now).send next (.rateWindow b))
  else .next s

/-! ### STREAM (R39 to R41) -/

/-- The rate from two updates, in 2^-32 counts per ns (R39). -/
def streamRate (u0 u : Nat) (g0 g : Nat) : Int :=
  (diff48 u u0 * 2 ^ 32).tdiv ((g : Int) - g0)

/-- The rate and reference after an update: the first after EN or after a timeout gives rate 0, equal stamps keep the rate. -/
def State.nextStreamRate (s : State) (b u gt : Nat) : Int :=
  let x := s.base b
  match x.lastUpd with
  | none => 0
  | some (u0, g0) => if g0.toNat = gt then x.rate else streamRate u0.toNat u g0.toNat gt

/-- A position update of a STREAM base (R40). -/
def State.streamUpdate (s : State) (b u gt : Nat) : State :=
  let v := s.baseValue b
  let vq := s.baseAt b s.now
  let rate := s.nextStreamRate b u gt
  let d := diff48 u v
  let snap := s.snapLimit b
  let x := s.base b
  let jump := d.natAbs > snap
  let hold := decide (d < 0) && !jump && decide (rate > 0)
  let creep := decide (d < 0) && !jump && !decide (rate > 0)
  let s1 := (((s.wb (Reg.PHB_STATUS b) 2 false).wb (Reg.PHB_STATUS b) 3 false).wr (Reg.PHB_LAST_UPD_GT b) gt)
  let s2 := if jump then s1.wb (Reg.PHB_STATUS b) 4 true else s1
  let s3 := if jump ∧ d < 0 then s2.wb (Reg.PHB_STATUS b) 5 true else s2
  let s4 := s3.setBase b { x with
    anchor := if hold ∨ creep then vq % 2 ^ 80 else (u : Int) * 2 ^ 32
    anchorGt := s.gt.now, rate := rate
    lastUpd := some (BitVec.ofNat 48 u, BitVec.ofNat 64 gt)
    heldPath := if hold then some ((u : Int) * 2 ^ 32) else none }
  let s5 := s4.setRate b rate s.now
  let s6 := if hold then
      (s5.wb (Reg.PHB_STATUS b) 3 true).send (d.natAbs * 2 ^ 32 / rate.natAbs + 1) (.heldResume (Fin.ofNat 16 b))
    else s5
  let s7 := if s.streamTimeout b ≠ 0 then
      s6.send (s.streamTimeout b * 1000000) (.streamTimeout (Fin.ofNat 16 b)) else s6
  if hold ∨ creep then s7 else if jump then s7.baseJumped b v d else s7.baseMoved b v

/-- PHB_STREAM_POS: a software update, applied at the write to a running STREAM base with STREAM_SW (R39, R59). -/
def State.softwarePos (s : State) (b v : Nat) : State :=
  if s.runsOn b srcStream ∧ s.rb (Reg.PHB_CTRL b) 7 = true then s.streamUpdate b (v % 2 ^ 48) s.now else s

/-- PHB_STREAM_POS. -/
def execPhbStreamPos (b : BaseId) (value : Word64) (s : State) : Host.Outcome State Fault Refusal :=
  .next (s.softwarePos b.val value.toNat)

/-- The interpolated path of a HELD base now, in 2^-32 counts (R40). -/
def State.heldPathNow (s : State) (b : Nat) : Option Int :=
  let x := s.base b
  x.heldPath.map fun p => p + x.rate * ((s.now : Int) - x.anchorGt.toNat)

/-- HELD_RESUME: the path has passed the held value, and the base follows it (R40). -/
def execHeldResume (b : BaseId) (s : State) : Host.Outcome State Fault Refusal :=
  let x := s.base b.val
  match s.heldPathNow b.val with
  | some p =>
    let v := s.baseValue b.val
    if s.runsOn b.val srcStream ∧ s.rb (Reg.PHB_STATUS b.val) 3 = true ∧ diff48 (wrapTo 48 (p / 2 ^ 32)) v ≥ 0 then
      let s1 := s.wb (Reg.PHB_STATUS b.val) 3 false
      .next ((s1.setBase b.val { x with anchor := p % 2 ^ 80, anchorGt := s.gt.now, heldPath := none }).baseMoved
        b.val v)
    else .next s
  | none => .next s

/-- STREAM_TIMEOUT: no update for TIMEOUT ms since the last, or since EN (R41). The time of an update is its GT as PHB_LAST_UPD_GT shows
it, for a frame that of its SFD (DEDUCED, assumption 120); HELD ends with the base's stop (DEDUCED, assumption 118). -/
def execStreamTimeout (b : BaseId) (s : State) : Host.Outcome State Fault Refusal :=
  let x := s.base b.val
  let from_ := match x.lastUpd with
    | some _ => s.rd (Reg.PHB_LAST_UPD_GT b.val)
    | none => x.enGt.toNat
  if s.runsOn b.val srcStream ∧ s.streamTimeout b.val ≠ 0 ∧ s.now ≥ from_ + s.streamTimeout b.val * 1000000 then
    let q := s.baseAt b.val s.now
    let s1 := (s.wb (Reg.PHB_STATUS b.val) 2 true).wb (Reg.PHB_STATUS b.val) 3 false
    .next ((s1.setBase b.val { x with anchor := q % 2 ^ 80, anchorGt := s.gt.now, rate := 0, lastUpd := none,
                                      heldPath := none }).setRate b.val 0 s.now)
  else .next s

/-- An instant of GT has come. -/
def State.comes (s : State) (due : Nat) : Bool := decide (due ≤ s.now)

/-- The instants of a base that have come: loss of its input, the ends of holdover, of a rate window and of a STREAM timeout, and the
passing of a held value (R36, R38, R40, R41). Each is looked at in every clock, so a rewritten HOLDOVER or TIMEOUT acts at once. -/
def State.baseInstants (s : State) (b : Nat) : State :=
  let x := s.base b
  let n : BaseId := Fin.ofNat 16 b
  let when (c : Bool) (i : Instr) (s : State) : State := if c then s.send 0 i else s
  if ¬ s.baseOn b then s
  else if s.baseSrc b = srcMains then
    match x.lastGood with
    | some g =>
      let s1 := when (!x.inputLost && s.comes (g.toNat + (x.half * 5 + 1) / 2)) (.mainsInputLost n) s
      when (x.inputLost && x.rate != 0 && s.comes (s.holdoverEnd b)) (.mainsHoldoverEnd n) s1
    | none => s
  else if s.baseSrc b = srcEncoder then when (s.comes (x.winStart.toNat + x.winLen)) (.rateWindow n) s
  else if s.baseSrc b = srcStream then
    let from_ := match x.lastUpd with | some _ => s.rd (Reg.PHB_LAST_UPD_GT b) | none => x.enGt.toNat
    let s1 := when (s.streamTimeout b != 0 && !s.rb (Reg.PHB_STATUS b) 2 && s.comes (from_ + s.streamTimeout b * 1000000))
      (.streamTimeout n) s
    let passed := match s.heldPathNow b with
      | some p => decide (diff48 (wrapTo 48 (p / 2 ^ 32)) (s.baseValue b) ≥ 0)
      | none => false
    when (s.rb (Reg.PHB_STATUS b) 3 && passed) (.heldResume n) s1
  else s

/-- The instants that have come: those of the bases, and the loss of the discipline source (R26). -/
def State.instants (s : State) : State :=
  let s1 := if s.gtSource.isSome ∧ ¬ s.gt.lost ∧ s.holdoffMet then s.send 0 .srcLost else s
  (List.range 16).foldl State.baseInstants s1

/-- A write of PHB_TIME_RATIO is a rate update of a running TIME base, whose value is that of R42 under the new ratio from then on. What
it passes crosses as in any clock (R62), with JUMPED clear, which R62 keeps for STREAM jumps and TIME_STEP (DEDUCED, assumption 96). -/
def State.writeRatio (s : State) (b v : Nat) : State :=
  let a := Reg.PHB_TIME_RATIO b
  let old := s.baseValue b
  let s1 := s.storeReg a v
  if s1.runsOn b srcTime then (s1.setRate b (s1.rd a) s1.now).baseMoved b old else s1

end Sys2Proof.Machine
end

