-- ==== Sys2Proof/Machine/PhaseEngine.lean ====
section
/-!
DEFINITION. Sys2Proof/Machine/PhaseEngine.lean: compares, phase pins and their banks, captures, sigma-delta filters and linked
counters (R61 to R99, R595, R596).
-/
namespace Sys2Proof.Machine

/-! ### Router sources and event numbers of the phase engine -/

/-- The router source of compare n (R67). -/
def cmpSource (n : Nat) : Nat := 1024 + n
/-- The router source of capture n (R83). -/
def capSource (n : Nat) : Nat := 2048 + n
/-- The router source of sigma-delta channel n (R86). -/
def sdfSource (n : Nat) : Nat := 2304 + n
/-- The router source of pin bank k (R89). -/
def bankSource (k : Nat) : Nat := 2368 + k
/-- The router source of linked counter n (R88). -/
def ctrSource (n : Nat) : Nat := 2384 + n

/-! ### Phase pins (R72 to R80) -/

/-- Drive-to-active, drive-to-safe and toggle as PIN_ACT codes them (R92, R97). -/
def pinActOf : Nat → Option PinAct
  | 1 => some .active
  | 2 => some .safe
  | 3 => some .toggle
  | _ => none

/-- A pin-bank event with its enable bit raises the bank's source (R89). -/
def State.pinBankEvent (s : State) (k enable : Nat) : State :=
  if s.rb (Reg.PIN_BANK_IRQ_EN k) enable then s.source (bankSource k) else s

/-- An action or write with another EID than the pin's owner: EID_REJECT, an ENCLAVE_DENY entry and the bank's event (R75, R89). -/
def State.denyPin (s : State) (p addr : Nat) : State :=
  ((s.wb (Reg.PIN_STATUS p) 3 true).log .enclaveDeny (unitPin p) addr).pinBankEvent (p / 32) 1

/-- The pin takes actions: its MODE is OUTPUT and it serves no driven modulator clock (R73, R85). -/
def State.pinTakes (s : State) (p : Nat) : Bool := s.pinMode p == 1 && (s.clockDivisor p).isNone

/-- An action from a compare, a phase core or software (R73, R75 to R77). In SAFE_HOLD every action but drive-to-safe sets HOLD_DROP and
no other flag, whatever its EID (R77). `phase` and `tag` are the tag that a paired action carries to the gate (R459). -/
def State.pinSubmit (s : State) (p : Nat) (a : PinAct) (eid : Nat) (phase : Bool) (tag : Nat) (late : Nat := 0) : State :=
  let cfg := s.rd (Reg.PIN_CFG p)
  if a ≠ .safe ∧ s.mode = modeSafeHold ∧ s.pinTakes p = true then s.wb (Reg.PIN_STATUS p) 5 true
  else if eid ≠ s.rf (Reg.PIN_OWNER p) 5 0 then s.denyPin p 0
  else if ¬ s.pinTakes p then s
  else if a = .safe then s.pinArrive p a late
  else if cfg.testBit 12 = false then s.pinArrive p a late
  else if s.mode = modePaired then
    s.send late (.gateSubmit { frame := false, key := BitVec.ofNat 18 p, seq := 0, subGt := s.gt.now, phase := phase,
                               tag := BitVec.ofNat 64 tag, value := if a = .active then 1 else 3 })
  else s.wb (Reg.PIN_STATUS p) 4 true

/-- The state a pin takes from the actions of one phase clock: `true` for ACTIVE (R74). -/
def resolveActs (before : Bool) (acts : List PinAct) : Bool :=
  if acts.contains .safe ∨ acts.contains .trip then false
  else if acts.contains .active then true
  else before ^^ (acts.length % 2 == 1)

/-- Two or more actions that are neither all drive-to-active nor all drive-to-safe (R74). -/
def actsConflict (acts : List PinAct) : Bool :=
  decide (2 ≤ acts.length) && !(acts.all (· == .active)) && !(acts.all fun a => a == .safe || a == .trip)

/-- The actions that have reached a pin in this phase clock and take part in R74: none where the pin takes no action now (R73, R85), and
in SAFE_HOLD only those to safe (R77). -/
def State.actsNow (s : State) (p : Nat) : List PinAct :=
  let acts := ((s.pin p).acts.filter fun e => e.1 = s.clk).map (·.2)
  if ¬ s.pinTakes p then []
  else if s.mode = modeSafeHold then acts.filter fun a => a == .safe || a == .trip
  else acts

/-- An action that reaches the pin in SAFE_HOLD is dropped (R77). -/
def State.dropsHold (s : State) (p : Nat) : Bool :=
  s.pinTakes p && s.mode == modeSafeHold && (s.pin p).acts.any fun e => e.1 == s.clk && e.2 != .safe && e.2 != .trip

/-- The actions of this phase clock are resolved together, and the edge follows 8 ns later (R73, R74). -/
def State.resolvePin (s : State) (p : Nat) : State :=
  let x := s.pin p
  let acts := s.actsNow p
  let s := if s.dropsHold p then s.wb (Reg.PIN_STATUS p) 5 true else s
  if acts = [] then s
  else
    let st := Reg.PIN_STATUS p
    let again := x.resolvedAt = some s.clk
    let before := if again then x.before else s.rb st 1
    let clash := actsConflict acts && !(again && x.clashed)
    let s1 := s.setPin p { x with resolvedAt := some s.clk, before := before, clashed := actsConflict acts }
    let s2 := if clash then (s1.wb st 2 true).pinBankEvent (p / 32) 0 else s1
    let s3 := if acts.contains .trip then s2.wb st 6 true else s2
    (s3.wb st 1 (resolveActs before acts)).ballFollows p

/-- PIN_ACTION. -/
def execPinAction (p : PinId) (s : State) : Host.Outcome State Fault Refusal := .next (s.resolvePin p.val)

/-- A change of what the pin drives reaches the ball 8 ns later (R72). -/
def State.driveChanged (s : State) (p : Nat) (old : Drive) : State :=
  if s.pinDrive p = old then s else s.ballFollows p 1

/-- A write of PIN_CFG (R72, R75, R79): refused to another EID than the owner's; a pin that becomes OUTPUT enters SAFE. -/
def State.writePinCfg (s : State) (p : Nat) (who : Requester) (v : Nat) : State :=
  let a := Reg.PIN_CFG p
  if who.eid.toNat ≠ s.rf (Reg.PIN_OWNER p) 5 0 then s.denyPin p a
  else
    let old := s.pinDrive p
    let was := s.pinMode p
    let s1 := s.storeReg a v
    let s2 := if was ≠ 1 ∧ s1.pinMode p = 1 then
        (s1.setPin p { s1.pin p with acts := [] }).wb (Reg.PIN_STATUS p) 1 false else s1
    s2.driveChanged p old

/-- PIN_CFG. -/
def execPinCfg (p : PinId) (who : Requester) (value : Word32) (s : State) : Host.Outcome State Fault Refusal :=
  .next (s.writePinCfg p.val who value.toNat)

/-- PIN_LOCK: LOCK is written as 1 over the fields as they stand (R79). -/
def execPinLock (p : PinId) (who : Requester) (s : State) : Host.Outcome State Fault Refusal :=
  .next (s.writePinCfg p.val who (s.rd (Reg.PIN_CFG p.val) ||| 2 ^ 31))

/-- A write of PIN_ACT (R73, R75). -/
def State.writePinAct (s : State) (p : Nat) (who : Requester) (v : Nat) : State :=
  if who.eid.toNat ≠ s.rf (Reg.PIN_OWNER p) 5 0 then s.denyPin p (Reg.PIN_ACT p)
  else
    match pinActOf (v % 4) with
    | some a => s.pinSubmit p a who.eid.toNat false 0 1
    | none => s

/-- PIN_ACT. -/
def execPinAct (p : PinId) (who : Requester) (value : Word32) (s : State) : Host.Outcome State Fault Refusal :=
  .next (s.writePinAct p.val who value.toNat)

/-- A write of PIN_OWNER: only at PL3; any other is ignored and sets EID_REJECT (R75, R89). -/
def State.writePinOwner (s : State) (p : Nat) (who : Requester) (v : Nat) : State :=
  if who.pl = 3 then s.storeReg (Reg.PIN_OWNER p) v
  else (s.wb (Reg.PIN_STATUS p) 3 true).pinBankEvent (p / 32) 1

/-- PIN_OWNER. -/
def execPinOwner (p : PinId) (who : Requester) (value : Word32) (s : State) : Host.Outcome State Fault Refusal :=
  .next (s.writePinOwner p.val who value.toNat)

/-! ### Pin banks (R78, R595) -/

/-- The pins of bank k. -/
def bankPins (k : Nat) : List Nat := (List.range 32).map (k * 32 + ·)

/-- What a released pin's pull is. -/
def State.pullNow (s : State) (p : Nat) : BitVec 2 :=
  match s.pinDrive p with
  | .released q => q
  | _ => s.pinPull p

/-- SUPPLY_OK clears: the pins of the bank are released at the pad, and 100 µs count afresh (R78, R595). -/
def State.holdBank (s : State) (k : Nat) : State :=
  let s1 := (s.wb (Reg.PIN_BANK_STATUS k) 0 false).setBank k { s.bank k with since := s.clk }
  (bankPins k).foldl (fun s p => s.releasePad p (s.pullNow p)) s1

/-- The pins of a bank that is held no longer drive their states, `late` clocks ahead (R78). -/
def State.freeBank (s : State) (k late : Nat) : State :=
  (bankPins k).foldl (fun s p => if s.pinMode p = 1 then s.ballFollows p late else s) s

/-- A write of PIN_BANK_CFG, which the bank waits for after a reset (R80). A supply that lay inside the old range lies outside the new one
(R577), which sets SUPPLY_ERR. -/
def State.writeVsel (s : State) (k v : Nat) : State :=
  let a := Reg.PIN_BANK_CFG k
  let ok := s.rb (Reg.PIN_BANK_STATUS k) 0
  let s1 := (s.storeReg a v).setBank k { s.bank k with written := true }
  if s1.rb a 0 = s.rb a 0 then (if ok ∧ ¬ (s.bank k).written then s1.freeBank k 1 else s1)
  else
    let s2 := s1.holdBank k
    if ok then (s2.setBank k { s2.bank k with outside := true }).wb (Reg.PIN_BANK_STATUS k) 1 true
    else s2.setBank k { s2.bank k with outside := false }

/-- VSEL. -/
def execVsel (k : BankId) (_who : Requester) (value : Word32) (s : State) : Host.Outcome State Fault Refusal :=
  .next (s.writeVsel k.val value.toNat)

/-- SUPPLY_ERR: the supply leaves the range for VSEL (R78, R89). -/
def execSupplyErr (k : BankId) (s : State) : Host.Outcome State Fault Refusal :=
  let was := s.rb (Reg.PIN_BANK_STATUS k.val) 0
  let s1 := s.holdBank k.val
  let s2 := (s1.setBank k.val { s1.bank k.val with outside := true }).wb (Reg.PIN_BANK_STATUS k.val) 1 true
  .next (if was then s2.pinBankEvent k.val 2 else s2)

/-- SUPPLY_OK: the supply has stayed inside the range for 100 µs, and the pins drive their states again (R78). -/
def execSupplyOk (k : BankId) (s : State) : Host.Outcome State Fault Refusal :=
  let x := s.bank k.val
  if s.clk ≥ x.since + 100000 ∧ s.rb (Reg.PIN_BANK_STATUS k.val) 0 = false then
    let s1 := (s.setBank k.val { x with outside := false }).wb (Reg.PIN_BANK_STATUS k.val) 0 true
    .next (s1.freeBank k.val 0)
  else .next s

/-- A write of PIN_BANK_STATUS: SUPPLY_ERR stands again while the supply lies outside (R78). -/
def State.writeBankStatus (s : State) (k v : Nat) : State :=
  let s1 := s.storeReg (Reg.PIN_BANK_STATUS k) v
  if (s.bank k).outside then s1.wb (Reg.PIN_BANK_STATUS k) 1 true else s1

/-! ### What a pin's input buffer samples (R596) -/

/-- The level at a pin, with a free value where the level is undefined. -/
def State.sampleLevel (s : State) (p : Nat) : Bool × State :=
  match s.levelAt p with
  | some l => (l, s)
  | none => let (w, s1) := s.fresh; (w.getLsbD 0, s1)

/-- A read of PIN_STATUS: LEVEL is the level sampled in this phase clock (R97, R596). -/
def State.readPinStatus (s : State) (p : Nat) : Nat × State :=
  let (l, s1) := s.sampleLevel p
  (putFld (s.rd (Reg.PIN_STATUS p)) 0 0 (b2n l), s1)

/-- A read of PIN_BANK_STATUS: CONFLICT_ANY shows the CONFLICT flags of its pins (R98). -/
def State.readBankStatus (s : State) (k : Nat) : Nat :=
  putFld (s.rd (Reg.PIN_BANK_STATUS k)) 2 2 (b2n ((bankPins k).any fun p => s.rb (Reg.PIN_STATUS p) 2))

/-! ### Compares (R61 to R71) -/

def State.cmp (s : State) (n : Nat) : Cmp := tabGet {} s.cmps n
def State.setCmp (s : State) (n : Nat) (x : Cmp) : State := { s with cmps := tabSet {} s.cmps n x }

/-- The value of a compare's reference now, and at the start of the present phase clock. -/
def State.refNow (s : State) (n : Nat) : Nat := if s.cmpBind n < 16 then s.baseValue (s.cmpBind n) else s.now
def State.refStart (s : State) (n : Nat) : Nat := ((s.movedNow n).map (·.1)).getD (s.refNow n)

/-- No direction in DIR has the compare ahead of its reference at a value (R64); never for BIND above 16 (R66). -/
def State.lateAgainst (s : State) (n ref : Nat) : Bool :=
  let b := s.cmpBind n
  let c := s.rd (Reg.CMP_VALUE n)
  if b < 16 then
    let d := diff48 (c % 2 ^ 48) ref
    !((s.cmpUp n && decide (d > 0)) || (s.cmpDown n && decide (d < 0)))
  else if b = 16 then !((s.cmpUp n && decide (c > ref)) || (s.cmpDown n && decide (c < ref)))
  else false

/-- Late at a write: against the value at the start of the write's phase clock (R64). -/
def State.isLate (s : State) (n : Nat) : Bool := s.lateAgainst n (s.refStart n)

/-- LATE is set when the compare is late (R64). -/
def State.checkLate (s : State) (n : Nat) : State :=
  if s.isLate n then s.wb (Reg.CMP_STATUS n) 2 true else s

/-- CMP_CTRL.EID takes the EID of the writer (R70). -/
def State.cmpWriter (s : State) (n : Nat) (who : Requester) : State := s.wf (Reg.CMP_CTRL n) 21 16 who.eid.toNat

/-- A write of CMP_CTRL (R64, R65, R70). -/
def State.writeCmpCtrl (s : State) (n : Nat) (who : Requester) (v : Nat) : State :=
  let s1 := (s.storeReg (Reg.CMP_CTRL n) v).cmpWriter n who
  ((if s1.rb (Reg.CMP_CTRL n) 0 then s1.checkLate n else s1).project n).recheck n

/-- CMP_CTRL. -/
def execCmpCtrl (n : CmpId) (who : Requester) (value : Word32) (s : State) : Host.Outcome State Fault Refusal :=
  .next (s.writeCmpCtrl n.val who value.toNat)

/-- A write of CMP_VALUE (R64, R65). -/
def State.writeCmpValue (s : State) (n v : Nat) : State :=
  let s1 := (s.storeReg (Reg.CMP_VALUE n) v).setCmp n { s.cmp n with writtenAt := some s.clk }
  ((if s1.rb (Reg.CMP_CTRL n) 0 then s1.checkLate n else s1).project n).recheck n

/-- CMP_VALUE. -/
def execCmpValue (n : CmpId) (value : Word64) (s : State) : Host.Outcome State Fault Refusal :=
  .next (s.writeCmpValue n.val value.toNat)

/-- A write of CMP_ACTION (R70). -/
def State.writeCmpAction (s : State) (n : Nat) (who : Requester) (v : Nat) : State :=
  (s.storeReg (Reg.CMP_ACTION n) v).cmpWriter n who

/-- CMP_ACTION. -/
def execCmpAction (n : CmpId) (who : Requester) (value : Word32) (s : State) : Host.Outcome State Fault Refusal :=
  .next (s.writeCmpAction n.val who value.toNat)

/-- A write of CMP_STATUS: clearing MATCHED clears MATCH_COUNT (R93). -/
def State.writeCmpStatus (s : State) (n v : Nat) : State :=
  let s1 := s.storeReg (Reg.CMP_STATUS n) v
  if v.testBit 0 then s1.wf (Reg.CMP_STATUS n) 15 8 0 else s1

/-- AUTO_STEP at a match, unless CMP_VALUE was written in the match's phase clock (R63, R65). -/
def State.autoStep (s : State) (n clock : Nat) : State :=
  if s.rb (Reg.CMP_CTRL n) 4 ∧ (s.cmp n).writtenAt ≠ some clock then
    let v := s.rd (Reg.CMP_VALUE n)
    let st := s.rd (Reg.CMP_STEP n)
    let new := if s.cmpBind n < 16 then putFld v 47 0 ((v + st) % 2 ^ 48) else (v + st) % 2 ^ 64
    let s1 := s.wr (Reg.CMP_VALUE n) new
    if s1.lateAgainst n (s1.refNow n) then s1.wb (Reg.CMP_STATUS n) 2 true else s1
  else s

/-- The pin action of a match (R67, R70, R71). The tag is the compare value at the match (R459). -/
def State.matchPin (s : State) (n : Nat) (jumped : Bool) (tag : Nat) : State :=
  let act := s.rd (Reg.CMP_ACTION n)
  match pinActOf (act % 4) with
  | some a =>
    if jumped ∧ s.rb (Reg.CMP_CTRL n) 10 then s
    else s.pinSubmit (fld act 16 8) a (s.rf (Reg.CMP_CTRL n) 21 16) true tag
  | none => s

/-- The task event, doorbell, interrupt and linked-counter action of a match (R67 to R70). -/
def State.matchOthers (s : State) (n : Nat) : State :=
  let act := s.rd (Reg.CMP_ACTION n)
  let link := s.rd (Reg.CMP_LINK n)
  let s1 := if act.testBit 2 then
      s.send 12 (.taskEvent (Fin.ofNat 256 (fld act 24 17)) (BitVec.ofNat 3 (fld act 27 25)) (BitVec.ofNat 11 n) s.gt.now)
    else s
  let s2 := if act.testBit 3 then
      s1.send 40 (.doorbell (Fin.ofNat 262144 (fld link 17 0))
        { agent := .compare (Fin.ofNat 1024 n), pl := 0, eid := BitVec.ofNat 6 (s.rf (Reg.CMP_CTRL n) 21 16) }
        0x80000001 (s.clampStamp (s.now + s.rd (Reg.CMP_ALLOW n))))
    else s1
  let s3 := if act.testBit 4 then s2.sourceAfter 10 (cmpSource n) else s2
  if fld act 6 5 = 0 then s3
  else s3.send 2 (.linkedCounterAction (Fin.ofNat 64 (fld link 23 18)) (BitVec.ofNat 2 (fld act 6 5)))

/-- A match of a compare that crossed in phase clock `clock` (R63, R502). With REFCLK stopped only the pin action is performed,
and the interrupt waits for its return. -/
def State.matchCmp (s : State) (n clock : Nat) (jumped : Bool) : State :=
  let ctrl := Reg.CMP_CTRL n
  let tag := if s.cmpBind n < 16 then s.rd (Reg.CMP_VALUE n) % 2 ^ 48 else s.rd (Reg.CMP_VALUE n)
  let s1 := s.setCmp n { s.cmp n with matchedAt := some clock }
  let s2 := (s1.wr (Reg.CMP_MATCH_GT n) s.now).wb (Reg.CMP_STATUS n) 0 true
  let s3 := s2.wf (Reg.CMP_STATUS n) 15 8 (satInc 8 (s2.rf (Reg.CMP_STATUS n) 15 8))
  let s4 := if jumped then s3.wb (Reg.CMP_STATUS n) 1 true else s3
  let s5 := if s.rb ctrl 3 then s4.wb ctrl 0 false else s4
  let s6 := ((s5.autoStep n clock).project n).matchPin n jumped tag
  if s.modes.refclk ∨ s.cmpBind n ≥ 16 then s6.matchOthers n
  else if s.rb (Reg.CMP_ACTION n) 4 then
    { s6 with modes := { s6.modes with heldIrqs := s6.modes.heldIrqs ++ [n] } }
  else s6

/-- COMPARE_MATCH: an armed compare that has crossed matches, at most once per phase clock. -/
def execCompareMatch (n : CmpId) (s : State) : Host.Outcome State Fault Refusal :=
  match s.crossed.find? (fun e => e.1 = n.val) with
  | some (_, jumped, clock) =>
    let s1 := { s with crossed := s.crossed.filter (fun e => e.1 ≠ n.val) }
    if s.rb (Reg.CMP_CTRL n.val) 0 ∧ (s.cmp n.val).matchedAt ≠ some clock then .next (s1.matchCmp n.val clock jumped)
    else .next s1
  | none => .next s

/-! ### Captures (R81 to R83) -/

def State.cap (s : State) (n : Nat) : Cap := tabGet {} s.caps n
def State.setCap (s : State) (n : Nat) (x : Cap) : State := { s with caps := tabSet {} s.caps n x }

/-- Whether EDGE selects a rising or a falling event (R81). -/
def edgeSelects (edge : Nat) (rise : Bool) : Bool :=
  match edge with
  | 1 => rise
  | 2 => !rise
  | _ => true

/-- The value that a capture records for an event at a GT (R82). -/
def State.captured (s : State) (n gt : Nat) : Nat :=
  let b := s.rf (Reg.CAP_CTRL n) 17 13
  if b < 16 then s.baseThen b gt else gt

/-- A selected edge or threshold event of a GT is captured, readable 20 ns after the event (R82, R502). -/
def State.captureAt (s : State) (n : CapId) (rise : Bool) (instant : Word64) : State :=
  let c := s.rd (Reg.CAP_CTRL n.val)
  if c.testBit 0 ∧ s.modes.refclk ∧ edgeSelects (fld c 2 1) rise then
    s.after (instant.toNat + 20 - s.now) (.capture n (BitVec.ofNat 64 (s.captured n.val instant.toNat)) rise instant)
  else s

/-- CAPTURE_EVENT: an edge that an outside driver gives a pin, or a threshold event. -/
def execCaptureEvent (n : CapId) (rise : Bool) (instant : Word64) (s : State) : Host.Outcome State Fault Refusal :=
  let c := s.rd (Reg.CAP_CTRL n.val)
  .next ((if c.testBit 3 then s else s.seeLevel (fld c 12 4) rise).captureAt n rise instant)

/-- The captures on a pin. -/
def State.pinCaptures (s : State) (p : Nat) : List Nat :=
  (List.range 256).filter fun c => s.rb (Reg.CAP_CTRL c) 0 && !s.rb (Reg.CAP_CTRL c) 3 && s.rf (Reg.CAP_CTRL c) 12 4 == p

/-- An edge that the device itself gave a ball has passed the filter, if the level has stayed: the captures on the pin, the MAINS bases
that take its crossings and the ENCODER bases that count its edges observe it (R35, R37, R61, R72, R96). -/
def State.pinSeen (s : State) (p : Nat) (level : Bool) (gt : Word64) (since : Nat) : State :=
  let x := s.pin p
  if s.levelAt p ≠ some level ∨ x.levelSince ≠ since then s
  else
    let s1 := s.setPin p { x with filtered := level }
    let s2 := (s1.pinCaptures p).foldl (fun s c => s.captureAt (Fin.ofNat 256 c) level gt) s1
    (List.range 16).foldl (fun s b =>
      let i := Reg.PHB_INPUT b
      if s.baseSrc b = srcEncoder ∧ (s.rf i 8 0 = p ∨ s.rf i 24 16 = p) then s.after 0 (.sample (Fin.ofNat 16 b))
      else if s.runsOn b srcMains ∧ s.rb i 25 = false ∧ s.rf i 8 0 = p ∧ s.modes.refclk = true then s.crossing b level gt.toNat
      else s) s2

/-- An ENCODER base samples the levels that have passed the filters of its pins. -/
def State.sampleBase (s : State) (b : Nat) : State :=
  s.sampleEncoder b (s.pin (s.rf (Reg.PHB_INPUT b) 8 0)).filtered (s.pin (s.rf (Reg.PHB_INPUT b) 24 16)).filtered

/-- A capture becomes readable: FULL, or OVERRUN when one is held, and the enabled actions (R83). -/
def State.landCapture (s : State) (n : Nat) (value : Word64) (rise : Bool) (gt : Word64) : State :=
  let st := Reg.CAP_STATUS n
  let c := s.rd (Reg.CAP_CTRL n)
  let x := s.cap n
  let old : Cap := { x with landed := if x.readAt = some s.clk then none else some s.clk
                            oldValue := BitVec.ofNat 64 (s.rd (Reg.CAP_VALUE n)), oldOverrun := s.rb st 1 }
  let s1 := s.setCap n old
  let s2 := if s.rb st 0 then s1.wb st 1 true else s1
  let s3 := ((s2.wr (Reg.CAP_VALUE n) value.toNat).wb st 0 true).wb st 2 rise
  let s4 := if c.testBit 18 then s3.source (capSource n) else s3
  if c.testBit 19 then
    s4.send 0 (.taskEvent (Fin.ofNat 256 (fld c 27 20)) (BitVec.ofNat 3 (fld c 30 28)) (BitVec.ofNat 11 (1024 + n)) gt)
  else s4

/-- A 64-bit read of CAP_VALUE: the capture, and FULL clears. In the phase clock of a capture it returns the earlier value, and
the new capture stays FULL without OVERRUN (R83). -/
def State.readCapture (s : State) (n : Nat) : Nat × State :=
  let x := s.cap n
  if x.landed = some s.clk then
    (x.oldValue.toNat, (s.setCap n { x with landed := none, readAt := some s.clk }).wb (Reg.CAP_STATUS n) 1 x.oldOverrun)
  else (s.rd (Reg.CAP_VALUE n), (s.setCap n { x with readAt := some s.clk }).wb (Reg.CAP_STATUS n) 0 false)

/-- CAP_VALUE: a 64-bit read. -/
def execCapValue (n : CapId) (s : State) : Host.Outcome State Fault Refusal :=
  let (v, s1) := s.readCapture n.val
  .next { s1 with lastRead := BitVec.ofNat 64 v }

/-! ### Sigma-delta filters (R84 to R87) -/

def State.sdf (s : State) (n : Nat) : Sdf := tabGet {} s.sdfs n
def State.setSdf (s : State) (n : Nat) (x : Sdf) : State := { s with sdfs := tabSet {} s.sdfs n x }

/-- The decimation ratio M in effect. -/
def State.decim (s : State) (n : Nat) : Nat := max 4 (min 256 (s.rf (Reg.SDF_CTRL n) 18 10))

/-- A flag of a channel is raised, with its interrupt (R86). -/
def State.sdfFlag (s : State) (n bit : Nat) : State :=
  let s1 := s.wb (Reg.SDF_STATUS n) bit true
  if s.rb (Reg.SDF_CTRL n) 21 then s1.source (sdfSource n) else s1

/-- The pins that select a channel's trip. -/
def State.tripPins (s : State) (n : Nat) : List Nat :=
  s.outputPins.filter fun p => s.rb (Reg.PIN_CFG p) 13 && s.rf (Reg.PIN_CFG p) 19 14 == n

/-- A trip: TRIPPED, and drive-to-safe on every pin that selects the channel, without an enclave check (R86). -/
def State.trip (s : State) (n : Nat) : State :=
  (s.tripPins n).foldl (fun s p => if (s.clockDivisor p).isSome then s else s.pinArrive p .trip) (s.sdfFlag n 4)

/-- The captures that a channel's threshold events trigger. -/
def State.sdfCaptures (s : State) (n : Nat) : List Nat :=
  (List.range 256).filter fun c => s.rf (Reg.CAP_CTRL c) 3 3 == 1 && s.rf (Reg.CAP_CTRL c) 9 4 == n && s.rb (Reg.CAP_CTRL c) 0

/-- A threshold event of a channel reaches its captures (R81, R82). -/
def State.sdfEvent (s : State) (n bit : Nat) (rise : Bool) : State :=
  (s.sdfCaptures n).foldl (fun s c => s.send 0 (.captureEvent (Fin.ofNat 256 c) rise s.gt.now)) (s.sdfFlag n bit)

/-- The MAINS bases that a channel feeds (R35). -/
def State.sdfBases (s : State) (n : Nat) : List Nat :=
  (List.range 16).filter fun b => s.runsOn b srcMains && s.rb (Reg.PHB_INPUT b) 25 && s.rf (Reg.PHB_INPUT b) 31 26 == n

/-- The GT of a change of sign between two results, interpolated in proportion to their magnitudes (R35). -/
def crossingGt (r0 r1 : Int) (g0 g1 : Nat) : Nat :=
  g0 + (g1 - g0) * r0.natAbs / max 1 (r0.natAbs + r1.natAbs)

/-- A valid result feeds the MAINS bases: a zero crossing where the sign changed (R35). -/
def State.sdfMains (s : State) (n : Nat) (r : Int) : State :=
  match (s.sdf n).last with
  | some (r0, g0) =>
    if decide (r0 < 0) = decide (r < 0) then s
    else (s.sdfBases n).foldl (fun s b =>
      s.send 0 (.mainsCrossing (Fin.ofNat 16 b) (decide (r ≥ 0)) (BitVec.ofNat 64 (crossingGt r0 r g0.toNat s.now)))) s
  | none => s

/-- A valid result: thresholds, trip, MAINS crossings and the point write (R84, R86, R87). -/
def State.sdfValid (s : State) (n : Nat) (r : Int) : State :=
  let x := s.sdf n
  let high := decide (r > toSigned 32 (s.rd (Reg.SDF_THR_HI n)))
  let low := decide (r < toSigned 32 (s.rd (Reg.SDF_THR_LO n)))
  let s1 := if high ∧ ¬ x.wasHigh then s.sdfEvent n 1 true else s
  let s2 := if low ∧ ¬ x.wasLow then s1.sdfEvent n 2 false else s1
  let s3 := if high ∨ low then s2.trip n else s2
  let s4 := s3.sdfMains n r
  let s5 := s4.setSdf n { x with wasHigh := high, wasLow := low, last := some (r, s.gt.now) }
  if s.rb (Reg.SDF_CTRL n) 20 then
    s5.present 0 12 9 (s.defaultStamp 12 9) (s.rf (Reg.SDF_PT n) 16 0) 16 (.point (Fin.ofNat 131072 (s.rf (Reg.SDF_PT n) 16 0))
      { agent := .sigmaDelta (Fin.ofNat 64 n), pl := 0, eid := BitVec.ofNat 6 (s.rf (Reg.SDF_PT n) 29 24) }
      (.write (BitVec.ofInt 64 r) (some s.gt.now)))
  else s5

/-- The result of a sinc3 sum: the sum less M^3/2. For an odd M the spec does not say to which integer it goes, so a free value
chooses one of the two neighbours (assumption 17). -/
def State.sdfValue (s : State) (n sum : Nat) : Int × State :=
  let m3 := s.decim n ^ 3
  let r : Int := (sum : Int) - (m3 / 2 : Nat)
  if m3 % 2 = 0 then (r, s) else let (w, s1) := s.fresh; (if w.getLsbD 0 then r else r - 1, s1)

/-- SD_RESULT: a sinc3 sum is complete. The third result since EN or since a clock loss is the first with VALID (R84, R85). -/
def execSdResult (n : SdId) (sum : BitVec 25) (s : State) : Host.Outcome State Fault Refusal :=
  if s.rb (Reg.SDF_CTRL n.val) 0 ∧ s.modes.refclk then
    let x := s.sdf n.val
    let x1 := if x.clockLost then { x with results := 0, wasHigh := false, wasLow := false, last := none } else x
    let k := min 3 (x1.results + 1)
    let (r, s1) := s.sdfValue n.val sum.toNat
    let s2 := (s1.wr (Reg.SDF_RESULT n.val) (wrapTo 32 r)).setSdf n.val { x1 with results := k, clockLost := false }
    if k < 3 then .next s2 else .next ((s2.wb (Reg.SDF_STATUS n.val) 0 true).sdfValid n.val r)
  else .next s

/-- CLK_LOSS: 1 µs without an edge of a clock taken from CLK_PIN (R85). -/
def execClkLoss (n : SdId) (s : State) : Host.Outcome State Fault Refusal :=
  let c := s.rd (Reg.SDF_CTRL n.val)
  if c.testBit 0 ∧ ¬ c.testBit 1 ∧ s.modes.refclk ∧ ¬ (s.sdf n.val).clockLost then
    let s1 := ((s.setSdf n.val { s.sdf n.val with clockLost := true, last := none }).sdfFlag n.val 3).wb
      (Reg.SDF_STATUS n.val) 0 false
    let s2 := if c.testBit 19 then s1.trip n.val else s1
    .next ((s.sdfBases n.val).foldl (fun s b => s.mainsLost b false) s2)
  else .next s

/-- A write of SDF_CTRL or SDF_PINS. The filter starts afresh when EN is set, and VALID then waits for the third result; a change of the
set-up while EN is 1 leaves VALID (R84). A pin that begins or ceases to serve as a driven modulator clock changes its ball (R85). -/
def State.writeSdfSetup (s : State) (n a v : Nat) : State :=
  let ctrl := Reg.SDF_CTRL n
  let pins := [s.rf (Reg.SDF_PINS n) 24 16, if a = Reg.SDF_PINS n then fld v 24 16 else s.rf (Reg.SDF_PINS n) 24 16]
  let old := pins.map fun p => (p, s.pinDrive p)
  let s1 := s.storeReg a v
  let s2 := if s1.rb ctrl 0 ∧ s.rb ctrl 0 = false then
      (s1.setSdf n {}).wb (Reg.SDF_STATUS n) 0 false
    else s1
  old.foldl (fun s e => s.driveChanged e.1 e.2) s2

/-- A write of SDF_PT records the writer's EID (R87). -/
def State.writeSdfPt (s : State) (n : Nat) (who : Requester) (v : Nat) : State :=
  (s.storeReg (Reg.SDF_PT n) v).wf (Reg.SDF_PT n) 29 24 who.eid.toNat

/-! ### Linked counters (R88) -/

def State.ctr (s : State) (n : Nat) : Ctr := tabGet {} s.ctrs n
def State.setCtr (s : State) (n : Nat) (x : Ctr) : State := { s with ctrs := tabSet {} s.ctrs n x }

/-- A counter is LINKed to the one below it; LINK on CTR0 acts as 0. -/
def State.ctrLinked (s : State) (n : Nat) : Bool := s.rb (Reg.CTR_CTRL n) 1 && n != 0

/-- A wrap: WRAP, the enabled actions, and one increment of a running counter that is LINKed to it. -/
def State.ctrWrap (s : State) (n : Nat) : State :=
  let c := s.rd (Reg.CTR_CTRL n)
  let s1 := s.wb (Reg.CTR_STATUS n) 0 true
  let s2 := if c.testBit 2 then s1.source (ctrSource n) else s1
  let s3 := if c.testBit 3 then
      s2.send 0 (.taskEvent (Fin.ofNat 256 (fld c 11 4)) (BitVec.ofNat 3 (fld c 14 12)) (BitVec.ofNat 11 (1280 + n)) s.gt.now)
    else s2
  if n < 63 ∧ s.rb (Reg.CTR_CTRL (n + 1)) 0 ∧ s.ctrLinked (n + 1) then s3.send 0 (.ctrTick (Fin.ofNat 64 (n + 1))) else s3

/-- CTR_TICK: one increment of a running counter. -/
def execCtrTick (n : CtrId) (s : State) : Host.Outcome State Fault Refusal :=
  let c := s.rd (Reg.CTR_COUNT n.val)
  if s.rb (Reg.CTR_CTRL n.val) 0 then
    if c = s.rd (Reg.CTR_TOP n.val) then .next ((s.wr (Reg.CTR_COUNT n.val) 0).ctrWrap n.val)
    else .next (s.wr (Reg.CTR_COUNT n.val) ((c + 1) % 2 ^ 32))
  else .next s

/-- RUN of a counter set; the prescaler starts its count of ticks when RUN goes from 0 to 1. -/
def State.ctrRun (s : State) (n : Nat) : State :=
  if s.rb (Reg.CTR_CTRL n) 0 then s
  else (s.wb (Reg.CTR_CTRL n) 0 true).setCtr n { s.ctr n with tickBase := s.clk }

/-- A compare's action on a counter: bit 0 loads COUNT with 0, bit 1 sets RUN. -/
def State.ctrAct (s : State) (n : Nat) (act : BitVec 2) : State :=
  let s1 := if act.getLsbD 0 then s.wr (Reg.CTR_COUNT n) 0 else s
  if act.getLsbD 1 then s1.ctrRun n else s1

/-- LINKED_COUNTER_ACTION. -/
def execLinkedCounterAction (n : CtrId) (act : BitVec 2) (s : State) : Host.Outcome State Fault Refusal :=
  let s1 := s.ctrAct n.val act
  .next (s1.setCtr n.val { s1.ctr n.val with lastAct := some (s.clk / 2, act) })

/-- A write of CTR_CTRL, CTR_COUNT or CTR_TOP. A compare action of the same 2 ns step takes effect last. -/
def State.writeCtr (s : State) (n a v : Nat) : State :=
  let was := s.rb (Reg.CTR_CTRL n) 0
  let s1 := s.storeReg a v
  let s2 := if ¬ was ∧ s1.rb (Reg.CTR_CTRL n) 0 then s1.setCtr n { s1.ctr n with tickBase := s.clk } else s1
  match (s2.ctr n).lastAct with
  | some (step, act) => if step = s.clk / 2 then s2.ctrAct n act else s2
  | none => s2

/-- The counters whose prescaler completes a tick at this phase clock. -/
def State.ticking (s : State) : List Nat :=
  s.regs.filterMap fun e =>
    let n := (e.1 - Reg.CTR_CTRL 0) / 0x10
    if Reg.CTR_CTRL 0 ≤ e.1 ∧ n < 64 ∧ e.1 = Reg.CTR_CTRL n ∧ e.2.toNat.testBit 0 ∧ ¬ s.ctrLinked n ∧
        s.clk > (s.ctr n).tickBase ∧ (s.clk - (s.ctr n).tickBase) % (10 * (fld e.2.toNat 31 16 + 1)) = 0 then
      some n else none

end Sys2Proof.Machine
end

