-- ==== Sys2Proof/Machine/PhaseCore.lean ====
section
/-!
DEFINITION. Sys2Proof/Machine/PhaseCore.lean: what a phase core holds, its task inputs and events, preemption, faults, start and
stop, its local memory and its post queue (R100 to R105, R115 to R132).
-/
namespace Sys2Proof.Machine

def State.pcore (s : State) (n : Nat) : PCore := tabGet {} s.pcores n
def State.setPcore (s : State) (n : Nat) (x : PCore) : State := { s with pcores := tabSet {} s.pcores n x }

/-- A register p0 to p15. -/
def State.preg (s : State) (n : Nat) (r : PReg) : Word32 := tabGet 0 (s.pcore n).p r.toNat
def State.setPreg (s : State) (n : Nat) (r : PReg) (v : Word32) : State :=
  let c := s.pcore n
  s.setPcore n { c with p := tabSet 0 c.p r.toNat v }

/-- A 64-bit pair: the named register holds the low word (R106). -/
def State.ppair (s : State) (n : Nat) (r : PReg) : Word64 := s.preg n (r + 1) ++ s.preg n r
def State.setPpair (s : State) (n : Nat) (r : PReg) (v : Word64) : State :=
  (s.setPreg n r (v.setWidth 32)).setPreg n (r + 1) ((v >>> 32).setWidth 32)

/-- An accumulator. -/
def State.pacc (s : State) (n : Nat) (a : AccId) : Word64 := if a then (s.pcore n).acc1 else (s.pcore n).acc0
def State.setPacc (s : State) (n : Nat) (a : AccId) (v : Word64) : State :=
  let c := s.pcore n
  s.setPcore n (if a then { c with acc1 := v } else { c with acc0 := v })

/-- PCC_STATUS.STATE: 0 HALTED, 1 RUNNING, 2 WAITING, 3 FAULTED (R131). -/
def State.pcState (s : State) (n : Nat) : Nat := s.rf (Reg.PCC_STATUS n) 2 0

/-- STATE changes; clocks spent RUNNING are counted up to the change (R132). -/
def State.setPcState (s : State) (n st : Nat) : State :=
  let c := s.pcore n
  let spent := match c.since with
    | some t => s.clk - t
    | none => 0
  let s1 := s.setPcore n { c with cycles := c.cycles + spent, since := if st = 1 then some s.clk else none }
  s1.wf (Reg.PCC_STATUS n) 2 0 st

/-- PCC_CYCLES. -/
def State.pcCycles (s : State) (n : Nat) : Nat :=
  let c := s.pcore n
  match c.since with
  | some t => c.cycles + (s.clk - t)
  | none => c.cycles

/-- The router source of a phase core (R128). -/
def pcSource (n : Nat) : Nat := 2560 + n

/-- PCC_EID. -/
def State.pcEid (s : State) (n : Nat) : Nat := s.rf (Reg.PCC_EID n) 5 0

/-- The requester that a phase core is; it has no privilege level and asks at PL0 (assumption 26). -/
def State.pcRequester (s : State) (n : Nat) : Requester :=
  { agent := .phaseCore (Fin.ofNat 256 n), pl := 0, eid := BitVec.ofNat 6 (s.pcEid n) }

/-- The stamp of a request: TDL[33:2], clamped at issue (R120). -/
def State.pcStamp (s : State) (n : Nat) : Stamp := s.clampStamp (s.pcore n).tdl.toNat

/-- A pending change of timing mode is committed (R115). -/
def State.commitMode (s : State) (n : Nat) : State :=
  let c := s.pcore n
  match c.flatNext with
  | some (_, m) => s.setPcore n { c with flat := m, flatNext := none }
  | none => s

/-! ### Faults and halts (R128, R129) -/

/-- The causes of a fault (R128). -/
inductive PcFault where
  | illegal | fetch | access | flat | poison | loop | denied
deriving DecidableEq, Repr

def PcFault.code : PcFault → Nat
  | .illegal => 1 | .fetch => 2 | .access => 3 | .flat => 4 | .poison => 5 | .loop => 6 | .denied => 7

/-- The physical address of a byte of a phase core's local memory (R105). -/
def localAddr (n off : Nat) : Nat := 0x10000000 + n * 0x10000 + off

/-- A fault: the instruction is not performed, and the core is FAULTED at its address (R128). A POISON fault writes a POISON_USE
entry with the physical address (R344). -/
def State.pcFault (s : State) (n : Nat) (cause : PcFault) (addr : Nat) (phys : Nat := localAddr n addr) : State :=
  let s1 := (s.commitMode n).setPcState n 3
  let s2 := s1.setPcore n { s1.pcore n with wait := none, long := none, sleep := none, stopping := false, stepping := false }
  let s3 := (s2.wr (Reg.PCC_FAULT n) cause.code).wr (Reg.PCC_FAULT_ADDR n) (addr % 2 ^ 32)
  let s4 := if cause = .poison then s3.log .poisonUse (s.unitPc n) phys else s3
  if s.rb (Reg.PCC_CTRL n) 3 then s4.source (pcSource n) else s4

/-- An instruction that R122 abandons is undone if it is still in progress; a sleeping WAITEV ends. -/
def State.abandon (s : State) (n : Nat) : State :=
  let c := s.pcore n
  match c.long with
  | some l =>
    if s.clk < l.until_ then
      (s.setPcore n { c with pc := l.pc, lcnt := l.lcnt, busy := s.clk, long := none, sleep := none }).setPreg n l.rd l.old
    else s.setPcore n { c with long := none, sleep := none }
  | none => s.setPcore n { c with sleep := none }

/-- Whether an instruction in progress must complete before the core can stop or enter preemption (R122). -/
def State.pcInFlight (s : State) (n : Nat) : Bool :=
  let c := s.pcore n
  c.wait.isSome || (decide (s.clk < c.busy) && !(c.long.any fun l => decide (s.clk < l.until_)))

/-- The core halts: with RUN at 0, or by debug with RUN as it is (R129, R545). -/
def State.pcStopNow (s : State) (n : Nat) : State :=
  let c := s.pcore n
  let s1 := ((s.abandon n).commitMode n).setPcState n 0
  let s2 := s1.setPcore n { s1.pcore n with stopping := false, halting := none, stepping := false
                                            halted := c.halted || c.halting.isSome }
  match c.halting with
  | some reason => (s2.wb (Reg.DBG_PC_STATUS n) 0 true).wf (Reg.DBG_PC_STATUS n) 2 1 reason
  | none => s2

/-- The core stops at once, or when the instruction in progress has completed (R122, R545). -/
def State.pcStop (s : State) (n : Nat) : State :=
  if s.pcState n = 1 ∨ s.pcState n = 2 then
    if s.pcInFlight n then s.after ((s.pcore n).busy - s.clk) (.pcHalt (Fin.ofNat 256 n)) else s.pcStopNow n
  else s

/-- The present instruction has completed: a halt that waited for it follows. -/
def State.pcHaltDue (s : State) (n : Nat) : State :=
  let c := s.pcore n
  if (c.stopping || c.halting.isSome) && (s.pcState n == 1 || s.pcState n == 2) && !s.pcInFlight n then s.pcStopNow n else s

/-! ### Preemption (R121, R122) -/

/-- An input with PREEMPT holds an event, and the core is not in preemption. -/
def State.preemptAsked (s : State) (n : Nat) : Bool :=
  !s.rb (Reg.PCC_STATUS n) 3 &&
    (s.pcore n).queues.any fun e => !e.2.isEmpty && s.rb (Reg.PCC_TASK_CFG n e.1) 24

/-- Preemption entry, which takes 4 clocks. -/
def State.preempt (s : State) (n : Nat) : State :=
  let s1 := (s.abandon n).commitMode n
  let c := s1.pcore n
  let s2 := s1.setPcore n { c with
    shadow := { pc := c.pc, ctask := c.ctask, tdl := c.tdl, lcnt := c.lcnt, lbeg := c.lbeg, lend := c.lend, flat := c.flat }
    lcnt := 0, pc := BitVec.ofNat 32 (s.rd (Reg.PCC_PRE_VEC n)), busy := s.clk + 4 }
  (((s2.wr (Reg.PCC_PRE_PC n) c.pc.toNat).wb (Reg.PCC_STATUS n) 3 true)).setPcState n 1

/-- PREEMPTION_ENTRY: at an instruction boundary, or at once from WAITING or from an instruction that R122 abandons. -/
def execPreemptionEntry (pc : PcId) (s : State) : Host.Outcome State Fault Refusal :=
  if (s.pcState pc.val = 1 ∨ s.pcState pc.val = 2) ∧ s.preemptAsked pc.val ∧ ¬ s.pcInFlight pc.val then
    .next (s.preempt pc.val)
  else .next s

/-- A request for preemption is met at once in WAITING, else at the next boundary. -/
def State.testPreempt (s : State) (n : Nat) : State :=
  if s.preemptAsked n ∧ (s.pcState n = 1 ∨ s.pcState n = 2) then
    if s.pcInFlight n then s.send ((s.pcore n).busy - s.clk) (.preemptionEntry (Fin.ofNat 256 n)) else s.preempt n
  else s

/-! ### Task inputs (R117 to R119) -/

def PCore.queue (c : PCore) (input : Nat) : List PcEvent := tabGet [] c.queues input

/-- Events of one clock stand in ascending order of source behind those of earlier clocks. -/
def eventInsert (e : PcEvent) : List PcEvent → List PcEvent
  | [] => [e]
  | x :: t => if x.clk = e.clk ∧ e.source < x.source then e :: x :: t else x :: eventInsert e t

/-- The events dropped in the present clock at an input. -/
def State.shedNow (s : State) (n input : Nat) : List PcEvent := (tabGet [] (s.pcore n).shed input).filter fun e => e.clk == s.clk

/-- An event enters an input. When the queue is full, the highest source of the events of this clock is dropped, with OVF and
DROPS; a pop of the same clock may still make room for it (R117). -/
def State.enterEvent (s : State) (n input : Nat) (source : BitVec 11) (gt : Word64) : State :=
  let c := s.pcore n
  let q := eventInsert { source := source, gt := gt, clk := s.clk } (c.queue input)
  let s1 := s.setPcore n { c with queues := tabSet [] c.queues input (q.take 8) }
  match q.drop 8 with
  | [] => s1
  | e :: _ =>
    let st := Reg.PCC_TASK_STAT n input
    let s2 := (s1.wb st 4 true).wf st 31 16 (satInc 16 (s1.rf st 31 16))
    let c := s2.pcore n
    (s2.setPcore n { c with shed := tabSet [] c.shed input (eventInsert e (s.shedNow n input)) }).after 1 (.shed (Fin.ofNat 256 n))

/-- A pop makes room for an event that was dropped in the same clock: a pop is applied before the entries of its clock (R117). -/
def State.unshed (s : State) (n input : Nat) : State :=
  match s.shedNow n input with
  | [] => s
  | e :: rest =>
    let c := s.pcore n
    let st := Reg.PCC_TASK_STAT n input
    let drops := s.rf st 31 16 - 1
    ((s.setPcore n { c with queues := tabSet [] c.queues input (eventInsert e (c.queue input)), shed := tabSet [] c.shed input rest }).wf
      st 31 16 drops).wb st 4 (drops != 0)

/-- The clock of a drop is over: the interrupt of a dropped event (R131). -/
def State.shedOver (s : State) (n : Nat) : State :=
  let c := s.pcore n
  let lost := c.shed.any fun e => !e.2.isEmpty
  let s1 := s.setPcore n { c with shed := [] }
  if lost ∧ s.rb (Reg.PCC_CTRL n) 5 then s1.source (pcSource n) else s1

/-- A sleeping WAITEV whose mask selects an input with an event completes 4 clocks after that event. -/
def State.rouse (s : State) (n : Nat) : State :=
  let c := s.pcore n
  match c.sleep with
  | some (rd, mask, none) =>
    if c.queues.any fun e => !e.2.isEmpty && mask.getLsbD e.1 then
      (s.setPcore n { c with sleep := some (rd, mask, some (s.clk + 4)) }).send 4 (.waitevWake (Fin.ofNat 256 n))
    else s
  | _ => s

/-- TASK_EVENT. Preemption takes precedence over a sleeping WAITEV (R121). -/
def execTaskEvent (pc : PcId) (input : BitVec 3) (source : BitVec 11) (instant : Word64) (s : State) :
    Host.Outcome State Fault Refusal :=
  let s1 := s.enterEvent pc.val input.toNat source instant
  .next ((if s1.preemptAsked pc.val then s1.testPreempt pc.val else s1).rouse pc.val)

/-- The lowest-numbered input of a mask that holds an event. -/
def PCore.ready (c : PCore) (mask : BitVec 8) : Option Nat :=
  (List.range 8).find? fun i => mask.getLsbD i && !(c.queue i).isEmpty

/-- WAITEV pops the oldest event of an input (R119). -/
def State.popEvent (s : State) (n input : Nat) (rd : PReg) : State :=
  let c := s.pcore n
  match c.queue input with
  | [] => s
  | e :: q =>
    let s1 := (s.setPcore n { c with
      queues := tabSet [] c.queues input q, ctask := BitVec.ofNat 3 input
      tdl := e.gt + BitVec.ofNat 64 (s.rf (Reg.PCC_TASK_CFG n input) 23 0) }).unshed n input
    (s1.setPreg n rd (BitVec.ofNat 32 (input * 2 ^ 16 + e.source.toNat))).wr (Reg.PCC_EV_GT n) e.gt.toNat

/-! ### The end of an instruction (R113, R115, R116) -/

/-- Where execution continues after an instruction: a loop-back, the next word, or the target of a jump that ends a loop which it
leaves (R116). Gives the new PC and LCNT. -/
def PCore.follow (c : PCore) (jump : Option Word32) : Word32 × Word32 :=
  match jump with
  | some t => (t, if c.lcnt ≠ 0 ∧ ¬ (c.lbeg ≤ t ∧ t ≤ c.lend) then 0 else c.lcnt)
  | none =>
    if c.lcnt ≠ 0 ∧ c.pc = c.lend then
      (if c.lcnt = 1 then c.lend + 4 else c.lbeg, c.lcnt - 1)
    else (c.pc + 4, c.lcnt)

/-- An instruction completes after `count` clocks at a PC and LCNT; a stepped core halts behind it (R545). -/
def State.pcEnd (s : State) (n count : Nat) (pc lcnt : Word32) (f : PCore → PCore) : State :=
  let c := s.pcore n
  let c1 := f { c with pc := pc, lcnt := lcnt, busy := s.clk + count, wait := none, flatNext := c.flatNext.map fun x => (x.1 - 1, x.2) }
  let s1 := s.setPcore n (if c.stepping then { c1 with halting := some 2, stepping := false } else c1)
  let s2 := if c.stepping ∨ c.stopping ∨ c.halting.isSome then s1.after count (.pcHalt (Fin.ofNat 256 n)) else s1
  if s2.preemptAsked n then s2.send count (.preemptionEntry (Fin.ofNat 256 n)) else s2

/-- An instruction completes behind itself or at the target of a jump. -/
def State.pcDone (s : State) (n count : Nat) (jump : Option Word32) : State :=
  let (pc, lcnt) := (s.pcore n).follow jump
  s.pcEnd n count pc lcnt id

/-- WAITEV_WAKE: a sleeping WAITEV completes. -/
def execWaitevWake (pc : PcId) (s : State) : Host.Outcome State Fault Refusal :=
  let c := s.pcore pc.val
  match c.sleep with
  | some (rd, mask, some t) =>
    match c.ready mask with
    | some i =>
      if s.pcState pc.val = 2 ∧ s.clk ≥ t ∧ s.modes.refclk then
        .next ((((s.setPcore pc.val { c with sleep := none }).popEvent pc.val i rd).setPcState pc.val 1).pcDone pc.val 0 none)
      else .next s
    | none => .next s
  | _ => .next s

/-! ### Start, stop and reset (R129) -/

/-- The core starts at PCC_ENTRY 4 clocks later. -/
def State.pcStart (s : State) (n : Nat) : State :=
  let c := s.pcore n
  let s1 := (s.wr (Reg.PCC_FAULT n) 0).wb (Reg.PCC_STATUS n) 3 false
  let s2 := s1.setPcore n { c with
    pc := BitVec.ofNat 32 (s.rd (Reg.PCC_ENTRY n)), lcnt := 0, busy := s.clk + 4, wait := none, long := none, sleep := none
    halted := false, stepping := false, stopping := false, halting := none }
  (if c.halted then s2.wb (Reg.DBG_PC_STATUS n) 0 false else s2).setPcState n 1

/-- Every PCC register of a core loaded with its reset value. -/
def State.clearPcc (s : State) (n : Nat) : State :=
  { s with regs := s.regs.filter fun e => !(decide (Reg.PCC_CTRL n ≤ e.1) && decide (e.1 < Reg.PCC_CTRL (n + 1))) }

/-- What an instruction in progress has still to do. -/
def Act.ofPc (n : Nat) : Act → Bool
  | .pina m .. | .evsend m .. | .engine m .. => m.val == n
  | _ => false

/-- CORE_RST: the event queues empty, the registers and the state of R101 take their reset values; local memory is kept. -/
def State.pcReset (s : State) (n : Nat) : State :=
  let s1 := (s.clearPcc n).setPcore n {}
  { s1 with agenda := s1.agenda.filter fun e => !e.2.ofPc n }

/-- The timing mode that the core comes to when nothing more changes it. -/
def PCore.flatDue (c : PCore) : Bool := match c.flatNext with | some (_, m) => m | none => c.flat

/-- A change of PCC_CTRL.TMODE: at once while HALTED or FAULTED, else after two instructions that follow the one in progress, which a
sleeping WAITEV or an instruction that waits still is (R115; assumptions 28, 123). -/
def State.tmodeWritten (s : State) (n : Nat) (flat : Bool) : State :=
  let c := s.pcore n
  if s.pcState n = 0 ∨ s.pcState n = 3 then s.setPcore n { c with flat := flat, flatNext := none }
  else s.setPcore n { c with flatNext := some (if c.sleep.isSome || c.wait.isSome then 3 else 2, flat) }

/-- A write of PCC_CTRL (R115, R122, R129, R131). -/
def State.writePccCtrl (s : State) (n v : Nat) : State :=
  let a := Reg.PCC_CTRL n
  if v.testBit 2 then s.pcReset n
  else
    let was := s.rb a 0
    let old := s.rb a 1
    let s1 := s.storeReg a v
    let s2 := if s1.rb a 1 ≠ old ∨ ((s.pcore n).flatDue ≠ v.testBit 1 ∧ s.unlockedAt a) then s1.tmodeWritten n (v.testBit 1) else s1
    if ¬ was ∧ s1.rb a 0 then
      if s.modes.lostPcs.contains n then s2
      else if s.pcState n = 0 ∨ s.pcState n = 3 then s2.pcStart n
      else s2.setPcore n { s2.pcore n with stopping := false }
    else if was ∧ ¬ s1.rb a 0 then (s2.setPcore n { s2.pcore n with stopping := true }).pcStop n
    else s2

/-- RUN_START: RUN is written as 1 over the other fields as they stand. -/
def execRunStart (pc : PcId) (_who : Requester) (s : State) : Host.Outcome State Fault Refusal :=
  .next (s.writePccCtrl pc.val (putFld (s.rd (Reg.PCC_CTRL pc.val)) 0 0 1))

/-- RUN_STOP: RUN is written as 0 over the other fields as they stand. -/
def execRunStop (pc : PcId) (_who : Requester) (s : State) : Host.Outcome State Fault Refusal :=
  .next (s.writePccCtrl pc.val (putFld (s.rd (Reg.PCC_CTRL pc.val)) 0 0 0))

/-- CORE_RST. -/
def execCoreRst (pc : PcId) (_who : Requester) (s : State) : Host.Outcome State Fault Refusal :=
  .next (s.writePccCtrl pc.val (putFld (s.rd (Reg.PCC_CTRL pc.val)) 2 2 1))

/-- TMODE: TMODE is written over the other fields as they stand. -/
def execTmode (pc : PcId) (_who : Requester) (mode : Bool) (s : State) : Host.Outcome State Fault Refusal :=
  .next (s.writePccCtrl pc.val (putFld (s.rd (Reg.PCC_CTRL pc.val)) 1 1 (b2n mode)))

/-- A write of PCC_EV_POST: an event with source 2,047 (R118). -/
def State.postEvent (s : State) (n : Nat) (input : BitVec 3) : State :=
  s.send 0 (.taskEvent (Fin.ofNat 256 n) input 2047 s.gt.now)

/-- PCC_EV_POST. -/
def execPccEvPost (pc : PcId) (_who : Requester) (input : BitVec 3) (s : State) : Host.Outcome State Fault Refusal :=
  .next (s.postEvent pc.val input)

/-- The address of a register that R130 guards. -/
def guardedAddr (n : Nat) : PccGuarded → Nat
  | .eid => Reg.PCC_EID n
  | .winBase k => Reg.PCC_WIN_BASE n k.toNat
  | .winCfg k => Reg.PCC_WIN_CFG n k.toNat

/-- A write of PCC_EID or a PCC_WIN register: only while HALTED or FAULTED, and PCC_EID only at PL3 (R130). -/
def State.writeGuarded (s : State) (n : Nat) (who : Requester) (r : PccGuarded) (v : Nat) : State :=
  if s.pcState n = 1 ∨ s.pcState n = 2 then s.wb (Reg.PCC_STATUS n) 8 true
  else if r = .eid ∧ who.pl ≠ 3 then s
  else s.storeReg (guardedAddr n r) v

/-- PCC_EID, and the other registers that R130 guards. -/
def execPccEid (pc : PcId) (who : Requester) (reg : PccGuarded) (value : Word64) (s : State) :
    Host.Outcome State Fault Refusal :=
  .next (s.writeGuarded pc.val who reg value.toNat)

/-- A write of any register of a phase core. -/
def State.writePcc (s : State) (n : Nat) (who : Requester) (a v : Nat) : State :=
  let off := a - Reg.PCC_CTRL n
  if off = 0 then s.writePccCtrl n v
  else if a = Reg.PCC_EID n then s.writeGuarded n who .eid v
  else if 0x100 ≤ off ∧ off < 0x180 then
    s.writeGuarded n who (if off % 16 = 0 then .winBase (BitVec.ofNat 3 (off / 16)) else .winCfg (BitVec.ofNat 3 (off / 16))) v
  else if a = Reg.PCC_EV_POST n then s.postEvent n (BitVec.ofNat 3 v)
  else if 0x40 ≤ off ∧ off < 0x80 then
    let s1 := s.storeReg a v
    if off % 8 = 4 ∧ v.testBit 4 then s1.wf a 31 16 0 else s1.testPreempt n
  else s.storeReg a v

/-- What a read of a register of a phase core returns; the core itself reads the same (R102, R130). -/
def State.readPcc (s : State) (n a : Nat) : Nat :=
  let c := s.pcore n
  let off := a - Reg.PCC_CTRL n
  if off = 4 then
    putFld (putFld (putFld (s.rd a) 4 4 (b2n c.flat)) 5 5 (b2n (c.lcnt != 0))) 18 16 c.post.length
  else if a = Reg.PCC_PC n then c.pc.toNat
  else if a = Reg.PCC_TDL n then c.tdl.toNat
  else if a = Reg.PCC_CYCLES n then s.pcCycles n
  else if a = Reg.PCC_CTASK n then c.ctask.toNat
  else if 0x40 ≤ off ∧ off < 0x80 ∧ off % 8 = 4 then putFld (s.rd a) 3 0 (c.queue ((off - 0x40) / 8)).length
  else if a = Reg.PCC_EV_POST n then 0
  else s.rd a

/-! ### Local memory (R105, R346) -/

/-- The first word among some bytes of local memory that is uncorrectable and that the bytes do not wholly cover, or cover if
`whole` counts too. -/
def State.badLocal (s : State) (n off bytes : Nat) (whole : Bool) : Option Nat :=
  ((List.range 3).map fun k => off / 4 * 4 + k * 4).find? fun w =>
    decide (w < off + bytes) && s.poisoned (localAddr n w) && (whole || !(decide (off ≤ w) && decide (w + 4 ≤ off + bytes)))

/-- Bytes written to local memory; a word that is wholly rewritten is good again. -/
def State.writeLocal (s : State) (n off bytes v : Nat) : State :=
  let s1 := s.setBytes (localAddr n off) (toBytes bytes v)
  ((List.range (bytes / 4 + 2)).map fun k => off / 4 * 4 + k * 4).foldl
    (fun s w => if off ≤ w ∧ w + 4 ≤ off + bytes then s.setPoison (localAddr n w) false else s) s1

/-- An access of an agent outside the core: the value a read returns, and the state. -/
def State.outsideLocal (s : State) (n off bytes : Nat) (store : Option Nat) : Except AccessErr Nat × State :=
  match s.badLocal n off bytes store.isNone with
  | some w => (.error (if store.isNone then .poison else .target), s.log .sramUe (s.unitPc n) (localAddr n w))
  | none =>
    match store with
    | some v => (.ok 0, s.writeLocal n off bytes v)
    | none => (.ok (s.bytes (localAddr n off) bytes), s)

/-- LOCAL_MEMORY_ACCESS: served in a free clock of the owning core, which it never delays (R105). -/
def execLocalMemoryAccess (pc : PcId) (_who : Requester) (offset : BitVec 16) (size : BitVec 2) (store : Option Word64)
    (s : State) : Host.Outcome State Fault Refusal :=
  let (r, s1) := s.outsideLocal pc.val offset.toNat (2 ^ size.toNat) (store.map (·.toNat))
  match r with
  | .ok v => .next (if store.isNone then { s1 with lastRead := BitVec.ofNat 64 v } else s1)
  | .error _ => .next s1

/-! ### The post queue (R124 to R126) -/

/-- The requester of a post-queue entry. -/
def PostEntry.who (e : PostEntry) (n : Nat) : Requester :=
  { agent := .phaseCore (Fin.ofNat 256 n), pl := 0, eid := e.eid }

/-- An entry joins the post queue, which drains in order. -/
def State.pushPost (s : State) (n : Nat) (e : PostEntry) : State :=
  let c := s.pcore n
  (s.setPcore n { c with post := c.post ++ [e] }).send 1 (.postQueueDrain (Fin.ofNat 256 n))

/-- The oldest entry of the post queue is done with: an instruction that waits for room takes its place, and the next entry follows. -/
def State.popPost (s : State) (n : Nat) : State :=
  let c := s.pcore n
  let s1 := s.setPcore n { c with post := c.post.tail, posting := false }
  let s2 := if c.post.length ≤ 1 then s1 else s1.send 0 (.postQueueDrain (Fin.ofNat 256 n))
  match c.wait with
  | some (.post w) => (s2.pushPost n w).pcDone n 3 none
  | _ => s2

/-- POST_QUEUE_DRAIN: the oldest entry is presented. A point write keeps its place until its grant, so that the queue drains in order. -/
def execPostQueueDrain (pc : PcId) (s : State) : Host.Outcome State Fault Refusal :=
  let n := pc.val
  let c := s.pcore n
  match c.post with
  | [] => .next s
  | e :: _ =>
    if c.posting then .next s
    else if e.point then
      .next ((s.setPcore n { c with posting := true }).present 0 12 (n / 64) e.stamp e.target 16
        (.point (Fin.ofNat 131072 e.target) (e.who n) (.write e.value none)))
    else .next ((s.popPost n).send 0 (.doorbell (Fin.ofNat 262144 e.target) (e.who n) e.value e.stamp))

/-- A point write of a phase core has been granted. -/
def State.postGranted (s : State) (n pt : Nat) : State :=
  let c := s.pcore n
  if c.posting ∧ (c.post.head?.map fun e => e.target) = some pt then s.popPost n else s

/-! ### Answers to what a phase core waits for -/

/-- Writes what an access of a phase core has read. -/
def State.pcDeliver (s : State) (n bytes : Nat) (d : PcDest) (v : Nat) : State :=
  match d with
  | .reg r signed => s.setPreg n r (if signed then BitVec.ofInt 32 (toSigned (8 * bytes) v) else BitVec.ofNat 32 v)
  | .pair r => s.setPpair n r (BitVec.ofNat 64 v)
  | .acc a => s.setPacc n a (BitVec.ofNat 64 v)

/-- An answer of the point image to a PTLD: the word read, a refusal or poison (R124, R128). Unloaded, O is 40 clocks. -/
def State.pcPoint (s : State) (n : Nat) (r : Except AccessErr Nat) : State :=
  match (s.pcore n).wait with
  | some (.point pt dest) =>
    match r with
    | .ok v => (s.pcDeliver n 8 dest v).pcDone n 39 none
    | .error .poison => s.pcFault n .poison pt (0x20000000 + 16 * pt)
    | .error _ => s.pcFault n .denied pt
  | _ => s

/-- The bytes of an access among the lines received, as a little-endian number. -/
def lineBytes (got : Tab Line) (a : Nat) : Nat → Nat
  | 0 => 0
  | k + 1 => ((tabGet 0 got (a / 64 * 64) >>> (8 * (a % 64))).toNat % 256) + 256 * lineBytes got (a + 1) k

/-- A line, or the completion of a store, arrives for a WINDOW access; the way through the phase core's own port takes 20 ns, so that
an unloaded DRAM row miss takes the 128 clocks of R112. A fault names the lowest address in the line refused. -/
def State.pcWindow (s : State) (n line : Nat) (r : Except AccessErr Line) : State :=
  match (s.pcore n).wait with
  | some (.window a lines got) =>
    match r with
    | .error e =>
      let bad := a.vaddr.toNat + (line - a.paddr)
      if e = .poison then s.pcFault n .poison bad line else s.pcFault n .access bad
    | .ok data =>
      let lines := lines.filter (· != line)
      let got := tabSet 0 got line data
      if lines.isEmpty then
        match a.store with
        | some _ => s.pcDone n 20 none
        | none => (s.pcDeliver n a.bytes a.dest (lineBytes got a.paddr a.bytes)).pcDone n 21 none
      else s.setPcore n { s.pcore n with wait := some (.window a lines got) }
  | _ => s

end Sys2Proof.Machine
end

