-- ==== Sys2Proof/Machine/Router.lean ====
section
/-!
DEFINITION. Sys2Proof/Machine/Router.lean: the interrupt router, posted interrupts and bells (R181 to R185, R191, R192, R436).
-/
namespace Sys2Proof.Machine

/-! ### The EID of a source (R436) -/

/-- The VIs that are valid (R365). -/
def State.validVis (s : State) : List Nat :=
  s.regs.filterMap fun e =>
    if Reg.VI_CFG 0 ≤ e.1 ∧ e.1 < Reg.VI_CFG 4096 ∧ (e.1 - Reg.VI_CFG 0) % 0x40 = 0 ∧ e.2.toNat % 2 = 1 then
      some ((e.1 - Reg.VI_CFG 0) / 0x40) else none

def State.viEid (s : State) (v : Nat) : Nat := s.rf (Reg.VI_CFG v) 13 8

/-- The VI whose vector range holds a source. -/
def State.viOfSource (s : State) (n : Nat) : Option Nat :=
  s.validVis.find? fun v =>
    decide (s.rf (Reg.VI_VEC v) 9 0 ≤ n ∧ n < s.rf (Reg.VI_VEC v) 9 0 + s.rf (Reg.VI_VEC v) 22 16)

/-- The EID that a router source carries. -/
def State.sourceEid (s : State) (n : Nat) : Nat :=
  if n < 1024 then (match s.viOfSource n with | some v => s.viEid v | none => 0)
  else if n < 2048 then s.rf (Reg.CMP_CTRL (n - 1024)) 21 16
  else if n < 2304 then
    let c := s.rd (Reg.CAP_CTRL (n - 2048))
    if c.testBit 3 then s.rf (Reg.SDF_PT (fld c 9 4)) 29 24 else s.rf (Reg.PIN_OWNER (fld c 12 4)) 5 0
  else if n < 2368 then s.rf (Reg.SDF_PT (n - 2304)) 29 24
  else if n < 2384 then
    match (bankPins (n - 2368)).find? fun p => s.rf (Reg.PIN_OWNER p) 5 0 != 0 with
    | some p => s.rf (Reg.PIN_OWNER p) 5 0
    | none => 0
  else if 2560 ≤ n ∧ n < 2816 then s.pcEid (n - 2560)
  else 0

/-- IRT_SRC_CFGn as it reads. -/
def State.readSrcCfg (s : State) (n : Nat) : Nat := putFld (s.rd (Reg.IRT_SRC_CFG n)) 29 24 (s.sourceEid n)

/-! ### Delivery (R182) -/

/-- TARGET and VECTOR of a source. -/
def State.srcTarget (s : State) (n : Nat) : Nat := s.rf (Reg.IRT_SRC_CFG n) 10 4
def State.srcVector (s : State) (n : Nat) : Nat := s.rf (Reg.IRT_SRC_CFG n) 23 16

/-- EN and PENDING are both 1. -/
def State.deliverable (s : State) (n : Nat) : Bool := s.rb (Reg.IRT_SRC_CFG n) 0 && s.rb (Reg.IRT_SRC_CFG n) 2

/-- A target above 95, an absent core, or a vector of 240 or above. -/
def State.targetBad (s : State) (n : Nat) : Bool :=
  decide (95 < s.srcTarget n) || s.rb (Reg.PVT_COREPT (s.srcTarget n)) 3 || decide (240 ≤ s.srcVector n)

/-- A source is posted: VIRT is 1 and no enclave owns it. -/
def State.posted (s : State) (n : Nat) : Bool := s.rb (Reg.IRT_SRC_CFG n) 1 && s.sourceEid n == 0

/-- The router delivers a source, or leaves it pending: with TGT_ERR for a target error, without it while the target core is gated
(R515). -/
def State.deliver (s : State) (n : Nat) : State :=
  let cfg := Reg.IRT_SRC_CFG n
  if ¬ s.deliverable n then s
  else if s.targetBad n then s.wb cfg 3 true
  else if ¬ s.coreUp (s.srcTarget n) then s
  else if s.posted n then s.send 0 (.interruptPost (Fin.ofNat 4096 n))
  else
    (s.wb cfg 2 false).after 30 (.vector (coreId (s.srcTarget n)) (if s.sourceEid n = 0 then .two else .three)
      (BitVec.ofNat 8 (s.srcVector n)))

/-- INTERRUPT_SOURCE_EVENT: an event of a source. -/
def execInterruptSourceEvent (n : SrcId) (s : State) : Host.Outcome State Fault Refusal := .next (s.source n.val)

/-- INTERRUPT_DELIVERY. -/
def execInterruptDelivery (n : SrcId) (s : State) : Host.Outcome State Fault Refusal := .next (s.deliver n.val)

/-! ### Posts (R183) -/

/-- The record of a source. -/
def State.srcRecord (s : State) (n : Nat) : Nat := s.rd (Reg.IRT_SRC_REC n)

/-- The router sends a post to the record's home. -/
def State.post (s : State) (n : Nat) : State :=
  if s.deliverable n ∧ s.posted n then
    let a := s.srcRecord n
    let q : CohReq := { from_ := .router, line := paddr a, pl := 0, eid := 0, stamp := s.stampWith 0, dev := false, dirErr := .good }
    { s.wb (Reg.IRT_SRC_CFG n) 2 false with posting := s.posting ++ [(a, n)] }.send reqNs
      (.writePartialPost q (BitVec.ofNat 8 (s.srcVector n)))
  else s

/-- INTERRUPT_POST. -/
def execInterruptPost (n : SrcId) (s : State) : Host.Outcome State Fault Refusal := .next (s.post n.val)

/-- POST_RETRY: a post that found the log full is made again. -/
def execPostRetry (n : SrcId) (s : State) : Host.Outcome State Fault Refusal := .next (s.post n.val)

/-- The first post to a record that awaits its Comp, and the others. -/
def takePosting (a : Nat) : List (Nat × Nat) → Option Nat × List (Nat × Nat)
  | [] => (none, [])
  | e :: t => if e.1 = a then (some e.2, t) else let r := takePosting a t; (r.1, e :: r.2)

/-- The home answers a post with the record's prior bytes 0 to 7. A post that was written rings when RUNG and MUTE were 0; one that
found the log full, or that the home refused (assumption 35), keeps its source pending. -/
def State.postAnswer (s : State) (a : Nat) (st : CohStatus) (prior : Word64) : State :=
  match takePosting a s.posting with
  | (none, _) => s
  | (some n, rest) =>
    let s1 := { s with posting := rest }
    let get := fun k => fld prior.toNat (8 * k + 7) (8 * k)
    if st ≠ .ok then s1.wb (Reg.IRT_SRC_CFG n) 2 true
    else if (get 0 + 256 - get 1) % 256 < 32 then
      if fld (get 2) 1 0 = 0 ∧ fld (get 3) 6 0 < 96 ∧ get 4 < 240 then
        s1.send 30 (.bell (coreId (fld (get 3) 6 0)) (paddr a) (BitVec.ofNat 8 (get 4)))
      else s1
    else (s1.wb (Reg.IRT_SRC_CFG n) 2 true).send 1000 (.postRetry (Fin.ofNat 4096 n))

/-! ### Bells and absorption (R184) -/

/-- A write of an agent that works on the line where it stands: memory, the LLC's copy and every cache's copy change together. -/
def State.writeThrough (s : State) (a : Nat) (bytes : List Byte) (writer : Option Nat) : State :=
  let s1 := (s.setBytes a bytes).losesReservation a writer
  let lines := (List.range ((a % 64 + bytes.length + 63) / 64)).map fun k => lineOf a + 64 * k
  lines.foldl (fun s l =>
    let data := s.lineData l
    let h := s.homeOf l
    let s2 := match (s.home h).cached l with
      | some c => s.setHome h ((s.home h).setCached l (some { c with data := data, dirty := true }))
      | none => s
    { s2 with cores := s2.cores.map fun e =>
        match e.2.line l with
        | some c => if c.st.valid then (e.1, e.2.setLine l (some { c with data := data })) else e
        | none => e }) s1

/-- The vectors in entries HEAD to TAIL − 1 of a record's log. -/
def recordVectors (rec : List Byte) : List Nat :=
  let head := (rec.getD 1 0).toNat
  let count := ((rec.getD 0 0).toNat + 256 - head) % 256
  (List.range (min count 32)).map fun k => (rec.getD (32 + (head + k) % 32) 0).toNat

/-- A core absorbs a record: PEND_PL1 takes its vectors, HEAD becomes TAIL, RUNG and FULL clear. -/
def State.absorbRecord (s : State) (c a : Nat) : State :=
  let rec_ := toBytes 64 (s.lineData a).toNat
  let s1 := (recordVectors rec_).foldl (fun s v => s.pend c 1 v) s
  let flags := rec_.getD 2 0 &&& 0xFA
  s1.writeThrough (lineOf a) ((rec_.take 1) ++ [rec_.getD 0 0, flags]) (some c)

/-- BELL: absorbed when HPIPA names the record, else vector BELL in view 2. -/
def execBell (c : CoreId) (record : PAddr) (vector : Byte) (s : State) : Host.Outcome State Fault Refusal :=
  if s.sr c.val Sr.HPIPA = record.toNat then .next (s.absorbRecord c.val record.toNat)
  else .next (s.pend c.val 2 vector.toNat)

/-! ### The router's registers (R191, R192) -/

/-- A write to IRT_SRC_CFGn or IRT_SRC_RECn: of an enclave's source only at PL3. A pending source is then tried again. -/
def State.writeSrc (s : State) (n : Nat) (who : Requester) (record : Bool) (v : Nat) : State :=
  let a := if record then Reg.IRT_SRC_REC n else Reg.IRT_SRC_CFG n
  if s.sourceEid n ≠ 0 ∧ who.pl ≠ 3 then s.log .enclaveDeny (dieUnit 15 0) a
  else
    let s1 := s.storeReg a v
    if ¬ record ∧ s1.deliverable n then s1.dispatch n else s1

/-- IRT_SRC_CFG, and IRT_SRC_REC. -/
def execIrtSrcCfg (n : SrcId) (who : Requester) (record : Bool) (value : Word64) (s : State) : Host.Outcome State Fault Refusal :=
  .next (s.writeSrc n.val who record value.toNat)

/-- A write to the page g of software-generated sources. -/
def State.swgen (s : State) (g v : Nat) : State := s.source (3072 + 16 * g + v % 16)

/-- IRT_SWGEN. -/
def execIrtSwgen (page : BitVec 6) (_who : Requester) (value : Word32) (s : State) : Host.Outcome State Fault Refusal :=
  .next (s.swgen page.toNat value.toNat)

/-- Every enabled source that is pending is tried: after the device wakes, or a core that was gated is powered on (R503, R515). -/
def State.retrySources (s : State) : State :=
  s.regs.foldl (fun t e =>
    if Reg.IRT_SRC_CFG 0 ≤ e.1 ∧ e.1 < Reg.IRT_SRC_CFG 4096 ∧ (e.1 - Reg.IRT_SRC_CFG 0) % 16 = 0 ∧ e.2.toNat % 8 / 4 = 1 ∧
        e.2.toNat % 2 = 1 ∧ e.2.toNat % 16 / 8 = 0 then
      t.dispatch ((e.1 - Reg.IRT_SRC_CFG 0) / 16) else t) s

end Sys2Proof.Machine
end

