-- ==== Sys2Proof/Machine/QueueBase.lean ====
section
/-!
DEFINITION. Sys2Proof/Machine/QueueBase.lean: virtual interfaces, queues and their status words, doorbells, the doorbell FIFO and
bitmap (R363 to R367, R373 to R377, R388 to R392).
-/
namespace Sys2Proof.Machine

def State.queue (s : State) (q : Nat) : Queue := tabGet {} s.queues q
def State.setQueueCtx (s : State) (q : Nat) (x : Queue) : State := { s with queues := tabSet {} s.queues q x }
def State.qe (s : State) (e : Nat) : Qe := tabGet {} s.qes e

/-- The engine of a queue (R363). -/
def engineOf (q : Nat) : Nat := q / 65536

/-- FIFO_USED, SCAN and CH_BUSY follow the engine's state (R389). -/
def State.setQe (s : State) (e : Nat) (x : Qe) : State :=
  let s1 := { s with qes := tabSet {} s.qes e x }
  (s1.wf (Reg.QE_STATUS e) 12 0 x.fifo.length).wf (Reg.QE_STATUS e) 21 16 ((x.chans.filter fun c => c.2.queue.isSome).length)

def Qe.chan (x : Qe) (k : Nat) : Chan := tabGet {} x.chans k
def State.chan (s : State) (e k : Nat) : Chan := (s.qe e).chan k
def State.setChan (s : State) (e k : Nat) (c : Chan) : State := s.setQe e { s.qe e with chans := tabSet {} (s.qe e).chans k c }

/-! ### VIs (R365) -/

/-- The VI whose queue range holds a queue. -/
def State.viOfQueue (s : State) (q : Nat) : Option Nat :=
  s.validVis.find? fun v =>
    decide (s.rf (Reg.VI_QRANGE v) 17 0 ≤ q ∧ q < s.rf (Reg.VI_QRANGE v) 17 0 + s.rf (Reg.VI_QRANGE v) 26 18)

def State.viVmid (s : State) (v : Nat) : Nat := s.rf (Reg.VI_CFG v) 27 16
/-- The EID that a queue's requests carry; 0 for a queue of no VI. -/
def State.queueEid (s : State) (q : Nat) : Nat := match s.viOfQueue q with | some v => s.viEid v | none => 0

/-- The queue that an offset of a VI's doorbell page names (R374). -/
def State.pageQueue (s : State) (v k : Nat) : Option Nat :=
  if s.rb (Reg.VI_CFG v) 0 ∧ k < s.rf (Reg.VI_QRANGE v) 26 18 then some (s.rf (Reg.VI_QRANGE v) 17 0 + k) else none

/-! ### The status word (R390) -/

def qstat (q : Nat) : Nat := Reg.QE_QSTAT (engineOf q) (q % 65536)
def State.qHead (s : State) (q : Nat) : Nat := s.rf (qstat q) 23 0
def State.qTail (s : State) (q : Nat) : Nat := s.rf (qstat q) 47 24
def State.qGen (s : State) (q : Nat) : Nat := s.rf (qstat q) 55 48
def State.qState (s : State) (q : Nat) : Nat := s.rf (qstat q) 58 56

def qUnbound : Nat := 0
def qIdle : Nat := 1
def qActive : Nat := 2
def qWaitGen : Nat := 3
def qFault : Nat := 4
def qError : Nat := 5

def State.setQState (s : State) (q st : Nat) : State := s.wf (qstat q) 58 56 st

/-- 24-bit difference of two counts (R367). -/
def diff24 (a b : Nat) : Nat := (a + 2 ^ 24 - b % 2 ^ 24) % 2 ^ 24

/-- The descriptors that a queue holds. -/
def State.qHeld (s : State) (q : Nat) : Nat := diff24 (s.qTail q) (s.qHead q)

/-- The descriptors that it holds and that have not been fetched. -/
def State.qToFetch (s : State) (q : Nat) : Nat := diff24 (s.qTail q) (s.queue q).next

def State.qSize (s : State) (q : Nat) : Nat := 2 ^ (s.queue q).log2

/-- A queue is ACTIVE while it holds descriptors and IDLE while it holds none. -/
def State.qSettle (s : State) (q : Nat) : State :=
  if s.qState q = qIdle ∨ s.qState q = qActive then s.setQState q (if s.qHeld q = 0 then qIdle else qActive) else s

/-- The queue can take work: it is bound and not in FAULT or ERROR. -/
def State.qWorks (s : State) (q : Nat) : Bool := s.qState q == qIdle || s.qState q == qActive || s.qState q == qWaitGen

/-- The queue's source is raised, if it has a vector (R373). -/
def State.qRaise (s : State) (q : Nat) : State :=
  match s.viOfQueue q with
  | some v => if (s.queue q).vec = 0xFF then s else s.source (s.rf (Reg.VI_VEC v) 9 0 + (s.queue q).vec)
  | none => s

/-- Queue types (R368). -/
def typeCopy : Nat := 0
def typeTx : Nat := 1
def typeRx : Nat := 2
def typePoint : Nat := 3
def typePhase : Nat := 4

/-! ### Doorbells (R375 to R377) -/

/-- An engine looks for work for its free channels. -/
def State.kickQe (s : State) (e : Nat) : State :=
  if s.agenda.any fun x => x.2 == .cmd (.channelAssign (Fin.ofNat 4 e)) then s else s.send 5 (.channelAssign (Fin.ofNat 4 e))

/-- Passes of the scanner run while the engine is in SCAN: 640 ns each. -/
def State.armScan (s : State) (e : Nat) : State :=
  if s.agenda.any fun x => x.2 == .cmd (.doorbellScan (Fin.ofNat 4 e)) then s else s.send 640 (.doorbellScan (Fin.ofNat 4 e))

/-- A number put into an ascending list that does not hold it. -/
def insertAscending (k : Nat) : List Nat → List Nat
  | [] => [k]
  | x :: t => if k < x then k :: x :: t else if k = x then x :: t else x :: insertAscending k t

/-- An accepted doorbell that leaves work goes to the FIFO or to the bitmap. -/
def State.enterWork (s : State) (q : Nat) (stamp : Stamp) : State :=
  let e := engineOf q
  let x := s.qe e
  if s.rb (Reg.QE_STATUS e) 13 then
    ((s.setQe e { x with bitmap := insertAscending q x.bitmap }).tally (Reg.QE_SCAN_COUNT e)).kickQe e
  else if x.fifo.length ≥ 4096 then
    let s1 := s.setQe e { x with bitmap := insertAscending q x.bitmap, scanHit := true }
    ((((s1.wb (Reg.QE_STATUS e) 13 true).wb (Reg.QE_STATUS e) 14 true).tally (Reg.QE_SCAN_COUNT e)).armScan e).kickQe e
  else (s.setQe e { x with fifo := x.fifo ++ [(q, s.qTail q, stamp)] }).kickQe e

/-- A doorbell that is ignored is counted; it sets DB_ERR unless the queue is UNBOUND. -/
def State.rejectDoorbell (s : State) (q : Nat) : State :=
  let s1 := s.count (Reg.QE_DB_REJECT (engineOf q)) 32
  if s.qState q = qUnbound then s1 else s1.wb (qstat q) 59 true

/-- A doorbell of the right enclave: an add or a set of TAIL. Bits [30:24] and [63:32] are not examined (assumption 36). -/
def State.applyDoorbell (s : State) (q v : Nat) (stamp : Stamp) : State :=
  let add := v.testBit 31
  let x := v % 2 ^ 24
  let tail := if add then (s.qTail q + x) % 2 ^ 24 else x
  let held := diff24 tail (s.qHead q)
  let beyond_ := if add then decide (s.qSize q < s.qHeld q + x) else decide (s.qSize q < held)
  let fewer := !add && decide (held < s.qHeld q) && s.qState q != qWaitGen
  if add ∧ x = 0 then s
  else if ¬ s.qWorks q ∨ beyond_ = true ∨ fewer = true then s.rejectDoorbell q
  else
    let s1 := ((s.wf (qstat q) 47 24 tail).tally (Reg.QE_DB_COUNT (engineOf q))).qSettle q
    if (s.queue q).kind = typeRx ∨ s1.qToFetch q = 0 then s1 else s1.enterWork q stamp

/-- A doorbell arrives at its engine. One that carries another EID is discarded, or refused to a main core (R376). -/
def State.doorbell (s : State) (q : Nat) (who : Requester) (v : Nat) (stamp : Stamp) : Option AccessErr × State :=
  if s.queueEid q ≠ who.eid.toNat then
    match who.agent with
    | .compare n => (none, s.wb (Reg.CMP_STATUS n.val) 3 true)
    | .phaseCore p => (none, s.wb (Reg.PCC_STATUS p.val) 7 true)
    | _ => (some .enclave, s)
  else (none, s.applyDoorbell q v stamp)

/-- VI_DB of a queue of a VI (R374). -/
def State.doorbellAddr (s : State) (v q : Nat) : Nat := 0x30000000 + v * 0x1000 + 8 * (q - s.rf (Reg.VI_QRANGE v) 17 0)

/-! ### Translation (R260) -/

/-- A read of a stage-2 entry for a queue. -/
def qeReadTable (eid : Nat) (s : State) (level a : Nat) : Except WalkEnd Nat × State :=
  if ¬ s.inDram a then (.error (.fault level 9), s)
  else if ¬ s.ertPermits eid a false then (.error .denied, s)
  else if s.poisoned (lineOf a) then (.error (.poison a), s)
  else (.ok (s.bytes a 8), s)

/-- The translation of an IPA for a VI, through the engine's cache. -/
def State.qeEntry (s : State) (e v ipa : Nat) : Option QeTlb × State :=
  let vmid := s.viVmid v
  let x := s.qe e
  match x.tlb.find? fun t => decide (t.vmid = vmid) && decide (t.ipage = ipa / 2 ^ t.size * 2 ^ t.size) with
  | some t => (some t, s)
  | none =>
    match walk true (qeReadTable (s.viEid v)) ipa 4 s (s.rd (Reg.VI_S2BASE v)) with
    | (.ok l, s1) =>
      let m := 2 ^ l.size
      let t : QeTlb := { vmid := vmid, size := l.size, ipage := ipa / m * m, ppage := l.out / m * m, type := l.type, r := l.perm.r
                         w := l.perm.w }
      (some t, s1.setQe e { x with tlb := (t :: x.tlb).take 1024 })
    | (.error _, s1) => (none, s1)

/-- The parts of a range of IPAs, as bytes and physical address; none where translation or permission fails. -/
def State.qeRange (s : State) (e v : Nat) (write : Bool) : Nat → Nat → Nat → Option (List (Nat × Nat × MemType)) × State
  | 0, _, left => (if left = 0 then some [] else none, s)
  | fuel + 1, ipa, left =>
    if left = 0 then (some [], s)
    else if 2 ^ 46 ≤ ipa then (none, s)
    else
      match s.qeEntry e v ipa with
      | (none, s1) => (none, s1)
      | (some t, s1) =>
        if ¬ (if write then t.w else t.r) then (none, s1)
        else
          let off := ipa - t.ipage
          let n := min left (2 ^ t.size - off)
          match s1.qeRange e v write fuel (ipa + n) (left - n) with
          | (some r, s2) => (some ((n, t.ppage + off, t.type) :: r), s2)
          | (none, s2) => (none, s2)

/-- The physical address of byte `k` of a translated range. -/
def partAt : List (Nat × Nat) → Nat → Nat
  | [], _ => 0
  | (n, a) :: t, k => if k < n then a + k else partAt t (k - n)

/-! ### Completions in flight -/

/-- The physical address of a completion's entry, or its IPA where it has none. -/
def State.completionAt (s : State) (q : Nat) (x : Queue) (d : Descr) : Nat :=
  let ipa := x.comp + 16 * (d.index % 2 ^ x.log2)
  match s.viOfQueue q with
  | some v =>
    match (s.qeRange (engineOf q) v true 2 ipa 16).1 with
    | some r => partAt (r.map fun p => (p.1, p.2.1)) 0
    | none => ipa
  | none => ipa

/-- A completion write is presented to port 32 when the oldest descriptor in flight has its outcome (R364, R372). -/
def State.pushCompletion (s : State) (q : Nat) : State :=
  let x := s.queue q
  let e := engineOf q
  match x.flight with
  | d :: _ =>
    if d.done.isSome ∧ ¬ x.writing ∧ s.qWorks q then
      (s.setQueueCtx q { x with writing := true }).present 1 (8 + e) 32 d.stamp (s.completionAt q x d) 16
        (.completion (Fin.ofNat 262144 q))
    else s
  | [] => s

/-- The outcome of a descriptor in flight. -/
def State.descrDone (s : State) (q index status len : Nat) : State :=
  let x := s.queue q
  (s.setQueueCtx q { x with flight := x.flight.map fun d =>
    if d.index = index ∧ d.done.isNone then { d with done := some (status, len) } else d }).pushCompletion q

/-- COMPLETION_RETURN: what the switch returns is written, or discarded when the queue's GEN has changed (R385). -/
def execCompletionReturn (q : QueueId) (gen : Byte) (index : BitVec 24) (status : Byte) (length : Word32) (s : State) :
    Host.Outcome State Fault Refusal :=
  let n := q.val
  if s.qGen n = gen.toNat then .next (s.descrDone n index.toNat status.toNat length.toNat)
  else .next (s.count (Reg.QE_QDISC (engineOf n) (n % 65536)) 16)

end Sys2Proof.Machine
end

