-- ==== Sys2Proof/Machine/Sha.lean ====
section
/-!
DEFINITION. Sys2Proof/Machine/Sha.lean: the SHA-2 digests that the device computes: SHA-256 of a paired frame (R459), SHA-384 of boot
images and configuration (R437, R440), HMAC-SHA-384 (R438), and the CRC-32C of command packets (R478). The functions are those of
FIPS 180-4, FIPS 198-1 and RFC 3720, which the spec names.
-/
namespace Sys2Proof.Machine

/-- The integer cube root or square root by bits: the largest r below 2^(k+1) with r^p ≤ n. -/
def rootBits (p n : Nat) : Nat → Nat → Nat
  | 0, r => if (r + 1) ^ p ≤ n then r + 1 else r
  | k + 1, r => rootBits p n k (if (r + 2 ^ (k + 1)) ^ p ≤ n then r + 2 ^ (k + 1) else r)

/-- Whether no number from 2 to k divides n. -/
def noDivisor (n : Nat) : Nat → Bool
  | 0 => true
  | k + 1 => if k + 1 < 2 then true else n % (k + 1) != 0 && noDivisor n k

/-- The first 80 primes. -/
def primes80 : List Nat := ((List.range 410).filter fun n => decide (2 ≤ n) && noDivisor n (n - 1)).take 80

/-- The first w bits of the fractional part of the p-th root of n. -/
def rootFraction (p w n : Nat) : Nat := rootBits p (n * 2 ^ (p * w)) (w + 5) 0 % 2 ^ w

/-- Rotation right of a word of w bits. -/
def rotr (w x k : Nat) : Nat := (x >>> k) ||| ((x <<< (w - k)) % 2 ^ w)

/-- What distinguishes SHA-256 from SHA-512 and SHA-384: the word width, the rounds, and the shifts of the four functions. -/
structure Sha where
  w : Nat
  rounds : Nat
  big0 : Nat × Nat × Nat
  big1 : Nat × Nat × Nat
  small0 : Nat × Nat × Nat
  small1 : Nat × Nat × Nat

def sha256 : Sha := ⟨32, 64, (2, 13, 22), (6, 11, 25), (7, 18, 3), (17, 19, 10)⟩
def sha512 : Sha := ⟨64, 80, (28, 34, 39), (14, 18, 41), (1, 8, 7), (19, 61, 6)⟩

def Sha.rot3 (h : Sha) (k : Nat × Nat × Nat) (x : Nat) : Nat := rotr h.w x k.1 ^^^ rotr h.w x k.2.1 ^^^ rotr h.w x k.2.2
def Sha.mix (h : Sha) (k : Nat × Nat × Nat) (x : Nat) : Nat := rotr h.w x k.1 ^^^ rotr h.w x k.2.1 ^^^ (x >>> k.2.2)

/-- The message schedule, newest word first. -/
def Sha.schedule (h : Sha) : Nat → List Nat → List Nat
  | 0, ws => ws
  | k + 1, ws =>
    let g := fun i => ws.getD i 0
    h.schedule k (((h.mix h.small1 (g 1) + g 6 + h.mix h.small0 (g 14) + g 15) % 2 ^ h.w) :: ws)

/-- One round on the eight working words. -/
def Sha.round (h : Sha) (v : List Nat) (k w : Nat) : List Nat :=
  let g := fun i => v.getD i 0
  let ones := 2 ^ h.w - 1
  let ch := (g 4 &&& g 5) ^^^ ((g 4 ^^^ ones) &&& g 6)
  let maj := (g 0 &&& g 1) ^^^ (g 0 &&& g 2) ^^^ (g 1 &&& g 2)
  let t1 := g 7 + h.rot3 h.big1 (g 4) + ch + k + w
  let t2 := h.rot3 h.big0 (g 0) + maj
  [(t1 + t2) % 2 ^ h.w, g 0, g 1, g 2, (g 3 + t1) % 2 ^ h.w, g 4, g 5, g 6]

/-- One block. -/
def Sha.block (h : Sha) (v : List Nat) (bytes : List Byte) : List Nat :=
  let n := h.w / 8
  let m := (List.range 16).map fun i => ofBytesBE ((bytes.drop (n * i)).take n)
  let ws := (h.schedule (h.rounds - 16) m.reverse).reverse
  let out := (((primes80.take h.rounds).map (rootFraction 3 h.w)).zip ws).foldl (fun v kw => h.round v kw.1 kw.2) v
  (v.zip out).map fun e => (e.1 + e.2) % 2 ^ h.w

/-- All blocks of a padded message. -/
def Sha.blocks (h : Sha) : Nat → List Nat → List Byte → List Nat
  | 0, v, _ => v
  | k + 1, v, bytes => h.blocks k (h.block v (bytes.take (2 * h.w))) (bytes.drop (2 * h.w))

/-- The padded message. -/
def Sha.pad (h : Sha) (m : List Byte) : List Byte :=
  let size := 2 * h.w
  let tail := h.w / 4
  let zeros := (size - (m.length + 1 + tail) % size) % size
  m ++ [0x80] ++ List.replicate zeros 0 ++ toBytesBE tail (8 * m.length)

/-- The digest's words from a starting value. -/
def Sha.run (h : Sha) (v : List Nat) (m : List Byte) : List Byte :=
  let p := h.pad m
  (h.blocks (p.length / (2 * h.w)) v p).flatMap fun x => toBytesBE (h.w / 8) x

/-- SHA-256. -/
def digest256 (m : List Byte) : List Byte := sha256.run ((primes80.take 8).map (rootFraction 2 32)) m

/-- SHA-384: SHA-512 from the roots of the ninth to sixteenth primes, cut to 48 bytes. -/
def digest384 (m : List Byte) : List Byte :=
  (sha512.run (((primes80.drop 8).take 8).map (rootFraction 2 64)) m).take 48

/-- HMAC-SHA-384 with a key of at most 128 bytes. -/
def hmac384 (key m : List Byte) : List Byte :=
  let k := key ++ List.replicate (128 - key.length) 0
  let pad := fun (b : Byte) => k.map (· ^^^ b)
  digest384 (pad 0x5C ++ digest384 (pad 0x36 ++ m))

/-- One byte into a reflected CRC-32C. -/
def crcByte (c : Word32) (b : Byte) : Word32 :=
  (List.range 8).foldl (fun c _ => if c.getLsbD 0 then (c >>> 1) ^^^ 0x82F63B78 else c >>> 1) (c ^^^ b.setWidth 32)

/-- CRC-32C. -/
def crc32c (m : List Byte) : Word32 := (m.foldl crcByte 0xFFFFFFFF) ^^^ 0xFFFFFFFF

end Sys2Proof.Machine
end

