-- ==== Sys2Proof/Machine/Net.lean ====
section
/-!
DEFINITION. Sys2Proof/Machine/Net.lean: the ports and the switch (R393 to R407, R421 to R424). Frames are held without FCS.
-/
namespace Sys2Proof.Machine

def State.nport (s : State) (p : Nat) : Port := tabGet {} s.net.ports p
def State.setNport (s : State) (p : Nat) (x : Port) : State := { s with net := { s.net with ports := tabSet {} s.net.ports p x } }
def State.frame (s : State) (id : Nat) : Option Frame := tabGet none s.net.frames id
def State.setFrame (s : State) (id : Nat) (f : Option Frame) : State :=
  { s with net := { s.net with frames := tabSet none s.net.frames id f } }

/-- The frames in the buffer. -/
def State.frames (s : State) : List (Nat × Frame) := s.net.frames.filterMap fun e => e.2.map fun f => (e.1, f)

/-! ### Ports (R393, R394) -/

/-- MODE; values 5 to 7 act as 0. -/
def State.portMode (s : State) (p : Nat) : Nat :=
  let m := s.rf (Reg.PORT_CFG p) 2 0
  if 5 ≤ m then 0 else m

/-- The time of one byte in ps. -/
def State.bytePs (s : State) (p : Nat) : Nat :=
  match s.portMode p with
  | 3 => 800
  | 4 => 320
  | _ => 8000

def State.linkOn (s : State) (p : Nat) : Bool := s.rb (Reg.PORT_STATUS p) 0 && s.portMode p != 0
def State.maxFrame (s : State) (p : Nat) : Nat := max 64 (min 9216 (s.rf (Reg.PORT_CFG p) 23 10))

/-- A bit of PORT_IRQ_STATUS sets; it raises the source of the port's group of eight while enabled (R421). -/
def State.portIrq (s : State) (p bit : Nat) : State :=
  let s1 := s.wb (Reg.PORT_IRQ_STATUS p) bit true
  if bit < 3 ∧ s1.rb (Reg.PORT_IRQ_EN p) bit = true then s1.source (2448 + p / 8) else s1

/-- A drop counted in BUF_DROP. -/
def State.bufDrop (s : State) (p : Nat) : State := (s.tally (Reg.PORT_BUF_DROP p)).portIrq p 2

/-! ### Headers -/

def byteAt (f : List Byte) (k : Nat) : Nat := (f.getD k 0).toNat
/-- A big-endian field of a frame. -/
def beAt (f : List Byte) (k n : Nat) : Nat := ofBytesBE ((f.drop k).take n)

def frameTagged (f : List Byte) : Bool := beAt f 12 2 == 0x8100
/-- The VID: of the 802.1Q tag, or 0 (R396). -/
def frameVid (f : List Byte) : Nat := if frameTagged f then beAt f 14 2 % 4096 else 0
/-- The frame without its 802.1Q tag. -/
def untag (f : List Byte) : List Byte := if frameTagged f then f.take 12 ++ f.drop 16 else f
/-- Where the EtherType stands after at most one VLAN tag. -/
def afterTag (f : List Byte) : Nat := if frameTagged f then 16 else 12
/-- The sequence number of an R-TAG, which may follow at most one VLAN tag (R403). -/
def frameSeq (f : List Byte) : Option Nat := if beAt f (afterTag f) 2 = 0xF1C1 then some (beAt f (afterTag f + 4) 2) else none
/-- Where the Dinath header stands, in any of the placements of R408. -/
def dinathAt (f : List Byte) : Option Nat :=
  let k := afterTag f
  let k := if beAt f k 2 = 0xF1C1 then k + 6 else k
  if beAt f k 2 = 0x88B5 ∧ k + 18 ≤ f.length then some (k + 2) else none

/-- The traffic class: PORT_PCP_MAP of the ingress port applied to the PCP; an untagged frame takes DEF_PRI (R397). -/
def State.frameClass (s : State) (p : Nat) (f : List Byte) : Nat :=
  let pcp := if frameTagged f then byteAt f 14 / 32 else s.rf (Reg.PORT_CFG p) 26 24
  fld (s.rd (Reg.PORT_PCP_MAP p)) (3 * pcp + 2) (3 * pcp)

/-! ### Streams (R403) -/

/-- The lowest-numbered stream entry that matches a frame. -/
def State.streamOf (s : State) (f : List Byte) : Option Nat :=
  (s.regs.filterMap fun e =>
    let n := (e.1 - Reg.STR_ID 0) / 0x20
    let v := e.2.toNat
    let mac := if fld v 61 60 = 1 then some (beAt f 0 6) else if fld v 61 60 = 2 then some (beAt f 6 6) else none
    if Reg.STR_ID 0 ≤ e.1 ∧ n < 1024 ∧ e.1 = Reg.STR_ID n ∧ v.testBit 63 ∧ mac = some (fld v 47 0) ∧ fld v 59 48 = frameVid f
    then some n else none).head?

/-- The vector recovery algorithm with a history of `h` frames: whether a sequence number is accepted. -/
def Stream.recover (x : Stream) (h seq : Nat) : Bool × Stream :=
  match x.seq with
  | none => (true, { x with seq := some seq, history := [true] })
  | some r =>
    let d := toSigned 16 ((seq + 65536 - r) % 65536)
    if (h : Int) ≤ d ∨ d ≤ -(h : Int) then (false, x)
    else if d ≤ 0 then
      let k := d.natAbs
      if x.history.getD k false then (false, x)
      else (true, { x with history := ((x.history ++ List.replicate h false).set k true).take h })
    else (true, { x with seq := some seq, history := ((true :: List.replicate (d.toNat - 1) false) ++ x.history).take h })

/-- The colour-blind meter on a frame of some bytes: 0 green, 1 yellow, 2 red. Tokens are in 1/8,000,000 bytes. -/
def State.meter (s : State) (n bytes : Nat) (x : Stream) : Nat × Stream :=
  let cap := fun (v : Nat) => v * 8000000
  let dt := s.now - x.filled.toNat
  let c := cap (s.rd (Reg.STR_CBS n))
  let e := cap (s.rd (Reg.STR_EBS n))
  let g := if x.started then min c (x.green + s.rd (Reg.STR_CIR n) * dt) else c
  let y := if x.started then min e (x.yellow + s.rd (Reg.STR_EIR n) * dt) else e
  let x1 := { x with green := g, yellow := y, filled := s.gt.now, started := true }
  let need := cap bytes
  if need ≤ g then (0, { x1 with green := g - need })
  else if need ≤ y then (1, { x1 with yellow := y - need })
  else (2, x1)

def State.setStream (s : State) (n : Nat) (x : Stream) : State :=
  { s with net := { s.net with streams := tabSet {} s.net.streams n x } }

/-- What the stream rules do with a frame: discard it, or pass it with its drop-eligible mark. -/
def State.streamRules (s : State) (f : List Byte) : Option Bool × State :=
  match s.streamOf f with
  | none => (some false, s)
  | some n =>
    let cfg := s.rd (Reg.STR_CFG n)
    let x := tabGet {} s.net.streams n
    let (ok, x1) :=
      match cfg.testBit 15, frameSeq f with
      | true, some q => x.recover (max 1 (fld cfg 20 16)) q
      | _, _ => (true, x)
    let drop := fun (s : State) (x : Stream) => ((none : Option Bool), (s.setStream n x).count (Reg.STR_DROPS n) 32)
    if ¬ ok ∨ fld cfg 13 0 < f.length then drop s x1
    else if cfg.testBit 14 then
      let (colour, x2) := s.meter n f.length x1
      if colour = 2 then drop s x2 else (some (colour == 1), s.setStream n x2)
    else (some false, s.setStream n x1)

/-! ### Forwarding (R396) -/

/-- A wide mask held in consecutive 32-bit registers. -/
def State.wideMask (s : State) (reg : Nat → Nat) (words : Nat) : Nat :=
  (List.range words).foldl (fun v k => v + s.rd (reg k) * 2 ^ (32 * k)) 0

/-- The members of a VLAN, with HOST as bit 128. -/
def State.vlanMembers (s : State) (vid : Nat) : Nat :=
  s.wideMask (Reg.VLAN_MEMBER vid) 4 + b2n (s.rb (Reg.VLAN_CTRL vid) 0) * 2 ^ 128

/-- The destinations that the FDB gives, by its lowest-numbered matching entry. -/
def State.fdbLookup (s : State) (mac vid : Nat) : Option Nat :=
  (s.regs.findSome? fun e =>
    let n := (e.1 - Reg.FDB_KEY 0) / 0x20
    let v := e.2.toNat
    if Reg.FDB_KEY 0 ≤ e.1 ∧ n < 16384 ∧ e.1 = Reg.FDB_KEY n ∧ v.testBit 63 ∧ fld v 47 0 = mac ∧ fld v 59 48 = vid
    then some n else none).map fun n => (s.wideMask (Reg.FDB_PORTS n) 4 + b2n (s.rb (Reg.FDB_HOST n) 0) * 2 ^ 128)

/-- The destination set of a received frame, ports ascending and HOST as 128. -/
def State.destinations (s : State) (p : Nat) (f : List Byte) : List Nat :=
  let vid := frameVid f
  let members := s.vlanMembers vid
  if ¬ s.rb (Reg.VLAN_CTRL vid) 2 ∨ ¬ members.testBit p then []
  else
    let set := match s.fdbLookup (beAt f 0 6) vid with
      | some m => m
      | none => if s.rb (Reg.VLAN_CTRL vid) 1 then members else 0
    (List.range 129).filter fun k => set.testBit k && members.testBit k && k != p

/-! ### The buffer (R398) -/

/-- Cells held for an egress and class. -/
def State.cellsFor (s : State) (e t : Nat) : Nat :=
  (s.frames.filter fun f => f.2.wait.contains (e, t) || f.2.active.contains (e, t)).foldl (fun n f => n + f.2.cells) 0

/-- Cells of the shared pool held for a class, by what each egress holds beyond its reserve. -/
def State.sharedFor (s : State) (t : Nat) : Nat :=
  (List.range 129).foldl (fun n e => n + (s.cellsFor e t - s.rf (Reg.SW_TC_LIMIT t) 31 24)) 0

/-- The shared pool: the buffer less the reserves of 128 ports. -/
def State.sharedPool (s : State) : Nat := 65536 - (List.range 8).foldl (fun n t => n + 128 * s.rf (Reg.SW_TC_LIMIT t) 31 24) 0

/-- CELLS_USED follows. -/
def State.netShow (s : State) : State := s.wf Reg.SW_STATUS 16 0 (s.frames.foldl (fun n f => n + f.2.cells) 0)

/-- Whether an egress and class can take a claim; the pool may be exhausted. -/
def State.admitCells (s : State) (e t claim : Nat) : Bool × State :=
  let r := s.rf (Reg.SW_TC_LIMIT t) 31 24
  let u := s.cellsFor e t
  let more := (u + claim - r) - (u - r)
  if more = 0 then (true, s)
  else
    let pool := (List.range 8).foldl (fun n t => n + s.sharedFor t) 0
    if s.sharedPool < pool + more then (false, (s.wb Reg.SW_IRQ_STATUS 0 true).source 2464)
    else (decide (s.sharedFor t + more ≤ s.rf (Reg.SW_TC_LIMIT t) 16 0), s)

/-- The destinations that can take a claim; each other is counted in its BUF_DROP, HOST in that of port `p`. -/
def State.claimCells (s : State) (p claim t : Nat) : List Nat → List (Nat × Nat) × State
  | [] => ([], s)
  | e :: es =>
    let (ok, s1) := s.admitCells e t claim
    if ok then
      let (r, s2) := s1.claimCells p claim t es
      ((e, t) :: r, s2)
    else (s1.bufDrop (if e = 128 then p else e)).claimCells p claim t es

/-- A frame leaves the buffer when nothing remains to be done with it. -/
def State.releaseFrame (s : State) (id : Nat) : State :=
  match s.frame id with
  | some f => if f.whole ∧ f.wait = [] ∧ f.active = [] then (s.setFrame id none).netShow else s
  | none => s

/-- From the SFD at one port to that at another, unloaded: 620 ns when the frame is cut through, and its own duration more when it is
stored first (R399; for every rate, assumption 128). -/
def switchNs : Nat := 620

/-- An egress port looks for a frame to send. -/
def State.kickPort (s : State) (p : Nat) (ns : Nat := 0) : State :=
  if p < 128 then s.send ns (.frameTransmit (Fin.ofNat 128 p) false) else s

/-- A frame from a queue is done with: its completion returns (R372, R405). -/
def State.txReturn (s : State) (o : Option TxFrom) (status : Nat) : State :=
  match o with
  | some o => s.send 0 (.completionReturn (Fin.ofNat 262144 o.queue) o.gen (BitVec.ofNat 24 o.index) (BitVec.ofNat 8 status) 0)
  | none => s

/-- AGE in ns (R400). -/
def State.frameAge (s : State) : Nat := 1000 * max 1 (min 1000 (s.rf Reg.SW_CTRL 9 0))

/-! ### Reception -/

/-- FRAME_RECEIVE: a frame's SFD at a port. The rules for streams, forwarding and admission are applied to it at once. -/
def execFrameReceive (p : PortId) (frame : List Byte) (s : State) : Host.Outcome State Fault Refusal :=
  let n := p.val
  if ¬ s.linkOn n then .next s
  else
    let id := s.net.nextFrame
    let kind := beAt frame (afterTag frame) 2
    let (pass, s1) := if kind = 0x8808 ∨ kind = 0x88F7 then ((none : Option Bool), s) else s.streamRules frame
    let s2 := if kind = 0x8808 then s1.bufDrop n else s1
    let claim := (s.maxFrame n + 255) / 256
    let t := s.frameClass n frame
    let (dests, s3) := match pass with
      | some _ => s2.claimCells n claim t (s.destinations n frame)
      | none => ([], s2)
    let f : Frame := { bytes := frame, inPort := some n, sfd := s.gt.now, whole := false, taken := pass.isSome, order := id
                       cells := if dests.isEmpty then 0 else claim, dropEligible := pass.getD false, wait := dests, active := []
                       since := s.clk, from_ := none }
    let s4 := ({ s3 with net := { s3.net with nextFrame := id + 1 } }.setFrame id (some f)).setNport n { s3.nport n with rx := some id }
    let s5 := dests.foldl (fun s d => (s.kickPort d.1 switchNs).send s.frameAge (.frameAge (Fin.ofNat 128 d.1))) s4
    .next s5.netShow

/-- A frame is delivered to the host: to the ETH_RX queue of its port and class, or dropped (R407). -/
def State.toHost (s : State) (p t : Nat) (f : Frame) : State :=
  let r := s.rd (Reg.PORT_RXQ p t)
  let q := fld r 17 0
  let x := s.queue q
  let e := engineOf q
  if ¬ r.testBit 31 ∨ ¬ s.qWorks q ∨ x.kind ≠ typeRx ∨ x.port ≠ p then s.bufDrop p
  else if s.qToFetch q ≤ ((s.qe e).rx.filter fun j => j.1 = q).length then (s.wb (qstat q) 62 true).bufDrop p
  else (s.setQe e { s.qe e with rx := (s.qe e).rx ++ [(q, f.bytes, f.sfd)] }).kickQe e

/-- A bad frame ends: what has not begun is dropped, and what is being sent is marked. -/
def State.endBad (s : State) (p id : Nat) (f : Frame) : State :=
  let s1 := (s.tally (Reg.PORT_RX_FCS_ERR p)).setFrame id (some { f with whole := true, wait := [] })
  (f.active.foldl (fun s d =>
    let x := s.nport d.1
    match x.tx with
    | some (i, t, a, b, bad) => s.setNport d.1 { x with tx := some (i, t, a, b, bad || i == id) }
    | none => s) s1).releaseFrame id

/-- FRAME_END: the end of the frame that a port receives. A good frame returns its unused cells and goes on to its destinations and to
the Dinath receiver; any other is counted in RX_FCS_ERR (R394, R398, R399). -/
def execFrameEnd (p : PortId) (good : Bool) (s : State) : Host.Outcome State Fault Refusal :=
  let n := p.val
  let x := s.nport n
  match x.rx with
  | none => .next s
  | some id =>
    let s0 := s.setNport n { x with rx := none }
    match s0.frame id with
    | none => .next s0
    | some f =>
      let len := f.bytes.length + 4
      if ¬ good ∨ len < 64 ∨ s.maxFrame n < len then .next ((s0.endBad n id f).netShow)
      else
        let t := s.frameClass n f.bytes
        let k := s.net.nextFrame
        let f1 := { f with whole := true, ended := s.clk, order := k
                           cells := if f.wait = [] ∧ f.active = [] then 0 else (len + 255) / 256
                           wait := f.wait.filter fun d => d.1 != 128 }
        let s1 := { s0.tally (Reg.PORT_RX_FRAMES n) with net := { s0.net with nextFrame := k + 1 } }.setFrame id (some f1)
        let s2 := if f.wait.any fun d => d.1 == 128 then s1.toHost n t f else s1
        let s3 := if f.taken ∧ s.rb (Reg.PORT_CFG n) 6 = true ∧ (dinathAt f.bytes).isSome then
            s2.send 0 (.dinathReceive p f.bytes f.sfd) else s2
        .next (((f1.wait.foldl (fun s d => s.kickPort d.1 switchNs) s3).releaseFrame id).netShow)

/-! ### Gates (R401, R402) -/

/-- An entry of the list in operation: gates and interval. -/
def State.gclEntry (s : State) (p k : Nat) : Nat × Nat :=
  let v := s.rd (Reg.PORT_GCL p (256 * b2n (s.rb (Reg.PORT_GCL_CTRL p) 3) + k))
  (fld v 7 0, fld v 39 8)

/-- The entry that a position in the cycle falls in: its gates, and how long they still hold. -/
def State.gclAt (s : State) (p cycle off : Nat) : Nat → Nat → Nat → Nat × Nat
  | 0, _, _ => (0xFF, cycle - off)
  | left + 1, k, t =>
    let (g, i) := s.gclEntry p k
    if left = 0 then (g, cycle - off)
    else if off < t + i then (g, min cycle (t + i) - off)
    else s.gclAt p cycle off left (k + 1) (t + i)

/-- The gates of a port at a GT, and the ns for which they hold. -/
def State.gates (s : State) (p gt : Nat) : Nat × Nat :=
  let x := s.nport p
  let off := (((gt : Int) - x.base) % (x.cycle : Int)).toNat
  s.gclAt p x.cycle off x.len 0 0

/-- A class's gate is open from a GT for at least some ns. -/
def State.openFor (s : State) (p t : Nat) : Nat → Nat → Nat → Bool
  | 0, _, _ => true
  | fuel + 1, gt, need =>
    let (g, hold) := s.gates p gt
    g.testBit t && (decide (need ≤ hold) || s.openFor p t fuel (gt + max 1 hold) (need - hold))

/-- The gate of a class permits a transmission of some ns to start now. -/
def State.mayStart (s : State) (p t ns : Nat) : Bool := !s.rb (Reg.PORT_GCL_CTRL p) 0 || s.openFor p t 1024 s.now ns

/-- The next entry of a port's list begins: frames that wait may now start. -/
def State.armGate (s : State) (p : Nat) : State :=
  let i := Instr.gclEntry (Fin.ofNat 128 p)
  if ¬ s.rb (Reg.PORT_GCL_CTRL p) 0 ∨ (s.agenda.any fun e => e.2 == .cmd i) then s
  else s.send (max 1 (s.gates p s.now).2) i

/-- GCL_ENTRY. -/
def execGclEntry (p : PortId) (s : State) : Host.Outcome State Fault Refusal := .next (s.kickPort p.val)

/-- The first GT, not earlier than `gt`, at which a cycle of the pending schedule begins. -/
def State.swapInstant (s : State) (p gt : Nat) : Nat :=
  let base := s.rd (Reg.PORT_GCL_BASE p)
  let cycle := let c := s.rd (Reg.PORT_GCL_CYCLE p); if c = 0 then 1000000 else c
  if gt ≤ base then base else base + (gt - base + cycle - 1) / cycle * cycle

/-- A write of 1 to SWAP: the pending list becomes operational at the first cycle of its schedule. -/
def State.swap (s : State) (p : Nat) : State :=
  if s.rb (Reg.PORT_GCL_CTRL p) 2 then s
  else
    let s1 := (s.wb (Reg.PORT_GCL_CTRL p) 2 true).setNport p { s.nport p with swapAt := s.now }
    s1.send (s.swapInstant p s.now - s.now) (.swapTake (Fin.ofNat 128 p))

/-- SWAP. -/
def execSwap (p : PortId) (_who : Requester) (s : State) : Host.Outcome State Fault Refusal := .next (s.swap p.val)

/-- SWAP_TAKE: at the instant of R402 the pending list and schedule become operational. -/
def execSwapTake (p : PortId) (s : State) : Host.Outcome State Fault Refusal :=
  let n := p.val
  let x := s.nport n
  if ¬ s.rb (Reg.PORT_GCL_CTRL n) 2 then .next s
  else
    let t := s.swapInstant n x.swapAt
    if s.now < t then .next (s.send (t - s.now) (.swapTake p))
    else
      let cycle := let c := s.rd (Reg.PORT_GCL_CYCLE n); if c = 0 then 1000000 else c
      let s1 := s.setNport n { x with base := s.rd (Reg.PORT_GCL_BASE n), cycle := cycle
                                      len := max 1 (min 256 (s.rf (Reg.PORT_GCL_LEN n) 8 0)) }
      let s2 := (s1.wb (Reg.PORT_GCL_CTRL n) 2 false).wb (Reg.PORT_GCL_CTRL n) 3 (!s.rb (Reg.PORT_GCL_CTRL n) 3)
      .next (s2.kickPort n)

/-! ### Transmission (R397, R399 to R401) -/

/-- The ns that a frame takes on the line, with preamble, FCS and inter-frame gap. -/
def State.lineTime (s : State) (p bytes : Nat) : Nat := ((max 60 bytes + 24) * s.bytePs p + 999) / 1000

/-- A frame as it leaves a port: untagged where the VLAN says so; a frame that a queue handed over as it is. -/
def State.leaving (s : State) (p : Nat) (f : Frame) : List Byte :=
  if f.from_.isNone ∧ (s.wideMask (Reg.VLAN_UNTAG (frameVid f.bytes)) 4).testBit p then untag f.bytes else f.bytes

/-- A frame may begin at a port before it has been received in full (R399). -/
def State.cutThrough (s : State) (p : Nat) (f : Frame) : Bool :=
  match f.inPort with
  | some i => s.rb (Reg.PORT_CFG i) 5 && decide (s.bytePs i ≤ s.bytePs p)
  | none => false

/-- A frame has come through the switch to a port: one of a queue at once, one that may be cut through from its SFD on, any other from
its end on. -/
def State.frameReady (s : State) (p : Nat) (f : Frame) : Bool :=
  match f.inPort with
  | none => f.whole
  | some _ => if s.cutThrough p f then decide (f.since + switchNs ≤ s.clk) else f.whole && decide (f.ended + switchNs ≤ s.clk)

/-- The first frame that waits for a port in a class: it is whole, or it is cut through and none that is whole waits. -/
def State.headFrame (s : State) (p t : Nat) : Option (Nat × Frame) :=
  let q := s.frames.filter fun f => f.2.wait.contains (p, t) && s.frameReady p f.2
  let first := fun (l : List (Nat × Frame)) => l.foldl (fun b f =>
    match b with
    | none => some f
    | some g => if f.2.order < g.2.order then some f else some g) (none : Option (Nat × Frame))
  match first (q.filter fun f => f.2.whole) with
  | some f => some f
  | none => first q

/-- The frame that a port sends next: of the highest class whose first frame its gate lets through. -/
def State.nextFrameFor (s : State) (p : Nat) : Option (Nat × Nat × Frame) :=
  [7, 6, 5, 4, 3, 2, 1, 0].findSome? fun t =>
    match s.headFrame p t with
    | some (id, f) => if s.mayStart p t (s.lineTime p (s.leaving p f).length) then some (id, t, f) else none
    | none => none

/-- The transmission in progress ends. -/
def State.finishTx (s : State) (p : Nat) : State :=
  let x := s.nport p
  match x.tx with
  | some (id, t, _, last, bad) =>
    match s.frame id with
    | some f =>
      if s.clk < last ∨ ¬ f.whole then s
      else
        let s1 := s.setNport p { x with tx := none, sent := s.leaving p f }
        let s2 := if bad then s1.tally (Reg.PORT_TX_DROP p) else s1.tally (Reg.PORT_TX_FRAMES p)
        ((s2.setFrame id (some { f with active := f.active.filter (· != (p, t)) })).releaseFrame id).txReturn f.from_ 0
    | none => s.setNport p { x with tx := none }
  | none => s

/-- FRAME_TRANSMIT: the transmission in progress ends when its time has come, and the next begins. A frame whose cells hold an
uncorrectable error is dropped and counted in TX_DROP (R346). -/
def execFrameTransmit (p : PortId) (bad : Bool) (s : State) : Host.Outcome State Fault Refusal :=
  let n := p.val
  let s1 := s.finishTx n
  let x := s1.nport n
  match x.tx with
  | some (_, _, _, last, _) => .next (s1.send (max 100 (last - s.clk)) (.frameTransmit p false))
  | none =>
    if ¬ s1.linkOn n then .next s1
    else
      match s1.nextFrameFor n with
      | none => .next (if s1.frames.any fun f => f.2.wait.any fun d => d.1 == n then s1.armGate n else s1)
      | some (id, t, f) =>
        let wait := f.wait.filter (· != (n, t))
        if bad then
          .next ((((s1.setFrame id (some { f with wait := wait })).tally (Reg.PORT_TX_DROP n)).releaseFrame id).txReturn f.from_ 6)
        else
          let ns := s1.lineTime n (s1.leaving n f).length
          let s2 := s1.setFrame id (some { f with wait := wait, active := f.active ++ [(n, t)] })
          .next ((s2.setNport n { x with tx := some (id, t, s.clk, s.clk + ns, false) }).send ns (.frameTransmit p false))

/-- A changed AGE holds for the frames that wait. -/
def State.rearmAges (s : State) : State :=
  s.frames.foldl (fun s f => (f.2.wait.filter fun d => decide (d.1 < 128)).foldl (fun s d =>
    s.send (f.2.since + s.frameAge - s.clk) (.frameAge (Fin.ofNat 128 d.1))) s) s

/-- FRAME_AGE: frames that have waited too long for a port are discarded. -/
def execFrameAge (p : PortId) (s : State) : Host.Outcome State Fault Refusal :=
  let n := p.val
  .next ((s.frames.filter fun f => f.2.wait.any (fun d => d.1 == n) && decide (f.2.since + s.frameAge ≤ s.clk)).foldl (fun s e =>
    let s1 := s.setFrame e.1 (some { e.2 with wait := e.2.wait.filter fun d => d.1 != n })
    ((s1.tally (Reg.PORT_AGE_DROP n)).releaseFrame e.1).txReturn e.2.from_ 6) s)

/-! ### Frames of the host (R405, R406) -/

/-- A frame joins the egress queue of a port and class, if the buffer takes it. -/
def State.joinEgress (s : State) (p t : Nat) (bytes : List Byte) (o : Option TxFrom) : State :=
  let body := bytes ++ List.replicate (60 - bytes.length) 0
  let cells := (body.length + 4 + 255) / 256
  let (dests, s1) := s.claimCells p cells t [p]
  if dests.isEmpty then s1.txReturn o 6
  else
    let id := s1.net.nextFrame
    let f : Frame := { bytes := body, inPort := none, sfd := s.gt.now, whole := true, taken := false, order := id, cells := cells
                       dropEligible := false, wait := dests, active := [], since := s.clk, from_ := o }
    ((({ s1 with net := { s1.net with nextFrame := id + 1 } }.setFrame id (some f)).netShow).kickPort p).send s1.frameAge
      (.frameAge (Fin.ofNat 128 p))

/-- The frame is paired: PAIRED stands in its Dinath header. -/
def framePaired (f : List Byte) : Bool := match dinathAt f with | some k => (f.getD (k + 1) 0).getLsbD 0 | none => false

/-- VALUE of a frame's item: the first 128 bits of the SHA-256 of the frame without FCS. -/
def frameDigest (f : List Byte) : BitVec 128 := BitVec.ofNat 128 (ofBytesBE ((digest256 f).take 16))

/-- An ETH_TX frame is handed to its port: transmitted, submitted to the gate, or returned with PORT. -/
def State.handOver (s : State) (p t : Nat) (bytes : List Byte) (o : TxFrom) : State :=
  if ¬ s.linkOn p then s.txReturn (some o) 6
  else if framePaired bytes then
    if s.mode = modePaired then
      { s with net := { s.net with gated := s.net.gated ++ [(o.queue, p, t, bytes, o)] } }.send 0
        (.gateSubmit { frame := true, key := BitVec.ofNat 18 o.queue, seq := 0, subGt := s.gt.now, phase := false, tag := 0,
                       value := frameDigest (bytes ++ List.replicate (60 - bytes.length) 0) })
    else s.txReturn (some o) 6
  else s.joinEgress p t bytes (some o)

/-- The first gated frame of a queue, and the others. -/
def takeGated (q : Nat) : List (Nat × Nat × Nat × List Byte × TxFrom) →
    Option (Nat × Nat × Nat × List Byte × TxFrom) × List (Nat × Nat × Nat × List Byte × TxFrom)
  | [] => (none, [])
  | e :: t => if e.1 = q then (some e, t) else let r := takeGated q t; (r.1, e :: r.2)

/-- The gate releases the oldest frame of a queue, or refuses it (R406, R461). -/
def State.releaseGated (s : State) (q : Nat) (ok : Bool) : State :=
  match takeGated q s.net.gated with
  | (some (_, p, t, bytes, o), rest) =>
    let s1 := { s with net := { s.net with gated := rest } }
    if ok then s1.joinEgress p t bytes (some o) else s1.txReturn (some o) 6
  | (none, _) => s

/-! ### Time synchronisation (R404) -/

/-- The Sync interval: 2^LOG_SYNC s, LOG_SYNC from −7 to 0. -/
def State.syncSend (s : State) : Nat :=
  let k := toSigned 4 (s.rf Reg.SW_PTP 3 0)
  1000000000 / 2 ^ (min 7 (max 0 (-k)).toNat)

/-- A master port of the time-aware relay. -/
def State.syncMaster (s : State) (p : Nat) : Bool := s.rb (Reg.PORT_CFG p) 7 && s.rf (Reg.PORT_CFG p) 9 8 == 1

/-- The next Sync of a master port. -/
def State.armSync (s : State) (p : Nat) : State :=
  let i := Instr.syncSend (Fin.ofNat 128 p)
  if s.syncMaster p ∧ ¬ (s.agenda.any fun e => e.2 == .cmd i) then s.send s.syncSend i else s

/-- SYNC_SEND: a master port sends Sync with the time that the device relays, and the next one follows an interval later. -/
def execSyncSend (p : PortId) (s : State) : Host.Outcome State Fault Refusal :=
  if s.syncMaster p.val ∧ s.linkOn p.val = true then
    .next ((s.setNport p.val { s.nport p.val with synced := some s.gt.now }).armSync p.val)
  else .next (s.armSync p.val)

/-- PDELAY_REQ: a port with PTP_EN answers with the GT at which the request arrived and that of the response. -/
def execPdelayReq (p : PortId) (frame : List Byte) (instant : Word64) (s : State) : Host.Outcome State Fault Refusal :=
  if s.rb (Reg.PORT_CFG p.val) 7 ∧ s.linkOn p.val ∧ beAt frame (afterTag frame) 2 = 0x88F7 then
    .next (s.setNport p.val { s.nport p.val with pdelay := some (instant, s.gt.now) })
  else .next s

/-! ### Links and the port registers (R421, R423) -/

/-- A port's link comes up or goes down, and with it the RS-FEC of mode 4 where it is on. -/
def State.linkChange (s : State) (p : Nat) (up : Bool) : State :=
  if s.rb (Reg.PORT_STATUS p) 0 = up ∨ (up ∧ (s.portMode p = 0 ∨ s.modes.lostPorts.contains p = true)) then s
  else
    let fec : Bool := up && s.portMode p == 4 && s.rb (Reg.PORT_CFG p) 3
    let s1 := ((s.wb (Reg.PORT_STATUS p) 0 up).wb (Reg.PORT_STATUS p) 1 fec).portIrq p 0
    if up then (s1.kickPort p).armSync p
    else
      match (s1.nport p).rx with
      | some id => match s1.frame id with
        | some f => ((s1.setNport p { s1.nport p with rx := none }).endBad p id f).netShow
        | none => s1
      | none => s1

/-- LINK_CHG. -/
def execLinkChg (p : PortId) (up : Bool) (s : State) : Host.Outcome State Fault Refusal := .next (s.linkChange p.val up)

/-- A write of a port register. While a swap is pending, the pending registers and the inactive list keep their values (R402). -/
def State.writePort (s : State) (p a v : Nat) : State :=
  let off := a - Reg.PORT_CFG p
  let pending := s.rb (Reg.PORT_GCL_CTRL p) 2
  let active := b2n (s.rb (Reg.PORT_GCL_CTRL p) 3)
  let inactive := decide (0x1000 ≤ off) && (off - 0x1000) / 0x800 != active
  if off = 0x40 then
    let s1 := (s.storeReg a v).kickPort p
    if v.testBit 1 then s1.swap p else s1
  else if pending ∧ (off = 0x48 ∨ off = 0x50 ∨ off = 0x54 ∨ inactive = true) then s.portIrq p 3
  else
    let s1 := s.storeReg a v
    if off = 0 then
      let s2 := if s1.portMode p = 0 then s1.linkChange p false else s1
      s2.armSync p
    else if 0x1000 ≤ off then s1.kickPort p
    else s1

/-- A TIME_STEP: the gates take the state of the entry current at the new GT (R401). -/
def State.netStepped (s : State) : State :=
  s.net.ports.foldl (fun s e => (s.kickPort e.1).send 0 (.swapTake (Fin.ofNat 128 e.1))) s

end Sys2Proof.Machine
end

