-- ==== Sys2Proof/Machine/Points.lean ====
section
/-!
DEFINITION. Sys2Proof/Machine/Points.lean: the point image (R413 to R421, R425).
-/
namespace Sys2Proof.Machine

/-! ### Entries (R413) -/

def State.point (s : State) (n : Nat) : Point := tabGet {} s.points n
def State.setPoint (s : State) (n : Nat) (p : Point) : State := { s with points := tabSet {} s.points n p }

/-- The address of an entry. -/
def pointAddr (n : Nat) : Nat := 0x20000000 + 16 * n

/-- The registers of a class. -/
def State.ptTimeout (s : State) (c : Nat) : Nat := s.rf (Reg.PT_CLASS c) 23 0
def State.ptWriter (s : State) (c k : Nat) : Bool := s.rb (Reg.PT_CLASS c) (24 + k)

/-- GT less STAMP, modulo 2^40. -/
def State.pointAge (s : State) (p : Point) : Nat := (BitVec.ofNat 40 s.now - p.stamp).toNat

/-- The point is stale now (R418). -/
def State.pointStale (s : State) (p : Point) : Bool :=
  let t := s.ptTimeout p.cls.toNat
  p.valid && !p.forced && (p.stale || (t != 0 && decide (t * 1000 < s.pointAge p)))

/-- The status word, with STALE as computed now. -/
def State.pointStatus (s : State) (p : Point) : Nat :=
  p.stamp.toNat + b2n p.valid * 2 ^ 40 + b2n (s.pointStale p) * 2 ^ 41 + b2n p.forced * 2 ^ 42 + p.cls.toNat * 2 ^ 43 +
    p.vmid.toNat * 2 ^ 46 + p.eid.toNat * 2 ^ 58

/-- The address of a point's value, whose update from the mesh is performed at its grant (R414). -/
def isPointValue (a : Nat) : Bool := decide (0x20000000 ≤ a ∧ a < 0x20200000) && decide (a % 16 = 0)

/-! ### Counters and the interrupt (R421, R425) -/

/-- A bit of PT_IRQ_STATUS sets; source 2,466 is raised while its enable bit is 1. -/
def State.ptIrq (s : State) (bit : Nat) : State :=
  let s1 := s.wb Reg.PT_IRQ_STATUS bit true
  if s1.rb Reg.PT_IRQ_EN bit then s1.source 2466 else s1

/-- A refused Dinath record or sigma-delta result is counted. -/
def State.ptReject (s : State) : State := (s.count Reg.PT_REJECT 32).ptIrq 1

/-! ### Updates and reads (R415, R416, R419) -/

/-- The path of an access. -/
inductive PointPath where
  | mesh
  | phase
  | queue (vmid : Nat)
  | sdf
  | dinath (src : Nat)
deriving DecidableEq, Repr

/-- The WRITERS bit of a path. -/
def PointPath.writer : PointPath → Nat
  | .dinath _ => 0
  | .phase => 1
  | .queue _ => 2
  | .mesh => 3
  | .sdf => 4

/-- The enclave and partition of the access are the point's. -/
def State.pointOwned (s : State) (p : Point) (path : PointPath) (eid : Nat) : Bool :=
  match path with
  | .dinath _ => decide (s.rf (Reg.PT_DIN_EID p.cls.toNat) 5 0 = p.eid.toNat)
  | .queue vmid => decide (eid = p.eid.toNat) && decide (vmid = p.vmid.toNat)
  | _ => decide (eid = p.eid.toNat)

/-- The source of a Dinath record lies in the class's range. -/
def State.pointSource (s : State) (p : Point) : PointPath → Bool
  | .dinath src =>
    decide (s.rf (Reg.PT_DIN_SRC_LO p.cls.toNat) 17 0 ≤ src ∧ src ≤ s.rf (Reg.PT_DIN_SRC_HI p.cls.toNat) 17 0)
  | _ => true

/-- Why an update is refused: another enclave's point, or a class that this path may not write. -/
def State.updateRefused (s : State) (p : Point) (path : PointPath) (eid : Nat) : Option AccessErr :=
  if ¬ s.pointOwned p path eid then some .enclave
  else if s.ptWriter p.cls.toNat path.writer && s.pointSource p path then none
  else some .target

/-- The stamp is earlier than the entry's, by signed 40-bit difference. -/
def stampOld (st old : BitVec 40) : Bool := (st - old).slt 0

/-- The sweep visits every point once each 81.92 µs (R418). -/
def State.armSweep (s : State) : State :=
  if s.agenda.any fun e => e.2 == .cmd .staleSweep then s else s.send 81920 .staleSweep

/-- An update of a point by a path. A forced point discards it without refusal (R419). -/
def State.updatePoint (s : State) (n : Nat) (path : PointPath) (eid : Nat) (value : Word64) (stamp : Option Word64) :
    Option AccessErr × State :=
  let p := s.point n
  if p.forced then (none, s.count Reg.PT_FORCE_DROP 32)
  else
    match s.updateRefused p path eid with
    | some e => (some e, s)
    | none =>
      let st := BitVec.ofNat 40 (stamp.getD s.gt.now).toNat
      if p.valid ∧ stampOld st p.stamp then (none, s.count Reg.PT_OLD_DROP 32)
      else (none, (s.setPoint n { p with value := value, stamp := st, valid := true, stale := false, bad := false }).armSweep)

/-- A read of a point's value or status word by a path. A point with VALID 0 reads 0 and is not refused (R415). -/
def State.readPoint (s : State) (n : Nat) (path : PointPath) (eid : Nat) (status : Bool) : Except AccessErr Nat × State :=
  let p := s.point n
  if p.valid ∧ ¬ s.pointOwned p path eid then (.error .enclave, s)
  else if p.bad then (.error .poison, s.log .sramUe unitPoints (pointAddr n))
  else if status then (.ok (s.pointStatus p), s)
  else (.ok (if p.valid then p.value.toNat else 0), s)

/-! ### Accesses through ARB_PT (R133, R414) -/

/-- The ARB_PT port of an agent. -/
def ptPort : Agent → Nat
  | .core c => 10 + c.val / 24
  | .phaseCore p => p.val / 64
  | .queueEngine e => 4 + e.val
  | .sigmaDelta _ => 9
  | _ => 10

/-- An uncorrectable error is found in an entry (R346). -/
def State.pointBad (s : State) (n : Nat) (bad : Bool) : State := if bad then s.setPoint n { s.point n with bad := true } else s

/-- The path that an agent takes. -/
def agentPath : Agent → PointPath
  | .phaseCore _ => .phase
  | .sigmaDelta _ => .sdf
  | _ => .mesh

/-- A granted read, answered to its requester. -/
def State.pointRead (s : State) (n : Nat) (who : Requester) (status : Bool) : State :=
  let (r, s1) := s.readPoint n (agentPath who.agent) who.eid.toNat status
  match who.agent, r with
  | .phaseCore p, r => s1.pcPoint p.val r
  | _, .ok v => { s1 with lastRead := BitVec.ofNat 64 v }
  | _, .error _ => s1

/-- A granted write. A refused one of a phase core sets POST_REJECT, and one of a sigma-delta channel is counted. -/
def State.pointWrite (s : State) (n : Nat) (who : Requester) (v : Word64) (stamp : Option Word64) : State :=
  let (r, s1) := s.updatePoint n (agentPath who.agent) who.eid.toNat v stamp
  match r, who.agent with
  | some _, .phaseCore p => s1.wb (Reg.PCC_STATUS p.val) 7 true
  | some _, .sigmaDelta _ => s1.ptReject
  | _, _ => s1

/-- A Dinath record that has been granted (R410). -/
def State.applyRecord (s : State) (n : Nat) (v stamp : Word64) (node : Nat) : State :=
  let (r, s1) := s.updatePoint n (.dinath node) 0 v (some stamp)
  if r.isSome then s1.ptReject else s1

/-- POINT_UPDATE: a record is presented to ARB_PT port 8, with the stamp of its frame's GT and the port's slack. -/
def execPointUpdate (pt : PointId) (value : Word64) (stamp : Word64) (node : BitVec 18) (s : State) :
    Host.Outcome State Fault Refusal :=
  let st := s.clampStamp (stamp.toNat + 4 * s.rf (Reg.ARB_PORT_CFG 12 8) 31 8)
  .next (s.present 0 12 8 st pt.val 16 (.record pt value stamp node))

/-- STALE_SWEEP: every point that is stale and not yet marked is marked. -/
def execStaleSweep (s : State) : Host.Outcome State Fault Refusal :=
  let s1 := s.points.foldl (fun s e =>
    let p := e.2
    if s.pointStale p ∧ ¬ p.stale then
      (((s.setPoint e.1 { p with stale := true }).count Reg.PT_STALE_COUNT 32).wr Reg.PT_LAST_STALE e.1).ptIrq 0
    else s) s
  .next s1.armSweep

/-! ### Assignment and forcing (R417, R419) -/

/-- The stamp of a write: a main core's slack at its level, else the port's slack (R187, R134). -/
def State.whoStamp (s : State) (who : Requester) (a port : Nat) : Stamp :=
  match who.agent with
  | .core c => s.stampWith ((s.core c.val).slack who.pl.toNat)
  | _ => s.defaultStamp a port

/-- A point receives its new owner and class. -/
def State.assignPoint (s : State) (n : Nat) : State :=
  let o := s.rd Reg.PT_ASG_OWNER
  let s1 := if (s.point n).forced then s.wr Reg.PT_FORCED_COUNT (s.rd Reg.PT_FORCED_COUNT - 1) else s
  s1.setPoint n { vmid := BitVec.ofNat 12 o, eid := BitVec.ofNat 6 (fld o 17 12), cls := BitVec.ofNat 3 (fld o 22 20) }

/-- The request that assigns a point, after which `left` others of its range remain. -/
def State.presentAssign (s : State) (n left port : Nat) (st : Stamp) : State :=
  s.present 0 12 port st n 16 (.assign n left port st)

/-- A granted assignment, and the request for the fourth point behind it, so that four are before the arbiter and each mesh clock can
grant one; BUSY clears with the last. -/
def State.assigned (s : State) (n left port : Nat) (st : Stamp) : State :=
  let s1 := s.assignPoint n
  if left = 0 then s1.wb Reg.PT_ASG_CTRL 1 false
  else if left < 4 then s1
  else s1.presentAssign (n + 4) (left - 4) port st

/-- The write acts on a point of an enclave, or sets an EID other than 0 (R417). -/
def State.ptGuarded (s : State) (a v : Nat) : Bool :=
  let first := s.rd Reg.PT_ASG_FIRST
  let last := first + s.rd Reg.PT_ASG_COUNT
  if a = Reg.PT_ASG_OWNER then fld v 17 12 != 0
  else if (List.range 8).any fun c => a = Reg.PT_DIN_EID c then fld v 5 0 != 0
  else if a = Reg.PT_ASG_CTRL ∧ v.testBit 0 then
    s.rf Reg.PT_ASG_OWNER 17 12 != 0 || s.points.any fun e => decide (first ≤ e.1 ∧ e.1 < last) && e.2.eid != 0
  else if a = Reg.PT_FRC_CTRL ∧ v % 4 ≠ 0 then (s.point (s.rd Reg.PT_FRC_POINT)).eid != 0
  else false

/-- A granted SET or CLEAR. -/
def State.forced (s : State) (n : Nat) (v : Option Word64) : State :=
  let p := s.point n
  match v with
  | some v =>
    let s1 := if p.forced then s else s.wr Reg.PT_FORCED_COUNT (s.rd Reg.PT_FORCED_COUNT + 1)
    s1.setPoint n { p with value := v, stamp := BitVec.ofNat 40 s.now, valid := true, forced := true, stale := false, bad := false }
  | none =>
    if p.forced then
      ((s.wr Reg.PT_FORCED_COUNT (s.rd Reg.PT_FORCED_COUNT - 1)).setPoint n { p with forced := false }).armSweep
    else s

/-- A write of a point-image control register. -/
def State.writePt (s : State) (who : Requester) (a v : Nat) : State :=
  let port := ptPort who.agent
  let st := s.whoStamp who 12 port
  if who.pl.toNat < 2 ∨ (who.pl.toNat < 3 ∧ s.ptGuarded a v = true) then s.log .enclaveDeny unitPoints a
  else if Reg.PT_ASG_FIRST ≤ a ∧ a ≤ Reg.PT_ASG_CTRL ∧ s.rb Reg.PT_ASG_CTRL 1 = true then s.ptIrq 2
  else if a = Reg.PT_ASG_CTRL then
    let first := s.rd Reg.PT_ASG_FIRST
    let count := s.rd Reg.PT_ASG_COUNT
    if v.testBit 0 ∧ count ≠ 0 ∧ first + count ≤ 131072 then
      (List.range (min 4 count)).foldl (fun s i => s.presentAssign (first + i) (count - 1 - i) port st) (s.wb Reg.PT_ASG_CTRL 1 true)
    else s
  else if a = Reg.PT_FRC_CTRL then
    let n := s.rd Reg.PT_FRC_POINT
    let s1 := if v.testBit 0 then s.present 1 12 port st n 16 (.force n (some (BitVec.ofNat 64 (s.rd Reg.PT_FRC_VALUE)))) else s
    if v.testBit 1 then s1.present 1 12 port st n 16 (.force n none) else s1
  else s.storeReg a v

/-- GO. -/
def execGo (who : Requester) (s : State) : Host.Outcome State Fault Refusal := .next (s.writePt who Reg.PT_ASG_CTRL 1)
/-- SET. -/
def execSet (who : Requester) (s : State) : Host.Outcome State Fault Refusal := .next (s.writePt who Reg.PT_FRC_CTRL 1)
/-- CLEAR. -/
def execClear (who : Requester) (s : State) : Host.Outcome State Fault Refusal := .next (s.writePt who Reg.PT_FRC_CTRL 2)

end Sys2Proof.Machine
end

