-- ==== Sys2Proof/Machine/Dinath.lean ====
section
/-!
DEFINITION. Sys2Proof/Machine/Dinath.lean: the Dinath receiver (R408 to R412).
-/
namespace Sys2Proof.Machine

/-- A Dinath header as received (R408). -/
structure DinHeader where
  version : Nat
  kind : Nat
  flags : Nat
  domain : Nat
  dest : Nat
  src : Nat
  count : Nat
  zero : Nat
deriving DecidableEq, Repr

/-- The header at an offset of a frame. -/
def dinHeader (f : List Byte) (k : Nat) : DinHeader :=
  { version := byteAt f k / 16, kind := byteAt f k % 16, flags := byteAt f (k + 1), domain := beAt f (k + 2) 2
    dest := beAt f (k + 4) 3, src := beAt f (k + 7) 3, count := beAt f (k + 12) 2, zero := beAt f (k + 14) 2 }

def dinUpdate : Nat := 1
def dinPosition : Nat := 2
def dinMgmt : Nat := 3

/-- The records fill the frame: exactly, or up to the padding of a frame of the least length. -/
def recordsFit (f : List Byte) (k size count : Nat) : Bool :=
  let n := f.length - (k + 16)
  decide (size * count = n) || (decide (size * count ≤ n) && decide (f.length = 60))

/-- Every record's zero fields are zero. -/
def recordsZero (f : List Byte) (k kind count : Nat) : Bool :=
  (List.range count).all fun i =>
    if kind = dinUpdate then decide (beAt f (k + 16 + 12 * i) 4 < 2 ^ 17)
    else decide (byteAt f (k + 16 + 8 * i) < 16) && byteAt f (k + 17 + 8 * i) == 0

/-- The receiver's checks of a copy (R409). -/
def dinathGood (f : List Byte) (k : Nat) : Bool :=
  let h := dinHeader f k
  let fields := h.version == 1 && decide (h.flags < 2) && decide (h.dest < 2 ^ 18) && decide (h.src < 2 ^ 18) && h.zero == 0
  let body :=
    if h.kind = dinUpdate then decide (1 ≤ h.count ∧ h.count ≤ 256) && recordsFit f k 12 h.count && recordsZero f k dinUpdate h.count
    else if h.kind = dinPosition then decide (1 ≤ h.count ∧ h.count ≤ 16) && recordsFit f k 8 h.count && recordsZero f k dinPosition h.count
    else h.kind == dinMgmt && h.count == 1
  fields && body

/-- A counter of the receiver, its flag and source 2,465 (R421). -/
def State.dinCount (s : State) (reg bit : Nat) : State := ((s.count reg 32).wb Reg.DIN_IRQ_STATUS bit true).source 2465

/-- The records of a POINT_UPDATE follow one another to ARB_PT, one per mesh clock, 80 ns after the last byte (R410). -/
def State.sendRecords (s : State) (f : List Byte) (k count src : Nat) (sfd : Word64) : State :=
  (List.range count).foldl (fun s i =>
    let a := k + 16 + 12 * i
    s.send (80 + (5 * i + 7) / 8)
      (.pointUpdate (Fin.ofNat 131072 (beAt f a 4)) (BitVec.ofNat 64 (beAt f (a + 4) 8)) sfd (BitVec.ofNat 18 src))) s

/-- The records of a POSITION apply 200 ns after the frame's SFD (R411). -/
def State.sendPositions (s : State) (f : List Byte) (k count src : Nat) (sfd : Word64) : State :=
  (List.range count).foldl (fun s i =>
    let a := k + 16 + 8 * i
    s.send (sfd.toNat + 200 - s.now)
      (.position (BitVec.ofNat 18 src) (BitVec.ofNat 4 (byteAt f a)) (BitVec.ofNat 48 (beAt f (a + 2) 6)) sfd)) s

/-- The copy is for this receiver (R409). -/
def State.dinathMine (s : State) (p : Nat) (h : DinHeader) : Bool :=
  s.rb (Reg.PORT_CFG p) 6 && h.domain == s.rf Reg.DIN_DOMAIN 15 0 &&
    (h.dest % 2 ^ 18 == 0x3FFFF || h.dest % 2 ^ 18 == s.rf Reg.DIN_NODE 17 0 || h.kind == dinPosition)

/-- MGMT commands that Lemam has not answered (R475). -/
def State.mgmtOutstanding (s : State) : Nat :=
  s.net.mgmt.length + (s.lemam.deferred.filter fun d => d.route.src == .mgmt).length

/-- DINATH_RECEIVE: the receiver takes and checks a copy of a frame whose last byte has arrived. -/
def execDinathReceive (p : PortId) (frame : List Byte) (instant : Word64) (s : State) : Host.Outcome State Fault Refusal :=
  match dinathAt frame with
  | none => .next s
  | some k =>
    let h := dinHeader frame k
    let held := s.net.dinath.filter fun t => decide (s.clk < t)
    let s0 := { s with net := { s.net with dinath := held } }
    if ¬ s.dinathMine p.val h then .next s0
    else if 16 ≤ held.length then .next (s0.dinCount Reg.DIN_BUSY 1)
    else if ¬ dinathGood frame k then .next (s0.dinCount Reg.DIN_BAD 0)
    else
      let hold := fun (ns : Nat) => { s0 with net := { s0.net with dinath := held ++ [s.clk + ns] } }
      if h.kind = dinUpdate then .next ((hold (80 + h.count)).sendRecords frame k h.count h.src instant)
      else if h.kind = dinPosition then .next ((hold 200).sendPositions frame k h.count h.src instant)
      else if s.mode = modeService ∧ h.dest = s.rf Reg.DIN_NODE 17 0 ∧ h.dest ≠ 0x3FFFF ∧ s.mgmtOutstanding < 4 then
        .next ({ s0 with net := { s0.net with mgmt := s0.net.mgmt ++ [(p.val, frame)] } }.send 0 .commandTake)
      else .next (s0.count Reg.DIN_MGMT_DROP 32)

/-- POSITION: a record updates every STREAM base that follows its node and stream (R411). -/
def execPosition (node : BitVec 18) (stream : BitVec 4) (value : BitVec 48) (instant : Word64) (s : State) :
    Host.Outcome State Fault Refusal :=
  .next (((List.range 16).filter fun b =>
    s.runsOn b srcStream && !s.rb (Reg.PHB_CTRL b) 7 && s.rf (Reg.PHB_NODE b) 17 0 == node.toNat &&
      s.rf (Reg.PHB_NODE b) 23 20 == stream.toNat).foldl (fun s b => s.streamUpdate b value.toNat instant.toNat) s)

end Sys2Proof.Machine
end

