-- ==== Sys2Proof/Machine/Enclave.lean ====
section
/-!
DEFINITION. Sys2Proof/Machine/Enclave.lean: the Enclave Range Table and its commit, the purge of a core, sealing keys and the enclave
page (R426 to R438, R447 to R450). A register that the page marks "device" stands in core 0's page.
-/
namespace Sys2Proof.Machine

def State.editEnc (s : State) (f : Enc → Enc) : State := { s with enc := f s.enc }

/-! ### The table (R427, R428, R431) -/

/-- A valid range as monitor SRAM holds it: enclave e, entry r. -/
def State.ertEntry (s : State) (e r : Nat) : Option ErtRange :=
  let a := 0x1000000 + e * 0x80 + r * 0x10
  let lo := s.bytes a 8
  let hi := s.bytes (a + 8) 8
  if lo.testBit 0 then
    some { eid := e, index := r, base := fld lo 45 12 * 4096, last := fld hi 45 12 * 4096, w := lo.testBit 1 }
  else none

/-- The valid ranges in ascending order of enclave and entry. -/
def State.ertTable (s : State) : List ErtRange :=
  (List.range 63).flatMap fun e => (List.range 8).filterMap fun r => s.ertEntry (e + 1) r

/-- Why a range fails: 1 outside DRAM, 2 LAST below BASE, 3 a page shared with another enclave. -/
def State.ertReason (s : State) (t : List ErtRange) (x : ErtRange) : Nat :=
  if x.last < x.base then 2
  else if ¬ s.inDram x.base ∨ ¬ s.inDram (x.last + 4095) then 1
  else if t.any fun y => decide (y.eid ≠ x.eid ∧ x.base ≤ y.last ∧ y.base ≤ x.last) then 3
  else 0

/-- The enclave that owns an address in a table, and whether it may write there. -/
def ertOutcome (t : List ErtRange) (a : Nat) : Option (Nat × Bool) :=
  match t.filter fun r => decide (r.base ≤ a / 4096 * 4096 ∧ a / 4096 * 4096 ≤ r.last) with
  | [] => none
  | r :: rs => some (r.eid, (r :: rs).any (·.w))

/-- Lines whose outcome differs between two tables, of those that a directory tracks or a transaction is open for. -/
def State.ertChanged (s : State) (old new : List ErtRange) : List Nat :=
  (s.homes.flatMap fun h => (h.2.dir.map fun e => 64 * e.1) ++ h.2.txns.map (·.line)).filter fun a =>
    decide (ertOutcome old a ≠ ertOutcome new a)

/-- The walks go on: a line that is not busy loses its directory entry; a busy one waits. -/
def State.walkOn (s : State) : State :=
  let busy := s.enc.walk.filter fun a => (s.home (s.homeOf a)).busy a
  let free := s.enc.walk.filter fun a => !(s.home (s.homeOf a)).busy a
  let s1 := free.foldl (fun s a =>
    let h := s.homeOf a
    match (s.home h).entry a with
    | some d => if d.holders.isEmpty then s else s.removeEntry h a d.holders
    | none => s) (s.editEnc fun x => { x with walk := busy })
  let begun := free.filter fun a => (s1.home (s1.homeOf a)).busy a
  s1.editEnc fun x => { x with walk := x.walk ++ begun }

/-- ERT_COMMIT: the table is copied and validated, adopted by every checker at once, and the walks begin. While COMMIT_BUSY is 1 the
write is ignored and sets LOCKED_WRITE. -/
def State.ertCommit (s : State) : State :=
  let st := Reg.ENC_STATUS 0
  if s.rb st 0 then s.wb st 3 true
  else
    let t := s.ertTable
    match t.find? fun x => s.ertReason t x != 0 with
    | some x =>
      (((s.wb st 1 true).wf st 13 8 x.eid).wf st 18 16 x.index).wf st 21 20 (s.ertReason t x)
    | none =>
      let lines := s.ertChanged s.ert t
      (((({ s with ert := t }).wb st 0 true).editEnc fun x => { x with walk := lines.eraseDups }).walkOn).send 2000 .commitEnd

/-- The enclave page is open to PL3 alone (R449). -/
def encPageOpen (who : Requester) : Bool := who.pl == 3

def execErtCommit (_c : CoreId) (who : Requester) (s : State) : Host.Outcome State Fault Refusal :=
  .next (if encPageOpen who then s.ertCommit else s)

/-- COMMIT_END: every walk and acknowledgement is complete, and COMMIT_BUSY clears; until then the walks go on. -/
def execCommitEnd (s : State) : Host.Outcome State Fault Refusal :=
  if s.rb (Reg.ENC_STATUS 0) 0 then
    let s1 := s.walkOn
    if s1.enc.walk.isEmpty then .next (s1.wb (Reg.ENC_STATUS 0) 0 false) else .next (s1.send 100 .commitEnd)
  else .next s

/-! ### Purge (R432) -/

/-- PURGE_BUSY of a core. -/
def State.purging (s : State) (c : Nat) : Bool := s.rb (Reg.ENC_STATUS c) 2

/-- Dirty lines of a core's caches. -/
def Core.dirtyLines (c : Core) : List Nat :=
  (c.lines.filter fun l => l.2.st == .m || l.2.st == .o).map (·.1)

/-- Every dirty line is written back and every clean one dropped; lines on their way in or out stay for the end. -/
def State.flushCore (s : State) (c : Nat) : State :=
  let x := s.core c
  let kept := x.lines.filter fun l => !(l.2.st == .e || l.2.st == .s)
  (x.dirtyLines).foldl (fun s l => s.send 0 (.writeBack (coreId c) (paddr l))) (s.setCore c { x.emptyLoopBuffer with lines := kept })

/-- PURGE of a core: 1.0 µs and 3.75 ns for each dirty line. -/
def State.purge (s : State) (c : Nat) : State :=
  if s.purging c then s
  else
    let n := (s.core c).dirtyLines.length
    ((s.wb (Reg.ENC_STATUS c) 2 true).flushCore c).send (1000 + (15 * n + 3) / 4) (.purgeDone (coreId c))

def execPurge (c : CoreId) (who : Requester) (s : State) : Host.Outcome State Fault Refusal :=
  .next (if encPageOpen who then s.purge c.val else s)

/-- The store that set PURGE receives its Comp: it leaves the writer's buffer. -/
def State.purgeAnswer (s : State) (w : Nat) : State :=
  match (s.core w).stores.findIdx? (·.sent) with
  | some k => s.popStore w k
  | none => s

/-- PURGE_DONE: the caches are empty, PURGE_BUSY clears, and the stores that asked for it complete. -/
def execPurgeDone (c : CoreId) (s : State) : Host.Outcome State Fault Refusal :=
  if ¬ s.purging c.val then .next s
  else if (s.core c.val).lines.isEmpty then
    let ws := (s.enc.purgers.filter fun p => p.1 = c.val).map (·.2)
    let s1 := (s.wb (Reg.ENC_STATUS c.val) 2 false).editEnc fun x => { x with purgers := x.purgers.filter fun p => p.1 != c.val }
    .next (((ws.foldl State.purgeAnswer s1).kickDrain c.val 1).recognise c.val)
  else .next ((s.flushCore c.val).send 10 (.purgeDone c))

/-! ### Sealing keys (R437, R438, R447) -/

def lifeReturn : Nat := 3

/-- The message of a derivation: label, measurement, EID, DEBUG_OPEN, STATE. -/
def State.keyMessage (s : State) (c eid : Nat) : List Byte :=
  toBytes 8 (s.rd (Reg.ENC_KEY_LABEL c)) ++ ((List.range 6).flatMap fun k => toBytes 8 (s.rd (Reg.ENC_MEASURE 0 k))) ++
    [BitVec.ofNat 8 eid, BitVec.ofNat 8 (b2n s.enc.debugOpen), BitVec.ofNat 8 s.enc.state]

/-- The root secret's 32 bytes. -/
def rootSecretBytes : List Byte := toBytes 32 Config.rootSecret.toNat

/-- DERIVE: the HMAC of the message; its first 256 bits arrive 2 µs later. In RETURN the root secret is disconnected. -/
def State.derive (s : State) (c eid : Nat) : State :=
  if s.enc.state = lifeReturn then s
  else
    let key := ofBytes ((hmac384 rootSecretBytes (s.keyMessage c eid)).take 32)
    (s.editEnc fun x => { x with deriving_ := tabSet none x.deriving_ c (some (key, eid)) }).send 2000 (.ready (coreId c))

def execDerive (c : CoreId) (who : Requester) (s : State) : Host.Outcome State Fault Refusal :=
  .next (if encPageOpen who then s.derive c.val who.eid.toNat else s)

/-- READY: the key is placed in ENC_KEY0 to ENC_KEY3 with the EID that derived it. -/
def execReady (c : CoreId) (s : State) : Host.Outcome State Fault Refusal :=
  match tabGet none s.enc.deriving_ c.val with
  | some (key, eid) =>
    let s1 := [0, 1, 2, 3].foldl (fun s k => s.wr (Reg.ENC_KEY c.val k) (key / 2 ^ (64 * k) % 2 ^ 64)) s
    let s2 := (s1.wf (Reg.ENC_KEY_CTRL c.val) 13 8 eid).wb (Reg.ENC_KEY_CTRL c.val) 2 true
    .next (s2.editEnc fun x => { x with deriving_ := tabErase x.deriving_ c.val })
  | none => .next s

/-- The key registers of a core become 0 and READY clears. -/
def State.clearKeys (s : State) (c : Nat) : State :=
  let s1 := [0, 1, 2, 3].foldl (fun s k => s.wr (Reg.ENC_KEY c k) 0) s
  (s1.wb (Reg.ENC_KEY_CTRL c) 2 false).editEnc fun x => { x with deriving_ := tabErase x.deriving_ c }

def execKeyClear (c : CoreId) (who : Requester) (s : State) : Host.Outcome State Fault Refusal :=
  .next (if encPageOpen who then s.clearKeys c.val else s)

/-- The keys of every core are cleared (R438, R447). -/
def State.clearAllKeys (s : State) : State := (List.range 96).foldl State.clearKeys s

/-- EXTEST no longer drives the balls (R538). -/
def State.endScan (s : State) : State :=
  if s.pins.any fun e => e.2.scan.isSome then { s with pins := s.pins.map fun e => (e.1, { e.2 with scan := none }) } else s

/-- Debug closes: DEBUG_OPEN clears, with every register of the debug space and every key (R446, R447, R537). -/
def State.closeDebug (s : State) : State :=
  let s1 := { s with regs := s.regs.filter fun e => decide (e.1 < 0x400000000000), dbg := {} }
  ((s1.editEnc fun x => { x with debugOpen := false }).clearAllKeys).endScan

/-! ### The page (R449, R450) -/

/-- A read of the enclave page of core c: a key reads 0 unless the request's EID is KEY_EID. -/
def State.readEnc (s : State) (who : Requester) (a : Nat) : Nat :=
  let c := (a - 0x61008000) / 0x10000
  let off := (a - 0x61008000) % 0x10000
  if off = 0 then 0
  else if off = 4 then putFld (s.rd (Reg.ENC_STATUS 0)) 2 2 (b2n (s.purging c))
  else if off = 8 then
    s.enc.state + 4 * b2n s.enc.debugOpen + 8 * b2n (!s.enc.keyHash.isEmpty) + 16 * s.rf (Reg.ENC_LIFECYCLE 0) 4 4 + 256 * s.enc.secver
  else if 0x10 ≤ off ∧ off < 0x40 then s.rd (a - c * 0x10000)
  else if 0x50 ≤ off ∧ who.eid.toNat ≠ s.rf (Reg.ENC_KEY_CTRL c) 13 8 then 0
  else s.rd a

/-- A write to the enclave page of core c. -/
def State.writeEnc (s : State) (who : Requester) (a v : Nat) : State :=
  let c := (a - 0x61008000) / 0x10000
  let off := (a - 0x61008000) % 0x10000
  if off = 0 then
    let s1 := if v.testBit 0 then s.ertCommit else s
    if v.testBit 1 then s1.purge c else s1
  else if off = 4 then s.storeReg (Reg.ENC_STATUS 0) v
  else if off = 0x48 then
    let s1 := if v.testBit 0 then s.derive c who.eid.toNat else s
    if v.testBit 1 then s1.clearKeys c else s1
  else s.storeReg a v

end Sys2Proof.Machine
end

