-- ==== Sys2Proof/Machine/Pair.lean ====
section
/-!
DEFINITION. Sys2Proof/Machine/Pair.lean: the pair link, the common time and the agreement gate (R451 to R470), and entry to
SAFE_HOLD (R77, R498), which a fault of the gate causes.
-/
namespace Sys2Proof.Machine

def State.editPair (s : State) (f : Pair → Pair) : State := { s with pair := f s.pair }

/-- LINK: 0 DOWN, 1 TRAINING, 2 UP. -/
def State.pairLink (s : State) : Nat := s.rf Reg.PAIR_STATUS 1 0
def State.gateActive (s : State) : Bool := s.rb Reg.PAIR_STATUS 3
def State.aligned (s : State) : Bool := s.rb Reg.PAIR_STATUS 2
/-- W in ns (R460, R471). -/
def State.agreeWindow (s : State) : Nat := 1000 * max 1 (min 100 (s.rf Reg.PAIR_CFG 14 8))

/-- A bit of PAIR_IRQ_STATUS sets, and source 2,903 is raised while it is enabled (R470). -/
def State.pairIrq (s : State) (bit : Nat) : State :=
  let s1 := s.wb Reg.PAIR_IRQ_STATUS bit true
  if bit < 3 ∧ s1.rb Reg.PAIR_IRQ_EN bit = true then s1.source 2903 else s1

/-- LINK takes a value. -/
def State.setPairLink (s : State) (v : Nat) : State :=
  if s.pairLink = v then s else (s.wf Reg.PAIR_STATUS 1 0 v).pairIrq 1

/-- ALIGNED takes a value. -/
def State.setAligned (s : State) (b : Bool) : State :=
  if s.aligned = b then s else (s.wb Reg.PAIR_STATUS 2 b).pairIrq 2

/-! ### The gate's contents (R459, R472) -/

/-- PAIR_GATE_USED follows the items. -/
def State.gateShow (s : State) : State :=
  (s.wf Reg.PAIR_GATE_USED 9 0 s.pair.items.length).wf Reg.PAIR_GATE_USED 25 16 s.pair.peers.length

/-- An item's key, a frame's apart from a pin's. -/
def gateKey (i : GateItem) : Nat := i.key.toNat + (if i.frame then 2 ^ 18 else 0)

/-- A pair: KEY and SEQ are equal (R460). -/
def gatePairs (a b : GateItem) : Bool := gateKey a == gateKey b && a.seq == b.seq

/-- A pair agrees: TAG_KIND, TAG and VALUE are equal (R460). -/
def gateAgrees (a b : GateItem) : Bool := a.phase == b.phase && a.tag == b.tag && a.value == b.value

/-- Every item is discarded, the frames held at the gate complete with PORT, and GATE_ACTIVE clears (R462, R499). -/
def State.gateClose (s : State) : State :=
  let s1 := s.net.gated.foldl (fun s e => s.releaseGated e.1 false) s
  ((s1.editPair fun p => { p with items := [], peers := [], agreed := [] }).wb Reg.PAIR_STATUS 3 false).gateShow

/-! ### SAFE_HOLD (R77, R496, R498, R503) -/

def setModes (s : State) (f : Modes → Modes) : State := { s with modes := f s.modes }

/-- A wake from STANDBY is asked for; a SAFE_HOLD trigger replaces the mode of one that is under way (R503). -/
def State.askWake (s : State) (target cause : Nat) : State :=
  match s.modes.waking with
  | some _ => if target = modeSafeHold then setModes s fun m => { m with waking := some (target, cause) } else s
  | none => (setModes s fun m => { m with waking := some (target, cause) }).after 0 (.boot 20)

/-- Cross-trigger channels that fire on entry to SAFE_HOLD (R546). -/
def State.signalSafeHold (s : State) : State :=
  (List.range 8).foldl (fun s c => if s.rb (Reg.DBG_XT_CFG c) 2 then s.send 0 (.crossTrigger (Fin.ofNat 8 c)) else s) s

/-- A trigger of SAFE_HOLD: every OUTPUT pin enters SAFE and SAFE_N is asserted in this phase clock. From STANDBY the device then wakes
into SAFE_HOLD. In OFF, PREFLASH and SAFE_HOLD nothing changes. -/
def State.safeHold (s : State) (cause : Nat) : State :=
  let m := s.mode
  if m = modeStandby then
    (setModes s.allPinsSafe fun m => { m with safeN := true, holdCause := some cause }).askWake modeSafeHold cause
  else if m = modeRun ∨ m = modePaired ∨ m = modeDegraded ∨ m = modeService then
    let s1 := setModes (if s.gateActive then s.gateClose else s) fun m => { m with agreed := none }
    (s1.allPinsSafe.enterMode modeSafeHold cause).signalSafeHold
  else s

/-- A fault of the gate (R462): the first one's kind, item and GT are kept until FAULT is cleared; the side enters SAFE_HOLD. -/
def State.gateFault (s : State) (kind : Nat) (item : Option GateItem) : State :=
  let frame := b2n ((item.map (·.frame)).getD false)
  let key := ((item.map (·.key.toNat)).getD 0)
  let seq := ((item.map (·.seq.toNat)).getD 0)
  let s1 :=
    if s.rb Reg.PAIR_IRQ_STATUS 0 then s
    else ((s.wf Reg.PAIR_STATUS 10 8 kind).wr Reg.PAIR_FAULT_KEY (key + frame * 2 ^ 18 + seq * 2 ^ 32)).wr Reg.PAIR_FAULT_GT s.now
  (((s1.pairIrq 0).log .pairFault (dieUnit 11 0) (key + frame * 2 ^ 18 + kind * 2 ^ 32)).gateClose).safeHold 6

/-! ### Items (R459 to R462) -/

/-- A released item: a pin action is resolved in this clock, a frame joins its egress queue (R461). -/
def State.releaseItem (s : State) (i : GateItem) : State :=
  let s1 := s.tally Reg.PAIR_RELEASE_COUNT
  if i.frame then s1.releaseGated i.key.toNat true
  else s1.pinArrive i.key.toNat (if i.value = 1 then .active else .toggle)

/-- Agreeing pairs leave in SEQ order of their key. -/
def State.releaseReady : Nat → State → State
  | 0, s => s
  | fuel + 1, s =>
    match s.pair.agreed.find? fun i => i.seq.toNat == tabGet 0 s.pair.nextOut (gateKey i) with
    | none => s
    | some i =>
      let s1 := s.editPair fun p => { p with agreed := p.agreed.filter fun j => !(gatePairs i j)
                                             nextOut := tabSet 0 p.nextOut (gateKey i) ((i.seq.toNat + 1) % 2 ^ 32) }
      State.releaseReady fuel (s1.releaseItem i)

/-- A pair is held: released, or declared a MISMATCH. -/
def State.pairMet (s : State) (mine theirs : GateItem) : State :=
  let s1 := (s.editPair fun p => { p with items := p.items.filter fun j => !(gatePairs mine j)
                                          peers := p.peers.filter fun j => !(gatePairs mine j) }).gateShow
  if gateAgrees mine theirs then
    State.releaseReady (s1.pair.agreed.length + 1) (s1.editPair fun p => { p with agreed := p.agreed ++ [mine] })
  else s1.gateFault 1 (some mine)

/-- TIMEOUT is looked for at SUB_GT + W. -/
def State.armGateTimeout (s : State) (subGt : Nat) : State :=
  s.send (max 1 (subGt + s.agreeWindow - s.now)) .gateTimeout

/-- GATE_SUBMIT: a local item takes the count of its key as SEQ and is sent to the peer; a submission that finds 512 unmatched local
items is FULL. With the gate inactive the item is discarded (R76, R406). -/
def execGateSubmit (item : GateItem) (s : State) : Host.Outcome State Fault Refusal :=
  if ¬ s.gateActive then
    .next (if item.frame then s.releaseGated item.key.toNat false
      else s.wb (Reg.PIN_STATUS (item.key.toNat % 512)) (if s.mode = modeSafeHold then 5 else 4) true)
  else
    let n := tabGet 0 s.pair.nextSeq (gateKey item)
    let i := { item with seq := BitVec.ofNat 32 n }
    if s.pair.items.length ≥ 512 then .next (s.gateFault 4 (some i))
    else
      let s1 := (s.editPair fun p => { p with items := p.items ++ [i], nextSeq := tabSet 0 p.nextSeq (gateKey i) (n + 1) }).gateShow
      let s2 := (s1.present 0 13 0 (s1.defaultStamp 13 0) 0 64 (.gate i)).armGateTimeout i.subGt.toNat
      match s2.pair.peers.find? (gatePairs i) with
      | some t => .next (s2.pairMet i t)
      | none => .next s2

/-- GATE_PEER_ITEM: an item of the peer arrives. One that matches no local item and finds 512 unmatched peer items is FULL too. -/
def execGatePeerItem (item : GateItem) (s : State) : Host.Outcome State Fault Refusal :=
  if ¬ s.gateActive then .next s
  else
    match s.pair.items.find? (gatePairs item) with
    | some mine => .next (s.pairMet mine item)
    | none =>
      if s.pair.peers.length ≥ 512 then .next (s.gateFault 4 (some item))
      else .next (((s.editPair fun p => { p with peers := p.peers ++ [item] }).gateShow).armGateTimeout item.subGt.toNat)

/-- The unmatched item whose window has passed. -/
def State.timedOut (s : State) : Option GateItem :=
  (s.pair.items ++ s.pair.peers).find? fun i => decide (i.subGt.toNat + s.agreeWindow ≤ s.now)

/-- GATE_TIMEOUT: an item is unmatched when GT reaches its SUB_GT + W. GT may have slewed meanwhile: the instant is then found anew. -/
def execGateTimeout (s : State) : Host.Outcome State Fault Refusal :=
  match s.timedOut with
  | some i => if s.gateActive then .next (s.gateFault 2 (some i)) else .next s
  | none =>
    match (s.pair.items ++ s.pair.peers).map (·.subGt.toNat) with
    | [] => .next s
    | t :: ts => .next (s.armGateTimeout (ts.foldl min t))

/-! ### The link (R453 to R455) -/

/-- The link goes DOWN: what is queued or in flight is discarded, and ALIGNED clears. -/
def State.pairDown (s : State) : State :=
  let s1 := ((s.setPairLink 0).setAligned false).wf Reg.PAIR_STATUS 15 12 0
  let s2 := (s1.arbClear 13).wb Reg.PAIR_STATUS 6 false
  (s2.editPair fun p => { p with good := 0, first := true, refusals := 0 })

/-- The link is lost (R455): in RUN_PAIRED a LINK_LOSS; peer commands outstanding end (R466); a servo that follows the pair loses its
source (R26). -/
def State.pairLost (s : State) : State :=
  if s.pairLink = 2 then
    let s1 := s.pairDown
    let s2 := if s1.gtSource = some .pair then s1.sourceLost else s1
    let s3 := s2.lemam.outs.foldl (fun s _ => s.send 0 (.peerReply [])) s2
    if s.mode = modePaired then s3.gateFault 3 none else s3
  else s

/-- Training starts where the mode permits it (R454). -/
def State.trainPair (s : State) : State :=
  let m := s.mode
  if s.pairLink = 0 ∧ (m = modeRun ∨ m = modeDegraded ∨ m = modeSafeHold ∨ m = modeService) then s.setPairLink 1 else s

/-- A write of PAIR_CFG: LINK_EN starts training, or takes the link down. -/
def State.writePairCfg (s : State) (v : Nat) : State :=
  let s1 := s.storeReg Reg.PAIR_CFG v
  if s1.rb Reg.PAIR_CFG 1 then s1.trainPair
  else if s1.pairLink = 2 then s1.pairLost
  else s1.setPairLink 0

/-- LINK_EN. -/
def execLinkEn (_who : Requester) (value : Word32) (s : State) : Host.Outcome State Fault Refusal := .next (s.writePairCfg value.toNat)

/-- 327.68 ns without a good group are loss of the link. -/
def State.armPairLoss (s : State) : State := s.send 328 .pairLinkLoss

/-- LINK_UP: every lane locks and the sides differ (R454). -/
def execLinkUp (lanes : BitVec 4) (peerSide : Bool) (s : State) : Host.Outcome State Fault Refusal :=
  if s.pairLink ≠ 1 then .next s
  else
    let s1 := s.wf Reg.PAIR_STATUS 15 12 lanes.toNat
    if lanes ≠ 15 then .next s1
    else if s.rb Reg.PAIR_CFG 0 = peerSide then .next (s1.wb Reg.PAIR_STATUS 4 true)
    else
      let s2 := ((s1.wb Reg.PAIR_STATUS 4 false).setPairLink 2).editPair fun p =>
        { p with first := true, good := 0, refusals := 0, lastGood := s.clk }
      .next s2.armPairLoss

/-- The start or the end of RUN_PAIRED that both sides have agreed on; of two proposals of one kind the later GT stands. -/
def State.agreeOn (s : State) (entry : Bool) (gt : Nat) : State :=
  let g := match s.modes.agreed with
    | some (e, t) => if e = entry then max gt t.toNat else t.toNat
    | none => gt
  let entry' := match s.modes.agreed with | some (e, _) => e | none => entry
  (setModes s fun m => { m with agreed := some (entry', BitVec.ofNat 64 g) }).send (max 1 (g - s.now))
    (if entry' then .pairedEntry else .pairedExit)

/-- A proposal of the peer is taken in the mode that it leaves. -/
def State.peerProposes (s : State) (a : Option (Bool × Word64)) : State :=
  match a with
  | some (entry, gt) =>
    if (entry ∧ s.mode = modeRun) ∨ (¬ entry ∧ s.mode = modePaired) then s.agreeOn entry gt.toNat else s
  | none => s

/-- PAIR_GROUP: a group whose CRCs check is delivered, with what its trailer reports; one that fails is refused, and sixteen
consecutive refusals are loss of the link (R453, R455, R462). -/
def execPairGroup (g : PairGroup) (s : State) : Host.Outcome State Fault Refusal :=
  if s.pairLink ≠ 2 then .next s
  else if g.bad ≠ 0 then
    let s1 := (s.count Reg.PAIR_RETRY_COUNT 32).editPair fun p => { p with refusals := p.refusals + 1 }
    let s2 := [0, 1, 2, 3].foldl (fun s k => if g.bad.getLsbD k then s.log .linkRetry (dieUnit 3 (136 + k)) 0 else s) s1
    .next (if s2.pair.refusals ≥ 16 then s2.pairLost else s2)
  else if ¬ g.up then .next s.pairLost
  else
    let s1 := s.editPair fun p => { p with refusals := 0, lastGood := s.clk, peerMode := g.mode.toNat, peerWin := g.win.toNat
                                           peerFollows := g.follows }
    let s2 := ((s1.wb Reg.PAIR_STATUS 6 (g.mode.toNat = modePaired)).peerProposes g.agree).armPairLoss
    match g.notice with
    | some (frame, key, seq) =>
      .next (if s2.gateActive then
        s2.gateFault 6 (some { frame := frame, key := key, seq := seq, subGt := 0, phase := false, tag := 0, value := 0 }) else s2)
    | none => .next s2

/-- PAIR_LINK_LOSS: four group times have passed without a good group. -/
def execPairLinkLoss (s : State) : Host.Outcome State Fault Refusal :=
  if s.pairLink = 2 ∧ s.pair.lastGood + 328 ≤ s.clk then .next s.pairLost else .next s

/-! ### TIME_STEP and the common time (R27 to R29, R457, R458) -/

/-- A forward step of GT in one clock (R27). Compares that it steps over match with JUMPED set (R28), the slack of what the arbiters
hold falls with GT (R29), and what waits for an instant of GT is looked at anew. -/
def State.stepTime (s : State) (step : Nat) : State :=
  let s0 := { s with crossed := [] }
  let others := (List.range 16).filter fun b => s0.baseOn b && s0.baseSrc b != srcTime
  let s1 := { s0 with gt := { s0.gt with now := BitVec.ofNat 64 (s.now + step) } }
  let s2 := others.foldl (fun s b =>
    let x := s.base b
    s.setBase b { x with anchorGt := BitVec.ofNat 64 (x.anchorGt.toNat + step) }) s1
  let s4 := s2.gtStepped s.now s0.timeBases
  let s5 := ((s4.wb Reg.GT_STATUS 6 true).wb Reg.GT_STATUS 0 false).wr Reg.GT_STEP_COUNT ((s4.rd Reg.GT_STEP_COUNT + 1) % 2 ^ 32)
  let s6 := ((s5.arbStepped step).homesStepped s.now).netStepped
  ((s6.instants.armTimers).send 0 .gateTimeout).send 0 .shutterTake

/-- Eight consecutive intervals within 20 ns set ALIGNED; one above clears it, which in RUN_PAIRED is an ALIGN fault (R458, R462). -/
def State.alignInterval (s : State) (offset : Int) : State :=
  if offset.natAbs ≤ 20 then
    let n := min 8 (s.pair.good + 1)
    let s1 := s.editPair fun p => { p with good := n }
    if n = 8 then s1.setAligned true else s1
  else
    let s1 := (s.editPair fun p => { p with good := 0 }).setAligned false
    if s.aligned ∧ s.mode = modePaired then s1.gateFault 5 none else s1

/-- ALIGNMENT_EXCHANGE: side B steers its GT by the offset of R457; the first exchange after UP, or one that follows B_AHEAD, may step
it forward. Side A shows the same figure with its sign reversed. -/
def execAlignmentExchange (t1 t2 t3 t4 : Word64) (s : State) : Host.Outcome State Fault Refusal :=
  if s.pairLink ≠ 2 then .next s
  else
    let trips := (t2 - t1).toInt + (t4 - t3).toInt
    let offset : Int := (t1 - t2).toInt + trips / 2 + toSigned 16 (s.rd Reg.PAIR_ASYM)
    let b := s.rb Reg.PAIR_CFG 0
    let s1 := s.wr Reg.PAIR_ALIGN_OFFSET (wrapTo 64 (if b then offset else -offset))
    let s2 := s1.wr Reg.PAIR_LAT (min 65535 (trips / 2).toNat)
    let large := s.pair.first || s.rb Reg.PAIR_STATUS 5
    let s3 := s2.editPair fun p => { p with first := false }
    if ¬ b then .next (s3.alignInterval offset)
    else if large ∧ offset > 1000 ∧ s.mode ≠ modePaired then
      let s4 := (s3.wb Reg.PAIR_STATUS 5 false).stepTime offset.toNat
      let s5 := if s4.gtSource = some .pair then s4.measureStepped offset else s4
      .next (s5.alignInterval offset)
    else
      let s4 := if large then s3.wb Reg.PAIR_STATUS 5 (offset < -1000) else s3
      let s5 := if s4.gtSource = some .pair then s4.measure offset else s4
      .next (s5.alignInterval offset)

/-! ### Entering and leaving RUN_PAIRED (R464, R499) -/

/-- The conditions on the pair under which MODE_SET to RUN_PAIRED is accepted. -/
def State.mayPair (s : State) : Bool :=
  s.pairLink == 2 && s.aligned && s.pair.peerMode == modeRun && s.mode == modeRun &&
    s.agreeWindow == 1000 * max 1 (min 100 s.pair.peerWin) &&
    (if s.rb Reg.PAIR_CFG 0 then s.rf Reg.GT_CTRL 1 0 == 2 else s.pair.peerFollows)

/-- The first GT at least 100 µs ahead that is a multiple of 2^20 ns. -/
def State.agreedStart (s : State) : Nat := (s.now + 100000 + 2 ^ 20 - 1) / 2 ^ 20 * 2 ^ 20

/-- PAIRED_ENTRY: at the agreed GT the side enters RUN_PAIRED. -/
def execPairedEntry (s : State) : Host.Outcome State Fault Refusal :=
  match s.modes.agreed with
  | some (true, g) =>
    if s.now < g.toNat then .next (s.send (g.toNat - s.now) .pairedEntry)
    else
      let s1 := setModes s fun m => { m with agreed := none }
      if s.mode = modeRun ∧ s.pairLink = 2 then
        let s2 := (s1.editPair fun p => { p with items := [], peers := [], agreed := [], nextSeq := [], nextOut := [] }).gateShow
        .next (((s2.wb Reg.PAIR_STATUS 3 true).enterMode modePaired 4).send 0 .commandTake)
      else .next (s1.send 0 .commandTake)
  | _ => .next s

/-- PAIRED_EXIT: at the agreed GT the side leaves RUN_PAIRED; the items it discards are no faults. -/
def execPairedExit (s : State) : Host.Outcome State Fault Refusal :=
  match s.modes.agreed with
  | some (false, g) =>
    if s.now < g.toNat then .next (s.send (g.toNat - s.now) .pairedExit)
    else
      let s1 := setModes s fun m => { m with agreed := none }
      if s.mode = modePaired then .next (((s1.gateClose).enterMode modeRun 4).send 0 .commandTake)
      else .next (s1.send 0 .commandTake)
  | _ => .next s

end Sys2Proof.Machine
end

