-- ==== Sys2Proof/Machine/LemamBase.lean ====
section
/-!
DEFINITION. Sys2Proof/Machine/LemamBase.lean: Lemam's transports (R473 to R479): the command rings, the management SPI, and the reply
to a command.
-/
namespace Sys2Proof.Machine

def State.editLemam (s : State) (f : Lemam → Lemam) : State := { s with lemam := f s.lemam }

def cmdStatus : Nat := 0x2100000

/-- Lemam runs: from boot step 5 on, and not while its watchdog has expired (R474, R477). -/
def State.lemamRuns (s : State) : Bool := s.modes.lemamUp && s.mode != modeOff && !s.rb cmdStatus 9

/-- DEFERRED follows the deferred commands. -/
def State.lemamShow (s : State) : State := s.wf cmdStatus 4 0 s.lemam.deferred.length

/-- Lemam looks at its sources. -/
def State.kickLemam (s : State) (ns : Nat := 1000) : State := s.send ns .commandTake

/-! ### Command rings (R476) -/

def State.ringSlots (s : State) (j : Nat) : Nat := 2 ^ min 8 (s.rf (Reg.CMDR_CFG j) 3 0)
def State.ringSlot (s : State) (j i : Nat) : Nat := s.rd (Reg.CMDR_BASE j) + 4096 * (i % s.ringSlots j)
/-- A ring that holds a command and takes: EN is 1 and no memory error has stopped it. -/
def State.ringReady (s : State) (j : Nat) : Bool :=
  s.rb (Reg.CMDR_CFG j) 8 && !s.rb (Reg.CMDR_STATUS j) 1 && s.rd (Reg.CMDR_HEAD j) != s.rd (Reg.CMDR_TAIL j)

/-- CMDR_BASE: ignored while EN is 1. -/
def State.writeCmdrBase (s : State) (j v : Nat) : State :=
  if s.rb (Reg.CMDR_CFG j) 8 then s else s.storeReg (Reg.CMDR_BASE j) v

/-- CMDR_CFG: EN from 0 to 1 starts the ring with HEAD and TAIL at 0; LOG2SLOTS changes only while EN is 0. -/
def State.writeCmdrCfg (s : State) (j v : Nat) : State :=
  if s.rb (Reg.CMDR_CFG j) 8 then s.wb (Reg.CMDR_CFG j) 8 (v.testBit 8)
  else
    let s1 := s.storeReg (Reg.CMDR_CFG j) v
    if v.testBit 8 then ((s1.wr (Reg.CMDR_HEAD j) 0).wr (Reg.CMDR_TAIL j) 0).wb (Reg.CMDR_STATUS j) 1 false else s1

/-- CMDR_TAIL: a write that would leave more commands outstanding than slots is ignored and sets TAIL_ERR. -/
def State.writeCmdrTail (s : State) (j v : Nat) : State :=
  let left := (v + 65536 - s.rd (Reg.CMDR_HEAD j)) % 65536
  if left > s.ringSlots j then s.wb (Reg.CMDR_STATUS j) 0 true
  else (s.storeReg (Reg.CMDR_TAIL j) v).kickLemam

/-- CMDR_STATUS: MEM_ERR clears only when EN is set again. -/
def State.writeCmdrStatus (s : State) (j v : Nat) : State := s.storeReg (Reg.CMDR_STATUS j) (putFld v 1 1 0)

/-- The registers of rings 16 to 31 are reached at PL3, those of the others from PL2. -/
def ringOpen (j : Nat) (who : Requester) : Bool := decide (who.pl.toNat ≥ (if j < 16 then 2 else 3))

def execCmdrTail (j : RingId) (who : Requester) (value : Word32) (s : State) : Host.Outcome State Fault Refusal :=
  .next (if ringOpen j.val who then s.writeCmdrTail j.val value.toNat else s)

def execCmdrCfg (j : RingId) (who : Requester) (value : Word32) (s : State) : Host.Outcome State Fault Refusal :=
  .next (if ringOpen j.val who then s.writeCmdrCfg j.val value.toNat else s)

/-- Whether Lemam may read or write a ring slot: it lies in DRAM and outside every enclave range (R429, R430). -/
def State.slotOpen (s : State) (a : Nat) : Bool := s.inDram a && s.inDram (a + 4095) && s.ertPermits 0 a true

/-- A ring stops on a memory error. -/
def State.ringError (s : State) (j : Nat) : State := s.wb (Reg.CMDR_STATUS j) 1 true

/-- Bytes of a slot as Lemam reads them; none when a line of them is poisoned. -/
def State.slotBytes (s : State) (a n : Nat) : Option (List Byte) :=
  if (List.range ((n + 63) / 64)).any fun k => s.poisoned (lineOf a + 64 * k) then none
  else some (toBytes n (s.bytes a n))

/-! ### Replies (R478, R479) -/

def ringOf : CmdSource → Nat
  | .ring j => j.val
  | .peer r _ => r.val
  | _ => 0

/-- SOURCE as Lemam records it: code and ring (R475, R478). -/
def sourceByte : CmdSource → Nat
  | .ring j => (if j.val < 16 then 0 else 1) + 8 * j.val
  | .spi => 2
  | .peer r _ => 3 + 8 * r.val
  | .mgmt => 4

/-- The bytes of a reply. -/
def replyBytes (r : Route) (status : Nat) (data : List Byte) (gt : Nat) (peer : Bool) : List Byte :=
  toBytes 2 r.opcode ++ toBytes 2 r.seq ++ toBytes 2 data.length ++
    [BitVec.ofNat 8 (sourceByte r.src), if peer then 3 else 1, BitVec.ofNat 8 status] ++ toBytes 7 gt ++ data

/-- The MGMT frame that carries a reply (R412): to the source MAC and node of the frame that brought the command, with its VLAN tag. -/
def State.mgmtReply (s : State) (f reply : List Byte) : List Byte :=
  let k := (dinathAt f).getD 14
  let tag := if frameTagged f then (f.drop 12).take 4 else []
  (f.drop 6).take 6 ++ f.take 6 ++ tag ++ toBytesBE 2 0x88B5 ++ [0x13, 0] ++ (f.drop (k + 2)).take 2 ++ (f.drop (k + 7)).take 3 ++
    toBytesBE 3 (s.rf Reg.DIN_NODE 17 0) ++ toBytesBE 2 (s.lemam.mgmtSent % 65536) ++ toBytesBE 2 1 ++ [0, 0] ++ reply

/-- The reply to a command goes where it came from: into the ring's slot, to the SPI, to the peer or out as a frame. -/
def State.reply (s : State) (r : Route) (status : Nat) (data : List Byte) (peer : Bool := false) : State :=
  let d := if status = 0 then data else []
  let s0 := s.editLemam fun x => { x with reply := (status, d) }
  if ¬ r.live then s0
  else
    match r.src with
    | .ring j =>
      if s.slotOpen r.slot then
        let s1 := s0.writeThrough r.slot (replyBytes r status d s.now peer) none
        if r.notify then s1.source 2905 else s1
      else s0.ringError j.val
    | .spi => s0.editLemam fun x => { x with spiReply := some (replyBytes r status d s.now false), spiBusy := false }
    | .peer .. =>
      let b := replyBytes r status d s.now true
      s0.present 0 13 2 (s0.defaultStamp 13 2) 0 (b.length + 2) (.peerReply b)
    | .mgmt =>
      (s0.editLemam fun x => { x with mgmtSent := x.mgmtSent + 1 }).joinEgress r.port (s.frameClass r.port r.frame)
        (s.mgmtReply r.frame (replyBytes r status d s.now false)) none

/-! ### The management SPI (R477) -/

/-- The port serves from boot step 5 on in every mode but OFF. -/
def State.spiServes (s : State) : Bool := s.modes.lemamUp && s.mode != modeOff

/-- WRITE_CMD: a packet with its CRC-32C is accepted, or discarded with REJECT. -/
def execWriteCmd (packet : List Byte) (s : State) : Host.Outcome State Fault Refusal :=
  if ¬ s.spiServes then .next s
  else
    let n := packet.length - 4
    let good := decide (4 ≤ packet.length) && ofBytes (packet.drop n) == (crc32c (packet.take n)).toNat
    if ¬ good ∨ s.lemam.spiBusy ∨ s.lemam.spiReply.isSome then .next (s.editLemam fun x => { x with reject := true })
    else .next ((s.editLemam fun x => { x with spiBusy := true, spiCmd := some (packet.take n) }).kickLemam)

/-- READ_REPLY: the waiting reply and its CRC-32C, while the port serves. -/
def execReadReply (s : State) : Host.Outcome State Fault Refusal :=
  if ¬ s.spiServes then .next s
  else
    match s.lemam.spiReply with
    | some b => .next (s.editLemam fun x => { x with spiReply := none, spiOut := b ++ toBytes 4 (crc32c b).toNat })
    | none => .next (s.editLemam fun x => { x with spiOut := [] })

/-- READ_STATUS: BUSY, REPLY, REJECT, LEMAM_UP and WDOG; REJECT clears. -/
def execReadStatus (s : State) : Host.Outcome State Fault Refusal :=
  if ¬ s.spiServes then .next s
  else
    let x := s.lemam
    let b := b2n x.spiBusy + 2 * b2n x.spiReply.isSome + 4 * b2n x.reject + 8 * b2n s.lemamRuns + 16 * b2n (s.rb cmdStatus 9)
    .next (s.editLemam fun x => { x with reject := false, spiOut := [BitVec.ofNat 8 b] })

/-! ### The command cores (R473, R474) -/

/-- A BOOT entry: the port and the reason (R441). -/
def State.bootEntry (s : State) (port reason : Nat) : State :=
  s.log .boot (dieUnit 10 (s.rf cmdStatus 8 8)) (port + reason * 2 ^ 4)

/-- The patch that Lemam takes: the first that verifies, XSPI0 first; a rejected one writes a BOOT entry with reason 7 (R473). -/
def State.takePatch (s : State) : List (Nat × Option (BitVec 16 × Bool)) → State
  | [] => setModes s fun m => { m with patch := 0 }
  | (_, some (v, true)) :: _ => setModes s fun m => { m with patch := v.toNat }
  | (port, some (_, false)) :: rest => (s.bootEntry port 7).takePatch rest
  | (_, none) :: rest => s.takePatch rest

/-- The patches of the boot devices as the last start found them. -/
def State.patchesFound (s : State) : List (Nat × Option (BitVec 16 × Bool)) :=
  match s.modes.found with
  | some b => (List.range b.patches.length).zip b.patches
  | none => []

/-- The watchdog of 10 ms expires: WDOG is set, and Lemam takes no command until a command core is started. -/
def execWatchdog (s : State) : Host.Outcome State Fault Refusal :=
  if s.lemamRuns then .next ((s.wb cmdStatus 9 true).log .coreFatal (dieUnit 10 (s.rf cmdStatus 8 8)) 0) else .next s

/-- A wait that is no command's: that of a core which is being lost (R533). -/
def coreWait (n : Nat) : Bool := decide (512 ≤ n ∧ n < 1024)

/-- Command core 1 starts and takes its patch: what was taken and not answered is discarded, and the rings are taken on from HEAD. -/
def State.engageCommand (s : State) : State :=
  let s1 := ((s.wb cmdStatus 9 false).wb cmdStatus 8 true).editLemam fun x =>
    { x with deferred := [], outs := [], waiting := x.waiting.filter fun w => coreWait w.2, spiBusy := x.spiCmd.isSome }
  let s2 := { s1 with spare := { s1.spare with command := true } }.lemamShow
  (s2.takePatch s2.patchesFound).kickLemam 5000000

/-- ENGAGE_SPARE: acted on only while WDOG is 1. -/
def execEngageSpare (s : State) : Host.Outcome State Fault Refusal :=
  if s.rb cmdStatus 9 ∧ ¬ s.spare.command then .next (s.engageCommand.log .spareEngaged (dieUnit 10 0) 1) else .next s

end Sys2Proof.Machine
end

