-- ==== Sys2Proof/Machine/QueueEngine.lean ====
section
/-!
DEFINITION. Sys2Proof/Machine/QueueEngine.lean: the transfer channels of the queue engines, their translation, descriptors, completions
and faults, and the operations on VIs and queues (R260, R364 to R372, R377 to R386).
-/
namespace Sys2Proof.Machine

/-! ### Translated ranges (R371) -/

/-- The status of a failed check: TRANS or TARGET (R371). -/
def stOk : Nat := 0
def stTrans : Nat := 1
def stTarget : Nat := 2
def stDenied : Nat := 3
def stData : Nat := 4
def stFormat : Nat := 5
def stPort : Nat := 6
def stTrunc : Nat := 7

/-- Every part lies in DRAM with type WB or NC. -/
def State.partsInDram (s : State) (r : List (Nat × Nat × MemType)) : Bool :=
  r.all fun x => s.inDram x.2.1 && s.inDram (x.2.1 + x.1 - 1) && x.2.2 != .dev

/-- Every part lies in the local memory of one phase core. -/
def partsInLocal (r : List (Nat × Nat × MemType)) : Bool :=
  match r with
  | [] => true
  | (_, a, _) :: _ => r.all fun x => inLocal x.2.1 && decide (x.2.1 / 65536 = a / 65536) && decide ((x.2.1 + x.1 - 1) / 65536 = a / 65536)

/-! ### A queue's requests -/

/-- A request of an engine to a home, for a queue's enclave. -/
def State.qeReq (e eid a : Nat) (stamp : Stamp) : CohReq :=
  { from_ := .engine (Fin.ofNat 4 e), line := paddr (lineOf a), pl := 0, eid := BitVec.ofNat 6 eid, stamp := stamp, dev := false
    dirErr := .good }

/-- A read of a line. -/
def State.qeRead (s : State) (e eid a : Nat) (stamp : Stamp) : State := s.send reqNs (.readOnce (State.qeReq e eid a stamp))

/-- The bits of a mask from byte `k` of a line for `n` bytes. -/
def byteMask (k n : Nat) : Word64 := BitVec.ofNat 64 ((2 ^ n - 1) <<< k)

/-- A write of bytes that lie within one line: WriteUnique for the whole of it, WritePartial for a part. -/
def State.qeWrite (s : State) (e eid a : Nat) (stamp : Stamp) (bytes : List Byte) : State :=
  let q := State.qeReq e eid a stamp
  if bytes.length = 64 ∧ a % 64 = 0 then s.send reqNs (.writeUnique q (BitVec.ofNat 512 (ofBytes bytes)) false)
  else s.send reqNs (.writePartial q (byteMask (a % 64) bytes.length) (BitVec.ofNat 512 (ofBytes bytes <<< (8 * (a % 64)))))

/-! ### Faults and the end of a descriptor (R371, R373, R381 to R383) -/

/-- The channel is free. Lines whose Comp is awaited keep it a while. -/
def Chan.free (c : Chan) : Chan := { out := c.out, ended := c.ended, queue := if c.out = [] then none else c.queue }

/-- The queue enters FAULT or ERROR. -/
def State.queueStops (s : State) (q st : Nat) : State :=
  let e := engineOf q
  let x := s.qe e
  let s1 := s.setQe e { x with fifo := x.fifo.filter fun f => f.1 != q, bitmap := x.bitmap.filter (· != q)
                               rx := x.rx.filter fun f => f.1 != q
                               chans := x.chans.map fun c => if c.2.queue = some q then (c.1, c.2.free) else c }
  ((s1.setQState q st).setQueueCtx q { s1.queue q with flight := [], writing := false }).qRaise q

/-- A queue enters WAIT_GEN: what earlier doorbells left for it is forgotten, since from now on each accepted doorbell has the descriptor
fetched again (R383). The entry that brings a queue there again is the channel's own. -/
def State.toWaitGen (s : State) (e k q : Nat) : State :=
  let x := s.qe e
  let s1 := if s.qState q = qWaitGen then s
    else s.setQe e { x with fifo := x.fifo.filter fun f => f.1 != q, bitmap := x.bitmap.filter (· != q)
                            chans := tabSet {} x.chans k { x.chan k with fifo := false } }
  (s1.wb (qstat q) 60 true).setQState q qWaitGen

/-- A channel has served its entry, or BURST descriptors: it goes on with the queue, or releases it (R378). -/
def State.chanNext (s : State) (e k : Nat) : State :=
  let x := s.qe e
  let c := x.chan k
  match c.queue with
  | none => s
  | some q =>
    let burst := max 1 (s.rf (Reg.QE_CTRL e) 7 0)
    let beyond_ := diff24 c.tail (s.queue q).next = 0
    let fifo := if (beyond_ ∨ s.qState q = qWaitGen) ∧ c.fifo then
        match x.fifo.findIdx? fun f => f.1 = q with
        | some i => x.fifo.eraseIdx i
        | none => x.fifo
      else x.fifo
    let idle := { c.free with queue := if c.out = [] then none else c.queue }
    if s.qState q = qWaitGen ∨ ¬ s.qWorks q then (s.setQe e { x with fifo := fifo, chans := tabSet {} x.chans k idle }).kickQe e
    else if ¬ beyond_ ∧ c.served < burst then (s.setChan e k { c with desc := none }).kickQe e
    else if ¬ beyond_ then
      let bitmap := if c.fifo then x.bitmap else insertAscending q x.bitmap
      (s.setQe e { x with fifo := fifo, bitmap := bitmap, chans := tabSet {} x.chans k idle }).kickQe e
    else
      match fifo.find? fun f => f.1 = q with
      | some (_, t, st) =>
        if c.served < burst then
          (s.setQe e { x with fifo := fifo, chans := tabSet {} x.chans k { c with desc := none, tail := t, stamp := st, fifo := true } }).kickQe e
        else (s.setQe e { x with fifo := fifo, chans := tabSet {} x.chans k idle }).kickQe e
      | none => (s.setQe e { x with fifo := fifo, chans := tabSet {} x.chans k idle }).kickQe e

/-- The descriptor of a channel has its outcome. One that the switch answers has none yet. -/
def State.endDescr (s : State) (e k : Nat) (outcome : Option (Nat × Nat)) : State :=
  let c := s.chan e k
  match c.queue, c.desc with
  | some q, some d =>
    let s1 := s.setChan e k { c with desc := none, a := [], b := [], pos := 0, status := 0, issued := false, frame := none
                                     served := c.served + 1, ended := c.ended + 1 }
    let s2 := match outcome with
      | some (st, n) => s1.descrDone q d.index st n
      | none => s1
    s2.chanNext e k
  | _, _ => s

/-! ### Taking work (R364, R378) -/

/-- A descriptor's slot is translated, and its fetch presented to port 32. -/
def State.fetchDescr (s : State) (e k q : Nat) : State :=
  let x := s.queue q
  let c := s.chan e k
  let ipa := x.ring + 32 * (x.next % 2 ^ x.log2)
  match s.viOfQueue q with
  | none => s
  | some v =>
    match s.qeRange e v false 2 ipa 32 with
    | (some r, s1) =>
      if s1.partsInDram r then
        let a := r.map fun p => (p.1, p.2.1)
        (s1.setChan e k { c with a := a }).present 15 (8 + e) 32 c.stamp (partAt a 0) 32 (.fetch (Fin.ofNat 4 e) (Fin.ofNat 32 k))
      else s1.queueStops q qFault
    | (none, s1) => s1.queueStops q qFault

/-- A queue that some channel serves, or whose writes are still on their way. -/
def Qe.serving (x : Qe) (q : Nat) : Bool := x.chans.any fun c => c.2.queue == some q

/-- A channel that serves no queue. -/
def Qe.freeChan (x : Qe) : Option Nat := (List.range 32).find? fun k => (x.chan k).queue.isNone

/-- The next queue that the scanner finds, whose work is not in a channel's hands. -/
def Qe.scanned (x : Qe) : Option Nat :=
  let some_ := x.bitmap.filter fun q => !x.serving q
  match some_.find? fun q => decide (x.scanAt < q) with
  | some q => some q
  | none => some_.head?

/-- The free channels take work, one after another: a received frame for a posted buffer, the oldest FIFO entry whose queue no channel
serves, or the next queue that the scanner finds. -/
def State.assign (e : Nat) : Nat → State → State
  | 0, s => s
  | fuel + 1, s =>
    let x := s.qe e
    match x.freeChan with
    | none => s
    | some k =>
      match x.rx.find? fun f => !x.serving f.1 with
      | some (q, bytes, sfd) =>
        let rx := match x.rx.findIdx? fun f => f.1 = q with | some i => x.rx.eraseIdx i | none => x.rx
        let stamp := s.clampStamp (sfd.toNat + 4 * s.rf (Reg.ARB_PORT_CFG (8 + e) k) 31 8)
        let c : Chan := { queue := some q, tail := (s.queue q).next + 1, stamp := stamp, frame := some bytes, ended := (x.chan k).ended }
        State.assign e fuel ((s.setQe e { x with rx := rx, chans := tabSet {} x.chans k c }).fetchDescr e k q)
      | none =>
        match x.fifo.find? fun f => !x.serving f.1 with
        | some (q, t, st) =>
          if ¬ s.qWorks q ∨ diff24 t (s.queue q).next = 0 then
            let i := (x.fifo.findIdx? fun f => f.1 = q).getD 0
            State.assign e fuel (s.setQe e { x with fifo := x.fifo.eraseIdx i })
          else
            let c : Chan := { queue := some q, tail := t, stamp := st, fifo := true, ended := (x.chan k).ended }
            State.assign e fuel ((s.setChan e k c).fetchDescr e k q)
        | none =>
          if ¬ s.rb (Reg.QE_STATUS e) 13 then s
          else
            match x.scanned with
            | none => s
            | some q =>
              let y := { x with bitmap := x.bitmap.filter (· != q), scanAt := q, scanHit := true }
              if ¬ s.qWorks q ∨ s.qToFetch q = 0 then State.assign e fuel (s.setQe e y)
              else
                let c : Chan := { queue := some q, tail := s.qTail q, stamp := s.defaultStamp (8 + e) 32, ended := (x.chan k).ended }
                State.assign e fuel ((s.setQe e { y with chans := tabSet {} y.chans k c }).fetchDescr e k q)

/-- Channels that keep their queue go on to its next descriptor. -/
def State.continueChans (s : State) (e : Nat) : State :=
  (s.qe e).chans.foldl (fun s c =>
    let k := c.1
    let x := s.chan e k
    match x.queue with
    | some q =>
      if x.desc.isNone ∧ x.a = [] ∧ x.out = [] ∧ s.qWorks q = true ∧ x.tail ≠ 0 ∧ diff24 x.tail (s.queue q).next ≠ 0 then s.fetchDescr e k q
      else s
    | none => s) s

/-- CHANNEL_ASSIGN. -/
def execChannelAssign (e : QeId) (s : State) : Host.Outcome State Fault Refusal :=
  let s1 := s.continueChans e.val
  .next (State.assign e.val ((s1.qe e.val).fifo.length + (s1.qe e.val).bitmap.length + 33) s1)

/-- DOORBELL_SCAN: a pass of the scanner ends. The engine leaves SCAN when the FIFO is empty and the pass has found no bit (R377). -/
def execDoorbellScan (e : QeId) (s : State) : Host.Outcome State Fault Refusal :=
  let n := e.val
  let x := s.qe n
  if ¬ s.rb (Reg.QE_STATUS n) 13 then .next s
  else if x.fifo = [] ∧ x.bitmap = [] ∧ x.scanHit = false then .next (s.wb (Reg.QE_STATUS n) 13 false)
  else .next (((s.setQe n { x with scanHit := false, scanAt := 0 }).armScan n).kickQe n)

/-! ### The checks of a descriptor (R368, R369, R380) -/

/-- A descriptor from its 32 bytes. -/
def descrOf (b : List Byte) (index : Nat) (stamp : Stamp) : Descr :=
  let f := fun k n => ofBytes ((b.drop k).take n)
  { index := index, gen := b.getD 20 0, a := BitVec.ofNat 64 (f 0 8), b := BitVec.ofNat 64 (f 8 8), length := f 16 4
    irq := (b.getD 21 0).getLsbD 0, kind := f 22 1, opt := b.getD 23 0, cookie := BitVec.ofNat 64 (f 24 8), stamp := stamp, done := none }

/-- FORMAT: a zero field that is not zero, a type that is not the queue's, or a LENGTH outside its range. -/
def State.formatBad (s : State) (x : Queue) (d : Descr) (flags : Byte) : Bool :=
  let b := d.b.toNat
  let len := d.length
  let common := decide (1 < flags.toNat) || decide (2 ^ 46 ≤ d.a.toNat) || d.kind != x.kind
  common ||
    (if x.kind = typeCopy then d.opt != 0 || decide (len < 1 ∨ 16777216 < len)
     else if x.kind = typeTx then b != 0 || decide (8 ≤ d.opt.toNat) || decide (len < 14 ∨ s.maxFrame x.port - 4 < len)
     else if x.kind = typeRx then b != 0 || d.opt != 0 || decide (len < 64 ∨ 16384 < len)
     else if x.kind = typePoint then decide (2 ^ 17 ≤ b) || decide (2 ≤ d.opt.toNat) || decide (len < 1 ∨ 4096 < len ∨ 131072 < b + len)
     else decide (2 ≤ d.opt.toNat) || decide (len < 4 ∨ 65536 < len ∨ len % 4 ≠ 0 ∨ d.a.toNat % 4 ≠ 0 ∨ b % 4 ≠ 0 ∨ 65536 < b % 65536 + len))

/-- The bytes of memory that A names, and whether the engine writes them. -/
def Descr.aRange (d : Descr) : Nat × Bool :=
  if d.kind = typeRx then (d.length, true)
  else if d.kind = typePoint then (if d.opt = 0 then (16 * d.length, true) else (8 * d.length, false))
  else if d.kind = typePhase then (d.length, d.opt != 0)
  else (d.length, false)

/-- Translation and target of every byte of every range: the translated ranges, or the status. -/
def State.checkRanges (s : State) (e v : Nat) (d : Descr) : Except Nat (List (Nat × Nat) × List (Nat × Nat)) × State :=
  let strip := fun (r : List (Nat × Nat × MemType)) => r.map fun p => (p.1, p.2.1)
  let (n, w) := d.aRange
  match s.qeRange e v w 4100 d.a.toNat n with
  | (none, s1) => (.error stTrans, s1)
  | (some ra, s1) =>
    if d.kind = typeCopy ∨ d.kind = typePhase then
      match s1.qeRange e v (d.kind == typeCopy || d.opt == 0) 4100 d.b.toNat d.length with
      | (none, s2) => (.error stTrans, s2)
      | (some rb, s2) =>
        if s2.partsInDram ra && (if d.kind = typeCopy then s2.partsInDram rb else partsInLocal rb) then (.ok (strip ra, strip rb), s2)
        else (.error stTarget, s2)
    else if s1.partsInDram ra then (.ok (strip ra, []), s1)
    else (.error stTarget, s1)

/-- The point image's check of every point of a descriptor. -/
def State.pointsDenied (s : State) (v : Nat) (d : Descr) : Bool :=
  (List.range d.length).any fun i =>
    let p := s.point (d.b.toNat + i)
    let path := PointPath.queue (s.viVmid v)
    if d.opt = 0 then p.valid && !s.pointOwned p path (s.viEid v)
    else !p.forced && (s.updateRefused p path (s.viEid v)).isSome

/-- The next transfer of a channel is presented to its arbiter: up to 4 KiB to ARB_IO, or one point to ARB_PT. -/
def State.presentTransfer (s : State) (e k : Nat) (d : Descr) (pos : Nat) : State :=
  let w := Work.transfer (Fin.ofNat 4 e) (Fin.ofNat 32 k)
  if d.kind = typePoint then s.present 1 12 (4 + e) d.stamp (d.b.toNat + pos) 16 w
  else s.present 1 (8 + e) k d.stamp (partAt (s.chan e k).a pos) (min 4096 (d.length - pos)) w

/-- A descriptor whose checks have begun fails before its first beat. -/
def State.failDescr (s : State) (e k status : Nat) : State := s.endDescr e k (some (status, 0))

/-- DESCRIPTOR_FETCHED: a fetched descriptor is checked, and its first transfer presented. `bad`: the queue's context holds an
uncorrectable error (R382). -/
def execDescriptorFetched (e : QeId) (ch : ChanId) (bad : Bool) (s : State) : Host.Outcome State Fault Refusal :=
  let n := e.val
  let k := ch.val
  let c := s.chan n k
  match c.queue, c.desc with
  | some q, none =>
    if bad then .next ((s.log .sramUe (unitQe n) 0).queueStops q qError)
    else if c.a = [] then .next s
    else
      match s.viOfQueue q with
      | none => .next (s.setChan n k c.free)
      | some v =>
        let x := s.queue q
        let pa := partAt c.a 0
        let eid := s.viEid v
        let s1 := (s.setChan n k { c with a := [] }).qeRead n eid pa c.stamp
        if ¬ s.ertPermits eid pa false then .next (s1.queueStops q qFault)
        else if s.poisoned (lineOf pa) then .next ((s1.log .poisonUse (unitQe n) (lineOf pa)).queueStops q qFault)
        else
          let raw := toBytes 32 (s.bytes pa 32)
          let d := descrOf raw x.next c.stamp
          if d.gen.toNat ≠ s.qGen q then
            .next ((s1.toWaitGen n k q).chanNext n k)
          else
            let s2 := (s1.setQState q qActive).setQueueCtx q { x with next := (x.next + 1) % 2 ^ 24, flight := x.flight ++ [d] }
            let s3 := s2.setChan n k { s2.chan n k with desc := some d }
            if s.formatBad x d (raw.getD 21 0) then .next (s3.failDescr n k stFormat)
            else
              match s3.checkRanges n v d with
              | (.error st, s4) => .next (s4.failDescr n k st)
              | (.ok (a, b), s4) =>
                if d.kind = typePoint ∧ s4.pointsDenied v d then .next (s4.failDescr n k stDenied)
                else
                  let len := match c.frame with | some f => min f.length d.length | none => d.length
                  let d1 := { d with length := len }
                  let st := match c.frame with | some f => if d.length < f.length then stTrunc else stOk | none => stOk
                  .next ((s4.setChan n k { s4.chan n k with desc := some d1, a := a, b := b, pos := 0, status := st }).presentTransfer n k d1 0)
  | _, _ => .next s

/-! ### Beats (R343, R364, R380) -/

/-- What a read of source bytes finds. -/
inductive Beat where
  | ok (bytes : List Byte)
  | denied
  | poison (line : Nat)
deriving DecidableEq, Repr

/-- The bytes `k` to `k + n - 1` of a range of DRAM, as a queue reads them. -/
def State.beatRead (s : State) (eid : Nat) (r : List (Nat × Nat)) (k n : Nat) : Beat :=
  let addrs := (List.range n).map fun i => partAt r (k + i)
  if addrs.any fun a => !s.ertPermits eid a false then .denied
  else
    match addrs.find? fun a => s.poisoned (lineOf a) with
    | some a => .poison (lineOf a)
    | none => .ok (addrs.map s.byte)

/-- Every beat has been issued: once each has received Comp, the descriptor has its outcome (R372). -/
def State.settleChan (s : State) (e k : Nat) : State :=
  let c := s.chan e k
  match c.desc with
  | some d =>
    if c.issued ∧ c.out = [] then s.endDescr e k (some (c.status, if d.kind = typeRx then d.length else 0)) else s
  | none => if c.out = [] ∧ c.queue.isSome ∧ c.tail = 0 then (s.setChan e k { c with queue := none }).kickQe e else s

/-- The channel issues no more beats. -/
def State.lastBeat (s : State) (e k status : Nat) : State :=
  let c := s.chan e k
  (s.setChan e k { c with issued := true, status := if status = stOk then c.status else status }).settleChan e k

/-- A write beat to DRAM: refused, or issued with its Comp awaited. -/
def State.beatWrite (s : State) (e k eid pa : Nat) (stamp : Stamp) (bytes : List Byte) : Bool × State :=
  if ¬ s.ertPermits eid pa true then (false, s)
  else
    let c := s.chan e k
    (true, (s.setChan e k { c with out := c.out ++ [lineOf pa] }).qeWrite e eid pa stamp bytes)

/-- Reads of the lines that bytes of a range touch, as requests to their homes. -/
def State.readLines (s : State) (e eid : Nat) (r : List (Nat × Nat)) (pos n : Nat) (stamp : Stamp) : State :=
  (((List.range n).map fun i => lineOf (partAt r (pos + i))).eraseDups).foldl (fun s a => s.qeRead e eid a stamp) s

/-- A destination line whose source was poisoned is written with POISON set (R343). -/
def State.beatPoison (s : State) (e k eid pa : Nat) (stamp : Stamp) : Bool × State :=
  if ¬ s.ertPermits eid pa true then (false, s)
  else
    let c := s.chan e k
    (true, (s.setChan e k { c with out := c.out ++ [lineOf pa] }).send reqNs (.writeUnique (State.qeReq e eid pa stamp) 0 true))

/-- COPY: beats from offset `pos` up to `stop`, each within one destination line. -/
def State.copyBeats (s : State) (e k eid : Nat) (d : Descr) : Nat → Nat → Nat → Option Nat × State
  | 0, _, _ => (none, s)
  | fuel + 1, pos, stop =>
    if stop ≤ pos then (none, s)
    else
      let c := s.chan e k
      let dst := partAt c.b pos
      let n := min (64 - dst % 64) (stop - pos)
      match s.beatRead eid c.a pos n with
      | .denied => (some stDenied, s)
      | .poison line =>
        let s1 := (s.log .poisonUse (unitQe e) line).setChan e k { c with status := stData }
        let (ok, s2) := s1.beatPoison e k eid dst d.stamp
        if ok then s2.copyBeats e k eid d fuel (pos + n) stop else (some stDenied, s2)
      | .ok bytes =>
        let (ok, s1) := s.beatWrite e k eid dst d.stamp bytes
        if ok then s1.copyBeats e k eid d fuel (pos + n) stop else (some stDenied, s1)

/-- ETH_RX: bytes of the received frame to the buffer. -/
def State.frameBeats (s : State) (e k eid : Nat) (d : Descr) (frame : List Byte) : Nat → Nat → Nat → Option Nat × State
  | 0, _, _ => (none, s)
  | fuel + 1, pos, stop =>
    if stop ≤ pos then (none, s)
    else
      let dst := partAt (s.chan e k).a pos
      let n := min (64 - dst % 64) (stop - pos)
      let (ok, s1) := s.beatWrite e k eid dst d.stamp ((frame.drop pos).take n)
      if ok then s1.frameBeats e k eid d frame fuel (pos + n) stop else (some stDenied, s1)

/-- PHASE: beats between memory and local memory, each within one line of memory. -/
def State.phaseBeats (s : State) (e k eid : Nat) (d : Descr) : Nat → Nat → Nat → Option Nat × State
  | 0, _, _ => (none, s)
  | fuel + 1, pos, stop =>
    if stop ≤ pos then (none, s)
    else
      let c := s.chan e k
      let mem := partAt c.a pos
      let loc := partAt c.b pos - 0x10000000
      let n := min (64 - mem % 64) (stop - pos)
      if d.opt = 0 then
        match s.beatRead eid c.a pos n with
        | .denied => (some stDenied, s)
        | .poison line => (some stData, s.log .poisonUse (unitQe e) line)
        | .ok bytes => (s.writeLocal (loc / 65536) (loc % 65536) n (ofBytes bytes)).phaseBeats e k eid d fuel (pos + n) stop
      else
        let bad := ((List.range n).map fun i => localAddr (loc / 65536) ((loc % 65536 + i) / 4 * 4)).find? s.poisoned
        match bad with
        | some w => (some stData, (s.log .sramUe (s.unitPc (loc / 65536)) w).log .poisonUse (unitQe e) w)
        | none =>
          let (ok, s1) := s.beatWrite e k eid mem d.stamp (toBytes n (s.bytes (localAddr (loc / 65536) (loc % 65536)) n))
          if ok then s1.phaseBeats e k eid d fuel (pos + n) stop else (some stDenied, s1)

/-- POINT: one granted point. -/
def State.pointBeat (s : State) (e k v : Nat) (d : Descr) (pos : Nat) : Option Nat × State :=
  let n := d.b.toNat + pos
  let c := s.chan e k
  let eid := s.viEid v
  let path := PointPath.queue (s.viVmid v)
  if d.opt = 0 then
    match s.readPoint n path eid false with
    | (.error _, s1) => (some stData, s1.log .poisonUse (unitQe e) (pointAddr n))
    | (.ok value, s1) =>
      let bytes := toBytes 8 value ++ toBytes 8 (s1.pointStatus (s1.point n))
      let (ok, s2) := (List.range 16).foldl (fun (r : Bool × State) i =>
          if i = 0 ∨ partAt c.a (16 * pos + i) % 64 = 0 then
            let a := partAt c.a (16 * pos + i)
            let n := min (64 - a % 64) (16 - i)
            let (ok, s2) := r.2.beatWrite e k eid a d.stamp ((bytes.drop i).take n)
            (r.1 && ok, s2)
          else r) (true, s1)
      (if ok then none else some stDenied, s2)
  else
    match s.beatRead eid c.a (8 * pos) 8 with
    | .denied => (some stDenied, s)
    | .poison line => (some stData, s.log .poisonUse (unitQe e) line)
    | .ok bytes => (none, (s.updatePoint n path eid (BitVec.ofNat 64 (ofBytes bytes)) none).2)

/-- ETH_TX: the whole frame is read, and handed to its port. -/
def State.sendFrame (s : State) (e k v q : Nat) (d : Descr) : State :=
  match s.beatRead (s.viEid v) (s.chan e k).a 0 d.length with
  | .denied => s.lastBeat e k stDenied
  | .poison line => (s.log .poisonUse (unitQe e) line).lastBeat e k stData
  | .ok bytes =>
    (s.endDescr e k none).handOver (s.queue q).port (d.opt.toNat % 8) bytes { queue := q, gen := d.gen, index := d.index }

/-- A granted transfer of a channel is performed, and the next one presented. -/
def State.transfer (s : State) (e k : Nat) : State :=
  let c := s.chan e k
  match c.queue, c.desc with
  | some q, some d =>
    match s.viOfQueue q with
    | none => s
    | some v =>
      let eid := s.viEid v
      let step := if d.kind = typePoint then 1 else min 4096 (d.length - c.pos)
      let stop := c.pos + step
      let s0 := if d.kind = typeCopy ∨ d.kind = typeTx ∨ (d.kind = typePhase ∧ d.opt = 0) then s.readLines e eid c.a c.pos step d.stamp else s
      let (r, s1) :=
        if d.kind = typeCopy then s0.copyBeats e k eid d 130 c.pos stop
        else if d.kind = typeRx then s0.frameBeats e k eid d (c.frame.getD []) 130 c.pos stop
        else if d.kind = typePhase then s0.phaseBeats e k eid d 130 c.pos stop
        else if d.kind = typePoint then s0.pointBeat e k v d c.pos
        else (none, s0)
      match r with
      | some st => s1.lastBeat e k st
      | none =>
        let s2 := s1.setChan e k { s1.chan e k with pos := stop }
        if stop < d.length then s2.presentTransfer e k d stop
        else if d.kind = typeTx then s2.sendFrame e k v q d
        else s2.lastBeat e k stOk
  | _, _ => s

/-- A Comp for a write of an engine: the first channel that awaits it. -/
def State.engineComp (s : State) (e line : Nat) (st : CohStatus) : State :=
  match (s.qe e).chans.find? fun c => c.2.out.contains line with
  | none => s
  | some (k, c) =>
    let status := if st = .ok then c.status else if st = .poison then stData else stDenied
    (s.setChan e k { c with out := c.out.erase line, status := status }).settleChan e k

/-! ### Completion writes (R370 to R373, R381) -/

/-- The 16 bytes of a completion. -/
def completionBytes (d : Descr) (status len : Nat) : List Byte :=
  toBytes 8 d.cookie.toNat ++ [1, BitVec.ofNat 8 status, d.gen] ++ toBytes 3 d.index ++ toBytes 2 len

/-- COMPLETION_WRITE: the oldest finished descriptor of a queue has its completion written; HEAD advances, and the source is raised. -/
def execCompletionWrite (q : QueueId) (s : State) : Host.Outcome State Fault Refusal :=
  let n := q.val
  let e := engineOf n
  let x := s.queue n
  match x.flight, s.viOfQueue n with
  | d :: rest, some v =>
    match d.done with
    | none => .next (s.setQueueCtx n { x with writing := false })
    | some (status, len) =>
      match s.qeRange e v true 2 (x.comp + 16 * (d.index % 2 ^ x.log2)) 16 with
      | (none, s1) => .next (s1.queueStops n qFault)
      | (some r, s1) =>
        let pa := partAt (r.map fun p => (p.1, p.2.1)) 0
        if ¬ s1.partsInDram r ∨ ¬ s1.ertPermits (s.viEid v) pa true then .next (s1.queueStops n qFault)
        else
          let s2 := s1.qeWrite e (s.viEid v) pa d.stamp (completionBytes d status len)
          let s3 := s2.setQueueCtx n { x with flight := rest, writing := false }
          let s4 := ((s3.wf (qstat n) 23 0 ((d.index + 1) % 2 ^ 24)).tally (Reg.QE_DESC_COUNT e)).qSettle n
          let s5 := if status = stOk then s4 else s4.wb (qstat n) 61 true
          .next ((if d.irq ∨ status ≠ stOk then s5.qRaise n else s5).pushCompletion n)
  | _, _ => .next s

/-! ### VIs and queues as commands set them up (R366, R383 to R386) -/

/-- A queue's work is forgotten: its FIFO entries and bitmap bit, and a channel that serves it issues no further beat. -/
def State.forgetWork (s : State) (q : Nat) : State :=
  let e := engineOf q
  let x := s.qe e
  let discards := ((s.queue q).flight.filter fun d => d.kind == typeTx && d.done.isSome).length
  let s1 := s.setQe e { x with fifo := x.fifo.filter fun f => f.1 != q, bitmap := x.bitmap.filter (· != q)
                               rx := x.rx.filter fun f => f.1 != q
                               chans := x.chans.map fun c => if c.2.queue = some q then (c.1, c.2.free) else c }
  let d := Reg.QE_QDISC e (q % 65536)
  s1.wr d (satInc 16 (s1.rd d) discards)

/-- GEN is incremented. -/
def State.nextGen (s : State) (q : Nat) : State := s.wf (qstat q) 55 48 ((s.qGen q + 1) % 256)

/-- QUEUE_RESET, steps 1 to 3 (R384). -/
def State.resetQueue (s : State) (q : Nat) : State :=
  let st := if s.qState q = qError then qUnbound else qIdle
  let s1 := ((s.forgetWork q).nextGen q)
  let s2 := ((s1.wf (qstat q) 47 0 0).wf (qstat q) 62 59 0).setQState q st
  s2.setQueueCtx q { s2.queue q with next := 0, flight := [], writing := false }

/-- Every beat already issued for a queue has been performed: no channel awaits a Comp for it. -/
def State.queueQuiet (s : State) (q : Nat) : Bool := !(s.qe (engineOf q)).serving q

/-- The queues of a VI. -/
def State.viQueues (s : State) (v : Nat) : List Nat :=
  (List.range (s.rf (Reg.VI_QRANGE v) 26 18)).map (s.rf (Reg.VI_QRANGE v) 17 0 + ·)

/-- VI_RESET: QUEUE_RESET of every bound queue. -/
def State.resetVi (s : State) (v : Nat) : State :=
  ((s.viQueues v).filter fun q => s.qState q != qUnbound).foldl (fun s q => s.resetQueue q) s

/-- VI_DESTROY, after VI_RESET: every queue UNBOUND, the VI invalid. -/
def State.dropVi (s : State) (v : Nat) : State :=
  let s1 := (s.viQueues v).foldl (fun s q => (s.setQState q qUnbound).setQueueCtx q {}) s
  (((s1.wr (Reg.VI_CFG v) 0).wr (Reg.VI_QRANGE v) 0).wr (Reg.VI_VEC v) 0).wr (Reg.VI_S2BASE v) 0

/-- VI_CREATE: the VI becomes valid, its queues are UNBOUND. -/
def State.makeVi (s : State) (v vmid base eid q count vec vecs : Nat) : State :=
  let s1 := (s.wr (Reg.VI_CFG v) (1 + eid * 2 ^ 8 + vmid * 2 ^ 16)).wr (Reg.VI_QRANGE v) (q + count * 2 ^ 18)
  (s1.wr (Reg.VI_VEC v) (vec + vecs * 2 ^ 16)).wr (Reg.VI_S2BASE v) base

/-- QUEUE_BIND. -/
def State.bindQueue (s : State) (q kind ring comp log2 vec port : Nat) : State :=
  let s1 := (s.nextGen q).setQueueCtx q { kind := kind, ring := ring, comp := comp, log2 := log2, vec := vec, port := port }
  ((s1.wf (qstat q) 47 0 0).wf (qstat q) 62 59 0).setQState q qIdle |>.wr (Reg.QE_QDISC (engineOf q) (q % 65536)) 0

/-- A reset empties the engines (R386). -/
def State.qeReset (s : State) : State := { s with queues := [], qes := [] }

end Sys2Proof.Machine
end

