-- ==== Sys2Proof/Machine/Modes.lean ====
section
/-!
DEFINITION. Sys2Proof/Machine/Modes.lean: operating modes, resets, start-up and STANDBY (R439 to R442, R495 to R510, R522 to R527,
R533).
-/
namespace Sys2Proof.Machine

/-! ### Lost units (R500, R527) -/

def State.unitsLost (s : State) : Bool := !(s.modes.lostCores.isEmpty && s.modes.lostPcs.isEmpty && s.modes.lostPorts.isEmpty)

/-- RUN, or DEGRADED while a unit is absent. -/
def State.runMode (s : State) : Nat := if s.unitsLost then modeDegraded else modeRun

/-- ABSENT follows the record. -/
def State.showAbsent (s : State) : State := s.modes.lostCores.foldl (fun s c => s.wb (Reg.PVT_COREPT c) 3 true) s

/-- A running device with a unit lost enters DEGRADED with cause UNIT_LOST. -/
def State.degrade (s : State) : State :=
  if s.unitsLost ∧ (s.mode = modeRun ∨ s.mode = modePaired) then s.enterMode modeDegraded 5 else s

def addNew (x : Nat) (l : List Nat) : List Nat := if l.contains x then l else l ++ [x]

/-- A quadrant is disabled: its cores, phase cores, ports and phase pins. -/
def State.disableQuad (s : State) (q : Nat) : State :=
  (setModes s fun m => { m with
    quadsOff := addNew q m.quadsOff
    lostCores := ((List.range 24).map (24 * q + ·)).foldl (fun l x => addNew x l) m.lostCores
    lostPcs := ((List.range 64).map (64 * q + ·)).foldl (fun l x => addNew x l) m.lostPcs
    lostPorts := ((List.range 32).map (32 * q + ·)).foldl (fun l x => addNew x l) m.lostPorts }).showAbsent

/-! ### Gating of a main core (R273, R282, R515) -/

/-- A core gives up every line it holds, and its home takes each dirty one of which it is the recorded owner (R274, R282). Memory already
holds what its stores have made visible. -/
def State.giveUpLines (s : State) (c : Nat) : State :=
  (s.core c).lines.foldl (fun s e =>
    let line := e.1
    let h := s.homeOf line
    match (s.home h).entry line with
    | some d => if d.owner = some c ∧ (e.2.st.valid ∧ e.2.st ≠ .e ∧ e.2.st ≠ .s) then s.takeDirty h line d e.2 else s
    | none => s) s

/-- A core is gated with its caches empty (R274, R282). -/
def State.gateCore (s : State) (c : Nat) : State := ((s.giveUpLines c).setCore c {}).wb (Reg.PVT_COREPT c) 2 true

/-- A core stops at a boundary with its pending changes committed, and its store buffer drains. -/
def State.stopCore (s : State) (c : Nat) : State :=
  let s1 := s.syncCycles c
  ((s1.setCore c { (s1.core c).commitAll with run := .stopped, drainWait := false, cycSince := none }).kickDrain c 1)

/-- The core's stores have drained. -/
def State.drained (s : State) (c : Nat) : Bool := (s.core c).stores.isEmpty

/-- A core is released as after a core reset: at MON_ENTRY, PL3, EID 0 (R510, R515); HOLD_AT_RESET halts it first (R541). -/
def State.releaseCore (s : State) (c : Nat) : State :=
  if s.rb (Reg.PVT_COREPT c) 3 then s
  else
    let s1 := (s.setCore c { pc := s.modes.monEntry }).wb (Reg.PVT_COREPT c) 2 false
    (if s1.rb (Reg.DBG_CTRL c) 4 ∧ s1.safelightUp then s1.haltCore c 5 else s1).retrySources

/-! ### Spares that a start engages (R5, R6, R524, R533) -/

/-- A spare is free and passed its last self-test. -/
def State.spareFree (s : State) (kind group k : Nat) (used : Bool) : Bool := !used && !s.spare.failed.contains (kind, group, k)

def State.editSpare (s : State) (f : Spare → Spare) : State := { s with spare := f s.spare }

/-- Slot 4 of a cluster takes over a slot. -/
def State.engageMain (s : State) (cluster slot : Nat) : State :=
  (s.editSpare fun x => { x with main := tabSet 0 x.main cluster (slot + 1) }).log .spareEngaged
    (unitCode (cluster / 6) (cluster % 6) 0 slot) 4

def State.mainSpareFree (s : State) (cluster : Nat) : Bool := s.spareFree 0 cluster 4 (tabGet 0 s.spare.main cluster != 0)

/-- The lowest free spare of a phase group. -/
def State.phaseSpare (s : State) (q : Nat) : Option Nat :=
  [0, 1, 2, 3].find? fun k => s.spareFree 2 q (64 + k) (tabGet 0 s.spare.phase (4 * q + k) != 0)

/-- A spare of the phase group takes over a slot. -/
def State.engagePhase (s : State) (q slot k : Nat) : State :=
  (s.editSpare fun x => { x with phase := tabSet 0 x.phase (4 * q + k) (slot + 1) }).log .spareEngaged (unitCode q 0 2 slot) (64 + k)

def State.absentCore (s : State) (c : Nat) : State := (setModes s fun m => { m with lostCores := addNew c m.lostCores }).showAbsent

/-- The slot of a phase group whose unit is gone: the lowest free spare takes it over, or it is lost. -/
def State.coverPhase (s : State) (q i : Nat) : State :=
  match s.phaseSpare q with
  | some k => s.engagePhase q i k
  | none => setModes s fun m => { m with lostPcs := addNew (64 * q + i) m.lostPcs }

/-- A unit that fails self-test: the spare of its group is engaged, or the unit is lost. A unit that a spare has already replaced is out of
service, and its failure changes nothing (R526). -/
def State.unitFails (s : State) (u : Nat × Nat × Nat) : State :=
  let (kind, group, i) := u
  if kind = 0 ∧ i < 4 then
    if tabGet 0 s.spare.main group = i + 1 then s
    else if s.mainSpareFree group then s.engageMain group i
    else s.absentCore (4 * group + i)
  else if kind = 2 ∧ i < 64 then
    if [0, 1, 2, 3].any fun k => tabGet 0 s.spare.phase (4 * group + k) == i + 1 then s else s.coverPhase group i
  else if kind = 3 ∧ i < 128 then
    if [0, 1].any fun k => tabGet 0 s.spare.serdes (2 * group + k) == i + 1 ||
        s.spareFree 3 group (128 + 2 * group + k) (tabGet 0 s.spare.serdes (2 * group + k) != 0) then s
    else setModes s fun m => { m with lostPorts := addNew i m.lostPorts }
  else s

/-- A spare in service that fails self-test at a warm start: the unit it carries is covered by another spare, or lost (R527). -/
def State.spareFails (s : State) (u : Nat × Nat × Nat) : State :=
  let (kind, group, i) := u
  if kind = 0 ∧ i = 4 then
    match tabGet 0 s.spare.main group with
    | 0 => s
    | k + 1 => s.absentCore (4 * group + k)
  else if kind = 2 ∧ 64 ≤ i ∧ i < 68 then
    match tabGet 0 s.spare.phase (4 * group + (i - 64)) with
    | 0 => s
    | k + 1 => (s.editSpare fun x => { x with phase := tabErase x.phase (4 * group + (i - 64)) }).coverPhase group k
  else if kind = 3 ∧ 128 ≤ i ∧ i < 136 then
    match tabGet 0 s.spare.serdes (i - 128) with
    | 0 => s
    | k + 1 => setModes s fun m => { m with lostPorts := addNew k m.lostPorts }
  else s

/-- A failing spare is noted. -/
def isSpare (u : Nat × Nat × Nat) : Bool :=
  !((u.1 == 0 && decide (u.2.2 < 4)) || (u.1 == 2 && decide (u.2.2 < 64)) || (u.1 == 3 && decide (u.2.2 < 128)))

/-- The slot of a cluster, of 0 to 3, with the least stored margin. -/
def State.weakest (s : State) (cluster : Nat) : Option (Nat × Int) :=
  [0, 1, 2, 3].foldl (fun b k =>
    match tabFind s.modes.margins (5 * cluster + k), b with
    | some v, some (j, w) => if v < w then some (k, v) else some (j, w)
    | some v, none => some (k, v)
    | none, b => b) none

/-- ENGAGE in mV; above WARN it acts as WARN. -/
def State.wearEngage (s : State) : Nat := min (s.rf Reg.PVT_WEAR_CFG 15 8) (s.rf Reg.PVT_WEAR_CFG 7 0)

/-- A worn slot is replaced by its cluster's spare at a start (R533 step 1). -/
def State.replaceWorn (s : State) (cluster : Nat) : State :=
  match s.weakest cluster with
  | some (slot, v) =>
    let spare := (tabFind s.modes.margins (5 * cluster + 4)).getD 0
    if s.rb Reg.PVT_WEAR_CFG 16 ∧ v < (s.wearEngage : Int) ∧ s.mainSpareFree cluster ∧ spare ≥ (s.wearEngage : Int) then
      s.engageMain cluster slot
    else s
  | none => s

/-- The self-test of step 3: failed spares are noted, then failed units replaced or lost, worn slots replaced, quadrants disabled. -/
def State.selfTest (s : State) (b : BootInput) : State :=
  let s0 := s.editSpare fun x => { x with failed := b.failed.filter isSpare }
  let s1 := (b.failed.filter isSpare).foldl State.spareFails s0
  let s2 := (b.failed.filter fun u => !isSpare u).foldl State.unitFails s1
  let s3 := (List.range 24).foldl State.replaceWorn s2
  b.quads.foldl (fun s q => s.disableQuad q.toNat) s3

/-! ### Boot images (R437, R439 to R441) -/

def imgField (f : List Byte) (k n : Nat) : Nat := ofBytes ((f.drop k).take n)

/-- An entry of the section table. -/
structure Section where
  kind : Nat
  zero : Nat
  off : Nat
  len : Nat
  load : Nat
  hash : List Byte
deriving DecidableEq, Repr

def imgSection (f : List Byte) (k : Nat) : Section :=
  let a := 128 + 80 * k
  { kind := imgField f a 4, zero := imgField f (a + 4) 4, off := imgField f (a + 8) 8, len := imgField f (a + 16) 8
    load := imgField f (a + 24) 8, hash := (f.drop (a + 32)).take 48 }

def imgSections (f : List Byte) : List Section := (List.range (imgField f 12 4)).map (imgSection f)

def sectionData (f : List Byte) (x : Section) : List Byte := (f.drop x.off).take x.len

/-- Where the MONITOR section is loaded. -/
def monBase : Nat := 0x1010000
def monEntryOf (f : List Byte) : Nat := imgField f 120 8

/-- The header can be read: MAGIC, FORMAT, SECTIONS and its zero bytes. -/
def headerGood (f : List Byte) : Bool :=
  imgField f 0 4 == 0x07200B01 && imgField f 4 4 == 1 && decide (1 ≤ imgField f 12 4 ∧ imgField f 12 4 ≤ 16) &&
    imgField f 113 7 == 0 && decide (1504 ≤ f.length)

/-- The section table follows R439. -/
def sectionsGood (f : List Byte) : Bool :=
  let xs := imgSections f
  let of := fun k => xs.filter fun x => x.kind == k
  let rest := imgField f (128 + 80 * xs.length) (80 * (16 - xs.length)) == 0
  let mon : Bool := match of 1 with
    | [m] => decide (m.len ≤ 960 * 1024 ∧ monBase ≤ monEntryOf f ∧ monEntryOf f < monBase + m.len)
    | _ => false
  let dram : Bool := match of 2 with
    | [d] => d.load == 0
    | _ => false
  let mirror : Bool := match of 3 with
    | [] => true
    | [m] => m.len == 16
    | _ => false
  rest && mon && dram && mirror && xs.all fun x => x.zero == 0 && decide (1 ≤ x.kind ∧ x.kind ≤ 4)

/-- A section's hash is that of its data. -/
def hashGood (f : List Byte) (x : Section) : Bool := digest384 (sectionData f x) == x.hash

/-- The checks of R440 in their order: 0, or the reason of the first that fails. -/
def State.imageReason (s : State) (f : List Byte) (monitorOnly : Bool) : Nat :=
  let xs := imgSections f
  if ¬ headerGood f then 1
  else if ¬ sectionsGood f then 6
  else if digest384 ((f.drop 16).take 97) ≠ s.enc.keyHash then 2
  else if imgField f 8 4 < s.enc.secver then 3
  else if ¬ Config.ecdsaVerify ((f.drop 16).take 97) (digest384 (f.take 1408)) ((f.drop 1408).take 96) then 4
  else if xs.any fun x => (x.kind == 1 || (x.kind == 2 && !monitorOnly)) && !hashGood f x then 5
  else 0

/-- The measurement of a verified header (R437). -/
def State.measured (s : State) (f : List Byte) : State :=
  let d := digest384 (f.take 1408)
  (List.range 6).foldl (fun s k => s.wr (Reg.ENC_MEASURE 0 k) (ofBytes ((d.drop (8 * k)).take 8))) s

/-- A verified image is taken: measured, and its monitor loaded. -/
def State.takeImage (s : State) (port : Nat) (f : List Byte) : State :=
  let mon := match (imgSections f).find? fun x => x.kind == 1 with | some x => sectionData f x | none => []
  let mirror := match (imgSections f).find? fun x => x.kind == 3 with | some x => sectionData f x | none => []
  let s1 := ((s.measured f).wb (Reg.ENC_LIFECYCLE 0) 4 (port = 1)).setBytes monBase mon
  let s2 := setModes s1 fun m => { m with image := f, monEntry := BitVec.ofNat 64 (monEntryOf f) }
  if mirror.isEmpty then s2
  else { s2 with sheet := { s2.sheet with mirrorBase := imgField mirror 0 8, mirrorSize := imgField mirror 8 8 } }

/-- The images from a port on are verified in turn; the first that passes is taken. -/
def State.verifyFrom (s : State) (warm : Bool) : List (Nat × List Byte) → Option State × State
  | [] => (none, s)
  | (port, f) :: rest =>
    let r := s.imageReason f warm
    if r = 0 then (some (s.takeImage port f), s)
    else (s.bootEntry port r).verifyFrom warm rest

/-- A LOAD section: its range lies in installed DRAM and its hash is right (R439, R440). -/
def State.loadReason (s : State) (f : List Byte) : Nat :=
  let xs := (imgSections f).filter fun x => x.kind == 4
  if xs.any fun x => !(s.inDram x.load && s.inDram (x.load + x.len - 1)) then 6
  else if xs.any fun x => !hashGood f x then 5
  else 0

def State.copyLoads (s : State) (f : List Byte) : State :=
  ((imgSections f).filter fun x => x.kind == 4).foldl (fun s x => s.setBytes x.load (sectionData f x)) s

/-- The time of the copies: 2.5 ms per MiB. -/
def loadTime (f : List Byte) : Nat :=
  (((imgSections f).filter fun x => x.kind == 4).map (·.len)).foldl (· + ·) 0 * 2500000 / 2 ^ 20

/-! ### Resets (R14, R505, R506) -/

/-- Registers that keep their values through RESET_N (R14, R60, R303, R331, R333, R420, R520, R535, R536). -/
def State.keptWarm (s : State) (a : Nat) : Bool :=
  decide (0x400000000000 ≤ a) || decide (0x13000000 ≤ a ∧ a < 0x13000100) || decide (0x71F00000 ≤ a ∧ a < 0x71F00018) ||
    decide (0x710001C0 ≤ a ∧ a < 0x71000220) || decide (0x40300000 ≤ a ∧ a < 0x40301000) ||
    decide (0x52000000 ≤ a ∧ a < 0x52400000 ∧ a % 0x10000 = 0) ||
    decide (0x50000000 ≤ a ∧ a < 0x50080000 ∧ (a % 0x10000 = 0 ∨ a % 0x10000 = 0x28 ∨ 0x1000 ≤ a % 0x10000)) ||
    (decide (0x12000000 ≤ a ∧ a < 0x12000800) && s.rb (Reg.PHB_CTRL ((a - 0x12000000) / 0x100)) 6)

/-- Registers that keep their values through PORESET_N (R14, R50 to R54, R536). -/
def keptCold (a : Nat) : Bool := decide (0x400000000000 ≤ a) || a == Reg.GT_RATE_SW

/-- Base b counts on through a warm reset. -/
def State.baseKept (s : State) (b : Nat) : Bool := decide (b < 8) && s.rb (Reg.PHB_CTRL b) 6

/-- Effects in flight that outlast a warm reset: the blackouts, the sweep, and the windows of the bases that count on. -/
def State.actKept (s : State) (a : Act) : Bool :=
  match a with
  | .cmd (.blackoutStart _) | .cmd (.blackoutEnd _) | .cmd .staleSweep | .cmd .slewComplete => true
  | .cmd (.rateWindow b) => s.baseKept b.val
  | _ => false

/-- The management SPI's command that a reset ends receives TIMEOUT (R484). -/
def State.spiTimeout (s : State) : Lemam :=
  let x := s.lemam
  let header : Option (Nat × Nat) :=
    match x.spiCmd with
    | some p => some (imgField p 0 2, imgField p 2 2)
    | none =>
      let rs := (x.deferred.map (·.route)) ++ x.waiting.map (·.1)
      (rs.find? fun r => r.src == .spi && r.live).map fun r => (r.opcode, r.seq)
  match header with
  | some (op, seq) =>
    { spiReply := some (replyBytes { src := .spi, opcode := op, seq := seq } 9 [] s.now false), reject := x.reject }
  | none => { spiReply := x.spiReply, reject := x.reject }

/-- Every waiting event of the contact sheet's intake is written to the ring (R350). -/
def State.flushIntake : Nat → State → State
  | 0, s => s
  | fuel + 1, s =>
    match s.sheet.intake with
    | [] => s
    | e :: t =>
      let (x, _) := s.sheet.release e
      State.flushIntake fuel { s with sheet := { x with intake := t } }

/-- The pin banks after a reset (R78, R80): SUPPLY_OK and VSEL are 0, and 100 µs count afresh. A supply of 3.3 V lies outside the range for
VSEL 0 (R577); one that lay outside the range for VSEL 1 is taken to be of 1.8 V (DEDUCED, assumption 121). -/
def State.banksAfter (s : State) : Tab Bank :=
  ((List.range 16).map fun k =>
    let was := (s.bank k).outside
    (k, ({ since := s.clk, outside := if s.rb (Reg.PIN_BANK_CFG k) 0 then !was && (s.bank k).written else was } : Bank))).filter fun e =>
      decide (e.2 ≠ {})

/-- What every reset does to the units: state that is not named here keeps its value. -/
def State.resetUnits (s : State) (keepReg : Nat → Bool) (keepBase : Nat → Bool) (keepAct : Act → Bool) : State :=
  { s with
    regs := s.regs.filter fun e => keepReg e.1
    agenda := s.agenda.filter fun e => keepAct e.2
    bases := s.bases.filter fun e => keepBase e.1
    banks := s.banksAfter
    cmps := [], crossed := [], caps := [], sdfs := [], ctrs := [], locks := [], cores := [], pcores := [], arbs := []
    work := [], homes := [], posting := [], queues := [], qes := [], net := {}, pair := {}
    pins := (s.pins.map fun e => (e.1, { outside := e.2.outside, scan := e.2.scan, filtered := e.2.filtered })).filter fun e =>
      decide (e.2 ≠ ({} : Pin))
    enc := { s.enc with walk := [], purgers := [], deriving_ := [] } }

/-- PORT_STATUS.SPARE and HS_CFG's spare bits show the substitutions that a warm start keeps (R526). -/
def State.showSpares (s : State) : State :=
  let s1 := s.spare.serdes.foldl (fun s e => if e.2 = 0 then s else s.wb (Reg.PORT_STATUS (e.2 - 1)) 2 true) s
  s1.showAbsent

/-- The NC and DEV writes that a core has sent and that have not been performed: on their way to a home, in its queue, or waiting there for
acknowledgements (R273). -/
def State.sentWrites (s : State) : List Instr :=
  let core : Instr → Bool := fun i => match i with | .writePartial q _ _ => (agentCore q.from_).isSome | _ => false
  ((s.agenda.filterMap fun e => match e.2 with | .cmd i => some i | _ => none) ++
    s.homes.flatMap fun h => h.2.queue ++ h.2.txns.filterMap fun t => if t.wait = .acks then t.req else none).filter core

/-- A reset of a core leaves the NC or DEV entry that it has sent: it completes at its target, and its Comp is dropped (R273). -/
def State.completeSent (s : State) : State :=
  s.sentWrites.foldl (fun s i =>
    match i with
    | .writePartial q mask data =>
      let line := lineOf q.line.toNat
      if s.inHomed line ∧ ¬ inRom line ∧ (¬ s.inDram line ∨ s.ertPermits q.eid.toNat line true) then s.writeMasked line mask data else s
    | _ => s) s

/-- RESET_N (R442, R484, R505): the always-on domain, GT, DRAM, the point image, the sheet and the ERT copies are kept. -/
def State.warmReset (s : State) : State :=
  let s0 := State.flushIntake 64 s.completeSent
  let lem := s0.spiTimeout
  let s1 := s0.resetUnits s0.keptWarm s0.baseKept s0.actKept
  let s2 := { s1 with lemam := lem }
  let s3 := (List.range 8).foldl (fun s n =>
    let m := s.mc n
    let s1 := s.setMc n { m with queue := [], rows := [], ready := [], lastCol := [], slot := [], cool := 0, erasing := [], toSelfRefresh := true }
    if m.next.isSome then s1 else s1.wb (Reg.MC_STATUS n) 1 true) s2
  let s4 := setModes s3 fun m =>
    { m with agreed := none, holdCause := none, heldIrqs := [], waking := none, going := false, boot := none, lemamUp := false, image := []
             flashing := false, willFlash := m.willFlash || m.flashing, warm := true, voltCrit := [], drainEnd := s.clk + 1000000 }
  s4.showSpares

/-- PORESET_N (R505): everything but the safelight domain, the RTC, GT with its backup, stored margins and the fuses. -/
def State.coldReset (s : State) : State :=
  let lost := s.rb Reg.GT_STATUS 1
  let s1 := s.resetUnits keptCold (fun _ => false) (fun _ => false)
  let m := s.modes
  let s2 := { s1 with
    mem := [], poison := [], sheet := {}, spare := {}, mcs := [], ert := [], points := [], lemam := {}
    gt := { now := s.gt.now, rtc := s.gt.rtc, backup := s.gt.backup, backupRtc := s.gt.backupRtc, backupValid := s.gt.backupValid
            held := s.gt.now }
    modes := { refclk := m.refclk, poreset := m.poreset, reset := m.reset, railsOut := m.railsOut, safelightUp := m.safelightUp
               margins := m.margins } }
  s2.wb Reg.GT_STATUS 1 lost

/-- A mode is entered after a reset, with the mode before it in PREV. -/
def State.modeAfter (s : State) (prev m cause : Nat) : State := (s.wf Reg.PVT_MODE 2 0 prev).enterMode m cause

/-- PORESET_ASSERT: a cold reset. -/
def execPoresetAssert (s : State) : Host.Outcome State Fault Refusal :=
  let off := s.mode = modeOff
  let s1 := setModes s.coldReset fun m => { m with poreset := true }
  if off then .next (s1.wf Reg.PVT_MODE 2 0 modeOff)
  else .next ((s1.modeAfter s.mode modePreflash 0).wf Reg.PVT_RESET_CAUSE 1 0 1)

/-- The cold start begins (R508): the PLLs lock 60 µs after. -/
def State.startCold (s : State) (b : BootInput) : State :=
  (setModes s fun m => { m with boot := some b, found := some b, warm := false, willFlash := true }).send 60000 .pllLock

/-- The start begins unless the reference is stopped or RESET_N is low, which hold the device in PREFLASH (R506). -/
def State.startFree (s : State) (b : BootInput) : State := if s.modes.refclk ∧ ¬ s.modes.reset then s.startCold b else s

/-- From OFF the device enters PREFLASH, and starts (R496). -/
def State.leaveOff (s : State) (b : BootInput) : State := ((s.enterMode modePreflash 0).wf Reg.PVT_RESET_CAUSE 1 0 0).startFree b

/-- PORESET_RELEASE: with every rail in range the device starts. -/
def execPoresetRelease (boot : BootInput) (s : State) : Host.Outcome State Fault Refusal :=
  if ¬ s.modes.poreset then .next s
  else
    let s1 := setModes s fun m => { m with poreset := false }
    if s.modes.railsOut ≠ [] then .next s1
    else if s.mode = modeOff then .next (s1.leaveOff boot)
    else .next (s1.startFree boot)

/-- PLL_LOCK: GT is advanced from its backup (R48), and start-up goes on with the self-test. -/
def execPllLock (s : State) : Host.Outcome State Fault Refusal :=
  if s.modes.boot.isSome ∧ ¬ s.modes.pll ∧ s.modes.refclk then
    .next (((setModes s fun m => { m with pll := true }).gtAdvance).after 3000000 (.boot 3))
  else .next s

/-- RESET_ASSERT: a warm reset; during the drain of R331 DRAM goes into self-refresh. Within a cold start, that start ends. In OFF and with
PORESET_N low only the pin is noted: it holds the start that follows (R506). -/
def execResetAssert (s : State) : Host.Outcome State Fault Refusal :=
  if s.mode = modeOff ∨ s.modes.poreset ∨ s.modes.reset then .next (setModes s fun m => { m with reset := true })
  else
    let prev := s.mode
    let flash := s.rb Reg.PVT_RESET_CTRL 0
    let s1 := setModes s.warmReset fun m => { m with reset := true, willFlash := m.willFlash || flash }
    .next ((s1.modeAfter prev modePreflash 1).wf Reg.PVT_RESET_CAUSE 1 0 2)

/-- RESET_RELEASE: the warm start follows once the drain has ended (R506, R509). -/
def execResetRelease (boot : BootInput) (s : State) : Host.Outcome State Fault Refusal :=
  if ¬ s.modes.reset then .next s
  else
    let s1 := setModes s fun m => { m with reset := false, boot := some boot, found := some boot }
    if s.modes.poreset ∨ s.modes.railsOut ≠ [] ∨ ¬ s.modes.refclk then .next (setModes s fun m => { m with reset := false })
    else if ¬ s.modes.pll then .next ((setModes s1 fun m => { m with warm := false, willFlash := true }).send 60000 .pllLock)
    else .next (s1.after ((s.modes.drainEnd - s.clk) + 3000000) (.boot 3))

/-- RAIL_LOSS: a rail of group 2 or 3 acts as PORESET_N and sets the mode to OFF (R512). -/
def execRailLoss (rail : Byte) (s : State) : Host.Outcome State Fault Refusal :=
  let r := rail.toNat
  if r = 9 ∨ r = 10 ∨ r = 11 ∨ r > 12 then .next s
  else
    let prev := s.mode
    let s1 := setModes s.coldReset fun m => { m with railsOut := addNew r m.railsOut }
    if prev = modeOff then .next (s1.wf Reg.PVT_MODE 2 0 modeOff) else .next (s1.modeAfter prev modeOff 14)

/-- RAIL_RETURN: the rails are back, and the device starts as after a cold reset unless PORESET_N is low. -/
def execRailReturn (boot : BootInput) (s : State) : Host.Outcome State Fault Refusal :=
  let s1 := setModes s fun m => { m with railsOut := [] }
  if s.modes.railsOut ≠ [] ∧ s.mode = modeOff ∧ ¬ s.modes.poreset then .next (s1.leaveOff boot)
  else .next s1

/-- VDD_AO_LOSS: the backup is invalid, the whole device is OFF, and GT restarts at 0 (R20, R49). -/
def execVddAoLoss (s : State) : Host.Outcome State Fault Refusal :=
  let s1 := s.coldReset
  let s2 := { s1 with gt := {} }
  let s3 := setModes s2 fun m => { m with margins := [], railsOut := addNew 0 m.railsOut }
  .next (((s3.wb Reg.GT_STATUS 1 true).wb Reg.GT_STATUS 0 true).wf Reg.PVT_MODE 2 0 modeOff)

/-! ### Loss of the reference (R502, R506) -/

/-- The reference is lost outside STANDBY: the pins are released, everything else is held in reset, and DRAM contents are lost. -/
def State.refclkLost (s : State) : State :=
  let prev := s.mode
  if prev = modeOff then setModes s fun m => { m with refclk := false }
  else
    let s1 := setModes s.coldReset fun m => { m with refclk := false }
    (s1.modeAfter prev modePreflash 13).wf Reg.PVT_RESET_CAUSE 1 0 3

/-- REFCLK_LOSS. -/
def execRefclkLoss (s : State) : Host.Outcome State Fault Refusal :=
  if s.modes.refclk ∧ s.mode ≠ modeStandby then .next s.refclkLost else .next s

/-- REFCLK_STOP: in STANDBY with STANDBY_DONE set the units hold their state; at any other time it is a loss. -/
def execRefclkStop (s : State) : Host.Outcome State Fault Refusal :=
  if ¬ s.modes.refclk then .next s
  else if s.mode = modeStandby ∧ s.rb Reg.PVT_MODE 16 = true then
    let s1 := setModes s fun m => { m with refclk := false, pll := false, stopClk := s.clk }
    .next ({ s1 with gt := { s1.gt with held := s1.gt.now } }.wb Reg.PVT_MODE 17 true)
  else .next s.refclkLost

/-- Effects that the always-on domain performs while the reference is stopped: the pin actions of its compares (R502). -/
def alwaysOn : Act → Bool
  | .ball .. | .seen .. | .sample _ | .boot _ | .cmd (.compareMatch _) | .cmd (.pinAction _) => true
  | _ => false

/-- What was held while the reference was stopped follows as much later as it stood still (R502). -/
def State.resumeHeld (s : State) (gap : Nat) : State :=
  let late := s.agenda.map fun e => if alwaysOn e.2 then e else (e.1 + gap, e.2)
  { s with
    agenda := late.foldl (fun l e => agendaInsert e.1 e.2 l) []
    ctrs := s.ctrs.map fun e => (e.1, { e.2 with tickBase := e.2.tickBase + gap })
    pcores := s.pcores.map fun e => (e.1, { e.2 with
      busy := e.2.busy + gap, since := e.2.since.map (· + gap)
      long := e.2.long.map fun l => { l with until_ := l.until_ + gap }
      sleep := e.2.sleep.map fun x => (x.1, x.2.1, x.2.2.map (· + gap)) }) }

/-- A base as the wake from a stopped reference leaves it (R47): what held its value keeps it; MAINS bases stop, STREAM bases are STALE. -/
def State.wakeBase (s : State) (gap b : Nat) : State :=
  let x := s.base b
  let src := s.baseSrc b
  if ¬ s.baseOn b ∨ src = srcTime then s
  else
    let s1 := s.setBase b { x with anchorGt := BitVec.ofNat 64 (x.anchorGt.toNat + gap) }
    if src = srcMains then ((s1.setBase b { s1.base b with inputLost := true, lastCross := none, lastGood := none }).stopBase b).wb
      (Reg.PHB_STATUS b) 0 false
    else if src = srcStream then
      ((s1.setBase b { s1.base b with lastUpd := none, heldPath := none }).stopBase b).wb (Reg.PHB_STATUS b) 2 true
    else s1.setBase b { s1.base b with winStart := s.gt.now, winLen := s.rateWin b * 1000, winChange := 0, winEdges := 0 }

/-- REFCLK_RETURN: the PLLs relock, GT is advanced as a forward step for compares (R48), and every held unit resumes; after a loss the
device starts anew. -/
def execRefclkReturn (boot : BootInput) (s : State) : Host.Outcome State Fault Refusal :=
  if s.modes.refclk then .next s
  else if s.mode = modeStandby then
    let gap := s.clk - s.modes.stopClk
    let s0 := { s with crossed := [] }.resumeHeld gap
    let irqs := s.modes.heldIrqs
    let s1 := setModes s0 fun m => { m with refclk := true, pll := true, heldIrqs := [] }
    let s2 := (s1.gtAdvance).wb Reg.PVT_MODE 17 false
    let s3 := (List.range 16).foldl (fun s b => s.wakeBase (s2.now - s1.now) b) s2
    let s5 := (s3.gtStepped s1.now s1.timeBases).armTimers
    .next ((irqs.foldl (fun s n => s.source (1024 + n)) s5).after 0 (.boot 20))
  else
    let s1 := setModes s fun m => { m with refclk := true }
    if s.mode = modePreflash ∧ ¬ s.modes.poreset ∧ s.modes.railsOut = [] then .next (s1.startFree boot) else .next s1

/-! ### Start-up (R508 to R510, R442, R448) -/

/-- Start-up stands still. -/
def State.bootHalt (s : State) : State := setModes s fun m => { m with boot := none }

/-- The period of Lemam's adaptive-voltage loop begins. -/
def State.armAvs (s : State) : State := s.send 1000000 .avsPeriod

/-- On-chip SRAM but the contact sheet, and DRAM, are zero (R448 steps 2 to 4). -/
def State.eraseAll (s : State) : State :=
  let s1 := s.resetUnits (fun a => keptCold a || decide (0x71F00000 ≤ a ∧ a < 0x71F00018) || decide (0x13000000 ≤ a ∧ a < 0x13000100) || a == cmdStatus)
    (fun _ => false) (fun _ => false)
  { s1 with mem := [], poison := [], points := [], ert := [], mcs := [] }

/-- Preflash time in ns: 2.8 s × C / 1 TiB at DDR5-6400 (R330). -/
def State.preflashTime (s : State) : Nat :=
  let t := 2800000000 * (s.capacity / 2 ^ 30) / 1024
  match s.rf (Reg.MC_CFG 0) 1 0 with
  | 0 => t * 4 / 3
  | 1 => t * 8 / 7
  | _ => t

/-- The controllers take the configuration of a DRAM_CONFIG block, and the home slices the interleave (R279, R329). -/
def State.configureDram (s : State) (block : List Byte) : State :=
  let f := fun k => (block.getD k 0).toNat
  let v := f 0 % 4 + (f 1 % 4) * 4 + (f 2 % 2) * 16 + (f 3 % 2) * 32 + 64
  let s1 := (List.range 8).foldl (fun s n => s.wr (Reg.MC_CFG n) v) s
  (List.range 64).foldl (fun s h => s.wf (Reg.HS_CFG h) 0 0 (f 3)) s1

/-- The fields of word k of a channel's delay sets; every other bit is reserved and zero (R325). -/
def dsMask (k : Nat) : Nat :=
  let w := k % 128
  if w < 40 then 0xFFFFFFF else if w < 50 then 0xFFFFF else if w < 67 then 0x3FF else 0

/-- The four delay sets of every channel (R325, R329). -/
def State.loadSets (s : State) (ws : List Word32) : State :=
  ((List.range 8192).zip ws).foldl (fun s e => s.wr (Reg.MC_DS_WORD (e.1 / 1024) (e.1 % 1024)) (e.2.toNat &&& dsMask e.1)) s

/-- A channel enters service with DS0: READY, and blackouts begin (R329, R331). -/
def State.startChannel (s : State) (n : Nat) : State :=
  let st := Reg.MC_STATUS n
  (((s.wb st 0 true).wb st 1 false).wf st 7 3 0).startBlackouts n |>.send 1 (.scrubVisit (Fin.ofNat 8 n))

/-- Step 7: DRAM is initialised, or leaves self-refresh. -/
def State.initDram (s : State) (b : BootInput) : State :=
  if s.modes.warm ∧ s.modes.dramReady then (List.range 8).foldl State.startChannel s
  else
    let s1 := (s.configureDram (s.modes.dramBlock.getD b.dram)).loadSets b.sets
    setModes ((List.range 8).foldl State.startChannel s1) fun m => { m with dramReady := true }

/-- The phase engine comes out of reset: a supply that lies outside sets SUPPLY_ERR again (R78), and what the pins ask of their balls
reaches them. -/
def State.engineUp (s : State) : State :=
  let s1 := (List.range 16).foldl (fun s k => if (s.bank k).outside then s.wb (Reg.PIN_BANK_STATUS k) 1 true else s) s
  s1.outputPins.foldl (fun s p => s.ballFollows p) s1

/-- The last step of a start: core 0 is released, SAFE_N is released, and the mode is RUN or DEGRADED (R508 step 9, R510). -/
def State.bootDone (s : State) : State :=
  let s1 := (List.range 96).foldl (fun s c => s.wf (Reg.PVT_COREPT c) 2 0 4) s
  let s2 := (s1.enterMode s1.runMode 2).wb Reg.PVT_RESET_CAUSE 2 s.modes.willFlash
  (s2.engineUp.releaseCore 0).bootHalt |> fun s => setModes s fun m => { m with willFlash := false }

/-- Preflash ends: every DRAM line, local memory and, at a warm start, the point image are zero (R129, R330, R420, R507). -/
def State.preflashed (s : State) : State :=
  let mon := s.mem.filter fun e => inMonSram e.1
  let s1 := { s with mem := mon, poison := s.poison.filter fun e => inMonSram e.1, points := [] }
  ((setModes s1 fun m => { m with flashing := false }).wb Reg.PVT_RESET_CTRL 0 false).wr Reg.PT_FORCED_COUNT 0

/-- The rest of a start once an image has passed: its LOAD sections, or the other image when one of them fails (R440). -/
def State.loadImage (s : State) (b : BootInput) (port : Nat) : State :=
  let f := s.modes.image
  let r := s.loadReason f
  if r = 0 then ((s.copyLoads f).bootEntry port 0).after (loadTime f) (.boot 9)
  else
    let s1 := s.bootEntry port r
    match if port = 0 then s1.verifyFrom false [(1, b.images.getD 1 [])] else (none, s1) with
    | (some s2, _) =>
      let g := s2.modes.image
      let r2 := s2.loadReason g
      if r2 = 0 then ((s2.copyLoads g).bootEntry 1 0).after (loadTime g) (.boot 9) else (s2.bootEntry 1 r2).bootHalt
    | (none, s2) => s2.bootHalt

/-- A step of a start, at its end. -/
def State.bootStep (s : State) (k : Nat) : State :=
  match s.modes.boot with
  | none => s
  | some b =>
    match k with
    | 3 =>
      match b.fatal with
      | some u => (s.log .sramUe u 0).bootHalt
      | none => (s.selfTest b).after 200000 (.boot 4)
    | 4 => (if s.enc.state = lifeReturn then s.eraseAll else s).after 2000000 (.boot 5)
    | 5 =>
      let s1 := (s.takePatch ((List.range b.patches.length).zip b.patches)).wf Reg.PVT_PMBUS 12 0 b.pmbus.toNat
      let s2 := (((setModes s1 fun m => { m with lemamUp := true }).wb cmdStatus 9 false).armAvs).kickLemam
      if s.enc.state = lifeReturn then s2.bootHalt
      else if s.enc.state = 0 then s2
      else s2.after 15000000 (.boot 6)
    | 6 =>
      let port := b2n (s.rb (Reg.ENC_LIFECYCLE 0) 4)
      let images := (List.range b.images.length).zip b.images
      match s.verifyFrom s.modes.warm images with
      | (some s1, _) => s1.after 2000000 (.boot 7)
      | (none, s1) => (s1.wb (Reg.ENC_LIFECYCLE 0) 4 (port = 1)).bootHalt
    | 7 =>
      if b.chFail ≠ 0 ∧ ¬ (s.modes.warm ∧ s.modes.dramReady) then
        ((List.range 8).foldl (fun s n =>
          if b.chFail.getLsbD n then (s.wb (Reg.MC_STATUS n) 8 true).log .dramInit (unitMc n) 0 else s) s).bootHalt
      else
        let s1 := s.initDram b
        if s1.modes.willFlash then (setModes s1 fun m => { m with flashing := true }).after s1.preflashTime (.boot 8)
        else (s1.bootEntry (s1.rf (Reg.ENC_LIFECYCLE 0) 4 4) 0).after 0 (.boot 9)
    | 8 => s.preflashed.loadImage b (s.rf (Reg.ENC_LIFECYCLE 0) 4 4)
    | 9 => s.bootDone
    | _ => s

/-! ### STANDBY (R501 to R503) -/

/-- Registers of the units that power down in STANDBY. -/
def poweredDown (a : Nat) : Bool :=
  decide (0x31000000 ≤ a ∧ a < 0x32000000) || decide (0x40000000 ≤ a ∧ a < 0x40300000) ||
    decide (0x51000000 ≤ a ∧ a < 0x510E0000 ∧ a / 0x10000 ≠ 0x510C) || decide (0x70000000 ≤ a ∧ a < 0x70001000) ||
    (decide (0x52000000 ≤ a ∧ a < 0x52400000) && decide (a % 0x10000 ≠ 0))

/-- Step 2: the home slices, engines, switch and ports power down in their state after RESET_N, and the pair link goes DOWN. -/
def State.powerDown (s : State) : State :=
  let s1 := s.pairLost.pairDown
  { s1 with
    regs := s1.regs.filter fun e => !poweredDown e.1
    homes := [], queues := [], qes := [], net := {}, posting := [], pair := {}
    arbs := s1.arbs.filter fun e => e.1 == 12
    locks := s1.locks.filter fun l => !(l.1 == 10 || l.1 == 11 || l.1 == 12 || l.1 == 17 || l.1 == 18) }

/-- STANDBY_SEQUENCE: every main core stops and drains; once all have, they are gated and the fabric powers down. -/
def execStandbySequence (s : State) : Host.Outcome State Fault Refusal :=
  if s.mode ≠ modeStandby ∨ s.rb Reg.PVT_MODE 16 = true then .next s
  else
    let up := (List.range 96).filter s.coreUp
    let s1 := (up.filter fun c => (s.core c).run != .stopped).foldl State.stopCore s
    if up.all s1.drained then
      let s2 := (up.foldl State.gateCore s1).powerDown
      let s3 := (List.range 8).foldl (fun s n => s.setMc n { s.mc n with queue := (s.mc n).queue, toSelfRefresh := true }) s2
      .next (s3.send 1000 .standbyDone)
    else .next (s1.send 100 .standbySequence)

/-- STANDBY_DONE: every controller is in self-refresh, and Lemam sets STANDBY_DONE. -/
def execStandbyDone (s : State) : Host.Outcome State Fault Refusal :=
  if s.mode ≠ modeStandby ∨ s.rb Reg.PVT_MODE 16 = true then .next s
  else if (List.range 8).all fun n => s.rb (Reg.MC_STATUS n) 1 || !s.rb (Reg.MC_CFG n) 6 then
    .next ((s.wb Reg.PVT_MODE 16 true).after 0 (.boot 20))
  else .next (s.send 1000 .standbyDone)

/-- WAKE: a command, or a router source that has become pending (R503). -/
def execWake (src : WakeSource) (s : State) : Host.Outcome State Fault Refusal :=
  if s.mode ≠ modeStandby then .next s
  else .next (s.askWake modeRun (match src with | .command => 11 | .interrupt _ => 12))

/-- The steps of a wake: nothing before STANDBY_DONE or with the reference stopped; the self-test; DRAM leaves self-refresh; core 0 is
released in the mode asked for. -/
def State.wakeStep (s : State) (k : Nat) : State :=
  match s.modes.waking with
  | none => s
  | some (target, cause) =>
    if s.mode ≠ modeStandby then s
    else if k = 20 then
      if s.modes.refclk ∧ s.rb Reg.PVT_MODE 16 ∧ ¬ s.modes.going then
        (setModes s fun m => { m with going := true }).after 3000000 (.boot 21)
      else s
    else if k = 21 then ((List.range 8).foldl State.startChannel s).after 1900000 (.boot 22)
    else
      let s1 := setModes (s.wb Reg.PVT_MODE 16 false) fun m => { m with waking := none, going := false, holdCause := none }
      let s2 := s1.enterMode (if target = modeRun then s1.runMode else target) cause
      ((s2.releaseCore 0).retrySources).kickLemam 0

/-- An effect of a start or a wake. -/
def State.bootAct (s : State) (k : Nat) : State := if k ≥ 20 then s.wakeStep k else s.bootStep k

/-! ### The safelight domain (R446, R505, R536) -/

/-- SAFELIGHT_RESET: the TAP, DEBUG_OPEN and the debug registers; the rails are in range. -/
def execSafelightReset (s : State) : Host.Outcome State Fault Refusal :=
  .next (setModes s.closeDebug fun m => { m with safelightUp := true })

/-- SAFELIGHT_RAIL_LOSS: the domain is inactive until its rails rise. -/
def execSafelightRailLoss (s : State) : Host.Outcome State Fault Refusal :=
  .next (setModes s.closeDebug fun m => { m with safelightUp := false })

end Sys2Proof.Machine
end

