-- ==== Sys2Proof/Machine/Spares.lean ====
section
/-!
DEFINITION. Sys2Proof/Machine/Spares.lean: the engagement of spares, the loss of a unit while the device runs, the health monitors, the
regulators and the links with a CRC (R347, R513, R514, R517, R522 to R535, R581).
-/
namespace Sys2Proof.Machine

/-! ### Engagements (R523, R524) -/

/-- The port's lane is remapped to a spare lane (R395). -/
def State.laneSpare (s : State) (q : Nat) : Option Nat :=
  [2 * q, 2 * q + 1].find? fun n => s.spareFree 3 q (128 + n) (tabGet 0 s.spare.serdes n != 0)

/-- The entry of an engagement: the replaced unit, and the spare's physical index. -/
def State.logEngaged (s : State) (unit : Word32) (index : Nat) : State := s.log .spareEngaged unit index

/-- The w-th listed line of each set: what way w holds. -/
def wayLines (s : State) (lines : List Nat) (w : Nat) : List Nat :=
  lines.filter fun a => (lines.filter fun b => decide (s.setOf b = s.setOf a ∧ b < a)).length == w

/-- The slice writes back the dirty lines of an LLC way and invalidates it; the spare way takes its place. -/
def State.engageLlc (s : State) (h w : Nat) : State :=
  let lines := wayLines s ((s.home h).llc.map fun e => 64 * e.1) w
  let s1 := lines.foldl (fun s a =>
    match (s.home h).cached a with
    | some l => s.evict h a l (s.defaultStamp (s.dramLoc a).mc h)
    | none => s) s
  let s2 := (s1.wb (Reg.HS_CFG h) 1 true).wf (Reg.HS_CFG h) 5 2 w
  (s2.editSpare fun x => { x with llcWay := tabSet 0 x.llcWay h (w + 1) }).logEngaged (unitHs h) 16

/-- The slice removes the entries of a directory way by BackInvalidate; the spare way takes its place. -/
def State.engageDir (s : State) (h w : Nat) : State :=
  let lines := wayLines s ((s.home h).dir.map fun e => 64 * e.1) w
  let s1 := lines.foldl (fun s a =>
    match (s.home h).entry a with
    | some d => if (s.home h).busy a then s else s.removeEntry h a d.holders
    | none => s) s
  let s2 := (s1.wb (Reg.HS_CFG h) 6 true).wf (Reg.HS_CFG h) 10 7 w
  (s2.editSpare fun x => { x with dirWay := tabSet 0 x.dirWay h (w + 1) }).logEngaged (unitHs h) 41

/-- The port's MAC moves to a spare lane. -/
def State.engageLane (s : State) (p lane : Nat) : State :=
  let s1 := s.wb (Reg.PORT_STATUS p) 2 true
  (s1.editSpare fun x => { x with serdes := tabSet 0 x.serdes lane (p + 1) }).logEngaged (unitPort p) (128 + lane)

/-- The fields of SPARE_ENGAGE are in range (R523). -/
def spareParams (kind quad group unit : Nat) : Bool :=
  match kind with
  | 0 => decide (quad < 4 ∧ group < 6 ∧ unit < 4)
  | 1 => decide (quad < 4 ∧ group < 16 ∧ (unit < 16 ∨ (32 ≤ unit ∧ unit ≤ 40)))
  | 2 => decide (quad < 4 ∧ group = 0 ∧ unit < 64)
  | 3 => decide (quad < 4 ∧ group = 0 ∧ unit / 32 = quad)
  | 10 => decide (quad = 4 ∧ group = 0 ∧ unit = 0)
  | _ => false

/-- Whether the group has a free working spare, and the unit is not replaced already (R523). -/
def State.spareThere (s : State) (kind quad group unit : Nat) : Bool :=
  match kind with
  | 0 => s.mainSpareFree (6 * quad + group)
  | 1 =>
    let h := 16 * quad + group
    if unit < 16 then s.spareFree 1 h 16 (tabGet 0 s.spare.llcWay h != 0) else s.spareFree 1 h 41 (tabGet 0 s.spare.dirWay h != 0)
  | 2 => (s.phaseSpare quad).isSome && [0, 1, 2, 3].all fun k => tabGet 0 s.spare.phase (4 * quad + k) != unit + 1
  | 3 => (s.laneSpare quad).isSome && s.spare.serdes.all fun e => e.2 != unit + 1
  | _ => s.spareFree 10 0 1 s.spare.command

/-- The unit is in use: a core not gated, a phase core neither HALTED nor FAULTED, a port whose MODE is not 0 (R523). -/
def State.spareUnitBusy (s : State) (kind quad group unit : Nat) : Bool :=
  match kind with
  | 0 => !s.rb (Reg.PVT_COREPT (24 * quad + 4 * group + unit)) 2
  | 2 => decide (s.pcState (64 * quad + unit) ≠ 0 ∧ s.pcState (64 * quad + unit) ≠ 3)
  | 3 => s.portMode unit != 0
  | _ => false

/-- The engagement itself (R524). -/
def State.engage (s : State) (kind quad group unit : Nat) : State :=
  match kind with
  | 0 => s.engageMain (6 * quad + group) unit
  | 1 => if unit < 16 then s.engageLlc (16 * quad + group) unit else s.engageDir (16 * quad + group) (unit - 32)
  | 2 => match s.phaseSpare quad with | some k => s.engagePhase quad unit k | none => s
  | 3 => match s.laneSpare quad with | some lane => s.engageLane unit lane | none => s
  | _ => s.engageCommand.logEngaged (dieUnit 10 0) 1

/-! ### SPARE_STATUS (R534) -/

/-- The bits of a set of small numbers. -/
def maskOf (l : List Nat) : Nat := l.foldl (fun m k => m + 2 ^ k) 0

/-- A record: GROUP, SPARES, USED, FAILED, ABSENT and the replaced indexes by spare, held plus one. -/
def spareRecord (group spares failed absent : Nat) (replaced : List Nat) : List Byte :=
  [BitVec.ofNat 8 group, BitVec.ofNat 8 spares, BitVec.ofNat 8 (replaced.filter (· != 0)).length, BitVec.ofNat 8 failed] ++
    toBytes 8 absent ++ ((List.range 4).flatMap fun k => toBytes 2 ((replaced.getD k 0 + 65535) % 65536)) ++ toBytes 4 0

def State.failedSpares (s : State) (kind group : Nat) : Nat := (s.spare.failed.filter fun u => u.1 == kind && u.2.1 == group).length

/-- An LLC or directory way replaced, as SPARE_STATUS shows it: INDEX plus one. -/
def wayIndex (v add : Nat) : Nat := if v = 0 then 0 else v + add

/-- The records of a group kind. -/
def State.spareRecords (s : State) (kind q : Nat) : List (List Byte) :=
  match kind with
  | 0 => (List.range 6).map fun c =>
      let k := 6 * q + c
      spareRecord c 1 (s.failedSpares 0 k) (maskOf ((List.range 4).filter fun i => s.modes.lostCores.contains (4 * k + i)))
        [tabGet 0 s.spare.main k]
  | 1 => (List.range 16).map fun g =>
      let h := 16 * q + g
      spareRecord g 2 (s.failedSpares 1 h) 0 [tabGet 0 s.spare.llcWay h, wayIndex (tabGet 0 s.spare.dirWay h) 32]
  | 2 => [spareRecord 0 4 (s.failedSpares 2 q) (maskOf ((List.range 64).filter fun i => s.modes.lostPcs.contains (64 * q + i)))
        ((List.range 4).map fun k => tabGet 0 s.spare.phase (4 * q + k))]
  | 3 => [spareRecord 0 2 (s.failedSpares 3 q) (maskOf ((List.range 32).filter fun i => s.modes.lostPorts.contains (32 * q + i)))
        [tabGet 0 s.spare.serdes (2 * q), tabGet 0 s.spare.serdes (2 * q + 1)]]
  | _ => [spareRecord 0 1 (s.failedSpares 10 0) 0 [b2n s.spare.command]]

/-- SPARE_STATUS answers for a listed KIND, with QUAD 4 for the command core alone. -/
def statusParams (kind quad : Nat) : Bool :=
  (decide (kind < 4 ∧ quad < 4)) || (kind == 10 && quad == 4)

/-- The reply of SPARE_STATUS. -/
def State.spareReply (s : State) (kind quad : Nat) : List Byte :=
  let rs := s.spareRecords kind quad
  [BitVec.ofNat 8 kind, BitVec.ofNat 8 quad, BitVec.ofNat 8 rs.length] ++ toBytes 5 0 ++ rs.flatten

/-! ### A main core lost while the device runs (R500, R527) -/

/-- The core's stores have drained: it is gated and reported absent, and its sources find no target. -/
def State.coreLost (s : State) (c : Nat) : State :=
  let s1 := setModes (s.gateCore c) fun m => { m with lostCores := addNew c m.lostCores }
  (s1.showAbsent.degrade).retrySources

/-- A core that is lost is gated first: once its stores have drained. -/
def State.loseCore (s : State) (c : Nat) : State :=
  if s.rb (Reg.PVT_COREPT c) 3 then s
  else if s.rb (Reg.PVT_COREPT c) 2 then s.coreLost c
  else
    let s1 := s.stopCore c
    if s1.drained c then s1.coreLost c
    else (s1.editLemam fun x =>
      { x with waiting := x.waiting ++ [({ src := .mgmt, opcode := 0, seq := 0 }, 512 + c)] }).kickLemam 100

/-! ### Alarms (R531, R535) -/

/-- A bit of PVT_ALARM_STATUS sets, and source 2,904 is raised while its enable bit is 1. -/
def State.pvtAlarm (s : State) (bit : Nat) : State :=
  if s.rb Reg.PVT_ALARM_STATUS bit then s
  else
    let s1 := s.wb Reg.PVT_ALARM_STATUS bit true
    if bit < 7 ∧ s1.rb Reg.PVT_IRQ_EN bit = true then s1.source 2904 else s1

/-- The unit of a monitor: its quadrant where it has one. -/
def monUnit (dev : Nat) : Word32 :=
  let q := if dev < 64 then dev / 16 else if dev < 72 then (dev - 64) / 2 else if dev < 96 then 4
    else if dev < 112 then (dev - 96) / 4 else (dev - 112) / 6
  unitCode q 0 14 dev

/-- A reading with VALID and its level. -/
def monWord (reading level : Nat) : Nat := reading + level * 2 ^ 29 + 2 ^ 31

/-- A reading is stored; a rise of LEVEL writes an entry and sets the bit of that level, `bits` for a warning. -/
def State.monitored (s : State) (reg dev reading level bits : Nat) : State :=
  let old := s.rf reg 30 29
  let w := monWord reading level
  let s1 := s.wr reg w
  if level > old then
    ((s1.log .pvtAlarm (monUnit dev) (w + level * 2 ^ 32)).wr Reg.PVT_LAST_ALARM dev).pvtAlarm (bits + level - 1)
  else s1

/-! ### Monitors (R528 to R533) -/

/-- Some bank runs at 3.3 V. -/
def State.bank33 (s : State) : Bool := (List.range 16).any fun k => s.rb (Reg.PIN_BANK_CFG k) 0

/-- The reference of a voltage monitor in mV (R511, R528). -/
def State.voltRef (s : State) (n : Nat) : Nat :=
  if n < 8 then s.rf Reg.PVT_AVS 25 16
  else if n < 12 then 800 else if n < 16 then 850 else if n < 20 then 800 else if n < 22 then 750 else if n < 24 then 1200
  else if n < 26 then 1100 else if n < 28 then 1800 else if n < 30 then 3300 else 800

/-- The monitor's unit is powered and present: a disabled quadrant's units are absent, and STANDBY powers down the home slices, the
SerDes, the engines and the switch. -/
def State.monitorUp (s : State) (kind : MonKind) (n : Nat) : Bool :=
  let standby := s.mode == modeStandby
  match kind with
  | .ts =>
    let j := n % 16
    !((s.quadOff (n / 16) && (decide (j < 8) || j == 12 || j == 13)) || (standby && (decide (8 ≤ j ∧ j < 14) || j == 15)))
  | .vm => if n = 28 ∨ n = 29 then s.bank33 else !(standby && decide (20 ≤ n ∧ n < 24))
  | .pm => !s.quadOff (n / 4)
  | .am => !s.quadOff (n / 6)

/-- A temperature, in 1/16 °C (R517, R531). -/
def State.sampleTemp (s : State) (n : Nat) (reading : BitVec 16) : State :=
  let v := reading.toInt
  let warn : Int := 16 * min 104 (s.rf Reg.PVT_TEMP_WARN 7 0)
  let level := if v ≥ 16 * 105 then 2 else if v ≥ warn then 1 else 0
  let s1 := s.monitored (Reg.PVT_TS n) n reading.toNat level 0
  let s2 := if v ≥ 16 * 120 then setModes s1 fun m => { m with thermtrip := true } else s1
  if v ≥ 16 * 110 then s2.safeHold 9 else s2

/-- A voltage in mV (R531). -/
def State.sampleVolt (s : State) (n : Nat) (reading : BitVec 16) : State :=
  let v := reading.toNat % 2 ^ 13
  let ref := s.voltRef n
  let off := max v ref - min v ref
  let beyond : Bool := decide (100 * off > 6 * ref)
  let critical := beyond && s.modes.voltCrit.contains n
  let level := if critical then 2 else if 100 * off > 3 * ref then 1 else 0
  let s1 := setModes s fun m => { m with voltCrit := if beyond then addNew n m.voltCrit else m.voltCrit.filter (· != n) }
  let s2 := s1.monitored (Reg.PVT_VM n) (64 + n) v level 2
  if critical then s2.safeHold 10 else s2

/-- The slot with the least margin, the lowest of those that share it. -/
def leastSlot (margins : List (BitVec 16)) : Nat × Int :=
  ((List.range 5).zip margins).foldl (fun b e => if e.2.toInt < b.2 then (e.1, e.2.toInt) else b)
    (0, (margins.getD 0 0).toInt)

/-- The logical core that a slot of a cluster carries. -/
def State.coreOfSlot (s : State) (cluster slot : Nat) : Option Nat :=
  let r := tabGet 0 s.spare.main cluster
  if slot < 4 then (if r = slot + 1 then none else some (4 * cluster + slot))
  else if r = 0 then none else some (4 * cluster + r - 1)

/-- The five margins of a cluster in mV: they are stored, and the least is the reading; at 0 mV or below the core of that slot is
lost (R531 to R533). -/
def State.sampleAge (s : State) (n : Nat) (slots : List (BitVec 16)) : State :=
  let (slot, v) := leastSlot slots
  let level := if v ≤ 0 then 2 else if v < (s.rf Reg.PVT_WEAR_CFG 7 0 : Int) then 1 else 0
  let s1 := setModes s fun m => { m with
    margins := ((List.range 5).zip slots).foldl (fun t e => tabInsert (5 * n + e.1) e.2.toInt (tabErase t (5 * n + e.1))) m.margins }
  let s2 := s1.monitored (Reg.PVT_AM n) (112 + n) (wrapTo 16 v + slot * 2 ^ 16) level 4
  if v ≤ 0 then
    match s.coreOfSlot n slot with
    | some c => s2.loseCore c
    | none => s2
  else s2

/-- MONITOR_SAMPLE. A monitor whose unit is powered down or absent reads VALID 0. -/
def execMonitorSample (kind : MonKind) (n : Byte) (reading : BitVec 16) (slots : List (BitVec 16)) (s : State) :
    Host.Outcome State Fault Refusal :=
  let k := n.toNat
  if s.mode = modeOff then .next s
  else
    match kind with
    | .ts => .next (if k ≥ 64 then s else if s.monitorUp .ts k then s.sampleTemp k reading else s.wr (Reg.PVT_TS k) 0)
    | .vm => .next (if k ≥ 32 then s else if s.monitorUp .vm k then s.sampleVolt k reading else s.wr (Reg.PVT_VM k) 0)
    | .pm => .next (if k ≥ 16 then s else if s.monitorUp .pm k then s.wr (Reg.PVT_PM k) (monWord (reading.toNat % 2 ^ 12) 0)
        else s.wr (Reg.PVT_PM k) 0)
    | .am => .next (if k ≥ 24 then s else if s.monitorUp .am k then s.sampleAge k slots else s.wr (Reg.PVT_AM k) 0)

/-! ### Regulators (R513, R514) -/

/-- The bits of a STATUS_WORD that report a fault or a warning: all but BUSY, OFF and POWER_GOOD# (PMBus 1.3, PRESUMED). -/
def statusFault (w : BitVec 16) : Bool := (w &&& 0xF73F) != 0

/-- VOUT_OV or VOUT_UV: the VOUT bits of STATUS_WORD (PMBus 1.3, PRESUMED). -/
def statusVout (w : BitVec 16) : Bool := w.getLsbD 5 || w.getLsbD 15

/-- PMBUS_ALERT: the STATUS_WORD of every present regulator, by address from 0x40. -/
def execPmbusAlert (words : List (BitVec 16)) (s : State) : Host.Outcome State Fault Refusal :=
  if ¬ s.lemamRuns then .next s
  else
    let faults := ((List.range 13).zip words).filter fun e => s.rb Reg.PVT_PMBUS e.1 && statusFault e.2
    let s1 := faults.foldl (fun s e =>
      let (v, s1) := s.fresh
      ((s1.wb Reg.PVT_PMBUS (16 + e.1) true).log .pvtAlarm (dieUnit 14 (200 + e.1)) v.toNat).pvtAlarm 6) s
    .next (if faults.any fun e => statusVout e.2 then s1.safeHold 10 else s1)

/-- The first ageing monitor whose slots fall short of their timing at 0.85 V (R532). -/
def State.shortMonitor (s : State) : Option Nat := (List.range 24).find? fun n => s.rb (Reg.PVT_AM n) 31 && s.rb (Reg.PVT_AM n) 15

/-- The lowest voltage at which every main core meets its margin: what the monitors give, in steps of 5 mV (R514). With no core powered
nothing bounds it; a negative margin of an ageing monitor asks for the most. -/
def State.coreVolts (s : State) : Nat × State :=
  if s.shortMonitor.isSome then (850, s)
  else if s.mode ≠ modePreflash ∧ ¬ (List.range 96).any s.coreUp then (650, s)
  else
    let (v, s1) := s.fresh
    (650 + 5 * (v.toNat % 41), s1)

/-- A target that finds the margin short at 0.85 V writes PVT_ALARM, with that monitor's reading (R514, R531). -/
def State.alarmShort (s : State) : State :=
  match s.shortMonitor with
  | some n => s.log .pvtAlarm (monUnit (112 + n)) (s.rd (Reg.PVT_AM n) + s.rf (Reg.PVT_AM n) 30 29 * 2 ^ 32)
  | none => s

/-- AVS_PERIOD: the target rises at once, and falls by at most 5 mV. -/
def execAvsPeriod (s : State) : Host.Outcome State Fault Refusal :=
  if ¬ s.spiServes then .next s
  else if ¬ s.lemamRuns then .next s.armAvs
  else
    let held : Bool := !s.rb Reg.PVT_AVS 0 || !s.rb Reg.PVT_PMBUS 0
    let (need, s1) := if held then (850, s) else s.alarmShort.coreVolts
    let now := s.rf Reg.PVT_AVS 25 16
    .next ((s1.wf Reg.PVT_AVS 25 16 (if need ≥ now then need else max need (now - 5))).armAvs)

/-! ### Links (R347, R581) -/

/-- SDSREF_LOSS: the links of the quadrant's ports go down; the reference of quadrant 0 also clocks the pair link. -/
def execSdsrefLoss (quadrant : BitVec 2) (s : State) : Host.Outcome State Fault Refusal :=
  let q := quadrant.toNat
  let mine := ((List.range 32).map (32 * q + ·)).foldl (fun s p => s.linkChange p false) s
  .next (if q = 0 then mine.pairLost else mine)

/-- LINK_RETRY: a transfer fails its CRC so many times in succession. On a mesh link 16 failures are LINK_FATAL; on the pair link they are
loss of the link. -/
def execLinkRetry (link : LinkId) (times : BitVec 8) (s : State) : Host.Outcome State Fault Refusal :=
  let n := times.toNat
  let entries := fun (s : State) (u : Word32) => (List.range n).foldl (fun s _ => s.log .linkRetry u 0) s
  match link with
  | .mesh x y =>
    let u := unitCode (if x.toNat < 4 then (if y.toNat < 4 then 0 else 2) else (if y.toNat < 4 then 1 else 3)) 0 12 (x.toNat + 8 * y.toNat)
    let s1 := entries s u
    .next (if n ≥ 16 then (s1.log .linkFatal u 0).safeHold 8 else s1)
  | .pair k =>
    if s.pairLink ≠ 2 then .next s
    else
      let s1 := (List.range n).foldl (fun s _ => s.count Reg.PAIR_RETRY_COUNT 32) (entries s (dieUnit 3 (136 + k.toNat)))
      .next (if n ≥ 16 then s1.pairLost else s1)

end Sys2Proof.Machine
end

