-- ==== Sys2Proof/Machine/Bus.lean ====
section
/-!
DEFINITION. Sys2Proof/Machine/Bus.lean: a read or a write of an address of R8 by any agent: the window and its privilege level, the
form of R9 and R11, the enclave checks of the target, and the register's own effect.
-/
namespace Sys2Proof.Machine

/-! ### Form (R9, R11) -/

/-- VI_DB and VI_QSTAT of a doorbell page: the queue, and whether it is the status word (R374). -/
def State.pageReg (s : State) (a : Nat) : Option (Nat × Bool) :=
  let v := (a - 0x30000000) / 0x1000
  let off := a % 0x1000
  let k := off % 0x800 / 8
  if off % 8 = 0 ∧ k < s.rf (Reg.VI_QRANGE v) 26 18 ∧ s.rb (Reg.VI_CFG v) 0 then
    some (s.rf (Reg.VI_QRANGE v) 17 0 + k, decide (0x800 ≤ off))
  else none

/-- The width in bytes of the register at an address, if one lies there. -/
def State.regBytes (s : State) (w : Win) (a : Nat) : Option Nat :=
  if w = .doorbell then (s.pageReg a).map fun _ => 8
  else if a = cmdStatus then some 4
  else (regFind a).map fun r => if r.1.wide then 8 else 4

/-- An access of a register window: the register itself at its width, or a hole of 4 or 8 bytes that touches no register. -/
def State.regForm (s : State) (w : Win) (a n : Nat) : Except AccessErr Bool :=
  if ¬ (n = 4 ∨ n = 8) ∨ a % n ≠ 0 then .error .form
  else
    match s.regBytes w a with
    | some k => if k = n then .ok true else .error .form
    | none =>
      let below := a % 8 = 4 ∧ s.regBytes w (a - 4) = some 8
      let above := n = 8 ∧ (s.regBytes w (a + 4)).isSome
      if below ∨ above then .error .form else .ok false

/-! ### Registers -/

/-- The ring whose registers hold an address; CMD_STATUS belongs to none. -/
def ringAt (a : Nat) : Nat := (a - 0x2000000) / 0x1000

/-- What a read of a register of an arbiter returns: FROZEN and IDLE as they are now, and the clocks of a back-pressure that lasts
(R145, R146, R157). -/
def State.readArb (s : State) (a : Nat) : Nat :=
  let n := (a - 0x51000000) / 0x10000
  if a = Reg.ARB_STATUS n then
    let frozen := s.arbFrozen n
    putFld (putFld (s.rd a) 1 1 (b2n frozen)) 0 0 (b2n (frozen && !s.beyond n))
  else if a = Reg.ARB_BP_CYCLES n then (s.rd a + s.bpRunning n) % 2 ^ 64
  else s.readBank a

/-- What a read of a register returns, and its effect. -/
def State.readReg (s : State) (who : Requester) (w : Win) (a : Nat) : Nat × State :=
  match w with
  | .gt =>
    (if a = Reg.GT_NOW then s.now else if a = Reg.GT_DLS then s.now / 4 % 2 ^ 32 else s.rd a, s)
  | .phase =>
    if a < 0x12001000 ∧ a % 0x100 = 8 then (s.baseValue ((a - 0x12000000) / 0x100), s)
    else if 0x12020000 ≤ a ∧ a < 0x12022000 ∧ a % 0x20 = 8 then s.readCapture ((a - 0x12020000) / 0x20)
    else if 0x12040000 ≤ a ∧ a < 0x12042000 ∧ a % 0x10 = 8 then s.readPinStatus ((a - 0x12040000) / 0x10)
    else if 0x12050000 ≤ a ∧ a < 0x12050100 ∧ a % 0x10 = 4 then (s.readBankStatus ((a - 0x12050000) / 0x10), s)
    else (s.rd a, s)
  | .pcc => (s.readPcc ((a - 0x11000000) / 0x1000) a, s)
  | .doorbell =>
    match s.pageReg a with
    | some (q, true) => (s.rd (Reg.QE_QSTAT (q / 65536) (q % 65536)), s)
    | _ => (0, s)
  | .arb => (s.readArb a, s)
  | .mc | .hs => (s.readBank a, s)
  | .router => (if a < 0x60010000 ∧ a % 16 = 0 then s.readSrcCfg ((a - 0x60000000) / 16) else s.rd a, s)
  | .corePriv => (s.readEnc who a, s)
  | _ => (s.rd a, s)

/-- A write of the phase engine's block. -/
def State.writePhase (s : State) (who : Requester) (a v : Nat) : State :=
  if a < 0x12001000 then
    let b := (a - 0x12000000) / 0x100
    match a % 0x100 with
    | 0x00 => s.writePhbCtrl b v
    | 0x10 => s.preset b v
    | 0x40 => s.softwarePos b v
    | 0x48 => s.writeRatio b v
    | _ => s.storeReg a v
  else if a < 0x12020000 then
    let n := (a - 0x12010000) / 0x40
    match a % 0x40 with
    | 0x00 => s.writeCmpCtrl n who v
    | 0x04 => s.writeCmpAction n who v
    | 0x10 => s.writeCmpValue n v
    | 0x30 => s.writeCmpStatus n v
    | _ => s.storeReg a v
  else if a < 0x12030000 then s.storeReg a v
  else if a < 0x12040000 then
    let n := (a - 0x12030000) / 0x40
    match a % 0x40 with
    | 0x00 | 0x04 => s.writeSdfSetup n a v
    | 0x18 => s.writeSdfPt n who v
    | _ => s.storeReg a v
  else if a < 0x12050000 then
    let p := (a - 0x12040000) / 0x10
    match a % 0x10 with
    | 0x0 => s.writePinCfg p who v
    | 0x4 => s.writePinOwner p who v
    | 0xC => s.writePinAct p who v
    | _ => s.storeReg a v
  else if a < 0x12060000 then
    let k := (a - 0x12050000) / 0x10
    match a % 0x10 with
    | 0x0 => s.writeVsel k v
    | 0x4 => s.writeBankStatus k v
    | _ => s.storeReg a v
  else if a % 0x10 = 0xC then s.storeReg a v
  else s.writeCtr ((a - 0x12060000) / 0x10) a v

/-- A write of a register: its own effect where it has one, else its fields by their types. -/
def State.writeReg (s : State) (who : Requester) (w : Win) (a v : Nat) (stamp : Stamp) : Option AccessErr × State :=
  match w with
  | .rings =>
    let j := ringAt a
    (none, match a % 0x1000 with
      | 0x000 => if j < 32 then s.writeCmdrBase j v else s
      | 0x008 => s.writeCmdrCfg j v
      | 0x00C => s.writeCmdrTail j v
      | 0x014 => s.writeCmdrStatus j v
      | _ => s)
  | .pcc => (none, s.writePcc ((a - 0x11000000) / 0x1000) who a v)
  | .phase => (none, s.writePhase who a v)
  | .gt =>
    (none,
      if a = Reg.GT_CTRL then s.writeGtCtrl v
      else if a = Reg.GT_RATE_SW then (s.storeReg a v).applyRate
      else if a = Reg.GT_SHUTTER then s.writeShutter v
      else if a = Reg.GT_SHUTTER_CTRL then s.writeShutterCtrl v
      else if a = Reg.GT_PMU_FREEZE then s.setFreeze (v.testBit 0)
      else s.storeReg a v)
  | .doorbell =>
    match s.pageReg a with
    | some (q, false) => s.doorbell q who v stamp
    | _ => (none, s)
  | .switch =>
    (none,
      if a < 0x40100000 then s.writePort ((a - 0x40000000) / 0x2000) a v
      else if 0x40300000 ≤ a then s.writePt who a v
      else if a = Reg.SW_CTRL then (s.storeReg a v).rearmAges
      else s.storeReg a v)
  | .arb =>
    let n := (a - 0x51000000) / 0x10000
    (none,
      if a = Reg.ARB_CTRL n then s.writeArbCtrl n v
      else if a % 0x10000 = 0x800 then s.writePmb (Reg.ARB_CTRL n) v
      else if bankReg a then s.writeBankReg (Reg.ARB_CTRL n) a v
      else if 0x1000 ≤ a % 0x10000 ∧ a % 16 = 0 ∧ ¬ hasHints n ((a % 0x10000 - 0x1000) / 16) then s.storeReg a (putFld v 0 0 0)
      else s.storeReg a v)
  | .mc =>
    let n := (a - 0x50000000) / 0x10000
    (none,
      if a % 0x10000 = 0x800 then s.writePmb (a - 0x800) v
      else if bankReg a then s.writeBankReg (Reg.MC_CFG n) a v
      else if a = Reg.MC_CTRL n then (s.storeReg a v).rearmIdle n
      else if a = Reg.MC_AGE_LIMIT n then (s.storeReg a v).send 0 (.agePromotion (Fin.ofNat 8 n))
      else s.storeReg a v)
  | .hs =>
    let h := (a - 0x52000000) / 0x10000
    (none,
      if a = Reg.HS_QUERY_ADDR h then s.hsQuery h who (BitVec.ofNat 64 v)
      else if a % 0x10000 = 0x800 then s.writePmb (Reg.HS_CFG h) v
      else if bankReg a then s.writeBankReg (Reg.HS_CFG h) a v
      else s.storeReg a v)
  | .router =>
    (none,
      if 0x60100000 ≤ a then s.swgen ((a - 0x60100000) / 0x1000) v
      else s.writeSrc ((a - 0x60000000) / 16) who (a % 16 = 8) v)
  | .corePriv => (none, s.writeEnc who a v)
  | .pair => (none, if a = Reg.PAIR_CFG then s.writePairCfg v else s.storeReg a v)
  | _ => (none, s.storeReg a v)

/-! ### Accesses -/

/-- Whether a requester may reach the window at an address (R160, R476). -/
def windowOpen (w : Win) (a : Nat) (who : Requester) : Bool :=
  w.admits a who.pl.toNat && (w != .rings || !decide (ringAt a < 32) || ringOpen (ringAt a) who)

/-- The agent of the coherence protocol that an agent is. -/
def cohOf : Agent → CohAgent
  | .core c => .core c
  | .phaseCore p => .phaseCore p
  | .queueEngine e => .engine e
  | .router => .router
  | .debug => .debug
  | _ => .lemam

/-- A request for a line that lies behind a home slice. -/
def busReq (who : Requester) (a : Nat) (stamp : Stamp) : CohReq :=
  { from_ := cohOf who.agent, line := paddr (lineOf a), pl := who.pl, eid := who.eid, stamp := stamp, dev := true, dirErr := .good }

/-- The port of ARB_PT by which an access enters from the mesh: that of its agent's quadrant (R133). -/
def meshPort : Agent → Nat
  | .core c => 10 + c.val / 24
  | .phaseCore p => 10 + p.val / 64
  | .queueEngine e => 10 + e.val
  | _ => 10

/-- A read of n bytes at an address. -/
def State.busRead (s : State) (who : Requester) (a n : Nat) (stamp : Stamp) : Except AccessErr Nat × State :=
  match s.window a with
  | none => (.error .noTarget, s)
  | some w =>
    if ¬ windowOpen w a who then (.error .priv, s)
    else
      match w with
      | .rom | .monSram | .dram =>
        if s.inDram a ∧ ¬ s.ertPermits who.eid.toNat a false then (.error .enclave, s)
        else if s.poisoned (lineOf a) then (.error .poison, s)
        else (.ok (s.bytes a n), s.send reqNs (.readOnce (busReq who a stamp)))
      | .sheet => (.ok (s.sheet.read (a - 0x3000000) n), s)
      | .localMem => s.outsideLocal ((a - 0x10000000) / 0x10000) (a % 0x10000) n none
      | .points =>
        if n = 8 ∧ a % 8 = 0 then
          let pt := (a - 0x20000000) / 16
          let (r, s1) := s.readPoint pt (agentPath who.agent) who.eid.toNat (a % 16 = 8)
          (r, s1.present 1 12 (meshPort who.agent) stamp pt 16 .pass)
        else (.error .form, s)
      | w =>
        match s.regForm w a n with
        | .error e => (.error e, s)
        | .ok false => (.ok 0, s)
        | .ok true =>
          let (v, s1) := s.readReg who w a
          (.ok v, s1)

/-- A write of n bytes at an address. -/
def State.busWrite (s : State) (who : Requester) (a n v : Nat) (stamp : Stamp) : Option AccessErr × State :=
  match s.window a with
  | none => (some .noTarget, s)
  | some w =>
    if ¬ windowOpen w a who then (some .priv, s)
    else
      match w with
      | .rom | .sheet => (some .target, s)
      | .monSram | .dram =>
        if s.inDram a ∧ ¬ s.ertPermits who.eid.toNat a true then (some .enclave, s)
        else
          let sh := a % 64
          let mask := BitVec.ofNat 64 ((2 ^ n - 1) * 2 ^ sh)
          (none, s.send reqNs (.writePartial (busReq who a stamp) mask (BitVec.ofNat 512 (v % 2 ^ (8 * n) * 2 ^ (8 * sh)))))
      | .localMem =>
        match s.outsideLocal ((a - 0x10000000) / 0x10000) (a % 0x10000) n (some v) with
        | (.ok _, s1) => (none, s1)
        | (.error e, s1) => (some e, s1)
      | .points =>
        if n = 8 ∧ a % 8 = 0 then
          let pt := (a - 0x20000000) / 16
          let at_ := fun (s : State) (w : Work) => s.present 1 12 (meshPort who.agent) stamp pt 16 w
          if a % 16 = 8 then (none, at_ s .pass)
          else
            match who.agent with
            | .core _ => (none, at_ s (.point (Fin.ofNat 131072 pt) who (.write (BitVec.ofNat 64 v) none)))
            | _ =>
              let (r, s1) := s.updatePoint pt (agentPath who.agent) who.eid.toNat (BitVec.ofNat 64 v) none
              (r, at_ s1 .pass)
        else (some .form, s)
      | w =>
        match s.regForm w a n with
        | .error e => (some e, s)
        | .ok false => (none, s)
        | .ok true => s.writeReg who w a v stamp

end Sys2Proof.Machine
end

