-- ==== Sys2Proof/Machine/CoreMem.lean ====
section
/-!
DEFINITION. Sys2Proof/Machine/CoreMem.lean: the loads and stores of a main core, its store buffer, the reserved pair and store errors
(R189, R190, R201 to R203, R214, R250, R251, R261 to R275).
-/
namespace Sys2Proof.Machine

/-! ### Pieces of an access -/

/-- The part of an access that lies in one line: its offset in the access, its physical address, its bytes and its type. -/
structure Piece where
  off : Nat
  pa : Nat
  bytes : Nat
  type : MemType
deriving DecidableEq, Repr

/-- A translated part cut at a line's end. -/
def linePieces (off : Nat) (p : Part) : List Piece :=
  let room := 64 - p.pa % 64
  if p.bytes ≤ room then [⟨off, p.pa, p.bytes, p.type⟩]
  else [⟨off, p.pa, room, p.type⟩, ⟨off + room, p.pa + room, p.bytes - room, p.type⟩]

/-- The pieces of an access, in address order. -/
def piecesOf (off : Nat) : List Part → List Piece
  | [] => []
  | p :: ps => linePieces off p ++ piecesOf (off + p.bytes) ps

/-- A store-buffer entry shares a byte with a piece. -/
def StoreEntry.overlaps (e : StoreEntry) (p : Piece) : Bool := decide (e.addr < p.pa + p.bytes ∧ p.pa < e.addr + e.bytes)

/-! ### Forwarding (R265) -/

/-- What the store buffer says to a load: nothing, the load's value, or that it must wait. -/
inductive Forward where
  | none
  | value (v : Nat)
  | wait
deriving DecidableEq, Repr

/-- The youngest entry that overlaps a load gives its value if it holds every byte and neither is DEV; else the load waits. -/
def Core.forward (c : Core) (ps : List Piece) : Forward :=
  match c.stores.reverse.find? fun e => ps.any e.overlaps with
  | none => .none
  | some e =>
    match ps with
    | [p] =>
      if e.addr ≤ p.pa ∧ p.pa + p.bytes ≤ e.addr + e.bytes ∧ e.type ≠ .dev ∧ p.type ≠ .dev then
        .value (e.data.toNat / 2 ^ (8 * (p.pa - e.addr)) % 2 ^ (8 * p.bytes))
      else .wait
    | _ => .wait

/-! ### Loads (R201, R202, R251) -/

/-- The code of a load that its target or home refuses (R10, R11, R251 step 8). -/
def AccessErr.loadCode : AccessErr → Nat
  | .enclave => 0x0A
  | .poison => 0x0B
  | _ => 5

/-- What a load finds in memory: its value, or the code of its fault, the offset of the piece that fails and the address of a poisoned
line, or nothing yet. -/
inductive Loaded where
  | value (v : Nat)
  | fault (code off : Nat) (poisoned : Option Nat)
  | wait
deriving DecidableEq, Repr

/-- A piece in WB or NC memory is read: from the core's own copy, or from what its home has sent (R228, R299). -/
def State.readPiece (s : State) (c pl slack : Nat) (p : Piece) : Loaded × State :=
  let nc := p.type != .wb
  let old := (s.core c).misses
  match s.lineFor c p.pa nc pl slack with
  | (.wait, s1) => (.wait, if (s1.core c).misses = old then s1 else s1.coreEvent c 11)
  | (.refused st, s1) => (.fault (refusedCode st) p.off none, s1)
  | (.data data poison, s1) =>
    if poison then (.fault 0x0B p.off (some p.pa), s1)
    else (.value (data.toNat / 2 ^ (8 * (p.pa % 64)) % 2 ^ (8 * p.bytes)), s1)

/-- Every piece is read, in order (R229); the first that fails gives the fault. -/
def State.readPieces (s : State) (c pl slack : Nat) : List Piece → Loaded × State
  | [] => (.value 0, s)
  | p :: ps =>
    match s.readPiece c pl slack p with
    | (.value v, s1) =>
      match s1.readPieces c pl slack ps with
      | (.value w, s2) => (.value (v + w * 2 ^ (8 * p.bytes)), s2)
      | r => r
    | r => r

/-- A DEV load is held until every older DEV store has drained, and every store older than the last FENCE.IO (R269). -/
def Core.devWaits (c : Core) : Bool := (c.stores.any fun e => e.type == .dev) || decide (c.drained < c.ioWait)

/-- A load at level pl of 2^size bytes: what it reads, written into the core by `put`. -/
def State.loadAt (s : State) (c va size : Nat) (put : Core → Nat → Core) : IRes :=
  let pl := (s.core c).pl.toNat
  let slack := (s.core c).slack pl
  match s.translate c pl va size .load false with
  | (.error f, s1) => .fault s1 f
  | (.ok parts, s1) =>
    let x := s1.core c
    let ps := piecesOf 0 parts
    let dev := ps.any fun p => p.type == .dev
    let fwd := x.forward ps
    let compare := fun (s : State) (k : State → IRes) =>
      match s.compareAccess c pl va (2 ^ size) .load with
      | .error s2 => IRes.done s2
      | .ok s2 => k s2
    let finish := fun (v : Nat) (s : State) => IRes.next (s.setCore c (put (s.core c) v))
    if fwd = .wait ∨ (dev ∧ x.devWaits) then .wait (s1.kickDrain c 1)
    else
      match fwd with
      | .value v => compare s1 (finish v)
      | _ =>
        if dev then
          compare s1 fun s2 =>
            match s2.busRead (x.requester c) ((ps.head?.map (·.pa)).getD va) (2 ^ size) (s.stampWith slack) with
            | (.error e, s3) => .fault s3 ⟨e.loadCode, va, 0⟩
            | (.ok v, s3) => finish v (s3.coreEvent c 18)
        else
          match s1.readPieces c pl slack ps with
          | (.wait, s2) => .wait s2
          | (.value v, s2) => compare s2 (finish v)
          | (.fault code off bad, s2) =>
            compare s2 fun s3 =>
              let s4 := match bad with | some a => s3.log .poisonUse (s3.unitCore c) a | none => s3
              .fault s4 ⟨code, (va + off) % 2 ^ 64, 0⟩

/-! ### Interrupt entry (R171 to R174, R179) -/

/-- The read of an interrupt's entry at IVBAR_PLt + 8v, made as a load at level t that does not wait (assumption 37): from the memory that
homes serve, or from any other window that level t may read (R173). -/
def State.readVector (s : State) (c t v : Nat) : Except Nat Nat × State :=
  let a := ((s.core c).sr (Sr.IVBAR t) + 8 * v) % 2 ^ 64
  let entry := fun (e : Nat) => if e % 4 = 0 then Except.ok e else .error a
  match s.translate c t a 3 .load false with
  | (.error _, s1) => (.error a, s1)
  | (.ok [p], s1) =>
    if p.type = .dev then
      match s1.busRead { (s1.core c).requester c with pl := BitVec.ofNat 2 t } p.pa 8 (s1.stampWith ((s1.core c).slack t)) with
      | (.error _, s2) => (.error a, s2)
      | (.ok e, s2) => (entry e, s2)
    else if s1.readRefused c p.pa then (.error a, s1)
    else
      let (data, poison) := s1.coreLine c p.pa
      let s2 := s1.ask c p.pa (p.type != .wb) t ((s1.core c).slack t)
      if poison then (.error a, s2.log .poisonUse (s.unitCore c) p.pa)
      else (entry (fld (data.toNat >>> (8 * (p.pa % 64))) 63 0), s2)
  | (.ok _, s1) => (.error a, s1)

/-- A takeable interrupt is taken (R171 to R173, R179): acknowledged in its view, or, for a view below 3 while EID is not 0, recorded
in MCTL and left pending. -/
def State.takeInterrupt (s : State) (c x v : Nat) : State :=
  let s0 := s.syncCycles c
  let latent := !(s0.core c).latent.isEmpty
  let k := (s0.core c).commitAll
  let enclave := k.eid ≠ 0 ∧ x ≠ 3
  let t := if k.eid ≠ 0 then 3 else x
  let k1 := k.enter t (causeWord 0 v true latent k.pl.toNat x) 0 0 k.pc.toNat
  let k2 :=
    if enclave then k1.setSr Sr.MCTL (if x = 1 then putFld (k1.sr Sr.MCTL) 6 2 (v / 16 + 1) else putFld (k1.sr Sr.MCTL) 11 7 (v / 16 + 1))
    else
      let p := Sr.PEND x (v / 64)
      (k1.setSr p (putFld (k1.sr p) (v % 64) (v % 64) 0)).setSr (Sr.ISL x) (putFld (k1.sr (Sr.ISL x)) (v / 16) (v / 16) 1)
  let k3 := if v = 254 then { k2 with skidding := false } else k2
  let s1 := (s0.setCore c k3).coreEvent c 21
  match s1.readVector c t v with
  | (.error a, s2) => (((s2.entryFault c t a k.pc.toNat).recognise c).stepDone c)
  | (.ok target, s2) => ((s2.arriveAt c t target).recognise c).stepDone c

/-- The core runs, or waits in WFI, and may take an interrupt, which does not wait for older stores (R174); debug may mask it (R542). -/
def State.mayInterrupt (s : State) (c : Nat) : Bool :=
  let x := s.core c
  s.coreUp c && (x.run == .running || x.run == .waiting) && x.haltReq.isNone && x.tlbi.isNone &&
    !s.rb (Reg.ENC_STATUS c) 2 && s.modes.refclk && !(x.resumed && s.rb (Reg.DBG_CTRL c) 3 && s.modes.safelightUp)

/-- INTERRUPT_ENTRY: the interrupt that is takeable at this boundary is taken (R179). -/
def execInterruptEntry (c : CoreId) (s : State) : Host.Outcome State Fault Refusal :=
  let s1 := s.setCore c.val (s.core c.val).latentEnd
  match (s1.core c.val).takeable with
  | some (x, v) => if s1.mayInterrupt c.val then .next (s1.takeInterrupt c.val x v) else .next s1
  | none => .next s1

/-! ### The loads -/

/-- log2 of the bytes of a load, and its result. -/
def loadSize : LoadFn → Nat
  | .lb | .lbu => 0
  | .lh | .lhu => 1
  | .lw | .lwu => 2
  | .ld => 3
def loadResult (fn : LoadFn) (v : Nat) : Word64 :=
  match fn with
  | .lb => (BitVec.ofNat 8 v).signExtend 64
  | .lh => (BitVec.ofNat 16 v).signExtend 64
  | .lw => (BitVec.ofNat 32 v).signExtend 64
  | .lbu | .lhu | .lwu | .ld => BitVec.ofNat 64 v

/-- The effective address of a load or store (R201). -/
def Core.effective (c : Core) (rs1 : GReg) (imm : BitVec 16) : Nat := (c.greg rs1 + imm.signExtend 64).toNat

/-- LOAD: LB to LD. -/
def execLoad (c : CoreId) (fn : LoadFn) (rd rs1 : GReg) (imm : BitVec 16) (s : State) : Host.Outcome State Fault Refusal :=
  .next (s.runInstr c.val false fun s =>
    s.loadAt c.val ((s.core c.val).effective rs1 imm) (loadSize fn) fun x v => x.setG rd (loadResult fn v))

/-- log2 of the bytes of a floating-point load or store. -/
def fpSize : FpFmt → Nat
  | .s => 2
  | .d => 3

/-- FLW, which writes bits [63:32] zero, and FLD. -/
def execFlwFld (c : CoreId) (fmt : FpFmt) (rd : FReg) (rs1 : GReg) (imm : BitVec 16) (s : State) :
    Host.Outcome State Fault Refusal :=
  .next (s.runInstr c.val false fun s =>
    s.loadAt c.val ((s.core c.val).effective rs1 imm) (fpSize fmt) fun x v => x.setF rd (BitVec.ofNat 64 v))

/-! ### Store errors (R189, R190, R275) -/

/-- The causes of SERR_INFO. -/
def AccessErr.storeCause : AccessErr → Nat
  | .noTarget => 1
  | .form => 2
  | .priv => 3
  | .enclave => 4
  | .target | .poison => 5

/-- A power-down of the core has been commanded: store errors of its drain are recorded, and no vector is delivered (R273). -/
def State.gating (s : State) (c : Nat) : Bool :=
  decide (s.mode = modeStandby) || s.lemam.waiting.any fun w => decide (w.2 = 256 + c ∨ w.2 = 512 + c)

/-- A store of a main core has failed: SERR_ADDR and SERR_INFO, the contact sheet, and vector 255. -/
def State.storeError (s : State) (c addr cause pl eid size : Nat) : State :=
  let x := s.core c
  let i := x.sr Sr.SERR_INFO
  let x1 :=
    if i.testBit 0 then x.setSr Sr.SERR_INFO (putFld (putFld i 1 1 1) 31 24 (min 255 (fld i 31 24 + 1)))
    else (x.setSr Sr.SERR_ADDR addr).setSr Sr.SERR_INFO
      (1 + 2 * fld i 1 1 + cause * 2 ^ 2 + pl * 2 ^ 8 + eid * 2 ^ 10 + size * 2 ^ 16)
  let s1 := (s.setCore c x1).log .storeError (s.unitCore c) addr
  let view := if pl = 3 ∨ eid ≠ 0 ∨ (x.ef Sr.MCTL).testBit 1 then 3 else 2
  if s.gating c then s1 else s1.pend c view 255

/-! ### The store buffer (R264, R266) -/

/-- The core asks for a line alone: ReadUnique from I, Upgrade from S or O (R298). A core that is being purged asks for nothing. -/
def State.own (s : State) (c line pl eid slack : Nat) : State :=
  let q : CohReq := { from_ := .core (coreId c), line := paddr line, pl := BitVec.ofNat 2 pl, eid := BitVec.ofNat 6 eid
                      stamp := s.stampWith slack, dev := false, dirErr := .good }
  if s.purging c then s
  else
    match (s.core c).line line with
    | none =>
      (s.setLine c line (some { st := .imAD, data := 0, poison := false, acks := 0, granted := false, grantDirty := false })).send
        reqNs (.readUnique q)
    | some l =>
      match l.st with
      | .s => (s.setLine c line (some { l with st := .smAD })).send reqNs (.upgrade q)
      | .o => (s.setLine c line (some { l with st := .omAD })).send reqNs (.upgrade q)
      | _ => s

/-- The cause for which a store's target window refuses it before its memory is reached (R10, R160). -/
def State.storeBar (s : State) (e : StoreEntry) : Option Nat :=
  match s.window e.addr with
  | none => some 1
  | some w => if ¬ w.admits e.addr e.pl.toNat then some 3 else none

/-- Ownership requests for the line of the oldest entry and of up to 8 entries ahead of their turn. -/
def State.ownAhead (s : State) (c : Nat) : State :=
  ((s.core c).stores.take 9).foldl (fun s e =>
    if e.type = .wb ∧ (s.storeBar e).isNone ∧ (tabFind (s.core c).refused (lineOf e.addr)).isNone then
      s.own c (lineOf e.addr) e.pl.toNat e.eid.toNat e.slack.toNat
    else s) s

/-- A WB store becomes visible: the line, which the core holds alone, and every reader's view of it change (R261). -/
def State.visible (s : State) (c pa bytes : Nat) (v : Nat) : State :=
  let sh := pa % 64
  let s1 := (s.losesReservation (lineOf pa) (some c)).setBytes pa (toBytes bytes v)
  match (s1.core c).line pa with
  | some l =>
    let mask := BitVec.ofNat 64 ((2 ^ bytes - 1) * 2 ^ sh)
    s1.setLine c pa (some { l with st := .m, data := mergeLine l.data (BitVec.ofNat 512 (v % 2 ^ (8 * bytes) * 2 ^ (8 * sh))) mask })
  | none => s1

/-- The entry at the front waits for the Comp of its write. -/
def State.markSent (s : State) (c : Nat) : State :=
  let x := s.core c
  match x.stores with
  | e :: es => s.setCore c { x with stores := { e with sent := true } :: es }
  | [] => s

/-- The entry at the front has failed at its target and leaves. -/
def State.failFront (s : State) (c : Nat) (e : StoreEntry) (cause : Nat) : State :=
  ((s.storeError c e.addr cause e.pl.toNat e.eid.toNat e.size).popStore c 0).ownAhead c

/-- The core whose purge a DEV store sets (R432). -/
def State.purgeOf (s : State) (e : StoreEntry) : Option Nat :=
  if s.window e.addr = some .corePriv ∧ e.addr % 0x10000 = 0x8000 ∧ e.data.getLsbD 1 then some ((e.addr - 0x61000000) / 0x10000) else none

/-- The oldest entry is made visible, or sent, or its line is asked for (R266). -/
def State.drainFront (s : State) (c : Nat) : State :=
  let x := s.core c
  match x.stores with
  | [] => s
  | e :: _ =>
    if e.sent then s
    else
      match s.storeBar e with
      | some k => s.failFront c e k
      | none =>
        match e.type with
        | .wb =>
          match tabFind x.refused (lineOf e.addr) with
          | some st =>
            (s.setCore c { x with refused := tabErase x.refused (lineOf e.addr) }).failFront c e (if st = .denied then 4 else 5)
          | none =>
            let unique : Bool := match x.line e.addr with | some l => l.st.unique | none => false
            if ¬ unique then s.ownAhead c
            else if s.purging c then s
            else ((s.visible c e.addr e.bytes e.data.toNat).popStore c 0).ownAhead c
        | .nc =>
          if inRom e.addr then s.failFront c e 5
          else
            let sh := e.addr % 64
            let q : CohReq := { from_ := .core (coreId c), line := paddr (lineOf e.addr), pl := e.pl, eid := e.eid
                                stamp := s.stampWith e.slack.toNat, dev := false, dirErr := .good }
            (s.markSent c).send reqNs (.writePartial q (BitVec.ofNat 64 ((2 ^ e.bytes - 1) * 2 ^ sh))
              (BitVec.ofNat 512 (e.data.toNat % 2 ^ (8 * e.bytes) * 2 ^ (8 * sh))))
        | .dev =>
          let who : Requester := { agent := .core (coreId c), pl := e.pl, eid := e.eid }
          let s0 := s.markSent c
          match s0.busWrite who e.addr e.bytes (e.data.toNat % 2 ^ (8 * e.bytes)) (s.stampWith e.slack.toNat) with
          | (some err, s1) => s1.failFront c e err.storeCause
          | (none, s1) =>
            let s2 := s1.coreEvent c 18
            match s.purgeOf e with
            | some t => s2.editEnc fun y => { y with purgers := y.purgers ++ [(t, c)] }
            | none => if s.inHomed e.addr ∨ isPointValue e.addr then s2 else (s2.popStore c 0).ownAhead c

/-- STORE_DRAIN. -/
def execStoreDrain (c : CoreId) (s : State) : Host.Outcome State Fault Refusal := .next (s.drainFront c.val)

/-! ### Stores (R201 to R203) -/

/-- A store of 2^size bytes: it passes its precise checks and enters the buffer, or waits for room in it (R231). -/
def State.storeAt (s : State) (c va size : Nat) (data : Word64) : IRes :=
  let pl := (s.core c).pl.toNat
  let slack := (s.core c).slack pl
  match s.translate c pl va size .store false with
  | (.error f, s1) => .fault s1 f
  | (.ok parts, s1) =>
    let ps := piecesOf 0 parts
    if 24 < (s1.core c).stores.length + ps.length then .wait (s1.kickDrain c 1)
    else
      match s1.compareAccess c pl va (2 ^ size) .store with
      | .error s2 => .done s2
      | .ok s2 =>
        let s2 := if 24 ≤ (s2.core c).stores.length + ps.length then s2.syncCycles c else s2
        let x := s2.core c
        let new := ps.map fun p =>
          ({ addr := p.pa, bytes := p.bytes, data := BitVec.ofNat 64 (data.toNat / 2 ^ (8 * p.off) % 2 ^ (8 * p.bytes)), type := p.type
             pl := x.pl, eid := BitVec.ofNat 6 x.eid, slack := BitVec.ofNat 32 slack, size := size, sent := false } : StoreEntry)
        let s3 := s2.setCore c { x with stores := x.stores ++ new, refused := if x.stores.isEmpty then [] else x.refused }
        .next ((s3.ownAhead c).kickDrain c 1)

def storeSize : StoreFn → Nat
  | .sb => 0
  | .sh => 1
  | .sw => 2
  | .sd => 3

/-- STORE: SB to SD. -/
def execStore (c : CoreId) (fn : StoreFn) (rs2 rs1 : GReg) (imm : BitVec 16) (s : State) : Host.Outcome State Fault Refusal :=
  .next (s.runInstr c.val false fun s =>
    s.storeAt c.val ((s.core c.val).effective rs1 imm) (storeSize fn) ((s.core c.val).greg rs2))

/-- FSW, FSD. -/
def execFswFsd (c : CoreId) (fmt : FpFmt) (rs2 : FReg) (rs1 : GReg) (imm : BitVec 16) (s : State) : Host.Outcome State Fault Refusal :=
  .next (s.runInstr c.val false fun s =>
    s.storeAt c.val ((s.core c.val).effective rs1 imm) (fpSize fmt) ((s.core c.val).freg rs2))

/-! ### The reserved pair (R214, R270 to R272) -/

/-- The other line of a granule. -/
def companionOf (line : Nat) : Nat := if line / 64 % 2 = 0 then line + 64 else line - 64

/-- The companion line is asked for shared, unless the core holds it or has asked for it (R270). -/
def State.askCompanion (s : State) (c pa pl slack : Nat) : State := s.ask c (companionOf (lineOf pa)) false pl slack

/-- The companion line is on its way out of the core's caches, so that it can be asked for only once WBAck has come (R299). -/
def State.companionLeaves (s : State) (c pa : Nat) : Bool :=
  match (s.core c).line (companionOf (lineOf pa)) with
  | some l => l.st == .miA || l.st == .oiA || l.st == .iiA
  | none => false

/-- The reservation is taken as the LDRES retires, with the addressed line held alone: writes to the companion line are tracked if it is
held, or once its request has been ordered (R270); 4,096 cycles are counted from now (R271). -/
def State.reserve (s : State) (c pa pl slack : Nat) : State :=
  let s1 := s.askCompanion c pa pl slack
  let held : Bool := match (s1.core c).line (companionOf (lineOf pa)) with
    | some l => l.st.valid || l.ordered
    | none => false
  (s1.setCore c { s1.core c with reserved := some { line := lineOf pa, at_ := s.clk, companion := held, issued := false } }).send
    (s.nsOf c 4096) (.reservationTimeout (coreId c))

/-- LDRES.W, LDRES.D: the line is held alone before the load is performed, and asked for if it is not (R228); a refusal of the home is
reported (R299). -/
def execLdres (c : CoreId) (double : Bool) (rd rs1 : GReg) (s : State) : Host.Outcome State Fault Refusal :=
  .next (s.runInstr c.val false fun s =>
    let n := c.val
    let x := s.core n
    let va := (x.greg rs1).toNat
    let size := if double then 3 else 2
    let pl := x.pl.toNat
    let slack := x.slack pl
    match s.translate n pl va size .load true with
    | (.error f, s1) => .fault s1 f
    | (.ok parts, s1) =>
      let ps := piecesOf 0 parts
      let pa := (ps.head?.map (·.pa)).getD va
      let fwd := (s1.core n).forward ps
      let ask := fun (s : State) => (s.own n (lineOf pa) pl x.eid slack).askCompanion n pa pl slack
      let held : Option CLine := ((s1.core n).line pa).filter fun l => l.st.unique
      if fwd = .wait ∨ s1.companionLeaves n pa then .wait (s1.kickDrain n 1)
      else
        match held, tabFind (s1.core n).refused (lineOf pa) with
        | none, some st =>
          let y := s1.core n
          .fault (s1.setCore n { y with refused := tabErase y.refused (lineOf pa) }) ⟨refusedCode st, va, 0⟩
        | none, none => .wait (ask s1)
        | some l, _ =>
          match s1.compareAccess n pl va (2 ^ size) .load with
          | .error s2 => .done s2
          | .ok s2 =>
            let put := fun (s : State) (v : Nat) =>
              let w : Word64 := if double then BitVec.ofNat 64 v else (BitVec.ofNat 32 v).signExtend 64
              IRes.next ((s.setCore n ((s.core n).setG rd w)).reserve n pa pl slack)
            match fwd with
            | .value v => put s2 v
            | _ =>
              if l.poison then .fault (s2.log .poisonUse (s2.unitCore n) pa) ⟨0x0B, va, 0⟩
              else put s2 (l.data.toNat / 2 ^ (8 * (pa % 64)) % 2 ^ (8 * 2 ^ size)))

/-- RESERVATION_TIMEOUT: 4,096 cycles have passed since the LDRES, and no STCOND has issued. -/
def execReservationTimeout (c : CoreId) (s : State) : Host.Outcome State Fault Refusal :=
  let x := s.core c.val
  match x.reserved with
  | some r =>
    if ¬ r.issued ∧ 4096 ≤ r.cycles + s.cyclesIn c.val (s.clk - r.at_) then .next (s.setCore c.val { x with reserved := none }) else .next s
  | none => .next s

/-- STCOND.W, STCOND.D: once every older store has drained, it stores if the reservation covers the address and the line is held alone. -/
def execStcond (c : CoreId) (double : Bool) (rd rs1 rs2 : GReg) (s : State) : Host.Outcome State Fault Refusal :=
  .next (s.runInstr c.val false fun s =>
    let n := c.val
    let x0 := s.core n
    let va := (x0.greg rs1).toNat
    let size := if double then 3 else 2
    let pl := x0.pl.toNat
    match s.translate n pl va size .store true with
    | (.error f, s1) => .fault s1 f
    | (.ok parts, s1) =>
      let x := s1.core n
      let pa := ((piecesOf 0 parts).head?.map (·.pa)).getD va
      let barred : Bool := match s1.window pa with | some w => !w.admits pa pl | none => true
      let issue := s1.setCore n { x with reserved := x.reserved.map fun r => { r with issued := true } }
      let first := (x.reserved.map (·.issued)) == some false
      if barred then .fault s1 ⟨5, va, 0⟩
      else if ¬ x.stores.isEmpty then .wait (issue.kickDrain n 1)
      else
        let beyond_ : Bool := match x.reserved with | some r => decide (r.line / 128 = pa / 128) | none => false
        let end_ := fun (s : State) (failed : Bool) =>
          let s1 := if failed then s.coreEvent n 19 else s
          IRes.next (s1.setCore n ({ s1.core n with reserved := none, refused := [] }.setG rd (BitVec.ofNat 64 (b2n failed))))
        let cmp := fun (k : State → IRes) =>
          match s1.compareAccess n pl va (2 ^ size) .store with
          | .error s2 => .done s2
          | .ok s2 => k s2
        if ¬ beyond_ then cmp fun s2 => end_ s2 true
        else
          let refused := if first then none else tabFind x.refused (lineOf pa)
          match refused with
          | some st => .fault (s1.setCore n { x with reserved := none, refused := [] }) ⟨if st = .denied then 0x0A else 5, va, 0⟩
          | none =>
            match x.line pa with
            | some l =>
              if l.st.unique then
                cmp fun s2 =>
                  if l.poison then
                    .fault ((s2.setCore n { s2.core n with reserved := none }).log .poisonUse (s2.unitCore n) pa) ⟨0x0B, va, 0⟩
                  else end_ (s2.visible n pa (2 ^ size) ((x.greg rs2).toNat % 2 ^ (8 * 2 ^ size))) false
              else .wait ((if first then issue.setCore n { issue.core n with refused := [] } else issue).own n (lineOf pa) pl x.eid (x.slack pl))
            | none =>
              .wait ((if first then issue.setCore n { issue.core n with refused := [] } else issue).own n (lineOf pa) pl x.eid (x.slack pl)))

/-! ### Register writes -/

/-- REGISTER_WRITE: a write of a register that has no row of its own, or of any other by its address. One that a main core makes and that
is not performed is a store error of that core; other requesters' chapters report theirs. -/
def execRegisterWrite (who : Requester) (addr : PAddr) (size : BitVec 2) (value : Word64) (s : State) :
    Host.Outcome State Fault Refusal :=
  match s.busWrite who addr.toNat (2 ^ size.toNat) (value.toNat % 2 ^ (8 * 2 ^ size.toNat)) (s.whoStamp who 12 (ptPort who.agent)) with
  | (some e, s1) =>
    match who.agent with
    | .core c => .next (s1.storeError c.val addr.toNat e.storeCause who.pl.toNat who.eid.toNat size.toNat)
    | _ => .next s1
  | (none, s1) => .next s1

end Sys2Proof.Machine
end

