-- ==== Sys2Proof/Machine/Answers.lean ====
section
/-!
DEFINITION. Sys2Proof/Machine/Answers.lean: what comes back from a home or an owner to the agent that asked: data and completions
(R296 to R301); a doorbell and a point access as their sender
meets them (R376, R415).
-/
namespace Sys2Proof.Machine

/-- A caching agent's line after an answer; a store that waits for it goes on. -/
def State.answerLine (s : State) (c line : Nat) (x : Option CLine) : State := (s.setLine c line x).kickDrain c 1

/-- What comes for a core's line goes to the load or fetch that waits for it (R299). -/
def State.giveMiss (s : State) (c line : Nat) (nc : Bool) (g : MissGot) : State := s.setCore c ((s.core c).gets (missKey line nc) g)

/-- The requester's Comp, which ends an exclusive grant at the home. -/
def State.endGrant (s : State) (c line : Nat) : State := s.send rspNs (.compToHome (.core (coreId c)) (paddr line))

/-- The answer to a phase core's WINDOW read. -/
def lineAnswer (data : Line) (poison : Bool) : Except AccessErr Line := if poison then .error .poison else .ok data

/-- DATA_SHARED. Data read once enters no cache. -/
def execDataShared (dst : CohAgent) (line : PAddr) (data : Line) (poison : Bool) (once : Bool) (s : State) :
    Host.Outcome State Fault Refusal :=
  let a := lineOf line.toNat
  match dst with
  | .core c =>
    let got := s.giveMiss c.val a once (.data data poison)
    if once then .next got
    else
      match (s.core c.val).line a with
      | some l =>
        match l.st with
        | .isD => .next (got.answerLine c.val a (some { l with st := .s, data := data, poison := poison }))
        | .isDI => .next (got.answerLine c.val a none)
        | _ => .next s
      | none => .next s
  | .phaseCore p => .next (s.pcWindow p.val a (lineAnswer data poison))
  | .home => .next (s.dataHome a data poison false)
  | .engine _ | .lemam | .router | .debug => .next s

/-- DATA_UNIQUE. -/
def execDataUnique (dst : CohAgent) (line : PAddr) (data : Line) (poison : Bool) (acks : BitVec 7) (s : State) :
    Host.Outcome State Fault Refusal :=
  let a := lineOf line.toNat
  match dst with
  | .core c =>
    match (s.core c.val).line a with
    | some l =>
      let l1 := { l with data := data, poison := poison }
      let got := s.giveMiss c.val a false (.data data poison)
      match l.st with
      | .isD => .next ((got.answerLine c.val a (some { l1 with st := .e })).endGrant c.val a)
      | .isDI => .next ((got.answerLine c.val a none).endGrant c.val a)
      | .imAD => .next (s.granted c.val a l1 acks.toNat)
      | _ => .next s
    | none => .next s
  | .home => .next (s.dataHome a data poison false)
  | .phaseCore _ | .engine _ | .lemam | .router | .debug => .next s

/-- DATA_DIRTY. -/
def execDataDirty (dst : CohAgent) (line : PAddr) (data : Line) (poison : Bool) (acks : BitVec 7) (s : State) :
    Host.Outcome State Fault Refusal :=
  let a := lineOf line.toNat
  match dst with
  | .core c =>
    match (s.core c.val).line a with
    | some l =>
      match l.st with
      | .imAD => .next (s.granted c.val a { l with data := data, poison := poison, grantDirty := true } acks.toNat)
      | _ => .next s
    | none => .next s
  | .home => .next (s.dataHome a data poison true)
  | .phaseCore _ | .engine _ | .lemam | .router | .debug => .next s

/-- The home has refused a request for a line, which then fails the store or the STCOND that asked (R299). -/
def State.refusedLine (s : State) (c line : Nat) (x : Option CLine) (st : CohStatus) : State :=
  let s1 := s.setLine c line x
  (s1.setCore c { s1.core c with refused := tabInsert line st (tabErase (s1.core c).refused line) }).kickDrain c 1

/-- The Comp of a core's NC or DEV write: its entry leaves the buffer, and a write that was not performed is a store error. -/
def State.writeDone (s : State) (c : Nat) (st : CohStatus) : State :=
  match (s.core c).stores with
  | e :: _ =>
    if ¬ e.sent then s
    else
      match st with
      | .ok | .poison => (s.popStore c 0).ownAhead c
      | .denied => s.failFront c e 4
      | .error => s.failFront c e 5
  | [] => s

/-- The home has refused a read that enters no cache. -/
def State.refusedOnce (s : State) (c line : Nat) (st : CohStatus) : State :=
  if st = .ok then s else s.giveMiss c line true (.refused st)

/-- COMP. -/
def execComp (dst : CohAgent) (line : PAddr) (status : CohStatus) (acks : BitVec 7) (write : Bool) (prior : Word64) (s : State) :
    Host.Outcome State Fault Refusal :=
  let a := lineOf line.toNat
  match dst with
  | .core c =>
    if write then .next (s.writeDone c.val status)
    else
      match (s.core c.val).line a with
      | some l =>
        match l.st with
        | .smAD => if status = .ok then .next (s.granted c.val a l acks.toNat) else .next (s.refusedLine c.val a (some { l with st := .s, acks := 0 }) status)
        | .omAD => if status = .ok then .next (s.granted c.val a l acks.toNat) else .next (s.refusedLine c.val a (some { l with st := .o, acks := 0 }) status)
        | .imAD => if status = .ok then .next s else .next (s.refusedLine c.val a none status)
        | .isD | .isDI => if status = .ok then .next s else .next ((s.giveMiss c.val a false (.refused status)).answerLine c.val a none)
        | _ => .next (s.refusedOnce c.val a status)
      | none => .next (s.refusedOnce c.val a status)
  | .phaseCore p =>
    .next (s.pcWindow p.val a (match status with | .ok => .ok 0 | .poison => .error .poison | .denied => .error .enclave | .error => .error .target))
  | .engine e => .next (s.engineComp e.val a status)
  | .router => .next (s.postAnswer a status prior)
  | .lemam | .debug | .home => .next s

/-- DOORBELL. A main core's that carries another EID is a store error of that core (R376, R189). -/
def execDoorbell (q : QueueId) (who : Requester) (value : Word64) (stamp : Stamp) (s : State) : Host.Outcome State Fault Refusal :=
  match s.doorbell q.val who value.toNat stamp, who.agent, s.viOfQueue q.val with
  | (some e, s1), .core c, some v =>
    .next (s1.storeError c.val (s.doorbellAddr v q.val) e.storeCause who.pl.toNat who.eid.toNat 3)
  | (_, s1), _, _ => .next s1

/-- A main core's store to a point has been performed or refused: the entry of the store buffer that made it is done with (assumption 124). -/
def State.pointStored (s : State) (c n : Nat) (who : Requester) (refused : Option AccessErr) : State :=
  match (s.core c).stores.head? with
  | some e =>
    if e.sent ∧ e.addr = pointAddr n then
      match refused with
      | some r => s.failFront c e r.storeCause
      | none => (s.popStore c 0).ownAhead c
    else match refused with
      | some r => s.storeError c (pointAddr n) r.storeCause who.pl.toNat who.eid.toNat 3
      | none => s
  | none =>
    match refused with
    | some r => s.storeError c (pointAddr n) r.storeCause who.pl.toNat who.eid.toNat 3
    | none => s

/-- POINT_ACCESS: one granted access. A refused store of a main core is a store error of that core (R415). -/
def execPointAccess (pt : PointId) (who : Requester) (access : PointAccess) (bad : Bool) (s : State) :
    Host.Outcome State Fault Refusal :=
  let n := pt.val
  let s1 := s.pointBad n bad
  match access with
  | .readValue => .next (s1.pointRead n who false)
  | .readStatus => .next (s1.pointRead n who true)
  | .write v st =>
    let s2 := s1.pointWrite n who v st
    let refused := (s1.updatePoint n (agentPath who.agent) who.eid.toNat v st).1
    match who.agent with
    | .core c => .next (s2.pointStored c.val n who refused)
    | _ => .next s2

end Sys2Proof.Machine
end

