-- ==== Sys2Proof/Machine/SysIsa.lean ====
section
/-!
DEFINITION. Sys2Proof/Machine/SysIsa.lean: the system registers as MFSR and MTSR reach them (R160 to R168, R180, R184, R217, R551) and
TLB maintenance (R219, R258, R259).
-/
namespace Sys2Proof.Machine

/-! ### Reading -/

/-- A performance-counter register (R551). -/
def srPmu (n : Nat) : Bool := decide (0x200 ≤ n ∧ n < 0x300)

/-- A system register as MFSR reads it; a write-only one reads 0. -/
def State.getSr (s : State) (c n : Nat) : Nat :=
  if n = Sr.COREID then s.coreIdReg c
  else if n = Sr.PSTATE then (s.core c).pstate
  else if n = Sr.EOI 1 ∨ n = Sr.EOI 2 ∨ n = Sr.EOI 3 then 0
  else s.sr c n

/-- Why an MFSR is refused (R160, R551). -/
def Core.mfsrFault (x : Core) (n : Nat) : Option CFault :=
  match srInfo n with
  | none => some illegal
  | some i =>
    if srPmu n ∧ (x.sr Sr.PMU_CTRL).testBit 1 then none
    else if x.pl.toNat < i.read then some privFault else none

/-- MFSR. -/
def execMfsr (c : CoreId) (rd : GReg) (number : BitVec 12) (s : State) : Host.Outcome State Fault Refusal :=
  .next (s.runInstr c.val false fun s =>
    match (s.core c.val).mfsrFault number.toNat with
    | some f => .fault s f
    | none =>
      let s1 := if srPmu number.toNat then s.syncCycles c.val else s
      .next (s1.setCore c.val ((s1.core c.val).setG rd (BitVec.ofNat 64 (s1.getSr c.val number.toNat)))))

/-! ### Writing -/

/-- The least level that may write a register. The counter registers are their owner view's; PL0 writes none of them (R551). -/
def Core.writeLevel (x : Core) (n level : Nat) : Nat := if srPmu n then x.pmuView else level

/-- Why an MTSR is refused: ILLEGAL, PRIV, or TRAP of HCTL.TS1. -/
def Core.mtsrFault (x : Core) (n : Nat) : Option CFault :=
  match srInfo n with
  | none => some illegal
  | some i =>
    match i.write with
    | none => some illegal
    | some level =>
      if x.pl.toNat < x.writeLevel n level then some privFault
      else if x.pl = 1 ∧ (n = Sr.TTB1 ∨ n = Sr.TCR1) ∧ (x.ef Sr.HCTL).testBit 1 then some trapFault
      else none

/-- What a register holds after a write: its writable bits, the bits cleared by ones, and MCTL.VLOCK, which once set stays (R163). -/
def Core.written' (x : Core) (n v : Nat) : Nat :=
  match srInfo n with
  | none => x.sr n
  | some i =>
    let old := x.sr n
    let rw := if n = Sr.PMU_CTRL ∧ x.pl.toNat < 2 then i.rw - 0xC else i.rw
    let new := ((old ^^^ (old &&& rw)) ||| (v &&& rw)) ^^^ (old &&& v &&& i.w1c)
    if n = Sr.MCTL then new ||| (old &&& 1)
    else if n = Sr.SERR_INFO ∧ ¬ new.testBit 0 then putFld new 31 24 0
    else new

/-- VBAR_PL3 and IVBAR_PL3 ignore writes while VLOCK is in effect. -/
def Core.locked (x : Core) (n : Nat) : Bool := (n == Sr.VBAR 3 || n == Sr.IVBAR 3) && (x.ef Sr.MCTL).testBit 0

/-- A register takes a value, with what the write does beside: EOI ends an interrupt, TMR_PLx is armed, HPIPA absorbs its record, a loop
register empties the loop buffer, PMU_CTRL.CLR zeroes the counters. `latent`: a mode-changing write opens its window; else it takes
effect at once. -/
def State.putSr (s : State) (c n v : Nat) (latent : Bool) : State :=
  let s0 := if srPmu n then s.syncCycles c else s
  let x := s0.core c
  if x.locked n then s0
  else
    let new := x.written' n v
    let s1 := s0.setCore c (x.setSr n new)
    match srInfo n with
    | none => s0
    | some i =>
      if i.latent then
        let y := s1.core c
        let w : LatentWrite := { left := 4, number := n, value := BitVec.ofNat 64 new }
        if latent then (s1.setCore c { y with latent := y.latent ++ [w] }).coreEvent c 23
        else (s1.setCore c (y.commit w)).recognise c
      else if n = Sr.EOI 1 ∨ n = Sr.EOI 2 ∨ n = Sr.EOI 3 then
        let isl := Sr.ISL ((n - 0x100) / 0x40 + 1)
        match highBit (x.sr isl) 16 with
        | some b => (s0.setSr c isl (putFld (x.sr isl) b b 0)).recognise c
        | none => s0
      else if n = Sr.TMR 1 ∨ n = Sr.TMR 2 ∨ n = Sr.TMR 3 then
        let view := viewOf ((n - 0x100) / 0x40 + 1)
        (s1.setCore c { s1.core c with timerFired := (s1.core c).timerFired.filter (· != view) }).armTimer c view
      else if n = Sr.HPIPA then (if s1.inDram new then s1.absorbRecord c new else s1)
      else if 0x010 ≤ n ∧ n ≤ 0x015 then s1.setCore c (s1.core c).emptyLoopBuffer
      else if n = Sr.PMU_CTRL then
        (if v.testBit 4 then s1.setCore c (s1.core c).clearCounters else s1).syncCycles c
      else s1.recognise c

/-- MTSR. A write of a loop register governs the loop-end test of the instructions after it, and not its own (R209). -/
def execMtsr (c : CoreId) (rs1 : GReg) (number : BitVec 12) (s : State) : Host.Outcome State Fault Refusal :=
  .next (s.runInstr c.val false fun s =>
    let x := s.core c.val
    match x.mtsrFault number.toNat with
    | some f => .fault s f
    | none =>
      let n := number.toNat
      let put := fun (s : State) => s.putSr c.val n (x.greg rs1).toNat true
      if 0x010 ≤ n ∧ n ≤ 0x015 then .done (put (s.retire c.val x.pc.toNat none)) else .next (put s))

/-! ### TLB maintenance (R258, R259) -/

/-- A main core's entry is removed. -/
def TlbiOp.removes (o : TlbiOp) (e : TlbEntry) : Bool :=
  match o with
  | .va m a i =>
    decide (e.vmid.toNat = m) && decide (e.vpage = a / 2 ^ e.size * 2 ^ e.size) && (e.global || decide (e.asid.toNat = i))
  | .asid m i => decide (e.vmid.toNat = m) && !e.global && decide (e.asid.toNat = i)
  | .guest m => decide (e.vmid.toNat = m)
  | .ipa m a => decide (e.vmid.toNat = m) && decide (e.ipage = a / 2 ^ e.size * 2 ^ e.size)
  | .vmid m => decide (e.vmid.toNat = m)
  | .all => true

/-- A queue engine's entry is removed. -/
def TlbiOp.removesQe (o : TlbiOp) (e : QeTlb) : Bool :=
  match o with
  | .va .. | .asid .. | .guest .. => false
  | .ipa m a => decide (e.vmid = m) && decide (e.ipage = a / 2 ^ e.size * 2 ^ e.size)
  | .vmid m => decide (e.vmid = m)
  | .all => true

/-- The queue engines are reached. -/
def TlbiOp.reachesQe : TlbiOp → Bool
  | .va .. | .asid .. | .guest .. => false
  | _ => true

def Core.tlbRemove (x : Core) (o : TlbiOp) : Core :=
  { x with itlb := x.itlb.filter fun e => !o.removes e, dtlb := x.dtlb.filter fun e => !o.removes e
           l2tlb := x.l2tlb.filter fun e => !o.removes e }

/-- A translated range lies, in part, in a page of one of some entries. -/
def inPages (ts : List QeTlb) (ranges : List (Nat × Nat)) : Bool :=
  ranges.any fun p => ts.any fun t => decide (t.ppage < p.2 + p.1 ∧ p.2 < t.ppage + 2 ^ t.size)

/-- The beats of engine e that were translated with an entry that the invalidation removes (R259): those of a channel k's descriptor, as
number 96 + 32 e + k with the count of descriptors by which they are performed; the fetch of a descriptor, as 224 + 32 e + k; and the
completion write of a queue q, as 352 + q with its descriptor. -/
def State.tlbiBeats (s : State) (o : TlbiOp) (e : Nat) : List (Nat × Nat) :=
  let ts := (s.qe e).tlb.filter o.removesQe
  let chans := (s.qe e).chans.filterMap fun k =>
    let c := k.2
    if ¬ inPages ts (c.a ++ c.b ++ c.out.map fun l => (64, l)) then none
    else if c.desc.isNone ∧ c.a ≠ [] then some (224 + 32 * e + k.1, c.ended + 1) else some (96 + 32 * e + k.1, c.ended + 1)
  chans ++ s.queues.filterMap fun q =>
    match q.2.flight with
    | d :: _ => if q.2.writing ∧ engineOf q.1 = e ∧ inPages ts [(16, s.completionAt q.1 q.2 d)] then some (352 + q.1, d.index) else none
    | [] => none

/-- The invalidation reaches every agent: entries go, and what each core has in its store buffer, and each beat of a queue engine that was
translated with an entry that goes, is noted. -/
def State.tlbiReach (s : State) (c : Nat) (o : TlbiOp) : State :=
  let s1 : State := { s with cores := s.cores.map fun e => (e.1, e.2.tlbRemove o) }
  let s2 : State := if o.reachesQe then { s1 with qes := s1.qes.map fun e => (e.1, { e.2 with tlb := e.2.tlb.filter fun t => !o.removesQe t }) } else s1
  let stores := s2.cores.filterMap fun e => if e.2.stores.isEmpty then none else some (e.1, e.2.drained + e.2.stores.length)
  let beats := if o.reachesQe then [0, 1, 2, 3].flatMap (s.tlbiBeats o) else []
  s2.setCore c { s2.core c with tlbi := some (o, some (stores ++ beats)) }

/-- An agent has done what the invalidation waits for. -/
def State.tlbiDone (s : State) (w : Nat × Nat) : Bool :=
  if w.1 < 96 then decide (w.2 ≤ (s.core w.1).drained) || (s.core w.1).stores.isEmpty
  else if w.1 < 352 then
    let n := if w.1 < 224 then w.1 - 96 else w.1 - 224
    let k := (s.qe (n / 32)).chan (n % 32)
    decide (w.2 ≤ k.ended) || (k.desc.isNone && k.a.isEmpty && k.out.isEmpty) || (decide (224 ≤ w.1) && k.desc.isSome)
  else
    let x := s.queue (w.1 - 352)
    !x.writing || x.flight.head?.map (·.index) != some w.2

/-- A TLBI starts, with the issuing core's buffer empty: it reaches the agents, and completes 180 ns later at the earliest. While stores
are buffered it waits, and an interrupt may be taken before it (R174). -/
def State.startTlbi (s : State) (c : Nat) (o : TlbiOp) : IRes :=
  if (s.core c).stores.isEmpty then .next ((s.tlbiReach c o).send 180 (.tlbiCompletion (coreId c)))
  else .wait ((s.setCore c { s.core c with drainWait := true }).kickDrain c 1)

/-- TLBI_COMPLETION: every agent reached is done, and the core goes on; until then it is looked at again. -/
def execTlbiCompletion (c : CoreId) (s : State) : Host.Outcome State Fault Refusal :=
  let x := s.core c.val
  match x.tlbi with
  | none => .next s
  | some (_, ws) =>
    if (ws.getD []).all s.tlbiDone then .next ((s.setCore c.val { x with tlbi := none }).recognise c.val)
    else .next (s.send 10 (.tlbiCompletion c))

/-- A TLBI at its least level, of the operation that the core's state gives. -/
def State.tlbi (s : State) (c : CoreId) (level : Nat) (op : Core → TlbiOp) : Host.Outcome State Fault Refusal :=
  .next (s.runInstr c.val false fun s =>
    let x := s.core c.val
    if x.pl.toNat < level then .fault s privFault else s.startTlbi c.val (op x))

/-- The current VMID, TTB2.VMID. -/
def Core.vmid (x : Core) : Nat := fld (x.ef Sr.TTB2) 59 48

/-- TLBI.VA. -/
def execTlbiVa (c : CoreId) (rs1 rs2 : GReg) (s : State) : Host.Outcome State Fault Refusal :=
  s.tlbi c 1 fun x => .va x.vmid (x.greg rs1).toNat ((x.greg rs2).toNat % 2 ^ 16)
/-- TLBI.ASID. -/
def execTlbiAsid (c : CoreId) (rs1 : GReg) (s : State) : Host.Outcome State Fault Refusal :=
  s.tlbi c 1 fun x => .asid x.vmid ((x.greg rs1).toNat % 2 ^ 16)
/-- TLBI.GUEST. -/
def execTlbiGuest (c : CoreId) (s : State) : Host.Outcome State Fault Refusal := s.tlbi c 1 fun x => .guest x.vmid
/-- TLBI.IPA. -/
def execTlbiIpa (c : CoreId) (rs1 rs2 : GReg) (s : State) : Host.Outcome State Fault Refusal :=
  s.tlbi c 2 fun x => .ipa ((x.greg rs2).toNat % 2 ^ 12) (x.greg rs1).toNat
/-- TLBI.VMID. -/
def execTlbiVmid (c : CoreId) (rs1 : GReg) (s : State) : Host.Outcome State Fault Refusal :=
  s.tlbi c 2 fun x => .vmid ((x.greg rs1).toNat % 2 ^ 12)
/-- TLBI.ALL. -/
def execTlbiAll (c : CoreId) (s : State) : Host.Outcome State Fault Refusal := s.tlbi c 2 fun _ => .all

end Sys2Proof.Machine
end

