-- ==== Sys2Proof/Machine/Debug.lean ====
section
/-!
DEFINITION. Sys2Proof/Machine/Debug.lean: the TAP and the debug space, halting and stepping of main and phase cores, cross-triggers,
system accesses and boundary scan (R536 to R549).
-/
namespace Sys2Proof.Machine

/-- The debug access logic accepts requests (R446, R537). -/
def State.debugLive (s : State) : Bool := s.modes.safelightUp && s.enc.debugOpen && s.enc.state == 1

/-- Where the debug space lies in the register map: above every physical address. -/
def debugBase : Nat := 0x400000000000

/-! ### Main cores (R541, R542) -/

/-- A halt is asked for: it follows at the next boundary. -/
def State.askHalt (s : State) (c reason ns : Nat) : State :=
  let x := s.core c
  if s.safelightUp ∧ s.coreUp c ∧ (x.run = .running ∨ x.run = .waiting) then
    (s.setCore c { x with haltReq := some (x.haltReq.getD reason) }).send ns (.coreHalt (coreId c))
  else s

/-- HALT_REQ. -/
def execHaltReq (c : CoreId) (s : State) : Host.Outcome State Fault Refusal := .next (s.askHalt c.val 1 0)

/-- CORE_HALT: the boundary lies after a TLBI in progress, and before a fence that waits for the store buffer; a waiting WFI has not completed, and executes again. -/
def execCoreHalt (c : CoreId) (s : State) : Host.Outcome State Fault Refusal :=
  let x := s.core c.val
  match x.haltReq with
  | none => .next s
  | some reason =>
    if ¬ s.safelightUp ∨ ¬ s.coreUp c.val ∨ ¬ (x.run = .running ∨ x.run = .waiting) then .next (s.setCore c.val { x with haltReq := none })
    else if x.tlbi.isSome then .next (s.send 10 (.coreHalt c))
    else .next ((s.setCore c.val (if x.run = .waiting then { x with pc := x.pc - 4 } else x)).haltCore c.val reason)

/-- A halted core goes on at its PC; a step halts it again after one instruction. An interrupt that is takeable is the step. -/
def State.letGo (s : State) (c : Nat) (step : Bool) : State :=
  let x := s.core c
  if x.run = .halted ∧ s.coreUp c then
    let s1 := (s.setCore c { x with run := .running, stepping := step, resumed := true, haltReq := none }).wb (Reg.DBG_STATUS c) 0 false
    match (s1.core c).takeable with
    | some (v, n) => if step ∧ s1.mayInterrupt c then s1.takeInterrupt c v n else (s1.syncCycles c).recognise c
    | none => s1.syncCycles c
  else s

/-- RESUME. -/
def execResume (c : CoreId) (s : State) : Host.Outcome State Fault Refusal := .next (s.letGo c.val false)
/-- STEP. -/
def execStep (c : CoreId) (s : State) : Host.Outcome State Fault Refusal := .next (s.letGo c.val true)

/-- What DBG_REG_DATA of a halted core shows: the register that DBG_REG_SEL selects. A number above 31 names no general or
floating-point register, and what it shows is a free value. -/
def State.selected (s : State) (c : Nat) : Nat × State :=
  let x := s.core c
  let n := s.rf (Reg.DBG_REG_SEL c) 11 0
  match s.rf (Reg.DBG_REG_SEL c) 13 12 with
  | 0 => if n < 32 then ((x.greg (BitVec.ofNat 5 n)).toNat, s) else (s.fresh.1.toNat, s.fresh.2)
  | 1 => if n < 32 then ((x.freg (BitVec.ofNat 5 n)).toNat, s) else (s.fresh.1.toNat, s.fresh.2)
  | 2 => if (srInfo n).isSome then (s.getSr c n, s) else (s.fresh.1.toNat, s.fresh.2)
  | _ => (x.pc.toNat, s)

/-- A write of DBG_REG_DATA; a change of mode takes effect at once, since a halt commits it. -/
def State.setSelected (s : State) (c v : Nat) : State :=
  let x := s.core c
  let n := s.rf (Reg.DBG_REG_SEL c) 11 0
  match s.rf (Reg.DBG_REG_SEL c) 13 12 with
  | 0 => if n < 32 then s.setCore c (x.setG (BitVec.ofNat 5 n) (BitVec.ofNat 64 v)) else s
  | 1 => if n < 32 then s.setCore c (x.setF (BitVec.ofNat 5 n) (BitVec.ofNat 64 v)) else s
  | 2 => s.putSr c n v false
  | _ => s.setCore c { x with pc := BitVec.ofNat 64 v }

/-! ### Phase cores (R545) -/

/-- A phase core is to halt with a REASON. -/
def State.askPcHalt (s : State) (n reason : Nat) : State :=
  if s.safelightUp ∧ (s.pcState n = 1 ∨ s.pcState n = 2) then
    (s.setPcore n { s.pcore n with halting := some reason }).pcStop n
  else s

/-- PC_HALT_REQ. -/
def execPcHaltReq (pc : PcId) (s : State) : Host.Outcome State Fault Refusal := .next (s.askPcHalt pc.val 1)

/-- A phase core halted by debug goes on at PCC_PC. -/
def State.pcLetGo (s : State) (n : Nat) (step : Bool) : State :=
  let c := s.pcore n
  if c.halted then
    let s1 := s.setPcore n { c with halted := false, stepping := step, busy := max c.busy s.clk }
    ((s1.wb (Reg.DBG_PC_STATUS n) 0 false).setPcState n 1).testPreempt n
  else s

/-- PC_RESUME. -/
def execPcResume (pc : PcId) (s : State) : Host.Outcome State Fault Refusal := .next (s.pcLetGo pc.val false)
/-- PC_STEP. -/
def execPcStep (pc : PcId) (s : State) : Host.Outcome State Fault Refusal := .next (s.pcLetGo pc.val true)

/-- The register that DBG_PC_REG_SEL selects; 21 to 31 read 0. -/
def State.pcSelected (s : State) (n : Nat) : Nat :=
  let k := s.rf (Reg.DBG_PC_REG_SEL n) 4 0
  if k < 16 then (s.preg n (BitVec.ofNat 4 k)).toNat
  else match k with
    | 16 => (s.pacc n false).toNat % 2 ^ 32
    | 17 => (s.pacc n false).toNat / 2 ^ 32
    | 18 => (s.pacc n true).toNat % 2 ^ 32
    | 19 => (s.pacc n true).toNat / 2 ^ 32
    | 20 => (s.pcore n).pc.toNat
    | _ => 0

/-- A write of DBG_PC_REG_DATA. -/
def State.setPcSelected (s : State) (n v : Nat) : State :=
  let k := s.rf (Reg.DBG_PC_REG_SEL n) 4 0
  let half := fun (a : AccId) (hi : Bool) =>
    let x := (s.pacc n a).toNat
    s.setPacc n a (BitVec.ofNat 64 (if hi then x % 2 ^ 32 + v * 2 ^ 32 else x / 2 ^ 32 * 2 ^ 32 + v))
  if k < 16 then s.setPreg n (BitVec.ofNat 4 k) (BitVec.ofNat 32 v)
  else match k with
    | 16 => half false false
    | 17 => half false true
    | 18 => half true false
    | 19 => half true true
    | 20 => s.setPcore n { s.pcore n with pc := BitVec.ofNat 32 v }
    | _ => s

/-! ### Cross-triggers (R546) -/

/-- The cores that a channel's masks name. -/
def State.maskedCores (s : State) (x : Nat) : List Nat := (List.range 96).filter fun c => (s.rd (Reg.DBG_XT_MHALT x (c / 32))).testBit (c % 32)
def State.maskedPcs (s : State) (x : Nat) : List Nat := (List.range 256).filter fun n => (s.rd (Reg.DBG_XT_PHALT x (n / 32))).testBit (n % 32)

/-- A channel fires. -/
def State.fireTrigger (s : State) (x : Nat) : State :=
  if ¬ s.safelightUp then s
  else
    let s1 := s.wb (Reg.DBG_XT_STATUS x) 0 true
    let s2 := (s1.maskedCores x).foldl (fun s c => s.askHalt c 4 10) s1
    let s3 := (s1.maskedPcs x).foldl (fun s n => s.askPcHalt n 1) s2
    let s4 := if s1.rb (Reg.DBG_XT_CFG x) 0 then s3.setFreeze true else s3
    if s1.rb (Reg.DBG_XT_CFG x) 1 then s4.shutter s4.now else s4

/-- CROSS_TRIGGER. -/
def execCrossTrigger (x : XtId) (s : State) : Host.Outcome State Fault Refusal := .next (s.fireTrigger x.val)

/-! ### System access (R540) -/

/-- RESULT of a failed access: a refusal is DENIED, and a failed or poisoned one is ERROR. -/
def AccessErr.debugResult : AccessErr → Nat
  | .enclave | .priv | .form => 2
  | .noTarget | .target | .poison => 3

/-- A write of DBG_SYS_CTRL: with GO, a DEV access at PL3 with the EID given and a slack of 1 µs. -/
def State.sysGo (s : State) (v : Nat) : State :=
  let ctrl := Reg.DBG_SYS_CTRL
  let s1 := s.wr ctrl (putFld (s.rd ctrl) 8 0 (fld v 8 0))
  if ¬ v.testBit 9 then s1
  else
    let n := 2 ^ fld v 1 0
    let a := s.rd Reg.DBG_SYS_ADDR
    let who : Requester := { agent := .debug, pl := 3, eid := BitVec.ofNat 6 (fld v 8 3) }
    let stamp := s.stampWith 250
    if a % n ≠ 0 then s1.wf ctrl 11 10 3
    else if v.testBit 2 then
      match s1.busWrite who a n (s.rd Reg.DBG_SYS_DATA % 2 ^ (8 * n)) stamp with
      | (none, s2) => s2.wf ctrl 11 10 0
      | (some e, s2) => s2.wf ctrl 11 10 e.debugResult
    else
      match s1.busRead who a n stamp with
      | (.ok x, s2) => (s2.wr Reg.DBG_SYS_DATA x).wf ctrl 11 10 0
      | (.error e, s2) => s2.wf ctrl 11 10 e.debugResult

/-- DBG_SYS_GO. -/
def execDbgSysGo (value : Word32) (s : State) : Host.Outcome State Fault Refusal :=
  .next (if s.debugLive then s.sysGo value.toNat else s)

/-! ### Boundary scan (R538) -/

/-- The levels at the phase pins. -/
def State.samplePins (s : State) : Nat → BitVec 512 × State
  | 0 => (0, s)
  | n + 1 =>
    let (v, s1) := s.samplePins n
    let (h, s2) := s1.sampleLevel n
    (if h then v ||| (1 <<< n) else v, s2)

/-- The boundary register takes levels and enables, and the levels at the pins are captured. -/
def State.scanChain (s : State) (levels enables : BitVec 512) : State :=
  let (v, s1) := s.samplePins 512
  { s1 with dbg := { s1.dbg with levels := levels, enables := enables, sample := v } }

/-- SAMPLE_PRELOAD. -/
def execSamplePreload (levels : BitVec 512) (enables : BitVec 512) (s : State) : Host.Outcome State Fault Refusal :=
  .next (if s.modes.safelightUp then s.endScan.scanChain levels enables else s)

/-- EXTEST: the boundary register drives the balls in lifecycle BLANK, or in DEVELOPMENT with DEBUG_OPEN; otherwise it acts as BYPASS. -/
def execExtest (levels : BitVec 512) (enables : BitVec 512) (s : State) : Host.Outcome State Fault Refusal :=
  if ¬ s.modes.safelightUp then .next s
  else if s.enc.state = 0 ∨ (s.enc.state = 1 ∧ s.enc.debugOpen) then
    let s1 := s.scanChain levels enables
    .next ((List.range 512).foldl (fun s p =>
      let x := s.pin p
      s.setPin p { x with scan := some (if enables.getLsbD p then .level (levels.getLsbD p) 0 else .released 0) }) s1)
  else .next s.endScan

/-! ### DBG_ACC (R539) -/

/-- What an access answers: DATA, or DENIED or ERROR. -/
def dbgOk : Nat := 0
def dbgDenied : Nat := 2
def dbgError : Nat := 3

/-- The owner of a debug register: a main core, a phase core, or neither. -/
def dbgCore (off : Nat) : Option Nat := if off < 0x60000 then some (off / 0x1000) else none
def dbgPc (off : Nat) : Option Nat := if 0x100000 ≤ off ∧ off < 0x110000 then some ((off - 0x100000) / 0x100) else none

/-- A read of a debug register. -/
def State.dbgRead (s : State) (off : Nat) : Nat × State :=
  match dbgCore off, dbgPc off with
  | some c, _ => if off % 0x1000 = 0x18 then s.selected c else (s.rd (debugBase + off), s)
  | none, some n => (if off % 0x100 = 0xC then s.pcSelected n else s.rd (debugBase + off), s)
  | none, none => (s.rd (debugBase + off), s)

/-- A write of a debug register with its effect. -/
def State.dbgWrite (s : State) (off v : Nat) : State :=
  match dbgCore off, dbgPc off with
  | some c, _ =>
    match off % 0x1000 with
    | 0x000 =>
      let s1 := s.storeReg (debugBase + off) v
      let s2 := if v.testBit 0 then s1.askHalt c 1 0 else s1
      let s3 := if v.testBit 1 then s2.letGo c false else s2
      if v.testBit 2 then s3.letGo c true else s3
    | 0x018 => s.setSelected c v
    | _ => s.storeReg (debugBase + off) v
  | none, some n =>
    match off % 0x100 with
    | 0x00 =>
      let s1 := if v.testBit 0 then s.askPcHalt n 1 else s
      let s2 := if v.testBit 1 then s1.pcLetGo n false else s1
      if v.testBit 2 then s2.pcLetGo n true else s2
    | 0x0C => s.setPcSelected n v
    | _ => s.storeReg (debugBase + off) v
  | none, none => if debugBase + off = Reg.DBG_SYS_CTRL then s.sysGo v else s.storeReg (debugBase + off) v

/-- An access to a register of a core that is not halted where the register requires a halt. -/
def State.dbgRunning (s : State) (off : Nat) : Bool :=
  match dbgCore off, dbgPc off with
  | some c, _ => off % 0x1000 == 0x18 && (s.core c).run != .halted
  | none, some n => off % 0x100 == 0x0C && !(s.pcore n).halted
  | none, none => false

/-- The access port's answer. -/
def State.dbgAnswer (s : State) (status data : Nat) : State :=
  { s with dbg := { s.dbg with status := status, data := BitVec.ofNat 32 data } }

/-- An access to the word at an offset of the debug space. A 64-bit register is reached as two words, and is written with its upper. -/
def State.dbgAccess (s : State) (write : Bool) (off data : Nat) : State :=
  let found := fun o => (regFind (debugBase + o)).map (·.1.wide)
  let reg : Option (Nat × Bool × Bool) :=
    if off % 4 ≠ 0 then none
    else match found off with
      | some w => some (off, w, false)
      | none => if 4 ≤ off ∧ found (off - 4) = some true then some (off - 4, true, true) else none
  match reg with
  | none => s.dbgAnswer dbgError 0
  | some (o, wide, upper) =>
    if s.dbgRunning o then s.dbgAnswer dbgError 0
    else if write then
      if wide ∧ ¬ upper then
        ({ s with dbg := { s.dbg with low := some (o, BitVec.ofNat 32 data) } }).dbgAnswer dbgOk 0
      else if wide then
        let low := match s.dbg.low with | some (k, w) => if k = o then w.toNat else (s.dbgRead o).1 % 2 ^ 32 | none => (s.dbgRead o).1 % 2 ^ 32
        let s1 := { s with dbg := { s.dbg with low := none } }
        (s1.dbgWrite o (low + data * 2 ^ 32)).dbgAnswer dbgOk 0
      else (s.dbgWrite o data).dbgAnswer dbgOk 0
    else
      let (v, s1) := s.dbgRead o
      s1.dbgAnswer dbgOk (if upper then v / 2 ^ 32 else v % 2 ^ 32)

/-- DBG_ACC. -/
def execDbgAcc (dr : BitVec 67) (s : State) : Host.Outcome State Fault Refusal :=
  let v := dr.toNat
  if ¬ s.modes.safelightUp then .next s
  else if ¬ s.debugLive then .next (s.endScan.dbgAnswer dbgDenied 0)
  else .next (s.endScan.dbgAccess (v.testBit 0) (fld v 34 3) (fld v 66 35))

end Sys2Proof.Machine
end

