-- ==== Sys2Proof/Machine/Areas.lean ====
section
/-!
DEFINITION. Sys2Proof/Machine/Areas.lean: the configuration areas that CONFIG_CHECKSUM and LOCK_REGION name (R483, R491 to R493), and
write lists (R489).
-/
namespace Sys2Proof.Machine

/-! ### Areas (R491) -/

/-- The units of an area; 0 for an area that does not exist. -/
def areaUnits (area : Nat) : Nat :=
  match area with
  | 1 => 16 | 2 => 1024 | 3 => 256 | 4 => 64 | 5 => 512 | 6 => 16 | 7 => 256 | 8 => 14 | 9 => 4096 | 10 => 128 | 11 => 128
  | 12 => 1 | 13 => 8 | 14 => 32 | 15 => 8 | 16 => 1 | 17 => 1 | 18 => 4 | 19 => 1
  | _ => 0

/-- FIRST and COUNT select units of the area. A COUNT of 0 selects none and is refused. -/
def areaThere (area first count : Nat) : Bool := decide (1 ≤ count ∧ first + count ≤ areaUnits area)

/-- The windows that hold registers of areas. -/
def areaRows : List RegDesc :=
  [0x13000000, 0x12000000, 0x11000000, 0x51000000, 0x60000000, 0x50000000, 0x31000000, 0x40000000, 0x70000000].flatMap regWindow

/-- The registers of an area's unit in ascending offset, each with its width in bytes and its covered bits. -/
def areaRegs (area unit : Nat) : List (Nat × Nat × Nat) :=
  let rows := areaRows.filter fun d => d.area == area
  let regs := rows.flatMap fun d => (List.range d.n1).flatMap fun i => (List.range d.n2).filterMap fun j =>
    let a := d.base + i * d.s1 + j * d.s2
    if areaUnit area a i j = unit then some (a, (if d.wide then 8 else 4, d.cover)) else none
  regs.foldl (fun t e => tabInsert e.1 e.2 t) []

/-- The byte string of one unit: each register's full width, little-endian, bits that are not covered 0 (R492). -/
def State.unitBytes (s : State) (area unit : Nat) : List Byte :=
  if area = 19 then toBytes 0x2000 (s.bytes 0x1000000 0x2000)
  else (areaRegs area unit).flatMap fun r => toBytes r.2.1 (s.rd r.1 &&& r.2.2)

/-- The byte string of an area (R492). -/
def State.areaBytes (s : State) (area first count : Nat) : List Byte :=
  (List.range count).flatMap fun k => s.unitBytes area (first + k)

/-- The enclave attribute of an area's unit (R435, R436, R483). -/
def State.unitEid (s : State) (area unit : Nat) : Nat :=
  match area with
  | 2 => s.sourceEid (1024 + unit)
  | 3 => s.sourceEid (2048 + unit)
  | 4 => s.sourceEid (2304 + unit)
  | 5 => s.rf (Reg.PIN_OWNER unit) 5 0
  | 6 => s.sourceEid (2368 + unit)
  | 7 => s.pcEid unit
  | 9 => s.sourceEid unit
  | 13 => s.rf (Reg.PT_DIN_EID unit) 5 0
  | 19 => 1
  | _ => 0

/-- The area holds a unit of an enclave. -/
def State.areaGuarded (s : State) (area first count : Nat) : Bool :=
  areaThere area first count && (List.range count).any fun k => s.unitEid area (first + k) != 0

/-- LOCK_REGION: every covered field of the area is locked (R493). -/
def State.lockArea (s : State) (area first count : Nat) : State :=
  let more := (List.range count).map fun k => (area, first + k)
  { s with locks := more.foldl (fun l x => if l.contains x then l else l ++ [x]) s.locks }

/-! ### Write lists (R489) -/

/-- An entry of a write list as its bytes spell it: offset, width, the zero bytes, value. -/
structure ListEntry where
  off : Nat
  width : Nat
  zero : Nat
  value : Nat
deriving DecidableEq, Repr

/-- The entries after the 4-byte prefix. -/
def listEntries : Nat → List Byte → List ListEntry
  | 0, _ => []
  | n + 1, b =>
    { off := ofBytes (b.take 4), width := ofBytes ((b.drop 4).take 1), zero := ofBytes ((b.drop 5).take 3)
      value := ofBytes ((b.drop 8).take 8) } :: listEntries n (b.drop 16)

/-- The address of an entry of a command with this prefix; none outside the command's scope. -/
def scopeAddr (opcode unit off : Nat) : Option Nat :=
  let within := fun (lo hi base : Nat) => if lo ≤ off ∧ off ≤ hi then some (base + off) else none
  match opcode with
  | 0x70 => if unit < 128 then within 0 0x1FFF (0x40000000 + unit * 0x2000) else none
  | 0x71 => if unit ≠ 0 then none else (within 0x100000 0x1000FF 0x40000000).orElse fun _ => within 0x110000 0x2FFFFF 0x40000000
  | 0x72 => if unit ≠ 0 then none else (within 0x100100 0x1001FF 0x40000000).orElse fun _ => within 0x300000 0x300FFF 0x40000000
  | 0x80 => if unit < 16 then within 0 0xFF (0x12000000 + unit * 0x100) else none
  | 0x90 => if unit ≠ 0 then none else within 0 0xF 0x70000000
  | _ => none

/-- The write that an entry asks for: address, width in bytes, and value in that width. -/
def entryWrite (opcode unit : Nat) (e : ListEntry) : Option (Nat × Nat × Nat) :=
  match scopeAddr opcode unit e.off with
  | some a =>
    match regFind a with
    | some (d, _, _) =>
      let w := if d.wide then 8 else 4
      if e.width = w ∧ e.zero = 0 then some (a, w, e.value % 2 ^ (8 * w)) else none
    | none => none
  | none => none

/-- The writes of a list; none when the list or an entry of it is malformed. -/
def listWrites (opcode : Nat) (p : List Byte) : Option (List (Nat × Nat × Nat)) :=
  let n := (p.length - 4) / 16
  if p.length < 20 ∨ (p.length - 4) % 16 ≠ 0 ∨ 254 < n ∨ ofBytes ((p.drop 1).take 3) ≠ 0 then none
  else (listEntries n (p.drop 4)).mapM (entryWrite opcode (ofBytes (p.take 1)))

/-- The entries are performed in list order as register writes of Lemam, at the command's privilege. -/
def State.writeList (s : State) (pl3 : Bool) (ws : List (Nat × Nat × Nat)) : State :=
  let who : Requester := { agent := .lemam, pl := if pl3 then 3 else 2, eid := 0 }
  ws.foldl (fun s w => (s.busWrite who w.1 w.2.1 w.2.2 (s.whoStamp who 12 (ptPort who.agent))).2) s

end Sys2Proof.Machine
end

