-- ==== Sys2Proof/Machine/LemamCheck.lean ====
section
/-!
DEFINITION. Sys2Proof/Machine/LemamCheck.lean: the checks of a command, in the order of R480: opcode, source, mode, parameters, locks,
conflicts, resources.
-/
namespace Sys2Proof.Machine

/-- A command as Lemam checks it: where its reply goes, its FLAGS, LENGTH and header bytes 8 to 15, and LENGTH bytes of parameters. -/
structure Cmd where
  route : Route
  flags : Nat
  len : Nat
  zero : Nat
  params : List Byte
deriving DecidableEq, Repr

/-- Little-endian parameter bytes. -/
def Cmd.par (c : Cmd) (k n : Nat) : Nat := ofBytes ((c.params.drop k).take n)

/-! ### Sources (R475, R485) -/

/-- Code of a source. -/
def sourceCode : CmdSource → Nat
  | .ring j => if j.val < 16 then 0 else 1
  | .spi => 2
  | .peer .. => 3
  | .mgmt => 4

/-- The source carries the authority of PL3: a PL3 ring, here or at the peer, or the management SPI. -/
def sourcePl3 : CmdSource → Bool
  | .ring j => decide (16 ≤ j.val)
  | .spi => true
  | .peer _ pl3 => pl3
  | .mgmt => false

/-- The sources from which a command is taken; none for an opcode that is not listed. -/
def cmdSources (opcode : Nat) : List Nat :=
  match opcode with
  | 0x01 | 0x02 | 0x11 | 0x21 | 0x30 | 0x40 | 0xF0 => [0, 1, 2, 3, 4]
  | 0x10 | 0x91 | 0xA0 => [0, 1, 2, 3]
  | 0x20 | 0x41 | 0x51 | 0x52 | 0x54 | 0x56 | 0x80 | 0x81 | 0x90 | 0xC0 => [0, 1, 2]
  | 0x31 | 0xB0 => [1, 2]
  | 0x50 | 0xB1 => [2]
  | 0x53 | 0x55 => [1, 2, 4]
  | 0x60 | 0x61 | 0x62 | 0x63 | 0x64 => [0, 1]
  | 0x70 | 0x71 | 0x72 => [0, 1, 2, 4]
  | _ => []

/-- The VI that a VI or queue command names. -/
def State.namedVi (s : State) (c : Cmd) : Option Nat :=
  match c.route.opcode with
  | 0x60 | 0x61 | 0x62 => some (c.par 0 2)
  | 0x63 | 0x64 => s.viOfQueue (c.par 0 4)
  | _ => none

/-- A core whose EID is not 0 that POWER_POINT_SET names. -/
def State.namesEnclaveCore (s : State) (core : Nat) : Bool :=
  if core = 0xFF then (List.range 96).any fun c => (s.core c).eid != 0 else (s.core core).eid != 0

/-- The conditions of single commands on their source (R366, R417, R443, R444, R445, R483, R497, R515). -/
def State.cmdDenied (s : State) (c : Cmd) : Bool :=
  let src := sourceCode c.route.src
  let board : Bool := src == 1 || src == 2
  let t := c.par 0 1
  if s.enc.state = lifeReturn ∧ c.route.opcode ≠ 0x02 ∧ c.route.opcode ≠ 0x40 then true
  else
    match c.route.opcode with
    | 0x10 =>
      (src == 3 && t != modeSafeHold) || ((t == modeService) != (s.mode == modeService) && !board) ||
        (s.mode == modeStandby && src != 2)
    | 0x20 => s.namesEnclaveCore t && !board
    | 0x60 => c.par 4 1 != 0 && src != 1
    | 0x61 | 0x62 | 0x63 | 0x64 =>
      (match s.namedVi c with
       | some v => s.viEid v != 0 && src != 1
       | none => false)
    | 0x72 =>
      !sourcePl3 c.route.src &&
        (match listWrites 0x72 c.params with
         | some ws => ws.any fun w => s.ptGuarded w.1 w.2.2
         | none => false)
    | 0xB0 => t == lifeReturn && src != 2
    | 0xB1 => s.enc.state != 1
    | 0xC0 | 0xF0 => s.areaGuarded (c.par 0 2) (c.par 4 4) (c.par 8 4) && !sourcePl3 c.route.src
    | _ => false

/-! ### Modes (R485, R496) -/

/-- RUN, RUN_PAIRED, DEGRADED, SAFE_HOLD and SERVICE. -/
def opMode (m : Nat) : Bool := decide (3 ≤ m ∧ m ≤ 7)

/-- A change of mode is in progress (R496). -/
def State.modeChanging (s : State) : Bool := s.modes.agreed.isSome || s.modes.waking.isSome

/-- Whether R496 lists the change that MODE_SET asks for. -/
def State.mayEnter (s : State) (t : Nat) : Bool :=
  let m := s.mode
  decide (t = m) || s.modeChanging ||
    (match t with
     | 2 => m == modeRun || m == modeDegraded
     | 3 => m == modePaired || m == modeService || m == modeStandby
     | 4 => s.mayPair
     | 6 => m == modeRun || m == modePaired || m == modeDegraded || m == modeStandby || m == modeService
     | 7 => m == modeSafeHold
     | _ => false)

/-- The present mode permits the command; an MGMT command in SERVICE only. -/
def State.cmdMode (s : State) (c : Cmd) : Bool :=
  let m := s.mode
  (c.route.src != .mgmt || m == modeService) &&
    (match c.route.opcode with
     | 0x01 | 0x02 | 0x11 | 0x21 | 0x30 | 0x40 | 0x41 | 0x91 | 0xF0 | 0xB1 => true
     | 0x10 => let t := c.par 0 1; t == 0 || t == 1 || t == 5 || decide (7 < t) || s.mayEnter t
     | 0x31 => if c.par 0 1 = 0 then m == modeService else opMode m
     | 0x50 => m == modePreflash
     | 0x53 => m == modeService || s.enc.state == 1
     | 0x55 => m == modeService
     | 0x81 => m == modeRun || m == modeDegraded || m == modeSafeHold || m == modeService
     | 0xB0 => c.par 0 1 != lifeReturn || s.enc.state != 2 || m == modeService
     | _ => opMode m)

/-! ### Parameters (R478, R485) -/

/-- The exact length of a parameter block; none where it varies. -/
def cmdLength (opcode : Nat) : Option Nat :=
  match opcode with
  | 0x01 | 0x70 | 0x71 | 0x72 | 0x80 | 0x90 => none
  | 0x10 | 0x20 | 0x21 | 0x30 | 0x52 | 0x53 | 0x54 | 0x56 | 0x61 | 0x62 | 0x64 => some 4
  | 0x31 | 0x40 | 0x81 | 0xA0 => some 8
  | 0x50 | 0x55 | 0xC0 | 0xF0 => some 12
  | 0x51 => some 1028
  | 0x60 => some 32
  | 0x63 => some 24
  | 0xB0 => some 52
  | _ => some 0

/-- The monitors of a kind. -/
def monitorCount (kind : Nat) : Nat := match kind with | 0 => 64 | 1 => 32 | 2 => 16 | 3 => 24 | _ => 0

/-- The rows of a bank: the lines of a channel by subchannel, rank, 32 banks and 128 lines a row. -/
def State.bankRows (s : State) : Nat := s.channelLines / (2 * s.ranks * 32 * 128)

/-- A transition of the lifecycle (R444). -/
def lifeStep (now target : Nat) : Bool :=
  match now, target with
  | 0, 1 | 0, 2 | 1, 2 | 1, 3 | 2, 3 => true
  | _, _ => decide (now = target)

/-- LIFECYCLE_ADVANCE: CURRENT matches, the transition exists, SECVER is at most 64 and KEYHASH is given exactly from BLANK. -/
def State.lifeParams (s : State) (c : Cmd) : Bool :=
  let t := c.par 0 1
  let now := s.enc.state
  decide (c.par 1 1 = now) && lifeStep now t && decide (c.par 2 1 ≤ 64) && c.par 3 1 == 0 &&
    ((c.par 4 48 != 0) == (decide (now = 0 ∧ t ≠ 0)))

/-- VI_CREATE: the queue range within one engine, the vector range within the sources of VIs, the fields in their widths (R366, R488). -/
def State.viParams (c : Cmd) : Bool :=
  let q := c.par 16 4
  let n := c.par 20 2
  let vec := c.par 22 2
  let vecs := c.par 24 1
  decide (c.par 0 2 < 4096 ∧ c.par 2 2 < 4096 ∧ c.par 4 1 < 64 ∧ c.par 8 8 % 4096 = 0 ∧ c.par 8 8 < 2 ^ 46 ∧
    1 ≤ n ∧ n ≤ 256 ∧ q + n ≤ 262144 ∧ q / 65536 = (q + n - 1) / 65536 ∧ vecs ≤ 64 ∧ vec + vecs ≤ 1024) &&
    c.par 5 3 == 0 && c.par 25 7 == 0

/-- QUEUE_BIND (R366). -/
def State.bindParams (s : State) (c : Cmd) : Bool :=
  let kind := c.par 4 1
  let vec := c.par 6 1
  match s.viOfQueue (c.par 0 4) with
  | some v =>
    decide (kind ≤ 4) && decide (4 ≤ c.par 5 1 ∧ c.par 5 1 ≤ 20) &&
      (decide (vec < s.rf (Reg.VI_VEC v) 22 16) || vec == 0xFF) &&
      (decide (c.par 7 1 < 128) || (kind != typeTx && kind != typeRx)) &&
      decide (c.par 8 8 % 4096 = 0 ∧ c.par 16 8 % 4096 = 0)
  | none => false

/-- The values and zero fields of a command's parameters. -/
def State.cmdValues (s : State) (c : Cmd) : Bool :=
  let t := c.par 0 1
  let u := c.par 1 1
  match c.route.opcode with
  | 0x10 => decide (t = 2 ∨ t = 3 ∨ t = 4 ∨ t = 6 ∨ t = 7) && c.par 1 3 == 0
  | 0x20 => c.par 2 2 == 0 && decide (u ≤ 5) && (decide (t < 96) || (t == 0xFF && decide (u < 4)))
  | 0x21 => c.par 3 1 == 0 && decide (1 ≤ c.par 2 1 ∧ c.par 2 1 ≤ 64 ∧ u + c.par 2 1 ≤ monitorCount t)
  | 0x30 => c.par 2 2 == 0 && statusParams t u
  | 0x31 => c.par 3 1 == 0 && c.par 6 2 == 0 && spareParams t u (c.par 2 1) (c.par 4 2)
  | 0x40 => decide (1 ≤ c.par 4 1 ∧ c.par 4 1 ≤ 127) && c.par 5 3 == 0
  | 0x50 => decide (t ≤ 2 ∧ u ≤ 2 ∧ c.par 2 1 ≤ 1 ∧ c.par 3 1 ≤ 1) && c.par 11 1 == 0
  | 0x51 => decide (t < 8 ∧ u < 4) && c.par 2 2 == 0
  | 0x52 => decide (t < 4) && c.par 2 2 == 0
  | 0x53 => decide (t < 8) && c.par 1 3 == 0
  | 0x54 => decide (t < 8 ∧ u < 2 ∧ c.par 2 1 < s.ranks ∧ c.par 3 1 < 10)
  | 0x55 =>
    decide (t < 8 ∧ u < 2 ∧ c.par 2 1 < s.ranks ∧ c.par 3 1 < 10 ∧ c.par 4 1 < 8 ∧ c.par 5 1 < 4 ∧ c.par 8 4 < s.bankRows) &&
      c.par 6 2 == 0
  | 0x56 => decide (u ≤ 240) && c.par 2 2 == 0
  | 0x60 => State.viParams c
  | 0x61 | 0x62 => c.par 2 2 == 0 && decide (c.par 0 2 < 4096) && s.rb (Reg.VI_CFG (c.par 0 2)) 0
  | 0x63 => s.bindParams c
  | 0x64 => decide (c.par 0 4 < 262144) && s.qState (c.par 0 4) != qUnbound
  | 0x70 | 0x71 | 0x72 | 0x80 | 0x90 => (listWrites c.route.opcode c.params).isSome
  | 0x81 => decide (1 ≤ c.par 0 8 ∧ c.par 0 8 ≤ 2 ^ 40)
  | 0xB0 => s.lifeParams c
  | 0xC0 => c.par 2 2 == 0 && decide (c.par 0 2 ≤ 18) && areaThere (c.par 0 2) (c.par 4 4) (c.par 8 4)
  | 0xF0 => c.par 2 2 == 0 && areaThere (c.par 0 2) (c.par 4 4) (c.par 8 4)
  | _ => true

/-- FLAGS and the zero bytes of the header; PEER and NOTIFY belong to rings. -/
def Cmd.headerGood (c : Cmd) : Bool :=
  c.zero == 0 && c.flags % 2 == 0 && decide (c.flags < 8) &&
    (c.flags == 0 || decide (sourceCode c.route.src < 2)) && decide (c.len ≤ 4080) &&
    (match cmdLength c.route.opcode with | some n => c.len == n | none => true)

/-! ### Locks, conflicts and resources -/

/-- A locked field or write-once register that the command would alter (R494, R329). -/
def State.cmdLocked (s : State) (c : Cmd) : Bool :=
  match c.route.opcode with
  | 0x50 => s.modes.dramReady
  | 0x51 =>
    (List.range 256).any fun k =>
      let w := c.par 1 1 * 256 + k
      s.writeIsLocked (Reg.MC_DS_WORD (c.par 0 1) w) (c.par (4 + 4 * k) 4 &&& dsMask w)
  | 0x70 | 0x71 | 0x72 | 0x80 | 0x90 =>
    (match listWrites c.route.opcode c.params with
     | some ws => ws.any fun w => s.writeIsLocked w.1 w.2.2
     | none => false)
  | _ => false

/-- The numbers whose bit is set. -/
def bitsOf (mask n : Nat) : List Nat := (List.range n).filter mask.testBit

/-- The channels that a DRAM command names. -/
def Cmd.channels (c : Cmd) : List Nat :=
  match c.route.opcode with
  | 0x51 | 0x53 | 0x54 | 0x55 => [c.par 0 1]
  | 0x52 => bitsOf (c.par 1 1) 8
  | 0x56 => bitsOf (c.par 0 1) 8
  | _ => []

/-- The queues that a command names: each queue of its VI (R482). -/
def State.cmdQueues (s : State) (c : Cmd) : List Nat :=
  match s.namedVi c with
  | some v => s.viQueues v
  | none => []

/-- A deferred command holds an object that the command names (R482). -/
def State.heldByDeferred (s : State) (c : Cmd) : Bool :=
  s.lemam.deferred.any fun d => (c.channels.any d.channels.contains) || ((s.cmdQueues c).any d.queues.contains)

/-- The commands that R482 defers. -/
def cmdDefers (opcode : Nat) : Bool := [0x52, 0x53, 0x55, 0x61, 0x62, 0x64].contains opcode

/-- ARB_MC n is frozen and idle (R146). -/
def State.mcFrozen (s : State) (n : Nat) : Bool := s.arbFrozen n && !s.beyond n

/-- A conflict: with a deferred command, or by the command's own rule. -/
def State.cmdBusy (s : State) (c : Cmd) : Bool :=
  (cmdDefers c.route.opcode && decide (16 ≤ s.lemam.deferred.length)) || s.heldByDeferred c ||
    (match c.route.opcode with
     | 0x10 => s.modeChanging && decide (c.par 0 1 ≠ s.mode)
     | 0x51 =>
       let st := Reg.MC_STATUS (c.par 0 1)
       decide (s.rf st 4 3 = c.par 1 1) || (s.rb st 5 && decide (s.rf st 7 6 = c.par 1 1))
     | 0x52 => c.channels.any fun n => s.rb (Reg.MC_STATUS n) 5
     | 0x53 | 0x55 => !s.mcFrozen (c.par 0 1)
     | 0x60 => s.rb (Reg.VI_CFG (c.par 0 2)) 0
     | 0x63 => s.qState (c.par 0 4) != qUnbound
     | 0xA0 => s.rb Reg.GT_SHUTTER_CTRL 1
     | _ => false)

/-- The VI's queues or vectors overlap those of another valid VI (R366). -/
def State.viOverlaps (s : State) (q n vec vecs : Nat) : Bool :=
  s.validVis.any fun v =>
    let q2 := s.rf (Reg.VI_QRANGE v) 17 0
    let n2 := s.rf (Reg.VI_QRANGE v) 26 18
    let w2 := s.rf (Reg.VI_VEC v) 9 0
    let k2 := s.rf (Reg.VI_VEC v) 22 16
    (decide (q < q2 + n2) && decide (q2 < q + n)) || (decide (vec < w2 + k2) && decide (w2 < vec + vecs))

/-- The resources that the command names are there. -/
def State.cmdShort (s : State) (c : Cmd) : Bool :=
  match c.route.opcode with
  | 0x20 => c.par 0 1 != 0xFF && s.rb (Reg.PVT_COREPT (c.par 0 1)) 3
  | 0x54 =>
    let key := c.par 1 1 * 2 + c.par 2 1
    tabGet 0 (s.mc (c.par 0 1)).erased key != 0 || tabGet 0 (s.mc (c.par 0 1)).erasing key != 0
  | 0x60 => s.viOverlaps (c.par 16 4) (c.par 20 2) (c.par 22 2) (c.par 24 1)
  | _ => false

/-- SPARE_ENGAGE's own order (R523): a free spare first, then the unit's use. -/
def State.spareCheck (s : State) (c : Cmd) : Nat :=
  let (k, q, g, u) := (c.par 0 1, c.par 1 1, c.par 2 1, c.par 4 2)
  if ¬ s.spareThere k q g u then 7 else if s.spareUnitBusy k q g u then 6 else 0

/-- The first check that fails, by its STATUS; 0 when the command may run (R480). -/
def State.cmdCheck (s : State) (c : Cmd) : Nat :=
  let op := c.route.opcode
  if cmdSources op = [] then 1
  else if ¬ (cmdSources op).contains (sourceCode c.route.src) ∨ s.cmdDenied c = true then 5
  else if ¬ s.cmdMode c then 4
  else if ¬ (c.headerGood && s.cmdValues c) then 2
  else if s.cmdLocked c then 3
  else if op = 0x31 then s.spareCheck c
  else if s.cmdBusy c then 6
  else if s.cmdShort c then 7
  else 0

end Sys2Proof.Machine
end

