-- ==== Sys2Proof/Machine/Lemam.lean ====
section
/-!
DEFINITION. Sys2Proof/Machine/Lemam.lean: what Lemam's commands do, how it takes them from its sources, the commands of the peer and the
deferred ones (R27, R366, R444 to R448, R464, R466, R481 to R493, R496 to R501, R515, R524, R591).
-/
namespace Sys2Proof.Machine

/-! ### Replies that wait -/

/-- A reply that waits until what `n` codes has come about. -/
def State.await (s : State) (r : Route) (n : Nat) : State := s.editLemam fun x => { x with waiting := x.waiting ++ [(r, n)] }

/-- A deferred command: its immediate part is done (R482). -/
def State.defer (s : State) (d : Deferred) : State :=
  let s1 := (s.editLemam fun x => { x with deferred := x.deferred ++ [d] }).lemamShow
  if d.route.opcode = 0x53 ∨ d.route.opcode = 0x55 then s1
  else s1.send 1000 (.deferredComplete (BitVec.ofNat 16 d.route.seq) (BitVec.ofNat 16 d.route.opcode) d.route.src [])

/-! ### Answers -/

/-- GET_INFO (R486). -/
def State.infoBytes (s : State) : List Byte :=
  toBytes 4 0x7200 ++ [0xA1, Config.romVersion] ++ toBytes 2 s.modes.patch ++ toBytes 1 s.enc.state ++ toBytes 1 s.mode ++
    toBytes 2 (s.rf cmdStatus 8 8) ++ toBytes 4 (s.capacity / 2 ^ 30) ++ toBytes 2 (96 - s.modes.lostCores.length) ++
    toBytes 2 (256 - s.modes.lostPcs.length) ++ toBytes 12 0

/-- MODE_GET. -/
def State.modeBytes (s : State) : List Byte :=
  toBytes 1 s.mode ++ toBytes 1 (s.rf Reg.PVT_MODE 6 4) ++ toBytes 2 (s.rf Reg.PVT_MODE 15 8) ++ toBytes 8 (s.rd Reg.PVT_MODE_GT)

/-- The register of a monitor. -/
def monitorReg (kind n : Nat) : Nat :=
  match kind with
  | 0 => Reg.PVT_TS n
  | 1 => Reg.PVT_VM n
  | 2 => Reg.PVT_PM n
  | _ => Reg.PVT_AM n

/-- PVT_READ. -/
def State.monitorBytes (s : State) (kind first count : Nat) : List Byte :=
  (List.range count).flatMap fun k => toBytes 4 (s.rd (monitorReg kind (first + k)))

/-- The entries that CONTACT_READ returns, and the newest SEQ (R591). -/
def Sheet.answer (x : Sheet) (first : Word32) (count : Nat) : List SheetEntry :=
  let newest := x.seq - 1
  let held := min x.ring.length 4096
  let ahead := (first - newest).toInt
  let start := if ahead < 1 - (held : Int) then 1 - (held : Int) else ahead
  if held = 0 ∨ ahead > 0 then []
  else (List.range (min count (1 - start).toNat)).filterMap fun (k : Nat) =>
    let seq := newest + BitVec.ofInt 32 (start + (k : Int))
    x.ring.find? fun e => e.seq == seq

/-- CONTACT_READ. -/
def State.contactBytes (s : State) (first : Word32) (count : Nat) : List Byte :=
  toBytes 4 (min s.sheet.lostCount (2 ^ 32 - 1)) ++ toBytes 4 (s.sheet.seq - 1).toNat ++
    (s.sheet.answer first count).flatMap SheetEntry.bytes

/-- The 4 bytes at an offset of a block of registers. -/
def State.wordAt (s : State) (a : Nat) : Nat :=
  match regFind a with
  | some _ => s.rd a % 2 ^ 32
  | none =>
    match regFind (a - 4) with
    | some (d, _, _) => if d.wide then s.rd (a - 4) / 2 ^ 32 else 0
    | none => 0

/-- PAIR_STATUS: the PAIR registers 0x004 to 0x043. -/
def State.pairBytes (s : State) : List Byte := (List.range 16).flatMap fun k => toBytes 4 (s.wordAt (Reg.PAIR_CFG + 4 + 4 * k))

/-! ### MODE_SET (R464, R496 to R501, R503) -/

/-- The cause of a change that a command makes (R504). -/
def cmdCause (r : Route) : Nat := match r.src with | .peer .. => 15 | _ => 3

/-- MODE_SET, after its checks: the reply follows when the mode is entered. -/
def State.runModeSet (s : State) (r : Route) (t : Nat) : State :=
  let cause := cmdCause r
  if t = s.mode then s.reply r 0 []
  else
    match t with
    | 2 => ((s.enterMode modeStandby cause).reply r 0 []).send 100000 .standbySequence
    | 3 =>
      if s.mode = modePaired then (s.agreeOn false s.agreedStart).await r modeRun
      else if s.mode = modeStandby then (s.askWake modeRun 11).await r modeRun
      else (s.enterMode s.runMode cause).reply r 0 []
    | 4 => (s.agreeOn true s.agreedStart).await r modePaired
    | 6 => if s.mode = modeStandby then (s.safeHold cause).await r modeSafeHold else (s.safeHold cause).reply r 0 []
    | _ => (s.enterMode modeService cause).reply r 0 []

/-! ### POWER_POINT_SET (R515) -/

/-- A clock point of a core: its cycles so far are counted at the old one. -/
def State.setPoint_ (s : State) (c point : Nat) : State :=
  if s.rb (Reg.PVT_COREPT c) 3 then s else (s.syncCycles c).recountReservation c fun s => s.wf (Reg.PVT_COREPT c) 1 0 point

/-- A core is powered off: it stops, and is gated once its stores have drained; or it is powered on. -/
def State.runPower (s : State) (r : Route) (core code : Nat) : State :=
  let cores := if core = 0xFF then List.range 96 else [core]
  match code with
  | 4 =>
    if s.coreUp core then ((s.stopCore core).await r (256 + core)).kickLemam 0
    else s.reply r 0 []
  | 5 => (if s.rb (Reg.PVT_COREPT core) 2 then s.releaseCore core else s).reply r 0 []
  | p => (cores.foldl (fun s c => s.setPoint_ c p) s).reply r 0 []

/-! ### DRAM commands (R326 to R329, R348, R361, R362) -/

/-- DRAM_DELAYSET_LOAD. -/
def State.loadSet (s : State) (n set : Nat) (words : List Byte) : State :=
  (List.range 256).foldl (fun s k =>
    let w := set * 256 + k
    s.wr (Reg.MC_DS_WORD n w) (ofBytes ((words.drop (4 * k)).take 4) &&& dsMask w)) s

/-- DRAM_DELAYSET_SELECT: the set waits for the next blackout of each channel. -/
def State.selectSet (s : State) (set : Nat) (channels : List Nat) : State :=
  channels.foldl (fun s n => (s.wf (Reg.MC_STATUS n) 7 6 set).wb (Reg.MC_STATUS n) 5 true) s

/-- DRAM_SCRUB_SET: the period from the next visit on. -/
def State.setScrub (s : State) (n hours : Nat) : State :=
  let s1 := s.setMc n { s.mc n with scrubHours := hours }
  let visit := Act.cmd (.scrubVisit (Fin.ofNat 8 n))
  if hours = 0 ∨ s1.agenda.any (fun e => e.2 == visit) then s1 else s1.after 1 visit

/-- The address of line k of 128 of a row: what R310 and R311 map to it. -/
def State.rowLine (s : State) (mc sub rank group bank row k : Nat) : Nat :=
  let u := row * s.ranks + rank
  if s.rb (Reg.MC_CFG 0) 5 then
    let l := sub + 2 * ((mc % 2) ^^^ (u % 2)) + (group ^^^ fld u 3 1) * 4 + (bank ^^^ fld u 5 4) * 32 + k * 128
    dramBase + (mc / 2) * (s.capacity / 4) + (u * 16384 + l) * 64
  else
    let l := sub + (mc ^^^ fld u 2 0) * 2 + (group ^^^ fld u 5 3) * 16 + (bank ^^^ fld u 7 6) * 128 + k * 512
    dramBase + (u * 65536 + l) * 64

/-- The end of a margin scan: the channel is preflashed (R328). -/
def State.flashChannel (s : State) (n : Nat) : State :=
  { s with mem := s.mem.filter fun e => !(s.inDram e.1 && (s.dramLoc e.1).mc == n)
           poison := s.poison.filter fun e => !(s.inDram e.1 && (s.dramLoc e.1).mc == n) }

/-- The end of a repair: byte 0 of what the hardware reports is 0 when it succeeded, and the 16 bytes that follow name the lines whose
read was uncorrectable (R362). -/
def State.endRepair (s : State) (d : Deferred) (results : List Byte) : State :=
  if ofBytes (results.take 1) ≠ 0 then s.reply d.route 7 []
  else
    let bad := ofBytes ((results.drop 1).take 16)
    let p := fun k n => ofBytes ((d.params.drop k).take n)
    let mc := p 0 1
    let s1 := (bitsOf bad 128).foldl (fun s k => s.poisonLine (s.rowLine mc (p 1 1) (p 2 1) (p 4 1) (p 5 1) (p 8 4) k)) s
    (s1.log .dramRepair (unitSub mc (p 1 1)) 0).reply d.route 0 []

/-! ### Lifecycle (R444, R445, R448) -/

/-- Lemam's own state after the units have been reset under it: what it had taken is gone. -/
def State.lemamCleared (s : State) : State :=
  (s.editLemam fun x => { x with deferred := [], outs := [], peerIn := [], waiting := [] }).lemamShow

/-- Entry to RETURN (R448). -/
def State.enterReturn (s : State) : State :=
  let s1 := s.closeDebug.eraseAll.lemamCleared
  let s2 := (List.range 96).foldl (fun s c => (s.setCore c {}).wb (Reg.PVT_COREPT c) 2 true) s1
  (s2.bootHalt.armAvs).kickLemam

/-- LIFECYCLE_ADVANCE: whether the burn succeeds is a free value. -/
def State.runLifecycle (s : State) (r : Route) (c : Cmd) : State :=
  let (v, s0) := s.fresh
  if v.toNat % 2 = 1 then s0.reply r 8 []
  else
    let t := c.par 0 1
    let now := s.enc.state
    let s1 := s0.editEnc fun x => { x with
      state := t, secver := max x.secver (c.par 2 1)
      keyHash := if now = 0 ∧ t ≠ 0 then (c.params.drop 4).take 48 else x.keyHash }
    if t = now then s1.reply r 0 []
    else if t = lifeReturn then s1.enterReturn.reply r 0 []
    else
      let s2 := if now = 0 then s1.endScan.after 15000000 (.boot 6) else s1.closeDebug
      s2.reply r 0 []

/-- DEBUG_UNLOCK: the device is reset as at RESET_N, on-chip SRAM and DRAM are zero, the keys are cleared, DEBUG_OPEN is set, and the start
goes on from step 5 with the boot devices as the last start found them. -/
def State.runUnlock (s : State) (r : Route) : State :=
  let prev := s.mode
  let s1 := s.warmReset
  let s2 := { s1 with sheet := {}, mem := [], poison := [], points := [], ert := [] }
  let s3 := ((s2.wr Reg.PT_FORCED_COUNT 0).clearAllKeys).editEnc fun x => { x with debugOpen := true }
  let s4 := (s3.modeAfter prev modePreflash 1).reply r 0 []
  (setModes s4 fun m => { m with boot := m.found, willFlash := !m.dramReady }).after (3000000 + s.preflashTime) (.boot 5)

/-! ### The commands (R485) -/

/-- A command runs once every check has passed. -/
def State.cmdRun (s : State) (c : Cmd) : State :=
  let r := c.route
  let t := c.par 0 1
  let u := c.par 1 1
  let ok := fun (s : State) => s.reply r 0 []
  match r.opcode with
  | 0x01 => s.reply r 0 c.params
  | 0x02 => s.reply r 0 s.infoBytes
  | 0x10 => s.runModeSet r t
  | 0x11 => s.reply r 0 s.modeBytes
  | 0x20 => s.runPower r t u
  | 0x21 => s.reply r 0 (s.monitorBytes t u (c.par 2 1))
  | 0x30 => s.reply r 0 (s.spareReply t u)
  | 0x31 => ok (s.engage t u (c.par 2 1) (c.par 4 2))
  | 0x40 => s.reply r 0 (s.contactBytes (BitVec.ofNat 32 (c.par 0 4)) (c.par 4 1))
  | 0x41 => ok { s with sheet := s.sheet.clear }
  | 0x50 => ok (setModes s fun m => { m with dramBlock := some c.params })
  | 0x51 => ok (s.loadSet t u (c.params.drop 4))
  | 0x52 => (s.selectSet t c.channels).defer { route := r, queues := [], channels := c.channels, params := c.params }
  | 0x53 => s.defer { route := r, queues := [], channels := c.channels, params := c.params }
  | 0x54 =>
    let m := s.mc t
    (s.setMc t { m with erasing := tabSet 0 m.erasing (u * 2 + c.par 2 1) (c.par 3 1 + 1) }).await r (1024 + 4 * t + u * 2 + c.par 2 1)
  | 0x55 => s.defer { route := r, queues := [], channels := c.channels, params := c.params }
  | 0x56 => ok (c.channels.foldl (fun s n => s.setScrub n u) s)
  | 0x60 =>
    ok (s.makeVi (c.par 0 2) (c.par 2 2) (c.par 8 8) (c.par 4 1) (c.par 16 4) (c.par 20 2) (c.par 22 2) (c.par 24 1))
  | 0x61 =>
    let v := c.par 0 2
    (s.resetVi v).defer { route := r, queues := s.viQueues v, channels := [], vi := some v, params := c.params }
  | 0x62 => (s.resetVi (c.par 0 2)).defer { route := r, queues := s.viQueues (c.par 0 2), channels := [], params := c.params }
  | 0x63 => ok (s.bindQueue (c.par 0 4) (c.par 4 1) (c.par 8 8) (c.par 16 8) (c.par 5 1) (c.par 6 1) (c.par 7 1))
  | 0x64 => (s.resetQueue (c.par 0 4)).defer { route := r, queues := s.cmdQueues c, channels := [], params := c.params }
  | 0x70 | 0x71 | 0x72 | 0x80 | 0x90 => ok (s.writeList (sourcePl3 r.src) ((listWrites r.opcode c.params).getD []))
  | 0x81 =>
    let s1 := s.stepTime (c.par 0 8)
    s1.reply r 0 (toBytes 8 s1.now)
  | 0x91 => s.reply r 0 s.pairBytes
  | 0xA0 =>
    let g := c.par 0 8
    if g ≤ s.now then (s.shutter s.now).reply r 0 (toBytes 8 s.now)
    else ((s.storeReg Reg.GT_SHUTTER g).armShutter).reply r 0 (toBytes 8 g)
  | 0xB0 => s.runLifecycle r c
  | 0xB1 => s.runUnlock r
  | 0xC0 => ok (s.lockArea (c.par 0 2) (c.par 4 4) (c.par 8 4))
  | _ =>
    let b := s.areaBytes (c.par 0 2) (c.par 4 4) (c.par 8 4)
    s.reply r 0 (toBytes 4 (crc32c b).toNat ++ toBytes 4 b.length)

/-- A command is checked and, if it passes, carried out. -/
def State.command (s : State) (c : Cmd) : State :=
  let st := s.cmdCheck c
  if st = 0 then s.cmdRun c else s.reply c.route st []

/-! ### Peer commands (R466, R481) -/

/-- A ring command with PEER set goes to the other side: at most 4 outstanding, at most 4,064 bytes of parameters, and over a link that
is UP. -/
def State.toPeer (s : State) (c : Cmd) : State :=
  let r := c.route
  if c.zero ≠ 0 ∨ c.flags % 2 ≠ 0 ∨ 8 ≤ c.flags ∨ 4064 < c.len then s.reply r 2 [] true
  else if 4 ≤ s.lemam.outs.length then s.reply r 6 [] true
  else if s.pairLink ≠ 2 then s.reply r 9 [] true
  else
    let packet := toBytes 2 r.opcode ++ toBytes 2 r.seq ++ toBytes 2 c.len ++ [BitVec.ofNat 8 (sourceByte r.src), 0] ++ toBytes 8 0 ++ c.params
    (s.editLemam fun x => { x with outs := x.outs ++ [r] }).present 0 13 1 (s.defaultStamp 13 1) 0 (packet.length + 2) (.peerCommand packet)

/-- PEER_COMMAND: a command of the peer waits for its turn. -/
def execPeerCommand (packet : List Byte) (s : State) : Host.Outcome State Fault Refusal :=
  if s.pairLink ≠ 2 then .next s
  else .next ((s.editLemam fun x => { x with peerIn := x.peerIn ++ [packet] }).kickLemam 500)

/-- PEER_REPLY: the reply completes its command; no bytes at all stand for the loss of the link, which ends the oldest with TIMEOUT. -/
def execPeerReply (packet : List Byte) (s : State) : Host.Outcome State Fault Refusal :=
  let mine := fun (r : Route) => packet = [] ∨ (r.opcode = ofBytes (packet.take 2) ∧ r.seq = ofBytes ((packet.drop 2).take 2))
  match s.lemam.outs.find? mine with
  | none => .next s
  | some r =>
    let s1 := s.editLemam fun x => { x with outs := x.outs.erase r }
    if packet = [] then .next (s1.reply r 9 [] true)
    else
      let n := ofBytes ((packet.drop 4).take 2)
      .next (s1.reply r (ofBytes ((packet.drop 8).take 1)) ((packet.drop 16).take n) true)

/-! ### Taking (R476, R478, R481) -/

/-- A packet as a command: bytes that it lacks count as zero. -/
def packetCmd (r : Route) (p : List Byte) : Cmd :=
  let f := fun k n => ofBytes ((p.drop k).take n)
  let len := f 4 2
  let given := (p.drop 16).take (min len 4080)
  { route := { r with opcode := f 0 2, seq := f 2 2, live := true }
    flags := f 7 1, len := len, zero := f 8 8, params := given ++ List.replicate (min len 4080 - given.length) 0 }

/-- A command of a ring: its slot is read, and HEAD advances. -/
def State.takeRing (s : State) (j : Nat) : State :=
  let a := s.ringSlot j (s.rd (Reg.CMDR_HEAD j))
  if ¬ s.slotOpen a then s.ringError j
  else
    match s.slotBytes a 16 with
    | none => s.ringError j
    | some h =>
      match s.slotBytes a (16 + min 4080 (ofBytes ((h.drop 4).take 2))) with
      | none => s.ringError j
      | some p =>
        let c := packetCmd { src := .ring (Fin.ofNat 32 j), opcode := 0, seq := 0, slot := a } p
        let c := { c with route := { c.route with notify := c.flags.testBit 2 } }
        let s1 := s.wr (Reg.CMDR_HEAD j) ((s.rd (Reg.CMDR_HEAD j) + 1) % 65536)
        if c.flags.testBit 1 then s1.toPeer c else s1.command c

/-- A source has a command. -/
def State.sourceReady (s : State) (k : Nat) : Bool :=
  if k < 32 then s.ringReady k
  else if k = 32 then s.lemam.spiCmd.isSome
  else if k = 33 then !s.lemam.peerIn.isEmpty
  else !s.net.mgmt.isEmpty

/-- One command of a source is taken. -/
def State.takeFrom (s : State) (k : Nat) : State :=
  if k < 32 then s.takeRing k
  else if k = 32 then
    let p := s.lemam.spiCmd.getD []
    (s.editLemam fun x => { x with spiCmd := none }).command (packetCmd { src := .spi, opcode := 0, seq := 0 } p)
  else if k = 33 then
    match s.lemam.peerIn with
    | [] => s
    | p :: rest =>
      let j := ofBytes ((p.drop 6).take 1) / 8
      (s.editLemam fun x => { x with peerIn := rest }).command
        (packetCmd { src := .peer (Fin.ofNat 32 j) (decide (16 ≤ j)), opcode := 0, seq := 0 } p)
  else
    match s.net.mgmt with
    | [] => s
    | (port, f) :: rest =>
      let p := f.drop ((dinathAt f).getD 14 + 16)
      { s with net := { s.net with mgmt := rest } }.command
        (packetCmd { src := .mgmt, opcode := 0, seq := 0, port := port, frame := f } p)

/-- A reply that waited is sent once what it waits for has come about. -/
def State.settleOne (s : State) (w : Route × Nat) : State :=
  let (r, n) := w
  if n < 256 then
    if s.mode = n ∨ (n = modeRun ∧ s.mode = modeDegraded) then s.reply r 0 []
    else if s.modeChanging then s.await r n
    else s.reply r 4 []
  else if n < 512 then if s.drained (n - 256) then (s.gateCore (n - 256)).reply r 0 [] else s.await r n
  else if n < 1024 then if s.drained (n - 512) then s.coreLost (n - 512) else s.await r n
  else if tabGet 0 (s.mc ((n - 1024) / 4)).erasing (n % 4) = 0 then s.reply r 0 []
  else s.await r n

/-- Every reply that waits is looked at. -/
def State.settleWaiting (s : State) : State :=
  s.lemam.waiting.foldl State.settleOne (s.editLemam fun x => { x with waiting := [] })

/-- COMMAND_TAKE: Lemam takes one command from the next source in turn that has one, and looks again while anything is left to do. -/
def execCommandTake (s : State) : Host.Outcome State Fault Refusal :=
  if ¬ s.lemamRuns then .next s
  else
    let s1 := s.settleWaiting
    let order := (List.range 35).map fun k => (s1.lemam.turn + k) % 35
    let s2 :=
      match order.find? s1.sourceReady with
      | none => s1
      | some k => (s1.editLemam fun x => { x with turn := (k + 1) % 35 }).takeFrom k
    let s3 := if s2.lemam.waiting.any fun w => decide (256 ≤ w.2 ∧ w.2 < 1024) then s2.kickLemam 100 else s2
    .next (if (List.range 35).any s3.sourceReady then s3.kickLemam else s3)

/-! ### Deferred commands (R384, R482) -/

/-- The hardware has finished a deferred command, or will be asked again. -/
def State.deferredDone (s : State) (d : Deferred) : Bool :=
  match d.route.opcode with
  | 0x52 => d.channels.all fun n => !s.rb (Reg.MC_STATUS n) 5
  | 0x53 | 0x55 => true
  | _ => d.queues.all s.queueQuiet

/-- The end of a deferred command. -/
def State.deferredEnd (s : State) (d : Deferred) (results : List Byte) : State :=
  match d.route.opcode with
  | 0x53 => (d.channels.foldl State.flashChannel s).reply d.route 0 results
  | 0x55 => s.endRepair d results
  | _ =>
    match d.vi with
    | some v => (s.dropVi v).reply d.route 0 []
    | none => s.reply d.route 0 []

/-- DEFERRED_COMPLETE. For a margin scan and a row repair `results` is what the hardware found. -/
def execDeferredComplete (seq opcode : BitVec 16) (src : CmdSource) (results : List Byte) (s : State) : Host.Outcome State Fault Refusal :=
  let mine := fun (d : Deferred) => d.route.opcode == opcode.toNat && d.route.seq == seq.toNat && d.route.src == src
  match s.lemam.deferred.find? mine with
  | none => .next s
  | some d =>
    if s.deferredDone d then
      .next (((s.editLemam fun x => { x with deferred := x.deferred.erase d }).deferredEnd d results).lemamShow)
    else if opcode = 0x52 then .next s
    else .next (s.send 1000 (.deferredComplete seq opcode src results))

end Sys2Proof.Machine
end

