-- ==== Sys2Proof/Machine/LemamRows.lean ====
section
/-!
DEFINITION. Sys2Proof/Machine/LemamRows.lean: the rows of Lemam's commands: each is the execution by Lemam of one well-formed packet from a
source, its parameters laid out as R485 to R489 give them. The reply stands in `lemam.reply`.
-/
namespace Sys2Proof.Machine

/-- Lemam, when it runs, carries out a command from a source. -/
def State.row (s : State) (src : CmdSource) (opcode : Nat) (params : List Byte) : State :=
  if s.lemamRuns then
    s.command { route := { src := src, opcode := opcode, seq := 0 }, flags := 0, len := params.length, zero := 0, params := params }
  else s

/-- A write list of entries after its prefix (R489). -/
def listBytes (first : Byte) (ws : List CfgWrite) : List Byte :=
  first :: toBytes 3 0 ++ ws.flatMap fun w => toBytes 4 w.offset.toNat ++ w.width :: toBytes 3 0 ++ toBytes 8 w.value.toNat

/-- AREA, FIRST and COUNT. -/
def areaParams (area : BitVec 16) (first count : Word32) : List Byte :=
  toBytes 2 area.toNat ++ toBytes 2 0 ++ toBytes 4 first.toNat ++ toBytes 4 count.toNat

/-- ECHO (R485). -/
def execEcho (src : CmdSource) (bytes : List Byte) (s : State) : Host.Outcome State Fault Refusal := .next (s.row src 0x01 bytes)

/-- GET_INFO (R486). -/
def execGetInfo (src : CmdSource) (s : State) : Host.Outcome State Fault Refusal := .next (s.row src 0x02 [])

/-- MODE_SET (R496 to R501). -/
def execModeSet (src : CmdSource) (mode : Byte) (s : State) : Host.Outcome State Fault Refusal :=
  .next (s.row src 0x10 (mode :: toBytes 3 0))

/-- MODE_GET (R485). -/
def execModeGet (src : CmdSource) (s : State) : Host.Outcome State Fault Refusal := .next (s.row src 0x11 [])

/-- POWER_POINT_SET (R515). -/
def execPowerPointSet (src : CmdSource) (core point : Byte) (s : State) : Host.Outcome State Fault Refusal :=
  .next (s.row src 0x20 ([core, point] ++ toBytes 2 0))

/-- PVT_READ (R485, R529). -/
def execPvtRead (src : CmdSource) (kind first count : Byte) (s : State) : Host.Outcome State Fault Refusal :=
  .next (s.row src 0x21 [kind, first, count, 0])

/-- SPARE_STATUS (R534). -/
def execSpareStatus (src : CmdSource) (kind quad : Byte) (s : State) : Host.Outcome State Fault Refusal :=
  .next (s.row src 0x30 [kind, quad, 0, 0])

/-- SPARE_ENGAGE (R523, R524). -/
def execSpareEngage (src : CmdSource) (kind quad group : Byte) (unit : BitVec 16) (s : State) : Host.Outcome State Fault Refusal :=
  .next (s.row src 0x31 ([kind, quad, group, 0] ++ toBytes 2 unit.toNat ++ toBytes 2 0))

/-- CONTACT_READ (R591). -/
def execContactRead (src : CmdSource) (first : Word32) (count : Byte) (s : State) : Host.Outcome State Fault Refusal :=
  .next (s.row src 0x40 (toBytes 4 first.toNat ++ count :: toBytes 3 0))

/-- CONTACT_CLEAR (R357). -/
def execContactClear (src : CmdSource) (s : State) : Host.Outcome State Fault Refusal := .next (s.row src 0x41 [])

/-- DRAM_CONFIG (R329). -/
def execDramConfig (src : CmdSource) (params : List Byte) (s : State) : Host.Outcome State Fault Refusal := .next (s.row src 0x50 params)

/-- DRAM_DELAYSET_LOAD (R326). -/
def execDramDelaysetLoad (src : CmdSource) (params : List Byte) (s : State) : Host.Outcome State Fault Refusal :=
  .next (s.row src 0x51 params)

/-- DRAM_DELAYSET_SELECT (R327). -/
def execDramDelaysetSelect (src : CmdSource) (set mask : Byte) (s : State) : Host.Outcome State Fault Refusal :=
  .next (s.row src 0x52 [set, mask, 0, 0])

/-- DRAM_MARGIN_SCAN (R328). -/
def execDramMarginScan (src : CmdSource) (params : List Byte) (s : State) : Host.Outcome State Fault Refusal :=
  .next (s.row src 0x53 params)

/-- DRAM_ERASE_DEVICE (R361). -/
def execDramEraseDevice (src : CmdSource) (channel sub rank device : Byte) (s : State) : Host.Outcome State Fault Refusal :=
  .next (s.row src 0x54 [channel, sub, rank, device])

/-- DRAM_REPAIR_ROW (R362). -/
def execDramRepairRow (src : CmdSource) (params : List Byte) (s : State) : Host.Outcome State Fault Refusal :=
  .next (s.row src 0x55 params)

/-- DRAM_SCRUB_SET (R348). -/
def execDramScrubSet (src : CmdSource) (mask hours : Byte) (s : State) : Host.Outcome State Fault Refusal :=
  .next (s.row src 0x56 [mask, hours, 0, 0])

/-- VI_CREATE (R366). -/
def execViCreate (src : CmdSource) (params : List Byte) (s : State) : Host.Outcome State Fault Refusal := .next (s.row src 0x60 params)

/-- VI_DESTROY (R366). -/
def execViDestroy (src : CmdSource) (vi : BitVec 16) (s : State) : Host.Outcome State Fault Refusal :=
  .next (s.row src 0x61 (toBytes 2 vi.toNat ++ toBytes 2 0))

/-- VI_RESET (R366). -/
def execViReset (src : CmdSource) (vi : BitVec 16) (s : State) : Host.Outcome State Fault Refusal :=
  .next (s.row src 0x62 (toBytes 2 vi.toNat ++ toBytes 2 0))

/-- QUEUE_BIND (R366). -/
def execQueueBind (src : CmdSource) (params : List Byte) (s : State) : Host.Outcome State Fault Refusal := .next (s.row src 0x63 params)

/-- QUEUE_RESET (R384). -/
def execQueueReset (src : CmdSource) (queue : Word32) (s : State) : Host.Outcome State Fault Refusal :=
  .next (s.row src 0x64 (toBytes 4 queue.toNat))

/-- PORT_CONFIG (R489). -/
def execPortConfig (src : CmdSource) (port : Byte) (writes : List CfgWrite) (s : State) : Host.Outcome State Fault Refusal :=
  .next (s.row src 0x70 (listBytes port writes))

/-- SWITCH_CONFIG (R489). -/
def execSwitchConfig (src : CmdSource) (writes : List CfgWrite) (s : State) : Host.Outcome State Fault Refusal :=
  .next (s.row src 0x71 (listBytes 0 writes))

/-- DINATH_CONFIG (R417, R489). -/
def execDinathConfig (src : CmdSource) (writes : List CfgWrite) (s : State) : Host.Outcome State Fault Refusal :=
  .next (s.row src 0x72 (listBytes 0 writes))

/-- PHASE_BASE_CONFIG (R489). -/
def execPhaseBaseConfig (src : CmdSource) (base : Byte) (writes : List CfgWrite) (s : State) : Host.Outcome State Fault Refusal :=
  .next (s.row src 0x80 (listBytes base writes))

/-- TIME_STEP (R27). -/
def execTimeStep (src : CmdSource) (step : Word64) (s : State) : Host.Outcome State Fault Refusal :=
  .next (s.row src 0x81 (toBytes 8 step.toNat))

/-- PAIR_CONFIG (R489). -/
def execPairConfig (src : CmdSource) (writes : List CfgWrite) (s : State) : Host.Outcome State Fault Refusal :=
  .next (s.row src 0x90 (listBytes 0 writes))

/-- PAIR_STATUS (R485). -/
def execPairStatus (src : CmdSource) (s : State) : Host.Outcome State Fault Refusal := .next (s.row src 0x91 [])

/-- SHUTTER (R555). -/
def execShutter (src : CmdSource) (gt : Word64) (s : State) : Host.Outcome State Fault Refusal :=
  .next (s.row src 0xA0 (toBytes 8 gt.toNat))

/-- LIFECYCLE_ADVANCE (R444). -/
def execLifecycleAdvance (src : CmdSource) (params : List Byte) (s : State) : Host.Outcome State Fault Refusal :=
  .next (s.row src 0xB0 params)

/-- DEBUG_UNLOCK (R445). -/
def execDebugUnlock (src : CmdSource) (s : State) : Host.Outcome State Fault Refusal := .next (s.row src 0xB1 [])

/-- LOCK_REGION (R493). -/
def execLockRegion (src : CmdSource) (area : BitVec 16) (first count : Word32) (s : State) : Host.Outcome State Fault Refusal :=
  .next (s.row src 0xC0 (areaParams area first count))

/-- CONFIG_CHECKSUM (R492). -/
def execConfigChecksum (src : CmdSource) (area : BitVec 16) (first count : Word32) (s : State) : Host.Outcome State Fault Refusal :=
  .next (s.row src 0xF0 (areaParams area first count))

end Sys2Proof.Machine
end

