-- ==== Sys2Proof/Decode.lean ====
section
/-!
DEFINITION. Sys2Proof/Decode.lean: the command that a word of the table spells (none: the table gives no row any bits), and the
instruction that a word in the memory of a phase core or of a main core is (R106, R107, R193 to R219).
-/
namespace Sys2Proof

/-- No row of the table gives bits (assumption 1). -/
def decodeTableWord (_nbits _w : Nat) : Option Instr := none

/-- The bits [lo + width - 1 : lo] of an instruction word. -/
def wordField {m : Nat} (w : Word32) (lo : Nat) : BitVec m := w.extractLsb' lo m

/-! ### The words of a phase core (R106, R107) -/

/-- Opcode 0x02. -/
def decodePcInteger (pc : PcId) (rd rs1 rs2 : PReg) (fn : Nat) : Option Instr :=
  match fn with
  | 0 => some (.pcAlu pc .add rd rs1 rs2)
  | 1 => some (.pcAlu pc .sub rd rs1 rs2)
  | 2 => some (.pcAlu pc .and rd rs1 rs2)
  | 3 => some (.pcAlu pc .or rd rs1 rs2)
  | 4 => some (.pcAlu pc .xor rd rs1 rs2)
  | 5 => some (.pcShift pc .sll rd rs1 rs2)
  | 6 => some (.pcShift pc .srl rd rs1 rs2)
  | 7 => some (.pcShift pc .sra rd rs1 rs2)
  | 8 => some (.pcSlt pc .signed rd rs1 rs2)
  | 9 => some (.pcSlt pc .unsigned rd rs1 rs2)
  | 10 => some (.pcMul pc rd rs1 rs2)
  | 11 => some (.pcMulh pc .signed rd rs1 rs2)
  | 12 => some (.pcMulh pc .unsigned rd rs1 rs2)
  | 13 => some (.qadd pc false rd rs1 rs2)
  | 14 => some (.qadd pc true rd rs1 rs2)
  | 15 => some (.pcMinMax pc .min rd rs1 rs2)
  | 16 => some (.pcMinMax pc .max rd rs1 rs2)
  | _ => none

/-- Opcode 0x10. -/
def decodePcFloat (pc : PcId) (rd rs1 rs2 : PReg) (fn : Nat) : Option Instr :=
  match fn with
  | 0 => some (.pcFadd pc .add rd rs1 rs2)
  | 1 => some (.pcFadd pc .sub rd rs1 rs2)
  | 2 => some (.pcFadd pc .mul rd rs1 rs2)
  | 3 => some (.fmac pc rd rs1 rs2)
  | 4 => some (.pcFdiv pc rd rs1 rs2)
  | 5 => some (.pcFsqrt pc rd rs1)
  | 6 => some (.pcFcompare pc .min rd rs1 rs2)
  | 7 => some (.pcFcompare pc .max rd rs1 rs2)
  | 8 => some (.pcFcompare pc .eq rd rs1 rs2)
  | 9 => some (.pcFcompare pc .lt rd rs1 rs2)
  | 10 => some (.pcFcompare pc .le rd rs1 rs2)
  | 11 => some (.pcFcvt pc true rd rs1)
  | 12 => some (.pcFcvt pc false rd rs1)
  | 13 => some (.fabsFneg pc false rd rs1)
  | 14 => some (.fabsFneg pc true rd rs1)
  | _ => none

/-- The instruction that a word is for a phase core; none is ILLEGAL. Bits that a format shows as zero are ignored. -/
def decodePcWord (pc : PcId) (w : Word32) : Option Instr :=
  let rd : PReg := wordField w 22
  let rs1 : PReg := wordField w 18
  let rs2 : PReg := wordField w 14
  let fn := (wordField w 0 : BitVec 5).toNat
  let imm : BitVec 18 := wordField w 0
  let acc : AccId := w.getLsbD 22
  match (wordField w 26 : BitVec 6).toNat with
  | 0x01 => some (.pcNop pc)
  | 0x02 => decodePcInteger pc rd rs1 rs2 fn
  | 0x03 => some (.pcAluImm pc .addi rd rs1 imm)
  | 0x04 => some (.pcAluImm pc .andi rd rs1 imm)
  | 0x05 => some (.pcAluImm pc .ori rd rs1 imm)
  | 0x06 => some (.pcAluImm pc .xori rd rs1 imm)
  | 0x07 => some (.pcAluImm pc .slti rd rs1 imm)
  | 0x08 =>
    match (wordField w 5 : BitVec 2).toNat with
    | 0 => some (.pcShiftImm pc .sll rd rs1 (wordField w 0))
    | 1 => some (.pcShiftImm pc .srl rd rs1 (wordField w 0))
    | 2 => some (.pcShiftImm pc .sra rd rs1 (wordField w 0))
    | _ => none
  | 0x09 => some (.pcLui pc rd (wordField w 0))
  | 0x0A =>
    match fn with
    | 0 => some (.mac pc .mac acc rs1 rs2)
    | 1 => some (.mac pc .msu acc rs1 rs2)
    | 2 => some (.mac pc .mula acc rs1 rs2)
    | _ => none
  | 0x0B => some (.accrd pc rd (w.getLsbD 18) (wordField w 0) (w.getLsbD 6))
  | 0x0C => some (.accwr pc acc rs1 (wordField w 0))
  | 0x0D =>
    match fn with
    | 0 => some (.pcDiv pc .div rd rs1 rs2)
    | 1 => some (.pcDiv pc .divu rd rs1 rs2)
    | 2 => some (.pcDiv pc .rem rd rs1 rs2)
    | 3 => some (.pcDiv pc .remu rd rs1 rs2)
    | _ => none
  | 0x10 => decodePcFloat pc rd rs1 rs2 fn
  | 0x14 => some (.pcLoad pc .lb rd rs1 imm)
  | 0x15 => some (.pcLoad pc .lbu rd rs1 imm)
  | 0x16 => some (.pcLoad pc .lh rd rs1 imm)
  | 0x17 => some (.pcLoad pc .lhu rd rs1 imm)
  | 0x18 => some (.pcLoad pc .lw rd rs1 imm)
  | 0x19 => some (.pcLd pc (.pair rd) rs1 imm)
  | 0x1A => some (.pcLd pc (.acc acc) rs1 imm)
  | 0x1C => some (.pcStore pc .sb rd rs1 imm)
  | 0x1D => some (.pcStore pc .sh rd rs1 imm)
  | 0x1E => some (.pcStore pc .sw rd rs1 imm)
  | 0x1F => some (.pcSd pc (.pair rd) rs1 imm)
  | 0x20 => some (.pcSd pc (.acc acc) rs1 imm)
  | 0x24 => some (.pcBranch pc .eq rd rs1 imm)
  | 0x25 => some (.pcBranch pc .ne rd rs1 imm)
  | 0x26 => some (.pcBranch pc .lt rd rs1 imm)
  | 0x27 => some (.pcBranch pc .ge rd rs1 imm)
  | 0x28 => some (.pcBranch pc .ltu rd rs1 imm)
  | 0x29 => some (.pcBranch pc .geu rd rs1 imm)
  | 0x2A => some (.pcJal pc (wordField w 0))
  | 0x2B => some (.pcJalr pc rd rs1 imm)
  | 0x2C => some (.pcLoop pc rs1 imm)
  | 0x2D => some (.pcLoopi pc (wordField w 14) (wordField w 0))
  | 0x30 => some (.waitev pc rd (wordField w 0))
  | 0x31 => some (.evsend pc rs1 (wordField w 0))
  | 0x32 => some (.pina pc rs1 (wordField w 0))
  | 0x33 => if fn ≤ 1 then some (.ptld pc (fn == 1) rd rs1) else none
  | 0x34 => if fn = 0 then some (.ptst pc rs1 rs2) else none
  | 0x35 => if fn = 0 then some (.dbell pc rs1 rs2) else none
  | 0x36 => if fn = 0 then some (.pcRdgt pc rd) else none
  | 0x37 => if fn ≤ 1 then some (.setdl pc (fn == 1) rs1) else none
  | 0x38 => some (.settm pc (w.getLsbD 0))
  | 0x39 => some (.tret pc)
  | 0x3A => some (.pcStop pc)
  | _ => none

/-! ### The words of a main core (R193 to R219) -/

/-- Opcode 0x01; fn[10:6] is zero (R197). -/
def decodeInteger (c : CoreId) (rd rs1 rs2 : GReg) (fn : Nat) : Option Instr :=
  match fn with
  | 0 => some (.add c false rd rs1 rs2)
  | 1 => some (.add c true rd rs1 rs2)
  | 2 => some (.and c .and rd rs1 rs2)
  | 3 => some (.and c .or rd rs1 rs2)
  | 4 => some (.and c .xor rd rs1 rs2)
  | 5 => some (.sll c .sll rd rs1 rs2)
  | 6 => some (.sll c .srl rd rs1 rs2)
  | 7 => some (.sll c .sra rd rs1 rs2)
  | 8 => some (.slt c .signed rd rs1 rs2)
  | 9 => some (.slt c .unsigned rd rs1 rs2)
  | 10 => some (.minMax c .min rd rs1 rs2)
  | 11 => some (.minMax c .max rd rs1 rs2)
  | 12 => some (.minuMaxu c .min rd rs1 rs2)
  | 13 => some (.minuMaxu c .max rd rs1 rs2)
  | 16 => if rs2 = 0 then some (.clzCtz c false rd rs1) else none
  | 17 => if rs2 = 0 then some (.clzCtz c true rd rs1) else none
  | 18 => if rs2 = 0 then some (.popc c rd rs1) else none
  | _ => none

/-- Opcode 0x02 (R198). -/
def decodeInteger32 (c : CoreId) (rd rs1 rs2 : GReg) (fn : Nat) : Option Instr :=
  match fn with
  | 0 => some (.addwSubw c false rd rs1 rs2)
  | 1 => some (.addwSubw c true rd rs1 rs2)
  | 5 => some (.sllw c .sll rd rs1 rs2)
  | 6 => some (.sllw c .srl rd rs1 rs2)
  | 7 => some (.sllw c .sra rd rs1 rs2)
  | _ => none

/-- Opcode 0x03 (R199). -/
def decodeMulDiv (c : CoreId) (rd rs1 rs2 : GReg) (fn : Nat) : Option Instr :=
  match fn with
  | 0 => some (.mul c rd rs1 rs2)
  | 1 => some (.mulh c .ss rd rs1 rs2)
  | 2 => some (.mulh c .uu rd rs1 rs2)
  | 3 => some (.mulh c .su rd rs1 rs2)
  | 4 => some (.mulw c rd rs1 rs2)
  | 8 => some (.div c .signed rd rs1 rs2)
  | 9 => some (.div c .unsigned rd rs1 rs2)
  | 10 => some (.rem c .signed rd rs1 rs2)
  | 11 => some (.rem c .unsigned rd rs1 rs2)
  | 12 => some (.divw c .div rd rs1 rs2)
  | 13 => some (.divw c .divu rd rs1 rs2)
  | 14 => some (.divw c .rem rd rs1 rs2)
  | 15 => some (.divw c .remu rd rs1 rs2)
  | _ => none

/-- Opcode 0x0B: imm16[15:9] is zero, [8] the 32-bit form, [7:6] the shift, [5:0] the amount (R200). -/
def decodeShiftImm (c : CoreId) (rd rs1 : GReg) (imm : BitVec 16) : Option Instr :=
  let word := imm.getLsbD 8
  if imm.toNat / 2 ^ 9 ≠ 0 ∨ (word ∧ imm.getLsbD 5) then none
  else
    match imm.toNat / 64 % 4 with
    | 0 => some (.slli c .sll word rd rs1 (imm.setWidth 6))
    | 1 => some (.slli c .srl word rd rs1 (imm.setWidth 6))
    | 2 => some (.slli c .sra word rd rs1 (imm.setWidth 6))
    | _ => none

/-- The rounding that rm selects (R212). -/
def roundingOf : Nat → Option Rounding
  | 0 => some .nearestEven
  | 1 => some .nearestAway
  | 2 => some .towardZero
  | 3 => some .towardPos
  | 4 => some .towardNeg
  | _ => none

/-- An operation of opcode 0x2C with its rounding: fn[4:0] of a row that rounds. -/
def decodeRounded (c : CoreId) (rd rs1 rs2 : FReg) (fmt : FpFmt) (rm : Rounding) (op : Nat) : Option Instr :=
  match op with
  | 0 => some (.fadd c .add fmt rm rd rs1 rs2)
  | 1 => some (.fadd c .sub fmt rm rd rs1 rs2)
  | 2 => some (.fadd c .mul fmt rm rd rs1 rs2)
  | 3 => some (.fadd c .div fmt rm rd rs1 rs2)
  | _ =>
    if rs2 ≠ 0 then none
    else
      match op with
      | 4 => some (.fsqrt c fmt rm rd rs1)
      | 14 => some (.ftoiW c .signed fmt rm rd rs1)
      | 15 => some (.ftoiW c .unsigned fmt rm rd rs1)
      | 16 => some (.ftoiL c .signed fmt rm rd rs1)
      | 17 => some (.ftoiL c .unsigned fmt rm rd rs1)
      | 18 => some (.itofW c .signed fmt rm rd rs1)
      | 19 => some (.itofW c .unsigned fmt rm rd rs1)
      | 20 => some (.itofL c .signed fmt rm rd rs1)
      | 21 => some (.itofL c .unsigned fmt rm rd rs1)
      | 22 => some (.fresize c fmt rm rd rs1)
      | _ => none

/-- An operation of opcode 0x2C that does not round. -/
def decodeUnrounded (c : CoreId) (rd rs1 rs2 : FReg) (fmt : FpFmt) (op : Nat) : Option Instr :=
  match op with
  | 5 => some (.fminFmax c .min fmt rd rs1 rs2)
  | 6 => some (.fminFmax c .max fmt rd rs1 rs2)
  | 7 => some (.fsign c .copy fmt rd rs1 rs2)
  | 8 => some (.fsign c .neg fmt rd rs1 rs2)
  | 9 => some (.fsign c .xor fmt rd rs1 rs2)
  | 10 => some (.feq c .eq fmt rd rs1 rs2)
  | 11 => some (.feq c .lt fmt rd rs1 rs2)
  | 12 => some (.feq c .le fmt rd rs1 rs2)
  | _ =>
    if rs2 ≠ 0 then none
    else
      match op with
      | 13 => some (.fkind c fmt rd rs1)
      | 23 => some (.fbitsG c fmt rd rs1)
      | 24 => some (.fbitsF c fmt rd rs1)
      | _ => none

/-- Opcode 0x2C: fn[4:0] the operation, fn[5] fmt, fn[8:6] rm, fn[10:9] zero (R210). -/
def decodeFloat (c : CoreId) (rd rs1 rs2 : FReg) (fn : Nat) : Option Instr :=
  let op := fn % 32
  let fmt : FpFmt := if fn.testBit 5 then .d else .s
  let rm := fn / 64
  match decodeUnrounded c rd rs1 rs2 fmt op with
  | some i => if rm = 0 then some i else none
  | none =>
    match roundingOf rm with
    | some r => decodeRounded c rd rs1 rs2 fmt r op
    | none => none

/-- Opcode 0x2D (R193, R211). -/
def decodeFused (c : CoreId) (rd rs1 rs2 rs3 : FReg) (fmt : FpFmt) (rm sel : Nat) : Option Instr :=
  match roundingOf rm, sel with
  | some r, 0 => some (.fmadd c fmt r rd rs1 rs2 rs3)
  | some r, 1 => some (.fmsub c fmt r rd rs1 rs2 rs3)
  | some r, 2 => some (.fnmsub c fmt r rd rs1 rs2 rs3)
  | some r, 3 => some (.fnmadd c fmt r rd rs1 rs2 rs3)
  | _, _ => none

/-- Opcodes 0x30, 0x31, 0x35 and 0x36 (R214, R215, R216, R219). -/
def decodeSystemR (c : CoreId) (op fn : Nat) (rd rs1 rs2 : GReg) : Option Instr :=
  match op, fn with
  | 0x30, 0 => if rs2 = 0 then some (.ldres c false rd rs1) else none
  | 0x30, 1 => if rs2 = 0 then some (.ldres c true rd rs1) else none
  | 0x30, 2 => some (.stcond c false rd rs1 rs2)
  | 0x30, 3 => some (.stcond c true rd rs1 rs2)
  | 0x36, 0 => if rs1 = 0 ∧ rs2 = 0 then some (.rdgt c rd) else none
  | 0x35, _ =>
    if rd ≠ 0 then none
    else
      match fn with
      | 0 => some (.tlbiVa c rs1 rs2)
      | 1 => if rs2 = 0 then some (.tlbiAsid c rs1) else none
      | 2 => if rs1 = 0 ∧ rs2 = 0 then some (.tlbiGuest c) else none
      | 3 => some (.tlbiIpa c rs1 rs2)
      | 4 => if rs2 = 0 then some (.tlbiVmid c rs1) else none
      | 5 => if rs1 = 0 ∧ rs2 = 0 then some (.tlbiAll c) else none
      | _ => none
  | 0x31, _ =>
    if rd ≠ 0 ∨ rs1 ≠ 0 ∨ rs2 ≠ 0 then none
    else
      match fn with
      | 0 => some (.fence c)
      | 1 => some (.fenceSl c)
      | 2 => some (.fenceL c)
      | 3 => some (.fenceIo c)
      | 4 => some (.syncI c)
      | _ => none
  | _, _ => none

/-- Opcode 0x34 selects its instruction in bits [25:21] (R218). -/
def decodeCall (c : CoreId) (sel : Nat) (rs1 : GReg) (imm : BitVec 16) : Option Instr :=
  if rs1 ≠ 0 then none
  else
    match sel with
    | 0 => some (.svcall c imm)
    | 1 => some (.hvcall c imm)
    | 2 => some (.moncall c imm)
    | 3 => if imm = 0 then some (.eret c) else none
    | 4 => if imm = 0 then some (.wfi c) else none
    | _ => none

/-- Opcodes 0x04 to 0x28 of the formats I, S, B, J and U (R200, R201, R204). -/
def decodeImmediate (c : CoreId) (w : Word32) (op : Nat) : Option Instr :=
  let rd : GReg := wordField w 21
  let rs1 : GReg := wordField w 16
  let imm : BitVec 16 := wordField w 0
  match op with
  | 0x04 => some (.addi c rd rs1 imm)
  | 0x05 => some (.addiw c rd rs1 imm)
  | 0x06 => some (.andi c .and rd rs1 imm)
  | 0x07 => some (.andi c .or rd rs1 imm)
  | 0x08 => some (.andi c .xor rd rs1 imm)
  | 0x09 => some (.slti c .signed rd rs1 imm)
  | 0x0A => some (.slti c .unsigned rd rs1 imm)
  | 0x0B => decodeShiftImm c rd rs1 imm
  | 0x0C => some (.lui c rd (wordField w 0))
  | 0x0D => some (.auipc c rd (wordField w 0))
  | 0x10 => some (.load c .lb rd rs1 imm)
  | 0x11 => some (.load c .lbu rd rs1 imm)
  | 0x12 => some (.load c .lh rd rs1 imm)
  | 0x13 => some (.load c .lhu rd rs1 imm)
  | 0x14 => some (.load c .lw rd rs1 imm)
  | 0x15 => some (.load c .lwu rd rs1 imm)
  | 0x16 => some (.load c .ld rd rs1 imm)
  | 0x17 => some (.flwFld c .s rd rs1 imm)
  | 0x18 => some (.flwFld c .d rd rs1 imm)
  | 0x19 => some (.store c .sb rd rs1 imm)
  | 0x1A => some (.store c .sh rd rs1 imm)
  | 0x1B => some (.store c .sw rd rs1 imm)
  | 0x1C => some (.store c .sd rd rs1 imm)
  | 0x1D => some (.fswFsd c .s rd rs1 imm)
  | 0x1E => some (.fswFsd c .d rd rs1 imm)
  | 0x20 => some (.beqBne c false rd rs1 imm)
  | 0x21 => some (.beqBne c true rd rs1 imm)
  | 0x22 => some (.bltBge c false rd rs1 imm)
  | 0x23 => some (.bltBge c true rd rs1 imm)
  | 0x24 => some (.bltuBgeu c false rd rs1 imm)
  | 0x25 => some (.bltuBgeu c true rd rs1 imm)
  | 0x26 => some (.j c (wordField w 0))
  | 0x27 => some (.jal c (wordField w 0))
  | 0x28 => some (.jalr c rd rs1 imm)
  | _ => none

/-- The instruction that a word is for a main core; none is ILLEGAL (R194). -/
def decodeCoreWord (c : CoreId) (w : Word32) : Option Instr :=
  let rd : GReg := wordField w 21
  let rs1 : GReg := wordField w 16
  let rs2 : GReg := wordField w 11
  let fn := (wordField w 0 : BitVec 11).toNat
  let imm : BitVec 16 := wordField w 0
  let len : BitVec 14 := wordField w 0
  let op := (wordField w 26 : BitVec 6).toNat
  match op with
  | 0x01 => decodeInteger c rd rs1 rs2 fn
  | 0x02 => decodeInteger32 c rd rs1 rs2 fn
  | 0x03 => decodeMulDiv c rd rs1 rs2 fn
  | 0x29 =>
    if (wordField w 21 : BitVec 4) = 0 ∧ (wordField w 14 : BitVec 2) = 0 then some (.loop c (w.getLsbD 25) rs1 len) else none
  | 0x2A => some (.loopi c (w.getLsbD 25) (wordField w 14) len)
  | 0x2C => decodeFloat c rd rs1 rs2 fn
  | 0x2D =>
    decodeFused c rd rs1 rs2 (wordField w 6) (if w.getLsbD 5 then .d else .s) (wordField w 2 : BitVec 3).toNat
      (wordField w 0 : BitVec 2).toNat
  | 0x30 | 0x31 | 0x35 | 0x36 => decodeSystemR c op fn rd rs1 rs2
  | 0x32 => if rs1 = 0 ∧ imm.toNat < 2 ^ 12 then some (.mfsr c rd (imm.setWidth 12)) else none
  | 0x33 => if rd = 0 ∧ imm.toNat < 2 ^ 12 then some (.mtsr c rs1 (imm.setWidth 12)) else none
  | 0x34 => decodeCall c rd.toNat rs1 imm
  | _ => decodeImmediate c w op

end Sys2Proof
end

