-- ==== Sys2Proof/Machine/Float.lean ====
section
/-!
DEFINITION. Sys2Proof/Machine/Float.lean: binary floating point, computed exactly and rounded once: for the main cores under R212
and R213, for the phase cores under R109.
-/
namespace Sys2Proof

/-- The bits of precision of a format, the leading one included. -/
def FpFmt.prec : FpFmt → Nat
  | .s => 24
  | .d => 53
/-- The bits of its exponent field. -/
def FpFmt.expBits : FpFmt → Nat
  | .s => 8
  | .d => 11
/-- Its width in bits. -/
def FpFmt.width (f : FpFmt) : Nat := f.prec + f.expBits
/-- The exponent of its least quantum: that of the lowest bit of a subnormal. -/
def FpFmt.qmin (f : FpFmt) : Int := 3 - 2 ^ (f.expBits - 1) - f.prec
/-- The canonical quiet NaN (R109, R213). -/
def FpFmt.quiet (f : FpFmt) : Nat := (2 ^ (f.expBits + 1) - 1) * 2 ^ (f.prec - 2)
/-- Infinity of a sign. -/
def FpFmt.infinity (f : FpFmt) (neg : Bool) : Nat := ((if neg then 2 ^ f.expBits else 0) + 2 ^ f.expBits - 1) * 2 ^ (f.prec - 1)
/-- Zero of a sign. -/
def FpFmt.zero (f : FpFmt) (neg : Bool) : Nat := if neg then 2 ^ (f.width - 1) else 0

end Sys2Proof

namespace Sys2Proof.Machine

/-- A floating-point value: a NaN, an infinity, or mant × 2^exp with a sign. -/
inductive FNum where
  | nan
  | inf (neg : Bool)
  | fin (neg : Bool) (mant : Nat) (exp : Int)
deriving DecidableEq, Repr

/-- The value that bits of a format stand for. -/
def unpack (f : FpFmt) (w : Nat) : FNum :=
  let neg := w.testBit (f.width - 1)
  let e := fld w (f.width - 2) (f.prec - 1)
  let m := fld w (f.prec - 2) 0
  if e = 2 ^ f.expBits - 1 then (if m = 0 then .inf neg else .nan)
  else if e = 0 then .fin neg m f.qmin
  else .fin neg (m + 2 ^ (f.prec - 1)) (f.qmin + e - 1)

/-- Whether the discarded part of a magnitude rounds it up, for a sign, a direction, the kept part, the discarded part and the
bits discarded (R212). -/
def roundsUp (rm : Rounding) (neg : Bool) (kept rest bits : Nat) : Bool :=
  let half := 2 ^ (bits - 1)
  match rm with
  | .nearestEven => decide (rest > half) || (decide (rest = half) && kept % 2 == 1)
  | .nearestAway => decide (rest ≥ half)
  | .towardZero => false
  | .towardPos => !neg && decide (rest > 0)
  | .towardNeg => neg && decide (rest > 0)

/-- The magnitude mant × 2^exp rounded to a multiple of 2^q, in units of 2^q. -/
def roundAt (rm : Rounding) (neg : Bool) (mant : Nat) (exp q : Int) : Nat :=
  if exp ≥ q then mant * 2 ^ (exp - q).toNat
  else
    let n := (q - exp).toNat
    let kept := mant / 2 ^ n
    if roundsUp rm neg kept (mant % 2 ^ n) n then kept + 1 else kept

/-- The quantum of a magnitude at the precision of a format, its exponent range taken as unbounded. -/
def freeQuantum (f : FpFmt) (mant : Nat) (exp : Int) : Int := exp + (mant.log2 : Int) + 1 - f.prec

/-- What an overflow gives: infinity, or the largest finite magnitude when the direction leads away from infinity. -/
def overflowed (f : FpFmt) (rm : Rounding) (neg : Bool) : Nat :=
  match rm, neg with
  | .towardZero, _ => f.infinity neg - 1
  | .towardPos, true => f.infinity neg - 1
  | .towardNeg, false => f.infinity neg - 1
  | _, _ => f.infinity neg

/-- Bits of a format from a rounded magnitude m × 2^q with q at least the least quantum, and m at most 2^prec. -/
def packRounded (f : FpFmt) (rm : Rounding) (neg : Bool) (m : Nat) (q : Int) : Nat :=
  let top := 2 ^ (f.prec - 1)
  let (m, q) := if m = 2 * top then (top, q + 1) else (m, q)
  let field := if m < top then 0 else (q - f.qmin).toNat + 1
  if field ≥ 2 ^ f.expBits - 1 then overflowed f rm neg
  else f.zero neg + field * top + m % top

/-- A value rounded once into a format; subnormal results are kept (R213). -/
def pack (f : FpFmt) (rm : Rounding) : FNum → Nat
  | .nan => f.quiet
  | .inf neg => f.infinity neg
  | .fin neg mant exp =>
    if mant = 0 then f.zero neg
    else
      let q := max (freeQuantum f mant exp) f.qmin
      packRounded f rm neg (roundAt rm neg mant exp q) q

/-- A value rounded to nearest even into binary32 with the exponent unbounded; a rounded magnitude below 2^-126 gives zero of the
same sign (R109). -/
def packFlush : FNum → Nat
  | .nan => FpFmt.s.quiet
  | .inf neg => FpFmt.s.infinity neg
  | .fin neg mant exp =>
    if mant = 0 then FpFmt.s.zero neg
    else
      let q := freeQuantum .s mant exp
      let m := roundAt .nearestEven neg mant exp q
      if q < FpFmt.s.qmin ∧ ¬ (q + 1 = FpFmt.s.qmin ∧ m = 2 ^ 24) then FpFmt.s.zero neg
      else packRounded .s .nearestEven neg m q

/-- Subnormal inputs become zero of the same sign (R109). -/
def unpackFlush (w : Nat) : FNum :=
  match unpack .s w with
  | .fin neg m e => if m < 2 ^ 23 then .fin neg 0 e else .fin neg m e
  | x => x

/-! ### Exact arithmetic -/

/-- The sign reversed. -/
def FNum.negate : FNum → FNum
  | .nan => .nan
  | .inf s => .inf !s
  | .fin s m e => .fin (!s) m e

/-- The exact sum. An exact zero is +0, but −0 when both operands are −0 or when rounding toward −∞ joins unlike signs. -/
def FNum.add (rm : Rounding) : FNum → FNum → FNum
  | .nan, _ => .nan
  | _, .nan => .nan
  | .inf s, .inf t => if s = t then .inf s else .nan
  | .inf s, _ => .inf s
  | _, .inf t => .inf t
  | .fin s m e, .fin t n g =>
    let q := min e g
    let a : Int := (m * 2 ^ (e - q).toNat : Nat)
    let b : Int := (n * 2 ^ (g - q).toNat : Nat)
    let v := (if s then -a else a) + (if t then -b else b)
    if v = 0 then .fin (if s = t then s else rm == .towardNeg) 0 q
    else .fin (decide (v < 0)) v.natAbs q

/-- The exact product. -/
def FNum.mul : FNum → FNum → FNum
  | .nan, _ => .nan
  | _, .nan => .nan
  | .inf s, .inf t => .inf (s ^^ t)
  | .inf s, .fin t n _ => if n = 0 then .nan else .inf (s ^^ t)
  | .fin s m _, .inf t => if m = 0 then .nan else .inf (s ^^ t)
  | .fin s m e, .fin t n g => .fin (s ^^ t) (m * n) (e + g)

/-- The quotient, to more bits than any format keeps, its lowest bit standing for all that follow. -/
def FNum.div : FNum → FNum → FNum
  | .nan, _ => .nan
  | _, .nan => .nan
  | .inf _, .inf _ => .nan
  | .inf s, .fin t _ _ => .inf (s ^^ t)
  | .fin s _ e, .inf t => .fin (s ^^ t) 0 e
  | .fin s m e, .fin t n g =>
    if n = 0 then (if m = 0 then .nan else .inf (s ^^ t))
    else
      let k := 60 + n.log2
      let x := m * 2 ^ k
      .fin (s ^^ t) (2 * (x / n) + b2n (x % n != 0)) (e - g - k - 1)

/-- The integer square root, bit by bit from the highest. -/
def isqrt (v : Nat) : Nat → Nat → Nat
  | 0, r => r
  | k + 1, r => let c := r + 2 ^ k; isqrt v k (if c * c ≤ v then c else r)

/-- The square root, to more bits than any format keeps; below zero a NaN. -/
def FNum.sqrt : FNum → FNum
  | .nan => .nan
  | .inf s => if s then .nan else .inf false
  | .fin s m e =>
    if m = 0 then .fin s 0 e
    else if s then .nan
    else
      let (m, e) := if e % 2 = 0 then (m, e) else (2 * m, e - 1)
      let x := m * 2 ^ 120
      let r := isqrt x 120 0
      .fin false (2 * r + b2n (r * r != x)) (e / 2 - 61)

/-- The value as an integer rounded in a direction, for a finite value. -/
def roundInt (rm : Rounding) (neg : Bool) (mant : Nat) (exp : Int) : Int :=
  let m : Int := (roundAt rm neg mant exp 0 : Nat)
  if neg then -m else m

/-- Conversion to an integer in [lo, hi]: saturating, a NaN to 0 (R109, R213). -/
def FNum.toInt (rm : Rounding) (lo hi : Int) : FNum → Int
  | .nan => 0
  | .inf s => if s then lo else hi
  | .fin s m e => max lo (min hi (roundInt rm s m e))

/-- An integer as a value. -/
def FNum.ofInt (v : Int) : FNum := .fin (decide (v < 0)) v.natAbs 0

/-! ### Comparison -/

/-- x < y for values that are no NaN; zeros are equal. -/
def FNum.lt : FNum → FNum → Bool
  | .nan, _ => false
  | _, .nan => false
  | .inf s, .inf t => s && !t
  | .inf s, _ => s
  | _, .inf t => !t
  | .fin s m e, .fin t n g =>
    let q := min e g
    let a : Int := (m * 2 ^ (e - q).toNat : Nat)
    let b : Int := (n * 2 ^ (g - q).toNat : Nat)
    decide ((if s then -a else a) < (if t then -b else b))

def FNum.isNan : FNum → Bool
  | .nan => true
  | _ => false

def FNum.neg : FNum → Bool
  | .nan => false
  | .inf s => s
  | .fin s _ _ => s

/-- FEQ, FLT and FLE: 0 when either operand is a NaN. -/
def FNum.compare (fn : FpCmp) (x y : FNum) : Bool :=
  if x.isNan || y.isNan then false
  else
    match fn with
    | .eq => !x.lt y && !y.lt x
    | .lt => x.lt y
    | .le => !y.lt x

/-- FMIN and FMAX: −0 below +0, and the other operand when exactly one is a NaN (R109, R213). -/
def FNum.pick (fn : MinMaxFn) (x y : FNum) : FNum :=
  if x.isNan then y
  else if y.isNan then x
  else
    let less := x.lt y || (!y.lt x && x.neg && !y.neg)
    match fn with
    | .min => if less then x else y
    | .max => if less then y else x

/-- The kind mask of FKIND (R213). -/
def fkind (f : FpFmt) (w : Nat) : Nat :=
  match unpack f w with
  | .nan => if w.testBit (f.prec - 2) then 256 else 512
  | .inf s => if s then 128 else 64
  | .fin s m _ =>
    if m = 0 then (if s then 2 else 1)
    else if m < 2 ^ (f.prec - 1) then (if s then 8 else 4)
    else (if s then 32 else 16)

end Sys2Proof.Machine
end

