-- ==== Sys2Proof/Machine/MainIsa.lean ====
section
/-!
DEFINITION. Sys2Proof/Machine/MainIsa.lean: the CG64 instructions that access no memory: integer, floating point, branches and
loops, fences, RDGT, calls, ERET and WFI (R197 to R200, R204 to R213, R215, R216, R218).
-/
namespace Sys2Proof.Machine

/-! ### Operand forms -/

/-- rd ← a function of rs1 and rs2. -/
def State.opRR (s : State) (c : CoreId) (rd rs1 rs2 : GReg) (f : Word64 → Word64 → Word64) : Host.Outcome State Fault Refusal :=
  .next (s.regInstr c.val fun x => x.setG rd (f (x.greg rs1) (x.greg rs2)))

/-- rd ← a function of rs1. -/
def State.opR (s : State) (c : CoreId) (rd rs1 : GReg) (f : Word64 → Word64) : Host.Outcome State Fault Refusal :=
  .next (s.regInstr c.val fun x => x.setG rd (f (x.greg rs1)))

/-- A 32-bit result, sign-extended. -/
def sext32 (v : Word32) : Word64 := v.signExtend 64
def low32 (v : Word64) : Word32 := v.setWidth 32

/-- An imm16, sign-extended. -/
def imm16 (i : BitVec 16) : Word64 := i.signExtend 64

/-! ### Shared functions -/

def shift64 (fn : ShiftFn) (a : Word64) (n : Nat) : Word64 :=
  match fn with
  | .sll => a <<< n
  | .srl => a >>> n
  | .sra => a.sshiftRight n

def shift32 (fn : ShiftFn) (a : Word32) (n : Nat) : Word32 :=
  match fn with
  | .sll => a <<< n
  | .srl => a >>> n
  | .sra => a.sshiftRight n

def logic64 (fn : LogicFn) (a b : Word64) : Word64 :=
  match fn with
  | .and => a &&& b
  | .or => a ||| b
  | .xor => a ^^^ b

/-- a < b, signed or unsigned. -/
def less64 (sign : Sign) (a b : Word64) : Bool :=
  match sign with
  | .signed => a.slt b
  | .unsigned => a.ult b

def bit64 (b : Bool) : Word64 := if b then 1 else 0

/-- The number of zero bits above the highest one bit. -/
def leadingZeros (v : Word64) : Nat := match highBit v.toNat 64 with | some b => 63 - b | none => 64
/-- The number of zero bits below the lowest one bit. -/
def trailingZeros (v : Word64) : Nat := ((List.range 64).find? fun i => v.getLsbD i).getD 64
/-- The number of one bits. -/
def popCount (v : Word64) : Nat := ((List.range 64).filter fun i => v.getLsbD i).length

/-- The quotient (R199): all ones for a divisor of zero. -/
def quotient (w : Nat) (sign : Sign) (a b : BitVec w) : BitVec w :=
  if b = 0 then BitVec.allOnes w
  else match sign with
    | .signed => a.sdiv b
    | .unsigned => a / b

/-- The remainder: the dividend for a divisor of zero. -/
def remainder (w : Nat) (sign : Sign) (a b : BitVec w) : BitVec w :=
  if b = 0 then a
  else match sign with
    | .signed => a.srem b
    | .unsigned => a % b

/-- The high 64 bits of the 128-bit product. -/
def mulHigh (fn : MulhFn) (a b : Word64) : Word64 :=
  let p : Int :=
    match fn with
    | .ss => a.toInt * b.toInt
    | .uu => (a.toNat : Int) * b.toNat
    | .su => a.toInt * b.toNat
  BitVec.ofInt 64 (p / 2 ^ 64)

def minMax64 (fn : MinMaxFn) (sign : Sign) (a b : Word64) : Word64 :=
  match fn with
  | .min => if less64 sign a b then a else b
  | .max => if less64 sign a b then b else a

/-! ### Register-register (R197 to R199) -/

/-- ADD, SUB. -/
def execAdd (c : CoreId) (sub : Bool) (rd rs1 rs2 : GReg) (s : State) : Host.Outcome State Fault Refusal :=
  s.opRR c rd rs1 rs2 fun a b => if sub then a - b else a + b
/-- AND, OR, XOR. -/
def execAnd (c : CoreId) (fn : LogicFn) (rd rs1 rs2 : GReg) (s : State) : Host.Outcome State Fault Refusal :=
  s.opRR c rd rs1 rs2 (logic64 fn)
/-- SLL, SRL, SRA by rs2[5:0]. -/
def execSll (c : CoreId) (fn : ShiftFn) (rd rs1 rs2 : GReg) (s : State) : Host.Outcome State Fault Refusal :=
  s.opRR c rd rs1 rs2 fun a b => shift64 fn a (b.toNat % 64)
/-- SLT, SLTU. -/
def execSlt (c : CoreId) (sign : Sign) (rd rs1 rs2 : GReg) (s : State) : Host.Outcome State Fault Refusal :=
  s.opRR c rd rs1 rs2 fun a b => bit64 (less64 sign a b)
/-- MIN, MAX. -/
def execMinMax (c : CoreId) (fn : MinMaxFn) (rd rs1 rs2 : GReg) (s : State) : Host.Outcome State Fault Refusal :=
  s.opRR c rd rs1 rs2 (minMax64 fn .signed)
/-- MINU, MAXU. -/
def execMinuMaxu (c : CoreId) (fn : MinMaxFn) (rd rs1 rs2 : GReg) (s : State) : Host.Outcome State Fault Refusal :=
  s.opRR c rd rs1 rs2 (minMax64 fn .unsigned)
/-- CLZ, CTZ: 64 when rs1 is 0. -/
def execClzCtz (c : CoreId) (trailing : Bool) (rd rs1 : GReg) (s : State) : Host.Outcome State Fault Refusal :=
  s.opR c rd rs1 fun a => BitVec.ofNat 64 (if trailing then trailingZeros a else leadingZeros a)
/-- POPC. -/
def execPopc (c : CoreId) (rd rs1 : GReg) (s : State) : Host.Outcome State Fault Refusal :=
  s.opR c rd rs1 fun a => BitVec.ofNat 64 (popCount a)
/-- ADDW, SUBW. -/
def execAddwSubw (c : CoreId) (sub : Bool) (rd rs1 rs2 : GReg) (s : State) : Host.Outcome State Fault Refusal :=
  s.opRR c rd rs1 rs2 fun a b => sext32 (if sub then low32 a - low32 b else low32 a + low32 b)
/-- SLLW, SRLW, SRAW by rs2[4:0]. -/
def execSllw (c : CoreId) (fn : ShiftFn) (rd rs1 rs2 : GReg) (s : State) : Host.Outcome State Fault Refusal :=
  s.opRR c rd rs1 rs2 fun a b => sext32 (shift32 fn (low32 a) (b.toNat % 32))
/-- MUL. -/
def execMul (c : CoreId) (rd rs1 rs2 : GReg) (s : State) : Host.Outcome State Fault Refusal :=
  s.opRR c rd rs1 rs2 fun a b => a * b
/-- MULH, MULHU, MULHSU. -/
def execMulh (c : CoreId) (fn : MulhFn) (rd rs1 rs2 : GReg) (s : State) : Host.Outcome State Fault Refusal :=
  s.opRR c rd rs1 rs2 (mulHigh fn)
/-- MULW. -/
def execMulw (c : CoreId) (rd rs1 rs2 : GReg) (s : State) : Host.Outcome State Fault Refusal :=
  s.opRR c rd rs1 rs2 fun a b => sext32 (low32 a * low32 b)
/-- DIV, DIVU. -/
def execDiv (c : CoreId) (sign : Sign) (rd rs1 rs2 : GReg) (s : State) : Host.Outcome State Fault Refusal :=
  s.opRR c rd rs1 rs2 (quotient 64 sign)
/-- REM, REMU. -/
def execRem (c : CoreId) (sign : Sign) (rd rs1 rs2 : GReg) (s : State) : Host.Outcome State Fault Refusal :=
  s.opRR c rd rs1 rs2 (remainder 64 sign)
/-- DIVW, DIVUW, REMW, REMUW. -/
def execDivw (c : CoreId) (fn : DivFn) (rd rs1 rs2 : GReg) (s : State) : Host.Outcome State Fault Refusal :=
  s.opRR c rd rs1 rs2 fun a b =>
    sext32 (match fn with
      | .div => quotient 32 .signed (low32 a) (low32 b)
      | .divu => quotient 32 .unsigned (low32 a) (low32 b)
      | .rem => remainder 32 .signed (low32 a) (low32 b)
      | .remu => remainder 32 .unsigned (low32 a) (low32 b))

/-! ### Immediate (R200) -/

/-- ADDI. -/
def execAddi (c : CoreId) (rd rs1 : GReg) (imm : BitVec 16) (s : State) : Host.Outcome State Fault Refusal :=
  s.opR c rd rs1 fun a => a + imm16 imm
/-- ADDIW. -/
def execAddiw (c : CoreId) (rd rs1 : GReg) (imm : BitVec 16) (s : State) : Host.Outcome State Fault Refusal :=
  s.opR c rd rs1 fun a => sext32 (low32 (a + imm16 imm))
/-- ANDI, ORI, XORI with a zero-extended immediate. -/
def execAndi (c : CoreId) (fn : LogicFn) (rd rs1 : GReg) (imm : BitVec 16) (s : State) : Host.Outcome State Fault Refusal :=
  s.opR c rd rs1 fun a => logic64 fn a (imm.setWidth 64)
/-- SLTI, SLTIU: the immediate is sign-extended in both. -/
def execSlti (c : CoreId) (sign : Sign) (rd rs1 : GReg) (imm : BitVec 16) (s : State) : Host.Outcome State Fault Refusal :=
  s.opR c rd rs1 fun a => bit64 (less64 sign a (imm16 imm))
/-- SLLI, SRLI, SRAI and their 32-bit forms, which need amount[5] = 0. -/
def execSlli (c : CoreId) (fn : ShiftFn) (word : Bool) (rd rs1 : GReg) (amount : BitVec 6) (s : State) :
    Host.Outcome State Fault Refusal :=
  .next (s.runInstr c.val false fun s =>
    let x := s.core c.val
    let a := x.greg rs1
    if word ∧ amount.getLsbD 5 then .fault s illegal
    else
      let v := if word then sext32 (shift32 fn (low32 a) amount.toNat) else shift64 fn a amount.toNat
      .next (s.setCore c.val (x.setG rd v)))
/-- LUI: imm21 × 2^16. -/
def execLui (c : CoreId) (rd : GReg) (imm : BitVec 21) (s : State) : Host.Outcome State Fault Refusal :=
  .next (s.regInstr c.val fun x => x.setG rd (imm.signExtend 64 <<< 16))
/-- AUIPC: PC + imm21 × 2^12. -/
def execAuipc (c : CoreId) (rd : GReg) (imm : BitVec 21) (s : State) : Host.Outcome State Fault Refusal :=
  .next (s.regInstr c.val fun x => x.setG rd (x.pc + (imm.signExtend 64 <<< 12)))

/-! ### Branches and jumps (R204, R205) -/

/-- The outcomes that index tagged table k: the last 6, 16, 40 or 100 (R233). -/
def Core.outcomes (x : Core) (k : BitVec 2) : BitVec 100 :=
  x.history &&& BitVec.ofNat 100 (2 ^ (match k.toNat with | 0 => 6 | 1 => 16 | 2 => 40 | _ => 100) - 1)

/-- The number under which the entry of tagged table k for the branch at the PC is kept. -/
def Core.tagKey (x : Core) (k : BitVec 2) : Nat := 1536 * k.toNat + (Config.tagIndex k x.pc (x.outcomes k)).toNat % 1536

/-- The direction that the tables give the branch at the PC: the longest table that matches, else the base table's counter (R233). -/
def Core.tables (x : Core) : Bool :=
  match [3, 2, 1, 0].findSome? fun k : BitVec 2 => (tabFind x.tagTables (x.tagKey k)).bind (Config.tagSays k x.pc (x.outcomes k)) with
  | some d => d
  | none => (tabGet 1 x.baseTable (Config.baseIndex x.pc).toNat).getLsbD 1

/-- A two-bit counter after an outcome. -/
def counted (v : BitVec 2) (taken : Bool) : BitVec 2 := if taken then (if v = 3 then 3 else v + 1) else (if v = 0 then 0 else v - 1)

/-- All tables are updated as a conditional branch retires, unless TCTL turns the tables off or freezes them (R233, R237). -/
def Core.updateTables (x : Core) (taken : Bool) : Core :=
  if (x.ef Sr.TCTL).testBit 0 ∨ (x.ef Sr.TCTL).testBit 1 then x
  else
    let i := (Config.baseIndex x.pc).toNat
    let t := [0, 1, 2, 3].foldl (fun t (k : BitVec 2) =>
      match Config.tagUpdate k x.pc (x.outcomes k) (tabFind x.tagTables (x.tagKey k)) taken with
      | some e => tabInsert (x.tagKey k) e (tabErase t (x.tagKey k))
      | none => tabErase t (x.tagKey k)) x.tagTables
    { x with baseTable := tabSet 1 x.baseTable i (counted (tabGet 1 x.baseTable i) taken), tagTables := t }

/-- A conditional branch with its outcome updates the tables and enters the global history (R233). -/
def Core.branched (x : Core) (taken : Bool) : Core :=
  { x.updateTables taken with history := (x.history <<< 1) ||| BitVec.ofNat 100 (b2n taken), branches := x.branches + 1 }

/-- What the core predicts of the conditional branch: with PRED_OFF taken exactly when it goes back, else what the tables say (R237). -/
def Core.predicts (x : Core) (off : BitVec 16) : Bool := if (x.ef Sr.TCTL).testBit 0 then off.msb else x.tables

/-- A conditional branch: event 0x05 counts it, and event 0x06 a wrong prediction. -/
def State.branch (s : State) (c : CoreId) (rs1 rs2 : GReg) (off : BitVec 16) (taken : Word64 → Word64 → Bool) :
    Host.Outcome State Fault Refusal :=
  .next (s.runInstr c.val true fun s =>
    let x := s.core c.val
    let go := taken (x.greg rs1) (x.greg rs2)
    let s1 := (s.setCore c.val (x.branched go)).coreEvent c.val 5
    let s2 := if x.predicts off = go then s1 else s1.coreEvent c.val 6
    if go then .jump s2 (x.pc + (imm16 off <<< 2)) else .next s2)

/-- BEQ, BNE. -/
def execBeqBne (c : CoreId) (ne : Bool) (rs1 rs2 : GReg) (off : BitVec 16) (s : State) : Host.Outcome State Fault Refusal :=
  s.branch c rs1 rs2 off fun a b => (a == b) != ne
/-- BLT, BGE. -/
def execBltBge (c : CoreId) (ge : Bool) (rs1 rs2 : GReg) (off : BitVec 16) (s : State) : Host.Outcome State Fault Refusal :=
  s.branch c rs1 rs2 off fun a b => a.slt b != ge
/-- BLTU, BGEU. -/
def execBltuBgeu (c : CoreId) (ge : Bool) (rs1 rs2 : GReg) (off : BitVec 16) (s : State) : Host.Outcome State Fault Refusal :=
  s.branch c rs1 rs2 off fun a b => a.ult b != ge
/-- J. -/
def execJ (c : CoreId) (off : BitVec 26) (s : State) : Host.Outcome State Fault Refusal :=
  .next (s.runInstr c.val true fun s => .jump s ((s.core c.val).pc + (off.signExtend 64 <<< 2)))

/-- A call pushes its return address; of 33 the oldest is overwritten (R234). -/
def Core.pushReturn (x : Core) (a : Word64) : Core := { x with returnStack := (a :: x.returnStack).take 32 }

/-- JAL: links g1. -/
def execJal (c : CoreId) (off : BitVec 26) (s : State) : Host.Outcome State Fault Refusal :=
  .next (s.runInstr c.val true fun s =>
    let x := s.core c.val
    .jump (s.setCore c.val ((x.setG 1 (x.pc + 4)).pushReturn (x.pc + 4))) (x.pc + (off.signExtend 64 <<< 2)))
/-- JALR: rs1 is read before rd is written. With rd = g1 a call; with rd = g0, rs1 = g1 and imm16 = 0 a return (R205). -/
def execJalr (c : CoreId) (rd rs1 : GReg) (imm : BitVec 16) (s : State) : Host.Outcome State Fault Refusal :=
  .next (s.runInstr c.val true fun s =>
    let x := s.core c.val
    let x1 := x.setG rd (x.pc + 4)
    let ret := rd = 0 ∧ rs1 = 1 ∧ imm = 0
    let x2 := if rd = 1 then x1.pushReturn (x.pc + 4) else if ret then { x1 with returnStack := x1.returnStack.tail } else x1
    let target := x.greg rs1 + imm16 imm
    let s1 := (s.setCore c.val x2).coreEvent c.val (if ret then 5 else 7)
    .jump (if ret ∧ x.returnStack.head? ≠ some target then s1.coreEvent c.val 6 else s1) target)

/-! ### Loops (R206, R207) -/

/-- A loop is opened, unless R207 forbids it. -/
def State.openLoop (s : State) (c : CoreId) (lvl : Bool) (count len : Nat) : IRes :=
  let x := s.core c.val
  let n := b2n lvl
  let b := x.pc.toNat + 4
  let e := x.pc.toNat + 4 * len
  let outside := x.loopOpen 0 && !(decide (x.loopAddr (Sr.LOOPBEG 0) ≤ b) && decide (e ≤ x.loopAddr (Sr.LOOPEND 0)))
  if len = 0 ∨ x.loopOpen 1 ∨ (¬ lvl ∧ x.loopOpen 0) ∨ (lvl ∧ outside) then .fault s illegal
    else
      let x1 := ((x.setSr (Sr.LOOPBEG n) (loopBits b)).setSr (Sr.LOOPEND n) (loopBits e)).setSr (Sr.LOOPCNT n) count
      let s1 := s.setCore c.val { x1 with wholePass := if count = 0 then x1.wholePass else n :: x1.wholePass.filter (· != n) }
      if count = 0 then .jump s1 (BitVec.ofNat 64 (e + 4)) else .next s1

/-- LOOP: the count is rs1[31:0]. -/
def execLoop (c : CoreId) (lvl : Bool) (rs1 : GReg) (len : BitVec 14) (s : State) : Host.Outcome State Fault Refusal :=
  .next (s.runInstr c.val true fun s => s.openLoop c lvl (low32 ((s.core c.val).greg rs1)).toNat len.toNat)
/-- LOOPI. -/
def execLoopi (c : CoreId) (lvl : Bool) (count : BitVec 11) (len : BitVec 14) (s : State) : Host.Outcome State Fault Refusal :=
  .next (s.runInstr c.val true fun s => s.openLoop c lvl count.toNat len.toNat)

/-! ### Floating point (R210 to R213) -/

/-- The bits of an f register in a format. -/
def Core.fbits (x : Core) (f : FpFmt) (r : FReg) : Nat := (x.freg r).toNat % 2 ^ f.width
/-- The value of an f register in a format. -/
def Core.fval (x : Core) (f : FpFmt) (r : FReg) : FNum := unpack f (x.fbits f r)

/-- f rd ← bits, with bits [63:32] zero for binary32. -/
def State.opF (s : State) (c : CoreId) (rd : FReg) (f : Core → Nat) : Host.Outcome State Fault Refusal :=
  .next (s.regInstr c.val fun x => x.setF rd (BitVec.ofNat 64 (f x)))
/-- g rd ← a value computed from f registers. -/
def State.opFG (s : State) (c : CoreId) (rd : GReg) (f : Core → Word64) : Host.Outcome State Fault Refusal :=
  .next (s.regInstr c.val fun x => x.setG rd (f x))

/-- FADD, FSUB, FMUL, FDIV. -/
def execFadd (c : CoreId) (fn : FpArith) (fmt : FpFmt) (rm : Rounding) (rd rs1 rs2 : FReg) (s : State) :
    Host.Outcome State Fault Refusal :=
  s.opF c rd fun x =>
    let a := x.fval fmt rs1
    let b := x.fval fmt rs2
    pack fmt rm (match fn with
      | .add => a.add rm b
      | .sub => a.add rm b.negate
      | .mul => a.mul b
      | .div => a.div b)
/-- FSQRT. -/
def execFsqrt (c : CoreId) (fmt : FpFmt) (rm : Rounding) (rd rs1 : FReg) (s : State) : Host.Outcome State Fault Refusal :=
  s.opF c rd fun x => pack fmt rm (x.fval fmt rs1).sqrt
/-- FMIN, FMAX. -/
def execFminFmax (c : CoreId) (fn : MinMaxFn) (fmt : FpFmt) (rd rs1 rs2 : FReg) (s : State) : Host.Outcome State Fault Refusal :=
  s.opF c rd fun x => pack fmt .nearestEven ((x.fval fmt rs1).pick fn (x.fval fmt rs2))
/-- FSIGN.C, FSIGN.N, FSIGN.X: the magnitude bits are copied. -/
def execFsign (c : CoreId) (fn : SignFn) (fmt : FpFmt) (rd rs1 rs2 : FReg) (s : State) : Host.Outcome State Fault Refusal :=
  s.opF c rd fun x =>
    let a := x.fbits fmt rs1
    let top := fmt.width - 1
    let sa := a.testBit top
    let sb := (x.fbits fmt rs2).testBit top
    let sign := match fn with
      | .copy => sb
      | .neg => !sb
      | .xor => sa ^^ sb
    a % 2 ^ top + (if sign then 2 ^ top else 0)
/-- FEQ, FLT, FLE. -/
def execFeq (c : CoreId) (fn : FpCmp) (fmt : FpFmt) (rd : GReg) (rs1 rs2 : FReg) (s : State) : Host.Outcome State Fault Refusal :=
  s.opFG c rd fun x => bit64 ((x.fval fmt rs1).compare fn (x.fval fmt rs2))
/-- FKIND. -/
def execFkind (c : CoreId) (fmt : FpFmt) (rd : GReg) (rs1 : FReg) (s : State) : Host.Outcome State Fault Refusal :=
  s.opFG c rd fun x => BitVec.ofNat 64 (fkind fmt (x.fbits fmt rs1))

/-- The least and greatest integer of a width. -/
def intRange (w : Nat) (sign : Sign) : Int × Int :=
  match sign with
  | .signed => (-(2 ^ (w - 1) : Int), (2 ^ (w - 1) : Int) - 1)
  | .unsigned => (0, (2 ^ w : Int) - 1)

/-- FTOI.W, FTOI.WU: sign-extended. -/
def execFtoiW (c : CoreId) (sign : Sign) (fmt : FpFmt) (rm : Rounding) (rd : GReg) (rs1 : FReg) (s : State) :
    Host.Outcome State Fault Refusal :=
  s.opFG c rd fun x => sext32 (BitVec.ofInt 32 ((x.fval fmt rs1).toInt rm (intRange 32 sign).1 (intRange 32 sign).2))
/-- FTOI.L, FTOI.LU. -/
def execFtoiL (c : CoreId) (sign : Sign) (fmt : FpFmt) (rm : Rounding) (rd : GReg) (rs1 : FReg) (s : State) :
    Host.Outcome State Fault Refusal :=
  s.opFG c rd fun x => BitVec.ofInt 64 ((x.fval fmt rs1).toInt rm (intRange 64 sign).1 (intRange 64 sign).2)
/-- ITOF.W, ITOF.WU. -/
def execItofW (c : CoreId) (sign : Sign) (fmt : FpFmt) (rm : Rounding) (rd : FReg) (rs1 : GReg) (s : State) :
    Host.Outcome State Fault Refusal :=
  s.opF c rd fun x =>
    let v := low32 (x.greg rs1)
    pack fmt rm (FNum.ofInt (match sign with | .signed => v.toInt | .unsigned => v.toNat))
/-- ITOF.L, ITOF.LU. -/
def execItofL (c : CoreId) (sign : Sign) (fmt : FpFmt) (rm : Rounding) (rd : FReg) (rs1 : GReg) (s : State) :
    Host.Outcome State Fault Refusal :=
  s.opF c rd fun x =>
    let v := x.greg rs1
    pack fmt rm (FNum.ofInt (match sign with | .signed => v.toInt | .unsigned => v.toNat))
/-- FRESIZE: fmt 1 from binary32 to binary64, fmt 0 from binary64 to binary32. -/
def execFresize (c : CoreId) (fmt : FpFmt) (rm : Rounding) (rd rs1 : FReg) (s : State) : Host.Outcome State Fault Refusal :=
  s.opF c rd fun x =>
    match fmt with
    | .d => pack .d rm (x.fval .s rs1)
    | .s => pack .s rm (x.fval .d rs1)
/-- FBITS.G: bits [31:0] sign-extended, or 64 bits. -/
def execFbitsG (c : CoreId) (fmt : FpFmt) (rd : GReg) (rs1 : FReg) (s : State) : Host.Outcome State Fault Refusal :=
  s.opFG c rd fun x => match fmt with | .s => sext32 (low32 (x.freg rs1)) | .d => x.freg rs1
/-- FBITS.F. -/
def execFbitsF (c : CoreId) (fmt : FpFmt) (rd : FReg) (rs1 : GReg) (s : State) : Host.Outcome State Fault Refusal :=
  s.opF c rd fun x => (x.greg rs1).toNat % 2 ^ fmt.width

/-- A fused operation, rounded once (R211): the product's sign and the addend's sign may be reversed. -/
def State.fused (s : State) (c : CoreId) (fmt : FpFmt) (rm : Rounding) (rd rs1 rs2 rs3 : FReg) (negProduct negAddend : Bool) :
    Host.Outcome State Fault Refusal :=
  s.opF c rd fun x =>
    let p := (x.fval fmt rs1).mul (x.fval fmt rs2)
    let a := x.fval fmt rs3
    pack fmt rm ((if negProduct then p.negate else p).add rm (if negAddend then a.negate else a))

/-- FMADD: rs1 × rs2 + rs3. -/
def execFmadd (c : CoreId) (fmt : FpFmt) (rm : Rounding) (rd rs1 rs2 rs3 : FReg) (s : State) : Host.Outcome State Fault Refusal :=
  s.fused c fmt rm rd rs1 rs2 rs3 false false
/-- FMSUB: rs1 × rs2 − rs3. -/
def execFmsub (c : CoreId) (fmt : FpFmt) (rm : Rounding) (rd rs1 rs2 rs3 : FReg) (s : State) : Host.Outcome State Fault Refusal :=
  s.fused c fmt rm rd rs1 rs2 rs3 false true
/-- FNMSUB: −(rs1 × rs2) + rs3. -/
def execFnmsub (c : CoreId) (fmt : FpFmt) (rm : Rounding) (rd rs1 rs2 rs3 : FReg) (s : State) : Host.Outcome State Fault Refusal :=
  s.fused c fmt rm rd rs1 rs2 rs3 true false
/-- FNMADD: −(rs1 × rs2) − rs3. -/
def execFnmadd (c : CoreId) (fmt : FpFmt) (rm : Rounding) (rd rs1 rs2 rs3 : FReg) (s : State) : Host.Outcome State Fault Refusal :=
  s.fused c fmt rm rd rs1 rs2 rs3 true true

/-! ### Fences and GT (R215, R216, R268, R269) -/

/-- A barrier that retires once the store buffer is empty: until then it waits, and an interrupt may be taken before it (R174, R227). -/
def State.drainFence (s : State) (c : CoreId) (refetch : Bool) : Host.Outcome State Fault Refusal :=
  .next (s.runInstr c.val false fun s =>
    let x := s.core c.val
    if x.stores.isEmpty then .next ((s.setCore c.val (if refetch then x.emptyLoopBuffer else x)).coreEvent c.val 25)
    else .wait ((s.setCore c.val { x with drainWait := true }).kickDrain c.val 1))

/-- FENCE. -/
def execFence (c : CoreId) (s : State) : Host.Outcome State Fault Refusal := s.drainFence c false
/-- FENCE.SL. -/
def execFenceSl (c : CoreId) (s : State) : Host.Outcome State Fault Refusal := s.drainFence c false
/-- FENCE.L: every load of this model is performed before the next instruction executes, so it only retires. -/
def execFenceL (c : CoreId) (s : State) : Host.Outcome State Fault Refusal :=
  .next (s.runInstr c.val false fun s => .next (s.coreEvent c.val 25))
/-- FENCE.IO: it retires once every DEV store has drained (R227), and later DEV loads wait for every store that is in the buffer then
(R269). -/
def execFenceIo (c : CoreId) (s : State) : Host.Outcome State Fault Refusal :=
  .next (s.runInstr c.val false fun s =>
    let x := s.core c.val
    if x.stores.any fun e => e.type == .dev then .wait (s.kickDrain c.val 1)
    else .next ((s.setCore c.val { x with ioWait := x.drained + x.stores.length }).coreEvent c.val 25))
/-- SYNC.I: the store buffer drains, and the loop buffer is emptied (R215, R236). -/
def execSyncI (c : CoreId) (s : State) : Host.Outcome State Fault Refusal := s.drainFence c true

/-- RDGT: TRAP at PL0 and PL1 while HCTL.TRDGT is 1. -/
def execRdgt (c : CoreId) (rd : GReg) (s : State) : Host.Outcome State Fault Refusal :=
  .next (s.runInstr c.val false fun s =>
    let x := s.core c.val
    if x.pl.toNat ≤ 1 ∧ (x.ef Sr.HCTL).testBit 2 then .fault s trapFault
    else .next (s.setCore c.val (x.setG rd s.gt.now)))

/-! ### Calls, ERET and WFI (R176, R186, R218) -/

/-- SVCALL: ILLEGAL at PL3. -/
def execSvcall (c : CoreId) (imm : BitVec 16) (s : State) : Host.Outcome State Fault Refusal :=
  .next (s.runInstr c.val true fun s => if (s.core c.val).pl = 3 then .fault s illegal else .call s 0x0C imm.toNat)
/-- HVCALL: ILLEGAL at PL0 and PL3, and at PL1 under HVC_DIS. -/
def execHvcall (c : CoreId) (imm : BitVec 16) (s : State) : Host.Outcome State Fault Refusal :=
  .next (s.runInstr c.val true fun s =>
    let x := s.core c.val
    if x.pl = 0 ∨ x.pl = 3 ∨ (x.pl = 1 ∧ (x.ef Sr.HCTL).testBit 3) then .fault s illegal else .call s 0x0D imm.toNat)
/-- MONCALL. -/
def execMoncall (c : CoreId) (imm : BitVec 16) (s : State) : Host.Outcome State Fault Refusal :=
  .next (s.runInstr c.val true fun s => .call s 0x0E imm.toNat)

/-- The return of ERET at level x (R168, R176). -/
def Core.eret (k : Core) (x : Nat) : Core :=
  let k1 := k.commitAll
  let k2 := [0, 1, 2, 3, 4, 5].foldl (fun y i =>
    let v := k1.sr (Sr.LSAVE x i)
    y.setSr (0x010 + i) (if i % 3 = 0 then v % 2 ^ 32 else loopBits v)) k1
  { k2.emptyLoopBuffer.settled with pl := BitVec.ofNat 2 (fld (k1.sr (Sr.ESTAT x)) 1 0), pc := BitVec.ofNat 64 (k1.sr (Sr.ELR x)) }

/-- ERET: PRIV at PL0; ILLEGAL when ESTAT.PL lies above the level; an ELR that is no multiple of 4 raises FETCH at the target. -/
def execEret (c : CoreId) (s : State) : Host.Outcome State Fault Refusal :=
  .next (s.runInstr c.val true fun s =>
    let x := s.core c.val
    let l := x.pl.toNat
    if l = 0 then .fault s privFault
    else if fld (x.sr (Sr.ESTAT l)) 1 0 > l then .fault s illegal
    else
      let s1 := s.countRetired c.val
      let s2 := s1.setCore c.val ((s1.core c.val).eret l)
      let elr := (s2.core c.val).pc.toNat
      if elr % 4 ≠ 0 then .done (s2.exception c.val ⟨3, elr, 0⟩ elr)
      else .done ((s2.stepDone c.val).recognise c.val))

/-- WFI: TRAP at PL0 and PL1 under HCTL.TWFI; else pending changes are committed, and the core waits. -/
def execWfi (c : CoreId) (s : State) : Host.Outcome State Fault Refusal :=
  .next (s.runInstr c.val true fun s =>
    let x := s.core c.val
    if x.pl.toNat ≤ 1 ∧ (x.ef Sr.HCTL).testBit 0 then .fault s trapFault
    else
      let s1 := s.countRetired c.val
      let y := (s1.core c.val).commitAll
      .done (((s1.setCore c.val { y.settled with run := .waiting, pc := y.pc + 4 }).stepDone c.val).recognise c.val))

/-- ILLEGAL_INSTRUCTION: the word at the PC has no meaning (R194). -/
def execIllegalInstruction (c : CoreId) (word : Word32) (s : State) : Host.Outcome State Fault Refusal :=
  if (decodeCoreWord c word).isSome then .next s
  else .next (s.runInstr c.val false fun s => .fault s illegal)

end Sys2Proof.Machine
end

