-- ==== Sys2Proof/Machine/PhaseIsa.lean ====
section
/-!
DEFINITION. Sys2Proof/Machine/PhaseIsa.lean: the instructions of the phase cores (R100 to R116, R119 to R127). What an instruction does to
the core's registers and PC stands from its start, and the core takes no other until its count has passed (assumption 27).
-/
namespace Sys2Proof.Machine

/-! ### What surrounds an instruction -/

/-- How an instruction ends: it completes after its region-timed or its flat count, behind it or at a target; it faults with a cause and
an address; or it has left the core as it will be. -/
inductive PRes where
  | next (s : State) (region flat : Nat)
  | jump (s : State) (target : Word32) (region flat : Nat)
  | fault (s : State) (cause : PcFault) (addr : Nat)
  | done (s : State)

/-- The core can execute an instruction now. -/
def State.pcReady (s : State) (n : Nat) : Bool :=
  let c := s.pcore n
  s.pcState n == 1 && !c.halted && decide (c.busy ≤ s.clk) && c.wait.isNone && c.sleep.isNone && s.modes.refclk

/-- The comparators that match an address: their channels are signalled, and one with HALT halts the core, but for a step (R545). -/
def State.pcCompare (s : State) (n addr kind : Nat) : Except State State :=
  if ¬ s.modes.safelightUp then .ok s
  else
    let hits := [0, 1].filter fun i =>
      let cfg := s.rd (Reg.DBG_PCMP_CFG n i)
      let k := fld cfg 2 1
      cfg.testBit 0 && decide (s.rd (Reg.DBG_PCMP_ADDR n i) / 4 = addr / 4) &&
        (match kind with | 0 => k == 0 | 1 => k == 1 || k == 3 | _ => k == 2 || k == 3)
    let s1 := hits.foldl (fun s i =>
      let cfg := s.rd (Reg.DBG_PCMP_CFG n i)
      if cfg.testBit 4 then s.send 10 (.crossTrigger (Fin.ofNat 8 (fld cfg 7 5))) else s) s
    if (hits.any fun i => s.rb (Reg.DBG_PCMP_CFG n i) 3) ∧ ¬ (s.pcore n).stepping then
      .error ((s1.setPcore n { s1.pcore n with halting := some 3 }).pcStopNow n)
    else .ok s1

/-- An address from which the core can fetch (R103). -/
def pcFetchable (a : Word32) : Bool := decide (a.toNat < 0x10000) && decide (a.toNat % 4 = 0)

/-- An instruction of phase core n: a halt or a preemption that is asked for comes first; then the fetch, the comparators, the check of
R116 for those that may not stand at LEND, and the effect. -/
def State.runPc (s : State) (n : Nat) (notAtEnd : Bool) (op : State → PRes) : State :=
  if ¬ s.pcReady n then s
  else
    let s0 := s.setPcore n { s.pcore n with long := none }
    let c := s0.pcore n
    if c.stopping ∨ c.halting.isSome then s0.pcStopNow n
    else if s0.preemptAsked n then s0.preempt n
    else
      let s1 := match c.flatNext with | some (0, _) => s0.commitMode n | _ => s0
      let pc := c.pc.toNat
      let flat := (s1.pcore n).flat
      if ¬ pcFetchable c.pc then s1.pcFault n .fetch pc
      else if s1.poisoned (localAddr n pc) then s1.pcFault n .poison pc
      else
        match s1.pcCompare n pc 0 with
        | .error s2 => s2
        | .ok s2 =>
          if notAtEnd ∧ c.lcnt ≠ 0 ∧ c.pc = c.lend then s2.pcFault n .loop pc
          else
            match op s2 with
            | .next s3 region fl => s3.pcDone n (if flat then fl else region) none
            | .jump s3 t region fl =>
              if pcFetchable t then s3.pcDone n (if flat then fl else region) (some t) else s2.pcFault n .fetch t.toNat
            | .fault s3 cause addr => s3.pcFault n cause addr
            | .done s3 => s3

/-- rd ← a value of the core's registers. -/
def State.pcReg (s : State) (pc : PcId) (rd : PReg) (count : Nat) (f : State → Word32) : Host.Outcome State Fault Refusal :=
  .next (s.runPc pc.val false fun s => .next (s.setPreg pc.val rd (f s)) count count)

/-- rd ← a function of rs1 and rs2. -/
def State.pcRR (s : State) (pc : PcId) (rd rs1 rs2 : PReg) (count : Nat) (f : Word32 → Word32 → Word32) :
    Host.Outcome State Fault Refusal :=
  s.pcReg pc rd count fun s => f (s.preg pc.val rs1) (s.preg pc.val rs2)

/-- SAT is set by a clamp (R108). -/
def State.pcSat (s : State) (n : Nat) (clamped : Bool) : State := if clamped then s.wb (Reg.PCC_STATUS n) 6 true else s

/-- An integer clamped to the signed range of a width. -/
def clampSigned (w : Nat) (v : Int) : Int := max (-(2 ^ (w - 1))) (min (2 ^ (w - 1) - 1) v)

/-! ### Integer (R107, R108) -/

/-- NOP. -/
def execPcNop (pc : PcId) (s : State) : Host.Outcome State Fault Refusal := .next (s.runPc pc.val false fun s => .next s 2 2)

/-- ADD, SUB, AND, OR, XOR. -/
def execPcAlu (pc : PcId) (fn : PcAluFn) (rd rs1 rs2 : PReg) (s : State) : Host.Outcome State Fault Refusal :=
  s.pcRR pc rd rs1 rs2 3 fun a b =>
    match fn with
    | .add => a + b
    | .sub => a - b
    | .and => a &&& b
    | .or => a ||| b
    | .xor => a ^^^ b

/-- A shift. -/
def pcShift32 (fn : ShiftFn) (a : Word32) (k : Nat) : Word32 :=
  match fn with
  | .sll => a <<< k
  | .srl => a >>> k
  | .sra => a.sshiftRight k

/-- SLL, SRL, SRA by rs2[4:0]. -/
def execPcShift (pc : PcId) (fn : ShiftFn) (rd rs1 rs2 : PReg) (s : State) : Host.Outcome State Fault Refusal :=
  s.pcRR pc rd rs1 rs2 3 fun a b => pcShift32 fn a (b.toNat % 32)

/-- 1 or 0. -/
def bit32 (b : Bool) : Word32 := if b then 1 else 0

/-- SLT, SLTU. -/
def execPcSlt (pc : PcId) (sign : Sign) (rd rs1 rs2 : PReg) (s : State) : Host.Outcome State Fault Refusal :=
  s.pcRR pc rd rs1 rs2 3 fun a b => bit32 (match sign with | .signed => a.slt b | .unsigned => a.ult b)

/-- MUL. -/
def execPcMul (pc : PcId) (rd rs1 rs2 : PReg) (s : State) : Host.Outcome State Fault Refusal :=
  s.pcRR pc rd rs1 rs2 4 fun a b => a * b

/-- MULH, MULHU. -/
def execPcMulh (pc : PcId) (sign : Sign) (rd rs1 rs2 : PReg) (s : State) : Host.Outcome State Fault Refusal :=
  s.pcRR pc rd rs1 rs2 5 fun a b =>
    match sign with
    | .signed => BitVec.ofInt 32 (a.toInt * b.toInt / 2 ^ 32)
    | .unsigned => BitVec.ofNat 32 (a.toNat * b.toNat / 2 ^ 32)

/-- QADD, QSUB. -/
def execQadd (pc : PcId) (sub : Bool) (rd rs1 rs2 : PReg) (s : State) : Host.Outcome State Fault Refusal :=
  .next (s.runPc pc.val false fun s =>
    let a := (s.preg pc.val rs1).toInt
    let b := (s.preg pc.val rs2).toInt
    let v := if sub then a - b else a + b
    .next ((s.setPreg pc.val rd (BitVec.ofInt 32 (clampSigned 32 v))).pcSat pc.val (clampSigned 32 v != v)) 3 3)

/-- MIN, MAX. -/
def execPcMinMax (pc : PcId) (fn : MinMaxFn) (rd rs1 rs2 : PReg) (s : State) : Host.Outcome State Fault Refusal :=
  s.pcRR pc rd rs1 rs2 3 fun a b =>
    match fn with
    | .min => if a.slt b then a else b
    | .max => if b.slt a then a else b

/-- ADDI, ANDI, ORI, XORI, SLTI: the logical ones zero-extend imm18. -/
def execPcAluImm (pc : PcId) (fn : PcAluImmFn) (rd rs1 : PReg) (imm : BitVec 18) (s : State) : Host.Outcome State Fault Refusal :=
  s.pcReg pc rd 3 fun s =>
    let a := s.preg pc.val rs1
    match fn with
    | .addi => a + imm.signExtend 32
    | .andi => a &&& imm.setWidth 32
    | .ori => a ||| imm.setWidth 32
    | .xori => a ^^^ imm.setWidth 32
    | .slti => bit32 (a.slt (imm.signExtend 32))

/-- SLLI, SRLI, SRAI. -/
def execPcShiftImm (pc : PcId) (fn : ShiftFn) (rd rs1 : PReg) (amount : BitVec 5) (s : State) : Host.Outcome State Fault Refusal :=
  s.pcReg pc rd 3 fun s => pcShift32 fn (s.preg pc.val rs1) amount.toNat

/-- LUI. -/
def execPcLui (pc : PcId) (rd : PReg) (imm : BitVec 22) (s : State) : Host.Outcome State Fault Refusal :=
  s.pcReg pc rd 3 fun _ => imm.setWidth 32 <<< 10

/-- MAC, MSU, MULA: the exact signed product, saturating into the accumulator. -/
def execMac (pc : PcId) (fn : MacFn) (acc : AccId) (rs1 rs2 : PReg) (s : State) : Host.Outcome State Fault Refusal :=
  .next (s.runPc pc.val false fun s =>
    let p := (s.preg pc.val rs1).toInt * (s.preg pc.val rs2).toInt
    let a := (s.pacc pc.val acc).toInt
    let v := match fn with | .mac => a + p | .msu => a - p | .mula => p
    .next ((s.setPacc pc.val acc (BitVec.ofInt 64 (clampSigned 64 v))).pcSat pc.val (clampSigned 64 v != v)) 4 4)

/-- ACCRD. -/
def execAccrd (pc : PcId) (rd : PReg) (acc : AccId) (shift : BitVec 6) (round : Bool) (s : State) : Host.Outcome State Fault Refusal :=
  .next (s.runPc pc.val false fun s =>
    let k := shift.toNat
    let r : Int := if round ∧ 0 < k then 2 ^ (k - 1) else 0
    let v := ((s.pacc pc.val acc).toInt + r) / 2 ^ k
    .next ((s.setPreg pc.val rd (BitVec.ofInt 32 (clampSigned 32 v))).pcSat pc.val (clampSigned 32 v != v)) 3 3)

/-- ACCWR. -/
def execAccwr (pc : PcId) (acc : AccId) (rs1 : PReg) (shift : BitVec 5) (s : State) : Host.Outcome State Fault Refusal :=
  .next (s.runPc pc.val false fun s =>
    .next (s.setPacc pc.val acc ((s.preg pc.val rs1).signExtend 64 <<< shift.toNat)) 3 3)

/-- An instruction that R122 abandons: what undoing it takes. -/
def State.pcLong (s : State) (n count : Nat) (rd : PReg) (v : Word32) : State :=
  let c := s.pcore n
  (s.setPcore n { c with long := some { until_ := s.clk + count, pc := c.pc, rd := rd, old := s.preg n rd, lcnt := c.lcnt } }).setPreg n rd v

/-- The quotient and remainder of R108. -/
def pcDivide (fn : DivFn) (a b : Word32) : Word32 :=
  match fn with
  | .div => if b = 0 then BitVec.allOnes 32 else a.sdiv b
  | .divu => if b = 0 then BitVec.allOnes 32 else a / b
  | .rem => if b = 0 then a else a.srem b
  | .remu => if b = 0 then a else a % b

/-- DIV, DIVU, REM, REMU: 20 clocks whatever the operands. -/
def execPcDiv (pc : PcId) (fn : DivFn) (rd rs1 rs2 : PReg) (s : State) : Host.Outcome State Fault Refusal :=
  .next (s.runPc pc.val false fun s =>
    .next (s.pcLong pc.val 20 rd (pcDivide fn (s.preg pc.val rs1) (s.preg pc.val rs2))) 20 20)

/-! ### Floating point (R109) -/

/-- A register as a binary32 value, subnormals being zero. -/
def pcFloat (v : Word32) : FNum := unpackFlush v.toNat
/-- A binary32 result. -/
def pcPack (x : FNum) : Word32 := BitVec.ofNat 32 (packFlush x)

/-- FADD, FSUB, FMUL. -/
def execPcFadd (pc : PcId) (fn : PcFaddFn) (rd rs1 rs2 : PReg) (s : State) : Host.Outcome State Fault Refusal :=
  s.pcRR pc rd rs1 rs2 5 fun a b =>
    pcPack (match fn with
      | .add => (pcFloat a).add .nearestEven (pcFloat b)
      | .sub => (pcFloat a).add .nearestEven (pcFloat b).negate
      | .mul => (pcFloat a).mul (pcFloat b))

/-- FMAC: rd + rs1 × rs2, fused. -/
def execFmac (pc : PcId) (rd rs1 rs2 : PReg) (s : State) : Host.Outcome State Fault Refusal :=
  s.pcReg pc rd 6 fun s =>
    pcPack ((pcFloat (s.preg pc.val rd)).add .nearestEven ((pcFloat (s.preg pc.val rs1)).mul (pcFloat (s.preg pc.val rs2))))

/-- FDIV. -/
def execPcFdiv (pc : PcId) (rd rs1 rs2 : PReg) (s : State) : Host.Outcome State Fault Refusal :=
  .next (s.runPc pc.val false fun s =>
    .next (s.pcLong pc.val 16 rd (pcPack ((pcFloat (s.preg pc.val rs1)).div (pcFloat (s.preg pc.val rs2))))) 16 16)

/-- FSQRT. -/
def execPcFsqrt (pc : PcId) (rd rs1 : PReg) (s : State) : Host.Outcome State Fault Refusal :=
  .next (s.runPc pc.val false fun s => .next (s.pcLong pc.val 18 rd (pcPack (pcFloat (s.preg pc.val rs1)).sqrt)) 18 18)

/-- FMIN, FMAX, FEQ, FLT, FLE. -/
def execPcFcompare (pc : PcId) (fn : PcFcmpFn) (rd rs1 rs2 : PReg) (s : State) : Host.Outcome State Fault Refusal :=
  s.pcRR pc rd rs1 rs2 4 fun a b =>
    match fn with
    | .min => pcPack ((pcFloat a).pick .min (pcFloat b))
    | .max => pcPack ((pcFloat a).pick .max (pcFloat b))
    | .eq => bit32 (FNum.compare .eq (pcFloat a) (pcFloat b))
    | .lt => bit32 (FNum.compare .lt (pcFloat a) (pcFloat b))
    | .le => bit32 (FNum.compare .le (pcFloat a) (pcFloat b))

/-- FCVT.W.S and FCVT.S.W. -/
def execPcFcvt (pc : PcId) (toInt : Bool) (rd rs1 : PReg) (s : State) : Host.Outcome State Fault Refusal :=
  s.pcReg pc rd 4 fun s =>
    let a := s.preg pc.val rs1
    if toInt then BitVec.ofInt 32 ((pcFloat a).toInt .towardZero (-(2 ^ 31)) (2 ^ 31 - 1)) else pcPack (FNum.ofInt a.toInt)

/-- A value with its sign set. -/
def FNum.withSign (neg : Bool) : FNum → FNum
  | .nan => .nan
  | .inf _ => .inf neg
  | .fin _ m e => .fin neg m e

/-- FABS, FNEG. -/
def execFabsFneg (pc : PcId) (neg : Bool) (rd rs1 : PReg) (s : State) : Host.Outcome State Fault Refusal :=
  s.pcReg pc rd 3 fun s =>
    let x := pcFloat (s.preg pc.val rs1)
    pcPack (if neg then x.negate else x.withSign false)

/-! ### Memory (R102 to R105, R110 to R114) -/

/-- A region of the core's address space. -/
inductive PcRegion where
  | mem
  | ctrl
  | engine
  | window (k : Nat)
deriving DecidableEq, Repr

/-- The region of one address, if an access of its direction may use it (R102, R104). -/
def State.pcRegion (s : State) (n a : Nat) (store : Bool) : Option PcRegion :=
  if a < 0x10000 then some .mem
  else if 0x1000000 ≤ a ∧ a < 0x2000000 then some .engine
  else if 0x3000000 ≤ a ∧ a < 0x3001000 then (if store then none else some .ctrl)
  else if 0x80000000 ≤ a ∧ a < 2 ^ 32 then
    let k := (a - 0x80000000) / 0x10000000
    let cfg := s.rd (Reg.PCC_WIN_CFG n k)
    if cfg.testBit 0 ∧ cfg.testBit (if store then 2 else 1) ∧ a % 0x10000000 < (fld cfg 19 4 + 1) * 4096 then some (.window k) else none
  else none

/-- The physical address of an address in a region. -/
def State.pcPhys (s : State) (n a : Nat) : PcRegion → Nat
  | .mem => localAddr n a
  | .ctrl => 0x11000000 + n * 0x1000 + (a - 0x3000000)
  | .engine => 0x12000000 + (a - 0x1000000)
  | .window k => fld (s.rd (Reg.PCC_WIN_BASE n k)) 45 12 * 4096 + a % 0x10000000

/-- The region that holds every byte of an access, or the lowest forbidden address (R104). -/
def State.pcPermit (s : State) (n a bytes : Nat) (store : Bool) : Except Nat PcRegion :=
  match s.pcRegion n a store with
  | none => .error a
  | some r =>
    match (List.range bytes).find? fun i => s.pcRegion n (a + i) store != some r with
    | some i => .error (a + i)
    | none =>
      match r with
      | .ctrl => if bytes ≥ 4 ∧ a % bytes = 0 ∧ (s.regForm .pcc (s.pcPhys n a r) bytes).isOk then .ok r else .error a
      | .engine => if (s.regForm .phase (s.pcPhys n a r) bytes).isOk then .ok r else .error a
      | _ => .ok r

/-- O of an access to LOCAL (R110). -/
def localClocks (a bytes : Nat) (store : Bool) : Nat :=
  if bytes = 8 then (if store then (if a % 4 = 0 then 2 else 5) else (if a % 4 = 0 then 2 else 3))
  else
    let spans := a / 4 ≠ (a + bytes - 1) / 4
    if store then (if spans then 4 else if bytes = 4 then 1 else 2) else if spans then 2 else 1

/-- s of R111: the clocks from the end of D to the core's next slot. -/
def State.slotTerm (s : State) (n : Nat) : Nat := (n + 8 - (s.now + 2) % 8) % 8

/-- The fault of an access that its target refuses. -/
def AccessErr.pcCause : AccessErr → PcFault
  | .poison => .poison
  | _ => .access

/-- The lines of a WINDOW access that are sent: of a store, only those that an enclave check refuses, where it refuses one, since a
store that faults is not performed in part (R128). -/
def State.pcLines (s : State) (who : Requester) (store : Bool) (lines : List Nat) : List Nat :=
  let refused := lines.filter fun l => s.inDram l && !s.ertPermits who.eid.toNat l true
  if store && !refused.isEmpty then refused else lines

/-- A WINDOW access is sent for each line it touches, with the stamp of R112; to a register window it is made at once. -/
def State.pcWindowAccess (s : State) (n : Nat) (a : PcAccess) : PRes :=
  let who := s.pcRequester n
  let stamp := s.pcStamp n
  let first := a.paddr
  let last := a.paddr + a.bytes - 1
  let shut := fun b => match s.window b with | some w => !windowOpen w b who | none => true
  let dram := s.inDram first || s.inDram last
  if shut first then .fault s .access a.vaddr.toNat
  else if shut last ∨ s.window last ≠ s.window first then .fault s .access (a.vaddr.toNat + (lineOf last - first))
  else if s.mode = modeStandby ∧ dram then .fault s .access a.vaddr.toNat
  else if s.inHomed first then
    let touched := if lineOf first = lineOf last then [lineOf first] else [lineOf first, lineOf last]
    let lines := s.pcLines who a.store.isSome touched
    let s1 := s.setPcore n { s.pcore n with wait := some (.window a lines []) }
    .done (lines.foldl (fun s l =>
      let q := busReq who l stamp
      match a.store with
      | none => s.send reqNs (.readOnce q)
      | some v =>
        let k := if l ≤ first then 0 else l - first
        let m := min a.bytes (l + 64 - first) - k
        let sh := first + k - l
        s.send reqNs (.writePartial q (BitVec.ofNat 64 ((2 ^ m - 1) * 2 ^ sh))
          (BitVec.ofNat 512 (v.toNat / 2 ^ (8 * k) % 2 ^ (8 * m) * 2 ^ (8 * sh))))) s1)
  else
    match a.store with
    | none =>
      match s.busRead who first a.bytes stamp with
      | (.ok v, s1) => .next (s1.pcDeliver n a.bytes a.dest v) 43 43
      | (.error e, s1) => .done (s1.pcFault n e.pcCause a.vaddr.toNat first)
    | some v =>
      match s.busWrite who first a.bytes (v.toNat % 2 ^ (8 * a.bytes)) stamp with
      | (none, s1) => .next s1 42 42
      | (some e, s1) => .done (s1.pcFault n e.pcCause a.vaddr.toNat first)

/-- An access of a phase core at an address: `flat` is its flat count. -/
def State.pcAccess (s : State) (n : Nat) (va : Word32) (bytes flat : Nat) (store : Option Word64) (dest : PcDest) : PRes :=
  let a := va.toNat
  let st := store.isSome
  match s.pcPermit n a bytes st with
  | .error bad => .fault s .access bad
  | .ok r =>
    match s.pcCompare n a (if st then 2 else 1) with
    | .error s1 => .done s1
    | .ok s1 =>
      let x : PcAccess := { vaddr := va, paddr := s.pcPhys n a r, bytes := bytes, store := store, dest := dest }
      match r with
      | .mem =>
        match s1.badLocal n a bytes (!st) with
        | some w => .fault s1 .poison w
        | none =>
          let k := localClocks a bytes st
          if st then .next (s1.after (1 + k) (.engine (Fin.ofNat 256 n) x)) (2 + k) flat
          else .next (s1.after 2 (.engine (Fin.ofNat 256 n) x)) (3 + k) flat
      | .ctrl => .next (s1.after 2 (.engine (Fin.ofNat 256 n) x)) (if bytes = 8 then 6 else 5) flat
      | .engine =>
        let k := s1.slotTerm n
        if st then .next (s1.after (3 + k) (.engine (Fin.ofNat 256 n) x)) (4 + k) flat
        else .next (s1.after (2 + k) (.engine (Fin.ofNat 256 n) x)) ((if bytes = 8 then 10 else 9) + k) flat
      | .window _ => if (s1.pcore n).flat then .fault s1 .flat a else s1.pcWindowAccess n x

/-- The effective address. -/
def State.pcAddr (s : State) (n : Nat) (rs1 : PReg) (imm : BitVec 18) : Word32 := s.preg n rs1 + imm.signExtend 32

/-- An odd register in a pair position is ILLEGAL (R106). -/
def pairOdd (r : PReg) : Bool := r.getLsbD 0

/-- LB, LBU, LH, LHU, LW. -/
def execPcLoad (pc : PcId) (fn : PcLoadFn) (rd rs1 : PReg) (imm : BitVec 18) (s : State) : Host.Outcome State Fault Refusal :=
  .next (s.runPc pc.val false fun s =>
    let bytes := match fn with | .lb | .lbu => 1 | .lh | .lhu => 2 | .lw => 4
    let signed : Bool := match fn with | .lb | .lh => true | _ => false
    s.pcAccess pc.val (s.pcAddr pc.val rs1 imm) bytes 16 none (.reg rd signed))

/-- LD, LDA. -/
def execPcLd (pc : PcId) (dst : PairOrAcc) (rs1 : PReg) (imm : BitVec 18) (s : State) : Host.Outcome State Fault Refusal :=
  .next (s.runPc pc.val false fun s =>
    match dst with
    | .pair r =>
      if pairOdd r then .fault s .illegal (s.pcore pc.val).pc.toNat
      else s.pcAccess pc.val (s.pcAddr pc.val rs1 imm) 8 17 none (.pair r)
    | .acc a => s.pcAccess pc.val (s.pcAddr pc.val rs1 imm) 8 17 none (.acc a))

/-- SB, SH, SW. -/
def execPcStore (pc : PcId) (size : PcStoreFn) (rs2 rs1 : PReg) (imm : BitVec 18) (s : State) : Host.Outcome State Fault Refusal :=
  .next (s.runPc pc.val false fun s =>
    let bytes := match size with | .sb => 1 | .sh => 2 | .sw => 4
    s.pcAccess pc.val (s.pcAddr pc.val rs1 imm) bytes 11 (some ((s.preg pc.val rs2).setWidth 64)) (.reg 0 false))

/-- SD, STA. -/
def execPcSd (pc : PcId) (src : PairOrAcc) (rs1 : PReg) (imm : BitVec 18) (s : State) : Host.Outcome State Fault Refusal :=
  .next (s.runPc pc.val false fun s =>
    match src with
    | .pair r =>
      if pairOdd r then .fault s .illegal (s.pcore pc.val).pc.toNat
      else s.pcAccess pc.val (s.pcAddr pc.val rs1 imm) 8 11 (some (s.ppair pc.val r)) (.reg 0 false)
    | .acc a => s.pcAccess pc.val (s.pcAddr pc.val rs1 imm) 8 11 (some (s.pacc pc.val a)) (.reg 0 false))

/-- The read of an ENGINE load samples its register, or the write of a store reaches the engine (R111). -/
def State.engineAccess (s : State) (n : Nat) (a : PcAccess) : State :=
  let who := s.pcRequester n
  match a.store with
  | some v => (s.busWrite who a.paddr a.bytes (v.toNat % 2 ^ (8 * a.bytes)) 0).2
  | none =>
    match s.busRead who a.paddr a.bytes 0 with
    | (.ok v, s1) => s1.pcDeliver n a.bytes a.dest v
    | (.error _, s1) => s1

/-- An access is performed in an O clock of its instruction: in LOCAL, in CTRL, which is only read, or in ENGINE (R100, R110). -/
def State.portAccess (s : State) (n : Nat) (a : PcAccess) : State :=
  let va := a.vaddr.toNat
  if va < 0x10000 then
    match a.store with
    | some v => s.writeLocal n va a.bytes v.toNat
    | none => s.pcDeliver n a.bytes a.dest (s.bytes (localAddr n va) a.bytes)
  else if 0x3000000 ≤ va then
    s.pcDeliver n a.bytes a.dest (match s.regForm .pcc a.paddr a.bytes with | .ok true => s.readPcc n a.paddr | _ => 0)
  else s.engineAccess n a

/-! ### Branches and loops (R107, R116) -/

/-- BEQ to BGEU. -/
def execPcBranch (pc : PcId) (fn : BranchFn) (rs1 rs2 : PReg) (off : BitVec 18) (s : State) : Host.Outcome State Fault Refusal :=
  .next (s.runPc pc.val true fun s =>
    let a := s.preg pc.val rs1
    let b := s.preg pc.val rs2
    let taken : Bool :=
      match fn with
      | .eq => a == b
      | .ne => a != b
      | .lt => a.slt b
      | .ge => !a.slt b
      | .ltu => a.ult b
      | .geu => !a.ult b
    if taken then .jump s ((s.pcore pc.val).pc + (off.signExtend 32 <<< 2)) 4 4 else .next s 3 4)

/-- JAL: p15 ← PC + 4. -/
def execPcJal (pc : PcId) (off : BitVec 26) (s : State) : Host.Outcome State Fault Refusal :=
  .next (s.runPc pc.val true fun s =>
    let at_ := (s.pcore pc.val).pc
    .jump (s.setPreg pc.val 15 (at_ + 4)) (at_ + (off.signExtend 32 <<< 2)) 4 4)

/-- JALR: rd ← PC + 4; PC ← rs1 + imm. -/
def execPcJalr (pc : PcId) (rd rs1 : PReg) (imm : BitVec 18) (s : State) : Host.Outcome State Fault Refusal :=
  .next (s.runPc pc.val true fun s =>
    .jump (s.setPreg pc.val rd ((s.pcore pc.val).pc + 4)) (s.pcAddr pc.val rs1 imm) 5 5)

/-- The set-up of a loop; a count of 0 skips the body as a jump to LEND + 4 does, which faults FETCH at the LOOP itself when nothing can be
fetched there (R103, R116; DEDUCED, assumption 122). -/
def State.pcSetLoop (s : State) (n : Nat) (count length : Word32) : PRes :=
  let c := s.pcore n
  if c.lcnt ≠ 0 ∨ length = 0 then .fault s .loop c.pc.toNat
  else
    let last := c.pc + (length <<< 2)
    let s1 := s.setPcore n { c with lcnt := count, lbeg := c.pc + 4, lend := last }
    if count = 0 then .jump s1 (last + 4) 3 3 else .next s1 3 3

/-- LOOP. -/
def execPcLoop (pc : PcId) (rs1 : PReg) (imm : BitVec 18) (s : State) : Host.Outcome State Fault Refusal :=
  .next (s.runPc pc.val true fun s => s.pcSetLoop pc.val (s.preg pc.val rs1) (imm.signExtend 32))

/-- LOOPI. -/
def execPcLoopi (pc : PcId) (count : BitVec 12) (length : BitVec 14) (s : State) : Host.Outcome State Fault Refusal :=
  .next (s.runPc pc.val true fun s => s.pcSetLoop pc.val (count.setWidth 32) (length.setWidth 32))

/-! ### Events, pins, points and doorbells (R119 to R127) -/

/-- WAITEV: imm[7:0] is the mask; with imm[8] it does not wait. -/
def execWaitev (pc : PcId) (rd : PReg) (imm : BitVec 9) (s : State) : Host.Outcome State Fault Refusal :=
  .next (s.runPc pc.val true fun s =>
    let n := pc.val
    let mask := imm.setWidth 8
    match (s.pcore n).ready mask with
    | some i => .next (s.popEvent n i rd) 4 4
    | none =>
      if imm.getLsbD 8 then .next (s.setPreg n rd (BitVec.allOnes 32)) 4 4
      else .done ((s.setPcore n { s.pcore n with sleep := some (rd, mask, none) }).setPcState n 2))

/-- EVSEND: the event leaves when the instruction completes. -/
def execEvsend (pc : PcId) (rs1 : PReg) (input : BitVec 3) (s : State) : Host.Outcome State Fault Refusal :=
  .next (s.runPc pc.val false fun s =>
    .next (s.after 3 (.evsend pc (Fin.ofNat 256 ((s.preg pc.val rs1).toNat % 256)) input)) 3 3)

/-- The event of an EVSEND: to a core of the same EID, 6 clocks later; else it is discarded with POST_REJECT. -/
def State.sendEvent (s : State) (n target : Nat) (input : BitVec 3) : State :=
  if s.pcEid n = s.pcEid target then
    s.send 6 (.taskEvent (Fin.ofNat 256 target) input (BitVec.ofNat 11 (1536 + n)) s.gt.now)
  else s.wb (Reg.PCC_STATUS n) 7 true

/-- PINA: the action resolves in the instruction's last clock. -/
def execPina (pc : PcId) (rs1 : PReg) (act : BitVec 2) (s : State) : Host.Outcome State Fault Refusal :=
  .next (s.runPc pc.val false fun s =>
    .next (s.after 3 (.pina pc (Fin.ofNat 512 ((s.preg pc.val rs1).toNat % 512)) act (BitVec.ofNat 6 (s.pcEid pc.val)))) 3 3)

/-- PTLD: the value, or the stamp and status, of a point through ARB_PT. -/
def execPtld (pc : PcId) (status : Bool) (rd rs1 : PReg) (s : State) : Host.Outcome State Fault Refusal :=
  .next (s.runPc pc.val false fun s =>
    let n := pc.val
    let pt := (s.preg n rs1).toNat % 2 ^ 17
    if pairOdd rd then .fault s .illegal (s.pcore n).pc.toNat
    else if (s.pcore n).flat then .fault s .flat pt
    else
      let s1 := s.setPcore n { s.pcore n with wait := some (.point pt (.pair rd)) }
      .done (s1.present 2 12 (n / 64) (s.pcStamp n) pt 16
        (.point (Fin.ofNat 131072 pt) (s.pcRequester n) (if status then .readStatus else .readValue))))

/-- An entry is placed in the post queue; a full queue faults in flat-timed mode and waits in region-timed mode. -/
def State.pcPost (s : State) (n : Nat) (e : PostEntry) : PRes :=
  let c := s.pcore n
  if c.post.length < 4 then .next (s.pushPost n e) 3 3
  else if c.flat then .fault s .flat e.target
  else .done (s.setPcore n { c with wait := some (.post e) })

/-- PTST. -/
def execPtst (pc : PcId) (rs1 rs2 : PReg) (s : State) : Host.Outcome State Fault Refusal :=
  .next (s.runPc pc.val false fun s =>
    let n := pc.val
    if pairOdd rs2 then .fault s .illegal (s.pcore n).pc.toNat
    else s.pcPost n { point := true, target := (s.preg n rs1).toNat % 2 ^ 17, value := s.ppair n rs2, stamp := s.pcStamp n
                      eid := BitVec.ofNat 6 (s.pcEid n) })

/-- DBELL. -/
def execDbell (pc : PcId) (rs1 rs2 : PReg) (s : State) : Host.Outcome State Fault Refusal :=
  .next (s.runPc pc.val false fun s =>
    let n := pc.val
    s.pcPost n { point := false, target := (s.preg n rs1).toNat % 2 ^ 18, value := (s.preg n rs2).setWidth 64, stamp := s.pcStamp n
                 eid := BitVec.ofNat 6 (s.pcEid n) })

/-- RDGT. -/
def execPcRdgt (pc : PcId) (rd : PReg) (s : State) : Host.Outcome State Fault Refusal :=
  .next (s.runPc pc.val false fun s =>
    if pairOdd rd then .fault s .illegal (s.pcore pc.val).pc.toNat else .next (s.setPpair pc.val rd s.gt.now) 3 3)

/-- SETDL, ADDDL. -/
def execSetdl (pc : PcId) (add : Bool) (rs1 : PReg) (s : State) : Host.Outcome State Fault Refusal :=
  .next (s.runPc pc.val false fun s =>
    let n := pc.val
    if add then .next (s.setPcore n { s.pcore n with tdl := s.gt.now + (s.preg n rs1).setWidth 64 }) 3 3
    else if pairOdd rs1 then .fault s .illegal (s.pcore n).pc.toNat
    else .next (s.setPcore n { s.pcore n with tdl := s.ppair n rs1 }) 3 3)

/-- SETTM: the two instructions that follow run under the old mode. -/
def execSettm (pc : PcId) (mode : Bool) (s : State) : Host.Outcome State Fault Refusal :=
  .next (s.runPc pc.val false fun s => .next (s.setPcore pc.val { s.pcore pc.val with flatNext := some (3, mode) }) 3 3)

/-- TRET: the shadow is restored and INPRE clears. -/
def execTret (pc : PcId) (s : State) : Host.Outcome State Fault Refusal :=
  .next (s.runPc pc.val true fun s =>
    let n := pc.val
    let c := s.pcore n
    let h := c.shadow
    .done ((s.wb (Reg.PCC_STATUS n) 3 false).pcEnd n 3 h.pc h.lcnt fun c =>
      { c with ctask := h.ctask, tdl := h.tdl, lbeg := h.lbeg, lend := h.lend, flat := h.flat, flatNext := none }))

/-- STOP: RUN clears, the core is HALTED at its address, STOPPED is set. -/
def execPcStop (pc : PcId) (s : State) : Host.Outcome State Fault Refusal :=
  .next (s.runPc pc.val true fun s =>
    let n := pc.val
    let step := (s.pcore n).stepping
    let s1 := ((s.commitMode n).setPcState n 0).wb (Reg.PCC_CTRL n) 0 false
    let c := s1.pcore n
    let s2 := (s1.setPcore n { c with busy := s.clk + 2, cycles := c.cycles + 2, stepping := false, halted := step }).wb (Reg.PCC_STATUS n) 10 true
    let s3 := if step then (s2.wb (Reg.DBG_PC_STATUS n) 0 true).wf (Reg.DBG_PC_STATUS n) 2 1 2 else s2
    .done (if s.rb (Reg.PCC_CTRL n) 4 then s3.source (pcSource n) else s3))

/-- PC_ILLEGAL_INSTRUCTION: the word fetched at the PC is no instruction (R106, R107); a word that is one raises nothing. -/
def execPcIllegalInstruction (pc : PcId) (word : Word32) (s : State) : Host.Outcome State Fault Refusal :=
  if (decodePcWord pc word).isSome then .next s
  else .next (s.runPc pc.val false fun s => .fault s .illegal (s.pcore pc.val).pc.toNat)

end Sys2Proof.Machine
end

