-- ==== Sys2Proof/Machine/Dispatch.lean ====
section
/-!
DEFINITION. Sys2Proof/Machine/Dispatch.lean: the meaning of each command, one arm for each constructor of `Instr`.
-/
namespace Sys2Proof.Machine

def exec (i : Instr) (s : State) : Host.Outcome State Fault Refusal :=
  match i with
  | .srcLost => Sys2Proof.Machine.execSrcLost s
  | .mainsCrossing b rising instant => Sys2Proof.Machine.execMainsCrossing b rising instant s
  | .mainsInputLost b => Sys2Proof.Machine.execMainsInputLost b s
  | .mainsHoldoverEnd b => Sys2Proof.Machine.execMainsHoldoverEnd b s
  | .rateWindow b => Sys2Proof.Machine.execRateWindow b s
  | .streamTimeout b => Sys2Proof.Machine.execStreamTimeout b s
  | .projectionRecompute b => Sys2Proof.Machine.execProjectionRecompute b s
  | .compareMatch n => Sys2Proof.Machine.execCompareMatch n s
  | .pinAction p => Sys2Proof.Machine.execPinAction p s
  | .captureEvent n rise instant => Sys2Proof.Machine.execCaptureEvent n rise instant s
  | .ctrTick n => Sys2Proof.Machine.execCtrTick n s
  | .linkedCounterAction n act => Sys2Proof.Machine.execLinkedCounterAction n act s
  | .taskEvent pc input source instant => Sys2Proof.Machine.execTaskEvent pc input source instant s
  | .waitevWake pc => Sys2Proof.Machine.execWaitevWake pc s
  | .preemptionEntry pc => Sys2Proof.Machine.execPreemptionEntry pc s
  | .postQueueDrain pc => Sys2Proof.Machine.execPostQueueDrain pc s
  | .arbRequest a r => Sys2Proof.Machine.execArbRequest a r s
  | .arbGrant a => Sys2Proof.Machine.execArbGrant a s
  | .interruptEntry c => Sys2Proof.Machine.execInterruptEntry c s
  | .timerVector c view => Sys2Proof.Machine.execTimerVector c view s
  | .interruptSourceEvent n => Sys2Proof.Machine.execInterruptSourceEvent n s
  | .interruptDelivery n => Sys2Proof.Machine.execInterruptDelivery n s
  | .interruptPost n => Sys2Proof.Machine.execInterruptPost n s
  | .postRetry n => Sys2Proof.Machine.execPostRetry n s
  | .bell c record vector => Sys2Proof.Machine.execBell c record vector s
  | .tlbiCompletion c => Sys2Proof.Machine.execTlbiCompletion c s
  | .storeDrain c => Sys2Proof.Machine.execStoreDrain c s
  | .reservationTimeout c => Sys2Proof.Machine.execReservationTimeout c s
  | .readShared q => Sys2Proof.Machine.execReadShared q s
  | .readUnique q => Sys2Proof.Machine.execReadUnique q s
  | .upgrade q => Sys2Proof.Machine.execUpgrade q s
  | .writeBack c line => Sys2Proof.Machine.execWriteBack c line s
  | .readOnce q => Sys2Proof.Machine.execReadOnce q s
  | .writeUnique q data poison => Sys2Proof.Machine.execWriteUnique q data poison s
  | .writePartial q mask data => Sys2Proof.Machine.execWritePartial q mask data s
  | .writePartialPost q vector => Sys2Proof.Machine.execWritePartialPost q vector s
  | .fwdShared owner line dst once => Sys2Proof.Machine.execFwdShared owner line dst once s
  | .fwdUnique owner line dst acks => Sys2Proof.Machine.execFwdUnique owner line dst acks s
  | .invalidate c line ackTo => Sys2Proof.Machine.execInvalidate c line ackTo s
  | .backInvalidate c line => Sys2Proof.Machine.execBackInvalidate c line s
  | .invAck c line dst => Sys2Proof.Machine.execInvAck c line dst s
  | .fwdAck c line dirty => Sys2Proof.Machine.execFwdAck c line dirty s
  | .fwdMiss c line => Sys2Proof.Machine.execFwdMiss c line s
  | .dataShared dst line data poison once => Sys2Proof.Machine.execDataShared dst line data poison once s
  | .dataUnique dst line data poison acks => Sys2Proof.Machine.execDataUnique dst line data poison acks s
  | .dataDirty dst line data poison acks => Sys2Proof.Machine.execDataDirty dst line data poison acks s
  | .wbAck c line => Sys2Proof.Machine.execWbAck c line s
  | .comp dst line status acks write prior => Sys2Proof.Machine.execComp dst line status acks write prior s
  | .compToHome c line => Sys2Proof.Machine.execCompToHome c line s
  | .hsQueryAddr h who value => Sys2Proof.Machine.execHsQueryAddr h who value s
  | .backinvWindow h => Sys2Proof.Machine.execBackinvWindow h s
  | .linkRetry link times => Sys2Proof.Machine.execLinkRetry link times s
  | .mcCommandIssue mc sub bad => Sys2Proof.Machine.execMcCommandIssue mc sub bad s
  | .readDataHandoff mc => Sys2Proof.Machine.execReadDataHandoff mc s
  | .idleTimer mc sub rank bank => Sys2Proof.Machine.execIdleTimer mc sub rank bank s
  | .mr4Poll mc codes => Sys2Proof.Machine.execMr4Poll mc codes s
  | .agePromotion mc => Sys2Proof.Machine.execAgePromotion mc s
  | .blackoutStart mc => Sys2Proof.Machine.execBlackoutStart mc s
  | .blackoutEnd mc => Sys2Proof.Machine.execBlackoutEnd mc s
  | .scrubVisit mc => Sys2Proof.Machine.execScrubVisit mc s
  | .contactEvent => Sys2Proof.Machine.execContactEvent s
  | .mirrorCopy => Sys2Proof.Machine.execMirrorCopy s
  | .doorbell q who value stamp => Sys2Proof.Machine.execDoorbell q who value stamp s
  | .doorbellScan e => Sys2Proof.Machine.execDoorbellScan e s
  | .channelAssign e => Sys2Proof.Machine.execChannelAssign e s
  | .descriptorFetched e ch bad => Sys2Proof.Machine.execDescriptorFetched e ch bad s
  | .completionWrite q => Sys2Proof.Machine.execCompletionWrite q s
  | .completionReturn q gen index status length => Sys2Proof.Machine.execCompletionReturn q gen index status length s
  | .frameTransmit p bad => Sys2Proof.Machine.execFrameTransmit p bad s
  | .frameAge p => Sys2Proof.Machine.execFrameAge p s
  | .gclEntry p => Sys2Proof.Machine.execGclEntry p s
  | .swapTake p => Sys2Proof.Machine.execSwapTake p s
  | .syncSend p => Sys2Proof.Machine.execSyncSend p s
  | .dinathReceive p frame instant => Sys2Proof.Machine.execDinathReceive p frame instant s
  | .pointUpdate pt value stamp node => Sys2Proof.Machine.execPointUpdate pt value stamp node s
  | .position node stream value instant => Sys2Proof.Machine.execPosition node stream value instant s
  | .pointAccess pt who access bad => Sys2Proof.Machine.execPointAccess pt who access bad s
  | .staleSweep => Sys2Proof.Machine.execStaleSweep s
  | .commitEnd => Sys2Proof.Machine.execCommitEnd s
  | .purgeDone c => Sys2Proof.Machine.execPurgeDone c s
  | .ready c => Sys2Proof.Machine.execReady c s
  | .pairLinkLoss => Sys2Proof.Machine.execPairLinkLoss s
  | .gateSubmit item => Sys2Proof.Machine.execGateSubmit item s
  | .gateTimeout => Sys2Proof.Machine.execGateTimeout s
  | .pairedEntry => Sys2Proof.Machine.execPairedEntry s
  | .pairedExit => Sys2Proof.Machine.execPairedExit s
  | .peerCommand packet => Sys2Proof.Machine.execPeerCommand packet s
  | .peerReply packet => Sys2Proof.Machine.execPeerReply packet s
  | .commandTake => Sys2Proof.Machine.execCommandTake s
  | .deferredComplete seq opcode src results => Sys2Proof.Machine.execDeferredComplete seq opcode src results s
  | .readStatus => Sys2Proof.Machine.execReadStatus s
  | .standbySequence => Sys2Proof.Machine.execStandbySequence s
  | .standbyDone => Sys2Proof.Machine.execStandbyDone s
  | .wake src => Sys2Proof.Machine.execWake src s
  | .pllLock => Sys2Proof.Machine.execPllLock s
  | .avsPeriod => Sys2Proof.Machine.execAvsPeriod s
  | .coreHalt c => Sys2Proof.Machine.execCoreHalt c s
  | .crossTrigger x => Sys2Proof.Machine.execCrossTrigger x s
  | .shutterTake => Sys2Proof.Machine.execShutterTake s
  | .slewComplete => Sys2Proof.Machine.execSlewComplete s
  | .heldResume b => Sys2Proof.Machine.execHeldResume b s
  | .pcNop pc => Sys2Proof.Machine.execPcNop pc s
  | .pcAlu pc fn rd rs1 rs2 => Sys2Proof.Machine.execPcAlu pc fn rd rs1 rs2 s
  | .pcShift pc fn rd rs1 rs2 => Sys2Proof.Machine.execPcShift pc fn rd rs1 rs2 s
  | .pcSlt pc sign rd rs1 rs2 => Sys2Proof.Machine.execPcSlt pc sign rd rs1 rs2 s
  | .pcMul pc rd rs1 rs2 => Sys2Proof.Machine.execPcMul pc rd rs1 rs2 s
  | .pcMulh pc sign rd rs1 rs2 => Sys2Proof.Machine.execPcMulh pc sign rd rs1 rs2 s
  | .qadd pc sub rd rs1 rs2 => Sys2Proof.Machine.execQadd pc sub rd rs1 rs2 s
  | .pcMinMax pc fn rd rs1 rs2 => Sys2Proof.Machine.execPcMinMax pc fn rd rs1 rs2 s
  | .pcAluImm pc fn rd rs1 imm => Sys2Proof.Machine.execPcAluImm pc fn rd rs1 imm s
  | .pcShiftImm pc fn rd rs1 amount => Sys2Proof.Machine.execPcShiftImm pc fn rd rs1 amount s
  | .pcLui pc rd imm => Sys2Proof.Machine.execPcLui pc rd imm s
  | .mac pc fn acc rs1 rs2 => Sys2Proof.Machine.execMac pc fn acc rs1 rs2 s
  | .accrd pc rd acc shift round => Sys2Proof.Machine.execAccrd pc rd acc shift round s
  | .accwr pc acc rs1 shift => Sys2Proof.Machine.execAccwr pc acc rs1 shift s
  | .pcDiv pc fn rd rs1 rs2 => Sys2Proof.Machine.execPcDiv pc fn rd rs1 rs2 s
  | .pcFadd pc fn rd rs1 rs2 => Sys2Proof.Machine.execPcFadd pc fn rd rs1 rs2 s
  | .fmac pc rd rs1 rs2 => Sys2Proof.Machine.execFmac pc rd rs1 rs2 s
  | .pcFdiv pc rd rs1 rs2 => Sys2Proof.Machine.execPcFdiv pc rd rs1 rs2 s
  | .pcFsqrt pc rd rs1 => Sys2Proof.Machine.execPcFsqrt pc rd rs1 s
  | .pcFcompare pc fn rd rs1 rs2 => Sys2Proof.Machine.execPcFcompare pc fn rd rs1 rs2 s
  | .pcFcvt pc toInt rd rs1 => Sys2Proof.Machine.execPcFcvt pc toInt rd rs1 s
  | .fabsFneg pc neg rd rs1 => Sys2Proof.Machine.execFabsFneg pc neg rd rs1 s
  | .pcLoad pc fn rd rs1 imm => Sys2Proof.Machine.execPcLoad pc fn rd rs1 imm s
  | .pcLd pc dst rs1 imm => Sys2Proof.Machine.execPcLd pc dst rs1 imm s
  | .pcStore pc size rs2 rs1 imm => Sys2Proof.Machine.execPcStore pc size rs2 rs1 imm s
  | .pcSd pc src rs1 imm => Sys2Proof.Machine.execPcSd pc src rs1 imm s
  | .pcBranch pc fn rs1 rs2 off => Sys2Proof.Machine.execPcBranch pc fn rs1 rs2 off s
  | .pcJal pc off => Sys2Proof.Machine.execPcJal pc off s
  | .pcJalr pc rd rs1 imm => Sys2Proof.Machine.execPcJalr pc rd rs1 imm s
  | .pcLoop pc rs1 imm => Sys2Proof.Machine.execPcLoop pc rs1 imm s
  | .pcLoopi pc count length => Sys2Proof.Machine.execPcLoopi pc count length s
  | .waitev pc rd imm => Sys2Proof.Machine.execWaitev pc rd imm s
  | .evsend pc rs1 input => Sys2Proof.Machine.execEvsend pc rs1 input s
  | .pina pc rs1 act => Sys2Proof.Machine.execPina pc rs1 act s
  | .ptld pc status rd rs1 => Sys2Proof.Machine.execPtld pc status rd rs1 s
  | .ptst pc rs1 rs2 => Sys2Proof.Machine.execPtst pc rs1 rs2 s
  | .dbell pc rs1 rs2 => Sys2Proof.Machine.execDbell pc rs1 rs2 s
  | .pcRdgt pc rd => Sys2Proof.Machine.execPcRdgt pc rd s
  | .setdl pc add rs1 => Sys2Proof.Machine.execSetdl pc add rs1 s
  | .settm pc mode => Sys2Proof.Machine.execSettm pc mode s
  | .tret pc => Sys2Proof.Machine.execTret pc s
  | .pcStop pc => Sys2Proof.Machine.execPcStop pc s
  | .add c sub rd rs1 rs2 => Sys2Proof.Machine.execAdd c sub rd rs1 rs2 s
  | .and c fn rd rs1 rs2 => Sys2Proof.Machine.execAnd c fn rd rs1 rs2 s
  | .sll c fn rd rs1 rs2 => Sys2Proof.Machine.execSll c fn rd rs1 rs2 s
  | .slt c sign rd rs1 rs2 => Sys2Proof.Machine.execSlt c sign rd rs1 rs2 s
  | .minMax c fn rd rs1 rs2 => Sys2Proof.Machine.execMinMax c fn rd rs1 rs2 s
  | .minuMaxu c fn rd rs1 rs2 => Sys2Proof.Machine.execMinuMaxu c fn rd rs1 rs2 s
  | .clzCtz c trailing rd rs1 => Sys2Proof.Machine.execClzCtz c trailing rd rs1 s
  | .popc c rd rs1 => Sys2Proof.Machine.execPopc c rd rs1 s
  | .addwSubw c sub rd rs1 rs2 => Sys2Proof.Machine.execAddwSubw c sub rd rs1 rs2 s
  | .sllw c fn rd rs1 rs2 => Sys2Proof.Machine.execSllw c fn rd rs1 rs2 s
  | .mul c rd rs1 rs2 => Sys2Proof.Machine.execMul c rd rs1 rs2 s
  | .mulh c fn rd rs1 rs2 => Sys2Proof.Machine.execMulh c fn rd rs1 rs2 s
  | .mulw c rd rs1 rs2 => Sys2Proof.Machine.execMulw c rd rs1 rs2 s
  | .div c sign rd rs1 rs2 => Sys2Proof.Machine.execDiv c sign rd rs1 rs2 s
  | .rem c sign rd rs1 rs2 => Sys2Proof.Machine.execRem c sign rd rs1 rs2 s
  | .divw c fn rd rs1 rs2 => Sys2Proof.Machine.execDivw c fn rd rs1 rs2 s
  | .addi c rd rs1 imm => Sys2Proof.Machine.execAddi c rd rs1 imm s
  | .addiw c rd rs1 imm => Sys2Proof.Machine.execAddiw c rd rs1 imm s
  | .andi c fn rd rs1 imm => Sys2Proof.Machine.execAndi c fn rd rs1 imm s
  | .slti c sign rd rs1 imm => Sys2Proof.Machine.execSlti c sign rd rs1 imm s
  | .slli c fn word rd rs1 amount => Sys2Proof.Machine.execSlli c fn word rd rs1 amount s
  | .lui c rd imm => Sys2Proof.Machine.execLui c rd imm s
  | .auipc c rd imm => Sys2Proof.Machine.execAuipc c rd imm s
  | .load c fn rd rs1 imm => Sys2Proof.Machine.execLoad c fn rd rs1 imm s
  | .flwFld c fmt rd rs1 imm => Sys2Proof.Machine.execFlwFld c fmt rd rs1 imm s
  | .store c fn rs2 rs1 imm => Sys2Proof.Machine.execStore c fn rs2 rs1 imm s
  | .fswFsd c fmt rs2 rs1 imm => Sys2Proof.Machine.execFswFsd c fmt rs2 rs1 imm s
  | .beqBne c ne rs1 rs2 off => Sys2Proof.Machine.execBeqBne c ne rs1 rs2 off s
  | .bltBge c ge rs1 rs2 off => Sys2Proof.Machine.execBltBge c ge rs1 rs2 off s
  | .bltuBgeu c ge rs1 rs2 off => Sys2Proof.Machine.execBltuBgeu c ge rs1 rs2 off s
  | .j c off => Sys2Proof.Machine.execJ c off s
  | .jal c off => Sys2Proof.Machine.execJal c off s
  | .jalr c rd rs1 imm => Sys2Proof.Machine.execJalr c rd rs1 imm s
  | .loop c lvl rs1 len => Sys2Proof.Machine.execLoop c lvl rs1 len s
  | .loopi c lvl count len => Sys2Proof.Machine.execLoopi c lvl count len s
  | .fadd c fn fmt rm rd rs1 rs2 => Sys2Proof.Machine.execFadd c fn fmt rm rd rs1 rs2 s
  | .fsqrt c fmt rm rd rs1 => Sys2Proof.Machine.execFsqrt c fmt rm rd rs1 s
  | .fminFmax c fn fmt rd rs1 rs2 => Sys2Proof.Machine.execFminFmax c fn fmt rd rs1 rs2 s
  | .fsign c fn fmt rd rs1 rs2 => Sys2Proof.Machine.execFsign c fn fmt rd rs1 rs2 s
  | .feq c fn fmt rd rs1 rs2 => Sys2Proof.Machine.execFeq c fn fmt rd rs1 rs2 s
  | .fkind c fmt rd rs1 => Sys2Proof.Machine.execFkind c fmt rd rs1 s
  | .ftoiW c sign fmt rm rd rs1 => Sys2Proof.Machine.execFtoiW c sign fmt rm rd rs1 s
  | .ftoiL c sign fmt rm rd rs1 => Sys2Proof.Machine.execFtoiL c sign fmt rm rd rs1 s
  | .itofW c sign fmt rm rd rs1 => Sys2Proof.Machine.execItofW c sign fmt rm rd rs1 s
  | .itofL c sign fmt rm rd rs1 => Sys2Proof.Machine.execItofL c sign fmt rm rd rs1 s
  | .fresize c fmt rm rd rs1 => Sys2Proof.Machine.execFresize c fmt rm rd rs1 s
  | .fbitsG c fmt rd rs1 => Sys2Proof.Machine.execFbitsG c fmt rd rs1 s
  | .fbitsF c fmt rd rs1 => Sys2Proof.Machine.execFbitsF c fmt rd rs1 s
  | .fmadd c fmt rm rd rs1 rs2 rs3 => Sys2Proof.Machine.execFmadd c fmt rm rd rs1 rs2 rs3 s
  | .fmsub c fmt rm rd rs1 rs2 rs3 => Sys2Proof.Machine.execFmsub c fmt rm rd rs1 rs2 rs3 s
  | .fnmsub c fmt rm rd rs1 rs2 rs3 => Sys2Proof.Machine.execFnmsub c fmt rm rd rs1 rs2 rs3 s
  | .fnmadd c fmt rm rd rs1 rs2 rs3 => Sys2Proof.Machine.execFnmadd c fmt rm rd rs1 rs2 rs3 s
  | .ldres c double rd rs1 => Sys2Proof.Machine.execLdres c double rd rs1 s
  | .stcond c double rd rs1 rs2 => Sys2Proof.Machine.execStcond c double rd rs1 rs2 s
  | .fence c => Sys2Proof.Machine.execFence c s
  | .fenceSl c => Sys2Proof.Machine.execFenceSl c s
  | .fenceL c => Sys2Proof.Machine.execFenceL c s
  | .fenceIo c => Sys2Proof.Machine.execFenceIo c s
  | .syncI c => Sys2Proof.Machine.execSyncI c s
  | .rdgt c rd => Sys2Proof.Machine.execRdgt c rd s
  | .mfsr c rd number => Sys2Proof.Machine.execMfsr c rd number s
  | .mtsr c rs1 number => Sys2Proof.Machine.execMtsr c rs1 number s
  | .svcall c imm => Sys2Proof.Machine.execSvcall c imm s
  | .hvcall c imm => Sys2Proof.Machine.execHvcall c imm s
  | .moncall c imm => Sys2Proof.Machine.execMoncall c imm s
  | .eret c => Sys2Proof.Machine.execEret c s
  | .wfi c => Sys2Proof.Machine.execWfi c s
  | .tlbiVa c rs1 rs2 => Sys2Proof.Machine.execTlbiVa c rs1 rs2 s
  | .tlbiAsid c rs1 => Sys2Proof.Machine.execTlbiAsid c rs1 s
  | .tlbiGuest c => Sys2Proof.Machine.execTlbiGuest c s
  | .tlbiIpa c rs1 rs2 => Sys2Proof.Machine.execTlbiIpa c rs1 rs2 s
  | .tlbiVmid c rs1 => Sys2Proof.Machine.execTlbiVmid c rs1 s
  | .tlbiAll c => Sys2Proof.Machine.execTlbiAll c s
  | .gtCtrl who value => Sys2Proof.Machine.execGtCtrl who value s
  | .sync src offset interval => Sys2Proof.Machine.execSync src offset interval s
  | .rtcTick => Sys2Proof.Machine.execRtcTick s
  | .vddAoLoss => Sys2Proof.Machine.execVddAoLoss s
  | .phbCtrl b who value => Sys2Proof.Machine.execPhbCtrl b who value s
  | .phbPreset b value => Sys2Proof.Machine.execPhbPreset b value s
  | .phbStreamPos b value => Sys2Proof.Machine.execPhbStreamPos b value s
  | .encoderEdge b levelA levelB => Sys2Proof.Machine.execEncoderEdge b levelA levelB s
  | .cmpCtrl n who value => Sys2Proof.Machine.execCmpCtrl n who value s
  | .cmpValue n value => Sys2Proof.Machine.execCmpValue n value s
  | .cmpAction n who value => Sys2Proof.Machine.execCmpAction n who value s
  | .pinCfg p who value => Sys2Proof.Machine.execPinCfg p who value s
  | .pinLock p who => Sys2Proof.Machine.execPinLock p who s
  | .pinAct p who value => Sys2Proof.Machine.execPinAct p who value s
  | .pinOwner p who value => Sys2Proof.Machine.execPinOwner p who value s
  | .vsel k who value => Sys2Proof.Machine.execVsel k who value s
  | .supplyErr k => Sys2Proof.Machine.execSupplyErr k s
  | .supplyOk k => Sys2Proof.Machine.execSupplyOk k s
  | .capValue n => Sys2Proof.Machine.execCapValue n s
  | .sdResult n sum => Sys2Proof.Machine.execSdResult n sum s
  | .clkLoss n => Sys2Proof.Machine.execClkLoss n s
  | .localMemoryAccess pc who offset size store => Sys2Proof.Machine.execLocalMemoryAccess pc who offset size store s
  | .runStart pc who => Sys2Proof.Machine.execRunStart pc who s
  | .runStop pc who => Sys2Proof.Machine.execRunStop pc who s
  | .coreRst pc who => Sys2Proof.Machine.execCoreRst pc who s
  | .tmode pc who mode => Sys2Proof.Machine.execTmode pc who mode s
  | .pccEvPost pc who input => Sys2Proof.Machine.execPccEvPost pc who input s
  | .pccEid pc who reg value => Sys2Proof.Machine.execPccEid pc who reg value s
  | .arbFreeze a who value => Sys2Proof.Machine.execArbFreeze a who value s
  | .missClr a who value => Sys2Proof.Machine.execMissClr a who value s
  | .latentWindowEnd c => Sys2Proof.Machine.execLatentWindowEnd c s
  | .irtSrcCfg n who record value => Sys2Proof.Machine.execIrtSrcCfg n who record value s
  | .irtSwgen page who value => Sys2Proof.Machine.execIrtSwgen page who value s
  | .frameReceive p frame => Sys2Proof.Machine.execFrameReceive p frame s
  | .frameEnd p good => Sys2Proof.Machine.execFrameEnd p good s
  | .swap p who => Sys2Proof.Machine.execSwap p who s
  | .pdelayReq p frame instant => Sys2Proof.Machine.execPdelayReq p frame instant s
  | .linkChg p up => Sys2Proof.Machine.execLinkChg p up s
  | .go who => Sys2Proof.Machine.execGo who s
  | .set who => Sys2Proof.Machine.execSet who s
  | .clear who => Sys2Proof.Machine.execClear who s
  | .ertCommit c who => Sys2Proof.Machine.execErtCommit c who s
  | .purge c who => Sys2Proof.Machine.execPurge c who s
  | .derive c who => Sys2Proof.Machine.execDerive c who s
  | .keyClear c who => Sys2Proof.Machine.execKeyClear c who s
  | .linkEn who value => Sys2Proof.Machine.execLinkEn who value s
  | .linkUp lanes peerSide => Sys2Proof.Machine.execLinkUp lanes peerSide s
  | .pairGroup g => Sys2Proof.Machine.execPairGroup g s
  | .alignmentExchange t1 t2 t3 t4 => Sys2Proof.Machine.execAlignmentExchange t1 t2 t3 t4 s
  | .gatePeerItem item => Sys2Proof.Machine.execGatePeerItem item s
  | .cmdrTail j who value => Sys2Proof.Machine.execCmdrTail j who value s
  | .cmdrCfg j who value => Sys2Proof.Machine.execCmdrCfg j who value s
  | .watchdog => Sys2Proof.Machine.execWatchdog s
  | .writeCmd packet => Sys2Proof.Machine.execWriteCmd packet s
  | .readReply => Sys2Proof.Machine.execReadReply s
  | .engageSpare => Sys2Proof.Machine.execEngageSpare s
  | .refclkStop => Sys2Proof.Machine.execRefclkStop s
  | .refclkReturn boot => Sys2Proof.Machine.execRefclkReturn boot s
  | .refclkLoss => Sys2Proof.Machine.execRefclkLoss s
  | .poresetAssert => Sys2Proof.Machine.execPoresetAssert s
  | .poresetRelease boot => Sys2Proof.Machine.execPoresetRelease boot s
  | .resetAssert => Sys2Proof.Machine.execResetAssert s
  | .resetRelease boot => Sys2Proof.Machine.execResetRelease boot s
  | .safelightReset => Sys2Proof.Machine.execSafelightReset s
  | .railLoss rail => Sys2Proof.Machine.execRailLoss rail s
  | .pmbusAlert words => Sys2Proof.Machine.execPmbusAlert words s
  | .sdsrefLoss quadrant => Sys2Proof.Machine.execSdsrefLoss quadrant s
  | .monitorSample kind n reading slots => Sys2Proof.Machine.execMonitorSample kind n reading slots s
  | .dbgAcc dr => Sys2Proof.Machine.execDbgAcc dr s
  | .haltReq c => Sys2Proof.Machine.execHaltReq c s
  | .resume c => Sys2Proof.Machine.execResume c s
  | .step c => Sys2Proof.Machine.execStep c s
  | .pcHaltReq pc => Sys2Proof.Machine.execPcHaltReq pc s
  | .pcResume pc => Sys2Proof.Machine.execPcResume pc s
  | .pcStep pc => Sys2Proof.Machine.execPcStep pc s
  | .dbgSysGo value => Sys2Proof.Machine.execDbgSysGo value s
  | .counterOverflow c ctr => Sys2Proof.Machine.execCounterOverflow c ctr s
  | .pmuClr c => Sys2Proof.Machine.execPmuClr c s
  | .pmbClr bank who => Sys2Proof.Machine.execPmbClr bank who s
  | .pmbWrap bank k => Sys2Proof.Machine.execPmbWrap bank k s
  | .arm who => Sys2Proof.Machine.execArm who s
  | .freeze who value => Sys2Proof.Machine.execFreeze who value s
  | .railReturn boot => Sys2Proof.Machine.execRailReturn boot s
  | .safelightRailLoss => Sys2Proof.Machine.execSafelightRailLoss s
  | .registerWrite who addr size value => Sys2Proof.Machine.execRegisterWrite who addr size value s
  | .timeStep src step => Sys2Proof.Machine.execTimeStep src step s
  | .echo src bytes => Sys2Proof.Machine.execEcho src bytes s
  | .getInfo src => Sys2Proof.Machine.execGetInfo src s
  | .modeSet src mode => Sys2Proof.Machine.execModeSet src mode s
  | .modeGet src => Sys2Proof.Machine.execModeGet src s
  | .powerPointSet src core point => Sys2Proof.Machine.execPowerPointSet src core point s
  | .pvtRead src kind first count => Sys2Proof.Machine.execPvtRead src kind first count s
  | .spareStatus src kind quad => Sys2Proof.Machine.execSpareStatus src kind quad s
  | .spareEngage src kind quad group unit => Sys2Proof.Machine.execSpareEngage src kind quad group unit s
  | .contactRead src first count => Sys2Proof.Machine.execContactRead src first count s
  | .contactClear src => Sys2Proof.Machine.execContactClear src s
  | .dramConfig src params => Sys2Proof.Machine.execDramConfig src params s
  | .dramDelaysetLoad src params => Sys2Proof.Machine.execDramDelaysetLoad src params s
  | .dramDelaysetSelect src set mask => Sys2Proof.Machine.execDramDelaysetSelect src set mask s
  | .dramMarginScan src params => Sys2Proof.Machine.execDramMarginScan src params s
  | .dramEraseDevice src channel sub rank device => Sys2Proof.Machine.execDramEraseDevice src channel sub rank device s
  | .dramRepairRow src params => Sys2Proof.Machine.execDramRepairRow src params s
  | .dramScrubSet src mask hours => Sys2Proof.Machine.execDramScrubSet src mask hours s
  | .viCreate src params => Sys2Proof.Machine.execViCreate src params s
  | .viDestroy src vi => Sys2Proof.Machine.execViDestroy src vi s
  | .viReset src vi => Sys2Proof.Machine.execViReset src vi s
  | .queueBind src params => Sys2Proof.Machine.execQueueBind src params s
  | .queueReset src queue => Sys2Proof.Machine.execQueueReset src queue s
  | .portConfig src port writes => Sys2Proof.Machine.execPortConfig src port writes s
  | .switchConfig src writes => Sys2Proof.Machine.execSwitchConfig src writes s
  | .dinathConfig src writes => Sys2Proof.Machine.execDinathConfig src writes s
  | .phaseBaseConfig src base writes => Sys2Proof.Machine.execPhaseBaseConfig src base writes s
  | .pairConfig src writes => Sys2Proof.Machine.execPairConfig src writes s
  | .pairStatus src => Sys2Proof.Machine.execPairStatus src s
  | .shutter src instant => Sys2Proof.Machine.execShutter src instant s
  | .lifecycleAdvance src params => Sys2Proof.Machine.execLifecycleAdvance src params s
  | .debugUnlock src => Sys2Proof.Machine.execDebugUnlock src s
  | .lockRegion src area first count => Sys2Proof.Machine.execLockRegion src area first count s
  | .configChecksum src area first count => Sys2Proof.Machine.execConfigChecksum src area first count s
  | .extest levels enables => Sys2Proof.Machine.execExtest levels enables s
  | .samplePreload levels enables => Sys2Proof.Machine.execSamplePreload levels enables s
  | .illegalInstruction c word => Sys2Proof.Machine.execIllegalInstruction c word s
  | .pcIllegalInstruction pc word => Sys2Proof.Machine.execPcIllegalInstruction pc word s

end Sys2Proof.Machine
end

