-- ==== Sys2Proof/Machine/Tick.lean ====
section
/-!
DEFINITION. Sys2Proof/Machine/Tick.lean: what time brings on an empty queue: effects that fall due, and the passing of one phase
clock of 1 ns (R61, R62; assumption 6).
-/
namespace Sys2Proof.Machine

/-- The work of a request follows once its last beat has been granted (R139, R151). -/
def State.workDone (s : State) : Work → State
  | .fill _ | .scrub _ => s
  | .store line _ holds => if holds then s.admitted line else s
  | .mirror seq => s.mirrorWrite seq
  | .point pt who access =>
    let s1 := s.send 0 (.pointAccess pt who access false)
    match who.agent, access with
    | .phaseCore p, .write .. => s1.postGranted p.val pt.val
    | _, _ => s1
  | .record pt value stamp node => s.applyRecord pt.val value stamp node.toNat
  | .assign pt left port stamp => s.assigned pt left port stamp
  | .force pt value => s.forced pt value
  | .fetch e ch => s.send 0 (.descriptorFetched e ch false)
  | .transfer e ch => s.transfer e.val ch.val
  | .completion q => s.send 0 (.completionWrite q)
  | .gate _ | .peerCommand _ | .peerReply _ | .pass => s

/-- A grant: at a memory controller the request keeps its tag until its entry leaves the queue. -/
def State.grantDone (s : State) (a tag : Nat) : State :=
  match s.workOf tag with
  | some w => (if a < 8 then s else s.dropWork tag).workDone w
  | none => s

/-- A request refused with a hint: a transfer is presented again at the estimated GT (R143). -/
def State.hintTaken (s : State) (tag gt : Nat) : State :=
  match s.workOf tag with
  | some (.transfer e ch) =>
    match (s.chan e.val ch.val).desc with
    | some d =>
      let pos := (s.chan e.val ch.val).pos
      (s.dropWork tag).present (max 1 (gt - s.now)) (8 + e.val) ch.val d.stamp (partAt (s.chan e.val ch.val).a pos) (min 4096 (d.length - pos)) (.transfer e ch)
    | none => s.dropWork tag
  | _ => s.dropWork tag

/-- The drive of a PINA: 1 to active, 2 to safe, 3 toggle (R123). -/
def pinaAct (act : BitVec 2) : Option PinAct :=
  match act.toNat with
  | 1 => some .active
  | 2 => some .safe
  | 3 => some .toggle
  | _ => none

/-- A set applied on a channel: the selects that name it are looked at (R327). -/
def State.setApplied (s : State) (mc : Nat) : State :=
  (s.lemam.deferred.filter fun d => d.route.opcode == 0x52 && d.channels.contains mc).foldl (fun s d =>
    s.send 0 (.deferredComplete (BitVec.ofNat 16 d.route.seq) 0x52 d.route.src [])) s

/-- An effect that falls due. -/
def State.fall (s : State) : Act → State
  | .cmd i => { s with pending := s.pending ++ [i] }
  | .ball p d => s.setBall p.val d
  | .seen p level gt since => s.pinSeen p.val level gt since
  | .sample b => s.sampleBase b.val
  | .capture n v rise gt => s.landCapture n.val v rise gt
  | .pina _ p act eid =>
    match pinaAct act with
    | some a => s.pinSubmit p.val a eid.toNat false 0
    | none => s
  | .evsend n target input => s.sendEvent n.val target.val input
  | .engine n a => s.portAccess n.val a
  | .shed n => s.shedOver n.val
  | .granted a tag => s.grantDone a.val tag
  | .hinted _ tag gt => s.hintTaken tag gt.toNat
  | .vector c v n => s.pend c.val (viewNo v) n.toNat
  | .dsApplied mc => s.setApplied mc.val
  | .pcHalt n => s.pcHaltDue n.val
  | .boot k => s.bootAct k

/-- The bases that count. -/
def State.running (s : State) : List Nat := (List.range 16).filter s.baseOn

/-- GT and the bases advance by one phase clock; compares that cross are noted, and the instants that GT reaches come
(R18, R61, R62). -/
def State.advance (s : State) : State :=
  let s0 := (List.range 16).foldl State.noteLine { s with crossed := [] }
  let old := s0.running.map fun b => (b, s0.baseValue b)
  (s0.gtTick.clockPassed s.now old).instants

/-- One phase clock passes. Without the reference or a locked PLL nothing counts (R502). -/
def State.tick (s : State) : State :=
  if s.modes.refclk ∧ s.modes.pll then
    let s1 := s.advance
    let s2 := { s1 with clk := s1.clk + 1 }
    s2.ticking.foldl (fun s n => s.send 0 (.ctrTick (Fin.ofNat 64 n))) s2
  else { s with clk := s.clk + 1 }

/-- An effect is due: while the reference is stopped, only what the always-on domain performs. -/
def State.isDue (s : State) (e : Nat × Act) : Bool := decide (e.1 ≤ s.clk) && (s.modes.refclk || alwaysOn e.2)

/-- A step on an empty queue. -/
def State.idle (s : State) : State :=
  let due := s.agenda.filter s.isDue
  if due.isEmpty then s.tick
  else due.foldl (fun s e => s.fall e.2) { s with agenda := s.agenda.filter fun e => !s.isDue e }

end Sys2Proof.Machine
end

