-- ==== Sys2Proof/Machine/Step.lean ====
section
/-!
DEFINITION. Sys2Proof/Machine/Step.lean: one step of the device: the command at the front of the queue, or, on an empty queue,
what time brings.
-/
namespace Sys2Proof.Machine

/-- One step. The command at the front of the queue runs with the rest of the queue; on an empty queue the effects that are due
become waiting commands, and when none is due one phase clock passes (assumption 6). -/
def step (s : State) : Host.Outcome State Fault Refusal :=
  match s.pending with
  | c :: rest => exec c { s with pending := rest }
  | [] => .next s.idle

/-- No row of the table gives bits, so no word spells a command (assumption 1). -/
def State.withFetchWord (s : State) (_nbits _w : Nat) : State := s

end Sys2Proof.Machine
end

