-- ==== Sys2Proof/Safety.lean ====
section
/-!
DEFINITION. Sys2Proof/Safety.lean: the terms in which claims are made: what a command leaves of the registers, when a register may be
written, and the forms that every state keeps.
-/
namespace Sys2Proof.Machine

/-- Every register but those listed reads as before. -/
def State.regsKept (s t : State) (rs : List Nat) : Prop := ∀ a, a ∉ rs → t.rd a = s.rd a

/-- Every bit of a register but those from `lo` to `hi` reads as before. -/
def State.bitsKept (s t : State) (a hi lo : Nat) : Prop := ∀ i, i < lo ∨ hi < i → t.rb a i = s.rb a i

/-- Memory is in its one canonical form: addresses strictly rising, no byte listed that reads as an unlisted one does. -/
def State.memOk (s : State) : Prop := Mem.wf s.mem = true

/-- The registers are in their one canonical form: none is listed at the value of its Reset column (R14). -/
def State.regsOk (s : State) : Prop := tabWf regReset s.regs = true

/-- Effects that follow later are listed in the order in which they fall due. -/
def State.agendaOk (s : State) : Prop := s.agenda.Pairwise fun a b => a.1 ≤ b.1

/-- Phase core n can execute its next instruction, and nothing else is asked of it first: it is RUNNING and not busy, no stop, halt,
preemption or change of timing mode is pending, its PC can be fetched from, and no comparator is enabled. -/
def State.pcPlain (s : State) (n : Nat) : Bool :=
  let c := s.pcore n
  s.pcReady n && !c.stopping && c.halting.isNone && !c.stepping && c.flatNext.isNone && !s.preemptAsked n &&
    pcFetchable c.pc && !s.poisoned (localAddr n c.pc.toNat) &&
    !s.rb (Reg.DBG_PCMP_CFG n 0) 0 && !s.rb (Reg.DBG_PCMP_CFG n 1) 0

/-- The PC of phase core n is not the last word of a loop that counts (R116). -/
def State.pcNotAtEnd (s : State) (n : Nat) : Bool := (s.pcore n).lcnt == 0 || (s.pcore n).pc != (s.pcore n).lend

/-- What a phase core holds once an instruction that gives it `c` has run and goes on behind itself: PC and LCNT follow R116, and the
core takes no other instruction until `count` clocks have passed. -/
def State.pcAfter (s : State) (n count : Nat) (c : PCore) : PCore :=
  { c with pc := ((s.pcore n).follow none).1, lcnt := ((s.pcore n).follow none).2, busy := s.clk + count, long := none, wait := none }

/-- A command completes and changes nothing but phase core n, which then is `c`. -/
def State.pcGives (s : State) (n : Nat) (i : Instr) (c : PCore) : Prop :=
  ∃ t, exec i s = .next t ∧ t.pcore n = c ∧ (∀ k, k ≠ n → t.pcore k = s.pcore k) ∧ t = { s with pcores := t.pcores }

/-- A command completes, writes `v` to rd of phase core n, goes on behind itself after `count` clocks and changes nothing else. -/
def State.pcWrites (s : State) (n : Nat) (i : Instr) (rd : PReg) (count : Nat) (v : Word32) : Prop :=
  s.pcGives n i (s.pcAfter n count { s.pcore n with p := tabSet 0 (s.pcore n).p rd.toNat v })

/-- A command completes by a fault of phase core n: FAULTED with the cause and the address, the PC and every register p0 to p15 kept,
and its interrupt raised if it is enabled (R128). -/
def State.pcFaults (s : State) (n : Nat) (i : Instr) (cause addr : Nat) : Prop :=
  ∃ t, exec i s = .next t ∧ t.pcState n = 3 ∧ t.rd (Reg.PCC_FAULT n) = cause ∧ t.rd (Reg.PCC_FAULT_ADDR n) = addr ∧
    (t.pcore n).pc = (s.pcore n).pc ∧ (t.pcore n).p = (s.pcore n).p ∧ (t.pcore n).acc0 = (s.pcore n).acc0 ∧
    (t.pcore n).acc1 = (s.pcore n).acc1 ∧ t.mem = s.mem ∧
    (s.rb (Reg.PCC_CTRL n) 3 = true → t.rb (Reg.IRT_SRC_CFG (pcSource n)) 2 = true) ∧
    s.regsKept t [Reg.PCC_STATUS n, Reg.PCC_FAULT n, Reg.PCC_FAULT_ADDR n, Reg.IRT_SRC_CFG (pcSource n)]

/-- The registers of the counter bank of a block (R554). -/
def bankRegs (block : Nat) : List Nat := [block + 0x800, block + 0x820, block + 0x828, block + 0x830, block + 0x838]

/-- The home of a line can order a request for it at once: nothing is queued, no query waits, the line is not busy and a transaction is
free. -/
def State.homeQuiet (s : State) (line : Nat) : Bool :=
  let x := s.home (s.homeOf line)
  x.queue.isEmpty && x.query.isNone && !x.busy line && decide (x.txns.length < 128)

/-- A home may perform a request: a target lies there, the enclave checks permit it, and its directory entry is good (R289, R295). -/
def State.homeMay (s : State) (i : Instr) (q : CohReq) : Bool :=
  let line := lineOf q.line.toNat
  s.inHomed line && !(inRom line && reqWrites i) && (!s.inDram line || s.ertPermits q.eid.toNat line (reqWrites i)) && q.dirErr == .good

/-- A home's directory, and its LLC, as another home has them: only what was used when may differ (R283, R288). -/
def Home.sameDir (x y : Home) : Prop := ∀ a, (x.entry a).map (fun d => { d with used := 0 }) = (y.entry a).map (fun d => { d with used := 0 })
def Home.sameLlc (x y : Home) : Prop := ∀ a, (x.cached a).map (fun d => { d with used := 0 }) = (y.cached a).map (fun d => { d with used := 0 })

/-- A core as another, but for the marks that its home has ordered its requests (R270). -/
def Core.sameBut (x y : Core) : Prop :=
  (∀ a, (x.line a).map (fun l => { l with ordered := false }) = (y.line a).map (fun l => { l with ordered := false })) ∧
  x.reserved.map (fun r => { r with companion := false }) = y.reserved.map (fun r => { r with companion := false }) ∧
  x = { y with lines := x.lines, reserved := x.reserved }

/-- The LLC set of a line has a way for it. -/
def State.llcRoom (s : State) (line : Nat) : Bool :=
  decide (((s.home (s.homeOf line)).llc.filter fun e =>
    decide (e.1 ≠ line / 64) && decide (s.setOf (64 * e.1) = s.setOf line)).length < 16)

/-- A message of the device's own that arrives after `ns`. -/
def State.sends (t s : State) (ns : Nat) (i : Instr) : Prop := (s.clk + ns, Act.cmd i) ∈ t.agenda

/-! ### Resets -/

/-- A cold reset has been taken (R505): every unit is as after reset, and what the safelight and always-on domains keep is kept. -/
def State.coldFrom (t s : State) : Prop :=
  t.mem = [] ∧ t.poison = [] ∧ t.points = [] ∧ t.ert = [] ∧ t.cores = [] ∧ t.pcores = [] ∧ t.queues = [] ∧ t.qes = [] ∧ t.net = {} ∧
  t.pair = {} ∧ t.homes = [] ∧ t.mcs = [] ∧ t.arbs = [] ∧ t.bases = [] ∧ t.locks = [] ∧ t.lemam = {} ∧ t.spare = {} ∧
  t.sheet.ring = [] ∧ (∀ p, (t.pin p).ball = .released 1) ∧ t.modes.agreed = none ∧ t.modes.waking = none ∧
  t.modes.lostCores = [] ∧ t.modes.lostPcs = [] ∧ t.modes.lostPorts = [] ∧ t.modes.dramReady = false ∧
  t.gt.now = s.gt.now ∧ t.gt.held = s.gt.now ∧ t.gt.rtc = s.gt.rtc ∧ t.gt.backup = s.gt.backup ∧ t.gt.backupRtc = s.gt.backupRtc ∧
  t.gt.backupValid = s.gt.backupValid ∧ t.rb Reg.GT_STATUS 1 = s.rb Reg.GT_STATUS 1 ∧ t.modes.margins = s.modes.margins ∧
  t.modes.safelightUp = s.modes.safelightUp ∧ t.dbg = s.dbg ∧ t.enc = { s.enc with walk := [], purgers := [], deriving_ := [] } ∧
  t.pending = s.pending ∧ t.free = s.free ∧ t.clk = s.clk ∧
  (∀ a, 0x400000000000 ≤ a → t.rd a = s.rd a) ∧
  (∀ a, a < 0x400000000000 → a ∉ [Reg.PVT_MODE, Reg.PVT_MODE_GT, Reg.PVT_RESET_CAUSE, Reg.GT_STATUS, Reg.GT_RATE_SW] → t.rd a = (regReset a).toNat)

/-- A mode has been entered from a mode with a cause (R495, R504, R521): PVT_MODE and PVT_MODE_GT show it, and SAFE_N and PAIR_OK follow it. -/
def State.entered (t : State) (gt : Word64) (m prev cause : Nat) : Prop :=
  t.mode = m ∧ t.rf Reg.PVT_MODE 6 4 = prev ∧ t.rf Reg.PVT_MODE 15 8 = cause ∧ t.rd Reg.PVT_MODE_GT = gt.toNat ∧
  t.modes.safeN = decide (m = modeOff ∨ m = modePreflash ∨ m = modeSafeHold ∨ m = modeService) ∧ t.modes.pairOk = decide (m = modePaired)

/-- A cold start has begun with what the boot devices give (R508): the PLLs lock 60 µs after. -/
def State.startsCold (t s : State) (b : BootInput) : Prop :=
  t.modes.boot = some b ∧ t.modes.found = some b ∧ t.modes.warm = false ∧ t.modes.willFlash = true ∧ t.sends s 60000 .pllLock

/-! ### Main cores -/

/-- The state after the fetch of the instruction at the PC of core c, when nothing stands in the way of its effect: the core can execute,
no latent change and no step of debug is pending, no comparator is enabled, and the fetch finds the instruction. -/
def State.coreFetch (s : State) (c : Nat) : Option State :=
  let x := s.core c
  if x.latent.isEmpty && s.ready c && !x.stepping then
    match (if x.buffered x.pc.toNat then (.ok, s) else s.fetchAt c x.pl.toNat x.pc.toNat) with
    | (.ok, s1) => if (List.range 8).all fun i => !s1.rb (Reg.DBG_CMP_CFG c i) 0 then some s1 else none
    | _ => none
  else none

/-- The system registers that change as instructions retire: loop counts (R208), counters (R551) and pending vectors (R178). -/
def srMoves (n : Nat) : Bool :=
  n == Sr.LOOPCNT 0 || n == Sr.LOOPCNT 1 || (decide (0x200 ≤ n) && decide (n ≤ 0x22A)) ||
    [1, 2, 3].any fun x => decide (Sr.PEND x 0 ≤ n) && decide (n ≤ Sr.PEND x 3)

/-- What a state holds once an instruction of core c has retired whose own effect leaves the core as `x`: execution goes on at `target`,
or behind the instruction under the loop-end test of R208; nothing waits for data any more; beside that only loop counts, what is captured of
loops, counters and pending vectors of this core have moved. -/
def State.coreRan (s t : State) (c : Nat) (x : Core) (target : Option Word64) : Prop :=
  (t.core c).pc = (match target with | some a => a | none => BitVec.ofNat 64 (x.loopEnd x.pc.toNat (x.pc.toNat + 4)).2) ∧
  t.core c = { x.settled with pc := (t.core c).pc, sys := (t.core c).sys, loopBuffer := (t.core c).loopBuffer
                              wholePass := (t.core c).wholePass, cycSince := (t.core c).cycSince, skidding := (t.core c).skidding } ∧
  (∀ n, srMoves n = false → (t.core c).sr n = x.sr n) ∧ (∀ k, k ≠ c → t.core k = s.core k) ∧
  t = { s with cores := t.cores, agenda := t.agenda }

/-- An instruction of core c completes, and its own effect turns the core, as its fetch left it, into what `f` gives. -/
def State.coreRuns (s : State) (c : CoreId) (i : Instr) (f : Core → Core) : Prop :=
  ∀ s1, s.coreFetch c.val = some s1 → ∃ t, exec i s = .next t ∧ s1.coreRan t c.val (f (s1.core c.val)) none

/-- An instruction of core c completes and writes to rd the value that the core's registers give; g0 discards it (R195). -/
def State.gWrites (s : State) (c : CoreId) (i : Instr) (rd : GReg) (v : Core → Word64) : Prop :=
  s.coreRuns c i fun x => x.setG rd (v x)

/-- An instruction of core c completes and writes to f rd the value that the core's registers give. -/
def State.fWrites (s : State) (c : CoreId) (i : Instr) (rd : FReg) (v : Core → Word64) : Prop :=
  s.coreRuns c i fun x => x.setF rd (v x)

/-- Core c at level t reaches an address of homed memory without translation, and does not hold poison there. -/
def State.plainAt (s : State) (c t a : Nat) : Bool :=
  let x := s.core c
  (decide (2 ≤ t) || (!(x.ef Sr.TCR1).testBit 0 && !(x.ef Sr.TCR2).testBit 0 &&
      (x.tlbFind true a).isNone && (x.tlbFind false a).isNone)) && decide (a < 2 ^ 46) &&
    (match s.window a with | some w => w.homed && w.admits a t | none => false) &&
    (match x.line a with | some l => !l.st.stable || !l.poison | none => true)

/-- What core c holds once an exception or interrupt has been entered at level t (R172): `y` follows `x`. -/
def Core.entered (x y : Core) (t cause addr synd elr target : Nat) : Prop :=
  y.pl = BitVec.ofNat 2 t ∧ y.pc = BitVec.ofNat 64 target ∧ y.sr (Sr.ELR t) = elr % 2 ^ 64 ∧
  y.sr (Sr.ESTAT t) = (x.pl.toNat + x.eid * 2 ^ 8) % 2 ^ 64 ∧ y.sr (Sr.ECAUSE t) = cause ∧ y.sr (Sr.EADDR t) = addr % 2 ^ 64 ∧
  y.sr (Sr.ESYND t) = synd ∧ (∀ k < 6, y.sr (Sr.LSAVE t k) = x.sr (0x010 + k)) ∧ y.sr (Sr.LOOPCNT 0) = 0 ∧ y.sr (Sr.LOOPCNT 1) = 0 ∧
  y.reserved = none ∧ y.loopBuffer = none ∧ y.run = .running ∧ y.g = x.g ∧ y.f = x.f ∧ y.eff = x.eff ∧ y.latent = [] ∧
  y.stores = x.stores

/-- An instruction of core c raises an exception of a code, with EADDR and ESYND, whose ELR lies `past` bytes behind the instruction, and
the entry of R170 to R172 follows: at PL3 while EID is not 0 (R171), at VBAR or, from another level, 0x200 bytes behind it. -/
def State.coreTraps (s : State) (c : CoreId) (i : Instr) (code addr synd past : Nat) : Prop :=
  ∀ s1, s.coreFetch c.val = some s1 →
    let x := s1.core c.val
    let pl := x.pl.toNat
    let t := if x.eid ≠ 0 then 3 else entryLevel code pl
    let target := x.sr (Sr.VBAR t) + (if pl = t then 0 else 0x200)
    target % 4 = 0 → s1.plainAt c.val t target = true →
      ∃ u, exec i s = .next u ∧ x.entered (u.core c.val) t (causeWord code 0 false false pl 0) addr synd (x.pc.toNat + past) target ∧
        (∀ k, k ≠ c.val → u.core k = s.core k) ∧ u = { s with cores := u.cores, agenda := u.agenda }

end Sys2Proof.Machine
end

