-- ==== Sys2Proof/Certificates/Slice0/Obligations.lean ====
section
/-!
DEFINITION. Sys2Proof/Certificates/Slice0/Obligations.lean: what is claimed of the model, statement by statement. A statement about a
value or a behaviour that the model chose says so and names the entry of the assumption log.
-/
open Sys2Proof Sys2Proof.Machine

/-- For every command c and state s, a step of the state that is s with c put at the front of its queue is exec of c on s. The queue
of waiting commands is the model's own field (assumption 6). With no command waiting, no effect due, and REFCLK stopped or the
PLLs not locked, a step answers the same state one phase clock later; with effects due, none of them is left in the agenda at
that clock, and time stands. That time passes on an empty queue is the model's choice (assumption 6). -/
def Obligations.Step_runs_the_front_command : Prop :=
  (∀ (c : Instr) (s : State), step { s with pending := c :: s.pending } = exec c s) ∧
  (∀ s : State, s.pending = [] →
    ((s.agenda.filter s.isDue = [] ∧ (s.modes.refclk = false ∨ s.modes.pll = false)) → step s = .next { s with clk := s.clk + 1 }) ∧
    (∀ n i, s.agenda = [(n, .cmd i)] → n ≤ s.clk → s.modes.refclk = true →
      step s = .next { s with agenda := [], pending := [i] }))

/-- For every state: when the adjustment is worked out, GT_RATE_EFF shows the adjustment asked for clamped to ±2,147,483 units of
2^-32 ns, so that each clock adds between 2^32 - 2,147,483 and 2^32 + 2,147,483 units; GT_STATUS.RATE_CLAMPED is set exactly
when more was asked or it stood before; and no other register and no other part of the state changes. -/
def Obligations.Rate_is_clamped : Prop :=
  ∀ s : State,
    toSigned 32 (s.applyRate.rd Reg.GT_RATE_EFF) = max (-2147483) (min 2147483 s.rateAsked) ∧
    (s.applyRate.rb Reg.GT_STATUS 5 = true ↔
      (2147483 < s.rateAsked ∨ s.rateAsked < -2147483 ∨ s.rb Reg.GT_STATUS 5 = true)) ∧
    s.regsKept s.applyRate [Reg.GT_RATE_EFF, Reg.GT_STATUS] ∧ s.bitsKept s.applyRate Reg.GT_STATUS 5 5 ∧
    s.applyRate = { s with regs := s.applyRate.regs } ∧
    ((s.gtTick.gt.now.toNat : Int) * 2 ^ 32 + s.gtTick.gt.frac.toNat) % 2 ^ 96 =
      ((s.gt.now.toNat : Int) * 2 ^ 32 + s.gt.frac.toNat + 2 ^ 32 + max (-2147483) (min 2147483 s.rateAsked)) % 2 ^ 96

/-- GT_CTRL with a new source drops the outstanding correction (SLEWING clear, GT_SLEW_REMAIN 0, SYNC_LOCKED clear), leaves GT and
the flags SRC_LOST and RATE_CLAMPED as they stand unless the new rate is clamped, and applies GT_RATE_SW clamped when the source
becomes FREE; with the same source the register is written and nothing else. SRC_LOST with a servo source whose HOLDOFF has
passed sets SRC_LOST, clears SYNC_LOCKED and drops the correction with the rate term held; SLEW_COMPLETE with nothing left to
slew clears SLEWING; RTC_TICK counts, and refreshes the backup while GT counts (assumption 11); VDD_AO_LOSS restarts GT at 0
with BACKUP_LOST and TIME_ESTIMATED and an invalid backup, in mode OFF. When a SYNC comes from the selected source, GT_OFFSET
holds the offset; the first measurement after a start records nothing else of it, and from the second on GT_SLEW_REMAIN holds it
and SLEWING shows whether it is not zero; the rate term is kept at the first measurement, takes the drift in full at the second
and an eighth of it from then on, SYNC_LOCKED clears above 1 µs, GT itself is not stepped, and only the servo and GT_OFFSET,
GT_SLEW_REMAIN, GT_STATUS and GT_RATE_EFF change. A message of any other source changes nothing. The servo's arithmetic in units
of 2^-32 ns is the reading of assumption 10. -/
def Obligations.Global_time_commands : Prop :=
  (∀ (s : State) (who : Requester) (v : Word32), s.unlockedAt Reg.GT_CTRL = true →
    let s1 := s.storeReg Reg.GT_CTRL v.toNat
    (s1.gtSource = s.gtSource → exec (.gtCtrl who v) s = .next s1) ∧
    (s1.gtSource ≠ s.gtSource → ∃ t, exec (.gtCtrl who v) s = .next t ∧
      t.rd Reg.GT_CTRL = s1.rd Reg.GT_CTRL ∧ t.rd Reg.GT_SLEW_REMAIN = 0 ∧ t.rb Reg.GT_STATUS 3 = false ∧
      t.rb Reg.GT_STATUS 2 = false ∧ t.rb Reg.GT_STATUS 4 = s.rb Reg.GT_STATUS 4 ∧ t.gt.slew = 0 ∧ t.gt.now = s.gt.now ∧
      (s1.gtSource = none → toSigned 32 (t.rd Reg.GT_RATE_EFF) = clampRate (toSigned 32 (s.rd Reg.GT_RATE_SW))) ∧
      t = { s with gt := t.gt, regs := t.regs } ∧
      s.regsKept t [Reg.GT_CTRL, Reg.GT_SLEW_REMAIN, Reg.GT_STATUS, Reg.GT_RATE_EFF])) ∧
  (∀ s : State, s.gtSource.isSome = true → s.holdoffMet = true → ∃ t, exec .srcLost s = .next t ∧
    t.rb Reg.GT_STATUS 4 = true ∧ t.rb Reg.GT_STATUS 2 = false ∧ t.rb Reg.GT_STATUS 3 = false ∧
    t.rd Reg.GT_SLEW_REMAIN = 0 ∧ t.gt.slew = 0 ∧ t.gt.rho = s.gt.rho ∧ t.gt.now = s.gt.now ∧
    toSigned 32 (t.rd Reg.GT_RATE_EFF) = clampRate s.gt.rho ∧
    t = { s with gt := t.gt, regs := t.regs } ∧ s.regsKept t [Reg.GT_SLEW_REMAIN, Reg.GT_STATUS, Reg.GT_RATE_EFF]) ∧
  (∀ s : State, s.gt.slew = 0 → s.rb Reg.GT_STATUS 3 = true → ∃ t, exec .slewComplete s = .next t ∧
    t.rb Reg.GT_STATUS 3 = false ∧ t.rd Reg.GT_SLEW_REMAIN = 0 ∧ t.gt.now = s.gt.now ∧ t.gt.rho = s.gt.rho ∧
    t = { s with gt := t.gt, regs := t.regs } ∧ s.regsKept t [Reg.GT_SLEW_REMAIN, Reg.GT_STATUS, Reg.GT_RATE_EFF]) ∧
  (∀ s : State, exec .rtcTick s = .next { s with gt :=
    if s.modes.refclk = true ∧ s.modes.pll = true then
      { s.gt with rtc := s.gt.rtc + 1, backup := s.gt.now, backupRtc := s.gt.rtc + 1, backupValid := true }
    else { s.gt with rtc := s.gt.rtc + 1 } }) ∧
  (∀ s : State, ∃ t, exec .vddAoLoss s = .next t ∧ t.gt.now = 0 ∧ t.gt.backupValid = false ∧
    t.rb Reg.GT_STATUS 0 = true ∧ t.rb Reg.GT_STATUS 1 = true ∧ t.mode = modeOff ∧ t.pending = s.pending ∧ t.mem = []) ∧
  (∀ (s : State) (src : SyncSource) (offset : Word64) (interval : Word32),
    (s.gtSource ≠ some src → exec (.sync src offset interval) s = .next s) ∧
    (s.gtSource = some src → ∃ t, exec (.sync src offset interval) s = .next t ∧
      t.rd Reg.GT_OFFSET = offset.toNat ∧
      (s.gt.measured ≠ 0 → t.rd Reg.GT_SLEW_REMAIN = offset.toNat ∧ t.rb Reg.GT_STATUS 3 = decide (offset ≠ 0) ∧
        t.gt.slew = offset.toInt * 2 ^ 32) ∧
      (s.gt.measured = 0 → t.rd Reg.GT_SLEW_REMAIN = s.rd Reg.GT_SLEW_REMAIN ∧ t.rb Reg.GT_STATUS 3 = s.rb Reg.GT_STATUS 3 ∧
        t.gt.slew = s.gt.slew) ∧
      (1000 < offset.toInt.natAbs → t.rb Reg.GT_STATUS 2 = false) ∧
      t.gt.rho = (match s.gt.measured with
        | 0 => s.gt.rho
        | 1 => s.gt.rho + drift offset.toInt s.gt.lastOffset s.gt.slewed ((s.now : Int) - s.gt.lastMeasure.toNat)
        | _ => s.gt.rho + (drift offset.toInt s.gt.lastOffset s.gt.slewed ((s.now : Int) - s.gt.lastMeasure.toNat)).tdiv 8) ∧
      t.gt.lastMessage = s.gt.now ∧ t.gt.now = s.gt.now ∧
      t = { s with gt := t.gt, regs := t.regs } ∧
      s.regsKept t [Reg.GT_OFFSET, Reg.GT_SLEW_REMAIN, Reg.GT_STATUS, Reg.GT_RATE_EFF]))

/-- For every base and state. A write of PHB_PRESET while EN is 0 makes the base's value the low 48 bits of the value written and
changes no register; while EN is 1 it changes nothing. An unlocked write of PHB_CTRL that clears EN keeps the value, makes the
rate zero, sets STOPPED and clears STALE and HELD; one that sets EN keeps the value and makes SRC the source in effect; any
other write, in particular one of SRC while EN is 1, only writes the register. Nothing but that base, its PHB_CTRL, PHB_STATUS,
PHB_RATE and PHB_RATE_GT and the agenda changes. -/
def Obligations.Base_control_and_preset : Prop :=
  (∀ (s : State) (b : BaseId) (v : Word64),
    (s.baseOn b.val = true → exec (.phbPreset b v) s = .next s) ∧
    (s.baseOn b.val = false → ∃ t, exec (.phbPreset b v) s = .next t ∧ t.baseValue b.val = v.toNat % 2 ^ 48 ∧
      (∀ k, k ≠ b.val → t.base k = s.base k) ∧ t = { s with bases := t.bases })) ∧
  (∀ (s : State) (b : BaseId) (who : Requester) (v : Word32), s.unlockedAt (Reg.PHB_CTRL b.val) = true →
    let s1 := s.storeReg (Reg.PHB_CTRL b.val) (if b.val < 8 then v.toNat else putFld v.toNat 6 6 0)
    ∃ t, exec (.phbCtrl b who v) s = .next t ∧
      t.rd (Reg.PHB_CTRL b.val) = s1.rd (Reg.PHB_CTRL b.val) ∧
      t.baseValue b.val = s.baseValue b.val ∧
      (s.baseOn b.val = true → s1.baseOn b.val = false →
        t.rd (Reg.PHB_RATE b.val) = 0 ∧ t.rb (Reg.PHB_STATUS b.val) 1 = true ∧
        t.rb (Reg.PHB_STATUS b.val) 2 = false ∧ t.rb (Reg.PHB_STATUS b.val) 3 = false) ∧
      (s.baseOn b.val = false → s1.baseOn b.val = true → t.baseSrc b.val = s1.rf (Reg.PHB_CTRL b.val) 2 1) ∧
      (s.baseOn b.val = s1.baseOn b.val → t = s1) ∧
      (∀ k, k ≠ b.val → t.base k = s.base k) ∧
      t = { s with regs := t.regs, bases := t.bases, agenda := t.agenda } ∧
      s.regsKept t [Reg.PHB_CTRL b.val, Reg.PHB_STATUS b.val, Reg.PHB_RATE b.val, Reg.PHB_RATE_GT b.val])

/-- For a running MAINS base in every state. The first crossing, one of the same polarity as the last, or one from a channel with
CLK_LOSS set, is only recorded. One of the other polarity whose half-cycle lies outside 8 to 80 Hz clears LOCKED, sets
FREQ_RANGE and marks the input lost; one inside updates the rate, which is not negative and lies within 25 % of the measured
frequency, without moving the value; after a loss of the input the rate is the measured one. When 2.5 half-cycles have passed
since the last good crossing LOCKED clears, and the base stops at once if holdover has ended, else it runs on and
MAINS_HOLDOVER_END follows at that instant; that event stops it with rate zero and STOPPED, its value kept. Only that base, its
status, rate and rate-time registers and the agenda change. -/
def Obligations.Mains_base : Prop :=
  (∀ (s : State) (b : BaseId) (rising : Bool) (instant : Word64), s.runsOn b.val srcMains = true →
    ∃ t, exec (.mainsCrossing b rising instant) s = .next t ∧
      (t.base b.val).lastCross = some (rising, instant) ∧
      ((s.mainsShut b.val = true ∨ (s.base b.val).lastCross = none ∨ (∃ g, (s.base b.val).lastCross = some (rising, g))) →
        t.regs = s.regs ∧ t.agenda = s.agenda ∧ (t.base b.val).inputLost = (s.base b.val).inputLost) ∧
      (∀ g, s.mainsShut b.val = false → (s.base b.val).lastCross = some (!rising, g) →
        (halfGood ((instant.toNat : Int) - g.toNat) = false →
          t.rb (Reg.PHB_STATUS b.val) 0 = false ∧ t.rb (Reg.PHB_STATUS b.val) 6 = true ∧ (t.base b.val).inputLost = true) ∧
        (halfGood ((instant.toNat : Int) - g.toNat) = true →
          let half := ((instant.toNat : Int) - g.toNat).toNat
          (t.base b.val).inputLost = false ∧ (t.base b.val).lastGood = some instant ∧ (t.base b.val).half = half ∧
          ((s.base b.val).inputLost = true → (t.base b.val).rate = ((2 ^ 63 / half : Nat) : Int)) ∧
          0 ≤ (t.base b.val).rate ∧ ((2 ^ 63 / half : Nat) : Int) * 3 / 4 ≤ (t.base b.val).rate ∧
          (t.base b.val).rate ≤ ((2 ^ 63 / half : Nat) : Int) * 5 / 4 ∧
          t.rd (Reg.PHB_RATE b.val) = wrapTo 64 (t.base b.val).rate ∧ t.rd (Reg.PHB_RATE_GT b.val) = instant.toNat ∧
          t.baseValue b.val = s.baseValue b.val)) ∧
      t = { s with regs := t.regs, bases := t.bases, agenda := t.agenda } ∧ (∀ k, k ≠ b.val → t.base k = s.base k) ∧
      s.regsKept t [Reg.PHB_STATUS b.val, Reg.PHB_RATE b.val, Reg.PHB_RATE_GT b.val]) ∧
  (∀ (s : State) (b : BaseId) (g : Word64), s.runsOn b.val srcMains = true → (s.base b.val).lastGood = some g →
    (s.base b.val).inputLost = false → s.now * 2 ≥ g.toNat * 2 + (s.base b.val).half * 5 →
    ∃ t, exec (.mainsInputLost b) s = .next t ∧ (t.base b.val).inputLost = true ∧ t.rb (Reg.PHB_STATUS b.val) 0 = false ∧
      t.baseValue b.val = s.baseValue b.val ∧
      (s.holdoverEnd b.val ≤ s.now → t.rd (Reg.PHB_RATE b.val) = 0 ∧ t.rb (Reg.PHB_STATUS b.val) 1 = true) ∧
      (s.now < s.holdoverEnd b.val → t.rd (Reg.PHB_RATE b.val) = s.rd (Reg.PHB_RATE b.val) ∧
        (s.clk + (s.holdoverEnd b.val - s.now), Act.cmd (.mainsHoldoverEnd b)) ∈ t.agenda) ∧
      t = { s with regs := t.regs, bases := t.bases, agenda := t.agenda } ∧
      s.regsKept t [Reg.PHB_STATUS b.val, Reg.PHB_RATE b.val, Reg.PHB_RATE_GT b.val]) ∧
  (∀ (s : State) (b : BaseId), s.runsOn b.val srcMains = true → (s.base b.val).inputLost = true → s.holdoverEnd b.val ≤ s.now →
    ∃ t, exec (.mainsHoldoverEnd b) s = .next t ∧ t.rd (Reg.PHB_RATE b.val) = 0 ∧ t.rb (Reg.PHB_STATUS b.val) 1 = true ∧
      (t.base b.val).rate = 0 ∧ t.baseValue b.val = s.baseValue b.val ∧
      t = { s with regs := t.regs, bases := t.bases, agenda := t.agenda } ∧
      s.regsKept t [Reg.PHB_STATUS b.val, Reg.PHB_RATE b.val, Reg.PHB_RATE_GT b.val])

/-- For a running ENCODER base with REFCLK running. A sample that changes both levels in a two-signal mode sets EDGE_ERR and moves
nothing; one that the mode counts, not closer to the last edge than R578 allows, adds or subtracts INC (1 when 0) modulo 2^48,
inverted by PHB_CTRL bit 5, and shows the sense in DIR; one that the mode does not count moves nothing. The levels seen are
recorded at the two input pins. The end of a PHB_RATE_WIN window sets the rate to the signed count change over the window,
STOPPED when it is zero, keeps the value, starts the next window with the length that PHB_RATE_WIN then has (that a window keeps
the length it began with is the model's reading, assumption 119), and changes only that base, its status, rate and rate-time
registers and the agenda. -/
def Obligations.Encoder_base : Prop :=
  (∀ (s : State) (b : BaseId) (a' b' : Bool), s.runsOn b.val srcEncoder = true → s.modes.refclk = true →
    let x := s.base b.val
    let mode := s.rf (Reg.PHB_CTRL b.val) 4 3
    let inc : Int := (max 1 (s.rf (Reg.PHB_CTRL b.val) 31 16) : Nat)
    ((x.levelA ≠ a' ∧ x.levelB ≠ b' ∧ mode ≠ 3) → ∃ t, exec (.encoderEdge b a' b') s = .next t ∧
      t.rb (Reg.PHB_STATUS b.val) 7 = true ∧ t.baseValue b.val = s.baseValue b.val ∧
      t = { s with regs := t.regs, bases := t.bases, pins := t.pins } ∧ s.regsKept t [Reg.PHB_STATUS b.val]) ∧
    (¬ (x.levelA ≠ a' ∧ x.levelB ≠ b' ∧ mode ≠ 3) →
      (encoderStep mode x.levelA x.levelB a' b' = none → ∃ t, exec (.encoderEdge b a' b') s = .next t ∧
        t.baseValue b.val = s.baseValue b.val ∧ t = { s with bases := t.bases, pins := t.pins }) ∧
      (∀ up, encoderStep mode x.levelA x.levelB a' b' = some up → (∀ e, x.lastEdge = some e → e + 10 ≤ s.clk) →
        let fwd := if s.rb (Reg.PHB_CTRL b.val) 5 then !up else up
        ∃ t, exec (.encoderEdge b a' b') s = .next t ∧
          t.baseValue b.val = wrapTo 48 ((s.baseValue b.val : Int) + if fwd then inc else -inc) ∧
          t.rb (Reg.PHB_STATUS b.val) 8 = !fwd ∧ (t.base b.val).levelA = a' ∧ (t.base b.val).levelB = b' ∧
          t = { s with regs := t.regs, bases := t.bases, pins := t.pins, crossed := t.crossed, agenda := t.agenda } ∧
          s.regsKept t [Reg.PHB_STATUS b.val]))) ∧
  (∀ (s : State) (b : BaseId), s.runsOn b.val srcEncoder = true → s.modes.refclk = true →
    s.now ≥ (s.base b.val).winStart.toNat + (s.base b.val).winLen →
    let rate := ((s.base b.val).winChange * 2 ^ 32).tdiv ((s.base b.val).winLen : Int)
    ∃ t, exec (.rateWindow b) s = .next t ∧ (t.base b.val).rate = rate ∧ t.rd (Reg.PHB_RATE b.val) = wrapTo 64 rate ∧
      t.rb (Reg.PHB_STATUS b.val) 1 = decide (rate = 0) ∧ t.baseValue b.val = s.baseValue b.val ∧
      (t.base b.val).winStart = s.gt.now ∧ (t.base b.val).winChange = 0 ∧ (t.base b.val).winLen = s.rateWin b.val * 1000 ∧
      (s.clk + s.rateWin b.val * 1000, Act.cmd (.rateWindow b)) ∈ t.agenda ∧
      t = { s with regs := t.regs, bases := t.bases, agenda := t.agenda } ∧
      s.regsKept t [Reg.PHB_STATUS b.val, Reg.PHB_RATE b.val, Reg.PHB_RATE_GT b.val])

/-- For a running STREAM base that takes software updates, with u the update, v the value and d = u - v as a signed 48-bit
difference: the base takes u when d is not negative or greater in magnitude than SNAP_LIMIT, and stays at v when it is negative
and not greater; JUMPED is set exactly when the magnitude exceeds SNAP_LIMIT or it stood before, JUMP_BACK likewise for a
negative d; HELD is set exactly when the base holds and the new rate is positive; STALE is clear. A timeout sets STALE and
STOPPED, clears HELD and keeps the value at rate zero. HELD_RESUME, once the path has passed the held value, clears HELD and
puts the base on the path. PROJECTION_RECOMPUTE writes the projection of every armed compare bound to the base and nothing else. -/
def Obligations.Stream_base : Prop :=
  (∀ (s : State) (b : BaseId) (v : Word64), s.runsOn b.val srcStream = true → s.rb (Reg.PHB_CTRL b.val) 7 = true →
    let u := v.toNat % 2 ^ 48
    let d := diff48 u (s.baseValue b.val)
    let jump := decide (d.natAbs > s.snapLimit b.val)
    let st := Reg.PHB_STATUS b.val
    ∃ t, exec (.phbStreamPos b v) s = .next t ∧
      t.baseValue b.val = (if d < 0 ∧ jump = false then s.baseValue b.val else u) ∧
      t.rb st 4 = (s.rb st 4 || jump) ∧ t.rb st 5 = (s.rb st 5 || (jump && decide (d < 0))) ∧ t.rb st 2 = false ∧
      t.rb st 3 = (decide (d < 0) && !jump && decide (0 < (t.base b.val).rate)) ∧
      t.rd (Reg.PHB_LAST_UPD_GT b.val) = s.now ∧ t.rd (Reg.PHB_RATE b.val) = wrapTo 64 (t.base b.val).rate ∧
      t = { s with regs := t.regs, bases := t.bases, crossed := t.crossed, agenda := t.agenda } ∧
      s.regsKept t [st, Reg.PHB_RATE b.val, Reg.PHB_RATE_GT b.val, Reg.PHB_LAST_UPD_GT b.val]) ∧
  (∀ (s : State) (b : BaseId), s.runsOn b.val srcStream = true → s.streamTimeout b.val ≠ 0 →
    s.now ≥ (match (s.base b.val).lastUpd with
      | some _ => s.rd (Reg.PHB_LAST_UPD_GT b.val)
      | none => (s.base b.val).enGt.toNat) + s.streamTimeout b.val * 1000000 →
    let st := Reg.PHB_STATUS b.val
    ∃ t, exec (.streamTimeout b) s = .next t ∧ t.rb st 1 = true ∧ t.rb st 2 = true ∧ t.rb st 3 = false ∧
      t.rd (Reg.PHB_RATE b.val) = 0 ∧ t.baseValue b.val = s.baseValue b.val ∧ (t.base b.val).lastUpd = none ∧
      t = { s with regs := t.regs, bases := t.bases, agenda := t.agenda } ∧
      s.regsKept t [st, Reg.PHB_RATE b.val, Reg.PHB_RATE_GT b.val]) ∧
  (∀ (s : State) (b : BaseId) (p : Int), s.heldPathNow b.val = some p → s.runsOn b.val srcStream = true →
    s.rb (Reg.PHB_STATUS b.val) 3 = true → 0 ≤ diff48 (wrapTo 48 (p / 2 ^ 32)) (s.baseValue b.val) →
    ∃ t, exec (.heldResume b) s = .next t ∧ t.rb (Reg.PHB_STATUS b.val) 3 = false ∧ t.baseValue b.val = wrapTo 48 (p / 2 ^ 32) ∧
      t = { s with regs := t.regs, bases := t.bases, crossed := t.crossed, agenda := t.agenda } ∧
      s.regsKept t [Reg.PHB_STATUS b.val]) ∧
  (∀ (s : State) (b : BaseId), ∃ t, exec (.projectionRecompute b) s = .next t ∧
    (∀ n ∈ s.armed, s.cmpBind n = b.val → t.rd (Reg.CMP_PROJ n) = s.projection n) ∧
    (∀ a, (∀ n ∈ s.armed, s.cmpBind n = b.val → a ≠ Reg.CMP_PROJ n) → t.rd a = s.rd a) ∧ t = { s with regs := t.regs })

/-- For every compare, state and crossing noted for it. With ARM 1 and no match in that phase clock yet: exec answers a next state
in which CMP_MATCH_GT holds GT, MATCHED is set, MATCH_COUNT is one more and at most 255, JUMPED is set for a jump and otherwise
kept, ARM clears if ONE_SHOT and stays otherwise, CMP_VALUE is stepped modulo 2^48 for a base and 2^64 for GT if AUTO_STEP and
it was not written in that clock, and is kept otherwise. Of the registers only those of the compare, the status of the pin that
it acts on and the source of that pin's bank change; memory, GT and the bases stay. With ARM 0, or after a match in that clock,
the crossing is dropped and nothing else changes. -/
def Obligations.Compare_match : Prop :=
  ∀ (s : State) (n : CmpId) (m : Nat) (jumped : Bool) (clock : Nat),
    s.crossed.find? (fun e => e.1 = n.val) = some (m, jumped, clock) →
    let ctrl := Reg.CMP_CTRL n.val
    let st := Reg.CMP_STATUS n.val
    let v := s.rd (Reg.CMP_VALUE n.val)
    let step := s.rd (Reg.CMP_STEP n.val)
    let p := fld (s.rd (Reg.CMP_ACTION n.val)) 16 8
    ((s.rb ctrl 0 = false ∨ (s.cmp n.val).matchedAt = some clock) →
      exec (.compareMatch n) s = .next { s with crossed := s.crossed.filter (fun e => e.1 ≠ n.val) }) ∧
    (s.rb ctrl 0 = true → (s.cmp n.val).matchedAt ≠ some clock → ∃ t, exec (.compareMatch n) s = .next t ∧
      t.rd (Reg.CMP_MATCH_GT n.val) = s.now ∧ t.rb st 0 = true ∧ t.rf st 15 8 = min 255 (s.rf st 15 8 + 1) ∧
      t.rb st 1 = (s.rb st 1 || jumped) ∧ t.rb ctrl 0 = !s.rb ctrl 3 ∧ (t.cmp n.val).matchedAt = some clock ∧
      t.rd (Reg.CMP_VALUE n.val) = (if s.rb ctrl 4 = true ∧ (s.cmp n.val).writtenAt ≠ some clock then
        (if s.cmpBind n.val < 16 then v / 2 ^ 48 * 2 ^ 48 + (v + step) % 2 ^ 48 else (v + step) % 2 ^ 64) else v) ∧
      t.crossed = s.crossed.filter (fun e => e.1 ≠ n.val) ∧
      t = { s with regs := t.regs, agenda := t.agenda, crossed := t.crossed, cmps := t.cmps, pins := t.pins, sheet := t.sheet,
                   modes := t.modes } ∧
      s.regsKept t [ctrl, st, Reg.CMP_VALUE n.val, Reg.CMP_MATCH_GT n.val, Reg.CMP_PROJ n.val, Reg.PIN_STATUS p,
        Reg.IRT_SRC_CFG (bankSource (p / 32))])

/-- For every compare whose register is not locked (R65 for the clock of a move). A write of CMP_CTRL or CMP_ACTION makes
CMP_CTRL.EID the enclave of the request and stores the other fields as R12 says; a write of CMP_CTRL or CMP_VALUE with ARM then
1 sets LATE exactly when no armed direction has the compare ahead, and LATE is otherwise kept; both leave CMP_PROJ at the
projection of the state they give. A write of CMP_VALUE is noted with its phase clock. In a clock in which an update has moved
the compare's reference its crossing is noted anew on the written values, at the front of R65: it is noted exactly when ARM is 1
and the move crosses it. No other register and no other part of the state changes. -/
def Obligations.Compare_registers : Prop :=
  let crosses := fun (t : State) (n : CmpId) (m : Nat × Int × Bool) =>
    if t.cmpBind n.val = 16 then t.crossesGt n.val m.1
    else if m.2.2 then t.jumpsBase n.val m.1 m.2.1 else t.crossesBase n.val m.1 (t.baseValue (t.cmpBind n.val))
  let moved := fun (s t : State) (n : CmpId) (u : State) =>
    (t.movedNow n.val = none → t = { u with crossed := s.crossed.filter (fun e => !(e.1 == n.val && e.2.2 == s.clk)) }) ∧
    (∀ m, t.movedNow n.val = some m → t = { u with crossed := t.crossed, agenda := t.agenda } ∧
      ((n.val, m.2.2, s.clk) ∈ t.crossed ↔ (t.rb (Reg.CMP_CTRL n.val) 0 = true ∧ crosses t n m = true)))
  (∀ (s : State) (n : CmpId) (who : Requester) (v : Word32), s.unlockedAt (Reg.CMP_CTRL n.val) = true →
    ∃ t, exec (.cmpCtrl n who v) s = .next t ∧
      t.rd (Reg.CMP_CTRL n.val) = putFld ((s.storeReg (Reg.CMP_CTRL n.val) v.toNat).rd (Reg.CMP_CTRL n.val)) 21 16 who.eid.toNat ∧
      t.rb (Reg.CMP_STATUS n.val) 2 = (s.rb (Reg.CMP_STATUS n.val) 2 || (t.rb (Reg.CMP_CTRL n.val) 0 && t.isLate n.val)) ∧
      t.rd (Reg.CMP_PROJ n.val) = t.projection n.val ∧ moved s t n { s with regs := t.regs } ∧
      s.bitsKept t (Reg.CMP_STATUS n.val) 2 2 ∧
      s.regsKept t [Reg.CMP_CTRL n.val, Reg.CMP_STATUS n.val, Reg.CMP_PROJ n.val]) ∧
  (∀ (s : State) (n : CmpId) (v : Word64), s.unlockedAt (Reg.CMP_VALUE n.val) = true →
    ∃ t, exec (.cmpValue n v) s = .next t ∧
      t.rd (Reg.CMP_VALUE n.val) = (s.storeReg (Reg.CMP_VALUE n.val) v.toNat).rd (Reg.CMP_VALUE n.val) ∧
      t.rb (Reg.CMP_STATUS n.val) 2 = (s.rb (Reg.CMP_STATUS n.val) 2 || (s.rb (Reg.CMP_CTRL n.val) 0 && t.isLate n.val)) ∧
      t.rd (Reg.CMP_PROJ n.val) = t.projection n.val ∧ (t.cmp n.val).writtenAt = some s.clk ∧
      moved s t n { s with regs := t.regs, cmps := t.cmps } ∧ s.bitsKept t (Reg.CMP_STATUS n.val) 2 2 ∧
      s.regsKept t [Reg.CMP_VALUE n.val, Reg.CMP_STATUS n.val, Reg.CMP_PROJ n.val]) ∧
  (∀ (s : State) (n : CmpId) (who : Requester) (v : Word32), s.unlockedAt (Reg.CMP_ACTION n.val) = true →
    ∃ t, exec (.cmpAction n who v) s = .next t ∧
      t.rd (Reg.CMP_ACTION n.val) = (s.storeReg (Reg.CMP_ACTION n.val) v.toNat).rd (Reg.CMP_ACTION n.val) ∧
      t.rf (Reg.CMP_CTRL n.val) 21 16 = who.eid.toNat ∧ s.bitsKept t (Reg.CMP_CTRL n.val) 21 16 ∧
      t = { s with regs := t.regs } ∧ s.regsKept t [Reg.CMP_ACTION n.val, Reg.CMP_CTRL n.val])

/-- For every pin and state, with the actions that have reached the pin in the present phase clock and not been resolved before in
it. Where the pin's MODE is not OUTPUT, or it serves as a driven modulator clock, nothing changes. Where it is OUTPUT, and in
SAFE_HOLD all the actions are to safe: if any is drive-to-safe (a trip is one) the pin enters SAFE; otherwise if any is drive-
to-active it enters ACTIVE; otherwise it toggles once if the number of toggles is odd and stays as it is if even. CONFLICT is
set exactly when two or more actions came that are neither all drive-to-active nor all drive-to-safe, or it stood before. The
ball takes the drive of the new state 8 ns later. In SAFE_HOLD, actions of which none is to safe only set HOLD_DROP. Of the
registers only the pin's status and the source of its bank change. -/
def Obligations.Pin_actions_are_resolved : Prop :=
  ∀ (s : State) (p : PinId) (acts : List PinAct),
    ((s.pin p.val).acts.filter (fun e => e.1 = s.clk)).map (·.2) = acts → acts ≠ [] → (s.pin p.val).resolvedAt ≠ some s.clk →
    let safe := fun a : PinAct => a = .safe ∨ a = .trip
    let st := Reg.PIN_STATUS p.val
    (s.pinTakes p.val = false → exec (.pinAction p) s = .next s) ∧
    (s.pinTakes p.val = true → s.mode = modeSafeHold → (∀ a ∈ acts, ¬ safe a) →
      exec (.pinAction p) s = .next (s.wb st 5 true)) ∧
    (s.pinTakes p.val = true → (s.mode = modeSafeHold → ∀ a ∈ acts, safe a) → ∃ t, exec (.pinAction p) s = .next t ∧
      ((∃ a ∈ acts, safe a) → t.rb st 1 = false) ∧
      ((∀ a ∈ acts, ¬ safe a) → .active ∈ acts → t.rb st 1 = true) ∧
      ((∀ a ∈ acts, a = .toggle) → t.rb st 1 = (s.rb st 1 != (acts.length % 2 == 1))) ∧
      (t.rb st 2 = true ↔ s.rb st 2 = true ∨
        (2 ≤ acts.length ∧ ¬ (∀ a ∈ acts, a = .active) ∧ ¬ (∀ a ∈ acts, safe a))) ∧
      (s.clk + 8, Act.ball p (t.pinDrive p.val)) ∈ t.agenda ∧
      t = { s with regs := t.regs, agenda := t.agenda, pins := t.pins } ∧
      s.regsKept t [st, Reg.IRT_SRC_CFG (bankSource (p.val / 32))])

/-- For every pin. A write of PIN_CFG, PIN_LOCK or PIN_ACT by a request whose EID differs from PIN_OWNER.EID sets EID_REJECT,
presents an ENCLAVE_DENY entry with the pin and the register's address, and writes neither register. By the owner's EID: an
unlocked write of PIN_CFG stores the fields, a pin that becomes OUTPUT enters SAFE, and a change of what it drives reaches the
ball 9 ns after this clock (the write belongs to the next clock, assumption 30); PIN_LOCK does the same with LOCK written as 1
over the fields as they stand; PIN_ACT submits its action for the next clock to a pin that is OUTPUT, is no modulator clock, is
not paired and outside SAFE_HOLD, and code 0 submits nothing. PIN_OWNER is stored at PL3 and otherwise only sets EID_REJECT. -/
def Obligations.Pin_register_writes : Prop :=
  (∀ (s : State) (p : PinId) (who : Requester) (v : Word32), who.eid.toNat ≠ s.rf (Reg.PIN_OWNER p.val) 5 0 →
    ∀ c, (c = (Instr.pinCfg p who v, Reg.PIN_CFG p.val) ∨ c = (Instr.pinLock p who, Reg.PIN_CFG p.val) ∨
        c = (Instr.pinAct p who v, Reg.PIN_ACT p.val)) →
      ∃ t, exec c.1 s = .next t ∧ t.rb (Reg.PIN_STATUS p.val) 3 = true ∧
        (s.sheet.intake.length < 64 → ∃ e, t.sheet.intake = s.sheet.intake ++ [e] ∧ e.cls = 0x21 ∧ e.unit = unitPin p.val ∧
          e.addr = BitVec.ofNat 64 c.2) ∧
        t = { s with regs := t.regs, agenda := t.agenda, sheet := t.sheet } ∧
        s.regsKept t [Reg.PIN_STATUS p.val, Reg.IRT_SRC_CFG (bankSource (p.val / 32))]) ∧
  (∀ (s : State) (p : PinId) (who : Requester) (w : Nat) (c : Instr), who.eid.toNat = s.rf (Reg.PIN_OWNER p.val) 5 0 →
    s.unlockedAt (Reg.PIN_CFG p.val) = true →
    ((∃ v : Word32, c = .pinCfg p who v ∧ w = v.toNat) ∨ (c = .pinLock p who ∧ w = s.rd (Reg.PIN_CFG p.val) ||| 2 ^ 31)) →
    ∃ t, exec c s = .next t ∧ t.rd (Reg.PIN_CFG p.val) = (s.storeReg (Reg.PIN_CFG p.val) w).rd (Reg.PIN_CFG p.val) ∧
      (s.pinMode p.val ≠ 1 → t.pinMode p.val = 1 → t.rb (Reg.PIN_STATUS p.val) 1 = false) ∧
      (¬ (s.pinMode p.val ≠ 1 ∧ t.pinMode p.val = 1) → t.rd (Reg.PIN_STATUS p.val) = s.rd (Reg.PIN_STATUS p.val)) ∧
      (t.pinDrive p.val ≠ s.pinDrive p.val → (s.clk + 9, Act.ball p (t.pinDrive p.val)) ∈ t.agenda) ∧
      t = { s with regs := t.regs, agenda := t.agenda, pins := t.pins } ∧
      s.regsKept t [Reg.PIN_CFG p.val, Reg.PIN_STATUS p.val]) ∧
  (∀ (s : State) (p : PinId) (who : Requester) (v : Word32), who.eid.toNat = s.rf (Reg.PIN_OWNER p.val) 5 0 →
    (v.toNat % 4 = 0 → exec (.pinAct p who v) s = .next s) ∧
    (∀ a, pinActOf (v.toNat % 4) = some a → s.pinMode p.val = 1 → s.clockDivisor p.val = none → s.mode ≠ modeSafeHold →
      s.rb (Reg.PIN_CFG p.val) 12 = false →
      ∃ t, exec (.pinAct p who v) s = .next t ∧ (s.clk + 1, a) ∈ (t.pin p.val).acts ∧
        (s.clk + 1, Act.cmd (.pinAction p)) ∈ t.agenda ∧ t = { s with agenda := t.agenda, pins := t.pins })) ∧
  (∀ (s : State) (p : PinId) (who : Requester) (v : Word32),
    (who.pl = 3 → exec (.pinOwner p who v) s = .next (s.storeReg (Reg.PIN_OWNER p.val) v.toNat)) ∧
    (who.pl ≠ 3 → ∃ t, exec (.pinOwner p who v) s = .next t ∧ t.rb (Reg.PIN_STATUS p.val) 3 = true ∧
      t = { s with regs := t.regs, agenda := t.agenda } ∧
      s.regsKept t [Reg.PIN_STATUS p.val, Reg.IRT_SRC_CFG (bankSource (p.val / 32))]))

/-- For every bank. SUPPLY_ERR clears SUPPLY_OK, sets SUPPLY_ERR and releases every pin of the bank at the pad with its pull, the
weak pull-down in a disabled quadrant or in reset; an unlocked write that changes VSEL clears SUPPLY_OK in its clock and
releases them too, and one that does not change it only writes the register, but that the first write since a reset frees a bank
whose SUPPLY_OK is 1 (assumption 121); SUPPLY_OK, once 100 µs have passed and the bit is 0, sets it, and every pin of the bank
in OUTPUT mode drives its state again 8 ns later. No pin state changes, and no pin of another bank. -/
def Obligations.Pin_banks : Prop :=
  let pull := fun (s : State) (p : Nat) => if s.quadOff (p / 128) ∨ s.pinsInReset then 1 else s.pinPull p
  (∀ (s : State) (k : BankId), ∃ t, exec (.supplyErr k) s = .next t ∧
    t.rb (Reg.PIN_BANK_STATUS k.val) 0 = false ∧ t.rb (Reg.PIN_BANK_STATUS k.val) 1 = true ∧
    (∀ i < 32, (t.pin (k.val * 32 + i)).ball = .released (pull s (k.val * 32 + i))) ∧
    (∀ p, p / 32 ≠ k.val → t.pin p = s.pin p) ∧
    t = { s with regs := t.regs, pins := t.pins, banks := t.banks, agenda := t.agenda } ∧
    s.regsKept t [Reg.PIN_BANK_STATUS k.val, Reg.IRT_SRC_CFG (bankSource k.val)]) ∧
  (∀ (s : State) (k : BankId) (who : Requester) (v : Word32), s.unlockedAt (Reg.PIN_BANK_CFG k.val) = true →
    let s1 := s.storeReg (Reg.PIN_BANK_CFG k.val) v.toNat
    (s1.rb (Reg.PIN_BANK_CFG k.val) 0 = s.rb (Reg.PIN_BANK_CFG k.val) 0 → ∃ t, exec (.vsel k who v) s = .next t ∧
      (t.bank k.val).written = true ∧ t = { s1 with banks := t.banks, agenda := t.agenda } ∧
      (((s.bank k.val).written = true ∨ s.rb (Reg.PIN_BANK_STATUS k.val) 0 = false) → t.agenda = s1.agenda) ∧
      ((s.bank k.val).written = false → s.rb (Reg.PIN_BANK_STATUS k.val) 0 = true → ∀ p : PinId, p.val / 32 = k.val →
        s.pinMode p.val = 1 → (s.clk + 9, Act.ball p (t.pinDrive p.val)) ∈ t.agenda)) ∧
    (s1.rb (Reg.PIN_BANK_CFG k.val) 0 ≠ s.rb (Reg.PIN_BANK_CFG k.val) 0 → ∃ t, exec (.vsel k who v) s = .next t ∧
      t.rb (Reg.PIN_BANK_STATUS k.val) 0 = false ∧ t.rd (Reg.PIN_BANK_CFG k.val) = s1.rd (Reg.PIN_BANK_CFG k.val) ∧
      (∀ i < 32, (t.pin (k.val * 32 + i)).ball = .released (pull s (k.val * 32 + i))) ∧ (t.bank k.val).since = s.clk ∧
      t = { s with regs := t.regs, pins := t.pins, banks := t.banks, agenda := t.agenda } ∧
      s.regsKept t [Reg.PIN_BANK_STATUS k.val, Reg.PIN_BANK_CFG k.val])) ∧
  (∀ (s : State) (k : BankId), (s.bank k.val).since + 100000 ≤ s.clk → s.rb (Reg.PIN_BANK_STATUS k.val) 0 = false →
    ∃ t, exec (.supplyOk k) s = .next t ∧ t.rb (Reg.PIN_BANK_STATUS k.val) 0 = true ∧
      (∀ p : PinId, p.val / 32 = k.val → s.pinMode p.val = 1 → (s.clk + 8, Act.ball p (t.pinDrive p.val)) ∈ t.agenda) ∧
      t = { s with regs := t.regs, banks := t.banks, agenda := t.agenda } ∧ s.regsKept t [Reg.PIN_BANK_STATUS k.val])

/-- For every capture channel. An event of a selected edge on an enabled channel schedules the capture of the value of its base, or
of GT, at the event's GT, for 20 ns after the event; any other event captures nothing. When the capture becomes readable
CAP_VALUE holds it, FULL is set, the edge is shown, and OVERRUN is set exactly when FULL was set or it stood before. A read of
CAP_VALUE in a clock without a capture returns it and clears FULL, and changes nothing but the channel and the record of the
last read. The 20 ns count in phase clocks (assumption 20). -/
def Obligations.Captures : Prop :=
  (∀ (s : State) (n : CapId) (rise : Bool) (instant : Word64),
    let c := s.rd (Reg.CAP_CTRL n.val)
    ∃ t, exec (.captureEvent n rise instant) s = .next t ∧ t = { s with agenda := t.agenda, pins := t.pins } ∧
      ((c.testBit 0 = true ∧ s.modes.refclk = true ∧ edgeSelects (fld c 2 1) rise = true) →
        t.agenda = agendaInsert (s.clk + (instant.toNat + 20 - s.now))
          (.capture n (BitVec.ofNat 64 (s.captured n.val instant.toNat)) rise instant) s.agenda) ∧
      (¬ (c.testBit 0 = true ∧ s.modes.refclk = true ∧ edgeSelects (fld c 2 1) rise = true) → t.agenda = s.agenda)) ∧
  (∀ (s : State) (n : CapId) (v : Word64) (rise : Bool) (gt : Word64),
    let t := s.fall (.capture n v rise gt)
    let st := Reg.CAP_STATUS n.val
    t.rd (Reg.CAP_VALUE n.val) = v.toNat ∧ t.rb st 0 = true ∧ t.rb st 2 = rise ∧ t.rb st 1 = (s.rb st 1 || s.rb st 0) ∧
    t = { s with regs := t.regs, caps := t.caps, agenda := t.agenda } ∧
    s.regsKept t [Reg.CAP_VALUE n.val, st, Reg.IRT_SRC_CFG (capSource n.val)]) ∧
  (∀ (s : State) (n : CapId), (s.cap n.val).landed ≠ some s.clk → ∃ t, exec (.capValue n) s = .next t ∧
    t.lastRead.toNat = s.rd (Reg.CAP_VALUE n.val) ∧ t.rb (Reg.CAP_STATUS n.val) 0 = false ∧
    s.bitsKept t (Reg.CAP_STATUS n.val) 0 0 ∧ t = { s with regs := t.regs, caps := t.caps, lastRead := t.lastRead } ∧
    s.regsKept t [Reg.CAP_STATUS n.val])

/-- For every enabled channel with REFCLK running and no clock lost. The first two results only write SDF_RESULT. From the third on,
with M cubed even, SDF_RESULT holds the sum less M^3/2, VALID is set, the high flag is set on passing above SDF_THR_HI and the
low flag on passing below SDF_THR_LO, TRIPPED is set exactly when the result lies outside the thresholds or it stood before, and
no register but SDF_RESULT, SDF_STATUS and the channel's router source changes. CLK_LOSS on a channel whose clock comes from
CLK_PIN sets CLK_LOSS, clears VALID and asserts the trip if TRIP_ON_LOSS. An odd M leaves the result's rounding open (assumption
17). -/
def Obligations.Sigma_delta_channels : Prop :=
  (∀ (s : State) (n : SdId) (sum : BitVec 25), s.rb (Reg.SDF_CTRL n.val) 0 = true → s.modes.refclk = true →
    (s.sdf n.val).clockLost = false → s.decim n.val ^ 3 % 2 = 0 →
    let r : Int := (sum.toNat : Int) - (s.decim n.val ^ 3 / 2 : Nat)
    let st := Reg.SDF_STATUS n.val
    let high := decide (r > toSigned 32 (s.rd (Reg.SDF_THR_HI n.val)))
    let low := decide (r < toSigned 32 (s.rd (Reg.SDF_THR_LO n.val)))
    ∃ t, exec (.sdResult n sum) s = .next t ∧ t.rd (Reg.SDF_RESULT n.val) = wrapTo 32 r ∧
      (t.sdf n.val).results = min 3 ((s.sdf n.val).results + 1) ∧
      ((s.sdf n.val).results < 2 → t = { s with regs := t.regs, sdfs := t.sdfs } ∧ s.regsKept t [Reg.SDF_RESULT n.val]) ∧
      (2 ≤ (s.sdf n.val).results →
        t.rb st 0 = true ∧ t.rb st 1 = (s.rb st 1 || (high && !(s.sdf n.val).wasHigh)) ∧
        t.rb st 2 = (s.rb st 2 || (low && !(s.sdf n.val).wasLow)) ∧ t.rb st 4 = (s.rb st 4 || high || low) ∧
        t = { s with regs := t.regs, sdfs := t.sdfs, agenda := t.agenda, pins := t.pins, work := t.work, nextTag := t.nextTag } ∧
        s.regsKept t [Reg.SDF_RESULT n.val, st, Reg.IRT_SRC_CFG (sdfSource n.val)])) ∧
  (∀ (s : State) (n : SdId), s.rb (Reg.SDF_CTRL n.val) 0 = true → s.rb (Reg.SDF_CTRL n.val) 1 = false → s.modes.refclk = true →
    (s.sdf n.val).clockLost = false → ∃ t, exec (.clkLoss n) s = .next t ∧
      t.rb (Reg.SDF_STATUS n.val) 3 = true ∧ t.rb (Reg.SDF_STATUS n.val) 0 = false ∧
      (s.rb (Reg.SDF_CTRL n.val) 19 = true → t.rb (Reg.SDF_STATUS n.val) 4 = true) ∧
      t.rd (Reg.SDF_RESULT n.val) = s.rd (Reg.SDF_RESULT n.val) ∧ (t.sdf n.val).clockLost = true ∧ t.mem = s.mem ∧ t.gt = s.gt)

/-- For every linked counter and state. A tick of a counter with RUN 0 changes nothing; with RUN 1 and COUNT different from TOP it
adds one modulo 2^32 and changes nothing else, in particular sets no WRAP at 0xFFFFFFFF; at a COUNT equal to TOP it loads 0,
sets WRAP, raises the enabled actions and ticks a running counter that is linked to it. A compare action with bit 0 loads COUNT
with 0, with bit 1 sets RUN, and restarts the prescaler only when RUN was 0; it changes no other register. -/
def Obligations.Linked_counters : Prop :=
  (∀ (s : State) (n : CtrId),
    (s.rb (Reg.CTR_CTRL n.val) 0 = false → exec (.ctrTick n) s = .next s) ∧
    (s.rb (Reg.CTR_CTRL n.val) 0 = true → s.rd (Reg.CTR_COUNT n.val) ≠ s.rd (Reg.CTR_TOP n.val) →
      ∃ t, exec (.ctrTick n) s = .next t ∧ t.rd (Reg.CTR_COUNT n.val) = (s.rd (Reg.CTR_COUNT n.val) + 1) % 2 ^ 32 ∧
        t = { s with regs := t.regs } ∧ s.regsKept t [Reg.CTR_COUNT n.val]) ∧
    (s.rb (Reg.CTR_CTRL n.val) 0 = true → s.rd (Reg.CTR_COUNT n.val) = s.rd (Reg.CTR_TOP n.val) →
      ∃ t, exec (.ctrTick n) s = .next t ∧ t.rd (Reg.CTR_COUNT n.val) = 0 ∧ t.rb (Reg.CTR_STATUS n.val) 0 = true ∧
        (∀ m : CtrId, m.val = n.val + 1 → s.rb (Reg.CTR_CTRL m.val) 0 = true → s.ctrLinked m.val = true →
          (s.clk, Act.cmd (.ctrTick m)) ∈ t.agenda) ∧
        (s.rb (Reg.CTR_CTRL n.val) 2 = true → t.rb (Reg.IRT_SRC_CFG (ctrSource n.val)) 2 = true) ∧
        t = { s with regs := t.regs, agenda := t.agenda } ∧
        s.regsKept t [Reg.CTR_COUNT n.val, Reg.CTR_STATUS n.val, Reg.IRT_SRC_CFG (ctrSource n.val)])) ∧
  (∀ (s : State) (n : CtrId) (act : BitVec 2), ∃ t, exec (.linkedCounterAction n act) s = .next t ∧
    t.rd (Reg.CTR_COUNT n.val) = (if act.getLsbD 0 then 0 else s.rd (Reg.CTR_COUNT n.val)) ∧
    t.rb (Reg.CTR_CTRL n.val) 0 = (s.rb (Reg.CTR_CTRL n.val) 0 || act.getLsbD 1) ∧
    (s.rb (Reg.CTR_CTRL n.val) 0 = true → (t.ctr n.val).tickBase = (s.ctr n.val).tickBase) ∧
    s.bitsKept t (Reg.CTR_CTRL n.val) 0 0 ∧ t = { s with regs := t.regs, ctrs := t.ctrs } ∧
    s.regsKept t [Reg.CTR_COUNT n.val, Reg.CTR_CTRL n.val])

/-- For every phase core and, as an example of what surrounds every instruction of it, NOP: a core that cannot execute now is left
as it is; one that is asked to stop halts at its PC with RUN's state; one with a preemption request saves its PC in PCC_PRE_PC
and the shadow and goes to PCC_PRE_VEC with INPRE set; a PC outside local memory or misaligned faults with FETCH, and a PC in an
uncorrectable word with POISON, at the PC's address. Otherwise NOP only moves the PC on after 2 clocks. That an instruction
commanded to a core that cannot execute changes nothing is assumption 9. -/
def Obligations.Phase_core_boundary : Prop :=
  ∀ (s : State) (pc : PcId),
    let n := pc.val
    let c := s.pcore n
    (s.pcReady n = false → exec (.pcNop pc) s = .next s) ∧
    (s.pcReady n = true → c.stopping = true → c.halting = none → ∃ t, exec (.pcNop pc) s = .next t ∧ t.pcState n = 0 ∧
      (t.pcore n).pc = c.pc ∧ (t.pcore n).p = c.p ∧ (t.pcore n).stopping = false ∧ t.mem = s.mem ∧
      s.regsKept t [Reg.PCC_STATUS n]) ∧
    (s.pcReady n = true → c.stopping = false → c.halting = none → s.preemptAsked n = true → c.flatNext = none →
      ∃ t, exec (.pcNop pc) s = .next t ∧ t.rd (Reg.PCC_PRE_PC n) = c.pc.toNat ∧ t.rb (Reg.PCC_STATUS n) 3 = true ∧
        (t.pcore n).pc = BitVec.ofNat 32 (s.rd (Reg.PCC_PRE_VEC n)) ∧ (t.pcore n).p = c.p ∧ (t.pcore n).lcnt = 0 ∧
        (t.pcore n).busy = s.clk + 4 ∧
        (t.pcore n).shadow = { pc := c.pc, ctask := c.ctask, tdl := c.tdl, lcnt := c.lcnt, lbeg := c.lbeg, lend := c.lend, flat := c.flat } ∧
        s.regsKept t [Reg.PCC_STATUS n, Reg.PCC_PRE_PC n]) ∧
    (s.pcReady n = true → c.stopping = false → c.halting = none → s.preemptAsked n = false → c.flatNext = none →
      (pcFetchable c.pc = false → s.pcFaults n (.pcNop pc) 2 c.pc.toNat) ∧
      (pcFetchable c.pc = true → s.poisoned (localAddr n c.pc.toNat) = true → s.pcFaults n (.pcNop pc) 5 c.pc.toNat)) ∧
    (s.pcPlain n = true → s.pcGives n (.pcNop pc) (s.pcAfter n 2 c))

/-- For every core that can execute plainly, and all registers and operands: ADD SUB AND OR XOR, the shifts by rs2[4:0], SLT and
SLTU, MUL, MULH and MULHU, MIN and MAX, the immediate forms (ADDI and SLTI sign-extended, ANDI ORI XORI zero-extended), the
immediate shifts and LUI write rd with the value of R107, also where rd is a source; the PC follows R116, the core takes its
next instruction after the count of R107, and nothing else of the state changes. -/
def Obligations.Phase_core_integer : Prop :=
  ∀ (s : State) (pc : PcId) (rd rs1 rs2 : PReg), s.pcPlain pc.val = true →
    let n := pc.val
    let a := s.preg n rs1
    let b := s.preg n rs2
    s.pcWrites n (.pcAlu pc .add rd rs1 rs2) rd 3 (a + b) ∧ s.pcWrites n (.pcAlu pc .sub rd rs1 rs2) rd 3 (a - b) ∧
    s.pcWrites n (.pcAlu pc .and rd rs1 rs2) rd 3 (a &&& b) ∧ s.pcWrites n (.pcAlu pc .or rd rs1 rs2) rd 3 (a ||| b) ∧
    s.pcWrites n (.pcAlu pc .xor rd rs1 rs2) rd 3 (a ^^^ b) ∧
    s.pcWrites n (.pcShift pc .sll rd rs1 rs2) rd 3 (a <<< (b.toNat % 32)) ∧
    s.pcWrites n (.pcShift pc .srl rd rs1 rs2) rd 3 (a >>> (b.toNat % 32)) ∧
    s.pcWrites n (.pcShift pc .sra rd rs1 rs2) rd 3 (a.sshiftRight (b.toNat % 32)) ∧
    s.pcWrites n (.pcSlt pc .signed rd rs1 rs2) rd 3 (if a.toInt < b.toInt then 1 else 0) ∧
    s.pcWrites n (.pcSlt pc .unsigned rd rs1 rs2) rd 3 (if a.toNat < b.toNat then 1 else 0) ∧
    s.pcWrites n (.pcMul pc rd rs1 rs2) rd 4 (a * b) ∧
    s.pcWrites n (.pcMulh pc .signed rd rs1 rs2) rd 5 ((a.signExtend 64 * b.signExtend 64).extractLsb' 32 32) ∧
    s.pcWrites n (.pcMulh pc .unsigned rd rs1 rs2) rd 5 ((a.zeroExtend 64 * b.zeroExtend 64).extractLsb' 32 32) ∧
    s.pcWrites n (.pcMinMax pc .min rd rs1 rs2) rd 3 (if a.toInt ≤ b.toInt then a else b) ∧
    s.pcWrites n (.pcMinMax pc .max rd rs1 rs2) rd 3 (if b.toInt ≤ a.toInt then a else b) ∧
    (∀ imm : BitVec 18,
      s.pcWrites n (.pcAluImm pc .addi rd rs1 imm) rd 3 (a + imm.signExtend 32) ∧
      s.pcWrites n (.pcAluImm pc .andi rd rs1 imm) rd 3 (a &&& imm.zeroExtend 32) ∧
      s.pcWrites n (.pcAluImm pc .ori rd rs1 imm) rd 3 (a ||| imm.zeroExtend 32) ∧
      s.pcWrites n (.pcAluImm pc .xori rd rs1 imm) rd 3 (a ^^^ imm.zeroExtend 32) ∧
      s.pcWrites n (.pcAluImm pc .slti rd rs1 imm) rd 3 (if a.toInt < imm.toInt then 1 else 0)) ∧
    (∀ k : BitVec 5,
      s.pcWrites n (.pcShiftImm pc .sll rd rs1 k) rd 3 (a <<< k.toNat) ∧
      s.pcWrites n (.pcShiftImm pc .srl rd rs1 k) rd 3 (a >>> k.toNat) ∧
      s.pcWrites n (.pcShiftImm pc .sra rd rs1 k) rd 3 (a.sshiftRight k.toNat)) ∧
    (∀ imm : BitVec 22, s.pcWrites n (.pcLui pc rd imm) rd 3 (BitVec.ofNat 32 (imm.toNat * 1024)))

/-- For every core that can execute plainly. QADD and QSUB give the exact sum or difference clamped to 32 signed bits, MAC and MSU
the accumulator plus or minus the exact signed product clamped to 64, ACCRD the shifted accumulator clamped to 32; each sets SAT
when it clamps and otherwise leaves it, and no other register of the map changes. ACCWR and MULA write the accumulator. DIV and
DIVU round toward zero, DIV by zero gives -1, DIVU by zero 0xFFFFFFFF, REM and REMU by zero the dividend, DIV of -2^31 by -1
gives -2^31 and REM of them 0, the remainder goes with the quotient, and every division takes 20 clocks. -/
def Obligations.Phase_core_saturation_and_division : Prop :=
  ∀ (s : State) (pc : PcId) (rd rs1 rs2 : PReg) (acc : AccId), s.pcPlain pc.val = true →
    let n := pc.val
    let a := s.preg n rs1
    let b := s.preg n rs2
    let clamp := fun (w : Nat) (v : Int) => max (-(2 ^ (w - 1))) (min (2 ^ (w - 1) - 1) v)
    let sat := fun (t : State) (w : Nat) (v : Int) =>
      t.rb (Reg.PCC_STATUS n) 6 = (s.rb (Reg.PCC_STATUS n) 6 || decide (clamp w v ≠ v)) ∧
      s.bitsKept t (Reg.PCC_STATUS n) 6 6 ∧ s.regsKept t [Reg.PCC_STATUS n] ∧
      t = { s with pcores := t.pcores, regs := t.regs } ∧ (∀ k, k ≠ n → t.pcore k = s.pcore k)
    (∀ sub : Bool, let v := if sub then a.toInt - b.toInt else a.toInt + b.toInt
      ∃ t, exec (.qadd pc sub rd rs1 rs2) s = .next t ∧ sat t 32 v ∧
        t.pcore n = s.pcAfter n 3 { s.pcore n with p := tabSet 0 (s.pcore n).p rd.toNat (BitVec.ofInt 32 (clamp 32 v)) }) ∧
    (∀ fn : MacFn, let p := a.toInt * b.toInt
      let v := match fn with | .mac => (s.pacc n acc).toInt + p | .msu => (s.pacc n acc).toInt - p | .mula => p
      ∃ t, exec (.mac pc fn acc rs1 rs2) s = .next t ∧ sat t 64 v ∧ t.pacc n acc = BitVec.ofInt 64 (clamp 64 v) ∧
        t.pacc n (!acc) = s.pacc n (!acc) ∧ (t.pcore n).p = (s.pcore n).p ∧ (t.pcore n).busy = s.clk + 4 ∧
        (t.pcore n).pc = ((s.pcore n).follow none).1) ∧
    (∀ (k : BitVec 6) (round : Bool),
      let v := ((s.pacc n acc).toInt + (if round = true ∧ 0 < k.toNat then 2 ^ (k.toNat - 1) else 0)) / 2 ^ k.toNat
      ∃ t, exec (.accrd pc rd acc k round) s = .next t ∧ sat t 32 v ∧
        t.pcore n = s.pcAfter n 3 { s.pcore n with p := tabSet 0 (s.pcore n).p rd.toNat (BitVec.ofInt 32 (clamp 32 v)) }) ∧
    (∀ k : BitVec 5, ∃ c, s.pcGives n (.accwr pc acc rs1 k) (s.pcAfter n 3 c) ∧
      c = (if acc then { s.pcore n with acc1 := a.signExtend 64 <<< k.toNat } else { s.pcore n with acc0 := a.signExtend 64 <<< k.toNat })) ∧
    (∀ fn : DivFn, ∃ t, exec (.pcDiv pc fn rd rs1 rs2) s = .next t ∧
      t = { s with pcores := t.pcores } ∧ (t.pcore n).p = tabSet 0 (s.pcore n).p rd.toNat (t.preg n rd) ∧
      (t.pcore n).busy = s.clk + 20 ∧ (t.pcore n).pc = ((s.pcore n).follow none).1 ∧ (∀ k, k ≠ n → t.pcore k = s.pcore k) ∧
      t.preg n rd = (match fn with
        | .div => if b = 0 then -1 else if a.toInt = -(2 ^ 31) ∧ b = -1 then a else BitVec.ofInt 32 (a.toInt.tdiv b.toInt)
        | .divu => if b = 0 then 0xFFFFFFFF else BitVec.ofNat 32 (a.toNat / b.toNat)
        | .rem => if b = 0 then a else if a.toInt = -(2 ^ 31) ∧ b = -1 then 0 else BitVec.ofInt 32 (a.toInt.tmod b.toInt)
        | .remu => if b = 0 then a else BitVec.ofNat 32 (a.toNat % b.toNat)))

/-- For every core that can execute plainly: FADD, FSUB, FMUL, the fused FMAC, FDIV, FSQRT, FMIN, FMAX, FEQ, FLT, FLE, FCVT.W.S,
FCVT.S.W, FABS and FNEG write rd with the result of R109 on operands whose subnormals count as zero, rounded to nearest even
with a subnormal result flushed and NaN canonical (FABS and FNEG too, assumption 33); comparisons give 1 or 0 and 0 with a NaN,
FCVT.W.S truncates and saturates, and each takes the clocks of R107. The p register rd, the PC and the core's time are all that
changes; FDIV and FSQRT also keep what R122 needs to abandon them. -/
def Obligations.Phase_core_floating_point : Prop :=
  ∀ (s : State) (pc : PcId) (rd rs1 rs2 : PReg), s.pcPlain pc.val = true →
    let n := pc.val
    let a := pcFloat (s.preg n rs1)
    let b := pcFloat (s.preg n rs2)
    s.pcWrites n (.pcFadd pc .add rd rs1 rs2) rd 5 (pcPack (a.add .nearestEven b)) ∧
    s.pcWrites n (.pcFadd pc .sub rd rs1 rs2) rd 5 (pcPack (a.add .nearestEven b.negate)) ∧
    s.pcWrites n (.pcFadd pc .mul rd rs1 rs2) rd 5 (pcPack (a.mul b)) ∧
    s.pcWrites n (.fmac pc rd rs1 rs2) rd 6 (pcPack ((pcFloat (s.preg n rd)).add .nearestEven (a.mul b))) ∧
    s.pcWrites n (.pcFcompare pc .min rd rs1 rs2) rd 4 (pcPack (a.pick .min b)) ∧
    s.pcWrites n (.pcFcompare pc .max rd rs1 rs2) rd 4 (pcPack (a.pick .max b)) ∧
    (a = .nan ∨ b = .nan → ∀ fn, fn ≠ .min → fn ≠ .max → s.pcWrites n (.pcFcompare pc fn rd rs1 rs2) rd 4 0) ∧
    s.pcWrites n (.pcFcompare pc .eq rd rs1 rs2) rd 4 (if FNum.compare .eq a b then 1 else 0) ∧
    s.pcWrites n (.pcFcompare pc .lt rd rs1 rs2) rd 4 (if FNum.compare .lt a b then 1 else 0) ∧
    s.pcWrites n (.pcFcompare pc .le rd rs1 rs2) rd 4 (if FNum.compare .le a b then 1 else 0) ∧
    s.pcWrites n (.pcFcvt pc true rd rs1) rd 4 (BitVec.ofInt 32 (a.toInt .towardZero (-(2 ^ 31)) (2 ^ 31 - 1))) ∧
    s.pcWrites n (.pcFcvt pc false rd rs1) rd 4 (pcPack (FNum.ofInt (s.preg n rs1).toInt)) ∧
    s.pcWrites n (.fabsFneg pc false rd rs1) rd 3 (pcPack (a.withSign false)) ∧
    s.pcWrites n (.fabsFneg pc true rd rs1) rd 3 (pcPack a.negate) ∧
    (∀ (i : Instr) (k : Nat) (v : Word32),
      (i = .pcFdiv pc rd rs1 rs2 ∧ k = 16 ∧ v = pcPack (a.div b)) ∨ (i = .pcFsqrt pc rd rs1 ∧ k = 18 ∧ v = pcPack a.sqrt) →
      ∃ t, exec i s = .next t ∧ t = { s with pcores := t.pcores } ∧ (∀ m, m ≠ n → t.pcore m = s.pcore m) ∧
        { t.pcore n with long := none } = s.pcAfter n k { s.pcore n with p := tabSet 0 (s.pcore n).p rd.toNat v })

/-- For every core that can execute plainly and every access whose bytes all lie in local memory, with no uncorrectable word that it
would read or write only in part. The PC follows R116, the core takes its next instruction after the count of R110, or the flat
one; a load's access is performed 2 clocks after its start, a store's in its last O clock, and nothing else of the state changes
with the instruction. When the access is performed, in whatever state u the device then is: LB and LH sign-extend, LBU and LHU
zero-extend, LW, LD and LDA give the bytes least significant first, into rd, a pair or an accumulator, and change nothing else;
SB SH SW SD and STA write exactly the bytes that the register held at the start, least significant first, and every other byte
of memory reads as before. LD and SD of an odd register fault with ILLEGAL. -/
def Obligations.Phase_core_local_memory : Prop :=
  ∀ (s : State) (pc : PcId) (rs1 : PReg) (imm : BitVec 18), s.pcPlain pc.val = true →
    let n := pc.val
    let va := s.preg n rs1 + imm.signExtend 32
    let a := va.toNat
    let ok := fun (bytes : Nat) (whole : Bool) => a + bytes ≤ 0x10000 ∧ s.badLocal n a bytes whole = none
    let performed := fun (i : Instr) (x : PcAccess) (after count flat : Nat) => ∃ t, exec i s = .next t ∧
      t.agenda = agendaInsert (s.clk + after) (.engine pc x) s.agenda ∧
      t.pcore n = s.pcAfter n (if (s.pcore n).flat then flat else count) (s.pcore n) ∧
      (∀ k, k ≠ n → t.pcore k = s.pcore k) ∧ t = { s with pcores := t.pcores, agenda := t.agenda }
    let loads := fun (i : Instr) (bytes : Nat) (dest : PcDest) (gives : State → PCore) =>
      let x : PcAccess := { vaddr := va, paddr := localAddr n a, bytes := bytes, store := none, dest := dest }
      performed i x 2 (3 + localClocks a bytes false) (if bytes = 8 then 17 else 16) ∧
      ∀ u : State, (u.fall (.engine pc x)).pcore n = gives u ∧ u.fall (.engine pc x) = { u with pcores := (u.fall (.engine pc x)).pcores } ∧
        (∀ k, k ≠ n → (u.fall (.engine pc x)).pcore k = u.pcore k)
    let stored := fun (i : Instr) (bytes : Nat) (d : Word64) =>
      let x : PcAccess := { vaddr := va, paddr := localAddr n a, bytes := bytes, store := some d, dest := .reg 0 false }
      performed i x (1 + localClocks a bytes true) (2 + localClocks a bytes true) 11 ∧
      ∀ u : State, let t := u.fall (.engine pc x)
        (∀ j < bytes, (t.byte (localAddr n a + j)).toNat = d.toNat / 2 ^ (8 * j) % 256) ∧
        (∀ y, y < localAddr n a ∨ localAddr n a + bytes ≤ y → t.byte y = u.byte y) ∧ t = { u with mem := t.mem, poison := t.poison }
    let v := fun (u : State) bytes => u.bytes (localAddr n a) bytes
    (∀ rd : PReg,
      let into := fun (f : Nat → Word32) (bytes : Nat) (u : State) =>
        ({ u.pcore n with p := tabSet 0 (u.pcore n).p rd.toNat (f (v u bytes)) } : PCore)
      (ok 1 true → loads (.pcLoad pc .lb rd rs1 imm) 1 (.reg rd true) (into (fun b => (BitVec.ofNat 8 b).signExtend 32) 1) ∧
        loads (.pcLoad pc .lbu rd rs1 imm) 1 (.reg rd false) (into (BitVec.ofNat 32) 1)) ∧
      (ok 2 true → loads (.pcLoad pc .lh rd rs1 imm) 2 (.reg rd true) (into (fun b => (BitVec.ofNat 16 b).signExtend 32) 2) ∧
        loads (.pcLoad pc .lhu rd rs1 imm) 2 (.reg rd false) (into (BitVec.ofNat 32) 2)) ∧
      (ok 4 true → loads (.pcLoad pc .lw rd rs1 imm) 4 (.reg rd false) (into (BitVec.ofNat 32) 4))) ∧
    (ok 8 true →
      (∀ r : PReg, pairOdd r = false → loads (.pcLd pc (.pair r) rs1 imm) 8 (.pair r) fun u => { u.pcore n with
        p := tabSet 0 (tabSet 0 (u.pcore n).p r.toNat (BitVec.ofNat 32 (v u 8))) (r + 1).toNat (BitVec.ofNat 32 (v u 8 / 2 ^ 32)) }) ∧
      loads (.pcLd pc (.acc false) rs1 imm) 8 (.acc false) (fun u => { u.pcore n with acc0 := BitVec.ofNat 64 (v u 8) }) ∧
      loads (.pcLd pc (.acc true) rs1 imm) 8 (.acc true) (fun u => { u.pcore n with acc1 := BitVec.ofNat 64 (v u 8) })) ∧
    (∀ r : PReg, pairOdd r = true → s.pcFaults n (.pcLd pc (.pair r) rs1 imm) 1 (s.pcore n).pc.toNat ∧
      s.pcFaults n (.pcSd pc (.pair r) rs1 imm) 1 (s.pcore n).pc.toNat) ∧
    (∀ rs2 : PReg,
      (ok 1 false → stored (.pcStore pc .sb rs2 rs1 imm) 1 ((s.preg n rs2).zeroExtend 64)) ∧
      (ok 2 false → stored (.pcStore pc .sh rs2 rs1 imm) 2 ((s.preg n rs2).zeroExtend 64)) ∧
      (ok 4 false → stored (.pcStore pc .sw rs2 rs1 imm) 4 ((s.preg n rs2).zeroExtend 64))) ∧
    (ok 8 false →
      (∀ r : PReg, pairOdd r = false → stored (.pcSd pc (.pair r) rs1 imm) 8 (s.ppair n r)) ∧
      (∀ acc, stored (.pcSd pc (.acc acc) rs1 imm) 8 (s.pacc n acc)))

/-- For every core that can execute plainly and a word access LW or SW. A forbidden byte faults with ACCESS at the lowest forbidden
address and nothing is written. An ENGINE access is sampled or reaches the engine at the core's next slot and takes 9 or 4
clocks plus the wait, or the flat count. A WINDOW access faults with FLAT in flat-timed mode; in region-timed mode to memory
behind the homes, in an open window and outside STANDBY, it waits for every line that it touches and sends one request for each. -/
def Obligations.Phase_core_other_regions : Prop :=
  ∀ (s : State) (pc : PcId) (rd rs1 : PReg) (imm : BitVec 18), s.pcPlain pc.val = true →
    let n := pc.val
    let va := s.preg n rs1 + imm.signExtend 32
    let k := s.slotTerm n
    (∀ bad, s.pcPermit n va.toNat 4 false = .error bad → s.pcFaults n (.pcLoad pc .lw rd rs1 imm) 3 (bad % 2 ^ 32)) ∧
    (∀ bad, s.pcPermit n va.toNat 4 true = .error bad → s.pcFaults n (.pcStore pc .sw rd rs1 imm) 3 (bad % 2 ^ 32)) ∧
    (s.pcPermit n va.toNat 4 false = .ok .engine → ∃ t, exec (.pcLoad pc .lw rd rs1 imm) s = .next t ∧
      t.agenda = agendaInsert (s.clk + (2 + k)) (.engine pc
        { vaddr := va, paddr := s.pcPhys n va.toNat .engine, bytes := 4, store := none, dest := .reg rd false }) s.agenda ∧
      t.pcore n = s.pcAfter n (if (s.pcore n).flat then 16 else 9 + k) (s.pcore n) ∧
      t = { s with pcores := t.pcores, agenda := t.agenda }) ∧
    (s.pcPermit n va.toNat 4 true = .ok .engine → ∃ t, exec (.pcStore pc .sw rd rs1 imm) s = .next t ∧
      t.agenda = agendaInsert (s.clk + (3 + k)) (.engine pc
        { vaddr := va, paddr := s.pcPhys n va.toNat .engine, bytes := 4, store := some ((s.preg n rd).setWidth 64),
          dest := .reg 0 false }) s.agenda ∧
      t.pcore n = s.pcAfter n (if (s.pcore n).flat then 11 else 4 + k) (s.pcore n) ∧
      t = { s with pcores := t.pcores, agenda := t.agenda }) ∧
    (∀ w, s.pcPermit n va.toNat 4 false = .ok (.window w) →
      ((s.pcore n).flat = true → s.pcFaults n (.pcLoad pc .lw rd rs1 imm) 4 va.toNat) ∧
      (∀ p W, p = s.pcPhys n va.toNat (.window w) → (s.pcore n).flat = false → s.window p = some W → s.window (p + 3) = some W →
        windowOpen W p (s.pcRequester n) = true → windowOpen W (p + 3) (s.pcRequester n) = true → s.mode ≠ modeStandby →
        s.inHomed p = true → ∃ t x lines, exec (.pcLoad pc .lw rd rs1 imm) s = .next t ∧
          (t.pcore n).wait = some (.window x lines []) ∧ x.paddr = p ∧ x.bytes = 4 ∧ x.dest = .reg rd false ∧
          lineOf p ∈ lines ∧ lineOf (p + 3) ∈ lines ∧
          (∀ l ∈ lines, (s.clk + reqNs, Act.cmd (.readOnce (busReq (s.pcRequester n) l (s.pcStamp n)))) ∈ t.agenda) ∧
          (t.pcore n).p = (s.pcore n).p ∧ t = { s with pcores := t.pcores, agenda := t.agenda }))

/-- For every core that can execute plainly. LOOP and LOOPI with LCNT 0 and a length that is not 0 set LBEG to PC + 4, LEND to PC +
4 x length and LCNT to the count, and go on at LBEG, or at LEND + 4 with a count of 0 if that can be fetched from. An
instruction that completes at LEND goes back to LBEG with LCNT one less when LCNT is above 1, and on to LEND + 4 with LCNT 0
when it is 1, at no cost: shown for NOP, and every instruction uses the same rule. A taken branch whose target lies outside LBEG
to LEND clears LCNT. LOOP or LOOPI while LCNT is not 0 or with length 0, and a branch, jump, LOOP, LOOPI, WAITEV, TRET or STOP
at LEND of a counting loop, fault with cause LOOP. -/
def Obligations.Phase_core_loops : Prop :=
  ∀ (s : State) (pc : PcId), s.pcPlain pc.val = true →
    let n := pc.val
    let c := s.pcore n
    (∀ (i : Instr) (count length : Word32),
      ((∃ rs1 imm, i = .pcLoop pc rs1 imm ∧ count = s.preg n rs1 ∧ length = imm.signExtend 32) ∨
        (∃ k l, i = .pcLoopi pc k l ∧ count = k.zeroExtend 32 ∧ length = l.zeroExtend 32)) →
      let last := c.pc + 4 * length
      let set : PCore := { c with lbeg := c.pc + 4, lend := last, lcnt := count, busy := s.clk + 3, long := none, wait := none }
      (c.lcnt = 0 → length ≠ 0 → count ≠ 0 → s.pcGives n i { set with pc := c.pc + 4 }) ∧
      (c.lcnt = 0 → length ≠ 0 → count = 0 → pcFetchable (last + 4) = true → s.pcGives n i { set with pc := last + 4 }) ∧
      (c.lcnt ≠ 0 ∨ length = 0 → s.pcFaults n i 6 c.pc.toNat)) ∧
    (c.pc = c.lend → c.lcnt.toNat > 1 →
      s.pcGives n (.pcNop pc) { c with pc := c.lbeg, lcnt := c.lcnt - 1, busy := s.clk + 2, long := none, wait := none }) ∧
    (c.pc = c.lend → c.lcnt = 1 →
      s.pcGives n (.pcNop pc) { c with pc := c.lend + 4, lcnt := 0, busy := s.clk + 2, long := none, wait := none }) ∧
    (∀ (r : PReg) (off : BitVec 18), s.pcNotAtEnd n = true → pcFetchable (c.pc + 4 * off.signExtend 32) = true →
      let target := c.pc + 4 * off.signExtend 32
      s.pcGives n (.pcBranch pc .eq r r off) 
        { c with pc := target, busy := s.clk + 4, long := none, wait := none
                 lcnt := if c.lbeg ≤ target ∧ target ≤ c.lend then c.lcnt else 0 }) ∧
    (s.pcNotAtEnd n = false → ∀ i : Instr,
      ((∃ fn a b off, i = .pcBranch pc fn a b off) ∨ (∃ off, i = .pcJal pc off) ∨ (∃ a b imm, i = .pcJalr pc a b imm) ∨
        (∃ a imm, i = .pcLoop pc a imm) ∨ (∃ a b, i = .pcLoopi pc a b) ∨ (∃ rd m, i = .waitev pc rd m) ∨ i = .tret pc ∨ i = .pcStop pc) →
      s.pcFaults n i 6 c.pc.toNat)

/-- For every core that can execute plainly at a PC that does not end a counting loop. A branch whose condition holds goes to PC + 4
x offset after 4 clocks; one whose condition does not hold goes on behind itself after 3 clocks, 4 in flat-timed mode. JAL
writes PC + 4 to p15 and goes to PC + 4 x offset after 4 clocks, JALR writes PC + 4 to rd and goes to rs1 + imm, read before the
write, after 5. A target that cannot be fetched from faults with FETCH at the target and writes no register. A jump clears LCNT
when its target lies outside the loop. Nothing else changes. The unit of a branch offset is a word. -/
def Obligations.Phase_core_branches : Prop :=
  ∀ (s : State) (pc : PcId), s.pcPlain pc.val = true → s.pcNotAtEnd pc.val = true →
    let n := pc.val
    let c := s.pcore n
    let goes := fun (i : Instr) (target : Word32) (count : Nat) (p : Tab Word32) =>
      (pcFetchable target = true → s.pcGives n i 
        { c with p := p, pc := target, busy := s.clk + count, long := none, wait := none
                 lcnt := if c.lcnt ≠ 0 ∧ ¬ (c.lbeg ≤ target ∧ target ≤ c.lend) then 0 else c.lcnt }) ∧
      (pcFetchable target = false → s.pcFaults n i 2 target.toNat)
    (∀ (fn : BranchFn) (rs1 rs2 : PReg) (off : BitVec 18),
      let a := s.preg n rs1
      let b := s.preg n rs2
      let taken := match fn with
        | .eq => a = b | .ne => a ≠ b | .lt => a.toInt < b.toInt | .ge => b.toInt ≤ a.toInt
        | .ltu => a.toNat < b.toNat | .geu => b.toNat ≤ a.toNat
      (taken → goes (.pcBranch pc fn rs1 rs2 off) (c.pc + 4 * off.signExtend 32) 4 c.p) ∧
      (¬ taken → s.pcGives n (.pcBranch pc fn rs1 rs2 off) (s.pcAfter n (if c.flat then 4 else 3) c))) ∧
    (∀ off : BitVec 26, goes (.pcJal pc off) (c.pc + 4 * off.signExtend 32) 4 (tabSet 0 c.p 15 (c.pc + 4))) ∧
    (∀ (rd rs1 : PReg) (imm : BitVec 18),
      goes (.pcJalr pc rd rs1 imm) (s.preg n rs1 + imm.signExtend 32) 5 (tabSet 0 c.p rd.toNat (c.pc + 4)))

/-- For every core that can execute plainly (for WAITEV, TRET and STOP at a PC that does not end a counting loop). WAITEV with an
event in a masked input pops the oldest of the lowest such input: rd, PCC_EV_GT, CTASK and TDL take its values; without one it
gives 0xFFFFFFFF at once if imm[8] is 1, else the core is WAITING with its registers and PC kept. EVSEND sends its event, and
PINA its action with the core's EID, 3 clocks later. TRET restores the shadow and clears INPRE. STOP clears RUN, makes the core
HALTED, sets STOPPED and raises the core's source with STOP_IE. -/
def Obligations.Phase_core_events : Prop :=
  ∀ (s : State) (pc : PcId), s.pcPlain pc.val = true →
    let n := pc.val
    let c := s.pcore n
    (∀ (rd : PReg) (imm : BitVec 9), s.pcNotAtEnd n = true →
      (∀ (i : Nat) (e : PcEvent) (q : List PcEvent), c.ready (imm.setWidth 8) = some i → c.queue i = e :: q →
        (∀ d l, s.shedNow n i = d :: l → ∃ t, exec (.waitev pc rd imm) s = .next t ∧ (t.pcore n).queue i = eventInsert d q ∧
          t.rd (Reg.PCC_EV_GT n) = e.gt.toNat ∧ (t.pcore n).ctask = BitVec.ofNat 3 i ∧
          t.rf (Reg.PCC_TASK_STAT n i) 31 16 = s.rf (Reg.PCC_TASK_STAT n i) 31 16 - 1) ∧
        (s.shedNow n i = [] → ∃ t, exec (.waitev pc rd imm) s = .next t ∧ t.rd (Reg.PCC_EV_GT n) = e.gt.toNat ∧
          t.pcore n = s.pcAfter n 4
            { c with
              queues := tabSet [] c.queues i q
              ctask := BitVec.ofNat 3 i
              tdl := e.gt + BitVec.ofNat 64 (s.rf (Reg.PCC_TASK_CFG n i) 23 0)
              p := tabSet 0 c.p rd.toNat (BitVec.ofNat 32 (i * 2 ^ 16 + e.source.toNat)) } ∧
          t = { s with pcores := t.pcores, regs := t.regs } ∧ s.regsKept t [Reg.PCC_EV_GT n])) ∧
      (c.ready (imm.setWidth 8) = none → imm.getLsbD 8 = true → s.pcWrites n (.waitev pc rd imm) rd 4 0xFFFFFFFF) ∧
      (c.ready (imm.setWidth 8) = none → imm.getLsbD 8 = false → ∃ t, exec (.waitev pc rd imm) s = .next t ∧ t.pcState n = 2 ∧
        (t.pcore n).sleep = some (rd, imm.setWidth 8, none) ∧ (t.pcore n).pc = c.pc ∧ (t.pcore n).p = c.p ∧
        t = { s with pcores := t.pcores, regs := t.regs } ∧ s.regsKept t [Reg.PCC_STATUS n])) ∧
    (∀ (rs1 : PReg) (input : BitVec 3), ∃ t, exec (.evsend pc rs1 input) s = .next t ∧
      t.agenda = agendaInsert (s.clk + 3) (.evsend pc (Fin.ofNat 256 ((s.preg n rs1).toNat % 256)) input) s.agenda ∧
      t.pcore n = s.pcAfter n 3 c ∧ t = { s with pcores := t.pcores, agenda := t.agenda }) ∧
    (∀ (rs1 : PReg) (act : BitVec 2), ∃ t, exec (.pina pc rs1 act) s = .next t ∧
      t.agenda = agendaInsert (s.clk + 3) (.pina pc (Fin.ofNat 512 ((s.preg n rs1).toNat % 512)) act (BitVec.ofNat 6 (s.pcEid n))) s.agenda ∧
      t.pcore n = s.pcAfter n 3 c ∧ t = { s with pcores := t.pcores, agenda := t.agenda }) ∧
    (s.pcNotAtEnd n = true → ∃ t, exec (.tret pc) s = .next t ∧ t.rb (Reg.PCC_STATUS n) 3 = false ∧
      t.pcore n =
        { c with
          pc := c.shadow.pc, lcnt := c.shadow.lcnt, lbeg := c.shadow.lbeg, lend := c.shadow.lend
          ctask := c.shadow.ctask, tdl := c.shadow.tdl, flat := c.shadow.flat, busy := s.clk + 3, long := none, wait := none } ∧
      t = { s with pcores := t.pcores, regs := t.regs, agenda := t.agenda } ∧
      s.bitsKept t (Reg.PCC_STATUS n) 3 3 ∧ s.regsKept t [Reg.PCC_STATUS n]) ∧
    (s.pcNotAtEnd n = true → ∃ t, exec (.pcStop pc) s = .next t ∧ t.pcState n = 0 ∧ t.rb (Reg.PCC_CTRL n) 0 = false ∧
      t.rb (Reg.PCC_STATUS n) 10 = true ∧ (t.pcore n).pc = c.pc ∧ (t.pcore n).p = c.p ∧ (t.pcore n).queues = c.queues ∧
      (s.rb (Reg.PCC_CTRL n) 4 = true → t.rb (Reg.IRT_SRC_CFG (pcSource n)) 2 = true) ∧
      t = { s with pcores := t.pcores, regs := t.regs, agenda := t.agenda } ∧
      s.regsKept t [Reg.PCC_STATUS n, Reg.PCC_CTRL n, Reg.IRT_SRC_CFG (pcSource n)])

/-- For every core that can execute plainly. PTLD into an even pair waits for the point and presents a request to ARB_PT 2 clocks
later, and faults with FLAT in flat-timed mode. PTST and DBELL join the post queue of four with the stamp and EID taken at
issue; when it is full they fault with FLAT in flat-timed mode and otherwise wait for room. RDGT writes GT to an even pair,
SETDL sets TDL from an even pair, ADDDL to GT + rs1; SETTM leaves two further instructions under the old mode. An odd pair, and
a word that the decoder of the phase cores' words refuses, fault with ILLEGAL at the PC. -/
def Obligations.Phase_core_points_and_time : Prop :=
  ∀ (s : State) (pc : PcId) (rs1 r : PReg), s.pcPlain pc.val = true →
    let n := pc.val
    let c := s.pcore n
    let pt := (s.preg n rs1).toNat % 2 ^ 17
    let posts := fun (i : Instr) (e : PostEntry) =>
      (c.post.length < 4 → ∃ t, exec i s = .next t ∧ t.pcore n = s.pcAfter n 3 { c with post := c.post ++ [e] } ∧
        t.agenda = agendaInsert (s.clk + 1) (.cmd (.postQueueDrain pc)) s.agenda ∧
        t = { s with pcores := t.pcores, agenda := t.agenda }) ∧
      (4 ≤ c.post.length → c.flat = true → s.pcFaults n i 4 e.target) ∧
      (4 ≤ c.post.length → c.flat = false → s.pcGives n i { c with wait := some (.post e), long := none })
    (∀ status : Bool,
      (pairOdd r = true → s.pcFaults n (.ptld pc status r rs1) 1 c.pc.toNat) ∧
      (pairOdd r = false → c.flat = true → s.pcFaults n (.ptld pc status r rs1) 4 pt) ∧
      (pairOdd r = false → c.flat = false → ∃ t, exec (.ptld pc status r rs1) s = .next t ∧
        t.pcore n = { c with wait := some (.point pt (.pair r)), long := none } ∧
        t.agenda = agendaInsert (s.clk + 2) (.cmd (.arbRequest 12
          { port := n / 64, stamp := s.pcStamp n, key := BitVec.ofNat 46 pt, bytes := 16, tag := s.nextTag })) s.agenda ∧
        t = { s with pcores := t.pcores, agenda := t.agenda, work := t.work, nextTag := s.nextTag + 1 })) ∧
    (pairOdd r = true → s.pcFaults n (.ptst pc rs1 r) 1 c.pc.toNat) ∧
    (pairOdd r = false → posts (.ptst pc rs1 r)
      { point := true, target := pt, value := s.ppair n r, stamp := s.pcStamp n, eid := BitVec.ofNat 6 (s.pcEid n) }) ∧
    posts (.dbell pc rs1 r)
      { point := false, target := (s.preg n rs1).toNat % 2 ^ 18, value := (s.preg n r).zeroExtend 64, stamp := s.pcStamp n
        eid := BitVec.ofNat 6 (s.pcEid n) } ∧
    (pairOdd r = true → s.pcFaults n (.pcRdgt pc r) 1 c.pc.toNat) ∧
    (pairOdd r = false → s.pcGives n (.pcRdgt pc r) (s.pcAfter n 3 { c with
      p := tabSet 0 (tabSet 0 c.p r.toNat (BitVec.ofNat 32 s.now)) (r + 1).toNat (BitVec.ofNat 32 (s.now / 2 ^ 32)) })) ∧
    s.pcGives n (.setdl pc true r) (s.pcAfter n 3 { c with tdl := s.gt.now + (s.preg n r).zeroExtend 64 }) ∧
    (pairOdd r = true → s.pcFaults n (.setdl pc false r) 1 c.pc.toNat) ∧
    (pairOdd r = false → s.pcGives n (.setdl pc false r) (s.pcAfter n 3 { c with tdl := s.ppair n r })) ∧
    (∀ mode : Bool, s.pcGives n (.settm pc mode) (s.pcAfter n 3 { c with flatNext := some (2, mode) })) ∧
    (∀ word : Word32, decodePcWord pc word = none → s.pcFaults n (.pcIllegalInstruction pc word) 1 c.pc.toNat)

/-- For every core and state. An event joins its input behind earlier ones, events of one clock in order of source; a ninth drops
the last, with OVF and DROPS counted and saturating; no other input changes. A sleeping WAITEV whose 4 clocks have passed pops
the oldest event of its lowest masked input and the core is RUNNING; where an event was dropped there in the same clock, the
pop, which comes first, makes room for it. Preemption entry with nothing in progress saves the shadow, and undoes a division
that R122 abandons. An outside access of local memory reads or writes exactly its bytes. The oldest post-queue entry is
presented: a point write once, to ARB_PT with the stamp of its issue, a doorbell leaving the queue at once (assumption 32). -/
def Obligations.Phase_core_task_inputs : Prop :=
  ∀ (s : State) (pc : PcId),
    let n := pc.val
    let c := s.pcore n
    (∀ (input : BitVec 3) (source : BitVec 11) (gt : Word64),
      let q := eventInsert { source := source, gt := gt, clk := s.clk } (c.queue input.toNat)
      let st := Reg.PCC_TASK_STAT n input.toNat
      ∃ t, exec (.taskEvent pc input source gt) s = .next t ∧ (t.pcore n).queue input.toNat = q.take 8 ∧
        (∀ k, k ≠ input.toNat → (t.pcore n).queue k = c.queue k) ∧ (q.length ≤ 8 → t.rd st = s.rd st) ∧
        (8 < q.length → t.rb st 4 = true ∧ t.rf st 31 16 = min 65535 (s.rf st 31 16 + 1)) ∧
        t.mem = s.mem ∧ t.gt = s.gt ∧ (∀ k, k ≠ n → t.pcore k = s.pcore k)) ∧
    (∀ (rd : PReg) (mask : BitVec 8) (due i : Nat) (e : PcEvent) (q : List PcEvent), c.sleep = some (rd, mask, some due) →
      s.pcState n = 2 → due ≤ s.clk → s.modes.refclk = true → c.ready mask = some i → c.queue i = e :: q →
      ∃ t, exec (.waitevWake pc) s = .next t ∧ t.pcState n = 1 ∧ t.rd (Reg.PCC_EV_GT n) = e.gt.toNat ∧ (t.pcore n).sleep = none ∧
        (t.pcore n).ctask = BitVec.ofNat 3 i ∧
        (s.shedNow n i = [] → (t.pcore n).queue i = q ∧ s.regsKept t [Reg.PCC_EV_GT n, Reg.PCC_STATUS n]) ∧
        (∀ d l, s.shedNow n i = d :: l → (t.pcore n).queue i = eventInsert d q ∧ t.rf (Reg.PCC_TASK_STAT n i) 31 16 =
          s.rf (Reg.PCC_TASK_STAT n i) 31 16 - 1 ∧ s.regsKept t [Reg.PCC_EV_GT n, Reg.PCC_STATUS n, Reg.PCC_TASK_STAT n i]) ∧
        (t.pcore n).tdl = e.gt + BitVec.ofNat 64 (s.rf (Reg.PCC_TASK_CFG n i) 23 0) ∧
        (t.pcore n).p = tabSet 0 c.p rd.toNat (BitVec.ofNat 32 (i * 2 ^ 16 + e.source.toNat)) ∧
        (t.pcore n).pc = (c.follow none).1 ∧ t.mem = s.mem) ∧
    ((s.pcState n = 1 ∨ s.pcState n = 2) → s.preemptAsked n = true → s.pcInFlight n = false → c.flatNext = none →
      ∃ t, exec (.preemptionEntry pc) s = .next t ∧ t.pcState n = 1 ∧ t.rb (Reg.PCC_STATUS n) 3 = true ∧
        (t.pcore n).pc = BitVec.ofNat 32 (s.rd (Reg.PCC_PRE_VEC n)) ∧ (t.pcore n).lcnt = 0 ∧ (t.pcore n).busy = s.clk + 4 ∧
        (t.pcore n).acc0 = c.acc0 ∧ (t.pcore n).acc1 = c.acc1 ∧ (t.pcore n).sleep = none ∧
        (c.long = none → t.rd (Reg.PCC_PRE_PC n) = c.pc.toNat ∧ (t.pcore n).p = c.p ∧ (t.pcore n).shadow.pc = c.pc ∧
          (t.pcore n).shadow.lcnt = c.lcnt) ∧
        (∀ l, c.long = some l → s.clk < l.until_ → t.rd (Reg.PCC_PRE_PC n) = l.pc.toNat ∧ (t.pcore n).p = tabSet 0 c.p l.rd.toNat l.old ∧
          (t.pcore n).shadow.pc = l.pc ∧ (t.pcore n).shadow.lcnt = l.lcnt) ∧
        t = { s with pcores := t.pcores, regs := t.regs } ∧ s.regsKept t [Reg.PCC_STATUS n, Reg.PCC_PRE_PC n]) ∧
    (∀ (who : Requester) (off : BitVec 16) (size : BitVec 2),
      let bytes := 2 ^ size.toNat
      let a := localAddr n off.toNat
      (s.badLocal n off.toNat bytes true = none →
        exec (.localMemoryAccess pc who off size none) s = .next { s with lastRead := BitVec.ofNat 64 (s.bytes a bytes) }) ∧
      (∀ v : Word64, s.badLocal n off.toNat bytes false = none → ∃ t, exec (.localMemoryAccess pc who off size (some v)) s = .next t ∧
        (∀ j < bytes, (t.byte (a + j)).toNat = v.toNat / 2 ^ (8 * j) % 256) ∧
        (∀ x, x < a ∨ a + bytes ≤ x → t.byte x = s.byte x) ∧ t = { s with mem := t.mem, poison := t.poison })) ∧
    (∀ (e : PostEntry) (rest : List PostEntry), c.post = e :: rest → c.posting = false →
      (e.point = true → ∃ t, exec (.postQueueDrain pc) s = .next t ∧ (t.pcore n).post = e :: rest ∧ (t.pcore n).posting = true ∧
        t.agenda = agendaInsert s.clk (.cmd (.arbRequest 12
          { port := n / 64, stamp := e.stamp, key := BitVec.ofNat 46 e.target, bytes := 16, tag := s.nextTag })) s.agenda ∧
        t = { s with pcores := t.pcores, agenda := t.agenda, work := t.work, nextTag := s.nextTag + 1 }) ∧
      (e.point = false → c.wait = none → ∃ t, exec (.postQueueDrain pc) s = .next t ∧ (t.pcore n).post = rest ∧
        (s.clk, Act.cmd (.doorbell (Fin.ofNat 262144 e.target) (e.who n) e.value e.stamp)) ∈ t.agenda ∧
        t = { s with pcores := t.pcores, agenda := t.agenda }))

/-- For every core whose PCC_CTRL is not locked and does not hold CORE_RST. RUN set on a HALTED or FAULTED core that is not lost
clears CAUSE, INPRE and LCNT, and the core is RUNNING at PCC_ENTRY 4 clocks later with its p registers, accumulators and events
kept. RUN cleared on a RUNNING or WAITING core with nothing in progress makes it HALTED at its PC. TMODE takes effect at once on
a HALTED or FAULTED core and else after two instructions. CORE_RST loads every PCC register and the core's own state with reset
values and keeps memory. EV_POST posts an event of source 2,047 with GT. PCC_EID and the windows are written only while HALTED
or FAULTED, else CFG_BUSY is set, and PCC_EID only at PL3. -/
def Obligations.Phase_core_start_stop_and_reset : Prop :=
  ∀ (s : State) (pc : PcId) (who : Requester),
    let n := pc.val
    let c := s.pcore n
    let ctrl := Reg.PCC_CTRL n
    (s.unlockedAt ctrl = true → s.rb ctrl 2 = false →
      (s.rb ctrl 0 = false → (s.pcState n = 0 ∨ s.pcState n = 3) → s.modes.lostPcs.contains n = false →
        ∃ t, exec (.runStart pc who) s = .next t ∧ t.rb ctrl 0 = true ∧ t.pcState n = 1 ∧ t.rd (Reg.PCC_FAULT n) = 0 ∧
          t.rb (Reg.PCC_STATUS n) 3 = false ∧ (t.pcore n).pc = BitVec.ofNat 32 (s.rd (Reg.PCC_ENTRY n)) ∧ (t.pcore n).lcnt = 0 ∧
          (t.pcore n).busy = s.clk + 4 ∧ (t.pcore n).p = c.p ∧ (t.pcore n).acc0 = c.acc0 ∧ (t.pcore n).acc1 = c.acc1 ∧
          (t.pcore n).queues = c.queues ∧ t = { s with pcores := t.pcores, regs := t.regs } ∧
          s.regsKept t [ctrl, Reg.PCC_STATUS n, Reg.PCC_FAULT n, Reg.DBG_PC_STATUS n]) ∧
      (s.rb ctrl 0 = true → (s.pcState n = 1 ∨ s.pcState n = 2) → s.pcInFlight n = false → c.long = none → c.halting = none →
        ∃ t, exec (.runStop pc who) s = .next t ∧ t.rb ctrl 0 = false ∧ t.pcState n = 0 ∧ (t.pcore n).pc = c.pc ∧
          (t.pcore n).p = c.p ∧ (t.pcore n).sleep = none ∧ t = { s with pcores := t.pcores, regs := t.regs } ∧
          s.regsKept t [ctrl, Reg.PCC_STATUS n]) ∧
      (∀ mode : Bool, s.rb ctrl 1 ≠ mode → ∃ t, exec (.tmode pc who mode) s = .next t ∧ t.rb ctrl 1 = mode ∧
        ((s.pcState n = 0 ∨ s.pcState n = 3) → t.pcore n = { c with flat := mode, flatNext := none }) ∧
        (¬ (s.pcState n = 0 ∨ s.pcState n = 3) →
          t.pcore n = { c with flatNext := some (if c.sleep.isSome || c.wait.isSome then 3 else 2, mode) }) ∧
        t = { s with pcores := t.pcores, regs := t.regs } ∧ s.regsKept t [ctrl])) ∧
    (∃ t, exec (.coreRst pc who) s = .next t ∧ t.pcore n = {} ∧ (∀ k, k ≠ n → t.pcore k = s.pcore k) ∧
      (∀ a, ctrl ≤ a → a < Reg.PCC_CTRL (n + 1) → t.rd a = (regReset a).toNat) ∧
      (∀ a, a < ctrl ∨ Reg.PCC_CTRL (n + 1) ≤ a → t.rd a = s.rd a) ∧
      t = { s with pcores := t.pcores, regs := t.regs, agenda := t.agenda }) ∧
    (∀ input : BitVec 3, exec (.pccEvPost pc who input) s =
      .next { s with agenda := agendaInsert s.clk (.cmd (.taskEvent pc input 2047 s.gt.now)) s.agenda }) ∧
    (∀ (r : PccGuarded) (v : Word64),
      ((s.pcState n = 1 ∨ s.pcState n = 2) → ∃ t, exec (.pccEid pc who r v) s = .next t ∧ t.rb (Reg.PCC_STATUS n) 8 = true ∧
        s.bitsKept t (Reg.PCC_STATUS n) 8 8 ∧ t = { s with regs := t.regs } ∧ s.regsKept t [Reg.PCC_STATUS n]) ∧
      ((s.pcState n = 0 ∨ s.pcState n = 3) →
        (r = .eid → who.pl ≠ 3 → exec (.pccEid pc who r v) s = .next s) ∧
        (r ≠ .eid ∨ who.pl = 3 → exec (.pccEid pc who r v) s = .next (s.storeReg (guardedAddr n r) v.toNat))))

/-- For every arbiter and request at one of its ports. With 64 entries in use the tray stays, the request is held and BACKPRESSURE
is set. Otherwise, at a port without HINT mode, the request joins the tray behind the others with its slack against GT_DLS and
no beat done, TRAY_USED shows the entries, and a grant follows, 2 clocks later or at the next beat slot after that. In HINT mode
a request that would not be granted in clock k + 2 is refused: the tray stays and the hint carries GT plus the time of the beats
that rank ahead. No other arbiter changes, and of the registers only this arbiter's status, its port's status and its counter
bank. A port that the arbiter does not have drops the request (assumption 9). -/
def Obligations.Arbiter_accepts_or_holds : Prop :=
  ∀ (s : State) (a : ArbId) (r : ArbReq),
    let n := a.val
    let x := s.arb n
    let st := Reg.ARB_STATUS n
    let frame := fun t : State => (∀ b, b ≠ n → t.arb b = s.arb b) ∧ t = { s with regs := t.regs, arbs := t.arbs, agenda := t.agenda } ∧
      s.regsKept t (st :: Reg.ARB_PORT_STAT n r.port :: bankRegs (Reg.ARB_CTRL n))
    let e : ArbEntry := { id := x.nextId, req := r, slack := max (-(2 ^ 30)) (r.stamp - stampOf s.now).toInt, dls := s.now / 4, done := 0
                          since := s.clk, fresh := true }
    (arbPorts n ≤ r.port → exec (.arbRequest a r) s = .next (s.dropWork r.tag)) ∧
    (r.port < arbPorts n → 64 ≤ x.tray.length → ∃ t, exec (.arbRequest a r) s = .next t ∧ (t.arb n).tray = x.tray ∧
      (t.arb n).held = x.held ++ [e] ∧ t.rb st 2 = true ∧ frame t) ∧
    (r.port < arbPorts n → x.tray.length < 64 → (s.hintMode n r.port = false ∨ s.grantedNext n e = true) →
      ∃ t, exec (.arbRequest a r) s = .next t ∧ (t.arb n).tray = x.tray ++ [e] ∧ (t.arb n).held = x.held ∧
        t.rf st 22 16 = x.tray.length + 1 ∧ (t.arb n).armed = true ∧
        (x.armed = false → t.sends s (max 2 (s.slotWait n)) (.arbGrant a)) ∧ frame t) ∧
    (r.port < arbPorts n → x.tray.length < 64 → s.hintMode n r.port = true → s.grantedNext n e = false →
      ∃ t, exec (.arbRequest a r) s = .next t ∧ t.arbs = s.arbs ∧
        (s.clk, Act.hinted a r.tag (BitVec.ofNat 64 (s.now + (s.beatsAhead n e * beatPs n + 999) / 1000))) ∈ t.agenda ∧ frame t)

/-- For every arbiter. While it is frozen or may take nothing in, or before the next beat slot, ARB_GRANT grants nothing: no entry
changes, and only the arbiter's status follows. With no grant in progress, the entry that takes the beat is one that was
presented at least 2 clocks ago, before which no such entry of the tray ranks that does not wait behind an earlier one for its
line; rank is slack, then port, then arrival. At a beat slot of an arbiter other than ARB_MC, with nothing held, the entry that
takes its last beat leaves the tray, its work follows, ARB_GRANT_COUNT counts the beat, and a slack below 0 counts a miss and
raises ARB_MAX_LATE; an entry with beats left stays with one more done and keeps the grant. No memory byte and no other arbiter
changes. For an arbiter whose ARB_CTRL does not read MISS_CLR. A write of FREEZE leaves the tray and the other control bits, a
frozen arbiter keeps the rest of its grant in the tray as though preempted, FROZEN is set once no beat is in progress, and IDLE
exactly when FROZEN is and nothing is outstanding beyond the arbiter. A write of MISS_CLR as 1 makes ARB_MISS_COUNT,
ARB_MAX_LATE and the MISSES of every port 0; as 0 it leaves them. ARB_CTRL[2:0] stays, and no memory and no other arbiter
changes. -/
def Obligations.Arbiter_grants_by_rank : Prop :=
  (∀ (s : State) (a : ArbId), (s.rb (Reg.ARB_CTRL a.val) 0 = true ∨ s.mayAdmit a.val = false ∨ s.slotDue a.val = false) →
    ∃ t, exec (.arbGrant a) s = .next t ∧ (t.arb a.val).tray = (s.arb a.val).tray ∧ (t.arb a.val).held = (s.arb a.val).held ∧
      (t.arb a.val).granted = (s.arb a.val).granted ∧ (t.arb a.val).slot = (s.arb a.val).slot ∧
      (∀ b, b ≠ a.val → t.arb b = s.arb b) ∧ t = { s with regs := t.regs, arbs := t.arbs, agenda := t.agenda } ∧
      s.regsKept t [Reg.ARB_STATUS a.val] ∧
      (s.rb (Reg.ARB_CTRL a.val) 0 = true → t.agenda = s.agenda ∧ t.rb (Reg.ARB_STATUS a.val) 1 = s.arbFrozen a.val)) ∧
  (∀ (s : State) (n : Nat) (e y : ArbEntry), (s.arb n).granted = none → s.nextBeat n = some e → y ∈ (s.arb n).tray →
    y.since + 2 ≤ s.clk → (∀ z ∈ (s.arb n).tray, z.since + 2 ≤ s.clk → z.id < y.id → sameTarget n y z = false) →
    e ∈ (s.arb n).tray ∧ e.since + 2 ≤ s.clk ∧ s.ranksBefore n (s.ranked n) y e = false) ∧
  (∀ (s : State) (a : ArbId) (e : ArbEntry), 8 ≤ a.val → s.rb (Reg.ARB_CTRL a.val) 0 = false → (s.arb a.val).held = [] →
    s.slotDue a.val = true → s.nextBeat a.val = some e →
    let n := a.val
    let x := s.arb n
    let seen := fun (y : ArbEntry) => { y with fresh := y.fresh && decide (s.clk < y.since + 2) }
    ∃ t, exec (.arbGrant a) s = .next t ∧
      t.rd (Reg.ARB_GRANT_COUNT n) = (s.rd (Reg.ARB_GRANT_COUNT n) + 1) % 2 ^ 64 ∧
      (e.done + 1 < arbBeats n e.req → (t.arb n).granted = some e.id ∧
        (t.arb n).tray = x.tray.map (fun y => { seen y with done := if y.id = e.id then y.done + 1 else y.done })) ∧
      (arbBeats n e.req ≤ e.done + 1 → (t.arb n).granted = none ∧
        (t.arb n).tray = (x.tray.filter fun y => y.id != e.id).map seen ∧
        (s.clk, Act.granted a e.req.tag) ∈ t.agenda ∧
        (s.slack e < 0 → t.rd (Reg.ARB_MISS_COUNT n) = min (2 ^ 32 - 1) (s.rd (Reg.ARB_MISS_COUNT n) + 1) ∧
          t.rd (Reg.ARB_MAX_LATE n) = max (s.rd (Reg.ARB_MAX_LATE n)) (-s.slack e).toNat) ∧
        (0 ≤ s.slack e → t.rd (Reg.ARB_MISS_COUNT n) = s.rd (Reg.ARB_MISS_COUNT n) ∧
          t.rd (Reg.ARB_MAX_LATE n) = s.rd (Reg.ARB_MAX_LATE n))) ∧
      (∀ b, b ≠ n → t.arb b = s.arb b) ∧ t.mem = s.mem ∧ t.gt = s.gt) ∧
  (∀ (s : State) (a : ArbId) (who : Requester) (v : Word32), s.rb (Reg.ARB_CTRL a.val) 3 = false →
    let n := a.val
    let ctrl := Reg.ARB_CTRL n
    (∃ t, exec (.arbFreeze a who v) s = .next t ∧ t.rb ctrl 0 = v.getLsbD 0 ∧ t.rb ctrl 1 = s.rb ctrl 1 ∧ t.rb ctrl 2 = s.rb ctrl 2 ∧
      t.rb (Reg.ARB_STATUS n) 1 = (v.getLsbD 0 && decide ((s.arb n).slot ≤ s.clk * 1000)) ∧
      t.rb (Reg.ARB_STATUS n) 0 = (v.getLsbD 0 && decide ((s.arb n).slot ≤ s.clk * 1000) && !s.beyond n) ∧
      (t.arb n).tray = (s.arb n).tray ∧ (t.arb n).granted = (if v.getLsbD 0 then none else (s.arb n).granted) ∧ t = { s with regs := t.regs, arbs := t.arbs, agenda := t.agenda } ∧
      s.regsKept t [ctrl, Reg.ARB_STATUS n]) ∧
    (∃ t, exec (.missClr a who v) s = .next t ∧
      (v.getLsbD 3 = true → t.rd (Reg.ARB_MISS_COUNT n) = 0 ∧ t.rd (Reg.ARB_MAX_LATE n) = 0 ∧
        (∀ p < arbPorts n, t.rf (Reg.ARB_PORT_STAT n p) 31 16 = 0)) ∧
      (v.getLsbD 3 = false → s.regsKept t [ctrl, Reg.ARB_STATUS n]) ∧
      t.rf ctrl 2 0 = s.rf ctrl 2 0 ∧ (t.arb n).tray = (s.arb n).tray ∧
      t = { s with regs := t.regs, arbs := t.arbs, agenda := t.agenda } ∧ (∀ b, b ≠ n → t.arb b = s.arb b)))

/-- For every controller and subchannel. In a blackout, in self-refresh or before its slot nothing issues. Otherwise, with no read
to be answered from a queued write, the chosen entry's next command issues, no other issues in that slot: a precharge closes its
bank's row, an activate opens its row, both making the bank ready 17 ns later; a whole-line write leaves the queue; a read of a
line without error keeps its place until its data is handed on at the later of 78 ns after admission and 20 ns after this slot.
An entry whose hand-over has come leaves the queue. The idle timer closes a row that no entry needs, once its time has passed,
and leaves one that is needed. Times are rounded up to clocks of 1 ns (assumption 34). -/
def Obligations.Dram_command_slots : Prop :=
  (∀ (s : State) (mc : McId) (sub : Bool), ((s.mc mc.val).blackout = true ∨ s.rb (Reg.MC_STATUS mc.val) 1 = true ∨
      s.clk < tabGet 0 (s.mc mc.val).slot (b2n sub)) →
    ∃ t, exec (.mcCommandIssue mc sub []) s = .next t ∧ t = { s with agenda := t.agenda }) ∧
  (∀ (s : State) (mc : McId) (sub : Bool) (e : DramEntry), (s.mc mc.val).blackout = false → s.rb (Reg.MC_STATUS mc.val) 1 = false →
    tabGet 0 (s.mc mc.val).slot (b2n sub) ≤ s.clk → (s.mc mc.val).forward (b2n sub) = none →
    (s.mc mc.val).choose s.clk (b2n sub) = some e → s.poisoned e.addr = false →
    let n := mc.val
    let m := s.mc n
    ∃ t, exec (.mcCommandIssue mc sub []) s = .next t ∧ t.mem = s.mem ∧ (∀ k, k ≠ n → t.mc k = s.mc k) ∧
      tabGet 0 (t.mc n).slot (b2n sub) = s.clk + 1 ∧
      (m.nextCmd e = .precharge → tabGet 0 (t.mc n).rows e.key = 0 ∧ tabGet 0 (t.mc n).ready e.key = s.clk + 17 ∧ (t.mc n).queue = m.queue) ∧
      (m.nextCmd e = .activate → tabGet 0 (t.mc n).rows e.key = e.row + 1 ∧ tabGet 0 (t.mc n).ready e.key = s.clk + 17 ∧
        (t.mc n).queue = m.queue) ∧
      (m.nextCmd e = .column → e.kind = .write → (t.mc n).queue = m.queue.filter fun x => x.tag != e.tag) ∧
      (m.nextCmd e = .column → e.kind = .read →
        (t.mc n).queue = m.queue.map (fun x => if x.tag = e.tag then { x with hand := some (max (e.since + 78) (s.clk + 20)) } else x) ∧
        t.sends s (max (e.since + 78) (s.clk + 20) - s.clk) (.readDataHandoff mc))) ∧
  (∀ (s : State) (mc : McId) (e : DramEntry),
    ((s.mc mc.val).queue.find? fun x => match x.hand with | some t => decide (t ≤ s.clk) | none => false) = some e →
    ∃ t, exec (.readDataHandoff mc) s = .next t ∧ (t.mc mc.val).queue = (s.mc mc.val).queue.filter fun x => x.tag != e.tag) ∧
  (∀ (s : State) (mc : McId) (sub rank : Bool) (bank : BitVec 5),
    let m := s.mc mc.val
    let key := b2n sub * 64 + b2n rank * 32 + bank.toNat
    let row := tabGet 0 m.rows key
    let needed := m.queue.any fun x => x.waits && decide (x.key = key) && decide (x.row + 1 = row)
    let ns := (s.rf (Reg.MC_CTRL mc.val) 9 0 * (match s.rf (Reg.MC_CFG mc.val) 1 0 with | 0 => 417 | 1 => 358 | _ => 313) + 999) / 1000
    (needed = true → exec (.idleTimer mc sub rank bank) s = .next s) ∧
    (needed = false → tabGet 0 m.lastCol key + ns ≤ s.clk → row ≠ 0 → ∃ t, exec (.idleTimer mc sub rank bank) s = .next t ∧
      tabGet 0 (t.mc mc.val).rows key = 0 ∧ (∀ k, k ≠ key → tabGet 0 (t.mc mc.val).rows k = tabGet 0 m.rows k) ∧
      (t.mc mc.val).queue = m.queue ∧ t = { s with mcs := t.mcs } ∧ (∀ k, k ≠ mc.val → t.mc k = s.mc k)))

/-- For every controller with blackouts running, outside a blackout and self-refresh. BLACKOUT_START begins one: every row is
closed, MC_BLACKOUT_NEXT and ARB_BLACKOUT_NEXT give GT plus 3,900 ns, or 1,950 ns at the doubled rate, the count is one more,
its end is due after 315 ns with 16 Gbit devices and 430 ns otherwise, and the next start at the interval. With self-refresh
asked for and an empty queue it is entered instead: the status shows it, the channel is not ready, no start is published, and a
delay set or erasures that waited for a blackout wait no more (assumption 127). BLACKOUT_END ends a blackout and lets commands
issue at once, and changes no register but the arbiter's state. -/
def Obligations.Refresh_blackouts : Prop :=
  (∀ (s : State) (mc : McId) (b : Nat), (s.mc mc.val).blackout = false → (s.mc mc.val).next = some b → s.rb (Reg.MC_STATUS mc.val) 1 = false →
    let n := mc.val
    let m := s.mc n
    let T := if s.rb (Reg.MC_STATUS n) 2 then 1950 else 3900
    let len := if s.rf (Reg.MC_CFG 0) 3 2 = 0 then 315 else 430
    (¬ (m.toSelfRefresh = true ∧ m.queue = []) → ∃ t, exec (.blackoutStart mc) s = .next t ∧ (t.mc n).blackout = true ∧ (t.mc n).rows = [] ∧
      (t.mc n).next = some (s.clk + T) ∧ t.rd (Reg.MC_BLACKOUT_NEXT n) = (s.now + T) % 2 ^ 64 ∧
      t.rd (Reg.ARB_BLACKOUT_NEXT n) = (s.now + T) % 2 ^ 64 ∧
      t.rd (Reg.MC_BLACKOUT_COUNT n) = (s.rd (Reg.MC_BLACKOUT_COUNT n) + 1) % 2 ^ 64 ∧
      t.sends s len (.blackoutEnd mc) ∧ t.sends s T (.blackoutStart mc) ∧ (t.mc n).queue = m.queue ∧ t.mem = s.mem) ∧
    (m.toSelfRefresh = true → m.queue = [] → ∃ t, exec (.blackoutStart mc) s = .next t ∧ t.rb (Reg.MC_STATUS n) 1 = true ∧
      t.rb (Reg.MC_STATUS n) 0 = false ∧ (t.mc n).next = none ∧ (t.mc n).blackout = false ∧
      t.rd (Reg.MC_BLACKOUT_NEXT n) = 2 ^ 64 - 1 ∧ t.rb (Reg.MC_STATUS n) 5 = false ∧ (t.mc n).erasing = [] ∧
      (m.erasing = [] → s.rb (Reg.MC_STATUS n) 5 = false → t = { s with regs := t.regs, mcs := t.mcs }))) ∧
  (∀ (s : State) (mc : McId), (s.mc mc.val).blackout = true → ∃ t, exec (.blackoutEnd mc) s = .next t ∧
    (t.mc mc.val).blackout = false ∧ (t.mc mc.val).queue = (s.mc mc.val).queue ∧ t.sends s 0 (.mcCommandIssue mc false []) ∧
    t.sends s 0 (.mcCommandIssue mc true []) ∧ t = { s with mcs := t.mcs, arbs := t.arbs, agenda := t.agenda })

/-- For every controller. Entries whose column command has waited longer than MC_AGE_LIMIT take class 0 and are counted, and no
other entry changes. A channel that is not in service is not polled, and a poll in a blackout follows at its end. Any other poll
shows the greatest rate code and whether any device needs more than the 1x rate in MC_TEMP, keeps both subchannels from issuing
for 24 ns, and if one needs it and the rate is not doubled, doubles it on all eight channels. A scrub visit on a configured
channel with a period schedules the next, and presents the next line of the channel at port 64 unless one still waits. Which
codes require more than 1x is left to the silicon. -/
def Obligations.Ageing_temperature_and_scrub : Prop :=
  (∀ (s : State) (mc : McId),
    let n := mc.val
    let limit := 4 * max 1 (s.rf (Reg.MC_AGE_LIMIT n) 15 0)
    let old := fun (e : DramEntry) => e.waits && decide (e.cls ≠ 0) && decide (s.clk > e.since + limit)
    ∃ t, exec (.agePromotion mc) s = .next t ∧
      (t.mc n).queue = (s.mc n).queue.map (fun e => if old e then { e with cls := 0 } else e) ∧
      t.rd (Reg.MC_PROMOTE_COUNT n) = (if (s.mc n).queue.filter old = [] then s.rd (Reg.MC_PROMOTE_COUNT n)
        else min (2 ^ 32 - 1) (s.rd (Reg.MC_PROMOTE_COUNT n) + ((s.mc n).queue.filter old).length)) ∧
      (∀ k, k ≠ n → t.mc k = s.mc k) ∧ t = { s with regs := t.regs, mcs := t.mcs, agenda := t.agenda } ∧
      s.regsKept t (Reg.MC_STATUS n :: Reg.MC_PROMOTE_COUNT n :: bankRegs (Reg.MC_CFG n))) ∧
  (∀ (s : State) (mc : McId) (codes : List (BitVec 3)),
    let n := mc.val
    let hot := codes.any Config.mr4Hot
    (s.rb (Reg.MC_STATUS n) 0 = false → exec (.mr4Poll mc codes) s = .next s) ∧
    (s.rb (Reg.MC_STATUS n) 0 = true → (s.mc n).blackout = true → ∃ t, exec (.mr4Poll mc codes) s = .next t ∧
      t.sends s (s.blackoutLeft n) (.mr4Poll mc codes) ∧ t = { s with agenda := t.agenda }) ∧
    (s.rb (Reg.MC_STATUS n) 0 = true → (s.mc n).blackout = false → ∃ t, exec (.mr4Poll mc codes) s = .next t ∧ t.rf (Reg.MC_TEMP n) 2 0 = (codes.map (·.toNat)).foldl max 0 ∧ t.rb (Reg.MC_TEMP n) 3 = hot ∧
      tabGet 0 (t.mc n).slot 0 = s.clk + 24 ∧ tabGet 0 (t.mc n).slot 1 = s.clk + 24 ∧ (t.mc n).queue = (s.mc n).queue ∧
      (hot = true → s.rb (Reg.MC_STATUS n) 2 = false → ∀ k < 8, t.rb (Reg.MC_STATUS k) 2 = true) ∧
      (hot = true → s.rb (Reg.MC_STATUS n) 2 = true → t.rb (Reg.MC_STATUS n) 2 = true) ∧ t.mem = s.mem ∧ t.gt = s.gt)) ∧
  (∀ (s : State) (mc : McId), (s.mc mc.val).scrubHours ≠ 0 → s.channelLines ≠ 0 → s.rb (Reg.MC_STATUS mc.val) 0 = true →
    let n := mc.val
    let m := s.mc n
    let line := s.channelLine n (m.scrubLine % s.channelLines)
    ∃ t, exec (.scrubVisit mc) s = .next t ∧ t.sends s (m.scrubHours * 3600000000000 / s.channelLines) (.scrubVisit mc) ∧
      (s.work = [] → (t.mc n).scrubLine = (m.scrubLine + 1) % s.channelLines ∧ t.workOf s.nextTag = some (.scrub line) ∧
        ∃ r : ArbReq, t.sends s 1 (.arbRequest (Fin.ofNat 14 n) r) ∧ r.port = 64 ∧ r.tag = s.nextTag ∧ r.key = BitVec.ofNat 46 line) ∧
      t = { s with mcs := t.mcs, agenda := t.agenda, work := t.work, nextTag := t.nextTag })

/-- For every request whose home has nothing queued and the line not busy, in a directory set with a free way. Refused by the
enclave check, every kind of request is answered by Comp with DENIED, HS_COUNT_DENY counts it and the home is as before. From a
core, in I with a free directory way: ReadShared, ReadUnique and Upgrade give DataUnique with ACKS 0 from the LLC, the entry
becomes X of the requester and the line is busy; a line of DRAM not in the LLC is asked of ARB_MC first. In S: ReadShared gives
DataShared and adds the sharer; ReadUnique invalidates the other sharers and gives DataUnique with their number; Upgrade by a
sharer is answered by Comp with it. In X or O of another core, ReadShared forwards FwdShared, and in X ReadUnique forwards
FwdUnique. ReadOnce of a line without an owner gives DataShared and leaves the entry, and with one forwards FwdShared ONCE.
Memory stays, and of the registers only the home's status, count and counter bank change. The delays are the model's (assumption
34). -/
def Obligations.Home_reads : Prop :=
  ∀ (s : State) (q : CohReq),
    let line := lineOf q.line.toNat
    let h := s.homeOf line
    let x := s.home h
    let frame := fun t : State =>
      t = { s with regs := t.regs, homes := t.homes, agenda := t.agenda, cores := t.cores, work := t.work, nextTag := t.nextTag } ∧
      (∀ k, k ≠ h → t.home k = s.home k) ∧ (∀ c, (t.core c).sameBut (s.core c))
    let mine := [Reg.HS_STATUS h, Reg.HS_DIR_USED h] ++ bankRegs (Reg.HS_CFG h)
    let becomes := fun (t : State) (o : Option Nat) (excl : Bool) (sh : BitVec 96) =>
      ∃ d, (t.home h).entry line = some d ∧ d.owner = o ∧ d.excl = excl ∧ d.sharers = sh
    s.homeQuiet line = true →
    (∀ i ∈ [Instr.readShared q, .readUnique q, .upgrade q, .readOnce q], s.inDram line = true → inRom line = false →
      s.dirFull h line = false → s.ertPermits q.eid.toNat line (reqWrites i) = false → ∃ t, exec i s = .next t ∧
        t.sends s 13 (.comp q.from_ q.line .denied 0 false 0) ∧ t.homes = s.homes ∧
        t.rd (Reg.HS_COUNT_DENY h) = min (2 ^ 32 - 1) (s.rd (Reg.HS_COUNT_DENY h) + 1) ∧
        t.rb (Reg.HS_IRQ_STATUS h) 2 = true ∧ frame t) ∧
    (∀ (r : CoreId) (l : LlcLine), q.from_ = .core r → x.cached line = some l →
      (∀ i ∈ [Instr.readShared q, .readUnique q, .upgrade q], s.homeMay i q = true → x.entry line = none → s.dirFull h line = false →
        ∃ t, exec i s = .next t ∧ t.sends s 13 (.dataUnique q.from_ q.line l.data l.poison 0) ∧ becomes t (some r.val) true 0 ∧
          (t.home h).busy line = true ∧ frame t ∧ s.regsKept t mine) ∧
      (∀ d, x.entry line = some d → d.owner = none →
        (s.homeMay (.readShared q) q = true → ∃ t, exec (.readShared q) s = .next t ∧
          t.sends s 13 (.dataShared q.from_ q.line l.data l.poison false) ∧ becomes t none d.excl (d.sharers ||| (1 <<< r.val)) ∧
          (t.home h).busy line = false ∧ frame t ∧ s.regsKept t mine) ∧
        (s.homeMay (.readUnique q) q = true →
          let others := d.sharing.filter (· != r.val)
          (∃ t, exec (.readUnique q) s = .next t ∧
            t.sends s 13 (.dataUnique q.from_ q.line l.data l.poison (BitVec.ofNat 7 others.length)) ∧
            (∀ c ∈ others, t.sends s 13 (.invalidate (coreId c) (paddr line) q.from_)) ∧ becomes t (some r.val) true 0 ∧
            (t.home h).busy line = true ∧ frame t ∧ s.regsKept t mine) ∧
          (d.sharers.getLsbD r.val = true → ∃ t, exec (.upgrade q) s = .next t ∧
            t.sends s 13 (.comp q.from_ q.line .ok (BitVec.ofNat 7 others.length) false 0) ∧
            (∀ c ∈ others, t.sends s 13 (.invalidate (coreId c) (paddr line) q.from_)) ∧ becomes t (some r.val) true 0 ∧
            (t.home h).busy line = true ∧ frame t ∧ s.regsKept t mine)))) ∧
    (∀ (r : CoreId) (i : Instr), i ∈ [Instr.readShared q, .readUnique q, .upgrade q] → q.from_ = .core r → x.cached line = none →
      s.inDram line = true → s.homeMay i q = true → x.entry line = none → s.dirFull h line = false → ∃ t, exec i s = .next t ∧
        (∃ a : ArbReq, t.sends s 1 (.arbRequest (Fin.ofNat 14 (s.dramLoc line).mc) a) ∧ a.stamp = q.stamp ∧ a.bytes = 64 ∧
          a.key = BitVec.ofNat 46 line ∧ a.tag = s.nextTag) ∧ t.workOf s.nextTag = some (.fill line) ∧
        (t.home h).busy line = true ∧ (t.home h).entry line = none ∧ frame t ∧ s.regsKept t mine) ∧
    (∀ (r : CoreId) (d : DirEntry) (o : Nat), q.from_ = .core r → x.entry line = some d → d.owner = some o → o ≠ r.val →
      (s.homeMay (.readShared q) q = true → ∃ t, exec (.readShared q) s = .next t ∧
        t.sends s 13 (.fwdShared (coreId o) q.line q.from_ false) ∧ (t.home h).sameDir x ∧ (t.home h).busy line = true ∧ frame t ∧
        s.regsKept t mine) ∧
      (s.homeMay (.readUnique q) q = true → d.excl = true → ∃ t, exec (.readUnique q) s = .next t ∧
        t.sends s 13 (.fwdUnique (coreId o) q.line q.from_ 0) ∧ (t.home h).busy line = true ∧ frame t ∧ s.regsKept t mine)) ∧
    (s.homeMay (.readOnce q) q = true → ∀ l, x.cached line = some l →
      ((∀ d, x.entry line = some d → d.owner = none) → ∃ t, exec (.readOnce q) s = .next t ∧
        t.sends s (hitNs q) (.dataShared q.from_ q.line l.data l.poison true) ∧ (t.home h).sameDir x ∧ (t.home h).sameLlc x ∧
        (t.home h).busy line = false ∧ frame t ∧ s.regsKept t mine) ∧
      (∀ d o, x.entry line = some d → d.owner = some o → ∃ t, exec (.readOnce q) s = .next t ∧
        t.sends s 13 (.fwdShared (coreId o) q.line q.from_ true) ∧ (t.home h).sameDir x ∧ (t.home h).busy line = true ∧ frame t ∧
        s.regsKept t mine))

/-- For every request whose home has nothing queued and the line not busy, that passes the enclave check and whose line no cache
holds. With the line in the LLC, WriteUnique replaces its 64 bytes, WritePartial the bytes its mask names, and POST makes of
them what R183 makes of the record; the LLC's copy becomes dirty with the same bytes, the line is free, Comp with OK goes to the
requester (for POST with the prior bytes 0 to 7), every core but the writer loses a reservation of the granule that it tracks,
and every byte outside the line stays. A WriteUnique of a DRAM line that the LLC does not hold goes to ARB_MC and keeps the line
busy. Of a line that sharers hold, WriteUnique invalidates each of them, waits and writes nothing yet. A core that replaces a
line in M or O holds it on in MI_A or OI_A and sends WriteBack; one in E or S goes with no message, and a line of its reserved
granule stays unless the core is purged. A WriteBack that arrives from the owner of an X entry puts its data into the LLC dirty,
frees the entry and is answered by WBAck; from a core that no entry names as owner it is counted as stale and answered, and the
home is as before. -/
def Obligations.Home_writes : Prop :=
  (∀ (s : State) (q : CohReq) (data : Line) (poison : Bool) (mask : Word64) (vector : Byte),
    let line := lineOf q.line.toNat
    let h := s.homeOf line
    let x := s.home h
    let frame := fun t : State => (∀ k, k ≠ h → t.home k = s.home k) ∧ (∀ a, (a < line ∨ line + 64 ≤ a) → t.byte a = s.byte a) ∧
      (∀ c, agentCore q.from_ ≠ some c → t.core c = (s.core c).written line) ∧
      (∀ c, agentCore q.from_ = some c → (t.core c).sameBut (s.core c)) ∧
      t = { s with regs := t.regs, mem := t.mem, poison := t.poison, homes := t.homes, cores := t.cores, agenda := t.agenda } ∧
      s.regsKept t ([Reg.HS_STATUS h, Reg.HS_DIR_USED h] ++ bankRegs (Reg.HS_CFG h))
    let holds := fun (t : State) (v : Nat) => ∃ k, (t.home h).cached line = some k ∧ k.data.toNat = v ∧ k.dirty = true
    s.homeQuiet line = true → s.homeMay (.writeUnique q data poison) q = true →
    (x.entry line = none → ∀ l, x.cached line = some l →
      (∃ t, exec (.writeUnique q data poison) s = .next t ∧ t.sends s 13 (.comp q.from_ q.line .ok 0 true 0) ∧
        (∀ k < 64, t.byte (line + k) = BitVec.ofNat 8 (data.toNat >>> (8 * k))) ∧ t.poisoned line = poison ∧ holds t data.toNat ∧
        (t.home h).busy line = false ∧ frame t) ∧
      (∃ t, exec (.writePartial q mask data) s = .next t ∧ t.sends s 13 (.comp q.from_ q.line .ok 0 true 0) ∧
        (∀ k < 64, t.byte (line + k) = if mask.getLsbD k then BitVec.ofNat 8 (data.toNat >>> (8 * k)) else s.byte (line + k)) ∧
        holds t (mergeLine l.data data mask).toNat ∧ (t.home h).busy line = false ∧ frame t) ∧
      (s.llcRoom line = true →
        let new := ofBytes (postBytes (toBytes 64 l.data.toNat) vector)
        ∃ t, exec (.writePartialPost q vector) s = .next t ∧ t.sends s 13 (.comp q.from_ q.line .ok 0 true (BitVec.ofNat 64 l.data.toNat)) ∧
        (∀ k < 64, t.byte (line + k) = BitVec.ofNat 8 (new >>> (8 * k))) ∧ holds t (new % 2 ^ 512) ∧ (t.home h).busy line = false ∧
        frame t)) ∧
    (x.entry line = none → x.cached line = none → s.inDram line = true → ∃ t, exec (.writeUnique q data poison) s = .next t ∧
      t.sends s 13 (.comp q.from_ q.line .ok 0 true 0) ∧ (∀ k < 64, t.byte (line + k) = BitVec.ofNat 8 (data.toNat >>> (8 * k))) ∧
      (∃ a : ArbReq, t.sends s 1 (.arbRequest (Fin.ofNat 14 (s.dramLoc line).mc) a) ∧ a.stamp = q.stamp ∧ a.tag = s.nextTag) ∧
      t.workOf s.nextTag = some (.store line false true) ∧ (t.home h).busy line = true ∧
      (∀ a, (a < line ∨ line + 64 ≤ a) → t.byte a = s.byte a)) ∧
    (∀ d, x.entry line = some d → d.owner = none → ∃ t, exec (.writeUnique q data poison) s = .next t ∧
      (∀ c ∈ d.sharing, t.sends s 13 (.invalidate (coreId c) (paddr line) .home)) ∧ (t.home h).busy line = true ∧
      t.mem = s.mem ∧ ∀ c, (t.core c).sameBut (s.core c))) ∧
  (∀ (s : State) (c : CoreId) (line : PAddr) (l : CLine),
    let a := lineOf line.toNat
    let h := s.homeOf a
    let barred := (s.core c.val).inGranule a = true ∧ s.rb (Reg.ENC_STATUS c.val) 2 = false
    (s.core c.val).line a = some l →
    (l.st.stable = true → barred → exec (.writeBack c line) s = .next s) ∧
    (l.st.stable = true → ¬ barred → ∃ t, exec (.writeBack c line) s = .next t ∧
      (t.core c.val).line a = (match l.st with | .m => some { l with st := .miA } | .o => some { l with st := .oiA } | _ => none) ∧
      ((l.st = .m ∨ l.st = .o) → t.sends s 14 (.writeBack c (paddr a))) ∧ ((l.st = .e ∨ l.st = .s) → t.agenda = s.agenda) ∧
      (∀ k, k ≠ c.val → t.core k = s.core k) ∧ t = { s with cores := t.cores, agenda := t.agenda }) ∧
    ((l.st = .miA ∨ l.st = .oiA) → s.homeQuiet a = true →
      (∀ d, (s.home h).entry a = some d → d.owner = some c.val → d.excl = true → s.llcRoom a = true →
        ∃ t, exec (.writeBack c line) s = .next t ∧ t.sends s 13 (.wbAck c (paddr a)) ∧ (t.home h).entry a = none ∧
          (∃ k, (t.home h).cached a = some k ∧ k.data = l.data ∧ k.dirty = true ∧ k.poison = l.poison) ∧ t.mem = s.mem ∧
          t.cores = s.cores ∧ t = { s with regs := t.regs, homes := t.homes, agenda := t.agenda }) ∧
      ((∀ d, (s.home h).entry a = some d → d.owner ≠ some c.val) → ∃ t, exec (.writeBack c line) s = .next t ∧
        t.sends s 13 (.wbAck c (paddr a)) ∧ t.rd (Reg.HS_COUNT_STALE_WB h) = (s.rd (Reg.HS_COUNT_STALE_WB h) + 1) % 2 ^ 64 ∧
        t.homes = s.homes ∧ t.mem = s.mem ∧ t.cores = s.cores)))

/-- For every core with the line. FwdShared in M, O, E, OM_AD, MI_A or OI_A gives DataShared to DEST and FwdAck, dirty but for E,
and without ONCE M becomes O, E becomes S and MI_A becomes OI_A; in every other state it gives FwdMiss and changes no line.
FwdUnique gives DataDirty with its ACKS, in E DataUnique, and the line goes, or becomes IM_AD or II_A; else FwdMiss. Invalidate
is always answered by InvAck to DEST, and BackInvalidate by DataDirty to the home in M, O, OM_AD, MI_A and OI_A and by InvAck
otherwise; stable lines go, and IS_D, SM_AD, OM_AD, MI_A and OI_A change as R299 says. WBAck ends MI_A, OI_A and II_A in I. An
InvAck lowers the count of a waiting line, and in IM_A the last completes it in M with Comp to the home. Without the line, the
answer is FwdMiss or InvAck. No other core's lines, no memory and no register change. -/
def Obligations.Caches_answer : Prop :=
  ∀ (s : State) (c : CoreId) (line : PAddr) (dst : CohAgent) (once : Bool) (acks : BitVec 7),
    let a := lineOf line.toNat
    let cell := fun t : State => (t.core c.val).line a
    let frame := fun t : State => (∀ k, k ≠ c.val → t.core k = s.core k) ∧ t = { s with cores := t.cores, agenda := t.agenda } ∧
      (∀ b, lineOf b ≠ a → (t.core c.val).line b = (s.core c.val).line b) ∧ (t.core c.val).stores = (s.core c.val).stores
    let owned := fun x : LineSt => x = .m ∨ x = .o ∨ x = .omAD ∨ x = .miA ∨ x = .oiA
    (cell s = none →
      (∃ t, exec (.fwdShared c line dst once) s = .next t ∧ t.sends s 13 (.fwdMiss c line) ∧ cell t = none ∧ frame t) ∧
      (∃ t, exec (.fwdUnique c line dst acks) s = .next t ∧ t.sends s 13 (.fwdMiss c line) ∧ cell t = none ∧ frame t) ∧
      (∃ t, exec (.invalidate c line dst) s = .next t ∧ t.sends s 13 (.invAck c line dst) ∧ cell t = none ∧ frame t) ∧
      (∃ t, exec (.backInvalidate c line) s = .next t ∧ t.sends s 13 (.invAck c line .home) ∧ cell t = none ∧ frame t) ∧
      exec (.wbAck c line) s = .next s ∧ exec (.invAck c line (.core c)) s = .next s) ∧
    (∀ l, cell s = some l →
      (∃ t, exec (.fwdShared c line dst once) s = .next t ∧ frame t ∧
        (owned l.st ∨ l.st = .e → t.sends s 13 (.dataShared dst line l.data l.poison once) ∧
          t.sends s 13 (.fwdAck c line (l.st != .e)) ∧
          cell t = some { l with st := if once then l.st else
            match l.st with | .m => .o | .e => .s | .miA => .oiA | x => x }) ∧
        (¬ (owned l.st ∨ l.st = .e) → t.sends s 13 (.fwdMiss c line) ∧ cell t = some l)) ∧
      (∃ t, exec (.fwdUnique c line dst acks) s = .next t ∧ frame t ∧
        (owned l.st → t.sends s 13 (.dataDirty dst line l.data l.poison acks) ∧
          cell t = (match l.st with | .omAD => some { l with st := .imAD } | .miA | .oiA => some { l with st := .iiA } | _ => none)) ∧
        (l.st = .e → t.sends s 13 (.dataUnique dst line l.data l.poison acks) ∧ cell t = none) ∧
        (¬ owned l.st → l.st ≠ .e → t.sends s 13 (.fwdMiss c line) ∧ cell t = some l)) ∧
      (∃ t, exec (.invalidate c line dst) s = .next t ∧ frame t ∧ t.sends s 13 (.invAck c line dst) ∧
        cell t = (match l.st with
          | .m | .o | .e | .s => none
          | .isD => some { l with st := .isDI }
          | .smAD | .omAD => some { l with st := .imAD }
          | .miA | .oiA => some { l with st := .iiA }
          | _ => some l)) ∧
      (∃ t, exec (.backInvalidate c line) s = .next t ∧ frame t ∧
        (owned l.st → t.sends s 13 (.dataDirty .home line l.data l.poison 0)) ∧ (¬ owned l.st → t.sends s 13 (.invAck c line .home)) ∧
        cell t = (match l.st with
          | .m | .o | .e | .s => none
          | .isD => some { l with st := .isDI }
          | .smAD | .omAD => some { l with st := .imAD }
          | .miA | .oiA => some { l with st := .iiA }
          | _ => some l)) ∧
      ((l.st = .miA ∨ l.st = .oiA ∨ l.st = .iiA) → ∃ t, exec (.wbAck c line) s = .next t ∧ cell t = none ∧ frame t) ∧
      (l.st = .imA → l.acks = 1 → ∃ t, exec (.invAck c line (.core c)) s = .next t ∧ frame t ∧
        t.sends s 13 (.compToHome (.core c) (paddr a)) ∧
        cell t = some { l with st := .m, acks := 0, granted := false, grantDirty := false }) ∧
      ((l.st = .imAD ∨ l.st = .smAD ∨ l.st = .omAD ∨ (l.st = .imA ∧ l.acks ≠ 1)) →
        ∃ t, exec (.invAck c line (.core c)) s = .next t ∧ frame t ∧ cell t = some { l with acks := l.acks - 1 }))

/-- For every core that waits for a line: DataShared turns IS_D into S with the data and ends IS_DI in I; DataUnique turns IS_D into
E with Comp to the home; DataUnique, DataDirty and an OK Comp add ACKS to the count, and at 0 the line enters M with Comp to the
home, else IM_A; a refused Comp ends IS_D and IM_AD in I and SM_AD in S and records why. A load that waits for the line gets the
data that end IS_D or IS_DI, or the refusal. At a home with nothing queued: a FwdAck ends a forwarded ReadOnce and leaves the
entry; FwdMiss counts, and the LLC's copy answers the ReadOnce; the requester's Comp closes its exclusive grant. HS_QUERY_ADDR
of a free line sets DONE with its state, NOT_HOME at another slice, and changes the three query registers; of a busy line it
clears DONE and waits for it; a query that waited before is given up. BACKINV_WINDOW sets BACKINV_THR when more than THR
removals fell in the window, and begins the next at 0. LINK_RETRY on a mesh link that fails fewer than 16 times only writes
contact-sheet events; on a pair link that is up it also counts. -/
def Obligations.Answers_and_closings : Prop :=
  (∀ (s : State) (c : CoreId) (line : PAddr) (l : CLine) (data : Line) (poison : Bool) (acks : BitVec 7) (prior : Word64),
    let a := lineOf line.toNat
    let cell := fun t : State => (t.core c.val).line a
    let frame := fun t : State => (∀ k, k ≠ c.val → t.core k = s.core k) ∧ t = { s with cores := t.cores, agenda := t.agenda }
    let took := fun (t : State) (g : MissGot) => ∀ m, (s.core c.val).miss (missKey a false) = some m → m.wanted = true → m.got = none →
      ((t.core c.val).miss (missKey a false)).bind (·.got) = some g
    let l1 : CLine := { l with data := data, poison := poison }
    let grantOf := fun (y : CLine) (t : State) => (y.acks + acks.toNat = 0 → t.sends s 13 (.compToHome (.core c) (paddr a)) ∧
        ∃ z, cell t = some z ∧ z.st = .m ∧ z.data = y.data ∧ z.poison = y.poison ∧ z.acks = 0) ∧
      (y.acks + acks.toNat ≠ 0 → cell t = some { y with st := .imA, acks := y.acks + acks.toNat, granted := true })
    cell s = some l →
    (l.st = .isD → (∃ t, exec (.dataShared (.core c) line data poison false) s = .next t ∧ cell t = some { l1 with st := .s } ∧
        took t (.data data poison) ∧ frame t) ∧
      (∃ t, exec (.dataUnique (.core c) line data poison acks) s = .next t ∧ cell t = some { l1 with st := .e } ∧
        took t (.data data poison) ∧
        t.sends s 13 (.compToHome (.core c) (paddr a)) ∧ frame t)) ∧
    (l.st = .isDI → ∃ t, exec (.dataShared (.core c) line data poison false) s = .next t ∧ cell t = none ∧
      took t (.data data poison) ∧ frame t) ∧
    (∀ st : CohStatus, st ≠ .ok → (l.st = .isD ∨ l.st = .isDI) → ∃ t, exec (.comp (.core c) line st acks false prior) s = .next t ∧
      cell t = none ∧ took t (.refused st) ∧ frame t) ∧
    (l.st = .imAD → (∃ t, exec (.dataUnique (.core c) line data poison acks) s = .next t ∧ grantOf l1 t ∧ frame t) ∧
      (∃ t, exec (.dataDirty (.core c) line data poison acks) s = .next t ∧ grantOf { l1 with grantDirty := true } t ∧ frame t)) ∧
    ((l.st = .smAD ∨ l.st = .omAD) → ∃ t, exec (.comp (.core c) line .ok acks false prior) s = .next t ∧ grantOf l t ∧ frame t) ∧
    (∀ st : CohStatus, st ≠ .ok → (l.st = .imAD ∨ l.st = .smAD) → ∃ t, exec (.comp (.core c) line st acks false prior) s = .next t ∧
      cell t = (if l.st = .imAD then none else some { l with st := .s, acks := 0 }) ∧
      tabFind (t.core c.val).refused a = some st ∧ frame t)) ∧
  (∀ (s : State) (c : CoreId) (line : PAddr) (t0 : Txn) (q : CohReq) (dirty : Bool),
    let a := lineOf line.toNat
    let h := s.homeOf a
    let x := s.home h
    x.queue = [] → x.query = none → x.txn a = some t0 → lineOf q.line.toNat = a →
    (t0.wait = .forward → t0.req = some (.readOnce q) →
      (∃ t, exec (.fwdAck c line dirty) s = .next t ∧ (t.home h).busy a = false ∧ (t.home h).dir = x.dir ∧
        t = { s with regs := t.regs, homes := t.homes } ∧ s.regsKept t [Reg.HS_STATUS h, Reg.HS_DIR_USED h]) ∧
      (∀ l, x.cached a = some l → ∃ t, exec (.fwdMiss c line) s = .next t ∧ (t.home h).busy a = false ∧
        t.rd (Reg.HS_COUNT_FWDMISS h) = (s.rd (Reg.HS_COUNT_FWDMISS h) + 1) % 2 ^ 64 ∧
        t.sends s (hitNs q) (.dataShared q.from_ q.line l.data l.poison true) ∧ (t.home h).dir = x.dir ∧
        t = { s with regs := t.regs, homes := t.homes, agenda := t.agenda })) ∧
    (t0.wait = .comp → t0.req.bind reqOf = some q → ∃ t, exec (.compToHome q.from_ line) s = .next t ∧
      (t.home h).busy a = false ∧ (t.home h).dir = x.dir ∧ (t.home h).llc = x.llc ∧ t = { s with regs := t.regs, homes := t.homes } ∧
      s.regsKept t [Reg.HS_STATUS h, Reg.HS_DIR_USED h])) ∧
  (∀ (s : State) (h : HsId) (who : Requester) (v : Word64),
    let a := lineOf (v.toNat % 2 ^ 46)
    let r := Reg.HS_QUERY_STATE h.val
    let x := s.home h.val
    let kept := fun t : State => t = { s with regs := t.regs, homes := t.homes } ∧ (∀ k, k ≠ h.val → t.home k = s.home k) ∧
      s.regsKept t [r, Reg.HS_QUERY_SHR0 h.val, Reg.HS_QUERY_SHR1 h.val, Reg.HS_STATUS h.val, Reg.HS_DIR_USED h.val]
    (s.homeOf a = h.val → x.busy a = true → ∃ t, exec (.hsQueryAddr h who v) s = .next t ∧ t.rd r = 0 ∧
      t.home h.val = { x with query := some a } ∧ kept t) ∧
    ((s.homeOf a = h.val → x.busy a = false) → ∃ t, exec (.hsQueryAddr h who v) s = .next t ∧
      t.rb r 1 = decide (s.homeOf a ≠ h.val) ∧ t.rb r 0 = true ∧
      (s.homeOf a = h.val → t.rf r 3 2 = (match x.entry a with
          | none => 0
          | some d => if d.owner = none then 1 else if d.excl then 2 else 3) ∧
        (x.entry a = none → t.rb r 11 = (x.cached a).isSome)) ∧
      t.home h.val = { x with query := none } ∧ kept t)) ∧
  (∀ (s : State) (h : HsId), ∃ t, exec (.backinvWindow h) s = .next t ∧ (t.home h.val).window = 0 ∧
    t.rb (Reg.HS_IRQ_STATUS h.val) 0 = (s.rb (Reg.HS_IRQ_STATUS h.val) 0 ||
      decide (s.rf (Reg.HS_BACKINV_WIN h.val) 31 16 < (s.home h.val).window)) ∧
    t = { s with regs := t.regs, homes := t.homes, agenda := t.agenda }) ∧
  (∀ (s : State) (x y : BitVec 4) (k : BitVec 2) (n : BitVec 8), 0 < n.toNat → n.toNat < 16 →
    (∃ t, exec (.linkRetry (.mesh x y) n) s = .next t ∧ t = { s with sheet := t.sheet, agenda := t.agenda }) ∧
    (s.pairLink = 2 → ∃ t, exec (.linkRetry (.pair k) n) s = .next t ∧
      t.rd Reg.PAIR_RETRY_COUNT = min (2 ^ 32 - 1) (s.rd Reg.PAIR_RETRY_COUNT + n.toNat) ∧
      t = { s with regs := t.regs, sheet := t.sheet, agenda := t.agenda } ∧ s.regsKept t [Reg.PAIR_RETRY_COUNT]))

/-- For every source. An event of a reserved source, or of one already pending, changes nothing; else PENDING sets, and an enabled
source outside STANDBY is dispatched 20 ns later, in a clock that dispatches fewer than four others. A write of k to page g of
IRT_SWGEN is an event of source 3,072 + 16 g + k[3:0]. A dispatched source with EN and PENDING 1 and a bad target gets TGT_ERR
and stays pending; else, unless it is posted, PENDING clears and its vector reaches view 2, or view 3 for an enclave's, 30 ns
later; a posted source goes to the home of its record with its vector. A bell to the core whose HPIPA names the record sets the
PEND_PL1 bit of every vector logged, makes HEAD TAIL, clears RUNG and FULL and changes no other byte; any other bell sets its
vector in view 2. A write to a source of an enclave below PL3 changes no register and writes an ENCLAVE_DENY event. -/
def Obligations.Router_delivers_and_posts : Prop :=
  (∀ (s : State) (n : SrcId),
    let cfg := Reg.IRT_SRC_CFG n.val
    let pends := s.rb cfg 0 = true ∧ s.rb cfg 2 = true
    let rec_ := s.rd (Reg.IRT_SRC_REC n.val)
    let virt := s.rb cfg 1 = true ∧ s.sourceEid n.val = 0
    let room := fun u : State => (u.agenda.filterMap (deliveryAt (u.clk + 20))).length < 4
    let bad := 95 < s.rf cfg 10 4 ∨ s.rb (Reg.PVT_COREPT (s.rf cfg 10 4)) 3 = true ∨ 240 ≤ s.rf cfg 23 16
    ((sourceReserved n.val = true ∨ s.rb cfg 2 = true) → exec (.interruptSourceEvent n) s = .next s) ∧
    (sourceReserved n.val = false → s.rb cfg 2 = false → ∃ t, exec (.interruptSourceEvent n) s = .next t ∧ t.rb cfg 2 = true ∧
      (s.rb cfg 0 = true → s.mode ≠ modeStandby → room s → t.sends s 20 (.interruptDelivery n)) ∧
      t = { s with regs := t.regs, agenda := t.agenda } ∧ s.bitsKept t cfg 2 2 ∧ s.regsKept t [cfg]) ∧
    (¬ pends → exec (.interruptDelivery n) s = .next s ∧ exec (.interruptPost n) s = .next s ∧ exec (.postRetry n) s = .next s) ∧
    (pends → bad → ∃ t, exec (.interruptDelivery n) s = .next t ∧ t.rb cfg 3 = true ∧ s.bitsKept t cfg 3 3 ∧
      t = { s with regs := t.regs } ∧ s.regsKept t [cfg]) ∧
    (pends → ¬ bad → s.coreUp (s.rf cfg 10 4) = true → ¬ virt → ∃ t, exec (.interruptDelivery n) s = .next t ∧ t.rb cfg 2 = false ∧
      (s.clk + 30, Act.vector (coreId (s.rf cfg 10 4)) (if s.sourceEid n.val = 0 then .two else .three)
        (BitVec.ofNat 8 (s.rf cfg 23 16))) ∈ t.agenda ∧
      t = { s with regs := t.regs, agenda := t.agenda } ∧ s.bitsKept t cfg 2 2 ∧ s.regsKept t [cfg]) ∧
    (pends → ¬ bad → s.coreUp (s.rf cfg 10 4) = true → virt → ∃ t, exec (.interruptDelivery n) s = .next t ∧
      t.sends s 0 (.interruptPost n) ∧ t = { s with agenda := t.agenda }) ∧
    (pends → virt → ∀ c ∈ [Instr.interruptPost n, .postRetry n], ∃ t, exec c s = .next t ∧
      (∃ q, t.sends s 14 (.writePartialPost q (BitVec.ofNat 8 (s.rf cfg 23 16))) ∧ q.line = paddr rec_ ∧ q.from_ = .router ∧ q.eid = 0) ∧
      t.posting = s.posting ++ [(rec_, n.val)] ∧ t = { s with regs := t.regs, agenda := t.agenda, posting := t.posting } ∧
      s.bitsKept t cfg 2 2 ∧ s.regsKept t [cfg])) ∧
  (∀ (s : State) (g : BitVec 6) (who : Requester) (v : Word32),
    exec (.irtSwgen g who v) s = exec (.interruptSourceEvent (Fin.ofNat 4096 (3072 + 16 * g.toNat + v.toNat % 16))) s) ∧
  (∀ (s : State) (c : CoreId) (a : PAddr) (v : Byte), s.sr c.val Sr.HPIPA ≠ a.toNat → ∃ t, exec (.bell c a v) s = .next t ∧
    t.sr c.val (Sr.PEND 2 (v.toNat / 64)) = putFld (s.sr c.val (Sr.PEND 2 (v.toNat / 64))) (v.toNat % 64) (v.toNat % 64) 1 ∧
    (∀ n, n ≠ Sr.PEND 2 (v.toNat / 64) → t.sr c.val n = s.sr c.val n) ∧ (∀ k, k ≠ c.val → t.core k = s.core k) ∧
    t = { s with cores := t.cores, agenda := t.agenda }) ∧
  (∀ (s : State) (c : CoreId) (a : PAddr) (v : Byte), s.sr c.val Sr.HPIPA = a.toNat → a.toNat % 64 = 0 → inRom a.toNat = false →
    ∃ t, exec (.bell c a v) s = .next t ∧
      (∀ x ∈ recordVectors ((List.range 64).map fun k => s.byte (a.toNat + k)),
        (t.sr c.val (Sr.PEND 1 (x / 64))).testBit (x % 64) = true) ∧
      (∀ k i, (s.sr c.val (Sr.PEND 1 k)).testBit i = true → (t.sr c.val (Sr.PEND 1 k)).testBit i = true) ∧
      t.byte (a.toNat + 1) = s.byte a.toNat ∧ t.byte (a.toNat + 2) = s.byte (a.toNat + 2) &&& 0xFA ∧
      (∀ b, b ≠ a.toNat + 1 → b ≠ a.toNat + 2 → t.byte b = s.byte b) ∧ (t.core c.val).pl = (s.core c.val).pl ∧
      (t.core c.val).pc = (s.core c.val).pc) ∧
  (∀ (s : State) (n : SrcId) (who : Requester) (record : Bool) (v : Word64),
    let a := if record then Reg.IRT_SRC_REC n.val else Reg.IRT_SRC_CFG n.val
    (s.sourceEid n.val ≠ 0 → who.pl ≠ 3 → ∃ t, exec (.irtSrcCfg n who record v) s = .next t ∧
      (s.sheet.intake.length < 64 → ∃ e, t.sheet.intake = s.sheet.intake ++ [e] ∧ e.cls = 0x21 ∧ e.addr = BitVec.ofNat 64 a) ∧
      t = { s with agenda := t.agenda, sheet := t.sheet }) ∧
    ((s.sourceEid n.val = 0 ∨ who.pl = 3) → ∃ t, exec (.irtSrcCfg n who record v) s = .next t ∧
      t.regs = (s.storeReg a v.toNat).regs ∧
      (record = false → t.rb a 0 = true → t.rb a 2 = true →
        ((s.storeReg a v.toNat).agenda.filterMap (deliveryAt (s.clk + 20))).length < 4 → t.sends s 20 (.interruptDelivery n))))

/-- For every core whose instruction is fetched and not barred: each register and immediate form completes, writes the value of its
row to rd, where g0 discards it, reads its sources before rd is written, and execution goes on behind it under the loop-end
test; beside that only counters and pending vectors of this core move, and no memory byte, register, other core, floating-point
or other system register. Shifts take the amount modulo the width; the immediates of ANDI, ORI and XORI are zero-extended and
those of ADDI, ADDIW, SLTI and SLTIU sign-extended; 32-bit results are sign-extended. Division by zero gives all ones and the
dividend, and the quotient truncates. A 32-bit shift by an amount with bit 5 set raises ILLEGAL. The fetch itself changes no
general register, PC, level or memory. -/
def Obligations.Integer_instructions : Prop :=
  ∀ (s : State) (c : CoreId) (rd a b : GReg) (imm : BitVec 16) (up : BitVec 21) (n : BitVec 6) (flag : Bool) (sg : Sign),
    let lt := fun (x y : Word64) => match sg with | .signed => decide (x.toInt < y.toInt) | .unsigned => decide (x.toNat < y.toNat)
    let one := fun p : Bool => if p then (1 : Word64) else 0
    let logic := fun (fn : LogicFn) (x y : Word64) => match fn with | .and => x &&& y | .or => x ||| y | .xor => x ^^^ y
    let shift := fun (w : Nat) (fn : ShiftFn) (x : BitVec w) (k : Nat) =>
      (match fn with | .sll => x <<< k | .srl => x >>> k | .sra => x.sshiftRight k : BitVec w)
    let word := fun v : Word32 => v.signExtend 64
    let low := fun v : Word64 => v.setWidth 32
    let quo := fun (w : Nat) (sg : Sign) (x y : BitVec w) => if y = 0 then BitVec.allOnes w else
      match sg with | .signed => BitVec.ofInt w (x.toInt.tdiv y.toInt) | .unsigned => BitVec.ofNat w (x.toNat / y.toNat)
    let mod := fun (w : Nat) (sg : Sign) (x y : BitVec w) => if y = 0 then x else
      match sg with | .signed => BitVec.ofInt w (x.toInt.tmod y.toInt) | .unsigned => BitVec.ofNat w (x.toNat % y.toNat)
    s.gWrites c (.add c flag rd a b) rd (fun x => if flag then x.greg a - x.greg b else x.greg a + x.greg b) ∧
    (∀ fn, s.gWrites c (.and c fn rd a b) rd (fun x => logic fn (x.greg a) (x.greg b)) ∧
      s.gWrites c (.andi c fn rd a imm) rd (fun x => logic fn (x.greg a) (imm.setWidth 64))) ∧
    (∀ fn, s.gWrites c (.sll c fn rd a b) rd (fun x => shift 64 fn (x.greg a) ((x.greg b).toNat % 64)) ∧
      s.gWrites c (.sllw c fn rd a b) rd (fun x => word (shift 32 fn (low (x.greg a)) ((x.greg b).toNat % 32))) ∧
      s.gWrites c (.slli c fn false rd a n) rd (fun x => shift 64 fn (x.greg a) n.toNat) ∧
      (n.toNat < 32 → s.gWrites c (.slli c fn true rd a n) rd (fun x => word (shift 32 fn (low (x.greg a)) n.toNat))) ∧
      (32 ≤ n.toNat → s.coreTraps c (.slli c fn true rd a n) 1 0 0 0)) ∧
    s.gWrites c (.slt c sg rd a b) rd (fun x => one (lt (x.greg a) (x.greg b))) ∧
    s.gWrites c (.slti c sg rd a imm) rd (fun x => one (lt (x.greg a) (imm.signExtend 64))) ∧
    (∀ fn, s.gWrites c (.minMax c fn rd a b) rd (fun x => BitVec.ofInt 64 (match fn with
        | .min => min (x.greg a).toInt (x.greg b).toInt
        | .max => max (x.greg a).toInt (x.greg b).toInt)) ∧
      s.gWrites c (.minuMaxu c fn rd a b) rd (fun x => BitVec.ofNat 64 (match fn with
        | .min => min (x.greg a).toNat (x.greg b).toNat
        | .max => max (x.greg a).toNat (x.greg b).toNat))) ∧
    s.gWrites c (.clzCtz c flag rd a) rd (fun x => BitVec.ofNat 64 (if flag then trailingZeros (x.greg a) else leadingZeros (x.greg a))) ∧
    (∀ v : Word64, v ≠ 0 → 2 ^ (63 - leadingZeros v) ≤ v.toNat ∧ v.toNat < 2 ^ (64 - leadingZeros v) ∧
      v.getLsbD (trailingZeros v) = true ∧ ∀ i < trailingZeros v, v.getLsbD i = false) ∧
    leadingZeros 0 = 64 ∧ trailingZeros 0 = 64 ∧
    s.gWrites c (.popc c rd a) rd (fun x => BitVec.ofNat 64 ((List.range 64).filter fun i => (x.greg a).getLsbD i).length) ∧
    s.gWrites c (.addwSubw c flag rd a b) rd (fun x => word (low (if flag then x.greg a - x.greg b else x.greg a + x.greg b))) ∧
    s.gWrites c (.mul c rd a b) rd (fun x => BitVec.ofNat 64 ((x.greg a).toNat * (x.greg b).toNat)) ∧
    s.gWrites c (.mulh c .ss rd a b) rd (fun x => BitVec.ofInt 64 ((x.greg a).toInt * (x.greg b).toInt / 2 ^ 64)) ∧
    s.gWrites c (.mulh c .uu rd a b) rd (fun x => BitVec.ofNat 64 ((x.greg a).toNat * (x.greg b).toNat / 2 ^ 64)) ∧
    s.gWrites c (.mulh c .su rd a b) rd (fun x => BitVec.ofInt 64 ((x.greg a).toInt * (x.greg b).toNat / 2 ^ 64)) ∧
    s.gWrites c (.mulw c rd a b) rd (fun x => word (low (x.greg a * x.greg b))) ∧
    s.gWrites c (.div c sg rd a b) rd (fun x => quo 64 sg (x.greg a) (x.greg b)) ∧
    s.gWrites c (.rem c sg rd a b) rd (fun x => mod 64 sg (x.greg a) (x.greg b)) ∧
    (∀ fn : DivFn, s.gWrites c (.divw c fn rd a b) rd (fun x => word (match fn with
      | .div => quo 32 .signed (low (x.greg a)) (low (x.greg b))
      | .divu => quo 32 .unsigned (low (x.greg a)) (low (x.greg b))
      | .rem => mod 32 .signed (low (x.greg a)) (low (x.greg b))
      | .remu => mod 32 .unsigned (low (x.greg a)) (low (x.greg b))))) ∧
    s.gWrites c (.addi c rd a imm) rd (fun x => x.greg a + imm.signExtend 64) ∧
    s.gWrites c (.addiw c rd a imm) rd (fun x => word (low (x.greg a + imm.signExtend 64))) ∧
    s.gWrites c (.lui c rd up) rd (fun _ => BitVec.ofInt 64 (up.toInt * 2 ^ 16)) ∧
    s.gWrites c (.auipc c rd up) rd (fun x => x.pc + BitVec.ofInt 64 (up.toInt * 2 ^ 12)) ∧
    (∀ s1, s.coreFetch c.val = some s1 → (s1.core c.val).g = (s.core c.val).g ∧ (s1.core c.val).f = (s.core c.val).f ∧
      (s1.core c.val).pc = (s.core c.val).pc ∧ (s1.core c.val).pl = (s.core c.val).pl ∧ (s1.core c.val).eff = (s.core c.val).eff ∧
      (s1.core c.val).stores = (s.core c.val).stores ∧ (∀ k, k ≠ c.val → s1.core k = s.core k) ∧
      s1 = { s with cores := s1.cores, agenda := s1.agenda })

/-- For every core whose instruction is fetched and not barred, and does not lie at the end of an open loop: a branch goes to PC + 4
× the sign-extended offset when its condition holds and on otherwise, and its outcome enters the predictor's tables and history;
J and JAL always go there, JAL with g1 = PC + 4; JALR goes to rs1 + imm16, rs1 read before rd takes PC + 4. LOOP and LOOPI with
a free level and LEN above 0 set LOOPBEG to PC + 4, LOOPEND to PC + 4 × LEN and LOOPCNT to the count, and go on into the body,
or with a count of 0 behind it. At the end of an open loop every one of them, and an open with LEN 0, under an open level 1, or
of an open level 0, raises ILLEGAL. At a loop's last instruction execution goes back to LOOPBEG with the count one less while it
is above 1, and otherwise closes the level. -/
def Obligations.Branches_and_loops : Prop :=
  (∀ (s : State) (c : CoreId) (a b rd : GReg) (imm : BitVec 16) (far : BitVec 26) (flag lvl : Bool) (k : BitVec 11) (len : BitVec 14),
    let near := fun pc : Word64 => pc + BitVec.ofInt 64 (imm.toInt * 4)
    let away := fun pc : Word64 => pc + BitVec.ofInt 64 (far.toInt * 4)
    let goes := fun (i : Instr) (f : Core → Core) (target : Core → Option Word64) => ∀ s1, s.coreFetch c.val = some s1 →
      ∃ t, exec i s = .next t ∧ s1.coreRan t c.val (f (s1.core c.val)) (target (s1.core c.val))
    let on := fun (p : Core → Prop) [DecidablePred p] (x : Core) => if p x then some (near x.pc) else none
    let kept := fun (p : Core → Prop) [DecidablePred p] (x : Core) =>
      { x.updateTables (decide (p x)) with history := (x.history <<< 1) ||| (if p x then 1 else 0), branches := x.branches + 1 }
    let eq := fun x : Core => x.greg a = x.greg b ↔ flag = false
    let lt := fun x : Core => (x.greg a).toInt < (x.greg b).toInt ↔ flag = false
    let ltu := fun x : Core => (x.greg a).toNat < (x.greg b).toNat ↔ flag = false
    ((s.core c.val).atLoopEnd = false →
      goes (.beqBne c flag a b imm) (kept eq) (on eq) ∧ goes (.bltBge c flag a b imm) (kept lt) (on lt) ∧
      goes (.bltuBgeu c flag a b imm) (kept ltu) (on ltu) ∧
      goes (.j c far) id (fun x => some (away x.pc)) ∧
      (∀ s1, s.coreFetch c.val = some s1 → let x := s1.core c.val
        (∃ t, exec (.jal c far) s = .next t ∧ (t.core c.val).pc = away x.pc ∧ (t.core c.val).f = x.f ∧
          (∀ r, (t.core c.val).greg r = if r = 1 then x.pc + 4 else x.greg r) ∧ (t.core c.val).returnStack = ((x.pc + 4) :: x.returnStack).take 32 ∧
          t = { s1 with cores := t.cores, agenda := t.agenda } ∧ (∀ k, k ≠ c.val → t.core k = s1.core k)) ∧
        (∃ t, exec (.jalr c rd a imm) s = .next t ∧ (t.core c.val).pc = x.greg a + imm.signExtend 64 ∧ (t.core c.val).f = x.f ∧
          (∀ r, (t.core c.val).greg r = if r = rd ∧ r ≠ 0 then x.pc + 4 else x.greg r) ∧
          t = { s1 with cores := t.cores, agenda := t.agenda } ∧ (∀ k, k ≠ c.val → t.core k = s1.core k)))) ∧
    (∀ (i : Instr) (count : Core → Nat), ((i = .loop c lvl a len ∧ count = fun x => (x.greg a).toNat % 2 ^ 32) ∨
        (i = .loopi c lvl k len ∧ count = fun _ => k.toNat)) → (s.core c.val).atLoopEnd = false →
      ∀ s1, s.coreFetch c.val = some s1 →
        let x := s1.core c.val
        let n := b2n lvl
        let first := x.pc.toNat + 4
        let last := x.pc.toNat + 4 * len.toNat
        let closed := x.sr (Sr.LOOPCNT 1) = 0 ∧ (lvl = false → x.sr (Sr.LOOPCNT 0) = 0) ∧
          (lvl = true → x.sr (Sr.LOOPCNT 0) ≠ 0 → x.loopAddr (Sr.LOOPBEG 0) ≤ first ∧ last ≤ x.loopAddr (Sr.LOOPEND 0))
        (closed → len ≠ 0 → last + 4 < 2 ^ 64 → ∃ t, exec i s = .next t ∧ (t.core c.val).g = x.g ∧ (t.core c.val).f = x.f ∧
          (t.core c.val).sr (Sr.LOOPBEG n) = loopBits first ∧ (t.core c.val).sr (Sr.LOOPEND n) = loopBits last ∧
          (t.core c.val).sr (Sr.LOOPCNT n) = count x ∧
          (t.core c.val).pc = BitVec.ofNat 64 (if count x = 0 then last + 4 else first) ∧
          t = { s1 with cores := t.cores, agenda := t.agenda } ∧ (∀ k, k ≠ c.val → t.core k = s1.core k)) ∧
        (¬ closed ∨ len = 0 → s.coreTraps c i 1 0 0 0)) ∧
    ((s.core c.val).atLoopEnd = true → ∀ i ∈ [Instr.beqBne c flag a b imm, .bltBge c flag a b imm, .bltuBgeu c flag a b imm, .j c far,
        .jal c far, .jalr c rd a imm, .loop c lvl a len, .loopi c lvl k len], s.coreTraps c i 1 0 0 0)) ∧
  (∀ (x : Core) (pc next : Nat), x.sr (Sr.LOOPCNT 1) = 0 → x.loopAddr (Sr.LOOPEND 0) = pc →
    (1 < x.sr (Sr.LOOPCNT 0) → (x.loopEnd pc next).2 = x.loopAddr (Sr.LOOPBEG 0) ∧
      (x.loopEnd pc next).1.sr (Sr.LOOPCNT 0) = x.sr (Sr.LOOPCNT 0) - 1) ∧
    (x.sr (Sr.LOOPCNT 0) ≤ 1 → (x.loopEnd pc next).2 = next ∧ (x.loopEnd pc next).1.sr (Sr.LOOPCNT 0) = 0))

/-- For every core whose instruction is fetched and not barred: each floating-point instruction completes and writes rd, an f or g
register, the value of its row, and moves nothing else but counters and pending vectors. Arithmetic, square root, conversion and
the fused operations round the exact result once in the instruction's direction; a binary32 result leaves bits [63:32] zero. A
NaN result is 0x7FC0_0000 or 0x7FF8_0000_0000_0000. Every non-NaN pattern of a format unpacks to a value that packs back to it.
Rounding to nearest errs by at most half a unit, toward zero never up, toward +∞ never down for a positive value. Sums and
products do not depend on the order of the operands. Conversion to an integer stays in range, and a NaN gives 0. FMIN and FMAX
return the other operand of a NaN and treat −0 as below +0; comparisons with a NaN give 0. FSIGN and FBITS copy bits. -/
def Obligations.Floating_point : Prop :=
  (∀ (s : State) (c : CoreId) (fmt : FpFmt) (rm : Rounding) (rd a b d : FReg) (g : GReg) (sg : Sign),
    let bits := fun (x : Core) (r : FReg) => (x.freg r).toNat % 2 ^ fmt.width
    let val := fun (x : Core) (r : FReg) => unpack fmt (bits x r)
    let out := fun n : Nat => BitVec.ofNat 64 n
    let top := fmt.width - 1
    let range := fun w : Nat => match sg with | .signed => (-(2 ^ (w - 1) : Int), (2 ^ (w - 1) : Int) - 1) | .unsigned => (0, (2 ^ w : Int) - 1)
    (∀ fn, s.fWrites c (.fadd c fn fmt rm rd a b) rd (fun x => out (pack fmt rm (match fn with
      | .add => (val x a).add rm (val x b)
      | .sub => (val x a).add rm (val x b).negate
      | .mul => (val x a).mul (val x b)
      | .div => (val x a).div (val x b))))) ∧
    s.fWrites c (.fsqrt c fmt rm rd a) rd (fun x => out (pack fmt rm (val x a).sqrt)) ∧
    s.fWrites c (.fmadd c fmt rm rd a b d) rd (fun x => out (pack fmt rm (((val x a).mul (val x b)).add rm (val x d)))) ∧
    s.fWrites c (.fmsub c fmt rm rd a b d) rd (fun x => out (pack fmt rm (((val x a).mul (val x b)).add rm (val x d).negate))) ∧
    s.fWrites c (.fnmsub c fmt rm rd a b d) rd (fun x => out (pack fmt rm (((val x a).mul (val x b)).negate.add rm (val x d)))) ∧
    s.fWrites c (.fnmadd c fmt rm rd a b d) rd (fun x => out (pack fmt rm (((val x a).mul (val x b)).negate.add rm (val x d).negate))) ∧
    (∀ fn, s.fWrites c (.fminFmax c fn fmt rd a b) rd (fun x => out (
      if val x a = .nan ∧ val x b = .nan then fmt.quiet else if val x a = .nan then bits x b else if val x b = .nan then bits x a
      else pack fmt rm ((val x a).pick fn (val x b))))) ∧
    (∀ fn, s.fWrites c (.fsign c fn fmt rd a b) rd (fun x => out (bits x a % 2 ^ top + (if (match fn with
      | .copy => (bits x b).testBit top
      | .neg => !(bits x b).testBit top
      | .xor => (bits x a).testBit top != (bits x b).testBit top) then 2 ^ top else 0)))) ∧
    (∀ fn, s.gWrites c (.feq c fn fmt g a b) g (fun x => if val x a ≠ .nan ∧ val x b ≠ .nan ∧ (match fn with
      | .eq => !(val x a).lt (val x b) && !(val x b).lt (val x a)
      | .lt => (val x a).lt (val x b)
      | .le => !(val x b).lt (val x a)) = true then 1 else 0)) ∧
    s.gWrites c (.fkind c fmt g a) g (fun x => out (fkind fmt (bits x a))) ∧
    (∀ w : Nat, ∃ k < 10, fkind fmt w = 2 ^ k) ∧
    s.gWrites c (.ftoiW c sg fmt rm g a) g (fun x => (BitVec.ofInt 32 ((val x a).toInt rm (range 32).1 (range 32).2)).signExtend 64) ∧
    s.gWrites c (.ftoiL c sg fmt rm g a) g (fun x => BitVec.ofInt 64 ((val x a).toInt rm (range 64).1 (range 64).2)) ∧
    s.fWrites c (.itofW c sg fmt rm rd g) rd (fun x => let v : Word32 := (x.greg g).setWidth 32
      out (pack fmt rm (.ofInt (match sg with | .signed => v.toInt | .unsigned => v.toNat)))) ∧
    s.fWrites c (.itofL c sg fmt rm rd g) rd (fun x =>
      out (pack fmt rm (.ofInt (match sg with | .signed => (x.greg g).toInt | .unsigned => (x.greg g).toNat)))) ∧
    s.fWrites c (.fresize c .d rm rd a) rd (fun x => out (pack .d rm (unpack .s ((x.freg a).toNat % 2 ^ 32)))) ∧
    s.fWrites c (.fresize c .s rm rd a) rd (fun x => out (pack .s rm (unpack .d (x.freg a).toNat))) ∧
    s.gWrites c (.fbitsG c .s g a) g (fun x => ((x.freg a).setWidth 32).signExtend 64) ∧
    s.gWrites c (.fbitsG c .d g a) g (fun x => x.freg a) ∧
    s.fWrites c (.fbitsF c .s rd g) rd (fun x => out ((x.greg g).toNat % 2 ^ 32)) ∧
    s.fWrites c (.fbitsF c .d rd g) rd (fun x => x.greg g)) ∧
  (∀ (fmt : FpFmt) (rm : Rounding) (w : Nat), w < 2 ^ fmt.width → unpack fmt w ≠ .nan → pack fmt rm (unpack fmt w) = w) ∧
  (∀ rm, pack .s rm .nan = 0x7FC00000 ∧ pack .d rm .nan = 0x7FF8000000000000) ∧
  (∀ (neg : Bool) (m : Nat) (e q : Int), e < q →
    let u := 2 ^ (q - e).toNat
    (∀ rm, rm = .nearestEven ∨ rm = .nearestAway →
      2 * (roundAt rm neg m e q * u) ≤ 2 * m + u ∧ 2 * m ≤ 2 * (roundAt rm neg m e q * u) + u) ∧
    roundAt .towardZero neg m e q * u ≤ m ∧ m < (roundAt .towardZero neg m e q + 1) * u ∧
    m ≤ roundAt .towardPos false m e q * u ∧ roundAt .towardPos false m e q * u < m + u ∧
    roundAt .towardPos true m e q = roundAt .towardZero true m e q ∧
    roundAt .towardNeg true m e q = roundAt .towardPos false m e q) ∧
  (∀ (rm : Rounding) (x y : FNum), x.add rm y = y.add rm x ∧ x.mul y = y.mul x ∧ (x = .nan → x.add rm y = .nan ∧ x.mul y = .nan ∧
    x.div y = .nan ∧ y.div x = .nan ∧ x.sqrt = .nan)) ∧
  (∀ (rm : Rounding) (lo hi : Int) (x : FNum), lo ≤ 0 → 0 ≤ hi → lo ≤ x.toInt rm lo hi ∧ x.toInt rm lo hi ≤ hi ∧
    FNum.nan.toInt rm lo hi = 0)

/-- For every core whose instruction is fetched and not barred, and an aligned address that needs no translation at its level. A
load of homed memory that passes its checks and overlaps no buffered store writes rd the bytes there, from the core's own line
if it is in a stable state and else as its home has sent them for this miss, sign- or zero-extended by its mnemonic; FLW writes
bits [63:32] zero. With no line and no miss outstanding it is not performed: the line is asked for by ReadShared, and the PC and
the registers stay. A load of a register window, with no DEV store older and no FENCE.IO to wait for, takes what the bus read
gives. A store with room in the buffer adds one entry with its address, width, data, type, level and EID behind the others and
changes no memory. LDRES with the line held alone also takes its reservation; without the line it asks for it alone by
ReadUnique and waits. STCOND, the buffer empty, with no reservation of the granule writes rd 1 and no memory, and with one not
yet tried, the line held alone and not poisoned, writes rd 0 and its bytes and nothing else of memory; the reservation ends.
What a core that holds no valid copy sees of a line is what memory holds. No other register of the core changes but the counters
and pending vectors. -/
def Obligations.Loads_and_stores : Prop :=
  ∀ (s s1 : State) (c : CoreId) (rd a b : GReg) (fd : FReg) (imm : BitVec 16) (double : Bool), s.coreFetch c.val = some s1 →
    let x := s1.core c.val
    let n := c.val
    let pl := x.pl.toNat
    let ea := (x.greg a + imm.signExtend 64).toNat
    let va := (x.greg a).toNat
    let free := fun w : Nat => w < 2 ^ 46 ∧ (2 ≤ pl ∨ ((x.ef Sr.TCR1).testBit 0 = false ∧ (x.ef Sr.TCR2).testBit 0 = false ∧ x.tlbFind false w = none))
    let clear := fun (w k : Nat) => ∀ e ∈ x.stores, e.addr + e.bytes ≤ w ∨ w + k ≤ e.addr
    let held := fun (w k : Nat) => (s1.coreLine n w).1.toNat / 2 ^ (8 * (w % 64)) % 2 ^ (8 * k)
    let part := fun (d : Line) (w k : Nat) => d.toNat / 2 ^ (8 * (w % 64)) % 2 ^ (8 * k)
    let come := fun (w : Nat) (d : Line) => (∃ l, x.line w = some l ∧ l.st.stable = true ∧ l.data = d) ∨
      ((∀ l, x.line w = some l → l.st.stable = false) ∧ x.missGot (missKey w false) = some (.data d false))
    let waits := fun (t : State) (w : Nat) => (t.core n).pc = x.pc ∧ (t.core n).g = x.g ∧ (t.core n).f = x.f ∧
      (t.core n).stores = x.stores ∧ (t.core n).reserved = x.reserved ∧ t.mem = s1.mem ∧ t.regs = s1.regs ∧
      (t.core n).line w ≠ none ∧ (∀ k, k ≠ n → t.core k = s1.core k)
    let same := fun t : State => t = { s1 with cores := t.cores, agenda := t.agenda } ∧ (∀ k, k ≠ n → t.core k = s1.core k) ∧
      (t.core n).pc = BitVec.ofNat 64 (x.loopEnd x.pc.toNat (x.pc.toNat + 4)).2 ∧ (t.core n).pl = x.pl ∧ (t.core n).eff = x.eff ∧
      (∀ r, srMoves r = false → (t.core n).sr r = x.sr r)
    let gets := fun (t : State) (v : Word64) => ∀ r, (t.core n).greg r = if r = rd ∧ r ≠ 0 then v else x.greg r
    let bytesOf := fun fn : LoadFn => match fn with | .lb | .lbu => 1 | .lh | .lhu => 2 | .lw | .lwu => 4 | .ld => 8
    let extend := fun (fn : LoadFn) (v : Nat) => match fn with
      | .lb => (BitVec.ofNat 8 v).signExtend 64
      | .lh => (BitVec.ofNat 16 v).signExtend 64
      | .lw => (BitVec.ofNat 32 v).signExtend 64
      | _ => BitVec.ofNat 64 v
    let width := fun fn : StoreFn => match fn with | .sb => 1 | .sh => 2 | .sw => 4 | .sd => 8
    let entered := fun (t : State) (k : Nat) (v : Word64) => ∃ e : StoreEntry, (t.core n).stores = x.stores ++ [e] ∧ e.addr = ea ∧
      e.bytes = k ∧ e.data.toNat = v.toNat % 2 ^ (8 * k) ∧ e.type = s1.typeAt ea .wb ∧ e.pl = x.pl ∧ e.eid = BitVec.ofNat 6 x.eid ∧
      e.sent = false
    (∀ w k, s1.holds n w = false → w % 64 + k ≤ 64 → held w k = s1.bytes w k) ∧
    (∀ fn d, ea % bytesOf fn = 0 → s1.plainAt n pl ea = true → clear ea (bytesOf fn) → come ea d →
      ∃ t, exec (.load c fn rd a imm) s = .next t ∧ gets t (extend fn (part d ea (bytesOf fn))) ∧ (t.core n).f = x.f ∧
        (t.core n).stores = x.stores ∧ same t) ∧
    (∀ fn, ea % bytesOf fn = 0 → s1.plainAt n pl ea = true → clear ea (bytesOf fn) → x.line ea = none → x.misses = [] →
      ∃ t q, exec (.load c fn rd a imm) s = .next t ∧ waits t ea ∧ q.line = paddr (lineOf ea) ∧ q.from_ = .core (coreId n) ∧
        t.sends s1 14 (.readShared q)) ∧
    (∀ (fmt : FpFmt) d, let k := (match fmt with | .s => 4 | .d => 8);
      ea % k = 0 → s1.plainAt n pl ea = true → clear ea k → come ea d → ∃ t, exec (.flwFld c fmt fd a imm) s = .next t ∧
        (∀ r, (t.core n).freg r = if r = fd then BitVec.ofNat 64 (part d ea k) else x.freg r) ∧ (t.core n).g = x.g ∧
        (t.core n).stores = x.stores ∧ same t) ∧
    (∀ fn w v s3, free ea → ea % bytesOf fn = 0 → s1.inHomed ea = false → s1.window ea = some w → w.admits ea pl = true →
      clear ea (bytesOf fn) → x.devWaits = false →
      s1.busRead (x.requester n) ea (bytesOf fn) (s1.stampWith (x.slack pl)) = (.ok v, s3) →
      ∃ t, exec (.load c fn rd a imm) s = .next t ∧
        (∀ r, (t.core n).greg r = if r = rd ∧ r ≠ 0 then extend fn v else (s3.core n).greg r) ∧ t.mem = s3.mem ∧ t.regs = s3.regs) ∧
    (∀ fn, free ea → ea % width fn = 0 → x.stores.length < 24 → ∃ t, exec (.store c fn b a imm) s = .next t ∧
      entered t (width fn) (x.greg b) ∧ (t.core n).g = x.g ∧ (t.core n).f = x.f ∧ same t) ∧
    (∀ fmt : FpFmt, let k := (match fmt with | .s => 4 | .d => 8);
      free ea → ea % k = 0 → x.stores.length < 24 → ∃ t, exec (.fswFsd c fmt fd a imm) s = .next t ∧
        entered t k (x.freg fd) ∧ (t.core n).g = x.g ∧ (t.core n).f = x.f ∧ same t) ∧
    (let k := (if double then 8 else 4);
      va % k = 0 → s1.plainAt n pl va = true → clear va k → s1.companionLeaves n va = false →
      (x.line va = none → tabFind x.refused (lineOf va) = none → s1.purging n = false → ∃ t q, exec (.ldres c double rd a) s = .next t ∧
        waits t va ∧ q.line = paddr (lineOf va) ∧ q.from_ = .core (coreId n) ∧ t.sends s1 14 (.readUnique q)) ∧
      ∀ l, x.line va = some l → (l.st = .m ∨ l.st = .e) → ∃ t, exec (.ldres c double rd a) s = .next t ∧
        gets t (if double then BitVec.ofNat 64 (part l.data va k) else (BitVec.ofNat 32 (part l.data va k)).signExtend 64) ∧ (t.core n).f = x.f ∧
        (∃ r, (t.core n).reserved = some r ∧ r.line = lineOf va ∧ r.at_ = s1.clk ∧ r.issued = false ∧ r.cycles = 0) ∧
        (t.core n).stores = x.stores ∧ same t) ∧
    (let k := (if double then 8 else 4);
      va % k = 0 → s1.plainAt n pl va = true → inRom va = false → x.stores = [] →
      ((∀ r, x.reserved = some r → r.line / 128 ≠ va / 128) → ∃ t, exec (.stcond c double rd a b) s = .next t ∧ gets t 1 ∧
        (t.core n).reserved = none ∧ same t) ∧
      (∀ r l, x.reserved = some r → r.line / 128 = va / 128 → r.issued = false → x.line va = some l → (l.st = .m ∨ l.st = .e) →
        l.poison = false → ∃ t, exec (.stcond c double rd a b) s = .next t ∧ gets t 0 ∧ (t.core n).reserved = none ∧
          (∀ i < k, t.byte (va + i) = BitVec.ofNat 8 ((x.greg b).toNat >>> (8 * i))) ∧
          (∀ w, w < va ∨ va + k ≤ w → t.byte w = s1.byte w) ∧ (∀ m, m ≠ n → t.core m = (s1.core m).written (lineOf va)) ∧
          t = { s1 with cores := t.cores, agenda := t.agenda, mem := t.mem }))

/-- For every core whose instruction is fetched and not barred and whose handler can be fetched: SVCALL below PL3, HVCALL at PL2 or
at PL1 without HVC_DIS, and MONCALL take codes 0x0C, 0x0D and 0x0E with imm16 in ESYND and ELR behind the instruction; a word
that the decoder of the main cores refuses, SVCALL at PL3 and HVCALL elsewhere take ILLEGAL at the instruction. The level is
that of R170, PL3 while EID is not 0; ELR, ESTAT, ECAUSE, EADDR, ESYND and the six LSAVE take the values R172 lists, the loop
counts and the reservation are cleared, and execution goes on at VBAR, 0x200 further from another level; general and floating-
point registers, memory and other cores stay. ERET above PL0 with ESTAT.PL not above the level and an aligned ELR restores
level, PC and the loop registers, of LSAVE the bits they have, and leaves EID, ISL and memory; at PL0 it raises PRIV, and with
ESTAT.PL above the level ILLEGAL. -/
def Obligations.Calls_exceptions_and_return : Prop :=
  ∀ (s s1 : State) (c : CoreId) (imm : BitVec 16) (w : Word32), s.coreFetch c.val = some s1 → (s.core c.val).atLoopEnd = false →
    let x := s1.core c.val
    let pl := x.pl.toNat
    let hvc := pl = 2 ∨ (pl = 1 ∧ (x.ef Sr.HCTL).testBit 3 = false)
    (pl ≠ 3 → s.coreTraps c (.svcall c imm) 0x0C 0 imm.toNat 4) ∧ (pl = 3 → s.coreTraps c (.svcall c imm) 0x01 0 0 0) ∧
    (hvc → s.coreTraps c (.hvcall c imm) 0x0D 0 imm.toNat 4) ∧ (¬ hvc → s.coreTraps c (.hvcall c imm) 0x01 0 0 0) ∧
    s.coreTraps c (.moncall c imm) 0x0E 0 imm.toNat 4 ∧ (decodeCoreWord c w = none → s.coreTraps c (.illegalInstruction c w) 0x01 0 0 0) ∧
    (pl = 0 → s.coreTraps c (.eret c) 0x02 0 0 0) ∧
    (0 < pl → pl < fld (x.sr (Sr.ESTAT pl)) 1 0 → s.coreTraps c (.eret c) 0x01 0 0 0) ∧
    (0 < pl → fld (x.sr (Sr.ESTAT pl)) 1 0 ≤ pl → x.sr (Sr.ELR pl) % 4 = 0 → ∃ t, exec (.eret c) s = .next t ∧
      (t.core c.val).pl.toNat = fld (x.sr (Sr.ESTAT pl)) 1 0 ∧ (t.core c.val).pc.toNat = x.sr (Sr.ELR pl) ∧
      (∀ k < 6, (t.core c.val).sr (0x010 + k) = if k % 3 = 0 then x.sr (Sr.LSAVE pl k) % 2 ^ 32 else loopBits (x.sr (Sr.LSAVE pl k))) ∧ (t.core c.val).eff = x.eff ∧ (t.core c.val).g = x.g ∧
      (t.core c.val).f = x.f ∧ (t.core c.val).reserved = x.reserved ∧ (t.core c.val).stores = x.stores ∧
      (∀ r, srMoves r = false → (∀ k < 6, r ≠ 0x010 + k) → (t.core c.val).sr r = x.sr r) ∧
      (∀ k, k ≠ c.val → t.core k = s1.core k) ∧ t = { s1 with cores := t.cores, agenda := t.agenda })

/-- For every core whose instruction is fetched and not barred. MFSR of a listed register at its level, no counter register, writes
its value to rd; MTSR of a register marked Latent stores the value, opens a window and leaves the value in effect; MTSR of
EADDR, ELR or LSAVE stores at once. An unlisted number, and a write of a read-only register, raise ILLEGAL, and a level too low
PRIV. FENCE, FENCE.SL and SYNC.I retire with the store buffer empty, SYNC.I emptying the loop buffer, and otherwise make the
core wait at their PC until it is; FENCE.IO waits at its PC while a DEV store is buffered, and then notes the stores that a DEV
load must await; FENCE.L only retires. RDGT writes GT to rd, and traps at PL0 and PL1 under HCTL.TRDGT. WFI makes the core wait
with the PC behind it and commits what is pending, and traps under HCTL.TWFI. A TLBI at its level with an empty store buffer
removes from every core's TLBs exactly the entries R258 names, keeps the core from its next instruction and completes 180 ns
later at the earliest, and with stores buffered waits at its PC; below its level it raises PRIV. -/
def Obligations.System_registers_and_barriers : Prop :=
  ∀ (s s1 : State) (c : CoreId) (rd a b : GReg) (r : BitVec 12), s.coreFetch c.val = some s1 →
    let x := s1.core c.val
    let n := c.val
    let m := r.toNat
    let pl := x.pl.toNat
    let counter := 0x200 ≤ m ∧ m < 0x300
    let next := BitVec.ofNat 64 (x.loopEnd x.pc.toNat (x.pc.toNat + 4)).2
    let frame := fun t : State => t = { s1 with cores := t.cores, agenda := t.agenda } ∧ (∀ k, k ≠ n → t.core k = s1.core k) ∧
      (t.core n).f = x.f ∧ (t.core n).pl = x.pl ∧ (t.core n).stores = x.stores
    (∀ i, srInfo m = some i → ¬ counter → i.read ≤ pl → s.gWrites c (.mfsr c rd r) rd (fun y =>
      if m = Sr.COREID then BitVec.ofNat 64 (s.coreIdReg n) else if m = Sr.PSTATE then BitVec.ofNat 64 (pl + y.eid * 2 ^ 8)
      else if m = Sr.EOI 1 ∨ m = Sr.EOI 2 ∨ m = Sr.EOI 3 then 0 else BitVec.ofNat 64 (x.sr m))) ∧
    (srInfo m = none → s.coreTraps c (.mfsr c rd r) 1 0 0 0 ∧ s.coreTraps c (.mtsr c a r) 1 0 0 0) ∧
    (∀ i, srInfo m = some i → ¬ counter → (pl < i.read → s.coreTraps c (.mfsr c rd r) 2 0 0 0) ∧
      (i.write = none → s.coreTraps c (.mtsr c a r) 1 0 0 0) ∧ (∀ l, i.write = some l → pl < l → s.coreTraps c (.mtsr c a r) 2 0 0 0)) ∧
    (∀ i l, srInfo m = some i → i.write = some l → l ≤ pl → i.latent = true → ¬ (pl = 1 ∧ (m = Sr.TTB1 ∨ m = Sr.TCR1)) → m ≠ Sr.MCTL →
      ∃ t, exec (.mtsr c a r) s = .next t ∧ (∃ w, (t.core n).latent = [w] ∧ w.number = m ∧ w.left = 3 ∧ w.value.toNat = (t.core n).sr m) ∧
        (t.core n).sr m = (x.sr m ^^^ (x.sr m &&& i.rw)) ||| ((x.greg a).toNat &&& i.rw) ∧ (t.core n).eff = x.eff ∧
        (t.core n).g = x.g ∧ (t.core n).pc = next ∧ frame t) ∧
    (∀ lvl ∈ [1, 2, 3], lvl ≤ pl → m ∈ [Sr.EADDR lvl, Sr.ELR lvl, Sr.LSAVE lvl 1] → ∃ t, exec (.mtsr c a r) s = .next t ∧
      (t.core n).sr m = (x.greg a).toNat ∧ (∀ q, q ≠ m → srMoves q = false → (t.core n).sr q = x.sr q) ∧ (t.core n).latent = [] ∧
      (t.core n).eff = x.eff ∧ (t.core n).g = x.g ∧ (t.core n).pc = next ∧ frame t) ∧
    (∀ i ∈ [Instr.fence c, .fenceSl c, .syncI c],
      (x.stores = [] → ∃ t, exec i s = .next t ∧ (t.core n).drainWait = false ∧
        (i = .syncI c → (∀ k < 2, x.sr (Sr.LOOPCNT k) = 0) → (t.core n).loopBuffer = none) ∧ (t.core n).g = x.g ∧ (t.core n).pc = next ∧
        frame t) ∧
      (x.stores ≠ [] → ∃ t, exec i s = .next t ∧ (t.core n).drainWait = true ∧ (t.core n).g = x.g ∧ (t.core n).pc = x.pc ∧ frame t)) ∧
    (∃ t, exec (.fenceL c) s = .next t ∧ s1.coreRan t n x none) ∧
    (let dev := x.stores.any (fun e => e.type == .dev);
      (dev = false → ∃ t, exec (.fenceIo c) s = .next t ∧ (t.core n).ioWait = x.drained + x.stores.length ∧ (t.core n).g = x.g ∧
        (t.core n).pc = next ∧ frame t) ∧
      (dev = true → ∃ t, exec (.fenceIo c) s = .next t ∧ (t.core n).ioWait = x.ioWait ∧ (t.core n).g = x.g ∧ (t.core n).pc = x.pc ∧
        frame t)) ∧
    (let trapped := pl ≤ 1 ∧ (x.ef Sr.HCTL).testBit 2 = true;
      (¬ trapped → s.gWrites c (.rdgt c rd) rd (fun _ => s.gt.now)) ∧ (trapped → s.coreTraps c (.rdgt c rd) 0x10 0 0 0)) ∧
    ((s.core n).atLoopEnd = false → let trapped := pl ≤ 1 ∧ (x.ef Sr.HCTL).testBit 0 = true;
      (¬ trapped → ∃ t, exec (.wfi c) s = .next t ∧ (t.core n).run = .waiting ∧ (t.core n).pc = x.pc + 4 ∧ (t.core n).latent = [] ∧
        (t.core n).g = x.g ∧ (t.core n).eff = x.eff ∧ frame t) ∧ (trapped → s.coreTraps c (.wfi c) 0x10 0 0 0)) ∧
    (let vmid := x.vmid
      ∀ (i : Instr) (level : Nat) (op : TlbiOp), ((i = .tlbiVa c a b ∧ level = 1 ∧ op = .va vmid (x.greg a).toNat ((x.greg b).toNat % 2 ^ 16)) ∨
          (i = .tlbiAsid c a ∧ level = 1 ∧ op = .asid vmid ((x.greg a).toNat % 2 ^ 16)) ∨ (i = .tlbiGuest c ∧ level = 1 ∧ op = .guest vmid) ∨
          (i = .tlbiIpa c a b ∧ level = 2 ∧ op = .ipa ((x.greg b).toNat % 2 ^ 12) (x.greg a).toNat) ∨
          (i = .tlbiVmid c a ∧ level = 2 ∧ op = .vmid ((x.greg a).toNat % 2 ^ 12)) ∨ (i = .tlbiAll c ∧ level = 2 ∧ op = .all)) →
        (pl < level → s.coreTraps c i 2 0 0 0) ∧
        (level ≤ pl → x.stores ≠ [] → ∃ t, exec i s = .next t ∧ (t.core n).drainWait = true ∧ (t.core n).tlbi = none ∧
          (t.core n).g = x.g ∧ (t.core n).pc = x.pc ∧ frame t) ∧
        (level ≤ pl → x.stores = [] → ∃ t, exec i s = .next t ∧ (∀ k, (t.core k).itlb = (s1.core k).itlb.filter (fun e => !op.removes e) ∧
            (t.core k).dtlb = (s1.core k).dtlb.filter (fun e => !op.removes e) ∧
            (t.core k).l2tlb = (s1.core k).l2tlb.filter (fun e => !op.removes e)) ∧
          (∃ ws, (t.core n).tlbi = some (op, some ws)) ∧ t.sends s1 180 (.tlbiCompletion c) ∧ (t.core n).g = x.g ∧
          (∀ k, k ≠ n → (t.core k).g = (s1.core k).g ∧ (t.core k).stores = (s1.core k).stores) ∧ (t.core n).pc = next ∧
          t = { s1 with cores := t.cores, qes := t.qes, agenda := t.agenda }))

/-- For every core. LATENT_WINDOW_END makes a single pending change take effect once its window has run, and none before.
INTERRUPT_ENTRY of a takeable vector, with no latent change pending, EID 0 and a readable entry and handler, clears its PEND
bit, sets its level in ISL and enters at the address that the vector table gives, with ELR the address of the first instruction
not retired. TIMER_VECTOR sets vector 253 of its view once GT has reached the compare, once for each write. STORE_DRAIN of a WB
entry whose line the core holds alone writes its bytes to memory, takes every other core's reservation of the granule and drops
the entry; an NC entry is sent to its home with its bytes and stays. RESERVATION_TIMEOUT drops a reservation once 4,096 core
cycles, at the clock points they were run at, have passed since its LDRES, if no STCOND issued. TLBI_COMPLETION lets the core go
on once every agent reached is done, and until then looks again. -/
def Obligations.Core_events : Prop :=
  ∀ (s : State) (c : CoreId),
    let n := c.val
    let x := s.core n
    let frame := fun t : State => t = { s with cores := t.cores, agenda := t.agenda } ∧ (∀ k, k ≠ n → t.core k = s.core k)
    (∀ w : LatentWrite, x.latent = [w] → ∃ t, exec (.latentWindowEnd c) s = .next t ∧ frame t ∧ (t.core n).g = x.g ∧ (t.core n).pc = x.pc ∧
      (w.left = 0 → (t.core n).latent = [] ∧ (t.core n).ef w.number = w.value.toNat ∧
        (∀ k, k ≠ w.number → (t.core n).ef k = x.ef k) ∧ (∀ k, k ≠ Sr.MCTL → (t.core n).sr k = x.sr k)) ∧
      (w.left ≠ 0 → t.core n = x)) ∧
    (∀ v k a target, x.latent = [] → x.takeable = some (v, k) → s.mayInterrupt n = true → x.eid = 0 → x.stepping = false →
      a = x.sr (Sr.IVBAR v) + 8 * k → a % 8 = 0 → s.plainAt n v a = true →
      s.readRefused n a = false → (s.coreLine n a).2 = false →
      target = (s.coreLine n a).1.toNat / 2 ^ (8 * (a % 64)) % 2 ^ 64 → target % 4 = 0 → s.plainAt n v target = true →
      ∃ t, exec (.interruptEntry c) s = .next t ∧ frame t ∧
        x.entered (t.core n) v (causeWord 0 k true false x.pl.toNat v) 0 0 x.pc.toNat target ∧
        (k ≠ 254 → ((t.core n).sr (Sr.PEND v (k / 64))).testBit (k % 64) = false) ∧
        (t.core n).sr (Sr.ISL v) = putFld (x.sr (Sr.ISL v)) (k / 16) (k / 16) 1) ∧
    (x.takeable = none → x.latent = [] → ∃ t, exec (.interruptEntry c) s = .next t ∧ frame t ∧ t.core n = x ∧ t.agenda = s.agenda) ∧
    (∀ v : View, let p := Sr.PEND (viewNo v) 3
      (v ∈ x.timerFired → exec (.timerVector c v) s = .next s) ∧
      (v ∉ x.timerFired → s.coreUp n = true → x.sr (Sr.TMR (viewNo v)) ≤ s.now → ∃ t, exec (.timerVector c v) s = .next t ∧ frame t ∧
        (t.core n).sr p = putFld (x.sr p) 61 61 1 ∧ (∀ k, k ≠ p → (t.core n).sr k = x.sr k) ∧ (t.core n).timerFired = v :: x.timerFired ∧
        (t.core n).pc = x.pc ∧ (t.core n).g = x.g) ∧
      (v ∉ x.timerFired → s.now < x.sr (Sr.TMR (viewNo v)) → ∃ t, exec (.timerVector c v) s = .next t ∧ t = { s with agenda := t.agenda })) ∧
    (x.stores = [] → exec (.storeDrain c) s = .next s) ∧
    (∀ e es, x.stores = e :: es → e.sent = false → s.storeBar e = none → inRom e.addr = false →
      (∀ l, e.type = .wb → tabFind x.refused (lineOf e.addr) = none → x.line e.addr = some l → (l.st = .m ∨ l.st = .e) → s.purging n = false →
        ∃ t, exec (.storeDrain c) s = .next t ∧ (t.core n).stores = es ∧ (t.core n).drained = x.drained + 1 ∧ (t.core n).g = x.g ∧
          (∀ i < e.bytes, t.byte (e.addr + i) = BitVec.ofNat 8 (e.data.toNat >>> (8 * i))) ∧
          (∀ b, b < e.addr ∨ e.addr + e.bytes ≤ b → t.byte b = s.byte b) ∧
          (∀ k, k ≠ n → t.core k = (s.core k).written (lineOf e.addr)) ∧
          t = { s with cores := t.cores, agenda := t.agenda, mem := t.mem }) ∧
      (e.type = .nc → ∃ t, exec (.storeDrain c) s = .next t ∧ (t.core n).stores = { e with sent := true } :: es ∧ frame t ∧
        ∃ q, t.sends s 14 (.writePartial q (BitVec.ofNat 64 ((2 ^ e.bytes - 1) * 2 ^ (e.addr % 64)))
          (BitVec.ofNat 512 (e.data.toNat % 2 ^ (8 * e.bytes) * 2 ^ (8 * (e.addr % 64))))) ∧
          q.line = paddr (lineOf e.addr) ∧ q.from_ = .core c ∧ q.eid = e.eid ∧ q.dev = false)) ∧
    (x.reserved = none → exec (.reservationTimeout c) s = .next s) ∧
    (∀ r, x.reserved = some r → let beyond_ := r.issued = false ∧ 4096 ≤ r.cycles + s.cyclesIn n (s.clk - r.at_);
      (¬ beyond_ → exec (.reservationTimeout c) s = .next s) ∧
      (beyond_ → ∃ t, exec (.reservationTimeout c) s = .next t ∧ t.core n = { x with reserved := none } ∧ frame t ∧ t.agenda = s.agenda)) ∧
    (x.tlbi = none → exec (.tlbiCompletion c) s = .next s) ∧
    (∀ o ws, x.tlbi = some (o, some ws) →
      (ws.all s.tlbiDone = true → ∃ t, exec (.tlbiCompletion c) s = .next t ∧ t.core n = { x with tlbi := none } ∧ frame t) ∧
      (ws.all s.tlbiDone = false → ∃ t, exec (.tlbiCompletion c) s = .next t ∧ t.sends s 10 (.tlbiCompletion c) ∧
        t = { s with agenda := t.agenda }))

/-- For every core and bank. A counter that wraps while it counts becomes 0 and sets its OVF bit, fills the sample if none is valid,
and with its interrupt enabled sets vector 254 in the owner's view; while nothing counts it changes nothing. PMU_CLR makes the
ten counters 0, and PMB_CLR the four of a bank, leaving xx_PMB_CTRL. A wrap of a bank's counter that counts makes it 0 and sets
its OVF bit. ARM sets ARMED and waits for the instant in GT_SHUTTER; before it SHUTTER_TAKE only waits on, and at it, unless it
falls in the clock of the last, copies every bank counter and the counters of every powered core to their shadows, clears ARMED,
sets TAKEN and GT_SHUTTER_GT and counts SEQ. FREEZE takes the bit written, and while it is 1 no counter of a core or a bank
counts. The clocks of a full queue or of back-pressure that run are part of what a shutter copies, and a clear or a freeze
counts them anew from its clock. -/
def Obligations.Counters_and_shutter : Prop :=
  (∀ (s : State) (c : CoreId) (i : BitVec 4),
    let n := c.val
    let k := i.toNat
    let x := s.core n
    let ie := if k = 8 then (x.sr Sr.PMU_CTRL).testBit 5 else if k = 9 then (x.sr Sr.PMU_CTRL).testBit 6 else (x.sr (Sr.PMSEL k)).testBit 12
    let p := Sr.PEND x.pmuView 3
    let frame := fun t : State => t = { s with cores := t.cores, agenda := t.agenda } ∧ (∀ k, k ≠ n → t.core k = s.core k) ∧
      (t.core n).g = x.g ∧ (t.core n).pc = x.pc ∧ (∀ r, srMoves r = false → (t.core n).sr r = x.sr r)
    (s.counting n = false → exec (.counterOverflow c i) s = .next s) ∧
    (s.counting n = true → k < 10 → ∃ t, exec (.counterOverflow c i) s = .next t ∧ (t.core n).sr (Sr.PMC k) = 0 ∧
      (t.core n).sr Sr.PMU_OVF = putFld (x.sr Sr.PMU_OVF) k k 1 ∧
      (t.core n).sr Sr.PMU_SAMPLE = (if (x.sr Sr.PMU_SAMPLE).testBit 31 then x.sr Sr.PMU_SAMPLE else 2 ^ 31 + k * 2 ^ 8) ∧
      (t.core n).sr p = (if ie then putFld (x.sr p) 62 62 1 else x.sr p) ∧ frame t) ∧
    (∃ t, exec (.pmuClr c) s = .next t ∧ (∀ j < 10, (t.core n).sr (Sr.PMC j) = 0) ∧ frame t)) ∧
  (∀ (s : State) (bank : BankUnit) (who : Requester) (k : BitVec 2),
    let b := bankBlock bank
    (∃ t, exec (.pmbClr bank who) s = .next t ∧ (∀ j < 4, t.rd (b + 0x820 + 8 * j) = 0) ∧
      (∀ e u, s.runningEvent b = some (e, u) → t.runningEvent b = some (e, s.clk)) ∧
      t = { s with regs := t.regs, homes := t.homes, mcs := t.mcs, arbs := t.arbs } ∧
      (s.runningEvent b = none → t = { s with regs := t.regs } ∧ s.regsKept t [b + 0x820, b + 0x828, b + 0x830, b + 0x838])) ∧
    (s.rb (b + 0x800) 0 = true → s.rb Reg.GT_PMU_FREEZE 0 = false → ∃ t, exec (.pmbWrap bank k) s = .next t ∧
      t.rd (b + 0x820 + 8 * k.toNat) = 0 ∧ t.rb (b + 0x800) (8 + k.toNat) = true ∧ s.bitsKept t (b + 0x800) (8 + k.toNat) (8 + k.toNat) ∧
      t = { s with regs := t.regs } ∧ s.regsKept t [b + 0x800, b + 0x820 + 8 * k.toNat]) ∧
    ((s.rb (b + 0x800) 0 = false ∨ s.rb Reg.GT_PMU_FREEZE 0 = true) → exec (.pmbWrap bank k) s = .next s)) ∧
  (∀ (s : State) (who : Requester) (v : Word32),
    let at_ := s.rd Reg.GT_SHUTTER
    let seq := (s.rf Reg.GT_SHUTTER_CTRL 31 16 + 1) % 2 ^ 16
    (∃ t, exec (.arm who) s = .next t ∧ t.rb Reg.GT_SHUTTER_CTRL 1 = true ∧ s.bitsKept t Reg.GT_SHUTTER_CTRL 1 1 ∧
      t.sends s (at_ - s.now) .shutterTake ∧ t = { s with regs := t.regs, agenda := t.agenda } ∧ s.regsKept t [Reg.GT_SHUTTER_CTRL]) ∧
    (s.rb Reg.GT_SHUTTER_CTRL 1 = false → exec .shutterTake s = .next s) ∧
    (s.rb Reg.GT_SHUTTER_CTRL 1 = true → s.now < at_ → ∃ t, exec .shutterTake s = .next t ∧ t.sends s (at_ - s.now) .shutterTake ∧
      t = { s with agenda := t.agenda }) ∧
    (s.rb Reg.GT_SHUTTER_CTRL 1 = true → at_ ≤ s.now → ¬ (s.rb Reg.GT_SHUTTER_CTRL 2 = true ∧ s.rd Reg.GT_SHUTTER_GT = s.now) →
      ∃ t, exec .shutterTake s = .next t ∧ t.rb Reg.GT_SHUTTER_CTRL 1 = false ∧ t.rb Reg.GT_SHUTTER_CTRL 2 = true ∧
        t.rf Reg.GT_SHUTTER_CTRL 31 16 = seq ∧ t.rd Reg.GT_SHUTTER_GT = at_ ∧
        (∀ b ∈ bankBlocks, ∀ k < 4, t.rd (b + 0x840 + 8 * k) = s.bankCount b k ∧
          t.rd (b + 0x820 + 8 * k) = s.rd (b + 0x820 + 8 * k)) ∧
        (∀ c : CoreId, s.coreUp c.val = true → (∀ k < 10, t.sr c.val (Sr.PMS k) = t.sr c.val (Sr.PMC k)) ∧
          t.sr c.val Sr.PMU_SHADOW = 1 + seq * 2 ^ 16) ∧
        t = { s with regs := t.regs, cores := t.cores, agenda := t.agenda }) ∧
    (∃ t, exec (.freeze who v) s = .next t ∧ t.rb Reg.GT_PMU_FREEZE 0 = v.getLsbD 0 ∧ s.bitsKept t Reg.GT_PMU_FREEZE 0 0 ∧
      (v.getLsbD 0 = true → (∀ c, t.counting c = false) ∧ ∀ b e k, t.bankEvent b e k = t) ∧
      (∀ b ∈ bankBlocks, ∀ e u, s.runningEvent b = some (e, u) → t.runningEvent b = some (e, s.clk)) ∧
      t = { s with regs := t.regs, cores := t.cores, agenda := t.agenda, homes := t.homes, mcs := t.mcs, arbs := t.arbs } ∧
      ((∀ b ∈ bankBlocks, s.runningEvent b = none) → t = { s with regs := t.regs, cores := t.cores, agenda := t.agenda } ∧
        s.regsKept t [Reg.GT_PMU_FREEZE])))

/-- The contact sheet's intake releases its oldest event: into the first of the 16 newest valid entries with its class, unit and
address, or as a new entry with the next SEQ. A mirror copy is presented to ARB_MC port 65. A doorbell of another EID sets its
sender's flag; of its own, one within SIZE moves TAIL, is counted and makes a FIFO entry, any other is counted as rejected. A
scan with nothing found ends SCAN. With all channels free, a FIFO entry gives its queue to channel 0, which presents the fetch
of the next descriptor to port 32. A fetched descriptor of another GEN puts the queue in WAIT_GEN, an error in its context in
ERROR, and a COPY whose ranges pass its checks presents its first 4 KiB. A completion write sends the 16 bytes of R370, moves
HEAD and counts; a completion that returns with the queue's GEN ends its descriptor, with another it is counted as discarded.
Memory stays in all of these. -/
def Obligations.Contact_sheet_and_queues : Prop :=
  (∀ (s : State) (e : SheetEvent) (rest : List SheetEvent), s.sheet.intake = e :: rest →
    ((∀ x ∈ s.sheet.ring.take 16, x.merges e = false) → ∃ t y, exec .contactEvent s = .next t ∧
      t.sheet.ring = (y :: s.sheet.ring).take 4096 ∧ y.ev = e ∧ y.valid = true ∧ y.lost = s.sheet.lostPending ∧ y.repeats = 0 ∧
      y.seq = s.sheet.seq ∧ t.sheet.seq = s.sheet.seq + 1 ∧ t.sheet.intake = rest ∧ t.sheet.lostPending = false ∧
      t = { s with regs := t.regs, sheet := t.sheet, agenda := t.agenda } ∧ s.regsKept t [Reg.IRT_SRC_CFG 2902]) ∧
    (∀ pre x post, s.sheet.ring = pre ++ x :: post → pre.length < 16 → (∀ y ∈ pre, y.merges e = false) → x.merges e = true →
      ∃ t, exec .contactEvent s = .next t ∧
        t.sheet.ring = pre ++ { x with repeats := if x.repeats = 0xFFFF then 0xFFFF else x.repeats + 1 } :: post ∧
        t.sheet.seq = s.sheet.seq ∧ t.sheet.intake = rest ∧ t = { s with sheet := t.sheet, agenda := t.agenda })) ∧
  (∀ (s : State) (q : Word32) (rest : List Word32), s.sheet.toMirror = q :: rest →
    let a := s.sheet.mirrorBase + q.toNat % s.sheet.mirrorSize * 32
    let after := fun t : State => t.sheet = { s.sheet with toMirror := rest } ∧
      t = { s with sheet := t.sheet, agenda := t.agenda, work := t.work, nextTag := t.nextTag }
    ((s.sheet.mirrorSize = 0 ∨ s.inDram a = false) → ∃ t, exec .mirrorCopy s = .next t ∧ after t ∧ t.agenda = s.agenda) ∧
    (s.sheet.mirrorSize ≠ 0 → s.inDram a = true → ∃ t r, exec .mirrorCopy s = .next t ∧ after t ∧
      t.sends s 1 (.arbRequest (Fin.ofNat 14 (s.dramLoc a).mc) r) ∧ r.port = 65 ∧ r.bytes = 32 ∧ t.workOf r.tag = some (.mirror q))) ∧
  (∀ (s : State) (q : QueueId) (who : Requester) (v : Word64) (stamp : Stamp),
    let n := q.val
    let e := engineOf n
    let add := v.getLsbD 31
    let k := v.toNat % 2 ^ 24
    let tail := if add then (s.qTail n + k) % 2 ^ 24 else k
    let beyond_ := if add then s.qSize n < s.qHeld n + k else s.qSize n < diff24 tail (s.qHead n)
    let fewer := add = false ∧ diff24 tail (s.qHead n) < s.qHeld n ∧ s.qState n ≠ qWaitGen
    (s.queueEid n ≠ who.eid.toNat →
      (∀ m, who.agent = .compare m → ∃ t, exec (.doorbell q who v stamp) s = .next t ∧ t.rb (Reg.CMP_STATUS m.val) 3 = true ∧
        t = { s with regs := t.regs } ∧ s.regsKept t [Reg.CMP_STATUS m.val]) ∧
      (∀ p, who.agent = .phaseCore p → ∃ t, exec (.doorbell q who v stamp) s = .next t ∧ t.rb (Reg.PCC_STATUS p.val) 7 = true ∧
        t = { s with regs := t.regs } ∧ s.regsKept t [Reg.PCC_STATUS p.val])) ∧
    (s.queueEid n = who.eid.toNat → (add = true ∧ k = 0) → exec (.doorbell q who v stamp) s = .next s) ∧
    (s.queueEid n = who.eid.toNat → ¬ (add = true ∧ k = 0) → (s.qWorks n = false ∨ beyond_ ∨ fewer) →
      ∃ t, exec (.doorbell q who v stamp) s = .next t ∧
        t.rd (Reg.QE_DB_REJECT e) = min (2 ^ 32 - 1) (s.rd (Reg.QE_DB_REJECT e) + 1) ∧ (s.qState n ≠ qUnbound → t.rb (qstat n) 59 = true) ∧
        t.qTail n = s.qTail n ∧ t = { s with regs := t.regs } ∧ s.regsKept t [Reg.QE_DB_REJECT e, qstat n]) ∧
    (s.queueEid n = who.eid.toNat → ¬ (add = true ∧ k = 0) → s.qWorks n = true → ¬ beyond_ → ¬ fewer →
      ∃ t, exec (.doorbell q who v stamp) s = .next t ∧ t.qTail n = tail ∧ t.qHead n = s.qHead n ∧ t.qGen n = s.qGen n ∧
        t.rd (Reg.QE_DB_COUNT e) = (s.rd (Reg.QE_DB_COUNT e) + 1) % 2 ^ 64 ∧
        ((s.queue n).kind ≠ typeRx → diff24 tail (s.queue n).next ≠ 0 → s.rb (Reg.QE_STATUS e) 13 = false →
          (s.qe e).fifo.length < 4096 → (t.qe e).fifo = (s.qe e).fifo ++ [(n, tail, stamp)]) ∧
        t = { s with regs := t.regs, qes := t.qes, agenda := t.agenda } ∧ (∀ d, d ≠ e → t.qe d = s.qe d))) ∧
  (∀ (s : State) (e : QeId),
    (s.rb (Reg.QE_STATUS e.val) 13 = false → exec (.doorbellScan e) s = .next s) ∧
    (s.rb (Reg.QE_STATUS e.val) 13 = true → (s.qe e.val).fifo = [] → (s.qe e.val).bitmap = [] → (s.qe e.val).scanHit = false →
      ∃ t, exec (.doorbellScan e) s = .next t ∧ t.rb (Reg.QE_STATUS e.val) 13 = false ∧ s.bitsKept t (Reg.QE_STATUS e.val) 13 13 ∧
        t = { s with regs := t.regs } ∧ s.regsKept t [Reg.QE_STATUS e.val]) ∧
    (∀ q tail stamp v tl, (s.qe e.val).fifo = [(q, tail, stamp)] → (s.qe e.val).chans = [] → (s.qe e.val).rx = [] →
      s.rb (Reg.QE_STATUS e.val) 13 = false → s.qWorks q = true → diff24 tail (s.queue q).next ≠ 0 → s.viOfQueue q = some v →
      let ipa := (s.queue q).ring + 32 * ((s.queue q).next % 2 ^ (s.queue q).log2)
      let pa := tl.ppage + (ipa - tl.ipage)
      (s.qe e.val).tlb.find? (fun t => decide (t.vmid = s.viVmid v) && decide (t.ipage = ipa / 2 ^ t.size * 2 ^ t.size)) = some tl →
      ipa < 2 ^ 46 → tl.r = true → ipa - tl.ipage + 32 ≤ 2 ^ tl.size → s.inDram pa = true → s.inDram (pa + 31) = true → tl.type ≠ .dev →
      ∃ t r, exec (.channelAssign e) s = .next t ∧ (t.chan e.val 0).queue = some q ∧ (t.chan e.val 0).tail = tail ∧
        (t.chan e.val 0).stamp = stamp ∧ t.sends s 15 (.arbRequest (Fin.ofNat 14 (8 + e.val)) r) ∧ r.port = 32 ∧ r.bytes = 32 ∧
        r.key = BitVec.ofNat 46 pa ∧ r.stamp = stamp ∧ t.workOf r.tag = some (.fetch e 0) ∧
        t = { s with regs := t.regs, qes := t.qes, agenda := t.agenda, work := t.work, nextTag := t.nextTag })) ∧
  (∀ (s : State) (e : QeId) (ch : ChanId) (q v pa : Nat), q < 262144 → let c := s.chan e.val ch.val
    c.queue = some q → c.desc = none →
    (∃ t, exec (.descriptorFetched e ch true) s = .next t ∧ t.qState q = qError ∧ (t.queue q).flight = [] ∧ t.mem = s.mem) ∧
    (c.a = [(32, pa)] → s.viOfQueue q = some v → s.ertPermits (s.viEid v) pa false = true → s.poisoned (lineOf pa) = false →
      let x := s.queue q
      let d := descrOf (toBytes 32 (s.bytes pa 32)) x.next c.stamp
      (d.gen.toNat ≠ s.qGen q → ∃ t, exec (.descriptorFetched e ch false) s = .next t ∧ t.qState q = qWaitGen ∧ t.rb (qstat q) 60 = true ∧
        t.qHead q = s.qHead q ∧ t.qTail q = s.qTail q ∧ (t.queue q).flight = x.flight ∧ t.mem = s.mem) ∧
      (∀ ta tb, d.gen.toNat = s.qGen q → s.formatBad x d ((toBytes 32 (s.bytes pa 32)).getD 21 0) = false → d.kind = typeCopy →
        c.frame = none →
        let hit := fun (ipa : Nat) (tl : QeTlb) => (s.qe e.val).tlb.find? (fun t => decide (t.vmid = s.viVmid v) &&
            decide (t.ipage = ipa / 2 ^ t.size * 2 ^ t.size)) = some tl ∧ ipa < 2 ^ 46 ∧ ipa - tl.ipage + d.length ≤ 2 ^ tl.size ∧
          s.inDram (tl.ppage + (ipa - tl.ipage)) = true ∧ s.inDram (tl.ppage + (ipa - tl.ipage) + d.length - 1) = true ∧ tl.type ≠ .dev
        hit d.a.toNat ta → ta.r = true → hit d.b.toNat tb → tb.w = true →
        ∃ t r, exec (.descriptorFetched e ch false) s = .next t ∧ (t.chan e.val ch.val).desc = some d ∧
          (t.chan e.val ch.val).a = [(d.length, ta.ppage + (d.a.toNat - ta.ipage))] ∧
          (t.chan e.val ch.val).b = [(d.length, tb.ppage + (d.b.toNat - tb.ipage))] ∧ (t.chan e.val ch.val).pos = 0 ∧
          t.qState q = qActive ∧ (t.queue q).flight = x.flight ++ [d] ∧ (t.queue q).next = (x.next + 1) % 2 ^ 24 ∧
          t.sends s 1 (.arbRequest (Fin.ofNat 14 (8 + e.val)) r) ∧ r.port = ch.val ∧ r.bytes = min 4096 d.length ∧ r.stamp = c.stamp ∧
          t.mem = s.mem))) ∧
  (∀ (s : State) (q : QueueId) (v : Nat) (d : Descr) (rest : List Descr) (status len : Nat) (tl : QeTlb),
    let n := q.val
    let e := engineOf n
    let x := s.queue n
    let ipa := x.comp + 16 * (d.index % 2 ^ x.log2)
    let pa := tl.ppage + (ipa - tl.ipage)
    let out := ofBytes (toBytes 8 d.cookie.toNat ++ [1, BitVec.ofNat 8 status, d.gen] ++ toBytes 3 d.index ++ toBytes 2 len)
    x.flight = d :: rest → d.done = some (status, len) → s.viOfQueue n = some v →
    (s.qe e).tlb.find? (fun t => decide (t.vmid = s.viVmid v) && decide (t.ipage = ipa / 2 ^ t.size * 2 ^ t.size)) = some tl →
    ipa < 2 ^ 46 → tl.w = true → ipa - tl.ipage + 16 ≤ 2 ^ tl.size → s.inDram pa = true → s.inDram (pa + 15) = true → tl.type ≠ .dev →
    s.ertPermits (s.viEid v) pa true = true →
    ∃ t, exec (.completionWrite q) s = .next t ∧ t.qHead n = (d.index + 1) % 2 ^ 24 ∧ t.qTail n = s.qTail n ∧ (t.queue n).flight = rest ∧
      t.rd (Reg.QE_DESC_COUNT e) = (s.rd (Reg.QE_DESC_COUNT e) + 1) % 2 ^ 64 ∧ (status ≠ 0 → t.rb (qstat n) 61 = true) ∧
      (∃ r, t.sends s 14 (.writePartial r (BitVec.ofNat 64 ((2 ^ 16 - 1) <<< (pa % 64))) (BitVec.ofNat 512 (out <<< (8 * (pa % 64))))) ∧
        r.line = paddr (lineOf pa) ∧ r.stamp = d.stamp ∧ r.eid = BitVec.ofNat 6 (s.viEid v)) ∧ t.mem = s.mem) ∧
  (∀ (s : State) (q : QueueId) (gen : Byte) (i : BitVec 24) (status : Byte) (len : Word32),
    let n := q.val
    let disc := Reg.QE_QDISC (engineOf n) (n % 65536)
    (s.qGen n ≠ gen.toNat → ∃ t, exec (.completionReturn q gen i status len) s = .next t ∧
      t.rd disc = min (2 ^ 16 - 1) (s.rd disc + 1) ∧ t = { s with regs := t.regs } ∧ s.regsKept t [disc]) ∧
    (s.qGen n = gen.toNat → ∃ t, exec (.completionReturn q gen i status len) s = .next t ∧
      (t.queue n).flight = (s.queue n).flight.map (fun d => if d.index = i.toNat ∧ d.done.isNone then
        { d with done := some (status.toNat, len.toNat) } else d) ∧
      t = { s with queues := t.queues, agenda := t.agenda, work := t.work, nextTag := t.nextTag }))

/-- The destinations of a frame are none unless its VLAN entry is VALID and the ingress port a member; else the members among the
ports of the FDB entry, or of the VLAN when FLOOD is set, never the ingress port. The SFD of a frame without a stream at a port
with LINK makes one stored frame: a destination within its reserve is admitted with the claim of MAX_FRAME, one beyond reserve
and shared allowance is counted in BUF_DROP. A bad end is counted in RX_FCS_ERR and the frame is gone; a good one is counted in
RX_FRAMES, gives back its unused cells and goes to the ports that wait, to its ETH_RX queue and to the Dinath receiver. A port
sends a frame that waits, is whole or cut through, has come through the switch in 620 ns and fits its gate, of the highest class
that has one; its end is counted in TX_FRAMES, an uncorrectable error in TX_DROP, and a wait of AGE in AGE_DROP. A write of SWAP
keeps the list until the first instant of R402, the least that is not before the write and BASE plus a multiple of CYCLE; then
BASE, CYCLE, LEN and the other list are in effect. Sync and peer-delay responses take the GT, and a link that changes sets
PORT_STATUS and its interrupt bit. Nothing else changes. -/
def Obligations.Ports_and_frames : Prop :=
  (∀ (s : State) (p : PortId) (f : List Byte), let vid := frameVid f
    (s.rb (Reg.VLAN_CTRL vid) 2 = false ∨ (s.vlanMembers vid).testBit p.val = false → s.destinations p.val f = []) ∧
    (s.rb (Reg.VLAN_CTRL vid) 2 = true → (s.vlanMembers vid).testBit p.val = true → ∀ k, k ∈ s.destinations p.val f ↔
      k < 129 ∧ k ≠ p.val ∧ (s.vlanMembers vid).testBit k = true ∧
        (match s.fdbLookup (beAt f 0 6) vid with | some m => m.testBit k = true | none => s.rb (Reg.VLAN_CTRL vid) 1 = true))) ∧
  (∀ (s : State) (p : PortId) (f : List Byte), let n := p.val
    (s.linkOn n = false → exec (.frameReceive p f) s = .next s) ∧
    (s.linkOn n = true → beAt f (afterTag f) 2 ≠ 0x8808 → beAt f (afterTag f) 2 ≠ 0x88F7 → s.streamOf f = none →
      let tc := s.frameClass n f
      let claim := (s.maxFrame n + 255) / 256
      let shared := (List.range 8).foldl (fun k t => k + s.sharedFor t) 0
      let stored := fun (t : State) (cells : Nat) (wait : List (Nat × Nat)) =>
        t.frame s.net.nextFrame = some { bytes := f, inPort := some n, sfd := s.gt.now, whole := false, taken := true
                                         order := s.net.nextFrame, cells := cells, dropEligible := false, wait := wait, active := []
                                         since := s.clk, from_ := none } ∧
        t.nport n = { s.nport n with rx := some s.net.nextFrame } ∧ (∀ k, k ≠ n → t.nport k = s.nport k) ∧
        t = { s with regs := t.regs, net := t.net, agenda := t.agenda }
      (s.destinations n f = [] → ∃ t, exec (.frameReceive p f) s = .next t ∧ stored t 0 [] ∧ s.regsKept t [Reg.SW_STATUS]) ∧
      (∀ e : PortId, s.destinations n f = [e.val] → s.cellsFor e.val tc + claim ≤ s.rf (Reg.SW_TC_LIMIT tc) 31 24 →
        ∃ t, exec (.frameReceive p f) s = .next t ∧ stored t claim [(e.val, tc)] ∧ t.sends s 620 (.frameTransmit e false) ∧
          t.sends s s.frameAge (.frameAge e) ∧ s.regsKept t [Reg.SW_STATUS]) ∧
      (∀ e : PortId, s.destinations n f = [e.val] →
        let more := (s.cellsFor e.val tc + claim - s.rf (Reg.SW_TC_LIMIT tc) 31 24) -
          (s.cellsFor e.val tc - s.rf (Reg.SW_TC_LIMIT tc) 31 24)
        more ≠ 0 → shared + more ≤ s.sharedPool → s.rf (Reg.SW_TC_LIMIT tc) 16 0 < s.sharedFor tc + more →
        ∃ t, exec (.frameReceive p f) s = .next t ∧ stored t 0 [] ∧
          t.rd (Reg.PORT_BUF_DROP e.val) = (s.rd (Reg.PORT_BUF_DROP e.val) + 1) % 2 ^ 64 ∧ t.rb (Reg.PORT_IRQ_STATUS e.val) 2 = true ∧
          s.regsKept t [Reg.SW_STATUS, Reg.PORT_BUF_DROP e.val, Reg.PORT_IRQ_STATUS e.val, Reg.IRT_SRC_CFG (2448 + e.val / 8)]))) ∧
  (∀ (s : State) (p : PortId) (good : Bool), let n := p.val
    ((s.nport n).rx = none → exec (.frameEnd p good) s = .next s) ∧
    (∀ id f, (s.nport n).rx = some id → s.frame id = some f → f.active = [] →
      let len := f.bytes.length + 4
      let right := good = true ∧ 64 ≤ len ∧ len ≤ s.maxFrame n
      (¬ right → ∃ t, exec (.frameEnd p good) s = .next t ∧ t.rd (Reg.PORT_RX_FCS_ERR n) = (s.rd (Reg.PORT_RX_FCS_ERR n) + 1) % 2 ^ 64 ∧
        t.frame id = none ∧ (t.nport n).rx = none ∧ t = { s with regs := t.regs, net := t.net } ∧
        s.regsKept t [Reg.PORT_RX_FCS_ERR n, Reg.SW_STATUS]) ∧
      (right → (∀ d ∈ f.wait, d.1 ≠ 128) → ∃ t, exec (.frameEnd p good) s = .next t ∧
        t.rd (Reg.PORT_RX_FRAMES n) = (s.rd (Reg.PORT_RX_FRAMES n) + 1) % 2 ^ 64 ∧ (t.nport n).rx = none ∧
        t.frame id = (if f.wait = [] then none else
          some { f with whole := true, cells := (len + 255) / 256, order := s.net.nextFrame, ended := s.clk }) ∧
        (∀ d : PortId, (∃ k, (d.val, k) ∈ f.wait) → t.sends s 620 (.frameTransmit d false)) ∧
        (f.taken = true → s.rb (Reg.PORT_CFG n) 6 = true → (dinathAt f.bytes).isSome = true → t.sends s 0 (.dinathReceive p f.bytes f.sfd)) ∧
        t = { s with regs := t.regs, net := t.net, agenda := t.agenda } ∧ s.regsKept t [Reg.PORT_RX_FRAMES n, Reg.SW_STATUS]) ∧
      (∀ tc, right → f.wait = [(128, tc)] →
        let r := s.rd (Reg.PORT_RXQ n (s.frameClass n f.bytes))
        let q := fld r 17 0
        r.testBit 31 = true → s.qWorks q = true → (s.queue q).kind = typeRx → (s.queue q).port = n →
        ((s.qe (engineOf q)).rx.filter fun j => j.1 = q).length < s.qToFetch q → ∃ t, exec (.frameEnd p good) s = .next t ∧
          (t.qe (engineOf q)).rx = (s.qe (engineOf q)).rx ++ [(q, f.bytes, f.sfd)] ∧ t.frame id = none ∧ t.mem = s.mem))) ∧
  (∀ (s : State) (n id tc : Nat) (f : Frame), s.nextFrameFor n = some (id, tc, f) → (id, f) ∈ s.frames ∧ (n, tc) ∈ f.wait ∧ tc < 8 ∧
    (f.whole = true ∨ s.cutThrough n f = true) ∧
    (f.inPort ≠ none → (if s.cutThrough n f = true then f.since else f.ended) + 620 ≤ s.clk) ∧ s.mayStart n tc (s.lineTime n (s.leaving n f).length) = true ∧
    ∀ u g x, tc < u → u < 8 → s.headFrame n u = some (g, x) → s.mayStart n u (s.lineTime n (s.leaving n x).length) = false) ∧
  (∀ (s : State) (p : PortId), let n := p.val
    ((s.nport n).tx = none → s.linkOn n = false → ∀ bad, exec (.frameTransmit p bad) s = .next s) ∧
    (∀ id tc f, (s.nport n).tx = none → s.linkOn n = true → s.nextFrameFor n = some (id, tc, f) →
      let ns := s.lineTime n (s.leaving n f).length
      let wait := f.wait.filter (· != (n, tc))
      (∃ t, exec (.frameTransmit p false) s = .next t ∧ t.nport n = { s.nport n with tx := some (id, tc, s.clk, s.clk + ns, false) } ∧
        t.frame id = some { f with wait := wait, active := f.active ++ [(n, tc)] } ∧ t.sends s ns (.frameTransmit p false) ∧
        t = { s with net := t.net, agenda := t.agenda }) ∧
      (∃ t, exec (.frameTransmit p true) s = .next t ∧ t.rd (Reg.PORT_TX_DROP n) = (s.rd (Reg.PORT_TX_DROP n) + 1) % 2 ^ 64 ∧
        t.frame id = (if f.whole = true ∧ wait = [] ∧ f.active = [] then none else some { f with wait := wait }) ∧
        t = { s with regs := t.regs, net := t.net, agenda := t.agenda } ∧ s.regsKept t [Reg.PORT_TX_DROP n, Reg.SW_STATUS])) ∧
    (∀ id tc a last bad f, (s.nport n).tx = some (id, tc, a, last, bad) → s.frame id = some f →
      ((s.clk < last ∨ f.whole = false) →
        ∀ e, exec (.frameTransmit p e) s = .next (s.send (max 100 (last - s.clk)) (.frameTransmit p false))) ∧
      (last ≤ s.clk → f.whole = true → ∃ t, exec (.frameTransmit p false) s = .next t ∧ (t.nport n).sent = s.leaving n f ∧
        (let c := if bad then Reg.PORT_TX_DROP n else Reg.PORT_TX_FRAMES n
         t.rd c = (s.rd c + 1) % 2 ^ 64 ∧ s.regsKept t [c, Reg.SW_STATUS]) ∧
        (∀ o, f.from_ = some o → t.sends s 0 (.completionReturn (Fin.ofNat 262144 o.queue) o.gen (BitVec.ofNat 24 o.index) 0 0)) ∧
        t = { s with regs := t.regs, net := t.net, agenda := t.agenda }))) ∧
  (∀ (s : State) (p : PortId), let n := p.val
    let old := s.frames.filter fun f => f.2.wait.any (fun d => d.1 == n) && decide (f.2.since + s.frameAge ≤ s.clk)
    (old = [] → exec (.frameAge p) s = .next s) ∧
    (∀ id f, old = [(id, f)] → let wait := f.wait.filter fun d => d.1 != n
      ∃ t, exec (.frameAge p) s = .next t ∧ t.rd (Reg.PORT_AGE_DROP n) = (s.rd (Reg.PORT_AGE_DROP n) + 1) % 2 ^ 64 ∧
        t.frame id = (if f.whole = true ∧ wait = [] ∧ f.active = [] then none else some { f with wait := wait }) ∧
        (∀ o, f.from_ = some o → t.sends s 0 (.completionReturn (Fin.ofNat 262144 o.queue) o.gen (BitVec.ofNat 24 o.index) 6 0)) ∧
        t = { s with regs := t.regs, net := t.net, agenda := t.agenda } ∧ s.regsKept t [Reg.PORT_AGE_DROP n, Reg.SW_STATUS]) ∧
    exec (.gclEntry p) s = .next (s.send 0 (.frameTransmit p false))) ∧
  (∀ (s : State) (p gt : Nat), let t := s.swapInstant p gt
    let base := s.rd (Reg.PORT_GCL_BASE p)
    let cycle := if s.rd (Reg.PORT_GCL_CYCLE p) = 0 then 1000000 else s.rd (Reg.PORT_GCL_CYCLE p)
    gt ≤ t ∧ base ≤ t ∧ (t - base) % cycle = 0 ∧ ∀ u, gt ≤ u → base ≤ u → (u - base) % cycle = 0 → t ≤ u) ∧
  (∀ (s : State) (p : PortId), let n := p.val
    let ctrl := Reg.PORT_GCL_CTRL n
    (s.rb ctrl 2 = true → ∀ who, exec (.swap p who) s = .next s) ∧
    (s.rb ctrl 2 = false → (exec (.swapTake p) s = .next s) ∧ ∀ who, ∃ t, exec (.swap p who) s = .next t ∧ t.rb ctrl 2 = true ∧
      s.bitsKept t ctrl 2 2 ∧ t.nport n = { s.nport n with swapAt := s.now } ∧ t.sends s (s.swapInstant n s.now - s.now) (.swapTake p) ∧
      t = { s with regs := t.regs, net := t.net, agenda := t.agenda } ∧ s.regsKept t [ctrl]) ∧
    (s.rb ctrl 2 = true → let at_ := s.swapInstant n (s.nport n).swapAt
      (s.now < at_ → exec (.swapTake p) s = .next (s.send (at_ - s.now) (.swapTake p))) ∧
      (at_ ≤ s.now → ∃ t, exec (.swapTake p) s = .next t ∧ t.rb ctrl 2 = false ∧ t.rb ctrl 3 = !s.rb ctrl 3 ∧ s.bitsKept t ctrl 3 2 ∧
        t.nport n = { s.nport n with base := s.rd (Reg.PORT_GCL_BASE n)
                                     cycle := if s.rd (Reg.PORT_GCL_CYCLE n) = 0 then 1000000 else s.rd (Reg.PORT_GCL_CYCLE n)
                                     len := max 1 (min 256 (s.rf (Reg.PORT_GCL_LEN n) 8 0)) } ∧
        t.sends s 0 (.frameTransmit p false) ∧ t = { s with regs := t.regs, net := t.net, agenda := t.agenda } ∧ s.regsKept t [ctrl]))) ∧
  (∀ (s : State) (p : PortId), let n := p.val
    (s.syncMaster n = true → s.linkOn n = true → ∃ t, exec (.syncSend p) s = .next t ∧ t.nport n = { s.nport n with synced := some s.gt.now } ∧
      ((s.agenda.any fun e => e.2 == .cmd (.syncSend p)) = false → t.sends s s.syncSend (.syncSend p)) ∧
      t = { s with net := t.net, agenda := t.agenda } ∧ (∀ k, k ≠ n → t.nport k = s.nport k)) ∧
    (s.syncMaster n = false → exec (.syncSend p) s = .next s) ∧
    (∀ f g, (s.rb (Reg.PORT_CFG n) 7 = true → s.linkOn n = true → beAt f (afterTag f) 2 = 0x88F7 →
        exec (.pdelayReq p f g) s = .next (s.setNport n { s.nport n with pdelay := some (g, s.gt.now) })) ∧
      (s.rb (Reg.PORT_CFG n) 7 = false → exec (.pdelayReq p f g) s = .next s)) ∧
    (∀ up, s.rb (Reg.PORT_STATUS n) 0 = up → exec (.linkChg p up) s = .next s) ∧
    (∀ up, s.rb (Reg.PORT_STATUS n) 0 ≠ up → (up = true → s.portMode n ≠ 0 ∧ s.modes.lostPorts.contains n = false) →
      (up = false → (s.nport n).rx = none) → ∃ t, exec (.linkChg p up) s = .next t ∧
        t.rb (Reg.PORT_STATUS n) 0 = up ∧
        t.rb (Reg.PORT_STATUS n) 1 = (up && s.portMode n == 4 && s.rb (Reg.PORT_CFG n) 3) ∧ s.bitsKept t (Reg.PORT_STATUS n) 1 0 ∧ t.rb (Reg.PORT_IRQ_STATUS n) 0 = true ∧
        (up = true → t.sends s 0 (.frameTransmit p false)) ∧ t = { s with regs := t.regs, agenda := t.agenda } ∧
        s.regsKept t [Reg.PORT_STATUS n, Reg.PORT_IRQ_STATUS n, Reg.IRT_SRC_CFG (2448 + n / 8)]))

/-- A granted write of a point that is not FORCED, whose EID is the requester's and whose class has its path, stores the value and
the stamp, sets VALID and clears STALE; a FORCED point counts PT_FORCE_DROP, an older stamp PT_OLD_DROP, and a refused write
leaves every point (a phase core's sets POST_REJECT, a sigma-delta's counts PT_REJECT). A read of another EID's valid point
returns nothing; else the value, or 0 while VALID is 0, or the status word, whose STALE is computed now. A sweep marks and
counts what is stale. GO, SET and CLEAR act only from PL2 or PL3, for an enclave only from PL3, and else write an ENCLAVE_DENY
entry; GO is ignored for a bad range and sets LOCKED_WRITE while BUSY. A granted record obeys DIN_EID, WRITERS and the source
range; an assignment leaves value, stamp and flags 0. A Dinath copy that is not for this receiver is ignored, with 16 held
counted in DIN_BUSY, with a bad header in DIN_BAD; each record of a good POINT_UPDATE or POSITION follows, an MGMT frame goes to
Lemam in SERVICE only. The delays between records are the model's reading (entry 7). -/
def Obligations.Point_image_and_Dinath : Prop :=
  (∀ (s : State) (pt : PointId) (who : Requester) (v : Word64) (stamp : Option Word64), let n := pt.val
    let p := s.point n
    let path := match who.agent with | .phaseCore _ => 1 | .sigmaDelta _ => 4 | _ => 3
    let st := BitVec.ofNat 40 (stamp.getD s.gt.now).toNat
    let may := who.eid = p.eid ∧ s.rb (Reg.PT_CLASS p.cls.toNat) (24 + path) = true
    let w := exec (.pointAccess pt who (.write v stamp) false) s
    (p.forced = true → ∃ t, w = .next t ∧ t.rd Reg.PT_FORCE_DROP = min (2 ^ 32 - 1) (s.rd Reg.PT_FORCE_DROP + 1) ∧
      t = { s with regs := t.regs } ∧ s.regsKept t [Reg.PT_FORCE_DROP]) ∧
    (p.forced = false → may → p.valid = true → (st - p.stamp).slt 0 = true → ∃ t, w = .next t ∧
      t.rd Reg.PT_OLD_DROP = min (2 ^ 32 - 1) (s.rd Reg.PT_OLD_DROP + 1) ∧ t = { s with regs := t.regs } ∧ s.regsKept t [Reg.PT_OLD_DROP]) ∧
    (p.forced = false → may → (p.valid = true → (st - p.stamp).slt 0 = false) → ∃ t, w = .next t ∧
      t.point n = { p with value := v, stamp := st, valid := true, stale := false, bad := false } ∧
      (∀ k, k ≠ n → t.point k = s.point k) ∧ t = { s with points := t.points, agenda := t.agenda }) ∧
    (p.forced = false → ¬ may → ∃ t, w = .next t ∧ t.points = s.points ∧ t.mem = s.mem ∧
      (∀ c, who.agent = .phaseCore c → t.rb (Reg.PCC_STATUS c.val) 7 = true ∧ s.regsKept t [Reg.PCC_STATUS c.val]) ∧
      (∀ c, who.agent = .sigmaDelta c → t.rd Reg.PT_REJECT = min (2 ^ 32 - 1) (s.rd Reg.PT_REJECT + 1) ∧ t.rb Reg.PT_IRQ_STATUS 1 = true))) ∧
  (∀ (s : State) (pt : PointId) (who : Requester), let n := pt.val
    let p := s.point n
    let mine := p.valid = true → who.eid = p.eid
    (∀ c, who.agent ≠ .phaseCore c) →
      (¬ mine → ∀ a, (∀ v st, a ≠ .write v st) → exec (.pointAccess pt who a false) s = .next s) ∧
      (mine → p.bad = false →
        exec (.pointAccess pt who .readValue false) s = .next { s with lastRead := if p.valid then p.value else 0 } ∧
        exec (.pointAccess pt who .readStatus false) s = .next { s with lastRead := BitVec.ofNat 64 (s.pointStatus p) }) ∧
      (mine → ∀ a, (∀ v st, a ≠ .write v st) → exec (.pointAccess pt who a true) s =
        .next ((s.setPoint n { p with bad := true }).log .sramUe unitPoints (0x20000000 + 16 * n)))) ∧
  (∀ (s : State) (p : Point), let w := BitVec.ofNat 64 (s.pointStatus p)
    let age := (BitVec.ofNat 40 s.now - p.stamp).toNat
    let timeout := s.rf (Reg.PT_CLASS p.cls.toNat) 23 0
    w.extractLsb' 0 40 = p.stamp ∧ w.getLsbD 40 = p.valid ∧ w.getLsbD 42 = p.forced ∧ w.extractLsb' 43 3 = p.cls ∧
    w.extractLsb' 46 12 = p.vmid ∧ w.extractLsb' 58 6 = p.eid ∧
    w.getLsbD 41 = (p.valid && !p.forced && (p.stale || (decide (timeout ≠ 0) && decide (timeout * 1000 < age))))) ∧
  (∀ (s : State), let late := s.points.filter fun e => s.pointStale e.2 && !e.2.stale
    (late = [] → exec .staleSweep s = .next s.armSweep) ∧
    (∀ n p, late = [(n, p)] → n < 131072 → ∃ t, exec .staleSweep s = .next t ∧ t.point n = { p with stale := true } ∧
      (∀ k, k ≠ n → t.point k = s.point k) ∧ t.rd Reg.PT_STALE_COUNT = min (2 ^ 32 - 1) (s.rd Reg.PT_STALE_COUNT + 1) ∧
      t.rd Reg.PT_LAST_STALE = n ∧ t.rb Reg.PT_IRQ_STATUS 0 = true ∧ t = { s with regs := t.regs, points := t.points, agenda := t.agenda } ∧
      s.regsKept t [Reg.PT_STALE_COUNT, Reg.PT_LAST_STALE, Reg.PT_IRQ_STATUS, Reg.IRT_SRC_CFG 2466])) ∧
  (∀ (s : State) (who : Requester), let pl := who.pl.toNat
    let first := s.rd Reg.PT_ASG_FIRST
    let count := s.rd Reg.PT_ASG_COUNT
    let guarded := s.rf Reg.PT_ASG_OWNER 17 12 ≠ 0 ∨ ∃ e ∈ s.points, first ≤ e.1 ∧ e.1 < first + count ∧ e.2.eid ≠ 0
    let n := s.rd Reg.PT_FRC_POINT
    let sets := fun (i : Instr) (v : Option Word64) => ∃ t r, exec i s = .next t ∧ t.sends s 1 (.arbRequest 12 r) ∧
      r.key = BitVec.ofNat 46 n ∧ r.bytes = 16 ∧ t.workOf r.tag = some (.force n v) ∧
      t = { s with agenda := t.agenda, work := t.work, nextTag := t.nextTag }
    ((pl < 2 ∨ (pl < 3 ∧ guarded)) → exec (.go who) s = .next (s.log .enclaveDeny unitPoints Reg.PT_ASG_CTRL)) ∧
    (2 ≤ pl → (guarded → pl = 3) →
      (s.rb Reg.PT_ASG_CTRL 1 = true → ∃ t, exec (.go who) s = .next t ∧ t.rb Reg.PT_IRQ_STATUS 2 = true ∧
        t = { s with regs := t.regs, agenda := t.agenda } ∧ s.regsKept t [Reg.PT_IRQ_STATUS, Reg.IRT_SRC_CFG 2466]) ∧
      (s.rb Reg.PT_ASG_CTRL 1 = false → (count = 0 ∨ 131072 < first + count) → exec (.go who) s = .next s) ∧
      (s.rb Reg.PT_ASG_CTRL 1 = false → 0 < count → first + count ≤ 131072 → ∃ t r, exec (.go who) s = .next t ∧
        t.rb Reg.PT_ASG_CTRL 1 = true ∧ t.sends s 0 (.arbRequest 12 r) ∧ r.key = BitVec.ofNat 46 first ∧ r.bytes = 16 ∧
        t = { s with regs := t.regs, agenda := t.agenda, work := t.work, nextTag := t.nextTag } ∧ s.regsKept t [Reg.PT_ASG_CTRL])) ∧
    ((pl < 2 ∨ (pl < 3 ∧ (s.point n).eid ≠ 0)) → exec (.set who) s = .next (s.log .enclaveDeny unitPoints Reg.PT_FRC_CTRL) ∧
      exec (.clear who) s = .next (s.log .enclaveDeny unitPoints Reg.PT_FRC_CTRL)) ∧
    (2 ≤ pl → ((s.point n).eid ≠ 0 → pl = 3) → sets (.set who) (some (BitVec.ofNat 64 (s.rd Reg.PT_FRC_VALUE))) ∧ sets (.clear who) none)) ∧
  (∀ (s : State) (n : Nat) (v : Word64) (left port : Nat) (st : Stamp), let p := s.point n
    (s.forced n (some v)).point n = { p with value := v, stamp := BitVec.ofNat 40 s.now, valid := true, forced := true, stale := false, bad := false } ∧
    (s.forced n none).point n = { p with forced := false } ∧
    (s.assigned n left port st).point n = { value := 0, stamp := 0, valid := false, stale := false, forced := false, bad := false
                                            vmid := BitVec.ofNat 12 (s.rd Reg.PT_ASG_OWNER), eid := BitVec.ofNat 6 (s.rf Reg.PT_ASG_OWNER 17 12)
                                            cls := BitVec.ofNat 3 (s.rf Reg.PT_ASG_OWNER 22 20) }) ∧
  (∀ (s : State) (pt : PointId) (v g : Word64) (node : BitVec 18), let p := s.point pt.val
    let c := p.cls.toNat
    let st := BitVec.ofNat 40 g.toNat
    let may := s.rf (Reg.PT_DIN_EID c) 5 0 = p.eid.toNat ∧ s.rb (Reg.PT_CLASS c) 24 = true ∧
      s.rf (Reg.PT_DIN_SRC_LO c) 17 0 ≤ node.toNat ∧ node.toNat ≤ s.rf (Reg.PT_DIN_SRC_HI c) 17 0
    (∃ t r, exec (.pointUpdate pt v g node) s = .next t ∧ t.sends s 0 (.arbRequest 12 r) ∧ r.port = 8 ∧ r.key = BitVec.ofNat 46 pt.val ∧
      r.stamp = s.clampStamp (g.toNat + 4 * s.rf (Reg.ARB_PORT_CFG 12 8) 31 8) ∧ t.workOf r.tag = some (.record pt v g node) ∧
      t = { s with agenda := t.agenda, work := t.work, nextTag := t.nextTag }) ∧
    (p.forced = false → may → (p.valid = true → (st - p.stamp).slt 0 = false) →
      (s.applyRecord pt.val v g node.toNat).point pt.val = { p with value := v, stamp := st, valid := true, stale := false, bad := false }) ∧
    (p.forced = false → ¬ may → (s.applyRecord pt.val v g node.toNat).points = s.points ∧
      (s.applyRecord pt.val v g node.toNat).rd Reg.PT_REJECT = min (2 ^ 32 - 1) (s.rd Reg.PT_REJECT + 1))) ∧
  (∀ (s : State) (node : BitVec 18) (stream : BitVec 4) (value : BitVec 48) (g : Word64),
    let mine := fun b => s.runsOn b srcStream && !s.rb (Reg.PHB_CTRL b) 7 && s.rf (Reg.PHB_NODE b) 17 0 == node.toNat &&
      s.rf (Reg.PHB_NODE b) 23 20 == stream.toNat
    ((∀ b < 16, mine b = false) → exec (.position node stream value g) s = .next s) ∧
    (∀ b : BaseId, (∀ k < 16, mine k = true ↔ k = b.val) →
      let u := value.toNat
      let d := diff48 u (s.baseValue b.val)
      let jump := decide (d.natAbs > s.snapLimit b.val)
      let st := Reg.PHB_STATUS b.val
      ∃ t, exec (.position node stream value g) s = .next t ∧ t.baseValue b.val = (if d < 0 ∧ jump = false then s.baseValue b.val else u) ∧
        t.rb st 4 = (s.rb st 4 || jump) ∧ t.rb st 2 = false ∧ t.rd (Reg.PHB_LAST_UPD_GT b.val) = g.toNat ∧
        t = { s with regs := t.regs, bases := t.bases, crossed := t.crossed, agenda := t.agenda } ∧
        s.regsKept t [st, Reg.PHB_RATE b.val, Reg.PHB_RATE_GT b.val, Reg.PHB_LAST_UPD_GT b.val])) ∧
  (∀ (s : State) (p : PortId) (f : List Byte) (g : Word64),
    (dinathAt f = none → exec (.dinathReceive p f g) s = .next s) ∧
    (∀ k, dinathAt f = some k →
      let h := dinHeader f k
      let held := s.net.dinath.filter fun t => decide (s.clk < t)
      let mine := s.rb (Reg.PORT_CFG p.val) 6 = true ∧ h.domain = s.rf Reg.DIN_DOMAIN 15 0 ∧
        (h.dest % 2 ^ 18 = 0x3FFFF ∨ h.dest % 2 ^ 18 = s.rf Reg.DIN_NODE 17 0 ∨ h.kind = 2)
      let counts := fun (reg bit : Nat) => ∃ t, exec (.dinathReceive p f g) s = .next t ∧ t.rd reg = min (2 ^ 32 - 1) (s.rd reg + 1) ∧
        t.rb Reg.DIN_IRQ_STATUS bit = true ∧ t.net = { s.net with dinath := held } ∧ t.mem = s.mem ∧
        s.regsKept t [reg, Reg.DIN_IRQ_STATUS, Reg.IRT_SRC_CFG 2465]
      (¬ mine → exec (.dinathReceive p f g) s = .next { s with net := { s.net with dinath := held } }) ∧
      (mine → 16 ≤ held.length → counts Reg.DIN_BUSY 1) ∧
      (mine → held.length < 16 → dinathGood f k = false → counts Reg.DIN_BAD 0) ∧
      (mine → held.length < 16 → dinathGood f k = true → h.kind = 1 → ∃ t, exec (.dinathReceive p f g) s = .next t ∧
        (∀ i < h.count, t.sends s (80 + (5 * i + 7) / 8) (.pointUpdate (Fin.ofNat 131072 (beAt f (k + 16 + 12 * i) 4))
          (BitVec.ofNat 64 (beAt f (k + 20 + 12 * i) 8)) g (BitVec.ofNat 18 h.src))) ∧ t = { s with net := t.net, agenda := t.agenda }) ∧
      (mine → held.length < 16 → dinathGood f k = true → h.kind = 2 → ∃ t, exec (.dinathReceive p f g) s = .next t ∧
        (∀ i < h.count, t.sends s (g.toNat + 200 - s.now) (.position (BitVec.ofNat 18 h.src) (BitVec.ofNat 4 (byteAt f (k + 16 + 8 * i)))
          (BitVec.ofNat 48 (beAt f (k + 18 + 8 * i) 6)) g)) ∧ t = { s with net := t.net, agenda := t.agenda }) ∧
      (mine → held.length < 16 → dinathGood f k = true → h.kind = 3 → s.mode ≠ modeService → ∃ t, exec (.dinathReceive p f g) s = .next t ∧
        t.rd Reg.DIN_MGMT_DROP = min (2 ^ 32 - 1) (s.rd Reg.DIN_MGMT_DROP + 1) ∧ t = { s with regs := t.regs, net := t.net } ∧
        s.regsKept t [Reg.DIN_MGMT_DROP]) ∧
      (mine → held.length < 16 → dinathGood f k = true → h.kind = 3 → s.mode = modeService → h.dest = s.rf Reg.DIN_NODE 17 0 →
        h.dest ≠ 0x3FFFF → s.mgmtOutstanding < 4 → ∃ t, exec (.dinathReceive p f g) s = .next t ∧ t.net.mgmt = s.net.mgmt ++ [(p.val, f)] ∧
          t.sends s 0 .commandTake ∧ t = { s with net := t.net, agenda := t.agenda }))) ∧
  (∀ (f : List Byte) (k : Nat), dinathGood f k = true → let h := dinHeader f k
    h.version = 1 ∧ h.flags < 2 ∧ h.zero = 0 ∧ h.dest < 2 ^ 18 ∧ h.src < 2 ^ 18 ∧
      ((h.kind = 1 ∧ 1 ≤ h.count ∧ h.count ≤ 256) ∨ (h.kind = 2 ∧ 1 ≤ h.count ∧ h.count ≤ 16) ∨ (h.kind = 3 ∧ h.count = 1)))

/-- The checkers permit a request for an address in no range; in a range they permit a read of its owner, a write of its owner only
with W. A commit while COMMIT_BUSY is 1 sets LOCKED_WRITE and nothing else; one whose table has a range with LAST below BASE,
outside DRAM or sharing a page with another enclave's sets COMMIT_ERR with its enclave, entry and reason and keeps the table in
effect; any other is adopted, sets COMMIT_BUSY and removes the tracked lines whose outcome changes; COMMIT_BUSY clears when no
walk is left. A purge sets PURGE_BUSY, drops every clean line and the loop buffer, orders the WriteBack of every dirty line and
leaves the TLBs; it ends when the caches are empty. DERIVE orders the key of R438 for 2 µs later, READY places it with KEY_EID,
a read by another EID gives 0, CLEAR zeroes it; in RETURN nothing is derived. A request not made at PL3 does none of this. Which
reason is reported when several hold is the model's choice (entry 68). -/
def Obligations.Enclave_ranges_purge_and_keys : Prop :=
  (∀ (s : State) (eid a : Nat) (w : Bool), let page := a / 4096 * 4096
    let inside := fun (r : ErtRange) => r.base ≤ page ∧ page ≤ r.last
    ((∀ r ∈ s.ert, ¬ inside r) → s.ertPermits eid a w = true) ∧
    (∀ r ∈ s.ert, inside r → (∀ q ∈ s.ert, inside q → q.eid = r.eid) →
      (s.ertPermits eid a w = true ↔ eid = r.eid ∧ (w = true → ∃ q ∈ s.ert, inside q ∧ q.w = true)))) ∧
  (∀ (s : State) (e r : Nat), let a := 0x1000000 + e * 0x80 + r * 0x10
    let lo := s.bytes a 8
    let hi := s.bytes (a + 8) 8
    s.ertEntry e r = if lo.testBit 0 then
      some { eid := e, index := r, base := fld lo 45 12 * 4096, last := fld hi 45 12 * 4096, w := lo.testBit 1 } else none) ∧
  (∀ (s : State) (t : List ErtRange) (x : ErtRange), s.ertReason t x = 0 ↔
    x.base ≤ x.last ∧ s.inDram x.base = true ∧ s.inDram (x.last + 4095) = true ∧
      ∀ y ∈ t, y.eid ≠ x.eid → y.last < x.base ∨ x.last < y.base) ∧
  (∀ (s : State) (x : ErtRange), x ∈ s.ertTable ↔ 1 ≤ x.eid ∧ x.eid ≤ 63 ∧ x.index < 8 ∧ s.ertEntry x.eid x.index = some x) ∧
  (∀ (s : State) (c : CoreId) (who : Requester), who.pl ≠ 3 → exec (.ertCommit c who) s = .next s ∧ exec (.purge c who) s = .next s ∧
    exec (.derive c who) s = .next s ∧ exec (.keyClear c who) s = .next s) ∧
  (∀ (s : State) (c : CoreId) (who : Requester), who.pl = 3 → let st := Reg.ENC_STATUS 0
    let tab := s.ertTable
    let lines := s.ertChanged s.ert tab
    (s.rb st 0 = true → ∃ t, exec (.ertCommit c who) s = .next t ∧ t.rb st 3 = true ∧ s.bitsKept t st 3 3 ∧ t = { s with regs := t.regs } ∧
      s.regsKept t [st]) ∧
    (∀ x, s.rb st 0 = false → tab.find? (fun x => s.ertReason tab x != 0) = some x → ∃ t, exec (.ertCommit c who) s = .next t ∧
      t.rb st 1 = true ∧ t.rf st 13 8 = x.eid % 64 ∧ t.rf st 18 16 = x.index % 8 ∧ t.rf st 21 20 = s.ertReason tab x ∧ t.rb st 0 = false ∧
      t = { s with regs := t.regs } ∧ s.regsKept t [st]) ∧
    (s.rb st 0 = false → (∀ x ∈ tab, s.ertReason tab x = 0) → ∃ t, exec (.ertCommit c who) s = .next t ∧ t.ert = tab ∧ t.rb st 0 = true ∧
      t.sends s 2000 .commitEnd ∧ (lines = [] → t.homes = s.homes) ∧
      (∀ a, lines = [a] → (s.home (s.homeOf a)).busy a = false → ∀ d, (s.home (s.homeOf a)).entry a = some d →
        ∀ k ∈ d.holders, t.sends s rspNs (.backInvalidate (coreId k) (paddr a))) ∧
      t = { s with regs := t.regs, ert := t.ert, enc := t.enc, homes := t.homes, agenda := t.agenda } ∧
      (∀ a, a ≠ st → (∀ h, a ≠ Reg.HS_STATUS h ∧ a ≠ Reg.HS_DIR_USED h) → t.rd a = s.rd a))) ∧
  (∀ (s : State), let st := Reg.ENC_STATUS 0
    (s.rb st 0 = false → exec .commitEnd s = .next s) ∧
    (s.rb st 0 = true → s.enc.walk = [] → ∃ t, exec .commitEnd s = .next t ∧ t.rb st 0 = false ∧ s.bitsKept t st 0 0 ∧
      t = { s with regs := t.regs } ∧ s.regsKept t [st]) ∧
    (∀ a, s.rb st 0 = true → s.enc.walk = [a] → (s.home (s.homeOf a)).busy a = true →
      exec .commitEnd s = .next (s.send 100 .commitEnd))) ∧
  (∀ (s : State) (c : CoreId) (who : Requester), who.pl = 3 → let n := c.val
    let x := s.core n
    let st := Reg.ENC_STATUS n
    let dirty := (x.lines.filter fun l => l.2.st == .m || l.2.st == .o).map (·.1)
    (s.rb st 2 = true → exec (.purge c who) s = .next s) ∧
    (s.rb st 2 = false → ∃ t, exec (.purge c who) s = .next t ∧ t.rb st 2 = true ∧ s.bitsKept t st 2 2 ∧
      t.core n = { x with lines := x.lines.filter fun l => !(l.2.st == .e || l.2.st == .s), loopBuffer := none, wholePass := [] } ∧
      (∀ l ∈ dirty, t.sends s 0 (.writeBack c (paddr l))) ∧ t.sends s (1000 + (15 * dirty.length + 3) / 4) (.purgeDone c) ∧
      (∀ k, k ≠ n → t.core k = s.core k) ∧ t = { s with regs := t.regs, cores := t.cores, agenda := t.agenda } ∧ s.regsKept t [st])) ∧
  (∀ (s : State) (c : CoreId), let n := c.val
    let st := Reg.ENC_STATUS n
    (s.rb st 2 = false → exec (.purgeDone c) s = .next s) ∧
    (s.rb st 2 = true → (s.core n).lines ≠ [] → ∃ t, exec (.purgeDone c) s = .next t ∧ t.regs = s.regs ∧ t.sends s 10 (.purgeDone c)) ∧
    (s.rb st 2 = true → (s.core n).lines = [] → (∀ p ∈ s.enc.purgers, p.1 ≠ n) → ∃ t, exec (.purgeDone c) s = .next t ∧ t.rb st 2 = false ∧
      s.bitsKept t st 2 2 ∧ t = { s with regs := t.regs, agenda := t.agenda } ∧ s.regsKept t [st])) ∧
  (∀ (s : State) (c : CoreId) (who : Requester), who.pl = 3 → let n := c.val
    let message := toBytes 8 (s.rd (Reg.ENC_KEY_LABEL n)) ++ ((List.range 6).flatMap fun k => toBytes 8 (s.rd (Reg.ENC_MEASURE 0 k))) ++
      [BitVec.ofNat 8 who.eid.toNat, BitVec.ofNat 8 (b2n s.enc.debugOpen), BitVec.ofNat 8 s.enc.state]
    let key := ofBytes ((hmac384 (toBytes 32 Config.rootSecret.toNat) message).take 32)
    (s.enc.state = 3 → exec (.derive c who) s = .next s) ∧
    (s.enc.state ≠ 3 → ∃ t, exec (.derive c who) s = .next t ∧ tabGet none t.enc.deriving_ n = some (key, who.eid.toNat) ∧
      t.sends s 2000 (.ready c) ∧ t = { s with enc := t.enc, agenda := t.agenda }) ∧
    (∃ t, exec (.keyClear c who) s = .next t ∧ (∀ k < 4, t.rd (Reg.ENC_KEY n k) = 0) ∧ t.rb (Reg.ENC_KEY_CTRL n) 2 = false ∧
      s.bitsKept t (Reg.ENC_KEY_CTRL n) 2 2 ∧ tabGet none t.enc.deriving_ n = none ∧ t = { s with regs := t.regs, enc := t.enc } ∧
      s.regsKept t [Reg.ENC_KEY n 0, Reg.ENC_KEY n 1, Reg.ENC_KEY n 2, Reg.ENC_KEY n 3, Reg.ENC_KEY_CTRL n])) ∧
  (∀ (s : State) (c : CoreId), let n := c.val
    (tabGet none s.enc.deriving_ n = none → exec (.ready c) s = .next s) ∧
    (∀ key eid, tabGet none s.enc.deriving_ n = some (key, eid) → ∃ t, exec (.ready c) s = .next t ∧
      (∀ k < 4, t.rd (Reg.ENC_KEY n k) = key / 2 ^ (64 * k) % 2 ^ 64) ∧ t.rb (Reg.ENC_KEY_CTRL n) 2 = true ∧
      t.rf (Reg.ENC_KEY_CTRL n) 13 8 = eid % 64 ∧ t = { s with regs := t.regs, enc := t.enc } ∧
      s.regsKept t [Reg.ENC_KEY n 0, Reg.ENC_KEY n 1, Reg.ENC_KEY n 2, Reg.ENC_KEY n 3, Reg.ENC_KEY_CTRL n]) ∧
    (∀ (who : Requester) (k : Nat), k < 4 → s.readEnc who (Reg.ENC_KEY n k) =
      if who.eid.toNat = s.rf (Reg.ENC_KEY_CTRL n) 13 8 then s.rd (Reg.ENC_KEY n k) else 0))

/-- LINK_EN starts training in RUN, DEGRADED, SAFE_HOLD and SERVICE, and its clearing takes the link down. Training with every lane
locked and different sides sets LINK to UP, equal sides PEER_SIDE_ERR. A bad group is counted and refused, the sixteenth in a
row, a peer whose link is down, or 328 ns without a good group lose the link. A fault in RUN_PAIRED enters SAFE_HOLD with
SAFE_N, GATE_ACTIVE and PAIR_OK off and both item lists empty, and records the first kind, item and GT. An exchange shows the
offset of R457 (side A with its sign reversed), sets ALIGNED at the eighth interval within 20 ns and clears it above; side B
steps forward when more than 1 µs behind, or sets B_AHEAD. While the gate is inactive an item of a pin sets its DENIED bit and a
peer item is ignored. Else an item is held with the next SEQ of its key and sent; one whose partner is there is released when
KIND, TAG and VALUE agree, or is a MISMATCH; 512 held is FULL; a passed window is TIMEOUT. At the agreed GT the side enters
RUN_PAIRED with empty counts, or returns to RUN. Commands of the peer wait for Lemam, and a reply ends the command it answers.
The rounding of the mean delay is the model's choice (entry 74). -/
def Obligations.Pair_link_and_gate : Prop :=
  (∀ (s : State) (who : Requester) (v : Word32), let s1 := s.storeReg Reg.PAIR_CFG v.toNat
    let trains := s1.pairLink = 0 ∧ (s1.mode = modeRun ∨ s1.mode = modeDegraded ∨ s1.mode = modeSafeHold ∨ s1.mode = modeService)
    let touched := [Reg.PAIR_STATUS, Reg.PAIR_IRQ_STATUS, Reg.IRT_SRC_CFG 2903]
    (s1.rb Reg.PAIR_CFG 1 = true → trains → ∃ t, exec (.linkEn who v) s = .next t ∧ t.pairLink = 1 ∧ t.rb Reg.PAIR_IRQ_STATUS 1 = true ∧
      s1.bitsKept t Reg.PAIR_STATUS 1 0 ∧ t = { s1 with regs := t.regs, agenda := t.agenda } ∧ s1.regsKept t touched) ∧
    (s1.rb Reg.PAIR_CFG 1 = true → ¬ trains → exec (.linkEn who v) s = .next s1) ∧
    (s1.rb Reg.PAIR_CFG 1 = false → s1.pairLink ≠ 2 → ∃ t, exec (.linkEn who v) s = .next t ∧ t.pairLink = 0 ∧
      s1.bitsKept t Reg.PAIR_STATUS 1 0 ∧ t = { s1 with regs := t.regs, agenda := t.agenda } ∧ s1.regsKept t touched) ∧
    (s1.rb Reg.PAIR_CFG 1 = false → s1.pairLink = 2 → s1.mode ≠ modePaired → ∃ t, exec (.linkEn who v) s = .next t ∧ t.pairLink = 0 ∧
      t.aligned = false ∧ t.rf Reg.PAIR_STATUS 15 12 = 0 ∧ (t.arb 13).tray = [] ∧ (t.arb 13).held = [] ∧ t.mode = s1.mode ∧ t.mem = s.mem)) ∧
  (∀ (s : State) (lanes : BitVec 4) (peer : Bool),
    (s.pairLink ≠ 1 → exec (.linkUp lanes peer) s = .next s) ∧
    (s.pairLink = 1 → lanes ≠ 15 → ∃ t, exec (.linkUp lanes peer) s = .next t ∧ t.rf Reg.PAIR_STATUS 15 12 = lanes.toNat ∧ t.pairLink = 1 ∧
      t = { s with regs := t.regs } ∧ s.regsKept t [Reg.PAIR_STATUS]) ∧
    (s.pairLink = 1 → s.rb Reg.PAIR_CFG 0 = peer → ∃ t, exec (.linkUp 15 peer) s = .next t ∧ t.rb Reg.PAIR_STATUS 4 = true ∧ t.pairLink = 1 ∧
      t = { s with regs := t.regs } ∧ s.regsKept t [Reg.PAIR_STATUS]) ∧
    (s.pairLink = 1 → s.rb Reg.PAIR_CFG 0 ≠ peer → ∃ t, exec (.linkUp 15 peer) s = .next t ∧ t.pairLink = 2 ∧ t.rb Reg.PAIR_STATUS 4 = false ∧
      t.rb Reg.PAIR_IRQ_STATUS 1 = true ∧ t.pair = { s.pair with first := true, good := 0, refusals := 0, lastGood := s.clk } ∧
      t.sends s 328 .pairLinkLoss ∧ t = { s with regs := t.regs, pair := t.pair, agenda := t.agenda } ∧
      s.regsKept t [Reg.PAIR_STATUS, Reg.PAIR_IRQ_STATUS, Reg.IRT_SRC_CFG 2903])) ∧
  (∀ (s : State) (kind : Nat) (i : Option GateItem), s.mode = modePaired → let t := s.gateFault kind i
    t.mode = modeSafeHold ∧ t.rf Reg.PVT_MODE 6 4 = modePaired ∧ t.rf Reg.PVT_MODE 15 8 = 6 ∧ t.rd Reg.PVT_MODE_GT = s.now ∧
    t.modes.safeN = true ∧ t.modes.pairOk = false ∧ t.gateActive = false ∧ t.pair.items = [] ∧ t.pair.peers = [] ∧
    t.rb Reg.PAIR_IRQ_STATUS 0 = true ∧ t.mem = s.mem ∧
    (s.rb Reg.PAIR_IRQ_STATUS 0 = true → t.rf Reg.PAIR_STATUS 10 8 = s.rf Reg.PAIR_STATUS 10 8 ∧ t.rd Reg.PAIR_FAULT_KEY = s.rd Reg.PAIR_FAULT_KEY ∧
      t.rd Reg.PAIR_FAULT_GT = s.rd Reg.PAIR_FAULT_GT) ∧
    (s.rb Reg.PAIR_IRQ_STATUS 0 = false → t.rf Reg.PAIR_STATUS 10 8 = kind % 8 ∧ t.rd Reg.PAIR_FAULT_GT = s.now ∧
      ∀ x, i = some x → t.rd Reg.PAIR_FAULT_KEY = x.key.toNat + b2n x.frame * 2 ^ 18 + x.seq.toNat * 2 ^ 32)) ∧
  (∀ (s : State) (g : PairGroup),
    (s.pairLink ≠ 2 → exec (.pairGroup g) s = .next s ∧ exec .pairLinkLoss s = .next s) ∧
    (s.pairLink = 2 → g.bad ≠ 0 → s.pair.refusals < 15 → ∃ t, exec (.pairGroup g) s = .next t ∧
      t.rd Reg.PAIR_RETRY_COUNT = min (2 ^ 32 - 1) (s.rd Reg.PAIR_RETRY_COUNT + 1) ∧
      t.pair = { s.pair with refusals := s.pair.refusals + 1 } ∧ t = { s with regs := t.regs, pair := t.pair, sheet := t.sheet, agenda := t.agenda } ∧
      s.regsKept t [Reg.PAIR_RETRY_COUNT]) ∧
    (s.pairLink = 2 → (g.bad ≠ 0 ∧ 15 ≤ s.pair.refusals) ∨ (g.bad = 0 ∧ g.up = false) → ∃ t, exec (.pairGroup g) s = .next t ∧ t.pairLink = 0 ∧
      t.aligned = false ∧ (s.mode = modePaired → t.mode = modeSafeHold) ∧ (s.mode ≠ modePaired → t.mode = s.mode) ∧ t.mem = s.mem) ∧
    (s.pairLink = 2 → g.bad = 0 → g.up = true → g.notice = none → g.agree = none → ∃ t, exec (.pairGroup g) s = .next t ∧
      t.rb Reg.PAIR_STATUS 6 = decide (g.mode.toNat = modePaired) ∧ s.bitsKept t Reg.PAIR_STATUS 6 6 ∧
      t.pair = { s.pair with refusals := 0, lastGood := s.clk, peerMode := g.mode.toNat, peerWin := g.win.toNat, peerFollows := g.follows } ∧
      t.sends s 328 .pairLinkLoss ∧ t = { s with regs := t.regs, pair := t.pair, agenda := t.agenda } ∧ s.regsKept t [Reg.PAIR_STATUS]) ∧
    (s.pairLink = 2 → g.bad = 0 → g.up = true → g.notice.isSome = true → g.agree = none → s.gateActive = true → s.mode = modePaired →
      ∃ t, exec (.pairGroup g) s = .next t ∧ t.mode = modeSafeHold ∧ t.gateActive = false ∧
        (s.rb Reg.PAIR_IRQ_STATUS 0 = false → t.rf Reg.PAIR_STATUS 10 8 = 6)) ∧
    (s.pairLink = 2 → s.clk < s.pair.lastGood + 328 → exec .pairLinkLoss s = .next s) ∧
    (s.pairLink = 2 → s.pair.lastGood + 328 ≤ s.clk → ∃ t, exec .pairLinkLoss s = .next t ∧ t.pairLink = 0 ∧ t.aligned = false ∧
      (s.mode = modePaired → t.mode = modeSafeHold) ∧ (s.mode ≠ modePaired → t.mode = s.mode) ∧ t.mem = s.mem)) ∧
  (∀ (s : State) (t1 t2 t3 t4 : Word64), let trips := (t2 - t1).toInt + (t4 - t3).toInt
    let offset : Int := (t1 - t2).toInt + trips / 2 + toSigned 16 (s.rd Reg.PAIR_ASYM)
    let side := s.rb Reg.PAIR_CFG 0
    let large := s.pair.first = true ∨ s.rb Reg.PAIR_STATUS 5 = true
    (s.pairLink ≠ 2 → exec (.alignmentExchange t1 t2 t3 t4) s = .next s) ∧
    (s.pairLink = 2 → ∃ t, exec (.alignmentExchange t1 t2 t3 t4) s = .next t ∧ t.pair.first = false ∧
      t.rd Reg.PAIR_ALIGN_OFFSET = wrapTo 64 (if side then offset else -offset) ∧ t.rd Reg.PAIR_LAT = min 65535 (trips / 2).toNat ∧
      (offset.natAbs ≤ 20 → t.pair.good = min 8 (s.pair.good + 1) ∧ (7 ≤ s.pair.good → t.aligned = true) ∧
        (s.pair.good < 7 → t.aligned = s.aligned)) ∧
      (20 < offset.natAbs → t.pair.good = 0 ∧ t.aligned = false ∧ (s.aligned = true → s.mode = modePaired → t.mode = modeSafeHold)) ∧
      (side = true → large → 1000 < offset → s.mode ≠ modePaired → t.gt.now = BitVec.ofNat 64 (s.now + offset.toNat) ∧
        t.rb Reg.GT_STATUS 6 = true ∧ t.rb Reg.PAIR_STATUS 5 = false) ∧
      (side = true → large → offset < -1000 → t.rb Reg.PAIR_STATUS 5 = true) ∧
      (side = false → s.mode ≠ modePaired → t = { s with regs := t.regs, pair := t.pair, agenda := t.agenda }))) ∧
  (∀ (s : State) (i : GateItem), let n := tabGet 0 s.pair.nextSeq (gateKey i)
    let mine := { i with seq := BitVec.ofNat 32 n }
    (s.gateActive = false → i.frame = false → i.key.toNat < 512 → ∃ t, exec (.gateSubmit i) s = .next t ∧
      t.rb (Reg.PIN_STATUS i.key.toNat) (if s.mode = modeSafeHold then 5 else 4) = true ∧ t = { s with regs := t.regs } ∧ s.regsKept t [Reg.PIN_STATUS i.key.toNat]) ∧
    (s.gateActive = false → exec (.gatePeerItem i) s = .next s) ∧
    (s.gateActive = true → 512 ≤ s.pair.items.length → exec (.gateSubmit i) s = .next (s.gateFault 4 (some mine))) ∧
    (s.gateActive = true → s.pair.items.length < 512 → (∀ x ∈ s.pair.peers, gatePairs mine x = false) → ∃ t r, exec (.gateSubmit i) s = .next t ∧
      t.pair = { s.pair with items := s.pair.items ++ [mine], nextSeq := tabSet 0 s.pair.nextSeq (gateKey i) (n + 1) } ∧
      t.sends s 0 (.arbRequest 13 r) ∧ r.port = 0 ∧ r.bytes = 64 ∧ t.workOf r.tag = some (.gate mine) ∧
      t.sends s (max 1 (i.subGt.toNat + s.agreeWindow - s.now)) .gateTimeout ∧
      t = { s with regs := t.regs, pair := t.pair, agenda := t.agenda, work := t.work, nextTag := t.nextTag } ∧
      s.regsKept t [Reg.PAIR_GATE_USED]) ∧
    (∀ x, s.gateActive = true → s.pair.items.length < 512 → s.pair.peers.find? (gatePairs mine) = some x → gateAgrees mine x = false →
      s.mode = modePaired → ∃ t, exec (.gateSubmit i) s = .next t ∧ t.mode = modeSafeHold ∧
        (s.rb Reg.PAIR_IRQ_STATUS 0 = false → t.rf Reg.PAIR_STATUS 10 8 = 1)) ∧
    (∀ x, s.gateActive = true → s.pair.items.length < 512 → s.pair.peers.find? (gatePairs mine) = some x → gateAgrees mine x = true →
      i.frame = false → i.key.toNat < 512 → s.pair.agreed = [] → (BitVec.ofNat 32 n).toNat = tabGet 0 s.pair.nextOut (gateKey i) →
      ∃ t, exec (.gateSubmit i) s = .next t ∧ t.rd Reg.PAIR_RELEASE_COUNT = (s.rd Reg.PAIR_RELEASE_COUNT + 1) % 2 ^ 64 ∧
        (s.clk, if i.value = 1 then PinAct.active else PinAct.toggle) ∈ (t.pin i.key.toNat).acts ∧
        t.sends s 0 (.pinAction (Fin.ofNat 512 i.key.toNat)) ∧ t.pair.items = s.pair.items.filter (fun j => !gatePairs mine j) ∧
        t.pair.peers = s.pair.peers.filter (fun j => !gatePairs mine j) ∧ t.pair.agreed = []) ∧
    (s.gateActive = true → 512 ≤ s.pair.peers.length → (∀ x ∈ s.pair.items, gatePairs i x = false) → exec (.gatePeerItem i) s = .next (s.gateFault 4 (some i))) ∧
    (s.gateActive = true → s.pair.peers.length < 512 → (∀ x ∈ s.pair.items, gatePairs i x = false) → ∃ t, exec (.gatePeerItem i) s = .next t ∧
      t.pair = { s.pair with peers := s.pair.peers ++ [i] } ∧ t.sends s (max 1 (i.subGt.toNat + s.agreeWindow - s.now)) .gateTimeout ∧
      t = { s with regs := t.regs, pair := t.pair, agenda := t.agenda } ∧ s.regsKept t [Reg.PAIR_GATE_USED]) ∧
    (∀ x, s.gateActive = true → s.pair.items.find? (gatePairs i) = some x → gateAgrees x i = false →
      s.mode = modePaired → ∃ t, exec (.gatePeerItem i) s = .next t ∧ t.mode = modeSafeHold ∧
        (s.rb Reg.PAIR_IRQ_STATUS 0 = false → t.rf Reg.PAIR_STATUS 10 8 = 1))) ∧
  (∀ (s : State), let all := s.pair.items ++ s.pair.peers
    (all = [] → exec .gateTimeout s = .next s) ∧
    (∀ x, all.find? (fun i => decide (i.subGt.toNat + s.agreeWindow ≤ s.now)) = some x → s.gateActive = true →
      exec .gateTimeout s = .next (s.gateFault 2 (some x))) ∧
    (∀ x, all = [x] → s.now < x.subGt.toNat + s.agreeWindow →
      exec .gateTimeout s = .next (s.send (x.subGt.toNat + s.agreeWindow - s.now) .gateTimeout))) ∧
  (∀ (s : State),
    (s.modes.agreed = none → exec .pairedEntry s = .next s ∧ exec .pairedExit s = .next s) ∧
    (∀ g, s.modes.agreed = some (true, g) → exec .pairedExit s = .next s ∧
      (s.now < g.toNat → exec .pairedEntry s = .next (s.send (g.toNat - s.now) .pairedEntry)) ∧
      (g.toNat ≤ s.now → s.mode = modeRun → s.pairLink = 2 → ∃ t, exec .pairedEntry s = .next t ∧ t.mode = modePaired ∧ t.gateActive = true ∧
        t.modes.pairOk = true ∧ t.modes.safeN = false ∧ t.modes.agreed = none ∧ t.pair.items = [] ∧ t.pair.peers = [] ∧ t.pair.nextSeq = [] ∧
        t.rf Reg.PVT_MODE 6 4 = modeRun ∧ t.mem = s.mem ∧
        s.regsKept t [Reg.PAIR_STATUS, Reg.PAIR_GATE_USED, Reg.PVT_MODE, Reg.PVT_MODE_GT]) ∧
      (g.toNat ≤ s.now → s.mode ≠ modeRun ∨ s.pairLink ≠ 2 → ∃ t, exec .pairedEntry s = .next t ∧ t.modes = { s.modes with agreed := none } ∧
        t.sends s 0 .commandTake ∧ t = { s with modes := t.modes, agenda := t.agenda })) ∧
    (∀ g, s.modes.agreed = some (false, g) → exec .pairedEntry s = .next s ∧
      (s.now < g.toNat → exec .pairedExit s = .next (s.send (g.toNat - s.now) .pairedExit)) ∧
      (g.toNat ≤ s.now → s.mode = modePaired → ∃ t, exec .pairedExit s = .next t ∧ t.mode = modeRun ∧ t.gateActive = false ∧
        t.modes.pairOk = false ∧ t.modes.agreed = none ∧ t.pair.items = [] ∧ t.pair.peers = [] ∧ t.rf Reg.PVT_MODE 6 4 = modePaired ∧
        t.rb Reg.PAIR_IRQ_STATUS 0 = s.rb Reg.PAIR_IRQ_STATUS 0 ∧ t.mem = s.mem))) ∧
  (∀ (s : State) (p : List Byte),
    (s.pairLink ≠ 2 → exec (.peerCommand p) s = .next s) ∧
    (s.pairLink = 2 → ∃ t, exec (.peerCommand p) s = .next t ∧ t.lemam = { s.lemam with peerIn := s.lemam.peerIn ++ [p] } ∧
      t.sends s 500 .commandTake ∧ t = { s with lemam := t.lemam, agenda := t.agenda }) ∧
    (s.lemam.outs = [] → exec (.peerReply p) s = .next s) ∧
    (∀ r rest, s.lemam.outs = r :: rest → p = [] → ∃ t, exec (.peerReply p) s = .next t ∧ t.lemam.outs = rest ∧ t.lemam.reply = (9, [])) ∧
    (∀ r, p ≠ [] → s.lemam.outs.find? (fun r => decide (r.opcode = ofBytes (p.take 2)) && decide (r.seq = ofBytes ((p.drop 2).take 2))) = some r →
      let st := ofBytes ((p.drop 8).take 1)
      ∃ t, exec (.peerReply p) s = .next t ∧ t.lemam.outs = s.lemam.outs.erase r ∧
        t.lemam.reply = (st, if st = 0 then (p.drop 16).take (ofBytes ((p.drop 4).take 2)) else [])))

/-- A write of CMDR_TAIL that leaves more commands than slots only sets TAIL_ERR, any other stores TAIL; while EN is 1 a write of
CMDR_CFG moves only EN, and EN from 0 to 1 zeroes HEAD and TAIL and clears MEM_ERR; requests below the ring's level do nothing.
WRITE_CMD with a wrong CRC, while BUSY or with a reply waiting sets REJECT, else the packet waits; READ_REPLY returns the reply
with its CRC-32C, READ_STATUS the five bits and clears REJECT. While Lemam does not run nothing is taken. A command of the SPI
that fails a check is answered with that STATUS in a 16-byte reply and changes nothing; one that passes is carried out. A ring's
command is read whole, HEAD advances, and its reply header with DONE stands in the slot; a slot outside DRAM or in an enclave
range stops the ring with MEM_ERR. A PEER command waits for its reply, a fifth is BUSY. A deferred command ends once its queues
are quiet, VI_DESTROY with its VI invalid, a failed row repair with HW_FAULT; until then it is looked at again. The watchdog
sets WDOG; ENGAGE_SPARE then starts core 1 and discards what was taken. The times between these are the model's (entry 77). -/
def Obligations.Lemam_transports : Prop :=
  (∀ (s : State) (j : RingId) (who : Requester) (v : Word32), let n := j.val
    let slots := 2 ^ min 8 (s.rf (Reg.CMDR_CFG n) 3 0)
    let left := (v.toNat + 65536 - s.rd (Reg.CMDR_HEAD n)) % 65536
    let may := (if n < 16 then 2 else 3) ≤ who.pl.toNat
    (¬ may → exec (.cmdrTail j who v) s = .next s ∧ exec (.cmdrCfg j who v) s = .next s) ∧
    (may → slots < left → ∃ t, exec (.cmdrTail j who v) s = .next t ∧ t.rb (Reg.CMDR_STATUS n) 0 = true ∧
      s.bitsKept t (Reg.CMDR_STATUS n) 0 0 ∧ t = { s with regs := t.regs } ∧ s.regsKept t [Reg.CMDR_STATUS n]) ∧
    (may → left ≤ slots → ∃ t, exec (.cmdrTail j who v) s = .next t ∧ t.rf (Reg.CMDR_TAIL n) 15 0 = v.toNat % 65536 ∧
      t.sends s 1000 .commandTake ∧ t = { s with regs := t.regs, agenda := t.agenda } ∧ s.regsKept t [Reg.CMDR_TAIL n]) ∧
    (may → s.rb (Reg.CMDR_CFG n) 8 = true → ∃ t, exec (.cmdrCfg j who v) s = .next t ∧ t.rb (Reg.CMDR_CFG n) 8 = v.getLsbD 8 ∧
      s.bitsKept t (Reg.CMDR_CFG n) 8 8 ∧ t = { s with regs := t.regs } ∧ s.regsKept t [Reg.CMDR_CFG n]) ∧
    (may → s.rb (Reg.CMDR_CFG n) 8 = false → ∃ t, exec (.cmdrCfg j who v) s = .next t ∧ t.rf (Reg.CMDR_CFG n) 3 0 = v.toNat % 16 ∧
      t.rb (Reg.CMDR_CFG n) 8 = v.getLsbD 8 ∧
      (v.getLsbD 8 = true → t.rd (Reg.CMDR_HEAD n) = 0 ∧ t.rd (Reg.CMDR_TAIL n) = 0 ∧ t.rb (Reg.CMDR_STATUS n) 1 = false) ∧
      t = { s with regs := t.regs } ∧ s.regsKept t [Reg.CMDR_CFG n, Reg.CMDR_HEAD n, Reg.CMDR_TAIL n, Reg.CMDR_STATUS n])) ∧
  (∀ (s : State) (p : List Byte), let body := p.take (p.length - 4)
    let good := 4 ≤ p.length ∧ ofBytes (p.drop (p.length - 4)) = (crc32c body).toNat
    let x := s.lemam
    (s.modes.lemamUp = false ∨ s.mode = modeOff → exec (.writeCmd p) s = .next s) ∧
    (s.modes.lemamUp = true → s.mode ≠ modeOff → ¬ good ∨ x.spiBusy = true ∨ x.spiReply.isSome = true →
      exec (.writeCmd p) s = .next { s with lemam := { x with reject := true } }) ∧
    (s.modes.lemamUp = true → s.mode ≠ modeOff → good → x.spiBusy = false → x.spiReply = none → ∃ t, exec (.writeCmd p) s = .next t ∧
      t.lemam = { x with spiBusy := true, spiCmd := some body } ∧ t.sends s 1000 .commandTake ∧ t = { s with lemam := t.lemam, agenda := t.agenda }) ∧
    (s.modes.lemamUp = false ∨ s.mode = modeOff → exec .readReply s = .next s ∧ exec .readStatus s = .next s) ∧
    (s.modes.lemamUp = true → s.mode ≠ modeOff → ∀ b, x.spiReply = some b → exec .readReply s =
      .next { s with lemam := { x with spiReply := none, spiOut := b ++ toBytes 4 (crc32c b).toNat } }) ∧
    (s.modes.lemamUp = true → s.mode ≠ modeOff → x.spiReply = none → exec .readReply s = .next { s with lemam := { x with spiOut := [] } }) ∧
    (s.modes.lemamUp = true → s.mode ≠ modeOff → ∃ b : Byte, exec .readStatus s = .next { s with lemam := { x with reject := false, spiOut := [b] } } ∧ b.getLsbD 0 = x.spiBusy ∧
      b.getLsbD 1 = x.spiReply.isSome ∧ b.getLsbD 2 = x.reject ∧ b.getLsbD 3 = s.lemamRuns ∧ b.getLsbD 4 = s.rb cmdStatus 9 ∧ b < 32)) ∧
  (∀ (s : State), s.lemamRuns = false → exec .commandTake s = .next s ∧ exec .watchdog s = .next s) ∧
  (∀ (s : State), s.lemamRuns = true →
    (∃ t, exec .watchdog s = .next t ∧ t.rb cmdStatus 9 = true ∧ t.lemamRuns = false ∧ t.mode = s.mode ∧ s.bitsKept t cmdStatus 9 9 ∧
      t = { s with regs := t.regs, sheet := t.sheet, agenda := t.agenda } ∧ s.regsKept t [cmdStatus])) ∧
  (∀ (s : State),
    (s.rb cmdStatus 9 = false ∨ s.spare.command = true → exec .engageSpare s = .next s) ∧
    (s.rb cmdStatus 9 = true → s.spare.command = false → ∃ t, exec .engageSpare s = .next t ∧ t.rb cmdStatus 9 = false ∧
      t.rb cmdStatus 8 = true ∧ t.rf cmdStatus 4 0 = 0 ∧ t.spare = { s.spare with command := true } ∧ t.lemam.deferred = [] ∧ t.lemam.outs = [] ∧
      t.lemam.waiting = s.lemam.waiting.filter (fun w => decide (512 ≤ w.2 ∧ w.2 < 1024)) ∧ t.modes = { s.modes with patch := t.modes.patch } ∧
      t.sends s 5000000 .commandTake ∧
      t = { s with regs := t.regs, spare := t.spare, lemam := t.lemam, sheet := t.sheet, modes := t.modes, agenda := t.agenda } ∧
      s.regsKept t [cmdStatus])) ∧
  (∀ (s : State), s.lemamRuns = true → s.lemam.waiting = [] →
    ((∀ k < 35, s.sourceReady k = false) → exec .commandTake s = .next s) ∧
    (∀ p, (∀ k < 35, s.sourceReady k = true ↔ k = 32) → s.lemam.spiCmd = some p →
      let u := { s with lemam := { s.lemam with turn := 33, spiCmd := none } }
      let c := packetCmd { src := .spi, opcode := 0, seq := 0 } p
      let st := u.cmdCheck c
      (st ≠ 0 → exec .commandTake s = .next { u with lemam := { u.lemam with
        reply := (st, []), spiBusy := false
        spiReply := some (toBytes 2 c.route.opcode ++ toBytes 2 c.route.seq ++ [0, 0, 2, 1, BitVec.ofNat 8 st] ++ toBytes 7 s.now) } }) ∧
      (st = 0 → ∃ l, exec .commandTake s = .next { u.cmdRun c with agenda := l })) ∧
    (∀ j : RingId, (∀ k < 35, s.sourceReady k = true ↔ k = j.val) → let n := j.val
      let a := s.rd (Reg.CMDR_BASE n) + 4096 * (s.rd (Reg.CMDR_HEAD n) % 2 ^ min 8 (s.rf (Reg.CMDR_CFG n) 3 0))
      let opened := s.inDram a = true ∧ s.inDram (a + 4095) = true ∧ s.ertPermits 0 a true = true
      (¬ opened → ∃ t, exec .commandTake s = .next t ∧ t.rb (Reg.CMDR_STATUS n) 1 = true ∧ t.lemam = { s.lemam with turn := (n + 1) % 35 } ∧
        t = { s with regs := t.regs, lemam := t.lemam } ∧ s.regsKept t [Reg.CMDR_STATUS n]) ∧
      (∀ h p, opened → s.slotBytes a 16 = some h → s.slotBytes a (16 + min 4080 (ofBytes ((h.drop 4).take 2))) = some p →
        let c0 := packetCmd { src := .ring j, opcode := 0, seq := 0, slot := a } p
        let c := { c0 with route := { c0.route with notify := c0.flags.testBit 2 } }
        let u := ({ s with lemam := { s.lemam with turn := (n + 1) % 35 } }).wr (Reg.CMDR_HEAD n) ((s.rd (Reg.CMDR_HEAD n) + 1) % 65536)
        let st := u.cmdCheck c
        (c.flags.testBit 1 = false → st ≠ 0 → ∃ t, exec .commandTake s = .next t ∧ t.rd (Reg.CMDR_HEAD n) = (s.rd (Reg.CMDR_HEAD n) + 1) % 65536 ∧
          t.lemam = { s.lemam with turn := (n + 1) % 35, reply := (st, []) } ∧
          toBytes 16 (t.bytes a 16) = toBytes 2 c.route.opcode ++ toBytes 2 c.route.seq ++
            [0, 0, BitVec.ofNat 8 ((if n < 16 then 0 else 1) + 8 * n), 1, BitVec.ofNat 8 st] ++ toBytes 7 s.now ∧
          s.regsKept t ([Reg.CMDR_HEAD n, Reg.IRT_SRC_CFG 2905] ++ (List.range 64).map Reg.HS_STATUS ++ (List.range 64).map Reg.HS_DIR_USED)) ∧
        (c.flags.testBit 1 = true → c.zero = 0 → c.flags % 2 = 0 → c.flags < 8 → c.len ≤ 4064 → s.lemam.outs.length < 4 → s.pairLink = 2 →
          ∃ t, exec .commandTake s = .next t ∧ t.lemam = { s.lemam with turn := (n + 1) % 35, outs := s.lemam.outs ++ [c.route] } ∧ t.mem = s.mem) ∧
        (c.flags.testBit 1 = true → c.zero = 0 → c.flags % 2 = 0 → c.flags < 8 → c.len ≤ 4064 → 4 ≤ s.lemam.outs.length →
          ∃ t, exec .commandTake s = .next t ∧ t.lemam = { s.lemam with turn := (n + 1) % 35, reply := (6, []) })))) ∧
  (∀ (s : State) (seq op : BitVec 16) (src : CmdSource) (res : List Byte),
    let hit := s.lemam.deferred.find? fun d => d.route.opcode == op.toNat && d.route.seq == seq.toNat && d.route.src == src
    (hit = none → exec (.deferredComplete seq op src res) s = .next s) ∧
    (∀ d, hit = some d → op = 0x61 ∨ op = 0x62 ∨ op = 0x64 → (∃ q ∈ d.queues, s.queueQuiet q = false) →
      exec (.deferredComplete seq op src res) s = .next (s.send 1000 (.deferredComplete seq op src res))) ∧
    (∀ d, hit = some d → op = 0x62 ∨ op = 0x64 → d.vi = none → (∀ q ∈ d.queues, s.queueQuiet q = true) →
      ∃ t, exec (.deferredComplete seq op src res) s = .next t ∧ t.lemam.deferred = s.lemam.deferred.erase d ∧ t.lemam.reply = (0, []) ∧
        t.rf cmdStatus 4 0 = (s.lemam.deferred.erase d).length % 32) ∧
    (∀ d v, hit = some d → op = 0x61 → d.vi = some v → v < 4096 → (∀ q ∈ d.queues, s.queueQuiet q = true) →
      ∃ t, exec (.deferredComplete seq op src res) s = .next t ∧ t.lemam.deferred = s.lemam.deferred.erase d ∧ t.lemam.reply = (0, []) ∧
        t.rd (Reg.VI_CFG v) = 0 ∧ t.rd (Reg.VI_QRANGE v) = 0) ∧
    (∀ d, hit = some d → op = 0x52 → (∃ n ∈ d.channels, s.rb (Reg.MC_STATUS n) 5 = true) →
      exec (.deferredComplete seq op src res) s = .next s) ∧
    (∀ d, hit = some d → op = 0x55 → ofBytes (res.take 1) ≠ 0 → ∃ t, exec (.deferredComplete seq op src res) s = .next t ∧
      t.lemam.deferred = s.lemam.deferred.erase d ∧ t.lemam.reply = (7, [])) ∧
    (∀ d n, hit = some d → op = 0x53 → d.channels = [n] → d.route.live = false → ∃ t, exec (.deferredComplete seq op src res) s = .next t ∧
      t.lemam.deferred = s.lemam.deferred.erase d ∧ t.lemam.reply = (0, res) ∧
      ∀ a, inRom a = false → t.byte a = if s.inDram a = true ∧ (s.dramLoc a).mc = n then 0 else s.byte a))

/-- For each of the 34 commands, with every operand, and every state. While Lemam does not run nothing happens. While it runs, a
command from a source that the table of R485 does not list for it (0 PL2 ring, 1 PL3 ring, 2 management SPI, 3 peer, 4 MGMT) is
answered with DENIED, and one for which the first failing check of R480 has a STATUS is answered with that STATUS and no data;
in both cases nothing else changes. The first failing check is opcode, then source, mode, form and values, locks, conflicts,
resources. In RETURN every command but GET_INFO and CONTACT_READ is DENIED; a command by MGMT outside SERVICE that is listed and
not denied is WRONG_MODE. -/
def Obligations.Commands_of_Lemam_are_checked : Prop :=
  (∀ (s : State) (src : CmdSource) (op : Nat) (params : List Byte),
    let c : Cmd := { route := { src := src, opcode := op, seq := 0 }, flags := 0, len := params.length, zero := 0, params := params }
    let listed := (cmdSources op).contains (sourceCode src)
    (cmdSources op = [] → s.cmdCheck c = 1) ∧
    (cmdSources op ≠ [] → listed = false → s.cmdCheck c = 5) ∧
    (cmdSources op ≠ [] → s.enc.state = 3 → op ≠ 0x02 → op ≠ 0x40 → s.cmdCheck c = 5) ∧
    (listed = true → s.cmdDenied c = false → src = .mgmt → s.mode ≠ modeService → s.cmdCheck c = 4) ∧
    (listed = true → s.cmdDenied c = false → s.cmdMode c = true → s.cmdValues c = false → s.cmdCheck c = 2) ∧
    (listed = true → s.cmdDenied c = false → s.cmdMode c = true → c.headerGood = true → s.cmdValues c = true → s.cmdLocked c = true →
      s.cmdCheck c = 3) ∧
    (listed = true → s.cmdDenied c = false → s.cmdMode c = true → c.headerGood = true → s.cmdValues c = true → s.cmdLocked c = false →
      op ≠ 0x31 → s.cmdBusy c = true → s.cmdCheck c = 6) ∧
    (listed = true → s.cmdDenied c = false → s.cmdMode c = true → c.headerGood = true → s.cmdValues c = true → s.cmdLocked c = false →
      op ≠ 0x31 → s.cmdBusy c = false → s.cmdCheck c = if s.cmdShort c then 7 else 0)) ∧
  (let row := fun (src : CmdSource) (i : Instr) (op : Nat) (params : List Byte) (from_ : List Nat) => ∀ s : State,
    let c : Cmd := { route := { src := src, opcode := op, seq := 0 }, flags := 0, len := params.length, zero := 0, params := params }
    (s.lemamRuns = false → exec i s = .next s) ∧
    (s.lemamRuns = true → sourceCode src ∉ from_ → exec i s = .next { s with lemam := { s.lemam with reply := (5, []) } }) ∧
    (s.lemamRuns = true → s.cmdCheck c ≠ 0 → exec i s = .next { s with lemam := { s.lemam with reply := (s.cmdCheck c, []) } });
  let list := fun (b : Byte) (ws : List CfgWrite) =>
    b :: toBytes 3 0 ++ ws.flatMap fun w => toBytes 4 w.offset.toNat ++ w.width :: toBytes 3 0 ++ toBytes 8 w.value.toNat;
  let area := fun (a : BitVec 16) (f k : Word32) => toBytes 2 a.toNat ++ [0, 0] ++ toBytes 4 f.toNat ++ toBytes 4 k.toNat;
  ∀ (src : CmdSource) (p : List Byte) (a b d e : Byte) (ws : List CfgWrite) (h : BitVec 16) (x y : Word32) (w : Word64),
    row src (.echo src p) 0x01 p [0, 1, 2, 3, 4] ∧
    row src (.getInfo src) 0x02 [] [0, 1, 2, 3, 4] ∧
    row src (.modeSet src a) 0x10 [a, 0, 0, 0] [0, 1, 2, 3] ∧
    row src (.modeGet src) 0x11 [] [0, 1, 2, 3, 4] ∧
    row src (.powerPointSet src a b) 0x20 [a, b, 0, 0] [0, 1, 2] ∧
    row src (.pvtRead src a b d) 0x21 [a, b, d, 0] [0, 1, 2, 3, 4] ∧
    row src (.spareStatus src a b) 0x30 [a, b, 0, 0] [0, 1, 2, 3, 4] ∧
    row src (.spareEngage src a b d h) 0x31 ([a, b, d, 0] ++ toBytes 2 h.toNat ++ [0, 0]) [1, 2] ∧
    row src (.contactRead src x a) 0x40 (toBytes 4 x.toNat ++ [a, 0, 0, 0]) [0, 1, 2, 3, 4] ∧
    row src (.contactClear src) 0x41 [] [0, 1, 2] ∧
    row src (.dramConfig src p) 0x50 p [2] ∧
    row src (.dramDelaysetLoad src p) 0x51 p [0, 1, 2] ∧
    row src (.dramDelaysetSelect src a b) 0x52 [a, b, 0, 0] [0, 1, 2] ∧
    row src (.dramMarginScan src p) 0x53 p [1, 2, 4] ∧
    row src (.dramEraseDevice src a b d e) 0x54 [a, b, d, e] [0, 1, 2] ∧
    row src (.dramRepairRow src p) 0x55 p [1, 2, 4] ∧
    row src (.dramScrubSet src a b) 0x56 [a, b, 0, 0] [0, 1, 2] ∧
    row src (.viCreate src p) 0x60 p [0, 1] ∧
    row src (.viDestroy src h) 0x61 (toBytes 2 h.toNat ++ [0, 0]) [0, 1] ∧
    row src (.viReset src h) 0x62 (toBytes 2 h.toNat ++ [0, 0]) [0, 1] ∧
    row src (.queueBind src p) 0x63 p [0, 1] ∧
    row src (.queueReset src x) 0x64 (toBytes 4 x.toNat) [0, 1] ∧
    row src (.portConfig src a ws) 0x70 (list a ws) [0, 1, 2, 4] ∧
    row src (.switchConfig src ws) 0x71 (list 0 ws) [0, 1, 2, 4] ∧
    row src (.dinathConfig src ws) 0x72 (list 0 ws) [0, 1, 2, 4] ∧
    row src (.phaseBaseConfig src a ws) 0x80 (list a ws) [0, 1, 2] ∧
    row src (.timeStep src w) 0x81 (toBytes 8 w.toNat) [0, 1, 2] ∧
    row src (.pairConfig src ws) 0x90 (list 0 ws) [0, 1, 2] ∧
    row src (.pairStatus src) 0x91 [] [0, 1, 2, 3] ∧
    row src (.shutter src w) 0xA0 (toBytes 8 w.toNat) [0, 1, 2, 3] ∧
    row src (.lifecycleAdvance src p) 0xB0 p [1, 2] ∧
    row src (.debugUnlock src) 0xB1 [] [2] ∧
    row src (.lockRegion src h x y) 0xC0 (area h x y) [0, 1, 2] ∧
    row src (.configChecksum src h x y) 0xF0 (area h x y) [0, 1, 2, 3, 4])

/-- Lemam runs, and the source, lifecycle and mode are ones R485 lists for the command, the operands in its ranges, no unit locked,
busy or held by a deferred command: each of the 34 then acts. The reading commands only answer: ECHO its bytes, GET_INFO the 32
of R486, MODE_GET mode, PREV, cause and GT, PVT_READ 4 bytes a monitor, SPARE_STATUS 24 bytes a group, CONTACT_READ held entries
in number, PAIR_STATUS 64 bytes, CONFIG_CHECKSUM CRC-32C and length. MODE_SET answers at once in the mode asked for, enters it
with its cause, begins STANDBY, begins the way out of STANDBY, or agrees an instant of R464, and waits. POWER_POINT_SET sets the
clock point of one core or of all (0xFF), stops a core and waits, or releases it; a core already so only gets its answer.
SPARE_ENGAGE takes a spare that is free and fit and writes its entry. CONTACT_CLEAR clears VALID. The DRAM commands hold the
configuration, load a set, mark a set pending, wait deferred, mark a device erasing, or set the period. VI_CREATE, QUEUE_BIND
and the resets set the registers and contexts of R366 and R384; VI_DESTROY and the resets are deferred. A write list is its
register writes in order with Lemam's authority. TIME_STEP adds to GT at once and answers the new GT. SHUTTER counts at once or
arms. LIFECYCLE_ADVANCE burns or answers HW_FAULT by a free value (entry 109), DEBUG_UNLOCK opens debug over erased memory,
LOCK_REGION locks each unit named. Latencies are left out (entry 77). -/
def Obligations.Commands_of_Lemam_act : Prop :=
  ∀ (s : State) (src : CmdSource) (p : List Byte) (a b d e : Byte) (ws : List CfgWrite) (h : BitVec 16) (x y : Word32) (w : Word64),
    s.lemamRuns = true →
    let may := fun (from_ : List Nat) => s.enc.state ≠ 3 ∧ sourceCode src ∈ from_ ∧ (src = .mgmt → s.mode = modeService)
    let op := 3 ≤ s.mode ∧ s.mode ≤ 7
    let steady := s.modes.agreed = none ∧ s.modes.waking = none
    let free := fun (queues channels : List Nat) => ∀ f ∈ s.lemam.deferred, (∀ n ∈ channels, n ∉ f.channels) ∧ (∀ q ∈ queues, q ∉ f.queues)
    let room := s.lemam.deferred.length < 16
    let high := sourceCode src = 1 ∨ sourceCode src = 2
    let answers := fun (i : Instr) (bytes : List Byte) => exec i s = .next { s with lemam := { s.lemam with reply := (0, bytes) } }
    let par := fun (k n : Nat) => ofBytes ((p.drop k).take n)
    let list := fun (b : Byte) (ws : List CfgWrite) =>
      b :: toBytes 3 0 ++ ws.flatMap fun w => toBytes 4 w.offset.toNat ++ w.width :: toBytes 3 0 ++ toBytes 8 w.value.toNat
    let route := fun op : Nat => ({ src := src, opcode := op, seq := 0 } : Route)
    let cause := match src with | .peer .. => 15 | _ => 3
    let done := fun (t : State) (i : Instr) => exec i s = .next t ∧ t.lemam.reply = (0, [])
    let defers := fun (i : Instr) (op : Nat) (queues channels : List Nat) (vi : Option Nat) (params : List Byte) => ∃ t, exec i s = .next t ∧
      t.lemam = { s.lemam with deferred := s.lemam.deferred ++
        [{ route := route op, queues := queues, channels := channels, vi := vi, params := params }] } ∧ t.mem = s.mem
    let writes := fun (i : Instr) (op : Nat) (params : List Byte) => ∀ l, listWrites op params = some l →
      (∀ w ∈ l, s.writeIsLocked w.1 w.2.2 = false) → (op = 0x72 → sourcePl3 src = true ∨ ∀ w ∈ l, s.ptGuarded w.1 w.2.2 = false) →
      let who : Requester := { agent := .lemam, pl := if sourcePl3 src then 3 else 2, eid := 0 }
      let u := l.foldl (fun s w => (s.busWrite who w.1 w.2.1 w.2.2 (s.whoStamp who 12 10)).2) s
      exec i s = .next { u with lemam := { u.lemam with reply := (0, []) } }
    let there := 1 ≤ y.toNat ∧ x.toNat + y.toNat ≤ areaUnits h.toNat ∧
      (sourcePl3 src = true ∨ ∀ k < y.toNat, s.unitEid h.toNat (x.toNat + k) = 0)
    let rights := fun v : Nat => s.viEid v = 0 ∨ sourceCode src = 1
    (may [0, 1, 2, 3, 4] → p.length ≤ 4080 → answers (.echo src p) p) ∧
    ((src = .mgmt → s.mode = modeService) → answers (.getInfo src) (toBytes 4 0x7200 ++ [0xA1, Config.romVersion] ++ toBytes 2 s.modes.patch ++ toBytes 1 s.enc.state ++
      toBytes 1 s.mode ++ toBytes 1 (s.rf cmdStatus 8 8) ++ [0] ++ toBytes 4 (s.capacity / 2 ^ 30) ++ toBytes 2 (96 - s.modes.lostCores.length) ++
      toBytes 2 (256 - s.modes.lostPcs.length) ++ List.replicate 12 0)) ∧
    (may [0, 1, 2, 3, 4] → answers (.modeGet src) (toBytes 1 s.mode ++ toBytes 1 (s.rf Reg.PVT_MODE 6 4) ++ toBytes 1 (s.rf Reg.PVT_MODE 15 8) ++ [0] ++
      toBytes 8 (s.rd Reg.PVT_MODE_GT))) ∧
    (may [0, 1, 2, 3, 4] → a < 4 → 1 ≤ d → d ≤ 64 →
      b.toNat + d.toNat ≤ (if a = 0 then 64 else if a = 1 then 32 else if a = 2 then 16 else 24) → answers (.pvtRead src a b d) ((List.range d.toNat).flatMap fun k => toBytes 4 (s.rd
      ((if a = 0 then Reg.PVT_TS else if a = 1 then Reg.PVT_VM else if a = 2 then Reg.PVT_PM else Reg.PVT_AM) (b.toNat + k))))) ∧
    (may [0, 1, 2, 3, 4] → (a < 4 ∧ b < 4) ∨ (a = 10 ∧ b = 4) → ∃ n r, answers (.spareStatus src a b) ([a, b, n, 0, 0, 0, 0, 0] ++ r) ∧ r.length = 24 * n.toNat) ∧
    ((src = .mgmt → s.mode = modeService) → 1 ≤ a → a ≤ 127 → ∃ es : List SheetEntry, es.length ≤ a.toNat ∧ (∀ e ∈ es, e ∈ s.sheet.ring) ∧
      answers (.contactRead src x a) (toBytes 4 (min s.sheet.lostCount (2 ^ 32 - 1)) ++ toBytes 4 (s.sheet.seq - 1).toNat ++
        es.flatMap SheetEntry.bytes)) ∧
    (may [0, 1, 2, 3] → ∃ r, answers (.pairStatus src) r ∧ r.length = 64) ∧
    (may [0, 1, 2, 3, 4] → there → let r := s.areaBytes h.toNat x.toNat y.toNat
      answers (.configChecksum src h x y) (toBytes 4 (crc32c r).toNat ++ toBytes 4 r.length)) ∧
    (let i := Instr.modeSet src a
      let waits := fun (t : State) (n : Nat) => t.lemam = { s.lemam with waiting := s.lemam.waiting ++ [(route 0x10, n)] }
      let wakes := fun (t : State) (n cause : Nat) => exec i s = .next t ∧ t.modes.waking = some (n, cause) ∧ (s.clk, Act.boot 20) ∈ t.agenda ∧
        waits t n ∧ t.mode = modeStandby ∧ t.regs = s.regs ∧ t.mem = s.mem
      (may [0, 1, 2, 3] → a.toNat = s.mode → a ∈ [2, 3, 4, 6, 7] → (sourceCode src = 3 → a = 6) → (s.mode = modeStandby → src = .spi) →
        answers i []) ∧
      (may [0, 1, 2, 3] → a = 6 → s.mode ∈ [3, 4, 5, 7] → (s.mode = modeService → high) → steady → ∃ t, done t i ∧ t.mode = modeSafeHold ∧
        t.rf Reg.PVT_MODE 6 4 = s.mode ∧ t.rf Reg.PVT_MODE 15 8 = cause ∧ t.modes.safeN = true ∧ t.modes.pairOk = false ∧ t.mem = s.mem) ∧
      (s.enc.state ≠ 3 → src = .spi → a = 6 → s.mode = modeStandby → steady → ∃ t, exec i s = .next t ∧ t.modes.waking = some (6, 3) ∧
        t.modes.safeN = true ∧ t.modes.holdCause = some 3 ∧ (s.clk, Act.boot 20) ∈ t.agenda ∧ waits t 6 ∧ t.mode = modeStandby ∧ t.mem = s.mem) ∧
      (s.enc.state ≠ 3 → src = .spi → a = 3 → s.mode = modeStandby → steady → ∃ t, wakes t 3 11) ∧
      (s.enc.state ≠ 3 → high → a = 7 → s.mode = modeSafeHold → steady → ∃ t, done t i ∧ t.mode = modeService ∧ t.rf Reg.PVT_MODE 15 8 = cause ∧
        t.modes.safeN = true ∧ t.mem = s.mem ∧ s.regsKept t [Reg.PVT_MODE, Reg.PVT_MODE_GT]) ∧
      (may [0, 1, 2] → a = 2 → s.mode = modeRun ∨ s.mode = modeDegraded → steady → ∃ t, done t i ∧ t.mode = modeStandby ∧
        t.rf Reg.PVT_MODE 15 8 = cause ∧ t.sends s 100000 .standbySequence ∧ s.regsKept t [Reg.PVT_MODE, Reg.PVT_MODE_GT]) ∧
      (s.enc.state ≠ 3 → high → a = 3 → s.mode = modeService → steady → ∃ t, done t i ∧ t.mode = s.runMode ∧ t.rf Reg.PVT_MODE 15 8 = cause ∧
        t.modes.safeN = false ∧ s.regsKept t [Reg.PVT_MODE, Reg.PVT_MODE_GT]) ∧
      (may [0, 1, 2] → (a = 3 ∧ s.mode = modePaired) ∨ (a = 4 ∧ s.mode = modeRun ∧ s.pairLink = 2 ∧ s.aligned = true ∧ s.pair.peerMode = modeRun ∧
          s.agreeWindow = 1000 * max 1 (min 100 s.pair.peerWin) ∧
          (if s.rb Reg.PAIR_CFG 0 then s.rf Reg.GT_CTRL 1 0 = 2 else s.pair.peerFollows = true)) →
        steady → s.agreedStart < 2 ^ 64 → ∃ t g, exec i s = .next t ∧
        t.modes = { s.modes with agreed := some (a == 4, g) } ∧ s.now + 100000 ≤ g.toNat ∧ g.toNat % 2 ^ 20 = 0 ∧ g.toNat < s.now + 100000 + 2 ^ 20 ∧
        waits t a.toNat ∧ t.regs = s.regs ∧ t.mem = s.mem)) ∧
    (let i := Instr.powerPointSet src a b
      let one := may [0, 1, 2] ∧ op ∧ a < 96 ∧ ((s.core a.toNat).eid = 0 ∨ high) ∧ s.rb (Reg.PVT_COREPT a.toNat) 3 = false
      (one → b < 4 → ∃ t, done t i ∧ t.rf (Reg.PVT_COREPT a.toNat) 1 0 = b.toNat ∧ t.mem = s.mem ∧ s.regsKept t [Reg.PVT_COREPT a.toNat]) ∧
      (may [0, 1, 2] → op → a = 0xFF → b < 4 → (∀ c < 96, (s.core c).eid = 0) ∨ high → ∃ t, done t i ∧ t.mem = s.mem ∧
        (∀ c < 96, t.rf (Reg.PVT_COREPT c) 1 0 = if s.rb (Reg.PVT_COREPT c) 3 then s.rf (Reg.PVT_COREPT c) 1 0 else b.toNat) ∧
        s.regsKept t ((List.range 96).map Reg.PVT_COREPT)) ∧
      (one → b = 4 → s.coreUp a.toNat = true → ∃ t, exec i s = .next t ∧ (t.core a.toNat).run = .stopped ∧
        (t.core a.toNat).stores = (s.core a.toNat).stores ∧
        t.lemam = { s.lemam with waiting := s.lemam.waiting ++ [(route 0x20, 256 + a.toNat)] } ∧ t.sends s 0 .commandTake ∧ t.regs = s.regs) ∧
      (one → b = 5 → s.rb (Reg.PVT_COREPT a.toNat) 2 = true → ∃ t, done t i ∧ t.rb (Reg.PVT_COREPT a.toNat) 2 = false ∧ t.mem = s.mem ∧
        (t.core a.toNat).pc = s.modes.monEntry ∧ (t.core a.toNat).pl = 3 ∧
        (s.rb (Reg.DBG_CTRL a.toNat) 4 = false → t.core a.toNat = { pc := s.modes.monEntry }) ∧
        (s.rb (Reg.DBG_CTRL a.toNat) 4 = true → s.modes.safelightUp = true → (t.core a.toNat).run = .halted)) ∧
      (one → (b = 4 ∧ s.rb (Reg.PVT_COREPT a.toNat) 2 = true) ∨ (b = 5 ∧ s.rb (Reg.PVT_COREPT a.toNat) 2 = false) → answers i [])) ∧
    (let i := Instr.spareEngage src a b d h
      let cl := 6 * b.toNat + d.toNat
      let hs := 16 * b.toNat + d.toNat
      let idle := fun (k : Nat) => tabGet 0 s.spare.phase (4 * b.toNat + k) = 0 ∧ (2, b.toNat, 64 + k) ∉ s.spare.failed
      let dark := fun (k : Nat) => tabGet 0 s.spare.serdes (2 * b.toNat + k) = 0 ∧ (3, b.toNat, 128 + 2 * b.toNat + k) ∉ s.spare.failed
      s.enc.state ≠ 3 → high →
      (s.mode = modeService → a = 0 → b < 4 → d < 6 → h < 4 → tabGet 0 s.spare.main cl = 0 → (0, cl, 4) ∉ s.spare.failed →
        s.rb (Reg.PVT_COREPT (4 * cl + h.toNat)) 2 = true →
        ∃ t, done t i ∧ tabGet 0 t.spare.main cl = h.toNat + 1 ∧ t.regs = s.regs ∧ t.mem = s.mem) ∧
      (op → a = 1 → b < 4 → d < 16 → h < 16 → tabGet 0 s.spare.llcWay hs = 0 → (1, hs, 16) ∉ s.spare.failed → ∃ t, done t i ∧
        t.rb (Reg.HS_CFG hs) 1 = true ∧ t.rf (Reg.HS_CFG hs) 5 2 = h.toNat ∧ tabGet 0 t.spare.llcWay hs = h.toNat + 1) ∧
      (op → a = 1 → b < 4 → d < 16 → 32 ≤ h → h ≤ 40 → tabGet 0 s.spare.dirWay hs = 0 → (1, hs, 41) ∉ s.spare.failed → ∃ t, done t i ∧
        t.rb (Reg.HS_CFG hs) 6 = true ∧ t.rf (Reg.HS_CFG hs) 10 7 = h.toNat - 32 ∧ tabGet 0 t.spare.dirWay hs = h.toNat - 31) ∧
      (op → a = 2 → b < 4 → d = 0 → h < 64 → (∃ k < 4, idle k) → (∀ k < 4, tabGet 0 s.spare.phase (4 * b.toNat + k) ≠ h.toNat + 1) →
        s.pcState (64 * b.toNat + h.toNat) = 0 ∨ s.pcState (64 * b.toNat + h.toNat) = 3 →
        ∃ t k, done t i ∧ k < 4 ∧ idle k ∧ tabGet 0 t.spare.phase (4 * b.toNat + k) = h.toNat + 1 ∧ t.regs = s.regs ∧ t.mem = s.mem) ∧
      (op → a = 3 → b < 4 → d = 0 → h.toNat / 32 = b.toNat → (∃ k < 2, dark k) → (∀ e ∈ s.spare.serdes, e.2 ≠ h.toNat + 1) → s.portMode h.toNat = 0 →
        ∃ t k, done t i ∧ k < 2 ∧ dark k ∧ tabGet 0 t.spare.serdes (2 * b.toNat + k) = h.toNat + 1 ∧ t.rb (Reg.PORT_STATUS h.toNat) 2 = true ∧
          t.mem = s.mem) ∧
      (op → a = 10 → b = 4 → d = 0 → h = 0 → s.spare.command = false → (10, 0, 1) ∉ s.spare.failed →
        ∃ t, done t i ∧ t.rb cmdStatus 8 = true ∧ t.spare.command = true ∧ t.mem = s.mem)) ∧
    (may [0, 1, 2] → ∃ t, done t (.contactClear src) ∧ t.sheet = { s.sheet with ring := t.sheet.ring } ∧
      t.sheet.ring = s.sheet.ring.map (fun e => { e with valid := false }) ∧ t = { s with sheet := t.sheet, lemam := t.lemam }) ∧
    (s.enc.state ≠ 3 → src = .spi → s.mode = modePreflash → s.modes.dramReady = false → p.length = 12 → par 0 1 ≤ 2 → par 1 1 ≤ 2 → par 2 1 ≤ 1 →
      par 3 1 ≤ 1 → par 11 1 = 0 → ∃ t, done t (.dramConfig src p) ∧ t.modes = { s.modes with dramBlock := some p } ∧
      t = { s with modes := t.modes, lemam := t.lemam }) ∧
    (may [0, 1, 2] → op → p.length = 1028 → par 0 1 < 8 → par 1 1 < 4 → par 2 2 = 0 → (14, 4 * par 0 1 + par 1 1) ∉ s.locks →
      s.rf (Reg.MC_STATUS (par 0 1)) 4 3 ≠ par 1 1 →
      (s.rb (Reg.MC_STATUS (par 0 1)) 5 = true → s.rf (Reg.MC_STATUS (par 0 1)) 7 6 ≠ par 1 1) → free [] [par 0 1] → ∃ t, done t (.dramDelaysetLoad src p) ∧
      (∀ k < 256, t.rd (Reg.MC_DS_WORD (par 0 1) (par 1 1 * 256 + k)) = par (4 + 4 * k) 4 &&& dsMask (par 1 1 * 256 + k)) ∧
      t = { s with regs := t.regs, lemam := t.lemam }) ∧
    (may [0, 1, 2] → op → a < 4 → (∀ n < 8, b.getLsbD n = true → s.rb (Reg.MC_STATUS n) 5 = false) → room → free [] (bitsOf b.toNat 8) →
      defers (.dramDelaysetSelect src a b) 0x52 [] (bitsOf b.toNat 8) none [a, b, 0, 0] ∧
      ∀ t, exec (.dramDelaysetSelect src a b) s = .next t → ∀ n < 8, b.getLsbD n = true →
        t.rf (Reg.MC_STATUS n) 7 6 = a.toNat ∧ t.rb (Reg.MC_STATUS n) 5 = true) ∧
    (s.enc.state ≠ 3 → sourceCode src ∈ [1, 2, 4] → (src = .mgmt → s.mode = modeService) → s.mode = modeService ∨ s.enc.state = 1 → p.length = 4 →
      par 0 1 < 8 → par 1 3 = 0 → s.mcFrozen (par 0 1) = true → room → free [] [par 0 1] → defers (.dramMarginScan src p) 0x53 [] [par 0 1] none p) ∧
    (may [0, 1, 2] → op → a < 8 → b < 2 → d.toNat < s.ranks → e < 10 → tabGet 0 (s.mc a.toNat).erased (b.toNat * 2 + d.toNat) = 0 →
      tabGet 0 (s.mc a.toNat).erasing (b.toNat * 2 + d.toNat) = 0 → free [] [a.toNat] → ∃ t, exec (.dramEraseDevice src a b d e) s = .next t ∧
      tabGet 0 (t.mc a.toNat).erasing (b.toNat * 2 + d.toNat) = e.toNat + 1 ∧ (∀ n, n ≠ a.toNat → t.mc n = s.mc n) ∧
      t = { s with mcs := t.mcs, lemam := t.lemam }) ∧
    (may [1, 2, 4] → s.mode = modeService → p.length = 12 → par 0 1 < 8 → par 1 1 < 2 → par 2 1 < s.ranks → par 3 1 < 10 → par 4 1 < 8 → par 5 1 < 4 →
      par 6 2 = 0 → par 8 4 < s.bankRows → s.mcFrozen (par 0 1) = true → room → free [] [par 0 1] → defers (.dramRepairRow src p) 0x55 [] [par 0 1] none p) ∧
    (may [0, 1, 2] → op → b ≤ 240 → free [] (bitsOf a.toNat 8) → ∃ t, done t (.dramScrubSet src a b) ∧
      (∀ n < 8, (t.mc n).scrubHours = if a.getLsbD n then b.toNat else (s.mc n).scrubHours) ∧
      t = { s with mcs := t.mcs, lemam := t.lemam, agenda := t.agenda }) ∧
    (let v := par 0 2
     may [0, 1] → op → p.length = 32 → v < 4096 → par 2 2 < 4096 → par 4 1 < 64 → (par 4 1 = 0 ∨ sourceCode src = 1) → par 5 3 = 0 →
      par 8 8 % 4096 = 0 → par 8 8 < 2 ^ 46 → 1 ≤ par 20 2 → par 20 2 ≤ 256 → par 16 4 + par 20 2 ≤ 262144 →
      par 16 4 / 65536 = (par 16 4 + par 20 2 - 1) / 65536 → par 24 1 ≤ 64 → par 22 2 + par 24 1 ≤ 1024 → par 25 7 = 0 →
      s.rb (Reg.VI_CFG v) 0 = false → free (s.viQueues v) [] →
      (∀ w ∈ s.validVis, let q := s.rf (Reg.VI_QRANGE w) 17 0
        let k := s.rf (Reg.VI_VEC w) 9 0
        (q + s.rf (Reg.VI_QRANGE w) 26 18 ≤ par 16 4 ∨ par 16 4 + par 20 2 ≤ q) ∧ (k + s.rf (Reg.VI_VEC w) 22 16 ≤ par 22 2 ∨ par 22 2 + par 24 1 ≤ k)) →
      ∃ t, done t (.viCreate src p) ∧
      t.rd (Reg.VI_CFG v) = 1 + par 4 1 * 2 ^ 8 + par 2 2 * 2 ^ 16 ∧ t.rd (Reg.VI_QRANGE v) = par 16 4 + par 20 2 * 2 ^ 18 ∧
      t.rd (Reg.VI_VEC v) = par 22 2 + par 24 1 * 2 ^ 16 ∧ t.rd (Reg.VI_S2BASE v) = par 8 8 ∧
      t = { s with regs := t.regs, lemam := t.lemam } ∧ s.regsKept t [Reg.VI_CFG v, Reg.VI_QRANGE v, Reg.VI_VEC v, Reg.VI_S2BASE v]) ∧
    (may [0, 1] → op → h < 4096 → s.rb (Reg.VI_CFG h.toNat) 0 = true → rights h.toNat → room → free (s.viQueues h.toNat) [] →
      defers (.viDestroy src h) 0x61 (s.viQueues h.toNat) [] (some h.toNat) (toBytes 2 h.toNat ++ [0, 0])) ∧
    (may [0, 1] → op → h < 4096 → s.rb (Reg.VI_CFG h.toNat) 0 = true → rights h.toNat → room → free (s.viQueues h.toNat) [] →
      defers (.viReset src h) 0x62 (s.viQueues h.toNat) [] none (toBytes 2 h.toNat ++ [0, 0])) ∧
    (let q := par 0 4
     ∀ v, may [0, 1] → op → p.length = 24 → s.viOfQueue q = some v → rights v → par 4 1 ≤ 4 → 4 ≤ par 5 1 → par 5 1 ≤ 20 →
      (par 6 1 < s.rf (Reg.VI_VEC v) 22 16 ∨ par 6 1 = 0xFF) → (par 7 1 < 128 ∨ (par 4 1 ≠ 1 ∧ par 4 1 ≠ 2)) → par 8 8 % 4096 = 0 → par 16 8 % 4096 = 0 →
      s.qState q = qUnbound → free (s.viQueues v) [] → ∃ t, done t (.queueBind src p) ∧
      t.qState q = qIdle ∧ t.qHead q = 0 ∧ t.qTail q = 0 ∧ t.qGen q = (s.qGen q + 1) % 256 ∧
      t.queue q = { kind := par 4 1, ring := par 8 8, comp := par 16 8, log2 := par 5 1, vec := par 6 1, port := par 7 1 } ∧
      t = { s with regs := t.regs, queues := t.queues, lemam := t.lemam } ∧
      s.regsKept t [qstat q, Reg.QE_QDISC (engineOf q) (q % 65536)]) ∧
    (let q := x.toNat
     may [0, 1] → op → q < 262144 → s.qState q ≠ qUnbound → room → (∀ v, s.viOfQueue q = some v → rights v ∧ free (s.viQueues v) []) →
      defers (.queueReset src x) 0x64 (match s.viOfQueue q with | some v => s.viQueues v | none => []) [] none (toBytes 4 q) ∧
      ∀ t, exec (.queueReset src x) s = .next t → t.qHead q = 0 ∧ t.qTail q = 0 ∧ t.qGen q = (s.qGen q + 1) % 256 ∧
        t.qState q = (if s.qState q = qError then qUnbound else qIdle) ∧ (t.queue q).flight = [] ∧ (t.queue q).next = 0) ∧
    (may [0, 1, 2, 4] → op → writes (.portConfig src a ws) 0x70 (list a ws)) ∧
    (may [0, 1, 2, 4] → op → writes (.switchConfig src ws) 0x71 (list 0 ws)) ∧
    (may [0, 1, 2, 4] → op → writes (.dinathConfig src ws) 0x72 (list 0 ws)) ∧
    (may [0, 1, 2] → op → writes (.phaseBaseConfig src a ws) 0x80 (list a ws)) ∧
    (may [0, 1, 2] → op → writes (.pairConfig src ws) 0x90 (list 0 ws)) ∧
    (may [0, 1, 2] → s.mode ∈ [3, 5, 6, 7] → 1 ≤ w.toNat → w.toNat ≤ 2 ^ 40 → ∃ t, exec (.timeStep src w) s = .next t ∧ t.gt.now = s.gt.now + w ∧ t.rb Reg.GT_STATUS 6 = true ∧
      t.rb Reg.GT_STATUS 0 = false ∧ t.rd Reg.GT_STEP_COUNT = (s.rd Reg.GT_STEP_COUNT + 1) % 2 ^ 32 ∧
      t.lemam.reply = (0, toBytes 8 (s.gt.now + w).toNat) ∧ t.mem = s.mem ∧ t.cores = s.cores) ∧
    (may [0, 1, 2, 3] → op → s.rb Reg.GT_SHUTTER_CTRL 1 = false →
      (s.now < w.toNat → ∃ t, exec (.shutter src w) s = .next t ∧ t.lemam.reply = (0, toBytes 8 w.toNat) ∧ t.rb Reg.GT_SHUTTER_CTRL 1 = true ∧
        t.sends s (w.toNat - s.now) .shutterTake ∧ t.cores = s.cores) ∧
      (w.toNat ≤ s.now → ∃ t, exec (.shutter src w) s = .next t ∧ t.lemam.reply = (0, toBytes 8 s.now) ∧ t.rb Reg.GT_SHUTTER_CTRL 2 = true ∧
        t.rd Reg.GT_SHUTTER_GT = s.now ∧ t.mem = s.mem)) ∧
    (s.enc.state ≠ 3 → high → p.length = 52 → par 1 1 = s.enc.state → (s.enc.state, par 0 1) ∈ [(0, 0), (0, 1), (0, 2), (1, 1), (1, 2), (1, 3), (2, 2), (2, 3)] →
      (par 0 1 = 3 → src = .spi) → (s.enc.state = 2 → par 0 1 = 3 → s.mode = modeService) → par 2 1 ≤ 64 → par 3 1 = 0 →
      (par 4 48 ≠ 0 ↔ s.enc.state = 0 ∧ par 0 1 ≠ 0) → ∃ t, exec (.lifecycleAdvance src p) s = .next t ∧ t.free = s.free + 1 ∧
      ((t.lemam.reply = (8, []) ∧ t.enc = s.enc) ∨ (t.lemam.reply = (0, []) ∧ t.enc.state = par 0 1 ∧ t.enc.secver = max s.enc.secver (par 2 1)))) ∧
    (src = .spi → s.enc.state = 1 → ∃ t, done t (.debugUnlock src) ∧ t.enc.debugOpen = true ∧ t.mode = modePreflash ∧ t.mem = [] ∧ t.points = [] ∧ t.ert = []) ∧
    (may [0, 1, 2] → op → h.toNat ≤ 18 → there → ∃ t, done t (.lockRegion src h x y) ∧ (∀ k < y.toNat, (h.toNat, x.toNat + k) ∈ t.locks) ∧ (∀ l ∈ s.locks, l ∈ t.locks) ∧
      (∀ l ∈ t.locks, l ∈ s.locks ∨ (l.1 = h.toNat ∧ x.toNat ≤ l.2 ∧ l.2 < x.toNat + y.toNat)) ∧ t = { s with locks := t.locks, lemam := t.lemam })

/-- For every state. PORESET_N, a lost rail of group 2 or 3 and loss of REFCLK outside STANDBY are cold resets: everything but the
kept domains is as after reset, and the mode is PREFLASH, or OFF after a rail, with cause and PREV. RESET_N keeps GT, DRAM, the
point image, the ERT copies, spares and lost units; its release starts after the drain, or waits for PORESET_N, the rails or
REFCLK, or for the PLLs. The release of PORESET_N and the return of rails or REFCLK begin, with RESET_N high and REFCLK running,
a cold start 60 µs before PLL lock, which advances GT from the backup, never below its held value, and sets TIME_ESTIMATED.
STANDBY_SEQUENCE stops every core, waits for its stores, then gates the cores, powers the fabric down and asks for self-refresh;
STANDBY_DONE sets the bit once every controller is there. REFCLK_STOP then only holds; its return advances GT. WAKE asks for RUN
with its cause. A safelight reset clears the debug registers, DEBUG_OPEN and the keys. An event whose condition is not met
changes nothing (entry 9). -/
def Obligations.Resets_starts_and_standby : Prop :=
  ∀ (s : State) (boot : BootInput) (rail : Byte) (src : WakeSource),
    (∃ t, exec .poresetAssert s = .next t ∧ t.coldFrom s ∧ t.modes.poreset = true ∧ t.modes.railsOut = s.modes.railsOut ∧
      (s.mode = modeOff → t.mode = modeOff) ∧
      (s.mode ≠ modeOff → t.entered s.gt.now modePreflash s.mode 0 ∧ t.rf Reg.PVT_RESET_CAUSE 1 0 = 1)) ∧
    (s.modes.poreset = false → exec (.poresetRelease boot) s = .next s) ∧
    (s.modes.poreset = true → s.modes.railsOut ≠ [] ∨ (s.mode ≠ modeOff ∧ (s.modes.refclk = false ∨ s.modes.reset = true)) →
      exec (.poresetRelease boot) s = .next { s with modes := { s.modes with poreset := false } }) ∧
    (s.modes.poreset = true → s.modes.railsOut = [] → s.mode = modeOff → s.modes.refclk = false ∨ s.modes.reset = true → ∃ t,
      exec (.poresetRelease boot) s = .next t ∧ t.entered s.gt.now modePreflash modeOff 0 ∧ t.rf Reg.PVT_RESET_CAUSE 1 0 = 0 ∧
      t.modes.poreset = false ∧ t.modes.boot = s.modes.boot ∧ t.mem = s.mem ∧ t.gt = s.gt) ∧
    (s.modes.poreset = true → s.modes.railsOut = [] → s.modes.refclk = true → s.modes.reset = false → ∃ t, exec (.poresetRelease boot) s = .next t ∧
      t.startsCold s boot ∧ t.modes.poreset = false ∧ t.mem = s.mem ∧ t.gt = s.gt ∧
      (s.mode = modeOff → t.entered s.gt.now modePreflash modeOff 0 ∧ t.rf Reg.PVT_RESET_CAUSE 1 0 = 0) ∧
      (s.mode ≠ modeOff → t.regs = s.regs)) ∧
    (s.modes.boot = none ∨ s.modes.pll = true ∨ s.modes.refclk = false → exec .pllLock s = .next s) ∧
    (s.modes.boot ≠ none → s.modes.pll = false → s.modes.refclk = true → ∃ t, exec .pllLock s = .next t ∧
      t.modes = { s.modes with pll := true } ∧ (s.clk + 3000000, Act.boot 3) ∈ t.agenda ∧ t.rb Reg.GT_STATUS 0 = true ∧
      (s.gt.backupValid = true → let ticks := (s.gt.rtc - s.gt.backupRtc).toNat
        t.gt.now = BitVec.ofNat 64 (max (s.gt.backup.toNat + ticks * 1953125 / 64) s.gt.held.toNat) ∧ t.rd Reg.GT_RTC_ELAPSED = ticks) ∧
      (s.gt.backupValid = false → t.gt.now = 0 ∧ t.rb Reg.GT_STATUS 1 = true) ∧
      t = { s with gt := t.gt, regs := t.regs, modes := t.modes, agenda := t.agenda } ∧ s.regsKept t [Reg.GT_STATUS, Reg.GT_RTC_ELAPSED]) ∧
    (s.mode = modeOff ∨ s.modes.poreset = true ∨ s.modes.reset = true →
      exec .resetAssert s = .next { s with modes := { s.modes with reset := true } }) ∧
    (s.mode ≠ modeOff → s.modes.poreset = false → s.modes.reset = false → (∀ e ∈ s.spare.serdes, e.2 ≤ 128) → (∀ c ∈ s.modes.lostCores, c < 96) →
      ∃ t, exec .resetAssert s = .next t ∧ t.entered s.gt.now modePreflash s.mode 1 ∧ t.rf Reg.PVT_RESET_CAUSE 1 0 = 2 ∧
      t.modes.reset = true ∧ t.modes.warm = true ∧ t.modes.lemamUp = false ∧ t.modes.drainEnd = s.clk + 1000000 ∧
      (s.rb Reg.PVT_RESET_CTRL 0 = true ∨ s.modes.flashing = true → t.modes.willFlash = true) ∧
      t.mem = s.mem ∧ t.poison = s.poison ∧ t.points = s.points ∧ t.ert = s.ert ∧ t.gt = s.gt ∧ t.spare = s.spare ∧ t.dbg = s.dbg ∧
      t.modes.lostCores = s.modes.lostCores ∧ t.modes.margins = s.modes.margins ∧ t.modes.dramReady = s.modes.dramReady ∧
      t.cores = [] ∧ t.pcores = [] ∧ t.queues = [] ∧ t.qes = [] ∧ t.net = {} ∧ t.pair = {} ∧ t.homes = [] ∧ t.arbs = [] ∧ t.locks = [] ∧
      (∀ p, (t.pin p).ball = .released 1) ∧ (∀ n < 8, (t.mc n).toSelfRefresh = true) ∧ t.pending = s.pending ∧
      (∀ a, s.keptWarm a = true → a ∉ [Reg.PVT_MODE, Reg.PVT_MODE_GT, Reg.PVT_RESET_CAUSE] → t.rd a = s.rd a) ∧
      (∀ a, s.keptWarm a = false → (∀ n < 128, a ≠ Reg.PORT_STATUS n) → (∀ n < 96, a ≠ Reg.PVT_COREPT n) → (∀ n < 8, a ≠ Reg.MC_STATUS n) →
        t.rd a = (regReset a).toNat)) ∧
    (s.modes.reset = false → exec (.resetRelease boot) s = .next s) ∧
    (s.modes.reset = true → let m := { s.modes with reset := false, boot := some boot, found := some boot }
      let free := s.modes.poreset = false ∧ s.modes.railsOut = [] ∧ s.modes.refclk = true
      (¬ free → exec (.resetRelease boot) s = .next { s with modes := { s.modes with reset := false } }) ∧
      (free → s.modes.pll = true → ∃ t, exec (.resetRelease boot) s = .next t ∧
        (s.clk + (s.modes.drainEnd - s.clk) + 3000000, Act.boot 3) ∈ t.agenda ∧ t = { s with modes := m, agenda := t.agenda }) ∧
      (free → s.modes.pll = false → ∃ t, exec (.resetRelease boot) s = .next t ∧ t.startsCold s boot ∧
        t = { s with modes := { m with warm := false, willFlash := true }, agenda := t.agenda })) ∧
    (rail = 9 ∨ rail = 10 ∨ rail = 11 ∨ 12 < rail → exec (.railLoss rail) s = .next s) ∧
    (rail < 9 ∨ rail = 12 → ∃ t, exec (.railLoss rail) s = .next t ∧ t.coldFrom s ∧ rail.toNat ∈ t.modes.railsOut ∧ t.mode = modeOff ∧
      (s.mode ≠ modeOff → t.entered s.gt.now modeOff s.mode 14)) ∧
    (s.modes.railsOut = [] ∨ s.mode ≠ modeOff ∨ s.modes.poreset = true →
      exec (.railReturn boot) s = .next { s with modes := { s.modes with railsOut := [] } }) ∧
    (s.modes.railsOut ≠ [] → s.mode = modeOff → s.modes.poreset = false → ∃ t, exec (.railReturn boot) s = .next t ∧
      (s.modes.refclk = true → s.modes.reset = false → t.startsCold s boot) ∧
      (s.modes.refclk = false ∨ s.modes.reset = true → t.modes.boot = s.modes.boot) ∧
      t.modes.railsOut = [] ∧ t.entered s.gt.now modePreflash modeOff 0 ∧ t.rf Reg.PVT_RESET_CAUSE 1 0 = 0 ∧
      t.mem = s.mem ∧ t.gt = s.gt) ∧
    (s.modes.refclk = false ∨ s.mode = modeStandby → exec .refclkLoss s = .next s) ∧
    (s.modes.refclk = true → s.mode = modeOff → exec .refclkLoss s = .next { s with modes := { s.modes with refclk := false } }) ∧
    (s.modes.refclk = true → s.mode ≠ modeStandby → s.mode ≠ modeOff → ∃ t, exec .refclkLoss s = .next t ∧ t.coldFrom s ∧
      t.modes.refclk = false ∧ t.entered s.gt.now modePreflash s.mode 13 ∧ t.rf Reg.PVT_RESET_CAUSE 1 0 = 3) ∧
    (s.modes.refclk = false → exec .refclkStop s = .next s) ∧
    (s.mode ≠ modeStandby → exec .refclkStop s = exec .refclkLoss s) ∧
    (s.modes.refclk = true → s.mode = modeStandby → s.rb Reg.PVT_MODE 16 = false → ∃ t, exec .refclkStop s = .next t ∧ t.coldFrom s ∧
      t.modes.refclk = false ∧ t.entered s.gt.now modePreflash modeStandby 13) ∧
    (s.modes.refclk = true → s.mode = modeStandby → s.rb Reg.PVT_MODE 16 = true → ∃ t, exec .refclkStop s = .next t ∧
      t.rb Reg.PVT_MODE 17 = true ∧ s.bitsKept t Reg.PVT_MODE 17 17 ∧ s.regsKept t [Reg.PVT_MODE] ∧
      t = { s with regs := t.regs, gt := { s.gt with held := s.gt.now }
                   modes := { s.modes with refclk := false, pll := false, stopClk := s.clk } }) ∧
    (s.modes.refclk = true → exec (.refclkReturn boot) s = .next s) ∧
    (s.modes.refclk = false → s.mode = modeStandby → ∃ t, exec (.refclkReturn boot) s = .next t ∧ t.modes.refclk = true ∧ t.modes.pll = true ∧
      t.rb Reg.PVT_MODE 17 = false ∧ t.gt = { s.gtAdvance.gt with stepped := t.gt.stepped } ∧ (s.clk, Act.boot 20) ∈ t.agenda ∧ t.mem = s.mem ∧ t.cores = s.cores) ∧
    (s.modes.refclk = false → s.mode = modePreflash → s.modes.poreset = false → s.modes.railsOut = [] → s.modes.reset = false →
      ∃ t, exec (.refclkReturn boot) s = .next t ∧ t.startsCold s boot ∧ t.modes.refclk = true ∧ t.regs = s.regs ∧ t.mem = s.mem) ∧
    (s.modes.refclk = false → s.mode ≠ modeStandby → s.mode ≠ modePreflash ∨ s.modes.poreset = true ∨ s.modes.railsOut ≠ [] ∨ s.modes.reset = true →
      exec (.refclkReturn boot) s = .next { s with modes := { s.modes with refclk := true } }) ∧
    (s.mode ≠ modeStandby ∨ s.rb Reg.PVT_MODE 16 = true → exec .standbySequence s = .next s ∧ exec .standbyDone s = .next s) ∧
    (s.mode = modeStandby → s.rb Reg.PVT_MODE 16 = false →
      ((∀ c < 96, s.coreUp c = true → (s.core c).stores = []) → ∃ t, exec .standbySequence s = .next t ∧
        t.sends s 1000 .standbyDone ∧ (∀ c < 96, s.coreUp c = true → t.rb (Reg.PVT_COREPT c) 2 = true ∧ t.core c = {}) ∧
        t.homes = [] ∧ t.queues = [] ∧ t.qes = [] ∧ t.net = {} ∧ t.pair = {} ∧ (∀ n < 8, (t.mc n).toSelfRefresh = true) ∧
        t.mem = s.mem ∧ t.points = s.points ∧ t.ert = s.ert ∧ t.gt = s.gt ∧ t.pcores = s.pcores ∧ t.pins = s.pins) ∧
      ((∃ c < 96, s.coreUp c = true ∧ (s.core c).stores ≠ []) → ∃ t, exec .standbySequence s = .next t ∧ t.sends s 100 .standbySequence ∧
        (∀ c < 96, s.coreUp c = true → (t.core c).run = .stopped ∧ (t.core c).stores = (s.core c).stores) ∧
        t = { s with cores := t.cores, agenda := t.agenda })) ∧
    (s.mode = modeStandby → s.rb Reg.PVT_MODE 16 = false →
      ((∀ n < 8, s.rb (Reg.MC_STATUS n) 1 = true ∨ s.rb (Reg.MC_CFG n) 6 = false) → ∃ t, exec .standbyDone s = .next t ∧
        t.rb Reg.PVT_MODE 16 = true ∧ s.bitsKept t Reg.PVT_MODE 16 16 ∧ s.regsKept t [Reg.PVT_MODE] ∧ (s.clk, Act.boot 20) ∈ t.agenda ∧
        t = { s with regs := t.regs, agenda := t.agenda }) ∧
      ((∃ n < 8, s.rb (Reg.MC_STATUS n) 1 = false ∧ s.rb (Reg.MC_CFG n) 6 = true) → ∃ t, exec .standbyDone s = .next t ∧
        t.sends s 1000 .standbyDone ∧ t = { s with agenda := t.agenda })) ∧
    (s.mode ≠ modeStandby ∨ s.modes.waking ≠ none → exec (.wake src) s = .next s) ∧
    (s.mode = modeStandby → s.modes.waking = none → ∃ t, exec (.wake src) s = .next t ∧ (s.clk, Act.boot 20) ∈ t.agenda ∧
      t = { s with agenda := t.agenda, modes := { s.modes with waking := some (modeRun, match src with | .command => 11 | .interrupt _ => 12) } }) ∧
    (let cleared := fun (i : Instr) (up : Bool) => ∃ t, exec i s = .next t ∧ t.modes = { s.modes with safelightUp := up } ∧ t.dbg = {} ∧
        t.enc.debugOpen = false ∧ t.enc.state = s.enc.state ∧ (∀ a, 0x400000000000 ≤ a → t.rd a = (regReset a).toNat) ∧
        (∀ c < 96, ∀ k < 4, t.rd (Reg.ENC_KEY c k) = 0) ∧ t.mem = s.mem ∧ t.gt = s.gt ∧ t.cores = s.cores ∧ t.pcores = s.pcores
     cleared .safelightReset true ∧ cleared .safelightRailLoss false)

/-- For every state outside OFF and every sample. A monitor that is there stores its reading, LEVEL and VALID: temperature warns at
PVT_TEMP_WARN, at most 104 °C, and is critical at 105, enters SAFE_HOLD with cause 9 at 110 and sets THERMTRIP at 120; voltage
warns beyond 3 % of its reference and is critical beyond 6 % in two samples, with SAFE_HOLD cause 10; a process reading has no
level; an ageing sample stores five margins and shows the least, warns below WARN, and at 0 mV or below loses the core of that
slot. A rise of LEVEL sets its alarm bit and PVT_LAST_ALARM. A monitor that is not there reads 0. PMBUS_ALERT sets FAULT of each
present regulator that reports one (its STATUS_WORD bits: PMBus 1.3, PRESUMED; entry 95), with SAFE_HOLD on VOUT. The adaptive
voltage rises at once and falls by at most 5 mV a period; what the cores need is a free value (entry 94), 850 mV with a
PVT_ALARM entry while an ageing margin is negative. Loss of SDSREF takes down the quadrant's links and, in quadrant 0, the pair
link. -/
def Obligations.Monitors_and_regulators : Prop :=
  (∀ (s : State) (kind : MonKind) (n : Byte) (reading : BitVec 16) (slots : List (BitVec 16)), s.mode ≠ modeOff →
    let i := Instr.monitorSample kind n reading slots
    let k := n.toNat
    let limit := match kind with | .ts => 64 | .vm => 32 | .pm => 16 | .am => 24
    let reg := match kind with | .ts => Reg.PVT_TS k | .vm => Reg.PVT_VM k | .pm => Reg.PVT_PM k | .am => Reg.PVT_AM k
    let dev := match kind with | .ts => k | .vm => 64 + k | .pm => 96 + k | .am => 112 + k
    let alarm := match kind with | .ts => 0 | .vm => 2 | _ => 4
    let shows := fun (t : State) (w level : Nat) => t.rd reg = w + level * 2 ^ 29 + 2 ^ 31 ∧
      (s.rf reg 30 29 < level → t.rb Reg.PVT_ALARM_STATUS (alarm + level - 1) = true ∧ t.rd Reg.PVT_LAST_ALARM = dev) ∧
      (level ≤ s.rf reg 30 29 → t.rd Reg.PVT_LAST_ALARM = s.rd Reg.PVT_LAST_ALARM)
    (limit ≤ k → exec i s = .next s) ∧
    (k < limit → s.monitorUp kind k = false → exec i s = .next (s.wr reg 0)) ∧
    (kind = .ts → k < limit → s.monitorUp kind k = true → let v := reading.toInt
      ∃ t, exec i s = .next t ∧ t.mem = s.mem ∧
        shows t reading.toNat (if 1680 ≤ v then 2 else if 16 * (min 104 (s.rf Reg.PVT_TEMP_WARN 7 0) : Nat) ≤ v then 1 else 0) ∧
        t.modes.thermtrip = (s.modes.thermtrip || decide (1920 ≤ v)) ∧ (v < 1760 → t.mode = s.mode ∧ t.pins = s.pins) ∧
        (1760 ≤ v → s.mode = modeRun ∨ s.mode = modePaired ∨ s.mode = modeDegraded ∨ s.mode = modeService →
          t.entered s.gt.now modeSafeHold s.mode 9)) ∧
    (kind = .vm → k < limit → s.monitorUp kind k = true → let v := reading.toNat % 2 ^ 13
      let ref := s.voltRef k
      let beyond := fun percent : Nat => percent * ref < 100 * (max v ref - min v ref)
      ∃ t, exec i s = .next t ∧ t.mem = s.mem ∧ (k ∈ t.modes.voltCrit ↔ beyond 6) ∧
        (beyond 6 → k ∈ s.modes.voltCrit → shows t v 2 ∧
          (s.mode = modeRun ∨ s.mode = modePaired ∨ s.mode = modeDegraded ∨ s.mode = modeService → t.entered s.gt.now modeSafeHold s.mode 10)) ∧
        (¬ beyond 6 ∨ k ∉ s.modes.voltCrit → (beyond 3 → shows t v 1) ∧ (¬ beyond 3 → shows t v 0) ∧ t.mode = s.mode ∧ t.pins = s.pins)) ∧
    (kind = .pm → k < limit → s.monitorUp kind k = true → exec i s = .next (s.wr reg (reading.toNat % 2 ^ 12 + 2 ^ 31))) ∧
    (kind = .am → k < limit → s.monitorUp kind k = true → slots.length = 5 → ∃ t j, exec i s = .next t ∧ j < 5 ∧ t.mem = s.mem ∧
      (let m := fun x : Nat => (slots.getD x 0).toInt
       (∀ x < 5, m j ≤ m x) ∧ (∀ x < j, m j < m x) ∧ (∀ x < 5, tabFind t.modes.margins (5 * k + x) = some (m x)) ∧
       shows t ((slots.getD j 0).toNat + j * 2 ^ 16) (if m j ≤ 0 then 2 else if m j < (s.rf Reg.PVT_WEAR_CFG 7 0 : Nat) then 1 else 0) ∧
       (0 < m j → t.modes.lostCores = s.modes.lostCores ∧ t.cores = s.cores) ∧
       (∀ c, m j ≤ 0 → s.coreOfSlot k j = some c → s.rb (Reg.PVT_COREPT c) 3 = false → s.rb (Reg.PVT_COREPT c) 2 = true →
         t.rb (Reg.PVT_COREPT c) 3 = true ∧ c ∈ t.modes.lostCores)))) ∧
  (∀ (s : State) (kind : MonKind) (n : Byte) (reading : BitVec 16) (slots : List (BitVec 16)), s.mode = modeOff →
    exec (.monitorSample kind n reading slots) s = .next s) ∧
  (∀ (s : State) (words : List (BitVec 16)),
    let faulty := fun k : Nat => k < 13 ∧ s.rb Reg.PVT_PMBUS k = true ∧ (words.getD k 0 &&& 0xF73F) ≠ 0
    (s.lemamRuns = false → exec (.pmbusAlert words) s = .next s) ∧
    (s.lemamRuns = true → (∀ k, ¬ faulty k) → exec (.pmbusAlert words) s = .next s) ∧
    (s.lemamRuns = true → (∃ k, faulty k) → ∃ t, exec (.pmbusAlert words) s = .next t ∧ t.rb Reg.PVT_ALARM_STATUS 6 = true ∧
      (∀ k < 16, t.rb Reg.PVT_PMBUS (16 + k) = true ↔ faulty k ∨ s.rb Reg.PVT_PMBUS (16 + k) = true) ∧
      t.rf Reg.PVT_PMBUS 15 0 = s.rf Reg.PVT_PMBUS 15 0 ∧ t.mem = s.mem ∧
      ((∃ k, faulty k ∧ ((words.getD k 0).getLsbD 5 = true ∨ (words.getD k 0).getLsbD 15 = true)) → s.mode = modeRun →
        t.entered s.gt.now modeSafeHold modeRun 10) ∧
      ((∀ k, faulty k → (words.getD k 0).getLsbD 5 = false ∧ (words.getD k 0).getLsbD 15 = false) → t.mode = s.mode ∧ t.pins = s.pins))) ∧
  (∀ s : State,
    (s.modes.lemamUp = false ∨ s.mode = modeOff → exec .avsPeriod s = .next s) ∧
    (s.modes.lemamUp = true → s.mode ≠ modeOff → ∃ t, exec .avsPeriod s = .next t ∧ t.sends s 1000000 .avsPeriod ∧
      t = { s with regs := t.regs, agenda := t.agenda, free := t.free, sheet := t.sheet } ∧
      (s.shortMonitor = none ∨ s.rb Reg.PVT_AVS 0 = false ∨ s.rb Reg.PVT_PMBUS 0 = false → t.sheet = s.sheet) ∧
      (∀ n, s.shortMonitor = some n → s.rb cmdStatus 9 = false → s.rb Reg.PVT_AVS 0 = true → s.rb Reg.PVT_PMBUS 0 = true →
        t.sheet = (s.log .pvtAlarm (monUnit (112 + n)) (s.rd (Reg.PVT_AM n) + s.rf (Reg.PVT_AM n) 30 29 * 2 ^ 32)).sheet ∧
        (s.rf Reg.PVT_AVS 25 16 ≤ 855 → t.rf Reg.PVT_AVS 25 16 = 850)) ∧ s.regsKept t [Reg.PVT_AVS] ∧ s.bitsKept t Reg.PVT_AVS 25 16 ∧
      let now := s.rf Reg.PVT_AVS 25 16
      let v := t.rf Reg.PVT_AVS 25 16
      (s.rb cmdStatus 9 = true → v = now) ∧ now - 5 ≤ v ∧
      (s.rb cmdStatus 9 = false → s.rb Reg.PVT_AVS 0 = false ∨ s.rb Reg.PVT_PMBUS 0 = false → now ≤ 855 → v = 850) ∧
      (s.rb cmdStatus 9 = false → 650 ≤ now → now ≤ 850 → now % 5 = 0 → 650 ≤ v ∧ v ≤ 850 ∧ v % 5 = 0))) ∧
  (∀ (s : State) (q : BitVec 2), ∃ t, exec (.sdsrefLoss q) s = .next t ∧
    (∀ p < 128, t.rb (Reg.PORT_STATUS p) 0 = (if p / 32 = q.toNat then false else s.rb (Reg.PORT_STATUS p) 0)) ∧
    t.pairLink = (if q = 0 ∧ s.pairLink = 2 then 0 else s.pairLink))

/-- For every state. DBG_ACC with a safelight rail out does nothing; with debug closed it is DENIED; with debug open a misaligned or
unmapped address and the data register of a core that runs are ERROR, a plain register is read, or written as R12 gives, a
64-bit one with its upper word, a halted core's general register or PC is shown, and HALT_REQ and RESUME do what their commands
do. HALT_REQ asks for a halt of a core that runs or waits; CORE_HALT waits for a TLBI, then halts with the REASON, pending
changes committed, stores kept, a waiting WFI not completed. RESUME and STEP let a halted core go at its PC. A phase core halts
at once or when its instruction ends, and goes on at its PC. CROSS_TRIGGER sets FIRED, halts the cores that its masks name, and
freezes and takes a shutter where its configuration says. DBG_SYS_GO reads or writes memory at PL3 with its EID; its RESULT
shows a refusal or an error. EXTEST drives the pins where R538 allows it and acts as BYPASS elsewhere; SAMPLE_PRELOAD captures. -/
def Obligations.Debug_halts_steps_and_accesses : Prop :=
  ∀ s : State,
    (let acc := fun (w : Bool) (off data : Nat) => Instr.dbgAcc (BitVec.ofNat 67 (b2n w + off * 2 ^ 3 + data * 2 ^ 35))
     let answers := fun (i : Instr) (status data : Nat) => ∃ t, exec i s = .next t ∧
       t = { s with dbg := { s.dbg with status := status, data := BitVec.ofNat 32 data }, pins := t.pins }
     let plain := fun off : Nat => off < 2 ^ 32 ∧ off % 4 = 0 ∧ s.dbgRunning off = false ∧ off ≠ 0x300010 ∧
       (dbgCore off ≠ none → off % 0x1000 ≠ 0x18 ∧ off % 0x1000 ≠ 0) ∧ (dbgPc off ≠ none → off % 0x100 ≠ 0xC ∧ off % 0x100 ≠ 0)
     (∀ dr, s.modes.safelightUp = false → exec (.dbgAcc dr) s = .next s) ∧
     (∀ dr, s.modes.safelightUp = true → s.debugLive = false → answers (.dbgAcc dr) 2 0) ∧
     (s.debugLive = true →
       (∀ w off data, off < 2 ^ 32 → data < 2 ^ 32 → off % 4 ≠ 0 → answers (acc w off data) 3 0) ∧
       (∀ w off data, off < 2 ^ 32 → data < 2 ^ 32 → regFind (debugBase + off) = none →
         (off < 4 ∨ ∀ r, regFind (debugBase + (off - 4)) = some r → r.1.wide = false) →
         answers (acc w off data) 3 0) ∧
       (∀ (w : Bool) (c : CoreId) (up : Bool) (data : Nat), data < 2 ^ 32 → (s.core c.val).run ≠ .halted →
         answers (acc w (c.val * 0x1000 + 0x18 + 4 * b2n up) data) 3 0) ∧
       (∀ (w : Bool) (p : PcId) (data : Nat), data < 2 ^ 32 → (s.pcore p.val).halted = false →
         answers (acc w (0x100000 + p.val * 0x100 + 0xC) data) 3 0) ∧
       (∀ off d i j, plain off → regFind (debugBase + off) = some (d, i, j) → d.area = 0 →
         answers (acc false off 0) 0 (s.rd (debugBase + off) % 2 ^ 32) ∧
         (d.wide = true → regFind (debugBase + (off + 4)) = none → off + 4 < 2 ^ 32 →
           answers (acc false (off + 4) 0) 0 (s.rd (debugBase + off) / 2 ^ 32)) ∧
         (∀ data, data < 2 ^ 32 → d.wide = false → ∃ t, exec (acc true off data) s = .next t ∧ t.dbg.status = 0 ∧
           t = { s.storeReg (debugBase + off) data with dbg := t.dbg, pins := t.pins }) ∧
         (∀ data, data < 2 ^ 32 → d.wide = true → ∃ t, exec (acc true off data) s = .next t ∧ t.dbg.status = 0 ∧
           t.dbg.low = some (off, BitVec.ofNat 32 data) ∧ t = { s with dbg := t.dbg, pins := t.pins }) ∧
         (∀ (data : Nat) (low : Word32), data < 2 ^ 32 → d.wide = true → regFind (debugBase + (off + 4)) = none → off + 4 < 2 ^ 32 →
           s.dbg.low = some (off, low) → ∃ t, exec (acc true (off + 4) data) s = .next t ∧ t.dbg.status = 0 ∧ t.dbg.low = none ∧
             t = { s.storeReg (debugBase + off) (low.toNat + data * 2 ^ 32) with dbg := t.dbg, pins := t.pins })) ∧
       (∀ c : CoreId, (s.core c.val).run = .halted → let off := c.val * 0x1000 + 0x18
         (∀ g : GReg, s.rd (Reg.DBG_REG_SEL c.val) = g.toNat → answers (acc false off 0) 0 (((s.core c.val).greg g).toNat % 2 ^ 32) ∧
           answers (acc false (off + 4) 0) 0 (((s.core c.val).greg g).toNat / 2 ^ 32)) ∧
         (s.rf (Reg.DBG_REG_SEL c.val) 13 12 = 3 → answers (acc false off 0) 0 ((s.core c.val).pc.toNat % 2 ^ 32))) ∧
       (∀ c : CoreId, ∃ t u, exec (acc true (c.val * 0x1000) 1) s = .next t ∧ exec (.haltReq c) s = .next u ∧
         t.cores = u.cores ∧ t.agenda = u.agenda ∧ t.dbg.status = 0) ∧
       (∀ c : CoreId, ∃ t u, exec (acc true (c.val * 0x1000) 2) s = .next t ∧ exec (.resume c) s = .next u ∧
         t.cores = u.cores ∧ t.agenda = u.agenda ∧ t.dbg.status = 0))) ∧
    (∀ c : CoreId, let x := s.core c.val
      let can := s.modes.safelightUp = true ∧ s.coreUp c.val = true ∧ (x.run = .running ∨ x.run = .waiting)
      (¬ can → exec (.haltReq c) s = .next s) ∧
      (can → ∃ t, exec (.haltReq c) s = .next t ∧ t.core c.val = { x with haltReq := some (x.haltReq.getD 1) } ∧ t.sends s 0 (.coreHalt c) ∧
        t = { s with cores := t.cores, agenda := t.agenda }) ∧
      (x.haltReq = none → exec (.coreHalt c) s = .next s) ∧
      (x.haltReq ≠ none → ¬ can → ∃ t, exec (.coreHalt c) s = .next t ∧ t.core c.val = { x with haltReq := none } ∧ t = { s with cores := t.cores }) ∧
      (x.haltReq ≠ none → can → x.tlbi ≠ none → ∃ t, exec (.coreHalt c) s = .next t ∧ t.sends s 10 (.coreHalt c) ∧
        t = { s with agenda := t.agenda }) ∧
      (∀ r, x.haltReq = some r → can → x.tlbi = none → ∃ t, exec (.coreHalt c) s = .next t ∧ let y := t.core c.val
        y.run = .halted ∧ y.haltReq = none ∧ y.pc = (if x.run = .waiting then x.pc - 4 else x.pc) ∧ y.latent = [] ∧ y.loopBuffer = none ∧
        y.stores = x.stores ∧ y.g = x.g ∧ y.f = x.f ∧ t.rb (Reg.DBG_STATUS c.val) 0 = true ∧
        (r < 8 → t.rf (Reg.DBG_STATUS c.val) 3 1 = r) ∧ s.regsKept t [Reg.DBG_STATUS c.val] ∧ (∀ k, k ≠ c.val → t.core k = s.core k) ∧
        t = { s with cores := t.cores, regs := t.regs, agenda := t.agenda }) ∧
      (let goes := fun (i : Instr) (one : Bool) =>
         (x.run ≠ .halted ∨ s.coreUp c.val = false → exec i s = .next s) ∧
         (x.run = .halted → s.coreUp c.val = true → (one = true → { x with run := .running, stepping := one, resumed := true, haltReq := none }.takeable = none) →
           ∃ t, exec i s = .next t ∧ let y := t.core c.val
           y.run = .running ∧ y.stepping = one ∧ y.resumed = true ∧ y.haltReq = none ∧ y.pc = x.pc ∧ y.g = x.g ∧ y.f = x.f ∧ y.stores = x.stores ∧
           t.rb (Reg.DBG_STATUS c.val) 0 = false ∧ s.bitsKept t (Reg.DBG_STATUS c.val) 0 0 ∧ s.regsKept t [Reg.DBG_STATUS c.val] ∧
           (∀ k, k ≠ c.val → t.core k = s.core k) ∧ t = { s with cores := t.cores, regs := t.regs, agenda := t.agenda })
       goes (.resume c) false ∧ goes (.step c) true)) ∧
    (∀ p : PcId, let n := p.val
      let c := s.pcore n
      let can := s.modes.safelightUp = true ∧ (s.pcState n = 1 ∨ s.pcState n = 2)
      (¬ can → exec (.pcHaltReq p) s = .next s) ∧
      (can → s.pcInFlight n = true → ∃ t, exec (.pcHaltReq p) s = .next t ∧ t.pcore n = { c with halting := some 1 } ∧
        (s.clk + (c.busy - s.clk), Act.pcHalt p) ∈ t.agenda ∧ t = { s with pcores := t.pcores, agenda := t.agenda }) ∧
      (can → s.pcInFlight n = false → ∃ t, exec (.pcHaltReq p) s = .next t ∧ (t.pcore n).halted = true ∧ (t.pcore n).halting = none ∧
        t.pcState n = 0 ∧ t.rb (Reg.DBG_PC_STATUS n) 0 = true ∧ t.rf (Reg.DBG_PC_STATUS n) 2 1 = 1 ∧
        (c.long = none → (t.pcore n).pc = c.pc ∧ (t.pcore n).p = c.p) ∧ (t.pcore n).queues = c.queues ∧
        s.regsKept t [Reg.PCC_STATUS n, Reg.DBG_PC_STATUS n] ∧ s.bitsKept t (Reg.PCC_STATUS n) 2 0 ∧ (∀ k, k ≠ n → t.pcore k = s.pcore k) ∧
        t = { s with pcores := t.pcores, regs := t.regs }) ∧
      (let goes := fun (i : Instr) (one : Bool) =>
         (c.halted = false → exec i s = .next s) ∧
         (c.halted = true → s.preemptAsked n = false → ∃ t, exec i s = .next t ∧ (t.pcore n).halted = false ∧ (t.pcore n).stepping = one ∧
           (t.pcore n).pc = c.pc ∧ (t.pcore n).p = c.p ∧ (t.pcore n).queues = c.queues ∧ t.pcState n = 1 ∧ t.rb (Reg.DBG_PC_STATUS n) 0 = false ∧
           s.regsKept t [Reg.PCC_STATUS n, Reg.DBG_PC_STATUS n] ∧ s.bitsKept t (Reg.PCC_STATUS n) 2 0 ∧ (∀ k, k ≠ n → t.pcore k = s.pcore k) ∧
           t = { s with pcores := t.pcores, regs := t.regs })
       goes (.pcResume p) false ∧ goes (.pcStep p) true)) ∧
    (∀ x : XtId, let cfg := Reg.DBG_XT_CFG x.val
      (s.modes.safelightUp = false → exec (.crossTrigger x) s = .next s) ∧
      (s.modes.safelightUp = true → ∃ t, exec (.crossTrigger x) s = .next t ∧ t.rb (Reg.DBG_XT_STATUS x.val) 0 = true ∧
        (∀ c : CoreId, let named := (s.rd (Reg.DBG_XT_MHALT x.val (c.val / 32))).testBit (c.val % 32) = true ∧ s.coreUp c.val = true ∧
            ((s.core c.val).run = .running ∨ (s.core c.val).run = .waiting)
          (named → (t.core c.val).haltReq = some ((s.core c.val).haltReq.getD 4) ∧ t.sends s 10 (.coreHalt c)) ∧
          (¬ named → (t.core c.val).haltReq = (s.core c.val).haltReq)) ∧
        (∀ p : PcId, (s.rd (Reg.DBG_XT_PHALT x.val (p.val / 32))).testBit (p.val % 32) = true → s.pcState p.val = 1 ∨ s.pcState p.val = 2 →
          (t.pcore p.val).halted = true ∨ (t.pcore p.val).halting = some 1) ∧
        t.rb Reg.GT_PMU_FREEZE 0 = (s.rb cfg 0 || s.rb Reg.GT_PMU_FREEZE 0) ∧
        (s.rb cfg 1 = true → t.rb Reg.GT_SHUTTER_CTRL 2 = true ∧ t.rd Reg.GT_SHUTTER_GT = s.now) ∧
        (s.rb cfg 1 = false → t.rd Reg.GT_SHUTTER_CTRL = s.rd Reg.GT_SHUTTER_CTRL ∧ t.rd Reg.GT_SHUTTER_GT = s.rd Reg.GT_SHUTTER_GT) ∧
        t.mem = s.mem ∧ t.pins = s.pins)) ∧
    (∀ v : Word32, let ctrl := Reg.DBG_SYS_CTRL
      let a := s.rd Reg.DBG_SYS_ADDR
      let n := 2 ^ fld v.toNat 1 0
      let eid := fld v.toNat 8 3
      let store := v.getLsbD 2
      let result := fun (t : State) (r : Nat) => exec (.dbgSysGo v) s = .next t ∧ t.rf ctrl 11 10 = r ∧ fld (t.rd ctrl) 8 0 = fld v.toNat 8 0
      let alone := fun r => ∃ t, result t r ∧ s.regsKept t [ctrl] ∧ t = { s with regs := t.regs }
      let memory := s.window a = some .dram ∨ s.window a = some .monSram
      (s.debugLive = false → exec (.dbgSysGo v) s = .next s) ∧
      (s.debugLive = true → v.getLsbD 9 = false → ∃ t, exec (.dbgSysGo v) s = .next t ∧ fld (t.rd ctrl) 8 0 = fld v.toNat 8 0 ∧
        s.bitsKept t ctrl 8 0 ∧ s.regsKept t [ctrl] ∧ t = { s with regs := t.regs }) ∧
      (s.debugLive = true → v.getLsbD 9 = true →
        (a % n ≠ 0 → alone 3) ∧
        (a % n = 0 → s.window a = none → alone 3) ∧
        (a % n = 0 → s.window a = some .dram → s.ertPermits eid a store = false → alone 2) ∧
        (a % n = 0 → memory → (s.inDram a = true → s.ertPermits eid a store = true) →
          (store = false → s.poisoned (lineOf a) = true → alone 3) ∧
          (store = false → s.poisoned (lineOf a) = false → ∃ t, result t 0 ∧ t.rd Reg.DBG_SYS_DATA = s.bytes a n ∧ t.mem = s.mem ∧
            s.regsKept t [ctrl, Reg.DBG_SYS_DATA] ∧ t = { s with regs := t.regs, agenda := t.agenda }) ∧
          (store = true → ∃ t q, result t 0 ∧ t.sends s reqNs (.writePartial q (BitVec.ofNat 64 ((2 ^ n - 1) * 2 ^ (a % 64)))
              (BitVec.ofNat 512 (s.rd Reg.DBG_SYS_DATA % 2 ^ (8 * n) * 2 ^ (8 * (a % 64))))) ∧
            q.from_ = .debug ∧ q.line = paddr (lineOf a) ∧ q.pl = 3 ∧ q.eid = BitVec.ofNat 6 eid ∧ q.stamp = s.clampStamp (s.now + 1000) ∧
            s.regsKept t [ctrl] ∧ t = { s with regs := t.regs, agenda := t.agenda })))) ∧
    (∀ levels enables : BitVec 512,
      let drives := s.enc.state = 0 ∨ (s.enc.state = 1 ∧ s.enc.debugOpen = true)
      (s.modes.safelightUp = false → exec (.extest levels enables) s = .next s ∧ exec (.samplePreload levels enables) s = .next s) ∧
      (s.modes.safelightUp = true → drives → ∃ t, exec (.extest levels enables) s = .next t ∧ t.dbg.levels = levels ∧ t.dbg.enables = enables ∧
        (∀ p < 512, t.pin p = { s.pin p with scan := some (if enables.getLsbD p then .level (levels.getLsbD p) 0 else .released 0) }) ∧
        t = { s with dbg := t.dbg, pins := t.pins, free := t.free }) ∧
      (s.modes.safelightUp = true → ¬ drives → ∃ t, exec (.extest levels enables) s = .next t ∧
        (∀ p, t.pin p = { s.pin p with scan := none }) ∧ t = { s with pins := t.pins }) ∧
      (s.modes.safelightUp = true → ∃ t, exec (.samplePreload levels enables) s = .next t ∧ t.dbg.levels = levels ∧ t.dbg.enables = enables ∧
        (∀ p, t.pin p = { s.pin p with scan := none }) ∧
        (∀ p h k, p < 512 → s.bankHeld (p / 32) = false → (s.pin p).ball = .level h k → (s.pin p).outside = none →
          t.dbg.sample.getLsbD p = h) ∧
        (∀ p k h, p < 512 → s.bankHeld (p / 32) = false → (s.pin p).ball = .released k → (s.pin p).outside = some h →
          t.dbg.sample.getLsbD p = h) ∧
        t = { s with dbg := t.dbg, pins := t.pins, free := t.free }))

/-- For every state, address and value. A write of a register's fields stores each RW bit and each RWL bit that is not locked,
clears each W1C bit written as 1, and leaves every other bit; it touches no other register, unless it writes another value to a
locked field: then it sets the unit's LOCKED_WRITE flag, where R494 gives one, and a contact-sheet entry of class LOCKED_WRITE
with the register's address follows. A pin is locked by its own LOCK bit or by LOCK_REGION. A register access where no window
lies, at too low a level, of a wrong form, or to the ROM or the contact sheet is not performed: a core records the store error
with its cause, and any other agent records nothing. An aligned access of 4 or 8 bytes that touches no register is ignored. In
the queue and monitor windows a register takes its value by its types; GT_CTRL, GT_PMU_FREEZE, PAIR_CFG, PHB_CTRL, the VSEL
registers and HS_QUERY_ADDR do what their commands do. -/
def Obligations.Register_writes_follow_their_types : Prop :=
  (∀ (s : State) (a v : Nat) (d : RegDesc) (i j : Nat), regFind a = some (d, i, j) →
    let width := if d.wide then 64 else 32
    let lock := s.lockedBits d a i j
    let flag := lockFlag d.area (areaUnit d.area a i j)
    let other := ∃ k < width, lock.testBit k = true ∧ v.testBit k ≠ s.rb a k
    let t := s.storeReg a v
    (∀ k < width, flag ≠ some (a, k) → t.rb a k =
      if (d.rw ||| d.rwl).testBit k && !lock.testBit k then v.testBit k
      else if d.w1c.testBit k && v.testBit k then false else s.rb a k) ∧
    ((lock = 0 ∨ (s.rd a < 2 ^ width ∧ ¬ other)) → s.regsKept t [a] ∧ t = { s with regs := t.regs }) ∧
    (other → (∀ r b, flag = some (r, b) → t.rb r b = true ∧ s.regsKept t [a, r]) ∧ (flag = none → s.regsKept t [a]) ∧
      (s.sheet.intake.length < 64 → ∃ e, t.sheet.intake = s.sheet.intake ++ [e] ∧ e.cls = 0x22 ∧ e.addr = BitVec.ofNat 64 a ∧
        e.unit = s.areaUnitCode d.area (areaUnit d.area a i j) ∧ e.gt = s.gt.now) ∧
      t = { s with regs := t.regs, sheet := t.sheet, agenda := t.agenda })) ∧
  (∀ (s : State) (a v : Nat), regFind a = none → s.storeReg a v = s) ∧
  (∀ (s : State) (p : PinId) (d : RegDesc) (i j a : Nat), a = Reg.PIN_CFG p.val ∨ a = Reg.PIN_OWNER p.val → regFind a = some (d, i, j) →
    s.lockedBits d a i j = (if s.rb (Reg.PIN_CFG p.val) 31 = true ∨ (5, p.val) ∈ s.locks then d.cover else 0)) ∧
  (∀ (s : State) (who : Requester) (addr : PAddr) (size : BitVec 2) (value : Word64),
    let i := Instr.registerWrite who addr size value
    let a := addr.toNat
    let n := 2 ^ size.toNat
    let v := value.toNat % 2 ^ (8 * n)
    let refused := fun cause : Nat => ∃ t, exec i s = .next t ∧ t.regs = s.regs ∧ t.mem = s.mem ∧
      ((∀ c, who.agent ≠ .core c) → t = s) ∧
      (∀ c, who.agent = .core c → let x := s.core c.val
        let y := t.core c.val
        (y.sr Sr.SERR_INFO).testBit 0 = true ∧ ((x.sr Sr.SERR_INFO).testBit 0 = false → y.sr Sr.SERR_ADDR = a ∧ fld (y.sr Sr.SERR_INFO) 7 2 = cause) ∧
        ((x.sr Sr.SERR_INFO).testBit 0 = true → (y.sr Sr.SERR_INFO).testBit 1 = true ∧ y.sr Sr.SERR_ADDR = x.sr Sr.SERR_ADDR) ∧
        (∀ k, k ≠ c.val → t.core k = s.core k))
    (s.window a = none → refused 1) ∧
    (∀ w, s.window a = some w →
      (windowOpen w a who = false → refused 3) ∧
      (windowOpen w a who = true →
        (w = .rom ∨ w = .sheet → refused 5) ∧
        (w = .dram → s.ertPermits who.eid.toNat a true = false → refused 4) ∧
        (w ∉ [Win.rom, .sheet, .monSram, .dram, .localMem, .points] →
          ((n ≠ 4 ∧ n ≠ 8) ∨ a % n ≠ 0 → refused 2) ∧
          (∀ k, s.regBytes w a = some k → k ≠ n → refused 2) ∧
          ((n = 4 ∨ n = 8) → a % n = 0 → s.regBytes w a = none → ¬ (a % 8 = 4 ∧ s.regBytes w (a - 4) = some 8) →
            ¬ (n = 8 ∧ (s.regBytes w (a + 4)).isSome) → exec i s = .next s)) ∧
        (w = .queue ∨ w = .pvt → a % n = 0 → s.regBytes w a = some n → exec i s = .next (s.storeReg a v)))) ∧
    (size = 2 → let v32 := value.setWidth 32
      (a = Reg.GT_CTRL → exec i s = exec (.gtCtrl who v32) s) ∧
      (a = Reg.GT_PMU_FREEZE → exec i s = exec (.freeze who v32) s) ∧
      (a = Reg.PAIR_CFG → exec i s = exec (.linkEn who v32) s) ∧
      (∀ b : BaseId, a = Reg.PHB_CTRL b.val → exec i s = exec (.phbCtrl b who v32) s) ∧
      (∀ b : BankId, a = Reg.PIN_BANK_CFG b.val → exec i s = exec (.vsel b who v32) s)) ∧
    (size = 3 → ∀ h : HsId, a = Reg.HS_QUERY_ADDR h.val → exec i s = exec (.hsQueryAddr h who value) s))

/-- State.reset has the three forms that every step keeps. Every register reads the value of its Reset column; among them PVT_MODE
shows PREFLASH, every main core is gated at 2.4 GHz, PVT_AVS is enabled at 850 mV, PVT_TEMP_WARN is 100 and PVT_WEAR_CFG 20, 10
and AUTO. SAFE_N is asserted and PAIR_OK low, every pin is released with its weak pull-down, nothing is locked, no VI is valid,
no point has been written, no core holds a line, and no command waits. That an unwritten byte of memory reads 0 is the model's
choice for monitor SRAM (entry 4). -/
def Obligations.Reset_state : Prop :=
  State.reset.memOk ∧ State.reset.regsOk ∧ State.reset.agendaOk ∧ State.reset.pending = [] ∧ State.reset.agenda = [] ∧
  (∀ a d i j, regFind a = some (d, i, j) → State.reset.rd a = d.reset % 2 ^ 64) ∧
  State.reset.mode = modePreflash ∧ State.reset.modes.safeN = true ∧ State.reset.modes.pairOk = false ∧
  (∀ c : CoreId, State.reset.rb (Reg.PVT_COREPT c.val) 2 = true ∧ State.reset.rf (Reg.PVT_COREPT c.val) 1 0 = 0) ∧
  State.reset.rd Reg.PVT_AVS = 1 + 850 * 2 ^ 16 ∧ State.reset.rd Reg.PVT_TEMP_WARN = 100 ∧
  State.reset.rd Reg.PVT_WEAR_CFG = 20 + 10 * 2 ^ 8 + 2 ^ 16 ∧
  (∀ p, State.reset.pin p = {} ∧ (State.reset.pin p).ball = .released 1) ∧ State.reset.locks = [] ∧ State.reset.validVis = [] ∧
  State.reset.points = [] ∧ (∀ c, (State.reset.core c).lines = [] ∧ (State.reset.core c).stores = []) ∧
  (∀ a, inRom a = false → State.reset.byte a = 0)

/-- For every command with every operand and every state, exec answers a next state, never a fault or a refusal; and a step does so
from every state, whether a command waits, effects are due or time passes. A command or event whose condition the spec does not
find met still completes and changes nothing (entry 9); a value that the spec leaves open is a free value and ends nothing
(entry 2). -/
def Obligations.Every_command_completes : Prop :=
  (∀ (c : Instr) (s : State), ∃ t, exec c s = .next t) ∧ (∀ s : State, ∃ t, step s = .next t)

/-- From every state whose memory is in canonical form (addresses strictly rising, no byte listed that reads as an unlisted one
does), whose registers are in canonical form (none listed at the value of its Reset column) and whose agenda is in order of the
clocks at which its effects fall due, a step that answers a next state leaves each of these so. A command leaves the queue of
waiting commands and the phase clock as they are; only a step on an empty queue lets effects fall due or a phase clock pass
(entry 6). -/
def Obligations.Every_step_keeps_the_forms : Prop :=
  (∀ s t : State, step s = .next t →
    (s.memOk → t.memOk) ∧ (s.regsOk → t.regsOk) ∧ (s.agendaOk → t.agendaOk) ∧ s.clk ≤ t.clk ∧ t.clk ≤ s.clk + 1) ∧
  (∀ (c : Instr) (s t : State), exec c s = .next t → t.pending = s.pending ∧ t.clk = s.clk)
end

