-- ==== Sys2Proof/Laws/Tab.lean ====
section
/-!
SUPPORT. Sys2Proof/Laws/Tab.lean: a sorted table reads back what was written under a key, keeps what stands under every other key,
and keeps its canonical form.
-/
namespace Sys2Proof.Machine

variable {α : Type}

theorem tabFind_erase_same (t : Tab α) (i : Nat) : tabFind (tabErase t i) i = none := by
  induction t with
  | nil => rfl
  | cons e t ih =>
    obtain ⟨k, v⟩ := e
    by_cases h : k = i
    · subst h; simpa [tabErase] using ih
    · simpa [tabErase, h, tabFind] using ih

theorem tabFind_erase_ne (t : Tab α) {i j : Nat} (h : i ≠ j) : tabFind (tabErase t i) j = tabFind t j := by
  induction t with
  | nil => rfl
  | cons e t ih =>
    obtain ⟨k, v⟩ := e
    by_cases hk : k = i
    · subst hk; simpa [tabErase, tabFind, h] using ih
    · by_cases hj : k = j
      · subst hj; simp [tabErase, tabFind, hk]
      · simpa [tabErase, tabFind, hk, hj] using ih

theorem tabFind_insert_same (t : Tab α) (i : Nat) (v : α) (h : tabFind t i = none) : tabFind (tabInsert i v t) i = some v := by
  induction t with
  | nil => simp [tabInsert, tabFind]
  | cons e t ih =>
    obtain ⟨k, x⟩ := e
    by_cases hk : k = i
    · simp [tabFind, hk] at h
    · simp only [tabFind, hk, if_false] at h
      by_cases hl : i < k
      · simp [tabInsert, tabFind, hl]
      · simp [tabInsert, tabFind, hl, hk, ih h]

theorem tabFind_insert_ne (t : Tab α) {i j : Nat} (v : α) (h : i ≠ j) : tabFind (tabInsert i v t) j = tabFind t j := by
  induction t with
  | nil => simp [tabInsert, tabFind, h]
  | cons e t ih =>
    obtain ⟨k, x⟩ := e
    by_cases hl : i < k
    · simp [tabInsert, tabFind, hl, h]
    · by_cases hj : k = j
      · subst hj; simp [tabInsert, tabFind, hl]
      · simp [tabInsert, tabFind, hl, hj, ih]

variable [DecidableEq α]

/-- A key reads back what was written under it. -/
@[simp] theorem tabGet_set_same (d : α) (t : Tab α) (i : Nat) (v : α) : tabGet d (tabSet d t i v) i = v := by
  unfold tabSet
  split
  · next h => simp [tabGet, tabFind_erase_same, h]
  · simp [tabGet, tabFind_insert_same _ _ _ (tabFind_erase_same t i)]

/-- A write under one key leaves every other key as it was. -/
theorem tabGet_set_ne (d e : α) (t : Tab α) {i j : Nat} (v : α) (h : i ≠ j) : tabGet e (tabSet d t i v) j = tabGet e t j := by
  unfold tabSet
  split <;> simp [tabGet, tabFind_erase_ne _ h, tabFind_insert_ne _ _ h]

/-- Reading after a write, in one equation. -/
theorem tabGet_set (d : α) (t : Tab α) (i j : Nat) (v : α) :
    tabGet d (tabSet d t i v) j = if i = j then v else tabGet d t j := by
  by_cases h : i = j
  · subst h; simp
  · simp [h, tabGet_set_ne d d t v h]

/-! ### The canonical form -/

/-- Every key of a table lies above a bound. -/
def tabAbove (k : Nat) (t : Tab α) : Bool := t.all (fun e => decide (k < e.1))

omit [DecidableEq α] in
theorem tabSorted_cons (k : Nat) (v : α) (t : Tab α) : tabSorted ((k, v) :: t) = true ↔ tabAbove k t = true ∧ tabSorted t = true := by
  induction t generalizing k v with
  | nil => simp [tabSorted, tabAbove]
  | cons e t ih =>
    obtain ⟨b, y⟩ := e
    simp only [tabSorted, Bool.and_eq_true, decide_eq_true_eq]
    constructor
    · rintro ⟨h1, h2⟩
      refine ⟨?_, h2⟩
      have h3 := ((ih b y).mp h2).1
      simp only [tabAbove, List.all_cons, List.all_eq_true, Bool.and_eq_true, decide_eq_true_eq] at h3 ⊢
      exact ⟨h1, fun e he => Nat.lt_trans h1 (h3 e he)⟩
    · rintro ⟨h1, h2⟩
      simp only [tabAbove, List.all_cons, Bool.and_eq_true, decide_eq_true_eq] at h1
      exact ⟨h1.1, h2⟩

omit [DecidableEq α] in
theorem tabAbove_filter (p : Nat × α → Bool) (k : Nat) (t : Tab α) (h : tabAbove k t = true) : tabAbove k (t.filter p) = true := by
  simp only [tabAbove, List.all_eq_true] at h ⊢
  exact fun e he => h e (List.mem_filter.mp he).1

omit [DecidableEq α] in
/-- Leaving entries out keeps the order. -/
theorem tabSorted_filter (p : Nat × α → Bool) (t : Tab α) (h : tabSorted t = true) : tabSorted (t.filter p) = true := by
  induction t with
  | nil => rfl
  | cons e t ih =>
    obtain ⟨k, v⟩ := e
    rw [tabSorted_cons] at h
    by_cases hp : p (k, v) = true
    · rw [List.filter_cons_of_pos hp, tabSorted_cons]
      exact ⟨tabAbove_filter p k t h.1, ih h.2⟩
    · rw [List.filter_cons_of_neg (by simpa using hp)]
      exact ih h.2

omit [DecidableEq α] in
theorem tabInsert_mem (i : Nat) (v : α) (t : Tab α) (e : Nat × α) (h : e ∈ tabInsert i v t) : e = (i, v) ∨ e ∈ t := by
  induction t with
  | nil => exact .inl (by simpa [tabInsert] using h)
  | cons x t ih =>
    obtain ⟨k, y⟩ := x
    by_cases hl : i < k
    · simpa [tabInsert, hl] using h
    · simp only [tabInsert, hl, if_false, List.mem_cons] at h
      rcases h with h | h
      · exact .inr (by simp [h])
      · rcases ih h with h | h
        · exact .inl h
        · exact .inr (by simp [h])

omit [DecidableEq α] in
theorem tabSorted_insert (i : Nat) (v : α) (t : Tab α) (h : tabSorted t = true) (hn : ∀ e ∈ t, e.1 ≠ i) :
    tabSorted (tabInsert i v t) = true := by
  induction t with
  | nil => rfl
  | cons x t ih =>
    obtain ⟨k, y⟩ := x
    have hk : k ≠ i := hn (k, y) (by simp)
    have h' := (tabSorted_cons k y t).mp h
    by_cases hl : i < k
    · simp only [tabInsert, hl, if_true]
      rw [tabSorted_cons]
      refine ⟨?_, h⟩
      have := h'.1
      simp only [tabAbove, List.all_cons, List.all_eq_true, Bool.and_eq_true, decide_eq_true_eq] at this ⊢
      exact ⟨hl, fun e he => Nat.lt_trans hl (this e he)⟩
    · simp only [tabInsert, hl, if_false]
      rw [tabSorted_cons]
      refine ⟨?_, ih h'.2 (fun e he => hn e (by simp [he]))⟩
      have := h'.1
      simp only [tabAbove, List.all_eq_true, decide_eq_true_eq] at this ⊢
      intro e he
      rcases tabInsert_mem i v t e he with rfl | he
      · show k < i; omega
      · exact this e he

/-- A write keeps the canonical form. -/
theorem tabWf_set (d : α) (t : Tab α) (i : Nat) (v : α) (h : tabWf (fun _ => d) t = true) : tabWf (fun _ => d) (tabSet d t i v) = true := by
  simp only [tabWf, Bool.and_eq_true, List.all_eq_true, decide_eq_true_eq] at h ⊢
  have hne : ∀ e ∈ tabErase t i, e.1 ≠ i := by
    intro e he
    simpa using (List.mem_filter.mp he).2
  have hs : tabSorted (tabErase t i) = true := tabSorted_filter _ t h.1
  unfold tabSet
  split
  · exact ⟨hs, fun e he => h.2 e (List.mem_filter.mp he).1⟩
  · next hv =>
    refine ⟨tabSorted_insert i v _ hs hne, fun e he => ?_⟩
    rcases tabInsert_mem i v _ e he with rfl | he
    · exact hv
    · exact h.2 e (List.mem_filter.mp he).1

/-- Leaving entries out keeps the canonical form. -/
theorem tabWf_filter (d : Nat → α) (p : Nat × α → Bool) (t : Tab α) (h : tabWf d t = true) : tabWf d (t.filter p) = true := by
  simp only [tabWf, Bool.and_eq_true, List.all_eq_true, decide_eq_true_eq] at h ⊢
  exact ⟨tabSorted_filter p t h.1, fun e he => h.2 e (List.mem_filter.mp he).1⟩

end Sys2Proof.Machine
end

