-- ==== Sys2Proof/Laws/Regs.lean ====
section
/-!
SUPPORT. Sys2Proof/Laws/Regs.lean: a register reads back what was written, a write leaves every other register, and a field's write
leaves the other bits (R12); a byte of memory reads back what was written, and a write leaves every other byte.
-/
namespace Sys2Proof.Machine

/-! ### Bit fields -/

theorem testBit_putFld (v hi lo x j : Nat) (h : lo ≤ hi) :
    (putFld v hi lo x).testBit j = if lo ≤ j ∧ j ≤ hi then x.testBit (j - lo) else v.testBit j := by
  have e : putFld v hi lo x = 2 ^ (hi + 1) * (v >>> (hi + 1)) + (2 ^ lo * (x % 2 ^ (hi - lo + 1)) + v % 2 ^ lo) := by
    simp only [putFld, Nat.shiftLeft_eq]; ring
  have hlo : v % 2 ^ lo < 2 ^ lo := Nat.mod_lt _ (by positivity)
  have hlt : 2 ^ lo * (x % 2 ^ (hi - lo + 1)) + v % 2 ^ lo < 2 ^ (hi + 1) := by
    have hx : x % 2 ^ (hi - lo + 1) < 2 ^ (hi - lo + 1) := Nat.mod_lt _ (by positivity)
    have hp : 2 ^ (hi + 1) = 2 ^ lo * 2 ^ (hi - lo + 1) := by rw [← pow_add]; congr 1; omega
    rw [hp]
    calc 2 ^ lo * (x % 2 ^ (hi - lo + 1)) + v % 2 ^ lo < 2 ^ lo * (x % 2 ^ (hi - lo + 1)) + 2 ^ lo := by omega
      _ = 2 ^ lo * (x % 2 ^ (hi - lo + 1) + 1) := by ring
      _ ≤ _ := Nat.mul_le_mul_left _ hx
  rw [e, Nat.testBit_two_pow_mul_add _ hlt, Nat.testBit_two_pow_mul_add _ hlo]
  by_cases h1 : j < hi + 1
  · by_cases h2 : j < lo
    · simp [h1, h2, Nat.testBit_mod_two_pow, show ¬ lo ≤ j by omega]
    · simp [h1, h2, Nat.testBit_mod_two_pow, show lo ≤ j by omega, show j ≤ hi by omega, show j - lo < hi - lo + 1 by omega]
  · simp [h1, Nat.testBit_shiftRight, show ¬ j ≤ hi by omega, show hi + 1 + (j - (hi + 1)) = j by omega]

/-- The field written reads back. -/
@[simp] theorem fld_putFld_same (v hi lo x : Nat) (h : lo ≤ hi) : fld (putFld v hi lo x) hi lo = x % 2 ^ (hi - lo + 1) := by
  apply Nat.eq_of_testBit_eq
  intro i
  simp only [fld, Nat.testBit_mod_two_pow, Nat.testBit_shiftRight, testBit_putFld _ _ _ _ _ h]
  by_cases hi' : i < hi - lo + 1
  · simp [hi', show lo + i ≤ hi by omega]
  · simp [hi']

/-- A field apart from the one written keeps its value. -/
theorem fld_putFld_ne (v hi lo x a b : Nat) (h : lo ≤ hi) (hd : b < lo ∨ hi < a) (hab : a ≤ b) : fld (putFld v hi lo x) b a = fld v b a := by
  apply Nat.eq_of_testBit_eq
  intro i
  simp only [fld, Nat.testBit_mod_two_pow, Nat.testBit_shiftRight, testBit_putFld _ _ _ _ _ h]
  by_cases hi' : i < b - a + 1
  · have : ¬ (lo ≤ a + i ∧ a + i ≤ hi) := by omega
    simp [this]
  · simp [hi']

theorem testBit_putBit (v i j : Nat) (b : Bool) : (putFld v i i (b2n b)).testBit j = if i = j then b else v.testBit j := by
  rw [testBit_putFld _ _ _ _ _ (Nat.le_refl i)]
  by_cases h : i = j
  · subst h; cases b <;> simp [b2n]
  · simp [h, show ¬ (i ≤ j ∧ j ≤ i) by omega]

theorem putFld_lt (v hi lo x n : Nat) (h : lo ≤ hi) (hn : hi < n) (hv : v < 2 ^ n) : putFld v hi lo x < 2 ^ n := by
  apply Nat.lt_pow_two_of_testBit
  intro i hi'
  rw [testBit_putFld _ _ _ _ _ h]
  simp only [show ¬ (lo ≤ i ∧ i ≤ hi) by omega, if_false]
  exact Nat.testBit_lt_two_pow (Nat.lt_of_lt_of_le hv (Nat.pow_le_pow_right (by omega) hi'))

/-! ### Registers -/

theorem State.rd_lt (s : State) (a : Nat) : s.rd a < 2 ^ 64 := BitVec.isLt _

/-- A register reads back what was written, at 64 bits. -/
@[simp] theorem State.rd_wr_same (s : State) (a v : Nat) : (s.wr a v).rd a = v % 2 ^ 64 := by
  simp [State.rd, State.wr]

/-- A write leaves every other register. -/
theorem State.rd_wr_ne (s : State) {a b : Nat} (v : Nat) (h : a ≠ b) : (s.wr a v).rd b = s.rd b := by
  simp [State.rd, State.wr, tabGet_set_ne _ _ _ _ h]

theorem State.rd_wr (s : State) (a b v : Nat) : (s.wr a v).rd b = if a = b then v % 2 ^ 64 else s.rd b := by
  by_cases h : a = b
  · subst h; simp
  · simp [h, State.rd_wr_ne s v h]

theorem State.rd_wf_same (s : State) (a hi lo v : Nat) (h : lo ≤ hi) (hi64 : hi < 64) :
    (s.wf a hi lo v).rd a = putFld (s.rd a) hi lo v := by
  rw [State.wf, State.rd_wr_same, Nat.mod_eq_of_lt (putFld_lt _ _ _ _ 64 h hi64 (s.rd_lt a))]

theorem State.rd_wf_ne (s : State) {a b : Nat} (hi lo v : Nat) (h : a ≠ b) : (s.wf a hi lo v).rd b = s.rd b := State.rd_wr_ne s _ h

theorem State.rd_wb_ne (s : State) {a b : Nat} (i : Nat) (v : Bool) (h : a ≠ b) : (s.wb a i v).rd b = s.rd b := State.rd_wr_ne s _ h

theorem State.rd_wb_same (s : State) (a i : Nat) (b : Bool) (h : i < 64) : (s.wb a i b).rd a = putFld (s.rd a) i i (b2n b) :=
  State.rd_wf_same s a i i _ (Nat.le_refl i) h

/-- The field written reads back. -/
theorem State.rf_wf_same (s : State) (a hi lo v : Nat) (h : lo ≤ hi) (hi64 : hi < 64) :
    (s.wf a hi lo v).rf a hi lo = v % 2 ^ (hi - lo + 1) := by
  rw [State.rf, State.rd_wf_same s a hi lo v h hi64, fld_putFld_same _ _ _ _ h]

/-- The bit written reads back; every other bit of every register stays. -/
theorem State.rb_wb (s : State) (a b i j : Nat) (v : Bool) (h : i < 64) :
    (s.wb a i v).rb b j = if a = b ∧ i = j then v else s.rb b j := by
  unfold State.rb
  by_cases hab : a = b
  · subst hab
    rw [State.rd_wb_same s a i v h, testBit_putBit]
    by_cases hij : i = j <;> simp [hij]
  · simp [hab, State.rd_wb_ne s i v hab]

/-! ### Memory bytes -/

theorem State.byte_setByte_ne (s : State) {a b : Nat} (v : Byte) (h : a ≠ b) : (s.setByte a v).byte b = s.byte b := by
  simp [State.byte, State.setByte, tabGet_set_ne _ _ _ _ h]

theorem State.byte_setByte_same (s : State) (a : Nat) (v : Byte) (h : inRom a = false) : (s.setByte a v).byte a = v := by
  simp [State.byte, State.setByte, h]

/-- A byte outside the bytes written stays. -/
theorem State.byte_setBytes_out (s : State) (a b : Nat) (l : List Byte) (h : b < a ∨ a + l.length ≤ b) :
    (s.setBytes a l).byte b = s.byte b := by
  induction l generalizing s a with
  | nil => rfl
  | cons x l ih =>
    simp only [List.length_cons] at h
    rw [State.setBytes, ih _ _ (by omega), State.byte_setByte_ne _ _ (by omega)]

/-- The bytes written read back, outside the boot ROM. -/
theorem State.byte_setBytes_in (s : State) (a : Nat) (l : List Byte) (i : Nat) (hi : i < l.length) (h : inRom (a + i) = false) :
    (s.setBytes a l).byte (a + i) = l[i] := by
  induction l generalizing s a i with
  | nil => simp at hi
  | cons x l ih =>
    cases i with
    | zero =>
      rw [State.setBytes, State.byte_setBytes_out _ _ _ _ (by omega)]
      simpa using State.byte_setByte_same s a x (by simpa using h)
    | succ i =>
      rw [State.setBytes]
      have := ih (s.setByte a x) (a + 1) i (by simpa using hi) (by rw [show a + 1 + i = a + (i + 1) by omega]; exact h)
      rw [show a + (i + 1) = a + 1 + i by omega, this]
      simp

/-- Writing bytes keeps memory in its canonical form. -/
theorem State.setByte_wf (s : State) (a : Nat) (v : Byte) (h : Mem.wf s.mem = true) : Mem.wf (s.setByte a v).mem = true :=
  tabWf_set _ _ _ _ h

theorem State.setBytes_wf (s : State) (a : Nat) (l : List Byte) (h : Mem.wf s.mem = true) : Mem.wf (s.setBytes a l).mem = true := by
  induction l generalizing s a with
  | nil => exact h
  | cons x l ih => exact ih _ _ (State.setByte_wf s a x h)

/-- Memory at reset lists nothing. -/
theorem Mem.wf_reset : Mem.wf State.reset.mem = true := rfl

end Sys2Proof.Machine
end

