-- ==== Sys2Proof/Laws/State.lean ====
section
/-!
SUPPORT. Sys2Proof/Laws/State.lean: what each elementary update of the state leaves of every field, so that no proof unfolds a record
update: one lemma for each field and update, and one for each reader of an updated table.
-/
namespace Sys2Proof.Machine

/-! ### `wr` -/

@[simp] theorem State.wr_pending (s : State) (a v : Nat) : (s.wr a v).pending = s.pending := rfl
@[simp] theorem State.wr_agenda (s : State) (a v : Nat) : (s.wr a v).agenda = s.agenda := rfl
@[simp] theorem State.wr_clk (s : State) (a v : Nat) : (s.wr a v).clk = s.clk := rfl
@[simp] theorem State.wr_free (s : State) (a v : Nat) : (s.wr a v).free = s.free := rfl
@[simp] theorem State.wr_lastRead (s : State) (a v : Nat) : (s.wr a v).lastRead = s.lastRead := rfl
@[simp] theorem State.wr_mem (s : State) (a v : Nat) : (s.wr a v).mem = s.mem := rfl
@[simp] theorem State.wr_gt (s : State) (a v : Nat) : (s.wr a v).gt = s.gt := rfl
@[simp] theorem State.wr_bases (s : State) (a v : Nat) : (s.wr a v).bases = s.bases := rfl
@[simp] theorem State.wr_cmps (s : State) (a v : Nat) : (s.wr a v).cmps = s.cmps := rfl
@[simp] theorem State.wr_crossed (s : State) (a v : Nat) : (s.wr a v).crossed = s.crossed := rfl
@[simp] theorem State.wr_pins (s : State) (a v : Nat) : (s.wr a v).pins = s.pins := rfl
@[simp] theorem State.wr_banks (s : State) (a v : Nat) : (s.wr a v).banks = s.banks := rfl
@[simp] theorem State.wr_caps (s : State) (a v : Nat) : (s.wr a v).caps = s.caps := rfl
@[simp] theorem State.wr_sdfs (s : State) (a v : Nat) : (s.wr a v).sdfs = s.sdfs := rfl
@[simp] theorem State.wr_ctrs (s : State) (a v : Nat) : (s.wr a v).ctrs = s.ctrs := rfl
@[simp] theorem State.wr_locks (s : State) (a v : Nat) : (s.wr a v).locks = s.locks := rfl
@[simp] theorem State.wr_sheet (s : State) (a v : Nat) : (s.wr a v).sheet = s.sheet := rfl
@[simp] theorem State.wr_cores (s : State) (a v : Nat) : (s.wr a v).cores = s.cores := rfl
@[simp] theorem State.wr_modes (s : State) (a v : Nat) : (s.wr a v).modes = s.modes := rfl
@[simp] theorem State.wr_spare (s : State) (a v : Nat) : (s.wr a v).spare = s.spare := rfl
@[simp] theorem State.wr_poison (s : State) (a v : Nat) : (s.wr a v).poison = s.poison := rfl
@[simp] theorem State.wr_pcores (s : State) (a v : Nat) : (s.wr a v).pcores = s.pcores := rfl
@[simp] theorem State.wr_arbs (s : State) (a v : Nat) : (s.wr a v).arbs = s.arbs := rfl
@[simp] theorem State.wr_work (s : State) (a v : Nat) : (s.wr a v).work = s.work := rfl
@[simp] theorem State.wr_nextTag (s : State) (a v : Nat) : (s.wr a v).nextTag = s.nextTag := rfl
@[simp] theorem State.wr_mcs (s : State) (a v : Nat) : (s.wr a v).mcs = s.mcs := rfl
@[simp] theorem State.wr_homes (s : State) (a v : Nat) : (s.wr a v).homes = s.homes := rfl
@[simp] theorem State.wr_ert (s : State) (a v : Nat) : (s.wr a v).ert = s.ert := rfl
@[simp] theorem State.wr_posting (s : State) (a v : Nat) : (s.wr a v).posting = s.posting := rfl
@[simp] theorem State.wr_points (s : State) (a v : Nat) : (s.wr a v).points = s.points := rfl
@[simp] theorem State.wr_queues (s : State) (a v : Nat) : (s.wr a v).queues = s.queues := rfl
@[simp] theorem State.wr_qes (s : State) (a v : Nat) : (s.wr a v).qes = s.qes := rfl
@[simp] theorem State.wr_net (s : State) (a v : Nat) : (s.wr a v).net = s.net := rfl
@[simp] theorem State.wr_enc (s : State) (a v : Nat) : (s.wr a v).enc = s.enc := rfl
@[simp] theorem State.wr_pair (s : State) (a v : Nat) : (s.wr a v).pair = s.pair := rfl
@[simp] theorem State.wr_lemam (s : State) (a v : Nat) : (s.wr a v).lemam = s.lemam := rfl
@[simp] theorem State.wr_dbg (s : State) (a v : Nat) : (s.wr a v).dbg = s.dbg := rfl
@[simp] theorem State.wr_byte (s : State) (a v : Nat) (r : Nat) : (s.wr a v).byte r = s.byte r := rfl
@[simp] theorem State.wr_arb_at (s : State) (a v : Nat) (j : Nat) : (s.wr a v).arb j = s.arb j := rfl
@[simp] theorem State.wr_mc_at (s : State) (a v : Nat) (j : Nat) : (s.wr a v).mc j = s.mc j := rfl
@[simp] theorem State.wr_home_at (s : State) (a v : Nat) (j : Nat) : (s.wr a v).home j = s.home j := rfl
@[simp] theorem State.wr_pin_at (s : State) (a v : Nat) (j : Nat) : (s.wr a v).pin j = s.pin j := rfl
@[simp] theorem State.wr_base_at (s : State) (a v : Nat) (j : Nat) : (s.wr a v).base j = s.base j := rfl
@[simp] theorem State.wr_bank_at (s : State) (a v : Nat) (j : Nat) : (s.wr a v).bank j = s.bank j := rfl
@[simp] theorem State.wr_cmp_at (s : State) (a v : Nat) (j : Nat) : (s.wr a v).cmp j = s.cmp j := rfl
@[simp] theorem State.wr_cap_at (s : State) (a v : Nat) (j : Nat) : (s.wr a v).cap j = s.cap j := rfl
@[simp] theorem State.wr_sdf_at (s : State) (a v : Nat) (j : Nat) : (s.wr a v).sdf j = s.sdf j := rfl
@[simp] theorem State.wr_ctr_at (s : State) (a v : Nat) (j : Nat) : (s.wr a v).ctr j = s.ctr j := rfl
@[simp] theorem State.wr_pcore_at (s : State) (a v : Nat) (j : Nat) : (s.wr a v).pcore j = s.pcore j := rfl
@[simp] theorem State.wr_core_at (s : State) (a v : Nat) (j : Nat) : (s.wr a v).core j = s.core j := rfl
@[simp] theorem State.wr_point_at (s : State) (a v : Nat) (j : Nat) : (s.wr a v).point j = s.point j := rfl
@[simp] theorem State.wr_queue_at (s : State) (a v : Nat) (j : Nat) : (s.wr a v).queue j = s.queue j := rfl

/-! ### `wf` -/

@[simp] theorem State.wf_pending (s : State) (a hi lo v : Nat) : (s.wf a hi lo v).pending = s.pending := rfl
@[simp] theorem State.wf_agenda (s : State) (a hi lo v : Nat) : (s.wf a hi lo v).agenda = s.agenda := rfl
@[simp] theorem State.wf_clk (s : State) (a hi lo v : Nat) : (s.wf a hi lo v).clk = s.clk := rfl
@[simp] theorem State.wf_free (s : State) (a hi lo v : Nat) : (s.wf a hi lo v).free = s.free := rfl
@[simp] theorem State.wf_lastRead (s : State) (a hi lo v : Nat) : (s.wf a hi lo v).lastRead = s.lastRead := rfl
@[simp] theorem State.wf_mem (s : State) (a hi lo v : Nat) : (s.wf a hi lo v).mem = s.mem := rfl
@[simp] theorem State.wf_gt (s : State) (a hi lo v : Nat) : (s.wf a hi lo v).gt = s.gt := rfl
@[simp] theorem State.wf_bases (s : State) (a hi lo v : Nat) : (s.wf a hi lo v).bases = s.bases := rfl
@[simp] theorem State.wf_cmps (s : State) (a hi lo v : Nat) : (s.wf a hi lo v).cmps = s.cmps := rfl
@[simp] theorem State.wf_crossed (s : State) (a hi lo v : Nat) : (s.wf a hi lo v).crossed = s.crossed := rfl
@[simp] theorem State.wf_pins (s : State) (a hi lo v : Nat) : (s.wf a hi lo v).pins = s.pins := rfl
@[simp] theorem State.wf_banks (s : State) (a hi lo v : Nat) : (s.wf a hi lo v).banks = s.banks := rfl
@[simp] theorem State.wf_caps (s : State) (a hi lo v : Nat) : (s.wf a hi lo v).caps = s.caps := rfl
@[simp] theorem State.wf_sdfs (s : State) (a hi lo v : Nat) : (s.wf a hi lo v).sdfs = s.sdfs := rfl
@[simp] theorem State.wf_ctrs (s : State) (a hi lo v : Nat) : (s.wf a hi lo v).ctrs = s.ctrs := rfl
@[simp] theorem State.wf_locks (s : State) (a hi lo v : Nat) : (s.wf a hi lo v).locks = s.locks := rfl
@[simp] theorem State.wf_sheet (s : State) (a hi lo v : Nat) : (s.wf a hi lo v).sheet = s.sheet := rfl
@[simp] theorem State.wf_cores (s : State) (a hi lo v : Nat) : (s.wf a hi lo v).cores = s.cores := rfl
@[simp] theorem State.wf_modes (s : State) (a hi lo v : Nat) : (s.wf a hi lo v).modes = s.modes := rfl
@[simp] theorem State.wf_spare (s : State) (a hi lo v : Nat) : (s.wf a hi lo v).spare = s.spare := rfl
@[simp] theorem State.wf_poison (s : State) (a hi lo v : Nat) : (s.wf a hi lo v).poison = s.poison := rfl
@[simp] theorem State.wf_pcores (s : State) (a hi lo v : Nat) : (s.wf a hi lo v).pcores = s.pcores := rfl
@[simp] theorem State.wf_arbs (s : State) (a hi lo v : Nat) : (s.wf a hi lo v).arbs = s.arbs := rfl
@[simp] theorem State.wf_work (s : State) (a hi lo v : Nat) : (s.wf a hi lo v).work = s.work := rfl
@[simp] theorem State.wf_nextTag (s : State) (a hi lo v : Nat) : (s.wf a hi lo v).nextTag = s.nextTag := rfl
@[simp] theorem State.wf_mcs (s : State) (a hi lo v : Nat) : (s.wf a hi lo v).mcs = s.mcs := rfl
@[simp] theorem State.wf_homes (s : State) (a hi lo v : Nat) : (s.wf a hi lo v).homes = s.homes := rfl
@[simp] theorem State.wf_ert (s : State) (a hi lo v : Nat) : (s.wf a hi lo v).ert = s.ert := rfl
@[simp] theorem State.wf_posting (s : State) (a hi lo v : Nat) : (s.wf a hi lo v).posting = s.posting := rfl
@[simp] theorem State.wf_points (s : State) (a hi lo v : Nat) : (s.wf a hi lo v).points = s.points := rfl
@[simp] theorem State.wf_queues (s : State) (a hi lo v : Nat) : (s.wf a hi lo v).queues = s.queues := rfl
@[simp] theorem State.wf_qes (s : State) (a hi lo v : Nat) : (s.wf a hi lo v).qes = s.qes := rfl
@[simp] theorem State.wf_net (s : State) (a hi lo v : Nat) : (s.wf a hi lo v).net = s.net := rfl
@[simp] theorem State.wf_enc (s : State) (a hi lo v : Nat) : (s.wf a hi lo v).enc = s.enc := rfl
@[simp] theorem State.wf_pair (s : State) (a hi lo v : Nat) : (s.wf a hi lo v).pair = s.pair := rfl
@[simp] theorem State.wf_lemam (s : State) (a hi lo v : Nat) : (s.wf a hi lo v).lemam = s.lemam := rfl
@[simp] theorem State.wf_dbg (s : State) (a hi lo v : Nat) : (s.wf a hi lo v).dbg = s.dbg := rfl
@[simp] theorem State.wf_byte (s : State) (a hi lo v : Nat) (r : Nat) : (s.wf a hi lo v).byte r = s.byte r := rfl
@[simp] theorem State.wf_arb_at (s : State) (a hi lo v : Nat) (j : Nat) : (s.wf a hi lo v).arb j = s.arb j := rfl
@[simp] theorem State.wf_mc_at (s : State) (a hi lo v : Nat) (j : Nat) : (s.wf a hi lo v).mc j = s.mc j := rfl
@[simp] theorem State.wf_home_at (s : State) (a hi lo v : Nat) (j : Nat) : (s.wf a hi lo v).home j = s.home j := rfl
@[simp] theorem State.wf_pin_at (s : State) (a hi lo v : Nat) (j : Nat) : (s.wf a hi lo v).pin j = s.pin j := rfl
@[simp] theorem State.wf_base_at (s : State) (a hi lo v : Nat) (j : Nat) : (s.wf a hi lo v).base j = s.base j := rfl
@[simp] theorem State.wf_bank_at (s : State) (a hi lo v : Nat) (j : Nat) : (s.wf a hi lo v).bank j = s.bank j := rfl
@[simp] theorem State.wf_cmp_at (s : State) (a hi lo v : Nat) (j : Nat) : (s.wf a hi lo v).cmp j = s.cmp j := rfl
@[simp] theorem State.wf_cap_at (s : State) (a hi lo v : Nat) (j : Nat) : (s.wf a hi lo v).cap j = s.cap j := rfl
@[simp] theorem State.wf_sdf_at (s : State) (a hi lo v : Nat) (j : Nat) : (s.wf a hi lo v).sdf j = s.sdf j := rfl
@[simp] theorem State.wf_ctr_at (s : State) (a hi lo v : Nat) (j : Nat) : (s.wf a hi lo v).ctr j = s.ctr j := rfl
@[simp] theorem State.wf_pcore_at (s : State) (a hi lo v : Nat) (j : Nat) : (s.wf a hi lo v).pcore j = s.pcore j := rfl
@[simp] theorem State.wf_core_at (s : State) (a hi lo v : Nat) (j : Nat) : (s.wf a hi lo v).core j = s.core j := rfl
@[simp] theorem State.wf_point_at (s : State) (a hi lo v : Nat) (j : Nat) : (s.wf a hi lo v).point j = s.point j := rfl
@[simp] theorem State.wf_queue_at (s : State) (a hi lo v : Nat) (j : Nat) : (s.wf a hi lo v).queue j = s.queue j := rfl

/-! ### `wb` -/

@[simp] theorem State.wb_pending (s : State) (a i : Nat) (b : Bool) : (s.wb a i b).pending = s.pending := rfl
@[simp] theorem State.wb_agenda (s : State) (a i : Nat) (b : Bool) : (s.wb a i b).agenda = s.agenda := rfl
@[simp] theorem State.wb_clk (s : State) (a i : Nat) (b : Bool) : (s.wb a i b).clk = s.clk := rfl
@[simp] theorem State.wb_free (s : State) (a i : Nat) (b : Bool) : (s.wb a i b).free = s.free := rfl
@[simp] theorem State.wb_lastRead (s : State) (a i : Nat) (b : Bool) : (s.wb a i b).lastRead = s.lastRead := rfl
@[simp] theorem State.wb_mem (s : State) (a i : Nat) (b : Bool) : (s.wb a i b).mem = s.mem := rfl
@[simp] theorem State.wb_gt (s : State) (a i : Nat) (b : Bool) : (s.wb a i b).gt = s.gt := rfl
@[simp] theorem State.wb_bases (s : State) (a i : Nat) (b : Bool) : (s.wb a i b).bases = s.bases := rfl
@[simp] theorem State.wb_cmps (s : State) (a i : Nat) (b : Bool) : (s.wb a i b).cmps = s.cmps := rfl
@[simp] theorem State.wb_crossed (s : State) (a i : Nat) (b : Bool) : (s.wb a i b).crossed = s.crossed := rfl
@[simp] theorem State.wb_pins (s : State) (a i : Nat) (b : Bool) : (s.wb a i b).pins = s.pins := rfl
@[simp] theorem State.wb_banks (s : State) (a i : Nat) (b : Bool) : (s.wb a i b).banks = s.banks := rfl
@[simp] theorem State.wb_caps (s : State) (a i : Nat) (b : Bool) : (s.wb a i b).caps = s.caps := rfl
@[simp] theorem State.wb_sdfs (s : State) (a i : Nat) (b : Bool) : (s.wb a i b).sdfs = s.sdfs := rfl
@[simp] theorem State.wb_ctrs (s : State) (a i : Nat) (b : Bool) : (s.wb a i b).ctrs = s.ctrs := rfl
@[simp] theorem State.wb_locks (s : State) (a i : Nat) (b : Bool) : (s.wb a i b).locks = s.locks := rfl
@[simp] theorem State.wb_sheet (s : State) (a i : Nat) (b : Bool) : (s.wb a i b).sheet = s.sheet := rfl
@[simp] theorem State.wb_cores (s : State) (a i : Nat) (b : Bool) : (s.wb a i b).cores = s.cores := rfl
@[simp] theorem State.wb_modes (s : State) (a i : Nat) (b : Bool) : (s.wb a i b).modes = s.modes := rfl
@[simp] theorem State.wb_spare (s : State) (a i : Nat) (b : Bool) : (s.wb a i b).spare = s.spare := rfl
@[simp] theorem State.wb_poison (s : State) (a i : Nat) (b : Bool) : (s.wb a i b).poison = s.poison := rfl
@[simp] theorem State.wb_pcores (s : State) (a i : Nat) (b : Bool) : (s.wb a i b).pcores = s.pcores := rfl
@[simp] theorem State.wb_arbs (s : State) (a i : Nat) (b : Bool) : (s.wb a i b).arbs = s.arbs := rfl
@[simp] theorem State.wb_work (s : State) (a i : Nat) (b : Bool) : (s.wb a i b).work = s.work := rfl
@[simp] theorem State.wb_nextTag (s : State) (a i : Nat) (b : Bool) : (s.wb a i b).nextTag = s.nextTag := rfl
@[simp] theorem State.wb_mcs (s : State) (a i : Nat) (b : Bool) : (s.wb a i b).mcs = s.mcs := rfl
@[simp] theorem State.wb_homes (s : State) (a i : Nat) (b : Bool) : (s.wb a i b).homes = s.homes := rfl
@[simp] theorem State.wb_ert (s : State) (a i : Nat) (b : Bool) : (s.wb a i b).ert = s.ert := rfl
@[simp] theorem State.wb_posting (s : State) (a i : Nat) (b : Bool) : (s.wb a i b).posting = s.posting := rfl
@[simp] theorem State.wb_points (s : State) (a i : Nat) (b : Bool) : (s.wb a i b).points = s.points := rfl
@[simp] theorem State.wb_queues (s : State) (a i : Nat) (b : Bool) : (s.wb a i b).queues = s.queues := rfl
@[simp] theorem State.wb_qes (s : State) (a i : Nat) (b : Bool) : (s.wb a i b).qes = s.qes := rfl
@[simp] theorem State.wb_net (s : State) (a i : Nat) (b : Bool) : (s.wb a i b).net = s.net := rfl
@[simp] theorem State.wb_enc (s : State) (a i : Nat) (b : Bool) : (s.wb a i b).enc = s.enc := rfl
@[simp] theorem State.wb_pair (s : State) (a i : Nat) (b : Bool) : (s.wb a i b).pair = s.pair := rfl
@[simp] theorem State.wb_lemam (s : State) (a i : Nat) (b : Bool) : (s.wb a i b).lemam = s.lemam := rfl
@[simp] theorem State.wb_dbg (s : State) (a i : Nat) (b : Bool) : (s.wb a i b).dbg = s.dbg := rfl
@[simp] theorem State.wb_byte (s : State) (a i : Nat) (b : Bool) (r : Nat) : (s.wb a i b).byte r = s.byte r := rfl
@[simp] theorem State.wb_arb_at (s : State) (a i : Nat) (b : Bool) (j : Nat) : (s.wb a i b).arb j = s.arb j := rfl
@[simp] theorem State.wb_mc_at (s : State) (a i : Nat) (b : Bool) (j : Nat) : (s.wb a i b).mc j = s.mc j := rfl
@[simp] theorem State.wb_home_at (s : State) (a i : Nat) (b : Bool) (j : Nat) : (s.wb a i b).home j = s.home j := rfl
@[simp] theorem State.wb_pin_at (s : State) (a i : Nat) (b : Bool) (j : Nat) : (s.wb a i b).pin j = s.pin j := rfl
@[simp] theorem State.wb_base_at (s : State) (a i : Nat) (b : Bool) (j : Nat) : (s.wb a i b).base j = s.base j := rfl
@[simp] theorem State.wb_bank_at (s : State) (a i : Nat) (b : Bool) (j : Nat) : (s.wb a i b).bank j = s.bank j := rfl
@[simp] theorem State.wb_cmp_at (s : State) (a i : Nat) (b : Bool) (j : Nat) : (s.wb a i b).cmp j = s.cmp j := rfl
@[simp] theorem State.wb_cap_at (s : State) (a i : Nat) (b : Bool) (j : Nat) : (s.wb a i b).cap j = s.cap j := rfl
@[simp] theorem State.wb_sdf_at (s : State) (a i : Nat) (b : Bool) (j : Nat) : (s.wb a i b).sdf j = s.sdf j := rfl
@[simp] theorem State.wb_ctr_at (s : State) (a i : Nat) (b : Bool) (j : Nat) : (s.wb a i b).ctr j = s.ctr j := rfl
@[simp] theorem State.wb_pcore_at (s : State) (a i : Nat) (b : Bool) (j : Nat) : (s.wb a i b).pcore j = s.pcore j := rfl
@[simp] theorem State.wb_core_at (s : State) (a i : Nat) (b : Bool) (j : Nat) : (s.wb a i b).core j = s.core j := rfl
@[simp] theorem State.wb_point_at (s : State) (a i : Nat) (b : Bool) (j : Nat) : (s.wb a i b).point j = s.point j := rfl
@[simp] theorem State.wb_queue_at (s : State) (a i : Nat) (b : Bool) (j : Nat) : (s.wb a i b).queue j = s.queue j := rfl

/-! ### `after` -/

@[simp] theorem State.after_pending (s : State) (ns : Nat) (a : Act) : (s.after ns a).pending = s.pending := rfl
@[simp] theorem State.after_clk (s : State) (ns : Nat) (a : Act) : (s.after ns a).clk = s.clk := rfl
@[simp] theorem State.after_free (s : State) (ns : Nat) (a : Act) : (s.after ns a).free = s.free := rfl
@[simp] theorem State.after_lastRead (s : State) (ns : Nat) (a : Act) : (s.after ns a).lastRead = s.lastRead := rfl
@[simp] theorem State.after_regs (s : State) (ns : Nat) (a : Act) : (s.after ns a).regs = s.regs := rfl
@[simp] theorem State.after_mem (s : State) (ns : Nat) (a : Act) : (s.after ns a).mem = s.mem := rfl
@[simp] theorem State.after_gt (s : State) (ns : Nat) (a : Act) : (s.after ns a).gt = s.gt := rfl
@[simp] theorem State.after_bases (s : State) (ns : Nat) (a : Act) : (s.after ns a).bases = s.bases := rfl
@[simp] theorem State.after_cmps (s : State) (ns : Nat) (a : Act) : (s.after ns a).cmps = s.cmps := rfl
@[simp] theorem State.after_crossed (s : State) (ns : Nat) (a : Act) : (s.after ns a).crossed = s.crossed := rfl
@[simp] theorem State.after_pins (s : State) (ns : Nat) (a : Act) : (s.after ns a).pins = s.pins := rfl
@[simp] theorem State.after_banks (s : State) (ns : Nat) (a : Act) : (s.after ns a).banks = s.banks := rfl
@[simp] theorem State.after_caps (s : State) (ns : Nat) (a : Act) : (s.after ns a).caps = s.caps := rfl
@[simp] theorem State.after_sdfs (s : State) (ns : Nat) (a : Act) : (s.after ns a).sdfs = s.sdfs := rfl
@[simp] theorem State.after_ctrs (s : State) (ns : Nat) (a : Act) : (s.after ns a).ctrs = s.ctrs := rfl
@[simp] theorem State.after_locks (s : State) (ns : Nat) (a : Act) : (s.after ns a).locks = s.locks := rfl
@[simp] theorem State.after_sheet (s : State) (ns : Nat) (a : Act) : (s.after ns a).sheet = s.sheet := rfl
@[simp] theorem State.after_cores (s : State) (ns : Nat) (a : Act) : (s.after ns a).cores = s.cores := rfl
@[simp] theorem State.after_modes (s : State) (ns : Nat) (a : Act) : (s.after ns a).modes = s.modes := rfl
@[simp] theorem State.after_spare (s : State) (ns : Nat) (a : Act) : (s.after ns a).spare = s.spare := rfl
@[simp] theorem State.after_poison (s : State) (ns : Nat) (a : Act) : (s.after ns a).poison = s.poison := rfl
@[simp] theorem State.after_pcores (s : State) (ns : Nat) (a : Act) : (s.after ns a).pcores = s.pcores := rfl
@[simp] theorem State.after_arbs (s : State) (ns : Nat) (a : Act) : (s.after ns a).arbs = s.arbs := rfl
@[simp] theorem State.after_work (s : State) (ns : Nat) (a : Act) : (s.after ns a).work = s.work := rfl
@[simp] theorem State.after_nextTag (s : State) (ns : Nat) (a : Act) : (s.after ns a).nextTag = s.nextTag := rfl
@[simp] theorem State.after_mcs (s : State) (ns : Nat) (a : Act) : (s.after ns a).mcs = s.mcs := rfl
@[simp] theorem State.after_homes (s : State) (ns : Nat) (a : Act) : (s.after ns a).homes = s.homes := rfl
@[simp] theorem State.after_ert (s : State) (ns : Nat) (a : Act) : (s.after ns a).ert = s.ert := rfl
@[simp] theorem State.after_posting (s : State) (ns : Nat) (a : Act) : (s.after ns a).posting = s.posting := rfl
@[simp] theorem State.after_points (s : State) (ns : Nat) (a : Act) : (s.after ns a).points = s.points := rfl
@[simp] theorem State.after_queues (s : State) (ns : Nat) (a : Act) : (s.after ns a).queues = s.queues := rfl
@[simp] theorem State.after_qes (s : State) (ns : Nat) (a : Act) : (s.after ns a).qes = s.qes := rfl
@[simp] theorem State.after_net (s : State) (ns : Nat) (a : Act) : (s.after ns a).net = s.net := rfl
@[simp] theorem State.after_enc (s : State) (ns : Nat) (a : Act) : (s.after ns a).enc = s.enc := rfl
@[simp] theorem State.after_pair (s : State) (ns : Nat) (a : Act) : (s.after ns a).pair = s.pair := rfl
@[simp] theorem State.after_lemam (s : State) (ns : Nat) (a : Act) : (s.after ns a).lemam = s.lemam := rfl
@[simp] theorem State.after_dbg (s : State) (ns : Nat) (a : Act) : (s.after ns a).dbg = s.dbg := rfl
@[simp] theorem State.after_rd (s : State) (ns : Nat) (a : Act) (r : Nat) : (s.after ns a).rd r = s.rd r := rfl
@[simp] theorem State.after_byte (s : State) (ns : Nat) (a : Act) (r : Nat) : (s.after ns a).byte r = s.byte r := rfl
@[simp] theorem State.after_arb_at (s : State) (ns : Nat) (a : Act) (j : Nat) : (s.after ns a).arb j = s.arb j := rfl
@[simp] theorem State.after_mc_at (s : State) (ns : Nat) (a : Act) (j : Nat) : (s.after ns a).mc j = s.mc j := rfl
@[simp] theorem State.after_home_at (s : State) (ns : Nat) (a : Act) (j : Nat) : (s.after ns a).home j = s.home j := rfl
@[simp] theorem State.after_pin_at (s : State) (ns : Nat) (a : Act) (j : Nat) : (s.after ns a).pin j = s.pin j := rfl
@[simp] theorem State.after_base_at (s : State) (ns : Nat) (a : Act) (j : Nat) : (s.after ns a).base j = s.base j := rfl
@[simp] theorem State.after_bank_at (s : State) (ns : Nat) (a : Act) (j : Nat) : (s.after ns a).bank j = s.bank j := rfl
@[simp] theorem State.after_cmp_at (s : State) (ns : Nat) (a : Act) (j : Nat) : (s.after ns a).cmp j = s.cmp j := rfl
@[simp] theorem State.after_cap_at (s : State) (ns : Nat) (a : Act) (j : Nat) : (s.after ns a).cap j = s.cap j := rfl
@[simp] theorem State.after_sdf_at (s : State) (ns : Nat) (a : Act) (j : Nat) : (s.after ns a).sdf j = s.sdf j := rfl
@[simp] theorem State.after_ctr_at (s : State) (ns : Nat) (a : Act) (j : Nat) : (s.after ns a).ctr j = s.ctr j := rfl
@[simp] theorem State.after_pcore_at (s : State) (ns : Nat) (a : Act) (j : Nat) : (s.after ns a).pcore j = s.pcore j := rfl
@[simp] theorem State.after_core_at (s : State) (ns : Nat) (a : Act) (j : Nat) : (s.after ns a).core j = s.core j := rfl
@[simp] theorem State.after_point_at (s : State) (ns : Nat) (a : Act) (j : Nat) : (s.after ns a).point j = s.point j := rfl
@[simp] theorem State.after_queue_at (s : State) (ns : Nat) (a : Act) (j : Nat) : (s.after ns a).queue j = s.queue j := rfl

/-! ### `send` -/

@[simp] theorem State.send_pending (s : State) (ns : Nat) (i : Instr) : (s.send ns i).pending = s.pending := rfl
@[simp] theorem State.send_clk (s : State) (ns : Nat) (i : Instr) : (s.send ns i).clk = s.clk := rfl
@[simp] theorem State.send_free (s : State) (ns : Nat) (i : Instr) : (s.send ns i).free = s.free := rfl
@[simp] theorem State.send_lastRead (s : State) (ns : Nat) (i : Instr) : (s.send ns i).lastRead = s.lastRead := rfl
@[simp] theorem State.send_regs (s : State) (ns : Nat) (i : Instr) : (s.send ns i).regs = s.regs := rfl
@[simp] theorem State.send_mem (s : State) (ns : Nat) (i : Instr) : (s.send ns i).mem = s.mem := rfl
@[simp] theorem State.send_gt (s : State) (ns : Nat) (i : Instr) : (s.send ns i).gt = s.gt := rfl
@[simp] theorem State.send_bases (s : State) (ns : Nat) (i : Instr) : (s.send ns i).bases = s.bases := rfl
@[simp] theorem State.send_cmps (s : State) (ns : Nat) (i : Instr) : (s.send ns i).cmps = s.cmps := rfl
@[simp] theorem State.send_crossed (s : State) (ns : Nat) (i : Instr) : (s.send ns i).crossed = s.crossed := rfl
@[simp] theorem State.send_pins (s : State) (ns : Nat) (i : Instr) : (s.send ns i).pins = s.pins := rfl
@[simp] theorem State.send_banks (s : State) (ns : Nat) (i : Instr) : (s.send ns i).banks = s.banks := rfl
@[simp] theorem State.send_caps (s : State) (ns : Nat) (i : Instr) : (s.send ns i).caps = s.caps := rfl
@[simp] theorem State.send_sdfs (s : State) (ns : Nat) (i : Instr) : (s.send ns i).sdfs = s.sdfs := rfl
@[simp] theorem State.send_ctrs (s : State) (ns : Nat) (i : Instr) : (s.send ns i).ctrs = s.ctrs := rfl
@[simp] theorem State.send_locks (s : State) (ns : Nat) (i : Instr) : (s.send ns i).locks = s.locks := rfl
@[simp] theorem State.send_sheet (s : State) (ns : Nat) (i : Instr) : (s.send ns i).sheet = s.sheet := rfl
@[simp] theorem State.send_cores (s : State) (ns : Nat) (i : Instr) : (s.send ns i).cores = s.cores := rfl
@[simp] theorem State.send_modes (s : State) (ns : Nat) (i : Instr) : (s.send ns i).modes = s.modes := rfl
@[simp] theorem State.send_spare (s : State) (ns : Nat) (i : Instr) : (s.send ns i).spare = s.spare := rfl
@[simp] theorem State.send_poison (s : State) (ns : Nat) (i : Instr) : (s.send ns i).poison = s.poison := rfl
@[simp] theorem State.send_pcores (s : State) (ns : Nat) (i : Instr) : (s.send ns i).pcores = s.pcores := rfl
@[simp] theorem State.send_arbs (s : State) (ns : Nat) (i : Instr) : (s.send ns i).arbs = s.arbs := rfl
@[simp] theorem State.send_work (s : State) (ns : Nat) (i : Instr) : (s.send ns i).work = s.work := rfl
@[simp] theorem State.send_nextTag (s : State) (ns : Nat) (i : Instr) : (s.send ns i).nextTag = s.nextTag := rfl
@[simp] theorem State.send_mcs (s : State) (ns : Nat) (i : Instr) : (s.send ns i).mcs = s.mcs := rfl
@[simp] theorem State.send_homes (s : State) (ns : Nat) (i : Instr) : (s.send ns i).homes = s.homes := rfl
@[simp] theorem State.send_ert (s : State) (ns : Nat) (i : Instr) : (s.send ns i).ert = s.ert := rfl
@[simp] theorem State.send_posting (s : State) (ns : Nat) (i : Instr) : (s.send ns i).posting = s.posting := rfl
@[simp] theorem State.send_points (s : State) (ns : Nat) (i : Instr) : (s.send ns i).points = s.points := rfl
@[simp] theorem State.send_queues (s : State) (ns : Nat) (i : Instr) : (s.send ns i).queues = s.queues := rfl
@[simp] theorem State.send_qes (s : State) (ns : Nat) (i : Instr) : (s.send ns i).qes = s.qes := rfl
@[simp] theorem State.send_net (s : State) (ns : Nat) (i : Instr) : (s.send ns i).net = s.net := rfl
@[simp] theorem State.send_enc (s : State) (ns : Nat) (i : Instr) : (s.send ns i).enc = s.enc := rfl
@[simp] theorem State.send_pair (s : State) (ns : Nat) (i : Instr) : (s.send ns i).pair = s.pair := rfl
@[simp] theorem State.send_lemam (s : State) (ns : Nat) (i : Instr) : (s.send ns i).lemam = s.lemam := rfl
@[simp] theorem State.send_dbg (s : State) (ns : Nat) (i : Instr) : (s.send ns i).dbg = s.dbg := rfl
@[simp] theorem State.send_rd (s : State) (ns : Nat) (i : Instr) (r : Nat) : (s.send ns i).rd r = s.rd r := rfl
@[simp] theorem State.send_byte (s : State) (ns : Nat) (i : Instr) (r : Nat) : (s.send ns i).byte r = s.byte r := rfl
@[simp] theorem State.send_arb_at (s : State) (ns : Nat) (i : Instr) (j : Nat) : (s.send ns i).arb j = s.arb j := rfl
@[simp] theorem State.send_mc_at (s : State) (ns : Nat) (i : Instr) (j : Nat) : (s.send ns i).mc j = s.mc j := rfl
@[simp] theorem State.send_home_at (s : State) (ns : Nat) (i : Instr) (j : Nat) : (s.send ns i).home j = s.home j := rfl
@[simp] theorem State.send_pin_at (s : State) (ns : Nat) (i : Instr) (j : Nat) : (s.send ns i).pin j = s.pin j := rfl
@[simp] theorem State.send_base_at (s : State) (ns : Nat) (i : Instr) (j : Nat) : (s.send ns i).base j = s.base j := rfl
@[simp] theorem State.send_bank_at (s : State) (ns : Nat) (i : Instr) (j : Nat) : (s.send ns i).bank j = s.bank j := rfl
@[simp] theorem State.send_cmp_at (s : State) (ns : Nat) (i : Instr) (j : Nat) : (s.send ns i).cmp j = s.cmp j := rfl
@[simp] theorem State.send_cap_at (s : State) (ns : Nat) (i : Instr) (j : Nat) : (s.send ns i).cap j = s.cap j := rfl
@[simp] theorem State.send_sdf_at (s : State) (ns : Nat) (i : Instr) (j : Nat) : (s.send ns i).sdf j = s.sdf j := rfl
@[simp] theorem State.send_ctr_at (s : State) (ns : Nat) (i : Instr) (j : Nat) : (s.send ns i).ctr j = s.ctr j := rfl
@[simp] theorem State.send_pcore_at (s : State) (ns : Nat) (i : Instr) (j : Nat) : (s.send ns i).pcore j = s.pcore j := rfl
@[simp] theorem State.send_core_at (s : State) (ns : Nat) (i : Instr) (j : Nat) : (s.send ns i).core j = s.core j := rfl
@[simp] theorem State.send_point_at (s : State) (ns : Nat) (i : Instr) (j : Nat) : (s.send ns i).point j = s.point j := rfl
@[simp] theorem State.send_queue_at (s : State) (ns : Nat) (i : Instr) (j : Nat) : (s.send ns i).queue j = s.queue j := rfl

/-! ### `setByte` -/

@[simp] theorem State.setByte_pending (s : State) (a : Nat) (v : Byte) : (s.setByte a v).pending = s.pending := rfl
@[simp] theorem State.setByte_agenda (s : State) (a : Nat) (v : Byte) : (s.setByte a v).agenda = s.agenda := rfl
@[simp] theorem State.setByte_clk (s : State) (a : Nat) (v : Byte) : (s.setByte a v).clk = s.clk := rfl
@[simp] theorem State.setByte_free (s : State) (a : Nat) (v : Byte) : (s.setByte a v).free = s.free := rfl
@[simp] theorem State.setByte_lastRead (s : State) (a : Nat) (v : Byte) : (s.setByte a v).lastRead = s.lastRead := rfl
@[simp] theorem State.setByte_regs (s : State) (a : Nat) (v : Byte) : (s.setByte a v).regs = s.regs := rfl
@[simp] theorem State.setByte_gt (s : State) (a : Nat) (v : Byte) : (s.setByte a v).gt = s.gt := rfl
@[simp] theorem State.setByte_bases (s : State) (a : Nat) (v : Byte) : (s.setByte a v).bases = s.bases := rfl
@[simp] theorem State.setByte_cmps (s : State) (a : Nat) (v : Byte) : (s.setByte a v).cmps = s.cmps := rfl
@[simp] theorem State.setByte_crossed (s : State) (a : Nat) (v : Byte) : (s.setByte a v).crossed = s.crossed := rfl
@[simp] theorem State.setByte_pins (s : State) (a : Nat) (v : Byte) : (s.setByte a v).pins = s.pins := rfl
@[simp] theorem State.setByte_banks (s : State) (a : Nat) (v : Byte) : (s.setByte a v).banks = s.banks := rfl
@[simp] theorem State.setByte_caps (s : State) (a : Nat) (v : Byte) : (s.setByte a v).caps = s.caps := rfl
@[simp] theorem State.setByte_sdfs (s : State) (a : Nat) (v : Byte) : (s.setByte a v).sdfs = s.sdfs := rfl
@[simp] theorem State.setByte_ctrs (s : State) (a : Nat) (v : Byte) : (s.setByte a v).ctrs = s.ctrs := rfl
@[simp] theorem State.setByte_locks (s : State) (a : Nat) (v : Byte) : (s.setByte a v).locks = s.locks := rfl
@[simp] theorem State.setByte_sheet (s : State) (a : Nat) (v : Byte) : (s.setByte a v).sheet = s.sheet := rfl
@[simp] theorem State.setByte_cores (s : State) (a : Nat) (v : Byte) : (s.setByte a v).cores = s.cores := rfl
@[simp] theorem State.setByte_modes (s : State) (a : Nat) (v : Byte) : (s.setByte a v).modes = s.modes := rfl
@[simp] theorem State.setByte_spare (s : State) (a : Nat) (v : Byte) : (s.setByte a v).spare = s.spare := rfl
@[simp] theorem State.setByte_poison (s : State) (a : Nat) (v : Byte) : (s.setByte a v).poison = s.poison := rfl
@[simp] theorem State.setByte_pcores (s : State) (a : Nat) (v : Byte) : (s.setByte a v).pcores = s.pcores := rfl
@[simp] theorem State.setByte_arbs (s : State) (a : Nat) (v : Byte) : (s.setByte a v).arbs = s.arbs := rfl
@[simp] theorem State.setByte_work (s : State) (a : Nat) (v : Byte) : (s.setByte a v).work = s.work := rfl
@[simp] theorem State.setByte_nextTag (s : State) (a : Nat) (v : Byte) : (s.setByte a v).nextTag = s.nextTag := rfl
@[simp] theorem State.setByte_mcs (s : State) (a : Nat) (v : Byte) : (s.setByte a v).mcs = s.mcs := rfl
@[simp] theorem State.setByte_homes (s : State) (a : Nat) (v : Byte) : (s.setByte a v).homes = s.homes := rfl
@[simp] theorem State.setByte_ert (s : State) (a : Nat) (v : Byte) : (s.setByte a v).ert = s.ert := rfl
@[simp] theorem State.setByte_posting (s : State) (a : Nat) (v : Byte) : (s.setByte a v).posting = s.posting := rfl
@[simp] theorem State.setByte_points (s : State) (a : Nat) (v : Byte) : (s.setByte a v).points = s.points := rfl
@[simp] theorem State.setByte_queues (s : State) (a : Nat) (v : Byte) : (s.setByte a v).queues = s.queues := rfl
@[simp] theorem State.setByte_qes (s : State) (a : Nat) (v : Byte) : (s.setByte a v).qes = s.qes := rfl
@[simp] theorem State.setByte_net (s : State) (a : Nat) (v : Byte) : (s.setByte a v).net = s.net := rfl
@[simp] theorem State.setByte_enc (s : State) (a : Nat) (v : Byte) : (s.setByte a v).enc = s.enc := rfl
@[simp] theorem State.setByte_pair (s : State) (a : Nat) (v : Byte) : (s.setByte a v).pair = s.pair := rfl
@[simp] theorem State.setByte_lemam (s : State) (a : Nat) (v : Byte) : (s.setByte a v).lemam = s.lemam := rfl
@[simp] theorem State.setByte_dbg (s : State) (a : Nat) (v : Byte) : (s.setByte a v).dbg = s.dbg := rfl
@[simp] theorem State.setByte_rd (s : State) (a : Nat) (v : Byte) (r : Nat) : (s.setByte a v).rd r = s.rd r := rfl
@[simp] theorem State.setByte_arb_at (s : State) (a : Nat) (v : Byte) (j : Nat) : (s.setByte a v).arb j = s.arb j := rfl
@[simp] theorem State.setByte_mc_at (s : State) (a : Nat) (v : Byte) (j : Nat) : (s.setByte a v).mc j = s.mc j := rfl
@[simp] theorem State.setByte_home_at (s : State) (a : Nat) (v : Byte) (j : Nat) : (s.setByte a v).home j = s.home j := rfl
@[simp] theorem State.setByte_pin_at (s : State) (a : Nat) (v : Byte) (j : Nat) : (s.setByte a v).pin j = s.pin j := rfl
@[simp] theorem State.setByte_base_at (s : State) (a : Nat) (v : Byte) (j : Nat) : (s.setByte a v).base j = s.base j := rfl
@[simp] theorem State.setByte_bank_at (s : State) (a : Nat) (v : Byte) (j : Nat) : (s.setByte a v).bank j = s.bank j := rfl
@[simp] theorem State.setByte_cmp_at (s : State) (a : Nat) (v : Byte) (j : Nat) : (s.setByte a v).cmp j = s.cmp j := rfl
@[simp] theorem State.setByte_cap_at (s : State) (a : Nat) (v : Byte) (j : Nat) : (s.setByte a v).cap j = s.cap j := rfl
@[simp] theorem State.setByte_sdf_at (s : State) (a : Nat) (v : Byte) (j : Nat) : (s.setByte a v).sdf j = s.sdf j := rfl
@[simp] theorem State.setByte_ctr_at (s : State) (a : Nat) (v : Byte) (j : Nat) : (s.setByte a v).ctr j = s.ctr j := rfl
@[simp] theorem State.setByte_pcore_at (s : State) (a : Nat) (v : Byte) (j : Nat) : (s.setByte a v).pcore j = s.pcore j := rfl
@[simp] theorem State.setByte_core_at (s : State) (a : Nat) (v : Byte) (j : Nat) : (s.setByte a v).core j = s.core j := rfl
@[simp] theorem State.setByte_point_at (s : State) (a : Nat) (v : Byte) (j : Nat) : (s.setByte a v).point j = s.point j := rfl
@[simp] theorem State.setByte_queue_at (s : State) (a : Nat) (v : Byte) (j : Nat) : (s.setByte a v).queue j = s.queue j := rfl

/-! ### `setPoison` -/

@[simp] theorem State.setPoison_pending (s : State) (a : Nat) (p : Bool) : (s.setPoison a p).pending = s.pending := rfl
@[simp] theorem State.setPoison_agenda (s : State) (a : Nat) (p : Bool) : (s.setPoison a p).agenda = s.agenda := rfl
@[simp] theorem State.setPoison_clk (s : State) (a : Nat) (p : Bool) : (s.setPoison a p).clk = s.clk := rfl
@[simp] theorem State.setPoison_free (s : State) (a : Nat) (p : Bool) : (s.setPoison a p).free = s.free := rfl
@[simp] theorem State.setPoison_lastRead (s : State) (a : Nat) (p : Bool) : (s.setPoison a p).lastRead = s.lastRead := rfl
@[simp] theorem State.setPoison_regs (s : State) (a : Nat) (p : Bool) : (s.setPoison a p).regs = s.regs := rfl
@[simp] theorem State.setPoison_mem (s : State) (a : Nat) (p : Bool) : (s.setPoison a p).mem = s.mem := rfl
@[simp] theorem State.setPoison_gt (s : State) (a : Nat) (p : Bool) : (s.setPoison a p).gt = s.gt := rfl
@[simp] theorem State.setPoison_bases (s : State) (a : Nat) (p : Bool) : (s.setPoison a p).bases = s.bases := rfl
@[simp] theorem State.setPoison_cmps (s : State) (a : Nat) (p : Bool) : (s.setPoison a p).cmps = s.cmps := rfl
@[simp] theorem State.setPoison_crossed (s : State) (a : Nat) (p : Bool) : (s.setPoison a p).crossed = s.crossed := rfl
@[simp] theorem State.setPoison_pins (s : State) (a : Nat) (p : Bool) : (s.setPoison a p).pins = s.pins := rfl
@[simp] theorem State.setPoison_banks (s : State) (a : Nat) (p : Bool) : (s.setPoison a p).banks = s.banks := rfl
@[simp] theorem State.setPoison_caps (s : State) (a : Nat) (p : Bool) : (s.setPoison a p).caps = s.caps := rfl
@[simp] theorem State.setPoison_sdfs (s : State) (a : Nat) (p : Bool) : (s.setPoison a p).sdfs = s.sdfs := rfl
@[simp] theorem State.setPoison_ctrs (s : State) (a : Nat) (p : Bool) : (s.setPoison a p).ctrs = s.ctrs := rfl
@[simp] theorem State.setPoison_locks (s : State) (a : Nat) (p : Bool) : (s.setPoison a p).locks = s.locks := rfl
@[simp] theorem State.setPoison_sheet (s : State) (a : Nat) (p : Bool) : (s.setPoison a p).sheet = s.sheet := rfl
@[simp] theorem State.setPoison_cores (s : State) (a : Nat) (p : Bool) : (s.setPoison a p).cores = s.cores := rfl
@[simp] theorem State.setPoison_modes (s : State) (a : Nat) (p : Bool) : (s.setPoison a p).modes = s.modes := rfl
@[simp] theorem State.setPoison_spare (s : State) (a : Nat) (p : Bool) : (s.setPoison a p).spare = s.spare := rfl
@[simp] theorem State.setPoison_pcores (s : State) (a : Nat) (p : Bool) : (s.setPoison a p).pcores = s.pcores := rfl
@[simp] theorem State.setPoison_arbs (s : State) (a : Nat) (p : Bool) : (s.setPoison a p).arbs = s.arbs := rfl
@[simp] theorem State.setPoison_work (s : State) (a : Nat) (p : Bool) : (s.setPoison a p).work = s.work := rfl
@[simp] theorem State.setPoison_nextTag (s : State) (a : Nat) (p : Bool) : (s.setPoison a p).nextTag = s.nextTag := rfl
@[simp] theorem State.setPoison_mcs (s : State) (a : Nat) (p : Bool) : (s.setPoison a p).mcs = s.mcs := rfl
@[simp] theorem State.setPoison_homes (s : State) (a : Nat) (p : Bool) : (s.setPoison a p).homes = s.homes := rfl
@[simp] theorem State.setPoison_ert (s : State) (a : Nat) (p : Bool) : (s.setPoison a p).ert = s.ert := rfl
@[simp] theorem State.setPoison_posting (s : State) (a : Nat) (p : Bool) : (s.setPoison a p).posting = s.posting := rfl
@[simp] theorem State.setPoison_points (s : State) (a : Nat) (p : Bool) : (s.setPoison a p).points = s.points := rfl
@[simp] theorem State.setPoison_queues (s : State) (a : Nat) (p : Bool) : (s.setPoison a p).queues = s.queues := rfl
@[simp] theorem State.setPoison_qes (s : State) (a : Nat) (p : Bool) : (s.setPoison a p).qes = s.qes := rfl
@[simp] theorem State.setPoison_net (s : State) (a : Nat) (p : Bool) : (s.setPoison a p).net = s.net := rfl
@[simp] theorem State.setPoison_enc (s : State) (a : Nat) (p : Bool) : (s.setPoison a p).enc = s.enc := rfl
@[simp] theorem State.setPoison_pair (s : State) (a : Nat) (p : Bool) : (s.setPoison a p).pair = s.pair := rfl
@[simp] theorem State.setPoison_lemam (s : State) (a : Nat) (p : Bool) : (s.setPoison a p).lemam = s.lemam := rfl
@[simp] theorem State.setPoison_dbg (s : State) (a : Nat) (p : Bool) : (s.setPoison a p).dbg = s.dbg := rfl
@[simp] theorem State.setPoison_rd (s : State) (a : Nat) (p : Bool) (r : Nat) : (s.setPoison a p).rd r = s.rd r := rfl
@[simp] theorem State.setPoison_byte (s : State) (a : Nat) (p : Bool) (r : Nat) : (s.setPoison a p).byte r = s.byte r := rfl
@[simp] theorem State.setPoison_arb_at (s : State) (a : Nat) (p : Bool) (j : Nat) : (s.setPoison a p).arb j = s.arb j := rfl
@[simp] theorem State.setPoison_mc_at (s : State) (a : Nat) (p : Bool) (j : Nat) : (s.setPoison a p).mc j = s.mc j := rfl
@[simp] theorem State.setPoison_home_at (s : State) (a : Nat) (p : Bool) (j : Nat) : (s.setPoison a p).home j = s.home j := rfl
@[simp] theorem State.setPoison_pin_at (s : State) (a : Nat) (p : Bool) (j : Nat) : (s.setPoison a p).pin j = s.pin j := rfl
@[simp] theorem State.setPoison_base_at (s : State) (a : Nat) (p : Bool) (j : Nat) : (s.setPoison a p).base j = s.base j := rfl
@[simp] theorem State.setPoison_bank_at (s : State) (a : Nat) (p : Bool) (j : Nat) : (s.setPoison a p).bank j = s.bank j := rfl
@[simp] theorem State.setPoison_cmp_at (s : State) (a : Nat) (p : Bool) (j : Nat) : (s.setPoison a p).cmp j = s.cmp j := rfl
@[simp] theorem State.setPoison_cap_at (s : State) (a : Nat) (p : Bool) (j : Nat) : (s.setPoison a p).cap j = s.cap j := rfl
@[simp] theorem State.setPoison_sdf_at (s : State) (a : Nat) (p : Bool) (j : Nat) : (s.setPoison a p).sdf j = s.sdf j := rfl
@[simp] theorem State.setPoison_ctr_at (s : State) (a : Nat) (p : Bool) (j : Nat) : (s.setPoison a p).ctr j = s.ctr j := rfl
@[simp] theorem State.setPoison_pcore_at (s : State) (a : Nat) (p : Bool) (j : Nat) : (s.setPoison a p).pcore j = s.pcore j := rfl
@[simp] theorem State.setPoison_core_at (s : State) (a : Nat) (p : Bool) (j : Nat) : (s.setPoison a p).core j = s.core j := rfl
@[simp] theorem State.setPoison_point_at (s : State) (a : Nat) (p : Bool) (j : Nat) : (s.setPoison a p).point j = s.point j := rfl
@[simp] theorem State.setPoison_queue_at (s : State) (a : Nat) (p : Bool) (j : Nat) : (s.setPoison a p).queue j = s.queue j := rfl

/-! ### `dropWork` -/

@[simp] theorem State.dropWork_pending (s : State) (tag : Nat) : (s.dropWork tag).pending = s.pending := rfl
@[simp] theorem State.dropWork_agenda (s : State) (tag : Nat) : (s.dropWork tag).agenda = s.agenda := rfl
@[simp] theorem State.dropWork_clk (s : State) (tag : Nat) : (s.dropWork tag).clk = s.clk := rfl
@[simp] theorem State.dropWork_free (s : State) (tag : Nat) : (s.dropWork tag).free = s.free := rfl
@[simp] theorem State.dropWork_lastRead (s : State) (tag : Nat) : (s.dropWork tag).lastRead = s.lastRead := rfl
@[simp] theorem State.dropWork_regs (s : State) (tag : Nat) : (s.dropWork tag).regs = s.regs := rfl
@[simp] theorem State.dropWork_mem (s : State) (tag : Nat) : (s.dropWork tag).mem = s.mem := rfl
@[simp] theorem State.dropWork_gt (s : State) (tag : Nat) : (s.dropWork tag).gt = s.gt := rfl
@[simp] theorem State.dropWork_bases (s : State) (tag : Nat) : (s.dropWork tag).bases = s.bases := rfl
@[simp] theorem State.dropWork_cmps (s : State) (tag : Nat) : (s.dropWork tag).cmps = s.cmps := rfl
@[simp] theorem State.dropWork_crossed (s : State) (tag : Nat) : (s.dropWork tag).crossed = s.crossed := rfl
@[simp] theorem State.dropWork_pins (s : State) (tag : Nat) : (s.dropWork tag).pins = s.pins := rfl
@[simp] theorem State.dropWork_banks (s : State) (tag : Nat) : (s.dropWork tag).banks = s.banks := rfl
@[simp] theorem State.dropWork_caps (s : State) (tag : Nat) : (s.dropWork tag).caps = s.caps := rfl
@[simp] theorem State.dropWork_sdfs (s : State) (tag : Nat) : (s.dropWork tag).sdfs = s.sdfs := rfl
@[simp] theorem State.dropWork_ctrs (s : State) (tag : Nat) : (s.dropWork tag).ctrs = s.ctrs := rfl
@[simp] theorem State.dropWork_locks (s : State) (tag : Nat) : (s.dropWork tag).locks = s.locks := rfl
@[simp] theorem State.dropWork_sheet (s : State) (tag : Nat) : (s.dropWork tag).sheet = s.sheet := rfl
@[simp] theorem State.dropWork_cores (s : State) (tag : Nat) : (s.dropWork tag).cores = s.cores := rfl
@[simp] theorem State.dropWork_modes (s : State) (tag : Nat) : (s.dropWork tag).modes = s.modes := rfl
@[simp] theorem State.dropWork_spare (s : State) (tag : Nat) : (s.dropWork tag).spare = s.spare := rfl
@[simp] theorem State.dropWork_poison (s : State) (tag : Nat) : (s.dropWork tag).poison = s.poison := rfl
@[simp] theorem State.dropWork_pcores (s : State) (tag : Nat) : (s.dropWork tag).pcores = s.pcores := rfl
@[simp] theorem State.dropWork_arbs (s : State) (tag : Nat) : (s.dropWork tag).arbs = s.arbs := rfl
@[simp] theorem State.dropWork_nextTag (s : State) (tag : Nat) : (s.dropWork tag).nextTag = s.nextTag := rfl
@[simp] theorem State.dropWork_mcs (s : State) (tag : Nat) : (s.dropWork tag).mcs = s.mcs := rfl
@[simp] theorem State.dropWork_homes (s : State) (tag : Nat) : (s.dropWork tag).homes = s.homes := rfl
@[simp] theorem State.dropWork_ert (s : State) (tag : Nat) : (s.dropWork tag).ert = s.ert := rfl
@[simp] theorem State.dropWork_posting (s : State) (tag : Nat) : (s.dropWork tag).posting = s.posting := rfl
@[simp] theorem State.dropWork_points (s : State) (tag : Nat) : (s.dropWork tag).points = s.points := rfl
@[simp] theorem State.dropWork_queues (s : State) (tag : Nat) : (s.dropWork tag).queues = s.queues := rfl
@[simp] theorem State.dropWork_qes (s : State) (tag : Nat) : (s.dropWork tag).qes = s.qes := rfl
@[simp] theorem State.dropWork_net (s : State) (tag : Nat) : (s.dropWork tag).net = s.net := rfl
@[simp] theorem State.dropWork_enc (s : State) (tag : Nat) : (s.dropWork tag).enc = s.enc := rfl
@[simp] theorem State.dropWork_pair (s : State) (tag : Nat) : (s.dropWork tag).pair = s.pair := rfl
@[simp] theorem State.dropWork_lemam (s : State) (tag : Nat) : (s.dropWork tag).lemam = s.lemam := rfl
@[simp] theorem State.dropWork_dbg (s : State) (tag : Nat) : (s.dropWork tag).dbg = s.dbg := rfl
@[simp] theorem State.dropWork_rd (s : State) (tag : Nat) (r : Nat) : (s.dropWork tag).rd r = s.rd r := rfl
@[simp] theorem State.dropWork_byte (s : State) (tag : Nat) (r : Nat) : (s.dropWork tag).byte r = s.byte r := rfl
@[simp] theorem State.dropWork_arb_at (s : State) (tag : Nat) (j : Nat) : (s.dropWork tag).arb j = s.arb j := rfl
@[simp] theorem State.dropWork_mc_at (s : State) (tag : Nat) (j : Nat) : (s.dropWork tag).mc j = s.mc j := rfl
@[simp] theorem State.dropWork_home_at (s : State) (tag : Nat) (j : Nat) : (s.dropWork tag).home j = s.home j := rfl
@[simp] theorem State.dropWork_pin_at (s : State) (tag : Nat) (j : Nat) : (s.dropWork tag).pin j = s.pin j := rfl
@[simp] theorem State.dropWork_base_at (s : State) (tag : Nat) (j : Nat) : (s.dropWork tag).base j = s.base j := rfl
@[simp] theorem State.dropWork_bank_at (s : State) (tag : Nat) (j : Nat) : (s.dropWork tag).bank j = s.bank j := rfl
@[simp] theorem State.dropWork_cmp_at (s : State) (tag : Nat) (j : Nat) : (s.dropWork tag).cmp j = s.cmp j := rfl
@[simp] theorem State.dropWork_cap_at (s : State) (tag : Nat) (j : Nat) : (s.dropWork tag).cap j = s.cap j := rfl
@[simp] theorem State.dropWork_sdf_at (s : State) (tag : Nat) (j : Nat) : (s.dropWork tag).sdf j = s.sdf j := rfl
@[simp] theorem State.dropWork_ctr_at (s : State) (tag : Nat) (j : Nat) : (s.dropWork tag).ctr j = s.ctr j := rfl
@[simp] theorem State.dropWork_pcore_at (s : State) (tag : Nat) (j : Nat) : (s.dropWork tag).pcore j = s.pcore j := rfl
@[simp] theorem State.dropWork_core_at (s : State) (tag : Nat) (j : Nat) : (s.dropWork tag).core j = s.core j := rfl
@[simp] theorem State.dropWork_point_at (s : State) (tag : Nat) (j : Nat) : (s.dropWork tag).point j = s.point j := rfl
@[simp] theorem State.dropWork_queue_at (s : State) (tag : Nat) (j : Nat) : (s.dropWork tag).queue j = s.queue j := rfl

/-! ### `setArb` -/

@[simp] theorem State.setArb_pending (s : State) (a : Nat) (x : Arb) : (s.setArb a x).pending = s.pending := rfl
@[simp] theorem State.setArb_agenda (s : State) (a : Nat) (x : Arb) : (s.setArb a x).agenda = s.agenda := rfl
@[simp] theorem State.setArb_clk (s : State) (a : Nat) (x : Arb) : (s.setArb a x).clk = s.clk := rfl
@[simp] theorem State.setArb_free (s : State) (a : Nat) (x : Arb) : (s.setArb a x).free = s.free := rfl
@[simp] theorem State.setArb_lastRead (s : State) (a : Nat) (x : Arb) : (s.setArb a x).lastRead = s.lastRead := rfl
@[simp] theorem State.setArb_regs (s : State) (a : Nat) (x : Arb) : (s.setArb a x).regs = s.regs := rfl
@[simp] theorem State.setArb_mem (s : State) (a : Nat) (x : Arb) : (s.setArb a x).mem = s.mem := rfl
@[simp] theorem State.setArb_gt (s : State) (a : Nat) (x : Arb) : (s.setArb a x).gt = s.gt := rfl
@[simp] theorem State.setArb_bases (s : State) (a : Nat) (x : Arb) : (s.setArb a x).bases = s.bases := rfl
@[simp] theorem State.setArb_cmps (s : State) (a : Nat) (x : Arb) : (s.setArb a x).cmps = s.cmps := rfl
@[simp] theorem State.setArb_crossed (s : State) (a : Nat) (x : Arb) : (s.setArb a x).crossed = s.crossed := rfl
@[simp] theorem State.setArb_pins (s : State) (a : Nat) (x : Arb) : (s.setArb a x).pins = s.pins := rfl
@[simp] theorem State.setArb_banks (s : State) (a : Nat) (x : Arb) : (s.setArb a x).banks = s.banks := rfl
@[simp] theorem State.setArb_caps (s : State) (a : Nat) (x : Arb) : (s.setArb a x).caps = s.caps := rfl
@[simp] theorem State.setArb_sdfs (s : State) (a : Nat) (x : Arb) : (s.setArb a x).sdfs = s.sdfs := rfl
@[simp] theorem State.setArb_ctrs (s : State) (a : Nat) (x : Arb) : (s.setArb a x).ctrs = s.ctrs := rfl
@[simp] theorem State.setArb_locks (s : State) (a : Nat) (x : Arb) : (s.setArb a x).locks = s.locks := rfl
@[simp] theorem State.setArb_sheet (s : State) (a : Nat) (x : Arb) : (s.setArb a x).sheet = s.sheet := rfl
@[simp] theorem State.setArb_cores (s : State) (a : Nat) (x : Arb) : (s.setArb a x).cores = s.cores := rfl
@[simp] theorem State.setArb_modes (s : State) (a : Nat) (x : Arb) : (s.setArb a x).modes = s.modes := rfl
@[simp] theorem State.setArb_spare (s : State) (a : Nat) (x : Arb) : (s.setArb a x).spare = s.spare := rfl
@[simp] theorem State.setArb_poison (s : State) (a : Nat) (x : Arb) : (s.setArb a x).poison = s.poison := rfl
@[simp] theorem State.setArb_pcores (s : State) (a : Nat) (x : Arb) : (s.setArb a x).pcores = s.pcores := rfl
@[simp] theorem State.setArb_work (s : State) (a : Nat) (x : Arb) : (s.setArb a x).work = s.work := rfl
@[simp] theorem State.setArb_nextTag (s : State) (a : Nat) (x : Arb) : (s.setArb a x).nextTag = s.nextTag := rfl
@[simp] theorem State.setArb_mcs (s : State) (a : Nat) (x : Arb) : (s.setArb a x).mcs = s.mcs := rfl
@[simp] theorem State.setArb_homes (s : State) (a : Nat) (x : Arb) : (s.setArb a x).homes = s.homes := rfl
@[simp] theorem State.setArb_ert (s : State) (a : Nat) (x : Arb) : (s.setArb a x).ert = s.ert := rfl
@[simp] theorem State.setArb_posting (s : State) (a : Nat) (x : Arb) : (s.setArb a x).posting = s.posting := rfl
@[simp] theorem State.setArb_points (s : State) (a : Nat) (x : Arb) : (s.setArb a x).points = s.points := rfl
@[simp] theorem State.setArb_queues (s : State) (a : Nat) (x : Arb) : (s.setArb a x).queues = s.queues := rfl
@[simp] theorem State.setArb_qes (s : State) (a : Nat) (x : Arb) : (s.setArb a x).qes = s.qes := rfl
@[simp] theorem State.setArb_net (s : State) (a : Nat) (x : Arb) : (s.setArb a x).net = s.net := rfl
@[simp] theorem State.setArb_enc (s : State) (a : Nat) (x : Arb) : (s.setArb a x).enc = s.enc := rfl
@[simp] theorem State.setArb_pair (s : State) (a : Nat) (x : Arb) : (s.setArb a x).pair = s.pair := rfl
@[simp] theorem State.setArb_lemam (s : State) (a : Nat) (x : Arb) : (s.setArb a x).lemam = s.lemam := rfl
@[simp] theorem State.setArb_dbg (s : State) (a : Nat) (x : Arb) : (s.setArb a x).dbg = s.dbg := rfl
@[simp] theorem State.setArb_rd (s : State) (a : Nat) (x : Arb) (r : Nat) : (s.setArb a x).rd r = s.rd r := rfl
@[simp] theorem State.setArb_byte (s : State) (a : Nat) (x : Arb) (r : Nat) : (s.setArb a x).byte r = s.byte r := rfl
@[simp] theorem State.setArb_arb_same (s : State) (a : Nat) (x : Arb) : (s.setArb a x).arb a = x := by simp [State.arb, State.setArb]
theorem State.setArb_arb_ne (s : State) (a : Nat) (x : Arb) (j : Nat) (h : a ≠ j) : (s.setArb a x).arb j = s.arb j := by
  simp [State.arb, State.setArb, tabGet_set_ne _ _ _ _ h]
@[simp] theorem State.setArb_mc_at (s : State) (a : Nat) (x : Arb) (j : Nat) : (s.setArb a x).mc j = s.mc j := rfl
@[simp] theorem State.setArb_home_at (s : State) (a : Nat) (x : Arb) (j : Nat) : (s.setArb a x).home j = s.home j := rfl
@[simp] theorem State.setArb_pin_at (s : State) (a : Nat) (x : Arb) (j : Nat) : (s.setArb a x).pin j = s.pin j := rfl
@[simp] theorem State.setArb_base_at (s : State) (a : Nat) (x : Arb) (j : Nat) : (s.setArb a x).base j = s.base j := rfl
@[simp] theorem State.setArb_bank_at (s : State) (a : Nat) (x : Arb) (j : Nat) : (s.setArb a x).bank j = s.bank j := rfl
@[simp] theorem State.setArb_cmp_at (s : State) (a : Nat) (x : Arb) (j : Nat) : (s.setArb a x).cmp j = s.cmp j := rfl
@[simp] theorem State.setArb_cap_at (s : State) (a : Nat) (x : Arb) (j : Nat) : (s.setArb a x).cap j = s.cap j := rfl
@[simp] theorem State.setArb_sdf_at (s : State) (a : Nat) (x : Arb) (j : Nat) : (s.setArb a x).sdf j = s.sdf j := rfl
@[simp] theorem State.setArb_ctr_at (s : State) (a : Nat) (x : Arb) (j : Nat) : (s.setArb a x).ctr j = s.ctr j := rfl
@[simp] theorem State.setArb_pcore_at (s : State) (a : Nat) (x : Arb) (j : Nat) : (s.setArb a x).pcore j = s.pcore j := rfl
@[simp] theorem State.setArb_core_at (s : State) (a : Nat) (x : Arb) (j : Nat) : (s.setArb a x).core j = s.core j := rfl
@[simp] theorem State.setArb_point_at (s : State) (a : Nat) (x : Arb) (j : Nat) : (s.setArb a x).point j = s.point j := rfl
@[simp] theorem State.setArb_queue_at (s : State) (a : Nat) (x : Arb) (j : Nat) : (s.setArb a x).queue j = s.queue j := rfl

/-! ### `putMc` -/

@[simp] theorem State.putMc_pending (s : State) (n : Nat) (x : Mc) : (s.putMc n x).pending = s.pending := rfl
@[simp] theorem State.putMc_agenda (s : State) (n : Nat) (x : Mc) : (s.putMc n x).agenda = s.agenda := rfl
@[simp] theorem State.putMc_clk (s : State) (n : Nat) (x : Mc) : (s.putMc n x).clk = s.clk := rfl
@[simp] theorem State.putMc_free (s : State) (n : Nat) (x : Mc) : (s.putMc n x).free = s.free := rfl
@[simp] theorem State.putMc_lastRead (s : State) (n : Nat) (x : Mc) : (s.putMc n x).lastRead = s.lastRead := rfl
@[simp] theorem State.putMc_regs (s : State) (n : Nat) (x : Mc) : (s.putMc n x).regs = s.regs := rfl
@[simp] theorem State.putMc_mem (s : State) (n : Nat) (x : Mc) : (s.putMc n x).mem = s.mem := rfl
@[simp] theorem State.putMc_gt (s : State) (n : Nat) (x : Mc) : (s.putMc n x).gt = s.gt := rfl
@[simp] theorem State.putMc_bases (s : State) (n : Nat) (x : Mc) : (s.putMc n x).bases = s.bases := rfl
@[simp] theorem State.putMc_cmps (s : State) (n : Nat) (x : Mc) : (s.putMc n x).cmps = s.cmps := rfl
@[simp] theorem State.putMc_crossed (s : State) (n : Nat) (x : Mc) : (s.putMc n x).crossed = s.crossed := rfl
@[simp] theorem State.putMc_pins (s : State) (n : Nat) (x : Mc) : (s.putMc n x).pins = s.pins := rfl
@[simp] theorem State.putMc_banks (s : State) (n : Nat) (x : Mc) : (s.putMc n x).banks = s.banks := rfl
@[simp] theorem State.putMc_caps (s : State) (n : Nat) (x : Mc) : (s.putMc n x).caps = s.caps := rfl
@[simp] theorem State.putMc_sdfs (s : State) (n : Nat) (x : Mc) : (s.putMc n x).sdfs = s.sdfs := rfl
@[simp] theorem State.putMc_ctrs (s : State) (n : Nat) (x : Mc) : (s.putMc n x).ctrs = s.ctrs := rfl
@[simp] theorem State.putMc_locks (s : State) (n : Nat) (x : Mc) : (s.putMc n x).locks = s.locks := rfl
@[simp] theorem State.putMc_sheet (s : State) (n : Nat) (x : Mc) : (s.putMc n x).sheet = s.sheet := rfl
@[simp] theorem State.putMc_cores (s : State) (n : Nat) (x : Mc) : (s.putMc n x).cores = s.cores := rfl
@[simp] theorem State.putMc_modes (s : State) (n : Nat) (x : Mc) : (s.putMc n x).modes = s.modes := rfl
@[simp] theorem State.putMc_spare (s : State) (n : Nat) (x : Mc) : (s.putMc n x).spare = s.spare := rfl
@[simp] theorem State.putMc_poison (s : State) (n : Nat) (x : Mc) : (s.putMc n x).poison = s.poison := rfl
@[simp] theorem State.putMc_pcores (s : State) (n : Nat) (x : Mc) : (s.putMc n x).pcores = s.pcores := rfl
@[simp] theorem State.putMc_arbs (s : State) (n : Nat) (x : Mc) : (s.putMc n x).arbs = s.arbs := rfl
@[simp] theorem State.putMc_work (s : State) (n : Nat) (x : Mc) : (s.putMc n x).work = s.work := rfl
@[simp] theorem State.putMc_nextTag (s : State) (n : Nat) (x : Mc) : (s.putMc n x).nextTag = s.nextTag := rfl
@[simp] theorem State.putMc_homes (s : State) (n : Nat) (x : Mc) : (s.putMc n x).homes = s.homes := rfl
@[simp] theorem State.putMc_ert (s : State) (n : Nat) (x : Mc) : (s.putMc n x).ert = s.ert := rfl
@[simp] theorem State.putMc_posting (s : State) (n : Nat) (x : Mc) : (s.putMc n x).posting = s.posting := rfl
@[simp] theorem State.putMc_points (s : State) (n : Nat) (x : Mc) : (s.putMc n x).points = s.points := rfl
@[simp] theorem State.putMc_queues (s : State) (n : Nat) (x : Mc) : (s.putMc n x).queues = s.queues := rfl
@[simp] theorem State.putMc_qes (s : State) (n : Nat) (x : Mc) : (s.putMc n x).qes = s.qes := rfl
@[simp] theorem State.putMc_net (s : State) (n : Nat) (x : Mc) : (s.putMc n x).net = s.net := rfl
@[simp] theorem State.putMc_enc (s : State) (n : Nat) (x : Mc) : (s.putMc n x).enc = s.enc := rfl
@[simp] theorem State.putMc_pair (s : State) (n : Nat) (x : Mc) : (s.putMc n x).pair = s.pair := rfl
@[simp] theorem State.putMc_lemam (s : State) (n : Nat) (x : Mc) : (s.putMc n x).lemam = s.lemam := rfl
@[simp] theorem State.putMc_dbg (s : State) (n : Nat) (x : Mc) : (s.putMc n x).dbg = s.dbg := rfl
@[simp] theorem State.putMc_rd (s : State) (n : Nat) (x : Mc) (r : Nat) : (s.putMc n x).rd r = s.rd r := rfl
@[simp] theorem State.putMc_byte (s : State) (n : Nat) (x : Mc) (r : Nat) : (s.putMc n x).byte r = s.byte r := rfl
@[simp] theorem State.putMc_arb_at (s : State) (n : Nat) (x : Mc) (j : Nat) : (s.putMc n x).arb j = s.arb j := rfl
@[simp] theorem State.putMc_mc_same (s : State) (n : Nat) (x : Mc) : (s.putMc n x).mc n = x := by simp [State.mc, State.putMc]
theorem State.putMc_mc_ne (s : State) (n : Nat) (x : Mc) (j : Nat) (h : n ≠ j) : (s.putMc n x).mc j = s.mc j := by
  simp [State.mc, State.putMc, tabGet_set_ne _ _ _ _ h]
@[simp] theorem State.putMc_home_at (s : State) (n : Nat) (x : Mc) (j : Nat) : (s.putMc n x).home j = s.home j := rfl
@[simp] theorem State.putMc_pin_at (s : State) (n : Nat) (x : Mc) (j : Nat) : (s.putMc n x).pin j = s.pin j := rfl
@[simp] theorem State.putMc_base_at (s : State) (n : Nat) (x : Mc) (j : Nat) : (s.putMc n x).base j = s.base j := rfl
@[simp] theorem State.putMc_bank_at (s : State) (n : Nat) (x : Mc) (j : Nat) : (s.putMc n x).bank j = s.bank j := rfl
@[simp] theorem State.putMc_cmp_at (s : State) (n : Nat) (x : Mc) (j : Nat) : (s.putMc n x).cmp j = s.cmp j := rfl
@[simp] theorem State.putMc_cap_at (s : State) (n : Nat) (x : Mc) (j : Nat) : (s.putMc n x).cap j = s.cap j := rfl
@[simp] theorem State.putMc_sdf_at (s : State) (n : Nat) (x : Mc) (j : Nat) : (s.putMc n x).sdf j = s.sdf j := rfl
@[simp] theorem State.putMc_ctr_at (s : State) (n : Nat) (x : Mc) (j : Nat) : (s.putMc n x).ctr j = s.ctr j := rfl
@[simp] theorem State.putMc_pcore_at (s : State) (n : Nat) (x : Mc) (j : Nat) : (s.putMc n x).pcore j = s.pcore j := rfl
@[simp] theorem State.putMc_core_at (s : State) (n : Nat) (x : Mc) (j : Nat) : (s.putMc n x).core j = s.core j := rfl
@[simp] theorem State.putMc_point_at (s : State) (n : Nat) (x : Mc) (j : Nat) : (s.putMc n x).point j = s.point j := rfl
@[simp] theorem State.putMc_queue_at (s : State) (n : Nat) (x : Mc) (j : Nat) : (s.putMc n x).queue j = s.queue j := rfl

/-! ### `putHome` -/

@[simp] theorem State.putHome_pending (s : State) (n : Nat) (x : Home) : (s.putHome n x).pending = s.pending := rfl
@[simp] theorem State.putHome_agenda (s : State) (n : Nat) (x : Home) : (s.putHome n x).agenda = s.agenda := rfl
@[simp] theorem State.putHome_clk (s : State) (n : Nat) (x : Home) : (s.putHome n x).clk = s.clk := rfl
@[simp] theorem State.putHome_free (s : State) (n : Nat) (x : Home) : (s.putHome n x).free = s.free := rfl
@[simp] theorem State.putHome_lastRead (s : State) (n : Nat) (x : Home) : (s.putHome n x).lastRead = s.lastRead := rfl
@[simp] theorem State.putHome_regs (s : State) (n : Nat) (x : Home) : (s.putHome n x).regs = s.regs := rfl
@[simp] theorem State.putHome_mem (s : State) (n : Nat) (x : Home) : (s.putHome n x).mem = s.mem := rfl
@[simp] theorem State.putHome_gt (s : State) (n : Nat) (x : Home) : (s.putHome n x).gt = s.gt := rfl
@[simp] theorem State.putHome_bases (s : State) (n : Nat) (x : Home) : (s.putHome n x).bases = s.bases := rfl
@[simp] theorem State.putHome_cmps (s : State) (n : Nat) (x : Home) : (s.putHome n x).cmps = s.cmps := rfl
@[simp] theorem State.putHome_crossed (s : State) (n : Nat) (x : Home) : (s.putHome n x).crossed = s.crossed := rfl
@[simp] theorem State.putHome_pins (s : State) (n : Nat) (x : Home) : (s.putHome n x).pins = s.pins := rfl
@[simp] theorem State.putHome_banks (s : State) (n : Nat) (x : Home) : (s.putHome n x).banks = s.banks := rfl
@[simp] theorem State.putHome_caps (s : State) (n : Nat) (x : Home) : (s.putHome n x).caps = s.caps := rfl
@[simp] theorem State.putHome_sdfs (s : State) (n : Nat) (x : Home) : (s.putHome n x).sdfs = s.sdfs := rfl
@[simp] theorem State.putHome_ctrs (s : State) (n : Nat) (x : Home) : (s.putHome n x).ctrs = s.ctrs := rfl
@[simp] theorem State.putHome_locks (s : State) (n : Nat) (x : Home) : (s.putHome n x).locks = s.locks := rfl
@[simp] theorem State.putHome_sheet (s : State) (n : Nat) (x : Home) : (s.putHome n x).sheet = s.sheet := rfl
@[simp] theorem State.putHome_cores (s : State) (n : Nat) (x : Home) : (s.putHome n x).cores = s.cores := rfl
@[simp] theorem State.putHome_modes (s : State) (n : Nat) (x : Home) : (s.putHome n x).modes = s.modes := rfl
@[simp] theorem State.putHome_spare (s : State) (n : Nat) (x : Home) : (s.putHome n x).spare = s.spare := rfl
@[simp] theorem State.putHome_poison (s : State) (n : Nat) (x : Home) : (s.putHome n x).poison = s.poison := rfl
@[simp] theorem State.putHome_pcores (s : State) (n : Nat) (x : Home) : (s.putHome n x).pcores = s.pcores := rfl
@[simp] theorem State.putHome_arbs (s : State) (n : Nat) (x : Home) : (s.putHome n x).arbs = s.arbs := rfl
@[simp] theorem State.putHome_work (s : State) (n : Nat) (x : Home) : (s.putHome n x).work = s.work := rfl
@[simp] theorem State.putHome_nextTag (s : State) (n : Nat) (x : Home) : (s.putHome n x).nextTag = s.nextTag := rfl
@[simp] theorem State.putHome_mcs (s : State) (n : Nat) (x : Home) : (s.putHome n x).mcs = s.mcs := rfl
@[simp] theorem State.putHome_ert (s : State) (n : Nat) (x : Home) : (s.putHome n x).ert = s.ert := rfl
@[simp] theorem State.putHome_posting (s : State) (n : Nat) (x : Home) : (s.putHome n x).posting = s.posting := rfl
@[simp] theorem State.putHome_points (s : State) (n : Nat) (x : Home) : (s.putHome n x).points = s.points := rfl
@[simp] theorem State.putHome_queues (s : State) (n : Nat) (x : Home) : (s.putHome n x).queues = s.queues := rfl
@[simp] theorem State.putHome_qes (s : State) (n : Nat) (x : Home) : (s.putHome n x).qes = s.qes := rfl
@[simp] theorem State.putHome_net (s : State) (n : Nat) (x : Home) : (s.putHome n x).net = s.net := rfl
@[simp] theorem State.putHome_enc (s : State) (n : Nat) (x : Home) : (s.putHome n x).enc = s.enc := rfl
@[simp] theorem State.putHome_pair (s : State) (n : Nat) (x : Home) : (s.putHome n x).pair = s.pair := rfl
@[simp] theorem State.putHome_lemam (s : State) (n : Nat) (x : Home) : (s.putHome n x).lemam = s.lemam := rfl
@[simp] theorem State.putHome_dbg (s : State) (n : Nat) (x : Home) : (s.putHome n x).dbg = s.dbg := rfl
@[simp] theorem State.putHome_rd (s : State) (n : Nat) (x : Home) (r : Nat) : (s.putHome n x).rd r = s.rd r := rfl
@[simp] theorem State.putHome_byte (s : State) (n : Nat) (x : Home) (r : Nat) : (s.putHome n x).byte r = s.byte r := rfl
@[simp] theorem State.putHome_arb_at (s : State) (n : Nat) (x : Home) (j : Nat) : (s.putHome n x).arb j = s.arb j := rfl
@[simp] theorem State.putHome_mc_at (s : State) (n : Nat) (x : Home) (j : Nat) : (s.putHome n x).mc j = s.mc j := rfl
@[simp] theorem State.putHome_home_same (s : State) (n : Nat) (x : Home) : (s.putHome n x).home n = x := by simp [State.home, State.putHome]
theorem State.putHome_home_ne (s : State) (n : Nat) (x : Home) (j : Nat) (h : n ≠ j) : (s.putHome n x).home j = s.home j := by
  simp [State.home, State.putHome, tabGet_set_ne _ _ _ _ h]
@[simp] theorem State.putHome_pin_at (s : State) (n : Nat) (x : Home) (j : Nat) : (s.putHome n x).pin j = s.pin j := rfl
@[simp] theorem State.putHome_base_at (s : State) (n : Nat) (x : Home) (j : Nat) : (s.putHome n x).base j = s.base j := rfl
@[simp] theorem State.putHome_bank_at (s : State) (n : Nat) (x : Home) (j : Nat) : (s.putHome n x).bank j = s.bank j := rfl
@[simp] theorem State.putHome_cmp_at (s : State) (n : Nat) (x : Home) (j : Nat) : (s.putHome n x).cmp j = s.cmp j := rfl
@[simp] theorem State.putHome_cap_at (s : State) (n : Nat) (x : Home) (j : Nat) : (s.putHome n x).cap j = s.cap j := rfl
@[simp] theorem State.putHome_sdf_at (s : State) (n : Nat) (x : Home) (j : Nat) : (s.putHome n x).sdf j = s.sdf j := rfl
@[simp] theorem State.putHome_ctr_at (s : State) (n : Nat) (x : Home) (j : Nat) : (s.putHome n x).ctr j = s.ctr j := rfl
@[simp] theorem State.putHome_pcore_at (s : State) (n : Nat) (x : Home) (j : Nat) : (s.putHome n x).pcore j = s.pcore j := rfl
@[simp] theorem State.putHome_core_at (s : State) (n : Nat) (x : Home) (j : Nat) : (s.putHome n x).core j = s.core j := rfl
@[simp] theorem State.putHome_point_at (s : State) (n : Nat) (x : Home) (j : Nat) : (s.putHome n x).point j = s.point j := rfl
@[simp] theorem State.putHome_queue_at (s : State) (n : Nat) (x : Home) (j : Nat) : (s.putHome n x).queue j = s.queue j := rfl

/-! ### `setPin` -/

@[simp] theorem State.setPin_pending (s : State) (p : Nat) (x : Pin) : (s.setPin p x).pending = s.pending := rfl
@[simp] theorem State.setPin_agenda (s : State) (p : Nat) (x : Pin) : (s.setPin p x).agenda = s.agenda := rfl
@[simp] theorem State.setPin_clk (s : State) (p : Nat) (x : Pin) : (s.setPin p x).clk = s.clk := rfl
@[simp] theorem State.setPin_free (s : State) (p : Nat) (x : Pin) : (s.setPin p x).free = s.free := rfl
@[simp] theorem State.setPin_lastRead (s : State) (p : Nat) (x : Pin) : (s.setPin p x).lastRead = s.lastRead := rfl
@[simp] theorem State.setPin_regs (s : State) (p : Nat) (x : Pin) : (s.setPin p x).regs = s.regs := rfl
@[simp] theorem State.setPin_mem (s : State) (p : Nat) (x : Pin) : (s.setPin p x).mem = s.mem := rfl
@[simp] theorem State.setPin_gt (s : State) (p : Nat) (x : Pin) : (s.setPin p x).gt = s.gt := rfl
@[simp] theorem State.setPin_bases (s : State) (p : Nat) (x : Pin) : (s.setPin p x).bases = s.bases := rfl
@[simp] theorem State.setPin_cmps (s : State) (p : Nat) (x : Pin) : (s.setPin p x).cmps = s.cmps := rfl
@[simp] theorem State.setPin_crossed (s : State) (p : Nat) (x : Pin) : (s.setPin p x).crossed = s.crossed := rfl
@[simp] theorem State.setPin_banks (s : State) (p : Nat) (x : Pin) : (s.setPin p x).banks = s.banks := rfl
@[simp] theorem State.setPin_caps (s : State) (p : Nat) (x : Pin) : (s.setPin p x).caps = s.caps := rfl
@[simp] theorem State.setPin_sdfs (s : State) (p : Nat) (x : Pin) : (s.setPin p x).sdfs = s.sdfs := rfl
@[simp] theorem State.setPin_ctrs (s : State) (p : Nat) (x : Pin) : (s.setPin p x).ctrs = s.ctrs := rfl
@[simp] theorem State.setPin_locks (s : State) (p : Nat) (x : Pin) : (s.setPin p x).locks = s.locks := rfl
@[simp] theorem State.setPin_sheet (s : State) (p : Nat) (x : Pin) : (s.setPin p x).sheet = s.sheet := rfl
@[simp] theorem State.setPin_cores (s : State) (p : Nat) (x : Pin) : (s.setPin p x).cores = s.cores := rfl
@[simp] theorem State.setPin_modes (s : State) (p : Nat) (x : Pin) : (s.setPin p x).modes = s.modes := rfl
@[simp] theorem State.setPin_spare (s : State) (p : Nat) (x : Pin) : (s.setPin p x).spare = s.spare := rfl
@[simp] theorem State.setPin_poison (s : State) (p : Nat) (x : Pin) : (s.setPin p x).poison = s.poison := rfl
@[simp] theorem State.setPin_pcores (s : State) (p : Nat) (x : Pin) : (s.setPin p x).pcores = s.pcores := rfl
@[simp] theorem State.setPin_arbs (s : State) (p : Nat) (x : Pin) : (s.setPin p x).arbs = s.arbs := rfl
@[simp] theorem State.setPin_work (s : State) (p : Nat) (x : Pin) : (s.setPin p x).work = s.work := rfl
@[simp] theorem State.setPin_nextTag (s : State) (p : Nat) (x : Pin) : (s.setPin p x).nextTag = s.nextTag := rfl
@[simp] theorem State.setPin_mcs (s : State) (p : Nat) (x : Pin) : (s.setPin p x).mcs = s.mcs := rfl
@[simp] theorem State.setPin_homes (s : State) (p : Nat) (x : Pin) : (s.setPin p x).homes = s.homes := rfl
@[simp] theorem State.setPin_ert (s : State) (p : Nat) (x : Pin) : (s.setPin p x).ert = s.ert := rfl
@[simp] theorem State.setPin_posting (s : State) (p : Nat) (x : Pin) : (s.setPin p x).posting = s.posting := rfl
@[simp] theorem State.setPin_points (s : State) (p : Nat) (x : Pin) : (s.setPin p x).points = s.points := rfl
@[simp] theorem State.setPin_queues (s : State) (p : Nat) (x : Pin) : (s.setPin p x).queues = s.queues := rfl
@[simp] theorem State.setPin_qes (s : State) (p : Nat) (x : Pin) : (s.setPin p x).qes = s.qes := rfl
@[simp] theorem State.setPin_net (s : State) (p : Nat) (x : Pin) : (s.setPin p x).net = s.net := rfl
@[simp] theorem State.setPin_enc (s : State) (p : Nat) (x : Pin) : (s.setPin p x).enc = s.enc := rfl
@[simp] theorem State.setPin_pair (s : State) (p : Nat) (x : Pin) : (s.setPin p x).pair = s.pair := rfl
@[simp] theorem State.setPin_lemam (s : State) (p : Nat) (x : Pin) : (s.setPin p x).lemam = s.lemam := rfl
@[simp] theorem State.setPin_dbg (s : State) (p : Nat) (x : Pin) : (s.setPin p x).dbg = s.dbg := rfl
@[simp] theorem State.setPin_rd (s : State) (p : Nat) (x : Pin) (r : Nat) : (s.setPin p x).rd r = s.rd r := rfl
@[simp] theorem State.setPin_byte (s : State) (p : Nat) (x : Pin) (r : Nat) : (s.setPin p x).byte r = s.byte r := rfl
@[simp] theorem State.setPin_arb_at (s : State) (p : Nat) (x : Pin) (j : Nat) : (s.setPin p x).arb j = s.arb j := rfl
@[simp] theorem State.setPin_mc_at (s : State) (p : Nat) (x : Pin) (j : Nat) : (s.setPin p x).mc j = s.mc j := rfl
@[simp] theorem State.setPin_home_at (s : State) (p : Nat) (x : Pin) (j : Nat) : (s.setPin p x).home j = s.home j := rfl
@[simp] theorem State.setPin_pin_same (s : State) (p : Nat) (x : Pin) : (s.setPin p x).pin p = x := by simp [State.pin, State.setPin]
theorem State.setPin_pin_ne (s : State) (p : Nat) (x : Pin) (j : Nat) (h : p ≠ j) : (s.setPin p x).pin j = s.pin j := by
  simp [State.pin, State.setPin, tabGet_set_ne _ _ _ _ h]
@[simp] theorem State.setPin_base_at (s : State) (p : Nat) (x : Pin) (j : Nat) : (s.setPin p x).base j = s.base j := rfl
@[simp] theorem State.setPin_bank_at (s : State) (p : Nat) (x : Pin) (j : Nat) : (s.setPin p x).bank j = s.bank j := rfl
@[simp] theorem State.setPin_cmp_at (s : State) (p : Nat) (x : Pin) (j : Nat) : (s.setPin p x).cmp j = s.cmp j := rfl
@[simp] theorem State.setPin_cap_at (s : State) (p : Nat) (x : Pin) (j : Nat) : (s.setPin p x).cap j = s.cap j := rfl
@[simp] theorem State.setPin_sdf_at (s : State) (p : Nat) (x : Pin) (j : Nat) : (s.setPin p x).sdf j = s.sdf j := rfl
@[simp] theorem State.setPin_ctr_at (s : State) (p : Nat) (x : Pin) (j : Nat) : (s.setPin p x).ctr j = s.ctr j := rfl
@[simp] theorem State.setPin_pcore_at (s : State) (p : Nat) (x : Pin) (j : Nat) : (s.setPin p x).pcore j = s.pcore j := rfl
@[simp] theorem State.setPin_core_at (s : State) (p : Nat) (x : Pin) (j : Nat) : (s.setPin p x).core j = s.core j := rfl
@[simp] theorem State.setPin_point_at (s : State) (p : Nat) (x : Pin) (j : Nat) : (s.setPin p x).point j = s.point j := rfl
@[simp] theorem State.setPin_queue_at (s : State) (p : Nat) (x : Pin) (j : Nat) : (s.setPin p x).queue j = s.queue j := rfl

/-! ### `setBase` -/

@[simp] theorem State.setBase_pending (s : State) (b : Nat) (x : Base) : (s.setBase b x).pending = s.pending := rfl
@[simp] theorem State.setBase_agenda (s : State) (b : Nat) (x : Base) : (s.setBase b x).agenda = s.agenda := rfl
@[simp] theorem State.setBase_clk (s : State) (b : Nat) (x : Base) : (s.setBase b x).clk = s.clk := rfl
@[simp] theorem State.setBase_free (s : State) (b : Nat) (x : Base) : (s.setBase b x).free = s.free := rfl
@[simp] theorem State.setBase_lastRead (s : State) (b : Nat) (x : Base) : (s.setBase b x).lastRead = s.lastRead := rfl
@[simp] theorem State.setBase_regs (s : State) (b : Nat) (x : Base) : (s.setBase b x).regs = s.regs := rfl
@[simp] theorem State.setBase_mem (s : State) (b : Nat) (x : Base) : (s.setBase b x).mem = s.mem := rfl
@[simp] theorem State.setBase_gt (s : State) (b : Nat) (x : Base) : (s.setBase b x).gt = s.gt := rfl
@[simp] theorem State.setBase_cmps (s : State) (b : Nat) (x : Base) : (s.setBase b x).cmps = s.cmps := rfl
@[simp] theorem State.setBase_crossed (s : State) (b : Nat) (x : Base) : (s.setBase b x).crossed = s.crossed := rfl
@[simp] theorem State.setBase_pins (s : State) (b : Nat) (x : Base) : (s.setBase b x).pins = s.pins := rfl
@[simp] theorem State.setBase_banks (s : State) (b : Nat) (x : Base) : (s.setBase b x).banks = s.banks := rfl
@[simp] theorem State.setBase_caps (s : State) (b : Nat) (x : Base) : (s.setBase b x).caps = s.caps := rfl
@[simp] theorem State.setBase_sdfs (s : State) (b : Nat) (x : Base) : (s.setBase b x).sdfs = s.sdfs := rfl
@[simp] theorem State.setBase_ctrs (s : State) (b : Nat) (x : Base) : (s.setBase b x).ctrs = s.ctrs := rfl
@[simp] theorem State.setBase_locks (s : State) (b : Nat) (x : Base) : (s.setBase b x).locks = s.locks := rfl
@[simp] theorem State.setBase_sheet (s : State) (b : Nat) (x : Base) : (s.setBase b x).sheet = s.sheet := rfl
@[simp] theorem State.setBase_cores (s : State) (b : Nat) (x : Base) : (s.setBase b x).cores = s.cores := rfl
@[simp] theorem State.setBase_modes (s : State) (b : Nat) (x : Base) : (s.setBase b x).modes = s.modes := rfl
@[simp] theorem State.setBase_spare (s : State) (b : Nat) (x : Base) : (s.setBase b x).spare = s.spare := rfl
@[simp] theorem State.setBase_poison (s : State) (b : Nat) (x : Base) : (s.setBase b x).poison = s.poison := rfl
@[simp] theorem State.setBase_pcores (s : State) (b : Nat) (x : Base) : (s.setBase b x).pcores = s.pcores := rfl
@[simp] theorem State.setBase_arbs (s : State) (b : Nat) (x : Base) : (s.setBase b x).arbs = s.arbs := rfl
@[simp] theorem State.setBase_work (s : State) (b : Nat) (x : Base) : (s.setBase b x).work = s.work := rfl
@[simp] theorem State.setBase_nextTag (s : State) (b : Nat) (x : Base) : (s.setBase b x).nextTag = s.nextTag := rfl
@[simp] theorem State.setBase_mcs (s : State) (b : Nat) (x : Base) : (s.setBase b x).mcs = s.mcs := rfl
@[simp] theorem State.setBase_homes (s : State) (b : Nat) (x : Base) : (s.setBase b x).homes = s.homes := rfl
@[simp] theorem State.setBase_ert (s : State) (b : Nat) (x : Base) : (s.setBase b x).ert = s.ert := rfl
@[simp] theorem State.setBase_posting (s : State) (b : Nat) (x : Base) : (s.setBase b x).posting = s.posting := rfl
@[simp] theorem State.setBase_points (s : State) (b : Nat) (x : Base) : (s.setBase b x).points = s.points := rfl
@[simp] theorem State.setBase_queues (s : State) (b : Nat) (x : Base) : (s.setBase b x).queues = s.queues := rfl
@[simp] theorem State.setBase_qes (s : State) (b : Nat) (x : Base) : (s.setBase b x).qes = s.qes := rfl
@[simp] theorem State.setBase_net (s : State) (b : Nat) (x : Base) : (s.setBase b x).net = s.net := rfl
@[simp] theorem State.setBase_enc (s : State) (b : Nat) (x : Base) : (s.setBase b x).enc = s.enc := rfl
@[simp] theorem State.setBase_pair (s : State) (b : Nat) (x : Base) : (s.setBase b x).pair = s.pair := rfl
@[simp] theorem State.setBase_lemam (s : State) (b : Nat) (x : Base) : (s.setBase b x).lemam = s.lemam := rfl
@[simp] theorem State.setBase_dbg (s : State) (b : Nat) (x : Base) : (s.setBase b x).dbg = s.dbg := rfl
@[simp] theorem State.setBase_rd (s : State) (b : Nat) (x : Base) (r : Nat) : (s.setBase b x).rd r = s.rd r := rfl
@[simp] theorem State.setBase_byte (s : State) (b : Nat) (x : Base) (r : Nat) : (s.setBase b x).byte r = s.byte r := rfl
@[simp] theorem State.setBase_arb_at (s : State) (b : Nat) (x : Base) (j : Nat) : (s.setBase b x).arb j = s.arb j := rfl
@[simp] theorem State.setBase_mc_at (s : State) (b : Nat) (x : Base) (j : Nat) : (s.setBase b x).mc j = s.mc j := rfl
@[simp] theorem State.setBase_home_at (s : State) (b : Nat) (x : Base) (j : Nat) : (s.setBase b x).home j = s.home j := rfl
@[simp] theorem State.setBase_pin_at (s : State) (b : Nat) (x : Base) (j : Nat) : (s.setBase b x).pin j = s.pin j := rfl
@[simp] theorem State.setBase_base_same (s : State) (b : Nat) (x : Base) : (s.setBase b x).base b = x := by simp [State.base, State.setBase]
theorem State.setBase_base_ne (s : State) (b : Nat) (x : Base) (j : Nat) (h : b ≠ j) : (s.setBase b x).base j = s.base j := by
  simp [State.base, State.setBase, tabGet_set_ne _ _ _ _ h]
@[simp] theorem State.setBase_bank_at (s : State) (b : Nat) (x : Base) (j : Nat) : (s.setBase b x).bank j = s.bank j := rfl
@[simp] theorem State.setBase_cmp_at (s : State) (b : Nat) (x : Base) (j : Nat) : (s.setBase b x).cmp j = s.cmp j := rfl
@[simp] theorem State.setBase_cap_at (s : State) (b : Nat) (x : Base) (j : Nat) : (s.setBase b x).cap j = s.cap j := rfl
@[simp] theorem State.setBase_sdf_at (s : State) (b : Nat) (x : Base) (j : Nat) : (s.setBase b x).sdf j = s.sdf j := rfl
@[simp] theorem State.setBase_ctr_at (s : State) (b : Nat) (x : Base) (j : Nat) : (s.setBase b x).ctr j = s.ctr j := rfl
@[simp] theorem State.setBase_pcore_at (s : State) (b : Nat) (x : Base) (j : Nat) : (s.setBase b x).pcore j = s.pcore j := rfl
@[simp] theorem State.setBase_core_at (s : State) (b : Nat) (x : Base) (j : Nat) : (s.setBase b x).core j = s.core j := rfl
@[simp] theorem State.setBase_point_at (s : State) (b : Nat) (x : Base) (j : Nat) : (s.setBase b x).point j = s.point j := rfl
@[simp] theorem State.setBase_queue_at (s : State) (b : Nat) (x : Base) (j : Nat) : (s.setBase b x).queue j = s.queue j := rfl

/-! ### `setBank` -/

@[simp] theorem State.setBank_pending (s : State) (k : Nat) (x : Bank) : (s.setBank k x).pending = s.pending := rfl
@[simp] theorem State.setBank_agenda (s : State) (k : Nat) (x : Bank) : (s.setBank k x).agenda = s.agenda := rfl
@[simp] theorem State.setBank_clk (s : State) (k : Nat) (x : Bank) : (s.setBank k x).clk = s.clk := rfl
@[simp] theorem State.setBank_free (s : State) (k : Nat) (x : Bank) : (s.setBank k x).free = s.free := rfl
@[simp] theorem State.setBank_lastRead (s : State) (k : Nat) (x : Bank) : (s.setBank k x).lastRead = s.lastRead := rfl
@[simp] theorem State.setBank_regs (s : State) (k : Nat) (x : Bank) : (s.setBank k x).regs = s.regs := rfl
@[simp] theorem State.setBank_mem (s : State) (k : Nat) (x : Bank) : (s.setBank k x).mem = s.mem := rfl
@[simp] theorem State.setBank_gt (s : State) (k : Nat) (x : Bank) : (s.setBank k x).gt = s.gt := rfl
@[simp] theorem State.setBank_bases (s : State) (k : Nat) (x : Bank) : (s.setBank k x).bases = s.bases := rfl
@[simp] theorem State.setBank_cmps (s : State) (k : Nat) (x : Bank) : (s.setBank k x).cmps = s.cmps := rfl
@[simp] theorem State.setBank_crossed (s : State) (k : Nat) (x : Bank) : (s.setBank k x).crossed = s.crossed := rfl
@[simp] theorem State.setBank_pins (s : State) (k : Nat) (x : Bank) : (s.setBank k x).pins = s.pins := rfl
@[simp] theorem State.setBank_caps (s : State) (k : Nat) (x : Bank) : (s.setBank k x).caps = s.caps := rfl
@[simp] theorem State.setBank_sdfs (s : State) (k : Nat) (x : Bank) : (s.setBank k x).sdfs = s.sdfs := rfl
@[simp] theorem State.setBank_ctrs (s : State) (k : Nat) (x : Bank) : (s.setBank k x).ctrs = s.ctrs := rfl
@[simp] theorem State.setBank_locks (s : State) (k : Nat) (x : Bank) : (s.setBank k x).locks = s.locks := rfl
@[simp] theorem State.setBank_sheet (s : State) (k : Nat) (x : Bank) : (s.setBank k x).sheet = s.sheet := rfl
@[simp] theorem State.setBank_cores (s : State) (k : Nat) (x : Bank) : (s.setBank k x).cores = s.cores := rfl
@[simp] theorem State.setBank_modes (s : State) (k : Nat) (x : Bank) : (s.setBank k x).modes = s.modes := rfl
@[simp] theorem State.setBank_spare (s : State) (k : Nat) (x : Bank) : (s.setBank k x).spare = s.spare := rfl
@[simp] theorem State.setBank_poison (s : State) (k : Nat) (x : Bank) : (s.setBank k x).poison = s.poison := rfl
@[simp] theorem State.setBank_pcores (s : State) (k : Nat) (x : Bank) : (s.setBank k x).pcores = s.pcores := rfl
@[simp] theorem State.setBank_arbs (s : State) (k : Nat) (x : Bank) : (s.setBank k x).arbs = s.arbs := rfl
@[simp] theorem State.setBank_work (s : State) (k : Nat) (x : Bank) : (s.setBank k x).work = s.work := rfl
@[simp] theorem State.setBank_nextTag (s : State) (k : Nat) (x : Bank) : (s.setBank k x).nextTag = s.nextTag := rfl
@[simp] theorem State.setBank_mcs (s : State) (k : Nat) (x : Bank) : (s.setBank k x).mcs = s.mcs := rfl
@[simp] theorem State.setBank_homes (s : State) (k : Nat) (x : Bank) : (s.setBank k x).homes = s.homes := rfl
@[simp] theorem State.setBank_ert (s : State) (k : Nat) (x : Bank) : (s.setBank k x).ert = s.ert := rfl
@[simp] theorem State.setBank_posting (s : State) (k : Nat) (x : Bank) : (s.setBank k x).posting = s.posting := rfl
@[simp] theorem State.setBank_points (s : State) (k : Nat) (x : Bank) : (s.setBank k x).points = s.points := rfl
@[simp] theorem State.setBank_queues (s : State) (k : Nat) (x : Bank) : (s.setBank k x).queues = s.queues := rfl
@[simp] theorem State.setBank_qes (s : State) (k : Nat) (x : Bank) : (s.setBank k x).qes = s.qes := rfl
@[simp] theorem State.setBank_net (s : State) (k : Nat) (x : Bank) : (s.setBank k x).net = s.net := rfl
@[simp] theorem State.setBank_enc (s : State) (k : Nat) (x : Bank) : (s.setBank k x).enc = s.enc := rfl
@[simp] theorem State.setBank_pair (s : State) (k : Nat) (x : Bank) : (s.setBank k x).pair = s.pair := rfl
@[simp] theorem State.setBank_lemam (s : State) (k : Nat) (x : Bank) : (s.setBank k x).lemam = s.lemam := rfl
@[simp] theorem State.setBank_dbg (s : State) (k : Nat) (x : Bank) : (s.setBank k x).dbg = s.dbg := rfl
@[simp] theorem State.setBank_rd (s : State) (k : Nat) (x : Bank) (r : Nat) : (s.setBank k x).rd r = s.rd r := rfl
@[simp] theorem State.setBank_byte (s : State) (k : Nat) (x : Bank) (r : Nat) : (s.setBank k x).byte r = s.byte r := rfl
@[simp] theorem State.setBank_arb_at (s : State) (k : Nat) (x : Bank) (j : Nat) : (s.setBank k x).arb j = s.arb j := rfl
@[simp] theorem State.setBank_mc_at (s : State) (k : Nat) (x : Bank) (j : Nat) : (s.setBank k x).mc j = s.mc j := rfl
@[simp] theorem State.setBank_home_at (s : State) (k : Nat) (x : Bank) (j : Nat) : (s.setBank k x).home j = s.home j := rfl
@[simp] theorem State.setBank_pin_at (s : State) (k : Nat) (x : Bank) (j : Nat) : (s.setBank k x).pin j = s.pin j := rfl
@[simp] theorem State.setBank_base_at (s : State) (k : Nat) (x : Bank) (j : Nat) : (s.setBank k x).base j = s.base j := rfl
@[simp] theorem State.setBank_bank_same (s : State) (k : Nat) (x : Bank) : (s.setBank k x).bank k = x := by simp [State.bank, State.setBank]
theorem State.setBank_bank_ne (s : State) (k : Nat) (x : Bank) (j : Nat) (h : k ≠ j) : (s.setBank k x).bank j = s.bank j := by
  simp [State.bank, State.setBank, tabGet_set_ne _ _ _ _ h]
@[simp] theorem State.setBank_cmp_at (s : State) (k : Nat) (x : Bank) (j : Nat) : (s.setBank k x).cmp j = s.cmp j := rfl
@[simp] theorem State.setBank_cap_at (s : State) (k : Nat) (x : Bank) (j : Nat) : (s.setBank k x).cap j = s.cap j := rfl
@[simp] theorem State.setBank_sdf_at (s : State) (k : Nat) (x : Bank) (j : Nat) : (s.setBank k x).sdf j = s.sdf j := rfl
@[simp] theorem State.setBank_ctr_at (s : State) (k : Nat) (x : Bank) (j : Nat) : (s.setBank k x).ctr j = s.ctr j := rfl
@[simp] theorem State.setBank_pcore_at (s : State) (k : Nat) (x : Bank) (j : Nat) : (s.setBank k x).pcore j = s.pcore j := rfl
@[simp] theorem State.setBank_core_at (s : State) (k : Nat) (x : Bank) (j : Nat) : (s.setBank k x).core j = s.core j := rfl
@[simp] theorem State.setBank_point_at (s : State) (k : Nat) (x : Bank) (j : Nat) : (s.setBank k x).point j = s.point j := rfl
@[simp] theorem State.setBank_queue_at (s : State) (k : Nat) (x : Bank) (j : Nat) : (s.setBank k x).queue j = s.queue j := rfl

/-! ### `setCmp` -/

@[simp] theorem State.setCmp_pending (s : State) (n : Nat) (x : Cmp) : (s.setCmp n x).pending = s.pending := rfl
@[simp] theorem State.setCmp_agenda (s : State) (n : Nat) (x : Cmp) : (s.setCmp n x).agenda = s.agenda := rfl
@[simp] theorem State.setCmp_clk (s : State) (n : Nat) (x : Cmp) : (s.setCmp n x).clk = s.clk := rfl
@[simp] theorem State.setCmp_free (s : State) (n : Nat) (x : Cmp) : (s.setCmp n x).free = s.free := rfl
@[simp] theorem State.setCmp_lastRead (s : State) (n : Nat) (x : Cmp) : (s.setCmp n x).lastRead = s.lastRead := rfl
@[simp] theorem State.setCmp_regs (s : State) (n : Nat) (x : Cmp) : (s.setCmp n x).regs = s.regs := rfl
@[simp] theorem State.setCmp_mem (s : State) (n : Nat) (x : Cmp) : (s.setCmp n x).mem = s.mem := rfl
@[simp] theorem State.setCmp_gt (s : State) (n : Nat) (x : Cmp) : (s.setCmp n x).gt = s.gt := rfl
@[simp] theorem State.setCmp_bases (s : State) (n : Nat) (x : Cmp) : (s.setCmp n x).bases = s.bases := rfl
@[simp] theorem State.setCmp_crossed (s : State) (n : Nat) (x : Cmp) : (s.setCmp n x).crossed = s.crossed := rfl
@[simp] theorem State.setCmp_pins (s : State) (n : Nat) (x : Cmp) : (s.setCmp n x).pins = s.pins := rfl
@[simp] theorem State.setCmp_banks (s : State) (n : Nat) (x : Cmp) : (s.setCmp n x).banks = s.banks := rfl
@[simp] theorem State.setCmp_caps (s : State) (n : Nat) (x : Cmp) : (s.setCmp n x).caps = s.caps := rfl
@[simp] theorem State.setCmp_sdfs (s : State) (n : Nat) (x : Cmp) : (s.setCmp n x).sdfs = s.sdfs := rfl
@[simp] theorem State.setCmp_ctrs (s : State) (n : Nat) (x : Cmp) : (s.setCmp n x).ctrs = s.ctrs := rfl
@[simp] theorem State.setCmp_locks (s : State) (n : Nat) (x : Cmp) : (s.setCmp n x).locks = s.locks := rfl
@[simp] theorem State.setCmp_sheet (s : State) (n : Nat) (x : Cmp) : (s.setCmp n x).sheet = s.sheet := rfl
@[simp] theorem State.setCmp_cores (s : State) (n : Nat) (x : Cmp) : (s.setCmp n x).cores = s.cores := rfl
@[simp] theorem State.setCmp_modes (s : State) (n : Nat) (x : Cmp) : (s.setCmp n x).modes = s.modes := rfl
@[simp] theorem State.setCmp_spare (s : State) (n : Nat) (x : Cmp) : (s.setCmp n x).spare = s.spare := rfl
@[simp] theorem State.setCmp_poison (s : State) (n : Nat) (x : Cmp) : (s.setCmp n x).poison = s.poison := rfl
@[simp] theorem State.setCmp_pcores (s : State) (n : Nat) (x : Cmp) : (s.setCmp n x).pcores = s.pcores := rfl
@[simp] theorem State.setCmp_arbs (s : State) (n : Nat) (x : Cmp) : (s.setCmp n x).arbs = s.arbs := rfl
@[simp] theorem State.setCmp_work (s : State) (n : Nat) (x : Cmp) : (s.setCmp n x).work = s.work := rfl
@[simp] theorem State.setCmp_nextTag (s : State) (n : Nat) (x : Cmp) : (s.setCmp n x).nextTag = s.nextTag := rfl
@[simp] theorem State.setCmp_mcs (s : State) (n : Nat) (x : Cmp) : (s.setCmp n x).mcs = s.mcs := rfl
@[simp] theorem State.setCmp_homes (s : State) (n : Nat) (x : Cmp) : (s.setCmp n x).homes = s.homes := rfl
@[simp] theorem State.setCmp_ert (s : State) (n : Nat) (x : Cmp) : (s.setCmp n x).ert = s.ert := rfl
@[simp] theorem State.setCmp_posting (s : State) (n : Nat) (x : Cmp) : (s.setCmp n x).posting = s.posting := rfl
@[simp] theorem State.setCmp_points (s : State) (n : Nat) (x : Cmp) : (s.setCmp n x).points = s.points := rfl
@[simp] theorem State.setCmp_queues (s : State) (n : Nat) (x : Cmp) : (s.setCmp n x).queues = s.queues := rfl
@[simp] theorem State.setCmp_qes (s : State) (n : Nat) (x : Cmp) : (s.setCmp n x).qes = s.qes := rfl
@[simp] theorem State.setCmp_net (s : State) (n : Nat) (x : Cmp) : (s.setCmp n x).net = s.net := rfl
@[simp] theorem State.setCmp_enc (s : State) (n : Nat) (x : Cmp) : (s.setCmp n x).enc = s.enc := rfl
@[simp] theorem State.setCmp_pair (s : State) (n : Nat) (x : Cmp) : (s.setCmp n x).pair = s.pair := rfl
@[simp] theorem State.setCmp_lemam (s : State) (n : Nat) (x : Cmp) : (s.setCmp n x).lemam = s.lemam := rfl
@[simp] theorem State.setCmp_dbg (s : State) (n : Nat) (x : Cmp) : (s.setCmp n x).dbg = s.dbg := rfl
@[simp] theorem State.setCmp_rd (s : State) (n : Nat) (x : Cmp) (r : Nat) : (s.setCmp n x).rd r = s.rd r := rfl
@[simp] theorem State.setCmp_byte (s : State) (n : Nat) (x : Cmp) (r : Nat) : (s.setCmp n x).byte r = s.byte r := rfl
@[simp] theorem State.setCmp_arb_at (s : State) (n : Nat) (x : Cmp) (j : Nat) : (s.setCmp n x).arb j = s.arb j := rfl
@[simp] theorem State.setCmp_mc_at (s : State) (n : Nat) (x : Cmp) (j : Nat) : (s.setCmp n x).mc j = s.mc j := rfl
@[simp] theorem State.setCmp_home_at (s : State) (n : Nat) (x : Cmp) (j : Nat) : (s.setCmp n x).home j = s.home j := rfl
@[simp] theorem State.setCmp_pin_at (s : State) (n : Nat) (x : Cmp) (j : Nat) : (s.setCmp n x).pin j = s.pin j := rfl
@[simp] theorem State.setCmp_base_at (s : State) (n : Nat) (x : Cmp) (j : Nat) : (s.setCmp n x).base j = s.base j := rfl
@[simp] theorem State.setCmp_bank_at (s : State) (n : Nat) (x : Cmp) (j : Nat) : (s.setCmp n x).bank j = s.bank j := rfl
@[simp] theorem State.setCmp_cmp_same (s : State) (n : Nat) (x : Cmp) : (s.setCmp n x).cmp n = x := by simp [State.cmp, State.setCmp]
theorem State.setCmp_cmp_ne (s : State) (n : Nat) (x : Cmp) (j : Nat) (h : n ≠ j) : (s.setCmp n x).cmp j = s.cmp j := by
  simp [State.cmp, State.setCmp, tabGet_set_ne _ _ _ _ h]
@[simp] theorem State.setCmp_cap_at (s : State) (n : Nat) (x : Cmp) (j : Nat) : (s.setCmp n x).cap j = s.cap j := rfl
@[simp] theorem State.setCmp_sdf_at (s : State) (n : Nat) (x : Cmp) (j : Nat) : (s.setCmp n x).sdf j = s.sdf j := rfl
@[simp] theorem State.setCmp_ctr_at (s : State) (n : Nat) (x : Cmp) (j : Nat) : (s.setCmp n x).ctr j = s.ctr j := rfl
@[simp] theorem State.setCmp_pcore_at (s : State) (n : Nat) (x : Cmp) (j : Nat) : (s.setCmp n x).pcore j = s.pcore j := rfl
@[simp] theorem State.setCmp_core_at (s : State) (n : Nat) (x : Cmp) (j : Nat) : (s.setCmp n x).core j = s.core j := rfl
@[simp] theorem State.setCmp_point_at (s : State) (n : Nat) (x : Cmp) (j : Nat) : (s.setCmp n x).point j = s.point j := rfl
@[simp] theorem State.setCmp_queue_at (s : State) (n : Nat) (x : Cmp) (j : Nat) : (s.setCmp n x).queue j = s.queue j := rfl

/-! ### `setCap` -/

@[simp] theorem State.setCap_pending (s : State) (n : Nat) (x : Cap) : (s.setCap n x).pending = s.pending := rfl
@[simp] theorem State.setCap_agenda (s : State) (n : Nat) (x : Cap) : (s.setCap n x).agenda = s.agenda := rfl
@[simp] theorem State.setCap_clk (s : State) (n : Nat) (x : Cap) : (s.setCap n x).clk = s.clk := rfl
@[simp] theorem State.setCap_free (s : State) (n : Nat) (x : Cap) : (s.setCap n x).free = s.free := rfl
@[simp] theorem State.setCap_lastRead (s : State) (n : Nat) (x : Cap) : (s.setCap n x).lastRead = s.lastRead := rfl
@[simp] theorem State.setCap_regs (s : State) (n : Nat) (x : Cap) : (s.setCap n x).regs = s.regs := rfl
@[simp] theorem State.setCap_mem (s : State) (n : Nat) (x : Cap) : (s.setCap n x).mem = s.mem := rfl
@[simp] theorem State.setCap_gt (s : State) (n : Nat) (x : Cap) : (s.setCap n x).gt = s.gt := rfl
@[simp] theorem State.setCap_bases (s : State) (n : Nat) (x : Cap) : (s.setCap n x).bases = s.bases := rfl
@[simp] theorem State.setCap_cmps (s : State) (n : Nat) (x : Cap) : (s.setCap n x).cmps = s.cmps := rfl
@[simp] theorem State.setCap_crossed (s : State) (n : Nat) (x : Cap) : (s.setCap n x).crossed = s.crossed := rfl
@[simp] theorem State.setCap_pins (s : State) (n : Nat) (x : Cap) : (s.setCap n x).pins = s.pins := rfl
@[simp] theorem State.setCap_banks (s : State) (n : Nat) (x : Cap) : (s.setCap n x).banks = s.banks := rfl
@[simp] theorem State.setCap_sdfs (s : State) (n : Nat) (x : Cap) : (s.setCap n x).sdfs = s.sdfs := rfl
@[simp] theorem State.setCap_ctrs (s : State) (n : Nat) (x : Cap) : (s.setCap n x).ctrs = s.ctrs := rfl
@[simp] theorem State.setCap_locks (s : State) (n : Nat) (x : Cap) : (s.setCap n x).locks = s.locks := rfl
@[simp] theorem State.setCap_sheet (s : State) (n : Nat) (x : Cap) : (s.setCap n x).sheet = s.sheet := rfl
@[simp] theorem State.setCap_cores (s : State) (n : Nat) (x : Cap) : (s.setCap n x).cores = s.cores := rfl
@[simp] theorem State.setCap_modes (s : State) (n : Nat) (x : Cap) : (s.setCap n x).modes = s.modes := rfl
@[simp] theorem State.setCap_spare (s : State) (n : Nat) (x : Cap) : (s.setCap n x).spare = s.spare := rfl
@[simp] theorem State.setCap_poison (s : State) (n : Nat) (x : Cap) : (s.setCap n x).poison = s.poison := rfl
@[simp] theorem State.setCap_pcores (s : State) (n : Nat) (x : Cap) : (s.setCap n x).pcores = s.pcores := rfl
@[simp] theorem State.setCap_arbs (s : State) (n : Nat) (x : Cap) : (s.setCap n x).arbs = s.arbs := rfl
@[simp] theorem State.setCap_work (s : State) (n : Nat) (x : Cap) : (s.setCap n x).work = s.work := rfl
@[simp] theorem State.setCap_nextTag (s : State) (n : Nat) (x : Cap) : (s.setCap n x).nextTag = s.nextTag := rfl
@[simp] theorem State.setCap_mcs (s : State) (n : Nat) (x : Cap) : (s.setCap n x).mcs = s.mcs := rfl
@[simp] theorem State.setCap_homes (s : State) (n : Nat) (x : Cap) : (s.setCap n x).homes = s.homes := rfl
@[simp] theorem State.setCap_ert (s : State) (n : Nat) (x : Cap) : (s.setCap n x).ert = s.ert := rfl
@[simp] theorem State.setCap_posting (s : State) (n : Nat) (x : Cap) : (s.setCap n x).posting = s.posting := rfl
@[simp] theorem State.setCap_points (s : State) (n : Nat) (x : Cap) : (s.setCap n x).points = s.points := rfl
@[simp] theorem State.setCap_queues (s : State) (n : Nat) (x : Cap) : (s.setCap n x).queues = s.queues := rfl
@[simp] theorem State.setCap_qes (s : State) (n : Nat) (x : Cap) : (s.setCap n x).qes = s.qes := rfl
@[simp] theorem State.setCap_net (s : State) (n : Nat) (x : Cap) : (s.setCap n x).net = s.net := rfl
@[simp] theorem State.setCap_enc (s : State) (n : Nat) (x : Cap) : (s.setCap n x).enc = s.enc := rfl
@[simp] theorem State.setCap_pair (s : State) (n : Nat) (x : Cap) : (s.setCap n x).pair = s.pair := rfl
@[simp] theorem State.setCap_lemam (s : State) (n : Nat) (x : Cap) : (s.setCap n x).lemam = s.lemam := rfl
@[simp] theorem State.setCap_dbg (s : State) (n : Nat) (x : Cap) : (s.setCap n x).dbg = s.dbg := rfl
@[simp] theorem State.setCap_rd (s : State) (n : Nat) (x : Cap) (r : Nat) : (s.setCap n x).rd r = s.rd r := rfl
@[simp] theorem State.setCap_byte (s : State) (n : Nat) (x : Cap) (r : Nat) : (s.setCap n x).byte r = s.byte r := rfl
@[simp] theorem State.setCap_arb_at (s : State) (n : Nat) (x : Cap) (j : Nat) : (s.setCap n x).arb j = s.arb j := rfl
@[simp] theorem State.setCap_mc_at (s : State) (n : Nat) (x : Cap) (j : Nat) : (s.setCap n x).mc j = s.mc j := rfl
@[simp] theorem State.setCap_home_at (s : State) (n : Nat) (x : Cap) (j : Nat) : (s.setCap n x).home j = s.home j := rfl
@[simp] theorem State.setCap_pin_at (s : State) (n : Nat) (x : Cap) (j : Nat) : (s.setCap n x).pin j = s.pin j := rfl
@[simp] theorem State.setCap_base_at (s : State) (n : Nat) (x : Cap) (j : Nat) : (s.setCap n x).base j = s.base j := rfl
@[simp] theorem State.setCap_bank_at (s : State) (n : Nat) (x : Cap) (j : Nat) : (s.setCap n x).bank j = s.bank j := rfl
@[simp] theorem State.setCap_cmp_at (s : State) (n : Nat) (x : Cap) (j : Nat) : (s.setCap n x).cmp j = s.cmp j := rfl
@[simp] theorem State.setCap_cap_same (s : State) (n : Nat) (x : Cap) : (s.setCap n x).cap n = x := by simp [State.cap, State.setCap]
theorem State.setCap_cap_ne (s : State) (n : Nat) (x : Cap) (j : Nat) (h : n ≠ j) : (s.setCap n x).cap j = s.cap j := by
  simp [State.cap, State.setCap, tabGet_set_ne _ _ _ _ h]
@[simp] theorem State.setCap_sdf_at (s : State) (n : Nat) (x : Cap) (j : Nat) : (s.setCap n x).sdf j = s.sdf j := rfl
@[simp] theorem State.setCap_ctr_at (s : State) (n : Nat) (x : Cap) (j : Nat) : (s.setCap n x).ctr j = s.ctr j := rfl
@[simp] theorem State.setCap_pcore_at (s : State) (n : Nat) (x : Cap) (j : Nat) : (s.setCap n x).pcore j = s.pcore j := rfl
@[simp] theorem State.setCap_core_at (s : State) (n : Nat) (x : Cap) (j : Nat) : (s.setCap n x).core j = s.core j := rfl
@[simp] theorem State.setCap_point_at (s : State) (n : Nat) (x : Cap) (j : Nat) : (s.setCap n x).point j = s.point j := rfl
@[simp] theorem State.setCap_queue_at (s : State) (n : Nat) (x : Cap) (j : Nat) : (s.setCap n x).queue j = s.queue j := rfl

/-! ### `setSdf` -/

@[simp] theorem State.setSdf_pending (s : State) (n : Nat) (x : Sdf) : (s.setSdf n x).pending = s.pending := rfl
@[simp] theorem State.setSdf_agenda (s : State) (n : Nat) (x : Sdf) : (s.setSdf n x).agenda = s.agenda := rfl
@[simp] theorem State.setSdf_clk (s : State) (n : Nat) (x : Sdf) : (s.setSdf n x).clk = s.clk := rfl
@[simp] theorem State.setSdf_free (s : State) (n : Nat) (x : Sdf) : (s.setSdf n x).free = s.free := rfl
@[simp] theorem State.setSdf_lastRead (s : State) (n : Nat) (x : Sdf) : (s.setSdf n x).lastRead = s.lastRead := rfl
@[simp] theorem State.setSdf_regs (s : State) (n : Nat) (x : Sdf) : (s.setSdf n x).regs = s.regs := rfl
@[simp] theorem State.setSdf_mem (s : State) (n : Nat) (x : Sdf) : (s.setSdf n x).mem = s.mem := rfl
@[simp] theorem State.setSdf_gt (s : State) (n : Nat) (x : Sdf) : (s.setSdf n x).gt = s.gt := rfl
@[simp] theorem State.setSdf_bases (s : State) (n : Nat) (x : Sdf) : (s.setSdf n x).bases = s.bases := rfl
@[simp] theorem State.setSdf_cmps (s : State) (n : Nat) (x : Sdf) : (s.setSdf n x).cmps = s.cmps := rfl
@[simp] theorem State.setSdf_crossed (s : State) (n : Nat) (x : Sdf) : (s.setSdf n x).crossed = s.crossed := rfl
@[simp] theorem State.setSdf_pins (s : State) (n : Nat) (x : Sdf) : (s.setSdf n x).pins = s.pins := rfl
@[simp] theorem State.setSdf_banks (s : State) (n : Nat) (x : Sdf) : (s.setSdf n x).banks = s.banks := rfl
@[simp] theorem State.setSdf_caps (s : State) (n : Nat) (x : Sdf) : (s.setSdf n x).caps = s.caps := rfl
@[simp] theorem State.setSdf_ctrs (s : State) (n : Nat) (x : Sdf) : (s.setSdf n x).ctrs = s.ctrs := rfl
@[simp] theorem State.setSdf_locks (s : State) (n : Nat) (x : Sdf) : (s.setSdf n x).locks = s.locks := rfl
@[simp] theorem State.setSdf_sheet (s : State) (n : Nat) (x : Sdf) : (s.setSdf n x).sheet = s.sheet := rfl
@[simp] theorem State.setSdf_cores (s : State) (n : Nat) (x : Sdf) : (s.setSdf n x).cores = s.cores := rfl
@[simp] theorem State.setSdf_modes (s : State) (n : Nat) (x : Sdf) : (s.setSdf n x).modes = s.modes := rfl
@[simp] theorem State.setSdf_spare (s : State) (n : Nat) (x : Sdf) : (s.setSdf n x).spare = s.spare := rfl
@[simp] theorem State.setSdf_poison (s : State) (n : Nat) (x : Sdf) : (s.setSdf n x).poison = s.poison := rfl
@[simp] theorem State.setSdf_pcores (s : State) (n : Nat) (x : Sdf) : (s.setSdf n x).pcores = s.pcores := rfl
@[simp] theorem State.setSdf_arbs (s : State) (n : Nat) (x : Sdf) : (s.setSdf n x).arbs = s.arbs := rfl
@[simp] theorem State.setSdf_work (s : State) (n : Nat) (x : Sdf) : (s.setSdf n x).work = s.work := rfl
@[simp] theorem State.setSdf_nextTag (s : State) (n : Nat) (x : Sdf) : (s.setSdf n x).nextTag = s.nextTag := rfl
@[simp] theorem State.setSdf_mcs (s : State) (n : Nat) (x : Sdf) : (s.setSdf n x).mcs = s.mcs := rfl
@[simp] theorem State.setSdf_homes (s : State) (n : Nat) (x : Sdf) : (s.setSdf n x).homes = s.homes := rfl
@[simp] theorem State.setSdf_ert (s : State) (n : Nat) (x : Sdf) : (s.setSdf n x).ert = s.ert := rfl
@[simp] theorem State.setSdf_posting (s : State) (n : Nat) (x : Sdf) : (s.setSdf n x).posting = s.posting := rfl
@[simp] theorem State.setSdf_points (s : State) (n : Nat) (x : Sdf) : (s.setSdf n x).points = s.points := rfl
@[simp] theorem State.setSdf_queues (s : State) (n : Nat) (x : Sdf) : (s.setSdf n x).queues = s.queues := rfl
@[simp] theorem State.setSdf_qes (s : State) (n : Nat) (x : Sdf) : (s.setSdf n x).qes = s.qes := rfl
@[simp] theorem State.setSdf_net (s : State) (n : Nat) (x : Sdf) : (s.setSdf n x).net = s.net := rfl
@[simp] theorem State.setSdf_enc (s : State) (n : Nat) (x : Sdf) : (s.setSdf n x).enc = s.enc := rfl
@[simp] theorem State.setSdf_pair (s : State) (n : Nat) (x : Sdf) : (s.setSdf n x).pair = s.pair := rfl
@[simp] theorem State.setSdf_lemam (s : State) (n : Nat) (x : Sdf) : (s.setSdf n x).lemam = s.lemam := rfl
@[simp] theorem State.setSdf_dbg (s : State) (n : Nat) (x : Sdf) : (s.setSdf n x).dbg = s.dbg := rfl
@[simp] theorem State.setSdf_rd (s : State) (n : Nat) (x : Sdf) (r : Nat) : (s.setSdf n x).rd r = s.rd r := rfl
@[simp] theorem State.setSdf_byte (s : State) (n : Nat) (x : Sdf) (r : Nat) : (s.setSdf n x).byte r = s.byte r := rfl
@[simp] theorem State.setSdf_arb_at (s : State) (n : Nat) (x : Sdf) (j : Nat) : (s.setSdf n x).arb j = s.arb j := rfl
@[simp] theorem State.setSdf_mc_at (s : State) (n : Nat) (x : Sdf) (j : Nat) : (s.setSdf n x).mc j = s.mc j := rfl
@[simp] theorem State.setSdf_home_at (s : State) (n : Nat) (x : Sdf) (j : Nat) : (s.setSdf n x).home j = s.home j := rfl
@[simp] theorem State.setSdf_pin_at (s : State) (n : Nat) (x : Sdf) (j : Nat) : (s.setSdf n x).pin j = s.pin j := rfl
@[simp] theorem State.setSdf_base_at (s : State) (n : Nat) (x : Sdf) (j : Nat) : (s.setSdf n x).base j = s.base j := rfl
@[simp] theorem State.setSdf_bank_at (s : State) (n : Nat) (x : Sdf) (j : Nat) : (s.setSdf n x).bank j = s.bank j := rfl
@[simp] theorem State.setSdf_cmp_at (s : State) (n : Nat) (x : Sdf) (j : Nat) : (s.setSdf n x).cmp j = s.cmp j := rfl
@[simp] theorem State.setSdf_cap_at (s : State) (n : Nat) (x : Sdf) (j : Nat) : (s.setSdf n x).cap j = s.cap j := rfl
@[simp] theorem State.setSdf_sdf_same (s : State) (n : Nat) (x : Sdf) : (s.setSdf n x).sdf n = x := by simp [State.sdf, State.setSdf]
theorem State.setSdf_sdf_ne (s : State) (n : Nat) (x : Sdf) (j : Nat) (h : n ≠ j) : (s.setSdf n x).sdf j = s.sdf j := by
  simp [State.sdf, State.setSdf, tabGet_set_ne _ _ _ _ h]
@[simp] theorem State.setSdf_ctr_at (s : State) (n : Nat) (x : Sdf) (j : Nat) : (s.setSdf n x).ctr j = s.ctr j := rfl
@[simp] theorem State.setSdf_pcore_at (s : State) (n : Nat) (x : Sdf) (j : Nat) : (s.setSdf n x).pcore j = s.pcore j := rfl
@[simp] theorem State.setSdf_core_at (s : State) (n : Nat) (x : Sdf) (j : Nat) : (s.setSdf n x).core j = s.core j := rfl
@[simp] theorem State.setSdf_point_at (s : State) (n : Nat) (x : Sdf) (j : Nat) : (s.setSdf n x).point j = s.point j := rfl
@[simp] theorem State.setSdf_queue_at (s : State) (n : Nat) (x : Sdf) (j : Nat) : (s.setSdf n x).queue j = s.queue j := rfl

/-! ### `setCtr` -/

@[simp] theorem State.setCtr_pending (s : State) (n : Nat) (x : Ctr) : (s.setCtr n x).pending = s.pending := rfl
@[simp] theorem State.setCtr_agenda (s : State) (n : Nat) (x : Ctr) : (s.setCtr n x).agenda = s.agenda := rfl
@[simp] theorem State.setCtr_clk (s : State) (n : Nat) (x : Ctr) : (s.setCtr n x).clk = s.clk := rfl
@[simp] theorem State.setCtr_free (s : State) (n : Nat) (x : Ctr) : (s.setCtr n x).free = s.free := rfl
@[simp] theorem State.setCtr_lastRead (s : State) (n : Nat) (x : Ctr) : (s.setCtr n x).lastRead = s.lastRead := rfl
@[simp] theorem State.setCtr_regs (s : State) (n : Nat) (x : Ctr) : (s.setCtr n x).regs = s.regs := rfl
@[simp] theorem State.setCtr_mem (s : State) (n : Nat) (x : Ctr) : (s.setCtr n x).mem = s.mem := rfl
@[simp] theorem State.setCtr_gt (s : State) (n : Nat) (x : Ctr) : (s.setCtr n x).gt = s.gt := rfl
@[simp] theorem State.setCtr_bases (s : State) (n : Nat) (x : Ctr) : (s.setCtr n x).bases = s.bases := rfl
@[simp] theorem State.setCtr_cmps (s : State) (n : Nat) (x : Ctr) : (s.setCtr n x).cmps = s.cmps := rfl
@[simp] theorem State.setCtr_crossed (s : State) (n : Nat) (x : Ctr) : (s.setCtr n x).crossed = s.crossed := rfl
@[simp] theorem State.setCtr_pins (s : State) (n : Nat) (x : Ctr) : (s.setCtr n x).pins = s.pins := rfl
@[simp] theorem State.setCtr_banks (s : State) (n : Nat) (x : Ctr) : (s.setCtr n x).banks = s.banks := rfl
@[simp] theorem State.setCtr_caps (s : State) (n : Nat) (x : Ctr) : (s.setCtr n x).caps = s.caps := rfl
@[simp] theorem State.setCtr_sdfs (s : State) (n : Nat) (x : Ctr) : (s.setCtr n x).sdfs = s.sdfs := rfl
@[simp] theorem State.setCtr_locks (s : State) (n : Nat) (x : Ctr) : (s.setCtr n x).locks = s.locks := rfl
@[simp] theorem State.setCtr_sheet (s : State) (n : Nat) (x : Ctr) : (s.setCtr n x).sheet = s.sheet := rfl
@[simp] theorem State.setCtr_cores (s : State) (n : Nat) (x : Ctr) : (s.setCtr n x).cores = s.cores := rfl
@[simp] theorem State.setCtr_modes (s : State) (n : Nat) (x : Ctr) : (s.setCtr n x).modes = s.modes := rfl
@[simp] theorem State.setCtr_spare (s : State) (n : Nat) (x : Ctr) : (s.setCtr n x).spare = s.spare := rfl
@[simp] theorem State.setCtr_poison (s : State) (n : Nat) (x : Ctr) : (s.setCtr n x).poison = s.poison := rfl
@[simp] theorem State.setCtr_pcores (s : State) (n : Nat) (x : Ctr) : (s.setCtr n x).pcores = s.pcores := rfl
@[simp] theorem State.setCtr_arbs (s : State) (n : Nat) (x : Ctr) : (s.setCtr n x).arbs = s.arbs := rfl
@[simp] theorem State.setCtr_work (s : State) (n : Nat) (x : Ctr) : (s.setCtr n x).work = s.work := rfl
@[simp] theorem State.setCtr_nextTag (s : State) (n : Nat) (x : Ctr) : (s.setCtr n x).nextTag = s.nextTag := rfl
@[simp] theorem State.setCtr_mcs (s : State) (n : Nat) (x : Ctr) : (s.setCtr n x).mcs = s.mcs := rfl
@[simp] theorem State.setCtr_homes (s : State) (n : Nat) (x : Ctr) : (s.setCtr n x).homes = s.homes := rfl
@[simp] theorem State.setCtr_ert (s : State) (n : Nat) (x : Ctr) : (s.setCtr n x).ert = s.ert := rfl
@[simp] theorem State.setCtr_posting (s : State) (n : Nat) (x : Ctr) : (s.setCtr n x).posting = s.posting := rfl
@[simp] theorem State.setCtr_points (s : State) (n : Nat) (x : Ctr) : (s.setCtr n x).points = s.points := rfl
@[simp] theorem State.setCtr_queues (s : State) (n : Nat) (x : Ctr) : (s.setCtr n x).queues = s.queues := rfl
@[simp] theorem State.setCtr_qes (s : State) (n : Nat) (x : Ctr) : (s.setCtr n x).qes = s.qes := rfl
@[simp] theorem State.setCtr_net (s : State) (n : Nat) (x : Ctr) : (s.setCtr n x).net = s.net := rfl
@[simp] theorem State.setCtr_enc (s : State) (n : Nat) (x : Ctr) : (s.setCtr n x).enc = s.enc := rfl
@[simp] theorem State.setCtr_pair (s : State) (n : Nat) (x : Ctr) : (s.setCtr n x).pair = s.pair := rfl
@[simp] theorem State.setCtr_lemam (s : State) (n : Nat) (x : Ctr) : (s.setCtr n x).lemam = s.lemam := rfl
@[simp] theorem State.setCtr_dbg (s : State) (n : Nat) (x : Ctr) : (s.setCtr n x).dbg = s.dbg := rfl
@[simp] theorem State.setCtr_rd (s : State) (n : Nat) (x : Ctr) (r : Nat) : (s.setCtr n x).rd r = s.rd r := rfl
@[simp] theorem State.setCtr_byte (s : State) (n : Nat) (x : Ctr) (r : Nat) : (s.setCtr n x).byte r = s.byte r := rfl
@[simp] theorem State.setCtr_arb_at (s : State) (n : Nat) (x : Ctr) (j : Nat) : (s.setCtr n x).arb j = s.arb j := rfl
@[simp] theorem State.setCtr_mc_at (s : State) (n : Nat) (x : Ctr) (j : Nat) : (s.setCtr n x).mc j = s.mc j := rfl
@[simp] theorem State.setCtr_home_at (s : State) (n : Nat) (x : Ctr) (j : Nat) : (s.setCtr n x).home j = s.home j := rfl
@[simp] theorem State.setCtr_pin_at (s : State) (n : Nat) (x : Ctr) (j : Nat) : (s.setCtr n x).pin j = s.pin j := rfl
@[simp] theorem State.setCtr_base_at (s : State) (n : Nat) (x : Ctr) (j : Nat) : (s.setCtr n x).base j = s.base j := rfl
@[simp] theorem State.setCtr_bank_at (s : State) (n : Nat) (x : Ctr) (j : Nat) : (s.setCtr n x).bank j = s.bank j := rfl
@[simp] theorem State.setCtr_cmp_at (s : State) (n : Nat) (x : Ctr) (j : Nat) : (s.setCtr n x).cmp j = s.cmp j := rfl
@[simp] theorem State.setCtr_cap_at (s : State) (n : Nat) (x : Ctr) (j : Nat) : (s.setCtr n x).cap j = s.cap j := rfl
@[simp] theorem State.setCtr_sdf_at (s : State) (n : Nat) (x : Ctr) (j : Nat) : (s.setCtr n x).sdf j = s.sdf j := rfl
@[simp] theorem State.setCtr_ctr_same (s : State) (n : Nat) (x : Ctr) : (s.setCtr n x).ctr n = x := by simp [State.ctr, State.setCtr]
theorem State.setCtr_ctr_ne (s : State) (n : Nat) (x : Ctr) (j : Nat) (h : n ≠ j) : (s.setCtr n x).ctr j = s.ctr j := by
  simp [State.ctr, State.setCtr, tabGet_set_ne _ _ _ _ h]
@[simp] theorem State.setCtr_pcore_at (s : State) (n : Nat) (x : Ctr) (j : Nat) : (s.setCtr n x).pcore j = s.pcore j := rfl
@[simp] theorem State.setCtr_core_at (s : State) (n : Nat) (x : Ctr) (j : Nat) : (s.setCtr n x).core j = s.core j := rfl
@[simp] theorem State.setCtr_point_at (s : State) (n : Nat) (x : Ctr) (j : Nat) : (s.setCtr n x).point j = s.point j := rfl
@[simp] theorem State.setCtr_queue_at (s : State) (n : Nat) (x : Ctr) (j : Nat) : (s.setCtr n x).queue j = s.queue j := rfl

/-! ### `setPcore` -/

@[simp] theorem State.setPcore_pending (s : State) (n : Nat) (x : PCore) : (s.setPcore n x).pending = s.pending := rfl
@[simp] theorem State.setPcore_agenda (s : State) (n : Nat) (x : PCore) : (s.setPcore n x).agenda = s.agenda := rfl
@[simp] theorem State.setPcore_clk (s : State) (n : Nat) (x : PCore) : (s.setPcore n x).clk = s.clk := rfl
@[simp] theorem State.setPcore_free (s : State) (n : Nat) (x : PCore) : (s.setPcore n x).free = s.free := rfl
@[simp] theorem State.setPcore_lastRead (s : State) (n : Nat) (x : PCore) : (s.setPcore n x).lastRead = s.lastRead := rfl
@[simp] theorem State.setPcore_regs (s : State) (n : Nat) (x : PCore) : (s.setPcore n x).regs = s.regs := rfl
@[simp] theorem State.setPcore_mem (s : State) (n : Nat) (x : PCore) : (s.setPcore n x).mem = s.mem := rfl
@[simp] theorem State.setPcore_gt (s : State) (n : Nat) (x : PCore) : (s.setPcore n x).gt = s.gt := rfl
@[simp] theorem State.setPcore_bases (s : State) (n : Nat) (x : PCore) : (s.setPcore n x).bases = s.bases := rfl
@[simp] theorem State.setPcore_cmps (s : State) (n : Nat) (x : PCore) : (s.setPcore n x).cmps = s.cmps := rfl
@[simp] theorem State.setPcore_crossed (s : State) (n : Nat) (x : PCore) : (s.setPcore n x).crossed = s.crossed := rfl
@[simp] theorem State.setPcore_pins (s : State) (n : Nat) (x : PCore) : (s.setPcore n x).pins = s.pins := rfl
@[simp] theorem State.setPcore_banks (s : State) (n : Nat) (x : PCore) : (s.setPcore n x).banks = s.banks := rfl
@[simp] theorem State.setPcore_caps (s : State) (n : Nat) (x : PCore) : (s.setPcore n x).caps = s.caps := rfl
@[simp] theorem State.setPcore_sdfs (s : State) (n : Nat) (x : PCore) : (s.setPcore n x).sdfs = s.sdfs := rfl
@[simp] theorem State.setPcore_ctrs (s : State) (n : Nat) (x : PCore) : (s.setPcore n x).ctrs = s.ctrs := rfl
@[simp] theorem State.setPcore_locks (s : State) (n : Nat) (x : PCore) : (s.setPcore n x).locks = s.locks := rfl
@[simp] theorem State.setPcore_sheet (s : State) (n : Nat) (x : PCore) : (s.setPcore n x).sheet = s.sheet := rfl
@[simp] theorem State.setPcore_cores (s : State) (n : Nat) (x : PCore) : (s.setPcore n x).cores = s.cores := rfl
@[simp] theorem State.setPcore_modes (s : State) (n : Nat) (x : PCore) : (s.setPcore n x).modes = s.modes := rfl
@[simp] theorem State.setPcore_spare (s : State) (n : Nat) (x : PCore) : (s.setPcore n x).spare = s.spare := rfl
@[simp] theorem State.setPcore_poison (s : State) (n : Nat) (x : PCore) : (s.setPcore n x).poison = s.poison := rfl
@[simp] theorem State.setPcore_arbs (s : State) (n : Nat) (x : PCore) : (s.setPcore n x).arbs = s.arbs := rfl
@[simp] theorem State.setPcore_work (s : State) (n : Nat) (x : PCore) : (s.setPcore n x).work = s.work := rfl
@[simp] theorem State.setPcore_nextTag (s : State) (n : Nat) (x : PCore) : (s.setPcore n x).nextTag = s.nextTag := rfl
@[simp] theorem State.setPcore_mcs (s : State) (n : Nat) (x : PCore) : (s.setPcore n x).mcs = s.mcs := rfl
@[simp] theorem State.setPcore_homes (s : State) (n : Nat) (x : PCore) : (s.setPcore n x).homes = s.homes := rfl
@[simp] theorem State.setPcore_ert (s : State) (n : Nat) (x : PCore) : (s.setPcore n x).ert = s.ert := rfl
@[simp] theorem State.setPcore_posting (s : State) (n : Nat) (x : PCore) : (s.setPcore n x).posting = s.posting := rfl
@[simp] theorem State.setPcore_points (s : State) (n : Nat) (x : PCore) : (s.setPcore n x).points = s.points := rfl
@[simp] theorem State.setPcore_queues (s : State) (n : Nat) (x : PCore) : (s.setPcore n x).queues = s.queues := rfl
@[simp] theorem State.setPcore_qes (s : State) (n : Nat) (x : PCore) : (s.setPcore n x).qes = s.qes := rfl
@[simp] theorem State.setPcore_net (s : State) (n : Nat) (x : PCore) : (s.setPcore n x).net = s.net := rfl
@[simp] theorem State.setPcore_enc (s : State) (n : Nat) (x : PCore) : (s.setPcore n x).enc = s.enc := rfl
@[simp] theorem State.setPcore_pair (s : State) (n : Nat) (x : PCore) : (s.setPcore n x).pair = s.pair := rfl
@[simp] theorem State.setPcore_lemam (s : State) (n : Nat) (x : PCore) : (s.setPcore n x).lemam = s.lemam := rfl
@[simp] theorem State.setPcore_dbg (s : State) (n : Nat) (x : PCore) : (s.setPcore n x).dbg = s.dbg := rfl
@[simp] theorem State.setPcore_rd (s : State) (n : Nat) (x : PCore) (r : Nat) : (s.setPcore n x).rd r = s.rd r := rfl
@[simp] theorem State.setPcore_byte (s : State) (n : Nat) (x : PCore) (r : Nat) : (s.setPcore n x).byte r = s.byte r := rfl
@[simp] theorem State.setPcore_arb_at (s : State) (n : Nat) (x : PCore) (j : Nat) : (s.setPcore n x).arb j = s.arb j := rfl
@[simp] theorem State.setPcore_mc_at (s : State) (n : Nat) (x : PCore) (j : Nat) : (s.setPcore n x).mc j = s.mc j := rfl
@[simp] theorem State.setPcore_home_at (s : State) (n : Nat) (x : PCore) (j : Nat) : (s.setPcore n x).home j = s.home j := rfl
@[simp] theorem State.setPcore_pin_at (s : State) (n : Nat) (x : PCore) (j : Nat) : (s.setPcore n x).pin j = s.pin j := rfl
@[simp] theorem State.setPcore_base_at (s : State) (n : Nat) (x : PCore) (j : Nat) : (s.setPcore n x).base j = s.base j := rfl
@[simp] theorem State.setPcore_bank_at (s : State) (n : Nat) (x : PCore) (j : Nat) : (s.setPcore n x).bank j = s.bank j := rfl
@[simp] theorem State.setPcore_cmp_at (s : State) (n : Nat) (x : PCore) (j : Nat) : (s.setPcore n x).cmp j = s.cmp j := rfl
@[simp] theorem State.setPcore_cap_at (s : State) (n : Nat) (x : PCore) (j : Nat) : (s.setPcore n x).cap j = s.cap j := rfl
@[simp] theorem State.setPcore_sdf_at (s : State) (n : Nat) (x : PCore) (j : Nat) : (s.setPcore n x).sdf j = s.sdf j := rfl
@[simp] theorem State.setPcore_ctr_at (s : State) (n : Nat) (x : PCore) (j : Nat) : (s.setPcore n x).ctr j = s.ctr j := rfl
@[simp] theorem State.setPcore_pcore_same (s : State) (n : Nat) (x : PCore) : (s.setPcore n x).pcore n = x := by simp [State.pcore, State.setPcore]
theorem State.setPcore_pcore_ne (s : State) (n : Nat) (x : PCore) (j : Nat) (h : n ≠ j) : (s.setPcore n x).pcore j = s.pcore j := by
  simp [State.pcore, State.setPcore, tabGet_set_ne _ _ _ _ h]
@[simp] theorem State.setPcore_core_at (s : State) (n : Nat) (x : PCore) (j : Nat) : (s.setPcore n x).core j = s.core j := rfl
@[simp] theorem State.setPcore_point_at (s : State) (n : Nat) (x : PCore) (j : Nat) : (s.setPcore n x).point j = s.point j := rfl
@[simp] theorem State.setPcore_queue_at (s : State) (n : Nat) (x : PCore) (j : Nat) : (s.setPcore n x).queue j = s.queue j := rfl

/-! ### `setCore` -/

@[simp] theorem State.setCore_pending (s : State) (n : Nat) (x : Core) : (s.setCore n x).pending = s.pending := rfl
@[simp] theorem State.setCore_agenda (s : State) (n : Nat) (x : Core) : (s.setCore n x).agenda = s.agenda := rfl
@[simp] theorem State.setCore_clk (s : State) (n : Nat) (x : Core) : (s.setCore n x).clk = s.clk := rfl
@[simp] theorem State.setCore_free (s : State) (n : Nat) (x : Core) : (s.setCore n x).free = s.free := rfl
@[simp] theorem State.setCore_lastRead (s : State) (n : Nat) (x : Core) : (s.setCore n x).lastRead = s.lastRead := rfl
@[simp] theorem State.setCore_regs (s : State) (n : Nat) (x : Core) : (s.setCore n x).regs = s.regs := rfl
@[simp] theorem State.setCore_mem (s : State) (n : Nat) (x : Core) : (s.setCore n x).mem = s.mem := rfl
@[simp] theorem State.setCore_gt (s : State) (n : Nat) (x : Core) : (s.setCore n x).gt = s.gt := rfl
@[simp] theorem State.setCore_bases (s : State) (n : Nat) (x : Core) : (s.setCore n x).bases = s.bases := rfl
@[simp] theorem State.setCore_cmps (s : State) (n : Nat) (x : Core) : (s.setCore n x).cmps = s.cmps := rfl
@[simp] theorem State.setCore_crossed (s : State) (n : Nat) (x : Core) : (s.setCore n x).crossed = s.crossed := rfl
@[simp] theorem State.setCore_pins (s : State) (n : Nat) (x : Core) : (s.setCore n x).pins = s.pins := rfl
@[simp] theorem State.setCore_banks (s : State) (n : Nat) (x : Core) : (s.setCore n x).banks = s.banks := rfl
@[simp] theorem State.setCore_caps (s : State) (n : Nat) (x : Core) : (s.setCore n x).caps = s.caps := rfl
@[simp] theorem State.setCore_sdfs (s : State) (n : Nat) (x : Core) : (s.setCore n x).sdfs = s.sdfs := rfl
@[simp] theorem State.setCore_ctrs (s : State) (n : Nat) (x : Core) : (s.setCore n x).ctrs = s.ctrs := rfl
@[simp] theorem State.setCore_locks (s : State) (n : Nat) (x : Core) : (s.setCore n x).locks = s.locks := rfl
@[simp] theorem State.setCore_sheet (s : State) (n : Nat) (x : Core) : (s.setCore n x).sheet = s.sheet := rfl
@[simp] theorem State.setCore_modes (s : State) (n : Nat) (x : Core) : (s.setCore n x).modes = s.modes := rfl
@[simp] theorem State.setCore_spare (s : State) (n : Nat) (x : Core) : (s.setCore n x).spare = s.spare := rfl
@[simp] theorem State.setCore_poison (s : State) (n : Nat) (x : Core) : (s.setCore n x).poison = s.poison := rfl
@[simp] theorem State.setCore_pcores (s : State) (n : Nat) (x : Core) : (s.setCore n x).pcores = s.pcores := rfl
@[simp] theorem State.setCore_arbs (s : State) (n : Nat) (x : Core) : (s.setCore n x).arbs = s.arbs := rfl
@[simp] theorem State.setCore_work (s : State) (n : Nat) (x : Core) : (s.setCore n x).work = s.work := rfl
@[simp] theorem State.setCore_nextTag (s : State) (n : Nat) (x : Core) : (s.setCore n x).nextTag = s.nextTag := rfl
@[simp] theorem State.setCore_mcs (s : State) (n : Nat) (x : Core) : (s.setCore n x).mcs = s.mcs := rfl
@[simp] theorem State.setCore_homes (s : State) (n : Nat) (x : Core) : (s.setCore n x).homes = s.homes := rfl
@[simp] theorem State.setCore_ert (s : State) (n : Nat) (x : Core) : (s.setCore n x).ert = s.ert := rfl
@[simp] theorem State.setCore_posting (s : State) (n : Nat) (x : Core) : (s.setCore n x).posting = s.posting := rfl
@[simp] theorem State.setCore_points (s : State) (n : Nat) (x : Core) : (s.setCore n x).points = s.points := rfl
@[simp] theorem State.setCore_queues (s : State) (n : Nat) (x : Core) : (s.setCore n x).queues = s.queues := rfl
@[simp] theorem State.setCore_qes (s : State) (n : Nat) (x : Core) : (s.setCore n x).qes = s.qes := rfl
@[simp] theorem State.setCore_net (s : State) (n : Nat) (x : Core) : (s.setCore n x).net = s.net := rfl
@[simp] theorem State.setCore_enc (s : State) (n : Nat) (x : Core) : (s.setCore n x).enc = s.enc := rfl
@[simp] theorem State.setCore_pair (s : State) (n : Nat) (x : Core) : (s.setCore n x).pair = s.pair := rfl
@[simp] theorem State.setCore_lemam (s : State) (n : Nat) (x : Core) : (s.setCore n x).lemam = s.lemam := rfl
@[simp] theorem State.setCore_dbg (s : State) (n : Nat) (x : Core) : (s.setCore n x).dbg = s.dbg := rfl
@[simp] theorem State.setCore_rd (s : State) (n : Nat) (x : Core) (r : Nat) : (s.setCore n x).rd r = s.rd r := rfl
@[simp] theorem State.setCore_byte (s : State) (n : Nat) (x : Core) (r : Nat) : (s.setCore n x).byte r = s.byte r := rfl
@[simp] theorem State.setCore_arb_at (s : State) (n : Nat) (x : Core) (j : Nat) : (s.setCore n x).arb j = s.arb j := rfl
@[simp] theorem State.setCore_mc_at (s : State) (n : Nat) (x : Core) (j : Nat) : (s.setCore n x).mc j = s.mc j := rfl
@[simp] theorem State.setCore_home_at (s : State) (n : Nat) (x : Core) (j : Nat) : (s.setCore n x).home j = s.home j := rfl
@[simp] theorem State.setCore_pin_at (s : State) (n : Nat) (x : Core) (j : Nat) : (s.setCore n x).pin j = s.pin j := rfl
@[simp] theorem State.setCore_base_at (s : State) (n : Nat) (x : Core) (j : Nat) : (s.setCore n x).base j = s.base j := rfl
@[simp] theorem State.setCore_bank_at (s : State) (n : Nat) (x : Core) (j : Nat) : (s.setCore n x).bank j = s.bank j := rfl
@[simp] theorem State.setCore_cmp_at (s : State) (n : Nat) (x : Core) (j : Nat) : (s.setCore n x).cmp j = s.cmp j := rfl
@[simp] theorem State.setCore_cap_at (s : State) (n : Nat) (x : Core) (j : Nat) : (s.setCore n x).cap j = s.cap j := rfl
@[simp] theorem State.setCore_sdf_at (s : State) (n : Nat) (x : Core) (j : Nat) : (s.setCore n x).sdf j = s.sdf j := rfl
@[simp] theorem State.setCore_ctr_at (s : State) (n : Nat) (x : Core) (j : Nat) : (s.setCore n x).ctr j = s.ctr j := rfl
@[simp] theorem State.setCore_pcore_at (s : State) (n : Nat) (x : Core) (j : Nat) : (s.setCore n x).pcore j = s.pcore j := rfl
@[simp] theorem State.setCore_core_same (s : State) (n : Nat) (x : Core) : (s.setCore n x).core n = x := by simp [State.core, State.setCore]
theorem State.setCore_core_ne (s : State) (n : Nat) (x : Core) (j : Nat) (h : n ≠ j) : (s.setCore n x).core j = s.core j := by
  simp [State.core, State.setCore, tabGet_set_ne _ _ _ _ h]
@[simp] theorem State.setCore_point_at (s : State) (n : Nat) (x : Core) (j : Nat) : (s.setCore n x).point j = s.point j := rfl
@[simp] theorem State.setCore_queue_at (s : State) (n : Nat) (x : Core) (j : Nat) : (s.setCore n x).queue j = s.queue j := rfl

/-! ### `setPoint` -/

@[simp] theorem State.setPoint_pending (s : State) (n : Nat) (p : Point) : (s.setPoint n p).pending = s.pending := rfl
@[simp] theorem State.setPoint_agenda (s : State) (n : Nat) (p : Point) : (s.setPoint n p).agenda = s.agenda := rfl
@[simp] theorem State.setPoint_clk (s : State) (n : Nat) (p : Point) : (s.setPoint n p).clk = s.clk := rfl
@[simp] theorem State.setPoint_free (s : State) (n : Nat) (p : Point) : (s.setPoint n p).free = s.free := rfl
@[simp] theorem State.setPoint_lastRead (s : State) (n : Nat) (p : Point) : (s.setPoint n p).lastRead = s.lastRead := rfl
@[simp] theorem State.setPoint_regs (s : State) (n : Nat) (p : Point) : (s.setPoint n p).regs = s.regs := rfl
@[simp] theorem State.setPoint_mem (s : State) (n : Nat) (p : Point) : (s.setPoint n p).mem = s.mem := rfl
@[simp] theorem State.setPoint_gt (s : State) (n : Nat) (p : Point) : (s.setPoint n p).gt = s.gt := rfl
@[simp] theorem State.setPoint_bases (s : State) (n : Nat) (p : Point) : (s.setPoint n p).bases = s.bases := rfl
@[simp] theorem State.setPoint_cmps (s : State) (n : Nat) (p : Point) : (s.setPoint n p).cmps = s.cmps := rfl
@[simp] theorem State.setPoint_crossed (s : State) (n : Nat) (p : Point) : (s.setPoint n p).crossed = s.crossed := rfl
@[simp] theorem State.setPoint_pins (s : State) (n : Nat) (p : Point) : (s.setPoint n p).pins = s.pins := rfl
@[simp] theorem State.setPoint_banks (s : State) (n : Nat) (p : Point) : (s.setPoint n p).banks = s.banks := rfl
@[simp] theorem State.setPoint_caps (s : State) (n : Nat) (p : Point) : (s.setPoint n p).caps = s.caps := rfl
@[simp] theorem State.setPoint_sdfs (s : State) (n : Nat) (p : Point) : (s.setPoint n p).sdfs = s.sdfs := rfl
@[simp] theorem State.setPoint_ctrs (s : State) (n : Nat) (p : Point) : (s.setPoint n p).ctrs = s.ctrs := rfl
@[simp] theorem State.setPoint_locks (s : State) (n : Nat) (p : Point) : (s.setPoint n p).locks = s.locks := rfl
@[simp] theorem State.setPoint_sheet (s : State) (n : Nat) (p : Point) : (s.setPoint n p).sheet = s.sheet := rfl
@[simp] theorem State.setPoint_cores (s : State) (n : Nat) (p : Point) : (s.setPoint n p).cores = s.cores := rfl
@[simp] theorem State.setPoint_modes (s : State) (n : Nat) (p : Point) : (s.setPoint n p).modes = s.modes := rfl
@[simp] theorem State.setPoint_spare (s : State) (n : Nat) (p : Point) : (s.setPoint n p).spare = s.spare := rfl
@[simp] theorem State.setPoint_poison (s : State) (n : Nat) (p : Point) : (s.setPoint n p).poison = s.poison := rfl
@[simp] theorem State.setPoint_pcores (s : State) (n : Nat) (p : Point) : (s.setPoint n p).pcores = s.pcores := rfl
@[simp] theorem State.setPoint_arbs (s : State) (n : Nat) (p : Point) : (s.setPoint n p).arbs = s.arbs := rfl
@[simp] theorem State.setPoint_work (s : State) (n : Nat) (p : Point) : (s.setPoint n p).work = s.work := rfl
@[simp] theorem State.setPoint_nextTag (s : State) (n : Nat) (p : Point) : (s.setPoint n p).nextTag = s.nextTag := rfl
@[simp] theorem State.setPoint_mcs (s : State) (n : Nat) (p : Point) : (s.setPoint n p).mcs = s.mcs := rfl
@[simp] theorem State.setPoint_homes (s : State) (n : Nat) (p : Point) : (s.setPoint n p).homes = s.homes := rfl
@[simp] theorem State.setPoint_ert (s : State) (n : Nat) (p : Point) : (s.setPoint n p).ert = s.ert := rfl
@[simp] theorem State.setPoint_posting (s : State) (n : Nat) (p : Point) : (s.setPoint n p).posting = s.posting := rfl
@[simp] theorem State.setPoint_queues (s : State) (n : Nat) (p : Point) : (s.setPoint n p).queues = s.queues := rfl
@[simp] theorem State.setPoint_qes (s : State) (n : Nat) (p : Point) : (s.setPoint n p).qes = s.qes := rfl
@[simp] theorem State.setPoint_net (s : State) (n : Nat) (p : Point) : (s.setPoint n p).net = s.net := rfl
@[simp] theorem State.setPoint_enc (s : State) (n : Nat) (p : Point) : (s.setPoint n p).enc = s.enc := rfl
@[simp] theorem State.setPoint_pair (s : State) (n : Nat) (p : Point) : (s.setPoint n p).pair = s.pair := rfl
@[simp] theorem State.setPoint_lemam (s : State) (n : Nat) (p : Point) : (s.setPoint n p).lemam = s.lemam := rfl
@[simp] theorem State.setPoint_dbg (s : State) (n : Nat) (p : Point) : (s.setPoint n p).dbg = s.dbg := rfl
@[simp] theorem State.setPoint_rd (s : State) (n : Nat) (p : Point) (r : Nat) : (s.setPoint n p).rd r = s.rd r := rfl
@[simp] theorem State.setPoint_byte (s : State) (n : Nat) (p : Point) (r : Nat) : (s.setPoint n p).byte r = s.byte r := rfl
@[simp] theorem State.setPoint_arb_at (s : State) (n : Nat) (p : Point) (j : Nat) : (s.setPoint n p).arb j = s.arb j := rfl
@[simp] theorem State.setPoint_mc_at (s : State) (n : Nat) (p : Point) (j : Nat) : (s.setPoint n p).mc j = s.mc j := rfl
@[simp] theorem State.setPoint_home_at (s : State) (n : Nat) (p : Point) (j : Nat) : (s.setPoint n p).home j = s.home j := rfl
@[simp] theorem State.setPoint_pin_at (s : State) (n : Nat) (p : Point) (j : Nat) : (s.setPoint n p).pin j = s.pin j := rfl
@[simp] theorem State.setPoint_base_at (s : State) (n : Nat) (p : Point) (j : Nat) : (s.setPoint n p).base j = s.base j := rfl
@[simp] theorem State.setPoint_bank_at (s : State) (n : Nat) (p : Point) (j : Nat) : (s.setPoint n p).bank j = s.bank j := rfl
@[simp] theorem State.setPoint_cmp_at (s : State) (n : Nat) (p : Point) (j : Nat) : (s.setPoint n p).cmp j = s.cmp j := rfl
@[simp] theorem State.setPoint_cap_at (s : State) (n : Nat) (p : Point) (j : Nat) : (s.setPoint n p).cap j = s.cap j := rfl
@[simp] theorem State.setPoint_sdf_at (s : State) (n : Nat) (p : Point) (j : Nat) : (s.setPoint n p).sdf j = s.sdf j := rfl
@[simp] theorem State.setPoint_ctr_at (s : State) (n : Nat) (p : Point) (j : Nat) : (s.setPoint n p).ctr j = s.ctr j := rfl
@[simp] theorem State.setPoint_pcore_at (s : State) (n : Nat) (p : Point) (j : Nat) : (s.setPoint n p).pcore j = s.pcore j := rfl
@[simp] theorem State.setPoint_core_at (s : State) (n : Nat) (p : Point) (j : Nat) : (s.setPoint n p).core j = s.core j := rfl
@[simp] theorem State.setPoint_point_same (s : State) (n : Nat) (p : Point) : (s.setPoint n p).point n = p := by simp [State.point, State.setPoint]
theorem State.setPoint_point_ne (s : State) (n : Nat) (p : Point) (j : Nat) (h : n ≠ j) : (s.setPoint n p).point j = s.point j := by
  simp [State.point, State.setPoint, tabGet_set_ne _ _ _ _ h]
@[simp] theorem State.setPoint_queue_at (s : State) (n : Nat) (p : Point) (j : Nat) : (s.setPoint n p).queue j = s.queue j := rfl

/-! ### `setQueueCtx` -/

@[simp] theorem State.setQueueCtx_pending (s : State) (q : Nat) (x : Queue) : (s.setQueueCtx q x).pending = s.pending := rfl
@[simp] theorem State.setQueueCtx_agenda (s : State) (q : Nat) (x : Queue) : (s.setQueueCtx q x).agenda = s.agenda := rfl
@[simp] theorem State.setQueueCtx_clk (s : State) (q : Nat) (x : Queue) : (s.setQueueCtx q x).clk = s.clk := rfl
@[simp] theorem State.setQueueCtx_free (s : State) (q : Nat) (x : Queue) : (s.setQueueCtx q x).free = s.free := rfl
@[simp] theorem State.setQueueCtx_lastRead (s : State) (q : Nat) (x : Queue) : (s.setQueueCtx q x).lastRead = s.lastRead := rfl
@[simp] theorem State.setQueueCtx_regs (s : State) (q : Nat) (x : Queue) : (s.setQueueCtx q x).regs = s.regs := rfl
@[simp] theorem State.setQueueCtx_mem (s : State) (q : Nat) (x : Queue) : (s.setQueueCtx q x).mem = s.mem := rfl
@[simp] theorem State.setQueueCtx_gt (s : State) (q : Nat) (x : Queue) : (s.setQueueCtx q x).gt = s.gt := rfl
@[simp] theorem State.setQueueCtx_bases (s : State) (q : Nat) (x : Queue) : (s.setQueueCtx q x).bases = s.bases := rfl
@[simp] theorem State.setQueueCtx_cmps (s : State) (q : Nat) (x : Queue) : (s.setQueueCtx q x).cmps = s.cmps := rfl
@[simp] theorem State.setQueueCtx_crossed (s : State) (q : Nat) (x : Queue) : (s.setQueueCtx q x).crossed = s.crossed := rfl
@[simp] theorem State.setQueueCtx_pins (s : State) (q : Nat) (x : Queue) : (s.setQueueCtx q x).pins = s.pins := rfl
@[simp] theorem State.setQueueCtx_banks (s : State) (q : Nat) (x : Queue) : (s.setQueueCtx q x).banks = s.banks := rfl
@[simp] theorem State.setQueueCtx_caps (s : State) (q : Nat) (x : Queue) : (s.setQueueCtx q x).caps = s.caps := rfl
@[simp] theorem State.setQueueCtx_sdfs (s : State) (q : Nat) (x : Queue) : (s.setQueueCtx q x).sdfs = s.sdfs := rfl
@[simp] theorem State.setQueueCtx_ctrs (s : State) (q : Nat) (x : Queue) : (s.setQueueCtx q x).ctrs = s.ctrs := rfl
@[simp] theorem State.setQueueCtx_locks (s : State) (q : Nat) (x : Queue) : (s.setQueueCtx q x).locks = s.locks := rfl
@[simp] theorem State.setQueueCtx_sheet (s : State) (q : Nat) (x : Queue) : (s.setQueueCtx q x).sheet = s.sheet := rfl
@[simp] theorem State.setQueueCtx_cores (s : State) (q : Nat) (x : Queue) : (s.setQueueCtx q x).cores = s.cores := rfl
@[simp] theorem State.setQueueCtx_modes (s : State) (q : Nat) (x : Queue) : (s.setQueueCtx q x).modes = s.modes := rfl
@[simp] theorem State.setQueueCtx_spare (s : State) (q : Nat) (x : Queue) : (s.setQueueCtx q x).spare = s.spare := rfl
@[simp] theorem State.setQueueCtx_poison (s : State) (q : Nat) (x : Queue) : (s.setQueueCtx q x).poison = s.poison := rfl
@[simp] theorem State.setQueueCtx_pcores (s : State) (q : Nat) (x : Queue) : (s.setQueueCtx q x).pcores = s.pcores := rfl
@[simp] theorem State.setQueueCtx_arbs (s : State) (q : Nat) (x : Queue) : (s.setQueueCtx q x).arbs = s.arbs := rfl
@[simp] theorem State.setQueueCtx_work (s : State) (q : Nat) (x : Queue) : (s.setQueueCtx q x).work = s.work := rfl
@[simp] theorem State.setQueueCtx_nextTag (s : State) (q : Nat) (x : Queue) : (s.setQueueCtx q x).nextTag = s.nextTag := rfl
@[simp] theorem State.setQueueCtx_mcs (s : State) (q : Nat) (x : Queue) : (s.setQueueCtx q x).mcs = s.mcs := rfl
@[simp] theorem State.setQueueCtx_homes (s : State) (q : Nat) (x : Queue) : (s.setQueueCtx q x).homes = s.homes := rfl
@[simp] theorem State.setQueueCtx_ert (s : State) (q : Nat) (x : Queue) : (s.setQueueCtx q x).ert = s.ert := rfl
@[simp] theorem State.setQueueCtx_posting (s : State) (q : Nat) (x : Queue) : (s.setQueueCtx q x).posting = s.posting := rfl
@[simp] theorem State.setQueueCtx_points (s : State) (q : Nat) (x : Queue) : (s.setQueueCtx q x).points = s.points := rfl
@[simp] theorem State.setQueueCtx_qes (s : State) (q : Nat) (x : Queue) : (s.setQueueCtx q x).qes = s.qes := rfl
@[simp] theorem State.setQueueCtx_net (s : State) (q : Nat) (x : Queue) : (s.setQueueCtx q x).net = s.net := rfl
@[simp] theorem State.setQueueCtx_enc (s : State) (q : Nat) (x : Queue) : (s.setQueueCtx q x).enc = s.enc := rfl
@[simp] theorem State.setQueueCtx_pair (s : State) (q : Nat) (x : Queue) : (s.setQueueCtx q x).pair = s.pair := rfl
@[simp] theorem State.setQueueCtx_lemam (s : State) (q : Nat) (x : Queue) : (s.setQueueCtx q x).lemam = s.lemam := rfl
@[simp] theorem State.setQueueCtx_dbg (s : State) (q : Nat) (x : Queue) : (s.setQueueCtx q x).dbg = s.dbg := rfl
@[simp] theorem State.setQueueCtx_rd (s : State) (q : Nat) (x : Queue) (r : Nat) : (s.setQueueCtx q x).rd r = s.rd r := rfl
@[simp] theorem State.setQueueCtx_byte (s : State) (q : Nat) (x : Queue) (r : Nat) : (s.setQueueCtx q x).byte r = s.byte r := rfl
@[simp] theorem State.setQueueCtx_arb_at (s : State) (q : Nat) (x : Queue) (j : Nat) : (s.setQueueCtx q x).arb j = s.arb j := rfl
@[simp] theorem State.setQueueCtx_mc_at (s : State) (q : Nat) (x : Queue) (j : Nat) : (s.setQueueCtx q x).mc j = s.mc j := rfl
@[simp] theorem State.setQueueCtx_home_at (s : State) (q : Nat) (x : Queue) (j : Nat) : (s.setQueueCtx q x).home j = s.home j := rfl
@[simp] theorem State.setQueueCtx_pin_at (s : State) (q : Nat) (x : Queue) (j : Nat) : (s.setQueueCtx q x).pin j = s.pin j := rfl
@[simp] theorem State.setQueueCtx_base_at (s : State) (q : Nat) (x : Queue) (j : Nat) : (s.setQueueCtx q x).base j = s.base j := rfl
@[simp] theorem State.setQueueCtx_bank_at (s : State) (q : Nat) (x : Queue) (j : Nat) : (s.setQueueCtx q x).bank j = s.bank j := rfl
@[simp] theorem State.setQueueCtx_cmp_at (s : State) (q : Nat) (x : Queue) (j : Nat) : (s.setQueueCtx q x).cmp j = s.cmp j := rfl
@[simp] theorem State.setQueueCtx_cap_at (s : State) (q : Nat) (x : Queue) (j : Nat) : (s.setQueueCtx q x).cap j = s.cap j := rfl
@[simp] theorem State.setQueueCtx_sdf_at (s : State) (q : Nat) (x : Queue) (j : Nat) : (s.setQueueCtx q x).sdf j = s.sdf j := rfl
@[simp] theorem State.setQueueCtx_ctr_at (s : State) (q : Nat) (x : Queue) (j : Nat) : (s.setQueueCtx q x).ctr j = s.ctr j := rfl
@[simp] theorem State.setQueueCtx_pcore_at (s : State) (q : Nat) (x : Queue) (j : Nat) : (s.setQueueCtx q x).pcore j = s.pcore j := rfl
@[simp] theorem State.setQueueCtx_core_at (s : State) (q : Nat) (x : Queue) (j : Nat) : (s.setQueueCtx q x).core j = s.core j := rfl
@[simp] theorem State.setQueueCtx_point_at (s : State) (q : Nat) (x : Queue) (j : Nat) : (s.setQueueCtx q x).point j = s.point j := rfl
@[simp] theorem State.setQueueCtx_queue_same (s : State) (q : Nat) (x : Queue) : (s.setQueueCtx q x).queue q = x := by simp [State.queue, State.setQueueCtx]
theorem State.setQueueCtx_queue_ne (s : State) (q : Nat) (x : Queue) (j : Nat) (h : q ≠ j) : (s.setQueueCtx q x).queue j = s.queue j := by
  simp [State.queue, State.setQueueCtx, tabGet_set_ne _ _ _ _ h]

end Sys2Proof.Machine
end

