-- ==== Sys2Proof/Laws/Units.lean ====
section
/-!
SUPPORT. Sys2Proof/Laws/Units.lean: what the operations that put a controller or a home slice back can change beside it, which is the
event counters of its own bank, and what a row of Lemam comes to.
-/
namespace Sys2Proof.Machine

/-! ### Events of a bank (R554) -/

/-- Counting an event changes registers only. -/
theorem State.bankEvent_eq (s : State) (block event by_ : Nat) : ∃ r, s.bankEvent block event by_ = { s with regs := r } := by
  have keep : ∀ (l : List Nat) (t : State) (r : Tab Word64), t = { s with regs := r } → ∃ r', l.foldl (fun s k =>
      if s.rf (block + 0x810 + 4 * k) 7 0 = event then
        let v := s.rd (block + 0x820 + 8 * k) + by_
        let s1 := s.wr (block + 0x820 + 8 * k) (v % 2 ^ 48)
        if v < 2 ^ 48 then s1 else s1.wb (block + 0x800) (8 + k) true
      else s) t = { s with regs := r' } := by
    intro l
    induction l with
    | nil => exact fun t r h => ⟨r, h⟩
    | cons k l ih =>
      rintro t r rfl
      simp only [List.foldl_cons]
      split
      · split
        · exact ih _ _ rfl
        · exact ih _ _ rfl
      · exact ih _ r rfl
  unfold State.bankEvent
  dsimp only
  split
  · exact keep _ s s.regs rfl
  · exact ⟨s.regs, rfl⟩

/-- Counting the clocks with a full queue changes registers only, and none while the queue is as full as before. -/
theorem State.countFull_eq (s : State) (block event : Nat) (was full : Bool) (since : Option Nat) :
    ∃ r, s.countFull block event was full since = { s with regs := r } ∧ ((was = true → full = true) → r = s.regs) := by
  unfold State.countFull
  split
  · split
    · obtain ⟨r, h⟩ := s.bankEvent_eq block event (meshClocks ‹_› s.clk)
      exact ⟨r, h, fun k => by simp_all⟩
    · exact ⟨s.regs, rfl, fun _ => rfl⟩
  · exact ⟨s.regs, rfl, fun _ => rfl⟩

/-! ### Controllers and home slices -/

/-- A controller that is put back: its state but for the record of a full queue, the counters of its bank when the queue is no longer
full, and nothing else. -/
theorem State.setMc_eq (s : State) (n : Nat) (x : Mc) : ∃ r f, s.setMc n x = { s with regs := r, mcs := tabSet {} s.mcs n { x with full := f } } ∧
    ((64 ≤ (s.mc n).queue.length → 64 ≤ x.queue.length) → r = s.regs) := by
  unfold State.setMc
  obtain ⟨r, h, k⟩ := s.countFull_eq (Reg.MC_CFG n) 6 (decide (64 ≤ (s.mc n).queue.length)) (decide (64 ≤ x.queue.length)) (s.mc n).full
  refine ⟨r, fullSince (decide (64 ≤ (s.mc n).queue.length)) (decide (64 ≤ x.queue.length)) x.full s.clk, ?_, fun hq => k (by simpa using hq)⟩
  dsimp only
  rw [h]
  rfl

@[simp] theorem State.setMc_mem (s : State) (n : Nat) (x : Mc) : (s.setMc n x).mem = s.mem := by obtain ⟨r, f, h, -⟩ := s.setMc_eq n x; rw [h]
@[simp] theorem State.setMc_cores (s : State) (n : Nat) (x : Mc) : (s.setMc n x).cores = s.cores := by obtain ⟨r, f, h, -⟩ := s.setMc_eq n x; rw [h]
@[simp] theorem State.setMc_agenda (s : State) (n : Nat) (x : Mc) : (s.setMc n x).agenda = s.agenda := by obtain ⟨r, f, h, -⟩ := s.setMc_eq n x; rw [h]
@[simp] theorem State.setMc_lemam (s : State) (n : Nat) (x : Mc) : (s.setMc n x).lemam = s.lemam := by obtain ⟨r, f, h, -⟩ := s.setMc_eq n x; rw [h]

/-- A controller reads back as it was put, but for the record of a full queue. -/
theorem State.mc_setMc_same (s : State) (n : Nat) (x : Mc) : ∃ f, (s.setMc n x).mc n = { x with full := f } := by
  obtain ⟨r, f, h, -⟩ := s.setMc_eq n x
  exact ⟨f, by rw [h]; simp [State.mc]⟩

/-- Every other controller stays. -/
theorem State.mc_setMc_ne (s : State) {n m : Nat} (x : Mc) (h : n ≠ m) : (s.setMc n x).mc m = s.mc m := by
  obtain ⟨r, f, e, -⟩ := s.setMc_eq n x
  rw [e]; simp [State.mc, tabGet_set_ne _ _ _ _ h]

/-- A home slice that is put back: its state but for the record of a full queue, its status and counters, and nothing else. -/
theorem State.setHome_eq (s : State) (n : Nat) (x : Home) :
    ∃ r f, s.setHome n x = { s with regs := r, homes := tabSet {} s.homes n { x with full := f } } := by
  unfold State.setHome
  obtain ⟨r, h, -⟩ := s.countFull_eq (Reg.HS_CFG n) 6 (decide (192 ≤ (s.home n).queue.length)) (decide (192 ≤ x.queue.length)) (s.home n).full
  dsimp only
  rw [h]
  exact ⟨_, _, rfl⟩

@[simp] theorem State.setHome_mem (s : State) (n : Nat) (x : Home) : (s.setHome n x).mem = s.mem := by obtain ⟨r, f, h⟩ := s.setHome_eq n x; rw [h]
@[simp] theorem State.setHome_cores (s : State) (n : Nat) (x : Home) : (s.setHome n x).cores = s.cores := by
  obtain ⟨r, f, h⟩ := s.setHome_eq n x; rw [h]
@[simp] theorem State.setHome_agenda (s : State) (n : Nat) (x : Home) : (s.setHome n x).agenda = s.agenda := by
  obtain ⟨r, f, h⟩ := s.setHome_eq n x; rw [h]

/-! ### The rows of Lemam (R480) -/

/-- While Lemam does not run, a row changes nothing. -/
theorem State.row_off (s : State) (src : CmdSource) (op : Nat) (p : List Byte) (h : s.lemamRuns = false) : s.row src op p = s := by
  simp [State.row, h]

/-- A row whose command passes every check is what the command does. -/
theorem State.row_passed (s : State) (src : CmdSource) (op : Nat) (p : List Byte) (h : s.lemamRuns = true)
    (hc : s.cmdCheck { route := { src := src, opcode := op, seq := 0 }, flags := 0, len := p.length, zero := 0, params := p } = 0) :
    s.row src op p = s.cmdRun { route := { src := src, opcode := op, seq := 0 }, flags := 0, len := p.length, zero := 0, params := p } := by
  simp [State.row, h, State.command, hc]

/-- The source of a command by MGMT needs SERVICE, any other needs no mode of its own. -/
theorem mgmt_mode (s : State) (src : CmdSource) (h : src = .mgmt → s.mode = modeService) : (src != .mgmt || s.mode == modeService) = true := by
  cases src <;> simp_all

end Sys2Proof.Machine
end

