-- ==== Sys2Proof/WellFormed.lean ====
section
/-!
DEFINITION. Sys2Proof/WellFormed.lean: what a command's operands must satisfy beyond their types to stand for something that the device
can be sent or can meet. Meanings are given for every operand; these checks say which commands the spec speaks about.
-/
namespace Sys2Proof

/-- The first byte of a line of 64 bytes. -/
def lineAligned (a : PAddr) : Bool := a.toNat % 64 == 0

/-- A request of the coherence protocol names a whole line (R290). -/
def CohReq.wf (q : CohReq) : Bool := lineAligned q.line

/-- The ports of an arbiter (R133), and a request of at most 4 KiB at one of them. -/
def ArbId.ports (a : ArbId) : Nat := if a.val < 8 then 66 else if a.val < 12 then 33 else if a.val = 12 then 14 else 3
def ArbReq.wf (r : ArbReq) (a : ArbId) : Bool := decide (r.port < ArbId.ports a ∧ 1 ≤ r.bytes ∧ r.bytes ≤ 4096)

/-- The mesh has 8 by 8 routers, the pair link 4 lanes (R347, R451). -/
def LinkId.wf : LinkId → Bool
  | .mesh x y => decide (x < 8 ∧ y < 8)
  | .pair _ => true

/-- The monitors of a kind (R528). -/
def MonKind.count : MonKind → Nat
  | .ts => 64
  | .vm => 32
  | .pm => 16
  | .am => 24

/-- Two boot devices, the parameter block of DRAM_CONFIG, four delay sets of 256 words for each of 8 channels, and no quadrant named
twice (R329, R440, R527). -/
def BootInput.wf (b : BootInput) : Bool :=
  decide (b.images.length ≤ 2 ∧ b.patches.length ≤ 2 ∧ b.dram.length ≤ 64 ∧ b.sets.length ≤ 8192 ∧ b.quads.Nodup)

/-- A command's operands are such as the spec gives it. -/
def Instr.wf : Instr → Bool
  | .gtCtrl _ _ => true
  | .sync _ _ _ => true
  | .srcLost => true
  | .rtcTick => true
  | .vddAoLoss => true
  | .phbCtrl _ _ _ => true
  | .phbPreset _ _ => true
  | .phbStreamPos _ _ => true
  | .mainsCrossing _ _ _ => true
  | .mainsInputLost _ => true
  | .mainsHoldoverEnd _ => true
  | .encoderEdge _ _ _ => true
  | .rateWindow _ => true
  | .streamTimeout _ => true
  | .projectionRecompute _ => true
  | .compareMatch _ => true
  | .cmpCtrl _ _ _ => true
  | .cmpValue _ _ => true
  | .cmpAction _ _ _ => true
  | .pinAction _ => true
  | .pinCfg _ _ _ => true
  | .pinLock _ _ => true
  | .pinAct _ _ _ => true
  | .pinOwner _ _ _ => true
  | .vsel _ _ _ => true
  | .supplyErr _ => true
  | .supplyOk _ => true
  | .captureEvent _ _ _ => true
  | .capValue _ => true
  | .sdResult _ _ => true
  | .clkLoss _ => true
  | .ctrTick _ => true
  | .linkedCounterAction _ _ => true
  | .taskEvent _ _ _ _ => true
  | .localMemoryAccess _ _ _ _ _ => true
  | .waitevWake _ => true
  | .preemptionEntry _ => true
  | .postQueueDrain _ => true
  | .runStart _ _ => true
  | .runStop _ _ => true
  | .coreRst _ _ => true
  | .tmode _ _ _ => true
  | .pccEvPost _ _ _ => true
  | .pccEid _ _ _ _ => true
  | .arbRequest a r => r.wf a
  | .arbGrant _ => true
  | .arbFreeze _ _ _ => true
  | .missClr _ _ _ => true
  | .latentWindowEnd _ => true
  | .interruptEntry _ => true
  | .timerVector _ _ => true
  | .interruptSourceEvent _ => true
  | .interruptDelivery _ => true
  | .interruptPost _ => true
  | .postRetry _ => true
  | .bell _ record _ => lineAligned record
  | .irtSrcCfg _ _ _ _ => true
  | .irtSwgen _ _ _ => true
  | .tlbiCompletion _ => true
  | .storeDrain _ => true
  | .reservationTimeout _ => true
  | .readShared q => q.wf
  | .readUnique q => q.wf
  | .upgrade q => q.wf
  | .writeBack _ line => lineAligned line
  | .readOnce q => q.wf
  | .writeUnique q _ _ => q.wf
  | .writePartial q _ _ => q.wf
  | .writePartialPost q _ => q.wf
  | .fwdShared _ line _ _ => lineAligned line
  | .fwdUnique _ line _ _ => lineAligned line
  | .invalidate _ line _ => lineAligned line
  | .backInvalidate _ line => lineAligned line
  | .invAck _ line _ => lineAligned line
  | .fwdAck _ line _ => lineAligned line
  | .fwdMiss _ line => lineAligned line
  | .dataShared _ line _ _ _ => lineAligned line
  | .dataUnique _ line _ _ _ => lineAligned line
  | .dataDirty _ line _ _ _ => lineAligned line
  | .wbAck _ line => lineAligned line
  | .comp _ line _ _ _ _ => lineAligned line
  | .compToHome _ line => lineAligned line
  | .hsQueryAddr _ _ _ => true
  | .backinvWindow _ => true
  | .linkRetry link _ => link.wf
  | .mcCommandIssue _ _ bad => decide (bad.Nodup) && bad.all fun d => decide (d < 10)
  | .readDataHandoff _ => true
  | .idleTimer _ _ _ _ => true
  | .agePromotion _ => true
  | .mr4Poll _ codes => decide (1 ≤ codes.length ∧ codes.length ≤ 40)
  | .blackoutStart _ => true
  | .blackoutEnd _ => true
  | .scrubVisit _ => true
  | .contactEvent => true
  | .mirrorCopy => true
  | .doorbell _ _ _ _ => true
  | .doorbellScan _ => true
  | .channelAssign _ => true
  | .descriptorFetched _ _ _ => true
  | .completionWrite _ => true
  | .completionReturn _ _ _ _ _ => true
  | .frameReceive _ frame => decide (14 ≤ frame.length)
  | .frameEnd _ _ => true
  | .frameTransmit _ _ => true
  | .frameAge _ => true
  | .gclEntry _ => true
  | .swap _ _ => true
  | .swapTake _ => true
  | .syncSend _ => true
  | .pdelayReq _ frame _ => decide (14 ≤ frame.length)
  | .linkChg _ _ => true
  | .dinathReceive _ frame _ => decide (14 ≤ frame.length)
  | .pointUpdate _ _ _ _ => true
  | .position _ _ _ _ => true
  | .pointAccess _ _ _ _ => true
  | .staleSweep => true
  | .go _ => true
  | .set _ => true
  | .clear _ => true
  | .ertCommit _ _ => true
  | .commitEnd => true
  | .purge _ _ => true
  | .purgeDone _ => true
  | .derive _ _ => true
  | .ready _ => true
  | .keyClear _ _ => true
  | .linkEn _ _ => true
  | .linkUp _ _ => true
  | .pairGroup _ => true
  | .pairLinkLoss => true
  | .alignmentExchange _ _ _ _ => true
  | .gateSubmit _ => true
  | .gatePeerItem _ => true
  | .gateTimeout => true
  | .pairedEntry => true
  | .pairedExit => true
  | .peerCommand packet => decide (16 ≤ packet.length ∧ packet.length ≤ 16 + 4064)
  | .peerReply packet => packet.isEmpty || decide (16 ≤ packet.length ∧ packet.length ≤ 16 + 4080)
  | .cmdrTail _ _ _ => true
  | .cmdrCfg _ _ _ => true
  | .commandTake => true
  | .deferredComplete _ opcode _ results => [0x52, 0x53, 0x55, 0x61, 0x62, 0x64].contains opcode && decide (results.length ≤ 4080)
  | .watchdog => true
  | .writeCmd packet => decide (packet.length ≤ 16 + 4080 + 4)
  | .readReply => true
  | .readStatus => true
  | .engageSpare => true
  | .standbySequence => true
  | .standbyDone => true
  | .refclkStop => true
  | .refclkReturn boot => boot.wf
  | .wake _ => true
  | .refclkLoss => true
  | .poresetAssert => true
  | .poresetRelease boot => boot.wf
  | .pllLock => true
  | .resetAssert => true
  | .resetRelease boot => boot.wf
  | .safelightReset => true
  | .railLoss rail => decide (rail ≤ 12)
  | .pmbusAlert words => decide (words.length = 13)
  | .avsPeriod => true
  | .sdsrefLoss _ => true
  | .monitorSample kind n _ slots => decide (n.toNat < kind.count) && decide (slots.length = if kind = .am then 5 else 0)
  | .dbgAcc _ => true
  | .haltReq _ => true
  | .coreHalt _ => true
  | .resume _ => true
  | .step _ => true
  | .pcHaltReq _ => true
  | .pcResume _ => true
  | .pcStep _ => true
  | .crossTrigger _ => true
  | .dbgSysGo _ => true
  | .counterOverflow _ _ => true
  | .pmuClr _ => true
  | .pmbClr _ _ => true
  | .pmbWrap _ _ => true
  | .arm _ => true
  | .shutterTake => true
  | .freeze _ _ => true
  | .slewComplete => true
  | .heldResume _ => true
  | .railReturn boot => boot.wf
  | .safelightRailLoss => true
  | .registerWrite _ _ _ _ => true
  | .timeStep _ _ => true
  | .pcNop _ => true
  | .pcAlu _ _ _ _ _ => true
  | .pcShift _ _ _ _ _ => true
  | .pcSlt _ _ _ _ _ => true
  | .pcMul _ _ _ _ => true
  | .pcMulh _ _ _ _ _ => true
  | .qadd _ _ _ _ _ => true
  | .pcMinMax _ _ _ _ _ => true
  | .pcAluImm _ _ _ _ _ => true
  | .pcShiftImm _ _ _ _ _ => true
  | .pcLui _ _ _ => true
  | .mac _ _ _ _ _ => true
  | .accrd _ _ _ _ _ => true
  | .accwr _ _ _ _ => true
  | .pcDiv _ _ _ _ _ => true
  | .pcFadd _ _ _ _ _ => true
  | .fmac _ _ _ _ => true
  | .pcFdiv _ _ _ _ => true
  | .pcFsqrt _ _ _ => true
  | .pcFcompare _ _ _ _ _ => true
  | .pcFcvt _ _ _ _ => true
  | .fabsFneg _ _ _ _ => true
  | .pcLoad _ _ _ _ _ => true
  | .pcLd _ _ _ _ => true
  | .pcStore _ _ _ _ _ => true
  | .pcSd _ _ _ _ => true
  | .pcBranch _ _ _ _ _ => true
  | .pcJal _ _ => true
  | .pcJalr _ _ _ _ => true
  | .pcLoop _ _ _ => true
  | .pcLoopi _ _ _ => true
  | .waitev _ _ _ => true
  | .evsend _ _ _ => true
  | .pina _ _ _ => true
  | .ptld _ _ _ _ => true
  | .ptst _ _ _ => true
  | .dbell _ _ _ => true
  | .pcRdgt _ _ => true
  | .setdl _ _ _ => true
  | .settm _ _ => true
  | .tret _ => true
  | .pcStop _ => true
  | .add _ _ _ _ _ => true
  | .and _ _ _ _ _ => true
  | .sll _ _ _ _ _ => true
  | .slt _ _ _ _ _ => true
  | .minMax _ _ _ _ _ => true
  | .minuMaxu _ _ _ _ _ => true
  | .clzCtz _ _ _ _ => true
  | .popc _ _ _ => true
  | .addwSubw _ _ _ _ _ => true
  | .sllw _ _ _ _ _ => true
  | .mul _ _ _ _ => true
  | .mulh _ _ _ _ _ => true
  | .mulw _ _ _ _ => true
  | .div _ _ _ _ _ => true
  | .rem _ _ _ _ _ => true
  | .divw _ _ _ _ _ => true
  | .addi _ _ _ _ => true
  | .addiw _ _ _ _ => true
  | .andi _ _ _ _ _ => true
  | .slti _ _ _ _ _ => true
  | .slli _ _ _ _ _ _ => true
  | .lui _ _ _ => true
  | .auipc _ _ _ => true
  | .load _ _ _ _ _ => true
  | .flwFld _ _ _ _ _ => true
  | .store _ _ _ _ _ => true
  | .fswFsd _ _ _ _ _ => true
  | .beqBne _ _ _ _ _ => true
  | .bltBge _ _ _ _ _ => true
  | .bltuBgeu _ _ _ _ _ => true
  | .j _ _ => true
  | .jal _ _ => true
  | .jalr _ _ _ _ => true
  | .loop _ _ _ _ => true
  | .loopi _ _ _ _ => true
  | .fadd _ _ _ _ _ _ _ => true
  | .fsqrt _ _ _ _ _ => true
  | .fminFmax _ _ _ _ _ _ => true
  | .fsign _ _ _ _ _ _ => true
  | .feq _ _ _ _ _ _ => true
  | .fkind _ _ _ _ => true
  | .ftoiW _ _ _ _ _ _ => true
  | .ftoiL _ _ _ _ _ _ => true
  | .itofW _ _ _ _ _ _ => true
  | .itofL _ _ _ _ _ _ => true
  | .fresize _ _ _ _ _ => true
  | .fbitsG _ _ _ _ => true
  | .fbitsF _ _ _ _ => true
  | .fmadd _ _ _ _ _ _ _ => true
  | .fmsub _ _ _ _ _ _ _ => true
  | .fnmsub _ _ _ _ _ _ _ => true
  | .fnmadd _ _ _ _ _ _ _ => true
  | .ldres _ _ _ _ => true
  | .stcond _ _ _ _ _ => true
  | .fence _ => true
  | .fenceSl _ => true
  | .fenceL _ => true
  | .fenceIo _ => true
  | .syncI _ => true
  | .rdgt _ _ => true
  | .mfsr _ _ _ => true
  | .mtsr _ _ _ => true
  | .svcall _ _ => true
  | .hvcall _ _ => true
  | .moncall _ _ => true
  | .eret _ => true
  | .wfi _ => true
  | .tlbiVa _ _ _ => true
  | .tlbiAsid _ _ => true
  | .tlbiGuest _ => true
  | .tlbiIpa _ _ _ => true
  | .tlbiVmid _ _ => true
  | .tlbiAll _ => true
  | .echo _ bytes => decide (bytes.length ≤ 4080)
  | .getInfo _ => true
  | .modeSet _ _ => true
  | .modeGet _ => true
  | .powerPointSet _ _ _ => true
  | .pvtRead _ _ _ _ => true
  | .spareStatus _ _ _ => true
  | .spareEngage _ _ _ _ _ => true
  | .contactRead _ _ _ => true
  | .contactClear _ => true
  | .dramConfig _ params => decide (params.length ≤ 4080)
  | .dramDelaysetLoad _ params => decide (params.length ≤ 4080)
  | .dramDelaysetSelect _ _ _ => true
  | .dramMarginScan _ params => decide (params.length ≤ 4080)
  | .dramEraseDevice _ _ _ _ _ => true
  | .dramRepairRow _ params => decide (params.length ≤ 4080)
  | .dramScrubSet _ _ _ => true
  | .viCreate _ params => decide (params.length ≤ 4080)
  | .viDestroy _ _ => true
  | .viReset _ _ => true
  | .queueBind _ params => decide (params.length ≤ 4080)
  | .queueReset _ _ => true
  | .portConfig _ _ writes => decide (1 ≤ writes.length ∧ writes.length ≤ 254)
  | .switchConfig _ writes => decide (1 ≤ writes.length ∧ writes.length ≤ 254)
  | .dinathConfig _ writes => decide (1 ≤ writes.length ∧ writes.length ≤ 254)
  | .phaseBaseConfig _ _ writes => decide (1 ≤ writes.length ∧ writes.length ≤ 254)
  | .pairConfig _ writes => decide (1 ≤ writes.length ∧ writes.length ≤ 254)
  | .pairStatus _ => true
  | .shutter _ _ => true
  | .lifecycleAdvance _ params => decide (params.length ≤ 4080)
  | .debugUnlock _ => true
  | .lockRegion _ _ _ _ => true
  | .configChecksum _ _ _ _ => true
  | .extest _ _ => true
  | .samplePreload _ _ => true
  | .illegalInstruction _ _ => true
  | .pcIllegalInstruction _ _ => true

end Sys2Proof
end

