-- ==== Sys2Proof/Tests/Slice0.lean ====
section
/-!
SUPPORT. Sys2Proof/Tests/Slice0.lean: the model's own tests: an ill-formed operand for each check of WellFormed, the spec's worked figures, and for
each statement a state and operands that meet its hypotheses. Expected results come from the rule that each test names.
-/
namespace Sys2Proof.Tests
open Sys2Proof.Machine

-- One test at a time: the kernel checks them in turn anyway, and each test that waits for it would hold a stack.
set_option Elab.async false

/-! ### Ill-formed operands -/

/-- A boot input with nothing in it. -/
def noBoot : BootInput :=
  { images := [], patches := [], dram := [], sets := [], failed := [], quads := [], fatal := none, pmbus := 0, chFail := 0 }
/-- A request of core 0 at PL3. -/
def coh (line : PAddr) : CohReq := { from_ := .core 0, line := line, pl := 3, eid := 0, stamp := 0, dev := false, dirErr := .good }
/-- Core 0 at PL3, EID 0. -/
def pl3 : Requester := { agent := .core 0, pl := 3, eid := 0 }

theorem test_wf_good : (Instr.readShared (coh 0x80000040)).wf = true ∧ (Instr.echo .spi [1, 2]).wf = true ∧ (Instr.railLoss 12).wf = true := by decide
theorem test_wf_port : (Instr.arbRequest 13 { port := 3, stamp := 0, key := 0, bytes := 64, tag := 0 }).wf = false := by decide
theorem test_wf_bytes : (Instr.arbRequest 8 { port := 0, stamp := 0, key := 0, bytes := 4097, tag := 0 }).wf = false := by decide
theorem test_wf_request_line : (Instr.readShared (coh 0x80000020)).wf = false := by decide
theorem test_wf_line : (Instr.writeBack 0 0x80000001).wf = false := by decide
theorem test_wf_bell : (Instr.bell 0 0x80000008 1).wf = false := by decide
theorem test_wf_link : (Instr.linkRetry (.mesh 8 0) 1).wf = false := by decide
theorem test_wf_bad_devices : (Instr.mcCommandIssue 0 false [3, 3]).wf = false ∧ (Instr.mcCommandIssue 0 false [10]).wf = false := by decide
theorem test_wf_mr4 : (Instr.mr4Poll 0 []).wf = false := by decide
theorem test_wf_frame : (Instr.frameReceive 0 (List.replicate 13 0)).wf = false := by decide
theorem test_wf_peer : (Instr.peerCommand (List.replicate 15 0)).wf = false ∧ (Instr.peerReply [1]).wf = false := by decide
theorem test_wf_deferred : (Instr.deferredComplete 0 0x10 .spi []).wf = false := by decide
theorem test_wf_boot : (Instr.poresetRelease { noBoot with images := [[], [], []] }).wf = false := by decide
theorem test_wf_rail : (Instr.railLoss 13).wf = false := by decide
theorem test_wf_pmbus : (Instr.pmbusAlert []).wf = false := by decide
theorem test_wf_monitor : (Instr.monitorSample .pm 16 0 []).wf = false ∧ (Instr.monitorSample .am 0 0 [0]).wf = false := by decide
theorem test_wf_writes : (Instr.portConfig .spi 0 []).wf = false := by decide
theorem test_wf_params : (Instr.queueBind .spi (List.replicate 4081 0)).wf = false ∧ (Instr.writeCmd (List.replicate 4101 0)).wf = false := by decide +kernel

/-! ### States that meet the hypotheses of the statements

One theorem for each statement with hypotheses, named after it: a state and operands for each of its clauses, at the edge of the clause
where it has one. -/

/-- A device out of PORESET_N with its clocks, and registers as listed. -/
def dev (l : List (Nat × Nat)) : State :=
  l.foldl (fun s e => s.wr e.1 e.2) { State.reset with modes := { ({} : Modes) with poreset := false, pll := true } }

theorem test_witness_Step_runs_the_front_command :
    let s : State := { State.reset with clk := 7, agenda := [(7, .cmd .rtcTick)] }
    State.reset.pending = [] ∧ State.reset.agenda.filter State.reset.isDue = [] ∧ State.reset.modes.pll = false ∧
      s.pending = [] ∧ s.agenda = [(7, .cmd .rtcTick)] ∧ 7 ≤ s.clk ∧ s.modes.refclk = true := by decide

theorem test_witness_Global_time_commands :
    let free := dev []
    let port := dev [(Reg.GT_CTRL, 0x10501)]
    let late : State := { port with gt := { port.gt with now := 187500000 } }
    let slewing := dev [(Reg.GT_STATUS, 8)]
    free.unlockedAt Reg.GT_CTRL = true ∧ (free.storeReg Reg.GT_CTRL 0x40000).gtSource = free.gtSource ∧
      (free.storeReg Reg.GT_CTRL 1).gtSource ≠ free.gtSource ∧ (port.storeReg Reg.GT_CTRL 0).gtSource ≠ port.gtSource ∧
      port.gtSource.isSome = true ∧ late.gtSource.isSome = true ∧ late.holdoffMet = true ∧
      slewing.gt.slew = 0 ∧ slewing.rb Reg.GT_STATUS 3 = true ∧
      free.gtSource ≠ some .pair ∧ port.gtSource = some (.port 5) ∧ 1000 < (1001#64).toInt.natAbs := by decide

theorem test_witness_Base_control_and_preset :
    let off := dev []
    let on := dev [(Reg.PHB_CTRL 15, 1)]
    on.baseOn 15 = true ∧ off.baseOn 15 = false ∧ off.unlockedAt (Reg.PHB_CTRL 15) = true ∧
      (on.storeReg (Reg.PHB_CTRL 15) 0).baseOn 15 = false ∧ (off.storeReg (Reg.PHB_CTRL 0) 3).baseOn 0 = true ∧
      (on.storeReg (Reg.PHB_CTRL 15) 3).baseOn 15 = true := by decide

/-- MAINS base 3 runs, and its last good crossing was 10 ms ago. -/
def mains : State :=
  let s := dev [(Reg.PHB_CTRL 3, 1), (Reg.PHB_STATUS 3, srcMains * 2 ^ 10)]
  { s.setBase 3 { lastCross := some (true, 0), lastGood := some 0, half := 10000000, inputLost := false } with gt := { now := 25000000 } }

theorem test_witness_Mains_base :
    let lost := mains.setBase 3 { mains.base 3 with inputLost := true }
    let late : State := { lost with gt := { now := BitVec.ofNat 64 (mains.holdoverEnd 3) } }
    mains.runsOn 3 srcMains = true ∧ (mains.base 3).lastCross = some (true, 0) ∧ halfGood (6250000 - 0) = true ∧
      halfGood (6249999 - 0) = false ∧ (mains.base 3).lastGood = some 0 ∧ (mains.base 3).inputLost = false ∧
      mains.now * 2 ≥ 0 * 2 + (mains.base 3).half * 5 ∧ mains.now < mains.holdoverEnd 3 ∧
      late.runsOn 3 srcMains = true ∧ (late.base 3).inputLost = true ∧ late.holdoverEnd 3 ≤ late.now := by decide

theorem test_witness_Encoder_base :
    let s := dev [(Reg.PHB_CTRL 2, 1), (Reg.PHB_STATUS 2, srcEncoder * 2 ^ 10)]
    let later : State := { s.setBase 2 { lastEdge := some 5, winStart := 100 } with clk := 15, gt := { now := 100100 } }
    s.runsOn 2 srcEncoder = true ∧ s.modes.refclk = true ∧ (s.base 2).levelA ≠ true ∧ (s.base 2).levelB ≠ true ∧
      s.rf (Reg.PHB_CTRL 2) 4 3 ≠ 3 ∧ encoderStep (s.rf (Reg.PHB_CTRL 2) 4 3) false false false false = none ∧
      (encoderStep (s.rf (Reg.PHB_CTRL 2) 4 3) false false true false).isSome = true ∧
      later.runsOn 2 srcEncoder = true ∧ (later.base 2).lastEdge = some 5 ∧ 5 + 10 ≤ later.clk ∧
      later.now ≥ (later.base 2).winStart.toNat + later.rateWin 2 * 1000 := by decide

theorem test_witness_Stream_base :
    let s := dev [(Reg.PHB_CTRL 1, 0x81), (Reg.PHB_STATUS 1, srcStream * 2 ^ 10 + 8)]
    let late : State := { s with gt := { now := 100000000 } }
    let held := s.setBase 1 { heldPath := some 0 }
    s.runsOn 1 srcStream = true ∧ s.rb (Reg.PHB_CTRL 1) 7 = true ∧ diff48 0x800000000000 (s.baseValue 1) < 0 ∧
      late.runsOn 1 srcStream = true ∧ late.streamTimeout 1 ≠ 0 ∧
      late.now ≥ (late.base 1).enGt.toNat + late.streamTimeout 1 * 1000000 ∧
      held.heldPathNow 1 = some 0 ∧ held.runsOn 1 srcStream = true ∧ held.rb (Reg.PHB_STATUS 1) 3 = true ∧
      0 ≤ diff48 (wrapTo 48 (0 / 2 ^ 32)) (held.baseValue 1) ∧ (1 ∈ (dev [(Reg.CMP_CTRL 1, 0x21)]).armed) := by decide

theorem test_witness_Compare_match :
    let s : State := { dev [(Reg.CMP_CTRL 1023, 0x11)] with crossed := [(1023, true, 9)] }
    let off : State := { dev [] with crossed := [(1023, false, 9)] }
    let again := s.setCmp 1023 { matchedAt := some 9 }
    s.crossed.find? (fun e => e.1 = 1023) = some (1023, true, 9) ∧ s.rb (Reg.CMP_CTRL 1023) 0 = true ∧
      (s.cmp 1023).matchedAt ≠ some 9 ∧ off.rb (Reg.CMP_CTRL 1023) 0 = false ∧ (again.cmp 1023).matchedAt = some 9 ∧
      again.crossed.find? (fun e => e.1 = 1023) = some (1023, true, 9) := by decide

theorem test_witness_Compare_registers :
    let s := dev [(Reg.CMP_CTRL 0, 1)]
    s.unlockedAt (Reg.CMP_CTRL 0) = true ∧ s.unlockedAt (Reg.CMP_VALUE 0) = true ∧ s.unlockedAt (Reg.CMP_ACTION 0) = true ∧
      s.isLate 0 = true := by decide

theorem test_witness_Pin_actions_are_resolved :
    let s : State := { (dev []).setPin 511 { acts := [(4, .toggle), (3, .safe), (4, .active)] } with clk := 4 }
    ((s.pin 511).acts.filter (fun e => e.1 = s.clk)).map (·.2) = [.toggle, .active] ∧ (s.pin 511).resolvedAt ≠ some s.clk := by decide

theorem test_witness_Pin_register_writes :
    let s := dev [(Reg.PIN_OWNER 5, 3), (Reg.PIN_CFG 6, 1)]
    pl3.eid.toNat ≠ s.rf (Reg.PIN_OWNER 5) 5 0 ∧ pl3.eid.toNat = s.rf (Reg.PIN_OWNER 6) 5 0 ∧ s.unlockedAt (Reg.PIN_CFG 6) = true ∧
      s.sheet.intake.length < 64 ∧ (s.storeReg (Reg.PIN_CFG 5) 1).pinMode 5 = 1 ∧ s.pinMode 5 ≠ 1 ∧ pinActOf (3 % 4) = some .toggle ∧
      s.pinMode 6 = 1 ∧ s.clockDivisor 6 = none ∧ s.mode ≠ modeSafeHold ∧ s.rb (Reg.PIN_CFG 6) 12 = false ∧ pl3.pl = 3 := by decide

theorem test_witness_Pin_banks :
    let s : State := { dev [] with clk := 100000 }
    s.unlockedAt (Reg.PIN_BANK_CFG 15) = true ∧
      (s.storeReg (Reg.PIN_BANK_CFG 15) 2).rb (Reg.PIN_BANK_CFG 15) 0 = s.rb (Reg.PIN_BANK_CFG 15) 0 ∧
      (s.storeReg (Reg.PIN_BANK_CFG 15) 1).rb (Reg.PIN_BANK_CFG 15) 0 ≠ s.rb (Reg.PIN_BANK_CFG 15) 0 ∧
      (s.bank 15).since + 100000 ≤ s.clk ∧ s.rb (Reg.PIN_BANK_STATUS 15) 0 = false := by decide

theorem test_witness_Captures :
    let s := dev [(Reg.CAP_CTRL 255, 3)]
    (s.rd (Reg.CAP_CTRL 255)).testBit 0 = true ∧ s.modes.refclk = true ∧ edgeSelects (fld (s.rd (Reg.CAP_CTRL 255)) 2 1) true = true ∧
      edgeSelects (fld (s.rd (Reg.CAP_CTRL 255)) 2 1) false = false ∧ (s.cap 255).landed ≠ some s.clk := by decide

theorem test_witness_Sigma_delta_channels :
    let s := dev [(Reg.SDF_CTRL 63, 0x900A1)]
    let third := s.setSdf 63 { results := 2 }
    s.rb (Reg.SDF_CTRL 63) 0 = true ∧ s.modes.refclk = true ∧ (s.sdf 63).clockLost = false ∧ s.decim 63 ^ 3 % 2 = 0 ∧
      (s.sdf 63).results < 2 ∧ third.rb (Reg.SDF_CTRL 63) 0 = true ∧ 2 ≤ (third.sdf 63).results ∧ (third.sdf 63).clockLost = false ∧
      s.rb (Reg.SDF_CTRL 63) 1 = false ∧ s.rb (Reg.SDF_CTRL 63) 19 = true := by decide

theorem test_witness_Linked_counters :
    let s := dev [(Reg.CTR_CTRL 0, 5), (Reg.CTR_TOP 0, 0), (Reg.CTR_CTRL 1, 3)]
    (dev []).rb (Reg.CTR_CTRL 63) 0 = false ∧ s.rb (Reg.CTR_CTRL 1) 0 = true ∧ s.rd (Reg.CTR_COUNT 1) ≠ s.rd (Reg.CTR_TOP 1) ∧
      s.rb (Reg.CTR_CTRL 0) 0 = true ∧ s.rd (Reg.CTR_COUNT 0) = s.rd (Reg.CTR_TOP 0) ∧ s.ctrLinked 1 = true ∧
      s.rb (Reg.CTR_CTRL 0) 2 = true := by decide

/-! ### Phase cores -/

/-- A device in STANDALONE whose DRAM is trained, memory controller 0 as one channel. -/
def dram (l : List (Nat × Nat)) : State :=
  dev ([(Reg.PVT_MODE, 3), (Reg.MC_CFG 0, 0x40), (Reg.MC_STATUS 0, 1)] ++ (List.range 7).map (fun n => (Reg.MC_STATUS (n + 1), 1)) ++ l)
/-- Phase core 3 is RUNNING as `c`, with registers as listed. -/
def phase (c : PCore) (l : List (Nat × Nat)) : State := (dev ((Reg.PCC_STATUS 3, 1) :: l)).setPcore 3 c
/-- One event of source 5. -/
def ev5 : PcEvent := { source := 5, gt := 7, clk := 0 }

theorem test_witness_Phase_core_boundary :
    let stop := phase { pc := 0x100, stopping := true } []
    let ask := phase { pc := 0x100, queues := [(2, [ev5])] } [(Reg.PCC_TASK_CFG 3 2, 0x1000005)]
    let far := phase { pc := 0x10000 } []
    let odd := phase { pc := 0xFFFE } []
    let bad : State := { phase { pc := 0xFFFC } [] with poison := [(localAddr 3 0xFFFC, true)] }
    (dev []).pcReady 3 = false ∧ (stop.pcReady 3 = true ∧ (stop.pcore 3).halting = none) ∧
      (ask.pcReady 3 = true ∧ ask.preemptAsked 3 = true ∧ (ask.pcore 3).flatNext = none ∧ (ask.pcore 3).stopping = false) ∧
      (far.pcReady 3 = true ∧ far.preemptAsked 3 = false ∧ pcFetchable (far.pcore 3).pc = false) ∧
      (odd.pcReady 3 = true ∧ pcFetchable (odd.pcore 3).pc = false) ∧
      (bad.pcReady 3 = true ∧ pcFetchable (bad.pcore 3).pc = true) ∧
      (phase { pc := 0xFFFC } []).pcPlain 3 = true := by decide +kernel

theorem test_witness_Phase_core_integer : (phase { pc := 0, p := [(1, 0x80000000), (2, 0xFFFFFFFF)] } []).pcPlain 3 = true := by decide +kernel

theorem test_witness_Phase_core_saturation_and_division :
    let s := phase { pc := 0x100, p := [(1, 0x80000000), (2, 0xFFFFFFFF)] } []
    s.pcPlain 3 = true ∧ (s.preg 3 1).toInt = -(2 ^ 31) ∧ s.preg 3 2 = -1 ∧ s.preg 3 0 = 0 := by decide +kernel

theorem test_witness_Phase_core_floating_point :
    let s := phase { pc := 0x100, p := [(1, 0x3F800000), (2, 0x7FC00000)] } []
    s.pcPlain 3 = true ∧ pcFloat (s.preg 3 2) = .nan ∧ pcFloat (s.preg 3 1) ≠ .nan := by decide +kernel

theorem test_witness_Phase_core_local_memory :
    let s := phase { pc := 0x100, p := [(1, 0xFFF8)] } []
    let a := (s.preg 3 1 + (0 : BitVec 18).signExtend 32).toNat
    s.pcPlain 3 = true ∧ a + 8 ≤ 0x10000 ∧ s.badLocal 3 a 8 true = none ∧ s.badLocal 3 a 8 false = none ∧
      s.badLocal 3 a 1 true = none ∧ s.badLocal 3 a 4 false = none ∧ pairOdd 2 = false ∧ pairOdd 15 = true := by decide +kernel

theorem test_witness_Phase_core_other_regions :
    let c : PCore := { pc := 0x100, p := [(1, 0xFFFF), (5, 0x1000000), (6, 0x80000FFE)] }
    let w := [(Reg.PCC_WIN_CFG 3 0, 0x17), (Reg.PCC_WIN_BASE 3 0, 0x80000000)]
    let s := (dram ((Reg.PCC_STATUS 3, 1) :: w)).setPcore 3 c
    let flat := s.setPcore 3 { c with flat := true }
    let p := s.pcPhys 3 0x80000FFE (.window 0)
    s.pcPlain 3 = true ∧ flat.pcPlain 3 = true ∧ flat.pcPermit 3 0x80000FFE 4 false = .ok (.window 0) ∧
      s.pcPermit 3 0xFFFF 4 false = .error 0x10000 ∧ s.pcPermit 3 0xFFFF 4 true = .error 0x10000 ∧
      s.pcPermit 3 0x1000000 4 false = .ok .engine ∧ s.pcPermit 3 0x1000000 4 true = .ok .engine ∧
      s.pcPermit 3 0x80000FFE 4 false = .ok (.window 0) ∧ p = 0x80000FFE ∧ s.window p = some .dram ∧ s.window (p + 3) = some .dram ∧
      windowOpen .dram p (s.pcRequester 3) = true ∧ windowOpen .dram (p + 3) (s.pcRequester 3) = true ∧
      s.mode ≠ modeStandby ∧ s.inHomed p = true := by decide +kernel

theorem test_witness_Phase_core_loops :
    let free := phase { pc := 0x100, p := [(1, 2)] } []
    let last := phase { pc := 0xFFF4 } []
    let counting := phase { pc := 0x100, lcnt := 2, lbeg := 0xF0, lend := 0x100 } []
    let final := phase { pc := 0x100, lcnt := 1, lbeg := 0xF0, lend := 0x100 } []
    let inside := phase { pc := 0x100, lcnt := 5, lbeg := 0xF0, lend := 0x104 } []
    free.pcPlain 3 = true ∧ (free.pcore 3).lcnt = 0 ∧ free.preg 3 1 ≠ 0 ∧ free.preg 3 0 = 0 ∧ (1 : BitVec 18).signExtend 32 ≠ (0 : Word32) ∧
      last.pcPlain 3 = true ∧ pcFetchable ((last.pcore 3).pc + 4 * (1 : BitVec 18).signExtend 32 + 4) = true ∧
      counting.pcPlain 3 = true ∧ (counting.pcore 3).pc = (counting.pcore 3).lend ∧ counting.pcNotAtEnd 3 = false ∧
      final.pcPlain 3 = true ∧ (final.pcore 3).lcnt = 1 ∧ (final.pcore 3).pc = (final.pcore 3).lend ∧
      inside.pcPlain 3 = true ∧ inside.pcNotAtEnd 3 = true ∧ pcFetchable ((inside.pcore 3).pc + 4 * (1 : BitVec 18).signExtend 32) = true := by
  decide +kernel

theorem test_witness_Phase_core_branches :
    let s := phase { pc := 0x100, p := [(1, 0xFFFFFFFF), (2, 0x10000)] } []
    s.pcPlain 3 = true ∧ s.pcNotAtEnd 3 = true ∧ s.preg 3 1 ≠ s.preg 3 2 ∧ (s.preg 3 1).toInt < (s.preg 3 2).toInt ∧
      pcFetchable ((s.pcore 3).pc + 4 * (1 : BitVec 18).signExtend 32) = true ∧
      pcFetchable ((s.pcore 3).pc + 4 * (0x3FC0 : BitVec 18).signExtend 32) = false ∧
      pcFetchable (s.preg 3 2 + (0x3FFFC : BitVec 18).signExtend 32) = true ∧
      pcFetchable (s.preg 3 2 + (0 : BitVec 18).signExtend 32) = false := by decide +kernel

theorem test_witness_Phase_core_events :
    let s := phase { pc := 0x100, queues := [(7, [ev5, ev5])] } [(Reg.PCC_CTRL 3, 0x11)]
    s.pcPlain 3 = true ∧ s.pcNotAtEnd 3 = true ∧ (s.pcore 3).ready ((0x80 : BitVec 9).setWidth 8) = some 7 ∧
      (s.pcore 3).queue 7 = [ev5, ev5] ∧ (s.pcore 3).ready ((0x17F : BitVec 9).setWidth 8) = none ∧ (0x17F : BitVec 9).getLsbD 8 = true ∧
      (s.pcore 3).ready ((0x7F : BitVec 9).setWidth 8) = none ∧ (0x7F : BitVec 9).getLsbD 8 = false ∧
      s.rb (Reg.PCC_CTRL 3) 4 = true := by decide +kernel

theorem test_witness_Phase_core_points_and_time :
    let e : PostEntry := { point := true, target := 5, value := 6, stamp := 7, eid := 0 }
    let s := phase { pc := 0x100, post := [e, e, e] } []
    let full := phase { pc := 0x100, post := [e, e, e, e] } []
    let flat := phase { pc := 0x100, flat := true, post := [e, e, e, e] } []
    s.pcPlain 3 = true ∧ full.pcPlain 3 = true ∧ flat.pcPlain 3 = true ∧ pairOdd 1 = true ∧ pairOdd 14 = false ∧ (s.pcore 3).flat = false ∧
      (s.pcore 3).post.length < 4 ∧ 4 ≤ (full.pcore 3).post.length ∧ (full.pcore 3).flat = false ∧ (flat.pcore 3).flat = true ∧
      4 ≤ (flat.pcore 3).post.length := by decide +kernel

theorem test_witness_Phase_core_task_inputs :
    let q := (2, [ev5])
    let cfg := (Reg.PCC_TASK_CFG 3 2, 0x1000005)
    let full := phase { queues := [(2, List.replicate 8 ev5)] } []
    let asleep := phase { queues := [q], sleep := some (5, 0xFF, some 0) } [(Reg.PCC_STATUS 3, 2)]
    let ask := phase { pc := 0x100, queues := [q] } [(Reg.PCC_STATUS 3, 2), cfg]
    let long := phase { pc := 0x100, queues := [q], long := some { pc := 0x90, rd := 5, old := 1, until_ := 9, lcnt := 3 } } [cfg]
    let post := phase { post := [{ point := true, target := 5, value := 6, stamp := 7, eid := 0 }] } []
    let bell := phase { post := [{ point := false, target := 5, value := 6, stamp := 7, eid := 0 }] } []
    (eventInsert { source := 5, gt := 7, clk := full.clk } ((full.pcore 3).queue 2)).length = 9 ∧
      (eventInsert { source := 5, gt := 7, clk := full.clk } ((full.pcore 3).queue 1)).length = 1 ∧
      (asleep.pcore 3).sleep = some (5, 0xFF, some 0) ∧ asleep.pcState 3 = 2 ∧ 0 ≤ asleep.clk ∧ asleep.modes.refclk = true ∧
      (asleep.pcore 3).ready 0xFF = some 2 ∧ (asleep.pcore 3).queue 2 = [ev5] ∧
      ask.pcState 3 = 2 ∧ ask.preemptAsked 3 = true ∧ ask.pcInFlight 3 = false ∧ (ask.pcore 3).flatNext = none ∧ (ask.pcore 3).long = none ∧
      long.pcState 3 = 1 ∧ long.preemptAsked 3 = true ∧ long.pcInFlight 3 = false ∧ (long.pcore 3).long.isSome = true ∧ long.clk < 9 ∧
      full.badLocal 3 0xFFF8 8 true = none ∧ full.badLocal 3 0xFFFF 1 false = none ∧
      (post.pcore 3).post.length = 1 ∧ (post.pcore 3).posting = false ∧ (bell.pcore 3).posting = false ∧ (bell.pcore 3).wait = none := by
  decide +kernel

theorem test_witness_Phase_core_start_stop_and_reset :
    let ctrl := Reg.PCC_CTRL 3
    let halted := phase {} [(Reg.PCC_STATUS 3, 0)]
    let faulted := phase {} [(Reg.PCC_STATUS 3, 3)]
    let runs := phase { pc := 0x100 } [(ctrl, 1)]
    let waits := phase { sleep := some (5, 0xFF, none) } [(ctrl, 1), (Reg.PCC_STATUS 3, 2)]
    halted.unlockedAt ctrl = true ∧ halted.rb ctrl 2 = false ∧ halted.rb ctrl 0 = false ∧ halted.pcState 3 = 0 ∧ faulted.pcState 3 = 3 ∧
      halted.modes.lostPcs.contains 3 = false ∧ runs.unlockedAt ctrl = true ∧ runs.rb ctrl 0 = true ∧ runs.pcState 3 = 1 ∧
      runs.pcInFlight 3 = false ∧ (runs.pcore 3).long = none ∧ (runs.pcore 3).halting = none ∧ waits.pcState 3 = 2 ∧ waits.rb ctrl 0 = true ∧
      waits.pcInFlight 3 = false ∧ halted.rb ctrl 1 ≠ true ∧ runs.rb ctrl 2 = false := by decide +kernel

/-! ### Arbiters, memory controllers, homes, caches and the router -/

/-- A tray entry of a port, with its slack and the beats it has had. -/
def entry (id port : Nat) (slack : Int) (done : Nat) (bytes : Nat) : ArbEntry :=
  { id := id, req := { port := port, stamp := 0, key := BitVec.ofNat 46 (0x80000000 + 4096 * id), bytes := bytes, tag := id }
    slack := slack, dls := 0, done := done, since := 0, fresh := false }

theorem test_witness_Arbiter_accepts_or_holds :
    let e := entry 0 0 5 0 64
    let full := (dram []).setArb 9 { tray := List.replicate 64 e }
    let room := (dram []).setArb 9 { tray := List.replicate 63 e }
    let hints := (dram [(Reg.ARB_CTRL 9, 4), (Reg.ARB_PORT_CFG 9 0, 0xFF)]).setArb 9 { tray := [entry 1 1 4 0 4096], granted := some 1 }
    arbPorts 9 ≤ arbPorts 9 ∧ 0 < arbPorts 9 ∧ 64 ≤ (full.arb 9).tray.length ∧ (room.arb 9).tray.length < 64 ∧
      room.hintMode 9 0 = false ∧ (room.arb 9).armed = false ∧ hints.hintMode 9 0 = true ∧ (hints.arb 9).tray.length < 64 ∧
      hints.grantedNext 9 (entry 2 0 9 0 64) = false := by decide +kernel

theorem test_witness_Arbiter_grants_by_rank :
    let frozen := dram [(Reg.ARB_CTRL 8, 1)]
    let later : State := { dram [] with clk := 2 }
    let s := later.setArb 8 { tray := [entry 0 0 5 0 64, entry 1 0 (-1) 0 64], nextId := 2 }
    let many := later.setArb 9 { tray := [entry 0 0 0 0 4096] }
    frozen.rb (Reg.ARB_CTRL 8) 0 = true ∧ (s.arb 8).granted = none ∧ (s.nextBeat 8).map (·.id) = some 1 ∧
      s.rb (Reg.ARB_CTRL 8) 0 = false ∧ s.slotDue 8 = true ∧ many.slotDue 9 = true ∧
      (dram []).slotDue 8 = true ∧ ((dram []).setArb 9 { slot := 1000 }).slotDue 9 = false ∧ (entry 1 0 (-1) 0 64).since + 2 ≤ s.clk ∧
      sameTarget 8 (entry 1 0 (-1) 0 64) (entry 0 0 5 0 64) = false ∧ (s.arb 8).held = [] ∧ arbBeats 8 (entry 1 0 (-1) 0 64).req ≤ 0 + 1 ∧
      s.slack (entry 1 0 (-1) 0 64) < 0 ∧ 0 ≤ s.slack (entry 0 0 5 0 64) ∧ (many.nextBeat 9).map (·.id) = some 0 ∧
      0 + 1 < arbBeats 9 (entry 0 0 0 0 4096).req ∧ s.rb (Reg.ARB_CTRL 8) 3 = false := by decide +kernel

/-- A queue entry of DRAM at a bank and row. -/
def slotOf (tag bank row : Nat) (kind : DramKind) (since : Nat) (hand : Option Nat) : DramEntry :=
  { tag := tag, addr := 0x80000000 + 64 * tag, sub := 0, rank := 0, bank := bank, row := row, kind := kind, cls := 3, since := since, hand := hand }

theorem test_witness_Dram_command_slots :
    let r := slotOf 1 3 7 .read 0 none
    let w := slotOf 1 3 7 .write 0 none
    let act := (dram []).setMc 0 { queue := [r] }
    let pre := (dram []).setMc 0 { queue := [r], rows := [(3, 9)] }
    let col := (dram []).setMc 0 { queue := [r], rows := [(3, 8)] }
    let wr := (dram []).setMc 0 { queue := [w], rows := [(3, 8)] }
    let black := (dram []).setMc 0 { blackout := true }
    let done : State := { (dram []).setMc 0 { queue := [slotOf 1 3 7 .read 0 (some 100)], rows := [(3, 7)] } with clk := 100 }
    (∀ s ∈ [act, pre, col, wr], (s.mc 0).blackout = false ∧ s.rb (Reg.MC_STATUS 0) 1 = false ∧
      tabGet 0 (s.mc 0).slot (b2n false) ≤ s.clk ∧ (s.mc 0).forward (b2n false) = none) ∧
      (act.mc 0).choose act.clk 0 = some r ∧ (act.mc 0).nextCmd r = .activate ∧ act.poisoned r.addr = false ∧
      (pre.mc 0).choose pre.clk 0 = some r ∧ (pre.mc 0).nextCmd r = .precharge ∧
      (col.mc 0).choose col.clk 0 = some r ∧ (col.mc 0).nextCmd r = .column ∧
      (wr.mc 0).choose wr.clk 0 = some w ∧ (wr.mc 0).nextCmd w = .column ∧ (black.mc 0).blackout = true ∧
      ((done.mc 0).queue.find? fun x => match x.hand with | some t => decide (t ≤ done.clk) | none => false).isSome = true ∧
      ((col.mc 0).queue.any fun x => x.waits && decide (x.key = 3) && decide (x.row + 1 = 8)) = true ∧
      ((done.mc 0).queue.any fun x => x.waits && decide (x.key = 3) && decide (x.row + 1 = 7)) = false := by decide +kernel

theorem test_witness_Refresh_blackouts :
    let s := (dram []).setMc 0 { next := some 0, toSelfRefresh := true, queue := [slotOf 1 3 7 .read 0 none] }
    let rest := (dram []).setMc 0 { next := some 0, toSelfRefresh := true }
    let black := (dram []).setMc 0 { blackout := true, next := some 3900 }
    (s.mc 0).blackout = false ∧ (s.mc 0).next = some 0 ∧ s.rb (Reg.MC_STATUS 0) 1 = false ∧ (s.mc 0).queue ≠ [] ∧
      (rest.mc 0).blackout = false ∧ (rest.mc 0).next = some 0 ∧ rest.rb (Reg.MC_STATUS 0) 1 = false ∧ (rest.mc 0).toSelfRefresh = true ∧
      (rest.mc 0).queue = [] ∧ (black.mc 0).blackout = true ∧ (rest.mc 0).erasing = [] ∧ rest.rb (Reg.MC_STATUS 0) 5 = false := by decide +kernel

theorem test_witness_Ageing_temperature_and_scrub :
    let s : State := { (dram [(Reg.MC_AGE_LIMIT 0, 0)]).setMc 0 { queue := [slotOf 1 3 7 .read 0 none, slotOf 2 3 7 .read 1 none] } with clk := 5 }
    let twice := dram [(Reg.MC_STATUS 0, 5)]
    let black := s.setMc 0 { blackout := true }
    s.clk > 0 + 4 * max 1 (s.rf (Reg.MC_AGE_LIMIT 0) 15 0) ∧ ¬ (s.clk > 1 + 4 * max 1 (s.rf (Reg.MC_AGE_LIMIT 0) 15 0)) ∧
      (dev []).rb (Reg.MC_STATUS 0) 0 = false ∧ s.rb (Reg.MC_STATUS 0) 0 = true ∧ s.rb (Reg.MC_STATUS 0) 2 = false ∧
      twice.rb (Reg.MC_STATUS 0) 2 = true ∧ (s.mc 0).blackout = false ∧ (black.mc 0).blackout = true ∧
      black.rb (Reg.MC_STATUS 0) 0 = true ∧ (s.mc 0).scrubHours ≠ 0 ∧ s.channelLines ≠ 0 ∧ s.work = [] := by decide +kernel

/-- The line that the tests use, its home as `x`. -/
def line0 : Nat := 0x80000040
def homed (x : Home) : State := let s := dram []; s.setHome (s.homeOf line0) x
def llc0 : Tab (Option LlcLine) := [(line0 / 64, some { data := 0x55, dirty := false, poison := false, used := 0 })]
def dir0 (o : Option Nat) (e : Bool) (sh : BitVec 96) : Tab (Option DirEntry) :=
  [(line0 / 64, some { owner := o, excl := e, sharers := sh, used := 0 })]

theorem test_witness_Home_reads :
    let q := coh 0x80000040
    let free := homed {}
    let hidden : State := { free with ert := [{ eid := 3, index := 0, base := 0x80000000, last := 0x80000000, w := true }] }
    let inLlc := homed { llc := llc0 }
    let shared := homed { llc := llc0, dir := dir0 none false (1#96 <<< 95 ||| 1) }
    let owned := homed { llc := llc0, dir := dir0 (some 95) true 0 }
    let h := free.homeOf line0
    (∀ s ∈ [free, inLlc, shared, owned], s.homeQuiet line0 = true ∧ s.homeMay (.readShared q) q = true ∧ s.homeMay (.readUnique q) q = true ∧
      s.homeMay (.upgrade q) q = true ∧ s.homeMay (.readOnce q) q = true ∧ s.dirFull h line0 = false) ∧
      lineOf q.line.toNat = line0 ∧ free.inDram line0 = true ∧ inRom line0 = false ∧
      hidden.homeQuiet line0 = true ∧ hidden.ertPermits q.eid.toNat line0 (reqWrites (.readUnique q)) = false ∧
      hidden.ertPermits q.eid.toNat line0 (reqWrites (.readShared q)) = false ∧
      (free.home h).cached line0 = none ∧ (free.home h).entry line0 = none ∧
      ((inLlc.home h).cached line0).isSome = true ∧ (inLlc.home h).entry line0 = none ∧
      ((shared.home h).entry line0).map (·.owner) = some none ∧ ((shared.home h).entry line0).map (·.sharers.getLsbD 0) = some true ∧
      ((shared.home h).entry line0).map (fun d => d.sharing.filter (· != 0)) = some [95] ∧
      ((owned.home h).entry line0).map (fun d => (d.owner, d.excl)) = some (some 95, true) ∧ (95 : Nat) ≠ 0 := by decide +kernel

/-- Core 1 holds the line in a state. -/
def holds (s : State) (st : LineSt) (acks : Int) : State :=
  s.setCore 1 { s.core 1 with lines := [(line0, { st := st, data := 0xAB, poison := false, acks := acks, granted := false, grantDirty := false })] }

theorem test_witness_Home_writes :
    let q := coh 0x80000040
    let cached := homed { llc := llc0 }
    let free := homed {}
    let shared := homed { dir := dir0 none false 6 }
    let owned := holds (homed { dir := dir0 (some 1) true 0 }) .miA 0
    let stale := holds (homed {}) .oiA 0
    let clean := holds (homed {}) .e 0
    let out := holds (homed {}) .m 0
    let kept := out.setCore 1 { out.core 1 with reserved := some { line := line0, at_ := 0, companion := false, issued := false } }
    let h := free.homeOf line0
    (∀ s ∈ [cached, free, shared], s.homeQuiet line0 = true ∧ s.homeMay (.writeUnique q 0 false) q = true) ∧
      ((cached.home h).cached line0).isSome = true ∧ (cached.home h).entry line0 = none ∧ cached.llcRoom line0 = true ∧
      (free.home h).cached line0 = none ∧ free.inDram line0 = true ∧ ((shared.home h).entry line0).map (·.owner) = some none ∧
      ((out.core 1).line line0).map (·.st) = some .m ∧ (out.core 1).inGranule line0 = false ∧ ((clean.core 1).line line0).map (·.st) = some .e ∧
      ((kept.core 1).line line0).map (·.st) = some .m ∧ (kept.core 1).inGranule line0 = true ∧ kept.rb (Reg.ENC_STATUS 1) 2 = false ∧
      agentCore q.from_ = some 0 ∧ owned.homeQuiet line0 = true ∧ ((owned.core 1).line line0).map (·.st) = some .miA ∧
      ((owned.home h).entry line0).map (fun d => (d.owner, d.excl)) = some (some 1, true) ∧ owned.llcRoom line0 = true ∧
      stale.homeQuiet line0 = true ∧ ((stale.core 1).line line0).map (·.st) = some .oiA ∧ (stale.home h).entry line0 = none := by decide +kernel

theorem test_witness_Caches_answer :
    ((homed {}).core 1).line line0 = none ∧
      (∀ st ∈ [LineSt.m, .o, .e, .s, .isD, .isDI, .imAD, .imA, .smAD, .omAD, .miA, .oiA, .iiA],
        (((holds (homed {}) st 1).core 1).line line0).map (fun l => (l.st, l.acks)) = some (st, 1)) := by decide +kernel

theorem test_witness_Answers_and_closings :
    let q := coh 0x80000040
    let fwd := homed { llc := llc0, txns := [{ line := line0, req := some (.readOnce q), wait := .forward, left := 0, mask := 0 }] }
    let com := homed { llc := llc0, txns := [{ line := line0, req := some (.readUnique q), wait := .comp, left := 0, mask := 0 }] }
    let h := fwd.homeOf line0
    let up := dram [(Reg.PAIR_STATUS, 2)]
    (∀ st ∈ [LineSt.isD, .isDI, .imAD, .smAD, .omAD], (((holds (homed {}) st (-1)).core 1).line line0).map (·.st) = some st) ∧
      CohStatus.denied ≠ .ok ∧ ((-1 : Int) + (1 : BitVec 7).toNat = 0) ∧ ((-1 : Int) + (2 : BitVec 7).toNat ≠ 0) ∧
      (let waits := (holds (homed {}) .isD 0).setCore 1 { (holds (homed {}) .isD 0).core 1 with misses := [(missKey line0 false, { drop := 0, wanted := true, got := none })] }
       ((waits.core 1).line line0).map (·.st) = some .isD ∧ ((waits.core 1).miss (missKey line0 false)).map (fun m => (m.wanted, m.got)) = some (true, none)) ∧
      (fwd.home h).busy line0 = true ∧ (fwd.home h).query = none ∧ (fwd.home h).queue = [] ∧ ((fwd.home h).txn line0).map (fun t => (t.wait, t.req)) = some (.forward, some (.readOnce q)) ∧
      ((fwd.home h).cached line0).isSome = true ∧ (com.home h).queue = [] ∧
      ((com.home h).txn line0).map (fun t => (t.wait, t.req.bind reqOf)) = some (.comp, some q) ∧ lineOf q.line.toNat = line0 ∧
      ((homed {}).home h).busy line0 = false ∧ (0 < (1 : BitVec 8).toNat ∧ (15 : BitVec 8).toNat < 16) ∧ up.pairLink = 2 := by decide +kernel

theorem test_witness_Router_delivers_and_posts :
    let src := fun (cfg : Nat) (l : List (Nat × Nat)) =>
      dram ([(Reg.IRT_SRC_CFG 5, cfg), (Reg.IRT_SRC_REC 5, 0x80000040), (Reg.PVT_COREPT 0, 0), (Reg.PVT_COREPT 95, 0)] ++ l)
    let idle := src 1 []
    let norm := src (5 + 95 * 16 + 239 * 65536) []
    let far := src (5 + 96 * 16) []
    let high := src (5 + 240 * 65536) []
    let post := src (7 + 9 * 65536) []
    let mine := (dram []).setCore 1 { sys := [(Sr.HPIPA, 0x80000040)] }
    let encl := dram [(Reg.CMP_CTRL 5, 3 * 65536)]
    sourceReserved 5 = false ∧ idle.rb (Reg.IRT_SRC_CFG 5) 2 = false ∧ idle.rb (Reg.IRT_SRC_CFG 5) 0 = true ∧ idle.mode ≠ modeStandby ∧
      (idle.agenda.filterMap (deliveryAt (idle.clk + 20))).length < 4 ∧
      norm.rb (Reg.IRT_SRC_CFG 5) 2 = true ∧ norm.rf (Reg.IRT_SRC_CFG 5) 10 4 = 95 ∧ norm.rf (Reg.IRT_SRC_CFG 5) 23 16 = 239 ∧
      norm.coreUp 95 = true ∧ norm.rb (Reg.IRT_SRC_CFG 5) 1 = false ∧ norm.rb (Reg.PVT_COREPT 95) 3 = false ∧
      95 < far.rf (Reg.IRT_SRC_CFG 5) 10 4 ∧ 240 ≤ high.rf (Reg.IRT_SRC_CFG 5) 23 16 ∧
      post.rb (Reg.IRT_SRC_CFG 5) 1 = true ∧ post.sourceEid 5 = 0 ∧ post.coreUp (post.rf (Reg.IRT_SRC_CFG 5) 10 4) = true ∧
      (dram []).sr 1 Sr.HPIPA ≠ (0x80000040#46).toNat ∧ mine.sr 1 Sr.HPIPA = (0x80000040#46).toNat ∧ inRom 0x80000040 = false ∧
      encl.sourceEid 1029 ≠ 0 ∧ encl.sheet.intake.length < 64 := by decide +kernel

/-! ### Main cores -/

/-- A clean line held in a state. -/
def cline (st : LineSt) : CLine := { st := st, data := 0xF1, poison := false, acks := 0, granted := false, grantDirty := false }
/-- Core 0 is powered and stands as `x` at 0x80001000, whose line it holds in E, with registers as listed. -/
def at0 (x : Core) (l : List (Nat × Nat)) : State :=
  (dram ([(Reg.PVT_COREPT 0, 0), (Reg.PVT_COREPT 1, 0)] ++ l)).setCore 0
    { x with pc := 0x80001000, lines := tabInsert 0x80001000 (cline .e) x.lines }
/-- System registers as listed. -/
def sys (l : List (Nat × Nat)) : Tab Word64 := l.foldl (fun t e => tabSet (srReset e.1) t e.1 (BitVec.ofNat 64 e.2)) []
/-- The state after the fetch at the PC of core 0. -/
def fetched (s : State) : State := (s.coreFetch 0).getD s
/-- The handler at an address can be fetched from at a level, after a fetch that gave no fault. -/
def traps (s : State) (t a : Nat) : Bool :=
  (s.coreFetch 0).isSome && decide (((fetched s).core 0).sr (Sr.VBAR t) + (if ((fetched s).core 0).pl.toNat = t then 0 else 0x200) = a) &&
    decide (a % 4 = 0) && (fetched s).plainAt 0 t a
/-- Vector bases at 0x80004000. -/
def bases : List (Nat × Nat) := [(Sr.VBAR 1, 0x80004000), (Sr.VBAR 2, 0x80004000), (Sr.VBAR 3, 0x80004000)]

theorem test_witness_Integer_instructions :
    let s := at0 { pl := 0, g := [(1, 0x8000000000000000), (2, 0xFFFFFFFFFFFFFFFF)], sys := sys bases } []
    traps s 1 0x80004200 = true ∧ (31 : BitVec 6).toNat < 32 ∧ 32 ≤ (32 : BitVec 6).toNat ∧ (s.core 0).greg 3 = 0 := by decide +kernel

theorem test_witness_Branches_and_loops :
    let s := at0 { pl := 3, g := [(1, 5)], sys := sys bases } []
    let ends := at0 { pl := 3, sys := sys (bases ++ [(Sr.LOOPCNT 0, 2), (Sr.LOOPBEG 0, 0x80000F00), (Sr.LOOPEND 0, 0x80001000)]) } []
    let inner := at0 { pl := 3, sys := sys (bases ++ [(Sr.LOOPCNT 0, 2), (Sr.LOOPBEG 0, 0x80000F00), (Sr.LOOPEND 0, 0x80001010)]) } []
    (s.core 0).atLoopEnd = false ∧ (s.coreFetch 0).isSome = true ∧ traps s 3 0x80004000 = true ∧
      ((fetched s).core 0).sr (Sr.LOOPCNT 0) = 0 ∧ ((fetched s).core 0).sr (Sr.LOOPCNT 1) = 0 ∧ 0x80001000 + 4 * 1 + 4 < 2 ^ 64 ∧
      (inner.core 0).atLoopEnd = false ∧ ((fetched inner).core 0).loopAddr (Sr.LOOPBEG 0) ≤ 0x80001004 ∧
      0x80001000 + 4 * 4 ≤ ((fetched inner).core 0).loopAddr (Sr.LOOPEND 0) ∧ traps inner 3 0x80004000 = true ∧
      ¬ (0x80001000 + 4 * 5 ≤ ((fetched inner).core 0).loopAddr (Sr.LOOPEND 0)) ∧
      (ends.core 0).atLoopEnd = true ∧ traps ends 3 0x80004000 = true ∧ (ends.core 0).sr (Sr.LOOPCNT 1) = 0 ∧
      (ends.core 0).loopAddr (Sr.LOOPEND 0) = 0x80001000 ∧ 1 < (ends.core 0).sr (Sr.LOOPCNT 0) := by decide +kernel

theorem test_witness_Floating_point :
    ((at0 { pl := 0, f := [(1, 0x3FF8000000000000)] } []).coreFetch 0).isSome = true ∧ 0x7F7FFFFF < 2 ^ FpFmt.s.width ∧
      unpack .s 0x7F7FFFFF ≠ .nan ∧ unpack .s 1 ≠ .nan ∧ ((-1 : Int) < 0) := by decide +kernel

/-- Core 0 with g1 and g2 as addresses, at PL3. -/
def moves (x : Core) : State := at0 { x with pl := 3, g := [(1, 0x80002038), (2, 0x12000000), (3, 5)] } []
/-- A buffered store of 8 bytes below g1. -/
def older : StoreEntry := { addr := 0x80002030, bytes := 8, data := 5, type := .wb, pl := 3, eid := 0, slack := 0, size := 3, sent := false }
/-- The line at g1 in state M. -/
def held1 : Tab CLine := [(0x80002000, cline .m)]
/-- A load waits for the line at g1, and its data have come. -/
def came : Tab Miss := [(missKey 0x80002000 false, { drop := 0, wanted := true, got := some (.data 0xF1 false) })]

theorem test_witness_Loads_and_stores :
    let s := moves { stores := List.replicate 23 older }
    let mine := moves { lines := held1, reserved := some { line := 0x80002000, at_ := 0, companion := false, issued := false } }
    let other := moves { reserved := some { line := 0x80002080, at_ := 0, companion := false, issued := false } }
    let waits := moves { lines := [(0x80002000, cline .isDI)], misses := came }
    let leaves := moves { lines := [(0x80002040, cline .miA)] }
    let x := (fetched s).core 0
    let d := fetched mine
    (s.coreFetch 0).isSome = true ∧ (fetched s).plainAt 0 3 0x80002038 = true ∧ (∀ e ∈ x.stores, e.addr + e.bytes ≤ 0x80002038) ∧
      x.stores.length < 24 ∧ (fetched s).holds 0 0x80002038 = false ∧ 0x80002038 % 64 + 8 ≤ 64 ∧ x.line 0x80002038 = none ∧ x.misses = [] ∧
      (fetched s).companionLeaves 0 0x80002038 = false ∧ tabFind x.refused (lineOf 0x80002038) = none ∧ (fetched s).purging 0 = false ∧
      (fetched leaves).companionLeaves 0 0x80002038 = true ∧ (waits.coreFetch 0).isSome = true ∧ (fetched waits).plainAt 0 3 0x80002038 = true ∧
      ((fetched waits).core 0).missGot (missKey 0x80002038 false) = some (.data 0xF1 false) ∧
      ((fetched waits).core 0).line 0x80002038 = some (cline .isDI) ∧
      (fetched s).inHomed 0x12000000 = false ∧ ((fetched s).window 0x12000000).map (fun w => w.admits 0x12000000 3) = some true ∧
      x.devWaits = false ∧
      (match (fetched s).busRead (x.requester 0) 0x12000000 4 ((fetched s).stampWith (x.slack 3)) with | (.ok _, _) => true | _ => false) = true ∧
      (mine.coreFetch 0).isSome = true ∧ d.plainAt 0 3 0x80002038 = true ∧ inRom 0x80002038 = false ∧ (d.core 0).stores = [] ∧
      (d.core 0).reserved.map (fun r => (decide (r.line / 128 = 0x80002038 / 128), r.issued)) = some (true, false) ∧
      ((d.core 0).line 0x80002038).map (fun l => (l.st, l.poison)) = some (.m, false) ∧ (other.coreFetch 0).isSome = true ∧
      ((fetched other).core 0).reserved.map (fun r => decide (r.line / 128 = 0x80002038 / 128)) = some false := by decide +kernel

theorem test_witness_Calls_exceptions_and_return :
    let ret := fun (e : Nat) => sys (bases ++ [(Sr.ESTAT 1, e), (Sr.ELR 1, 0x80005000), (Sr.ESTAT 2, e), (Sr.ELR 2, 0x80005000)])
    let user := at0 { pl := 0, sys := ret 0 } []
    let os := at0 { pl := 1, sys := ret 1 } []
    let hyp := at0 { pl := 2, sys := ret 3 } []
    let mon := at0 { pl := 3, sys := ret 0 } []
    let barred := at0 { pl := 1, sys := ret 2, eff := sys [(Sr.HCTL, 8)] } []
    (∀ s ∈ [user, os, hyp, mon, barred], (s.coreFetch 0).isSome = true ∧ (s.core 0).atLoopEnd = false) ∧
      traps user 1 0x80004200 = true ∧ traps os 1 0x80004000 = true ∧ traps os 2 0x80004200 = true ∧ traps os 3 0x80004200 = true ∧
      traps hyp 2 0x80004000 = true ∧ traps mon 3 0x80004000 = true ∧ traps barred 1 0x80004000 = true ∧
      (((fetched barred).core 0).ef Sr.HCTL).testBit 3 = true ∧ (((fetched os).core 0).ef Sr.HCTL).testBit 3 = false ∧
      2 < fld (((fetched hyp).core 0).sr (Sr.ESTAT 2)) 1 0 ∧ fld (((fetched os).core 0).sr (Sr.ESTAT 1)) 1 0 ≤ 1 ∧
      ((fetched os).core 0).sr (Sr.ELR 1) % 4 = 0 := by decide +kernel

theorem test_witness_System_registers_and_barriers :
    let user := at0 { pl := 0, sys := sys bases, eff := sys [(Sr.HCTL, 0xF)] } []
    let os := at0 { pl := 1, sys := sys bases, stores := [older] } []
    let mon := at0 { pl := 3, sys := sys bases } []
    (∀ s ∈ [user, os, mon], (s.coreFetch 0).isSome = true ∧ (s.core 0).atLoopEnd = false) ∧
      srInfo 0x7FF = none ∧ (srInfo Sr.COREID).map (fun i => (decide (i.read ≤ 1), i.write)) = some (true, none) ∧
      (srInfo Sr.TTB2).map (fun i => (decide (i.read ≤ 3), i.write.map (decide <| · ≤ 3), i.latent)) = some (true, some true, true) ∧
      (srInfo Sr.TTB2).map (fun i => (decide (0 < i.read), i.write.map (decide <| 0 < ·))) = some (true, some true) ∧
      ((fetched os).core 0).stores ≠ [] ∧ ((fetched mon).core 0).stores = [] ∧ (∀ k < 2, ((fetched mon).core 0).sr (Sr.LOOPCNT k) = 0) ∧
      (((fetched user).core 0).ef Sr.HCTL).testBit 2 = true ∧ (((fetched user).core 0).ef Sr.HCTL).testBit 0 = true ∧
      (((fetched mon).core 0).ef Sr.HCTL).testBit 2 = false ∧ traps user 2 0x80004200 = true ∧ traps user 1 0x80004200 = true ∧
      traps os 1 0x80004000 = true := by decide +kernel

theorem test_witness_Core_events :
    let run := at0 { pl := 2, latent := [{ left := 0, number := Sr.HCTL, value := 5 }] } []
    let open_ := at0 { pl := 2, latent := [{ left := 3, number := Sr.HCTL, value := 5 }] } []
    let irq : State := { at0 { pl := 2, sys := sys [(Sr.IVBAR 2, 0x80000040), (Sr.PEND 2 3, 2 ^ 62)], eff := sys [(Sr.IML 2, 14)] } [] with
      mem := [(0x80000831, 0x50), (0x80000833, 0x80)] }
    let c := irq.core 0
    let a := c.sr (Sr.IVBAR 2) + 8 * 254
    let fired := at0 { timerFired := [.one] } []
    let timer := at0 { sys := sys [(Sr.TMR 1, 0), (Sr.TMR 2, 5)] } []
    let wb : StoreEntry := { addr := 0x80002030, bytes := 8, data := 5, type := .wb, pl := 3, eid := 0, slack := 0, size := 3, sent := false }
    let drains := at0 { stores := [wb], lines := held1 } []
    let nc := at0 { stores := [{ wb with type := .nc }] } []
    let rsv : Reservation := { line := 0x80002000, at_ := 0, companion := false, issued := false }
    let keep := at0 { reserved := some rsv } []
    let lose : State := { keep with clk := keep.nsOf 0 4096 }
    let wait := at0 { tlbi := some (.all, some [(0, 1)]), stores := [wb] } []
    let done := at0 { tlbi := some (.all, some [(0, 1)]), drained := 1 } []
    (run.core 0).latent.map (·.left) = [0] ∧ (open_.core 0).latent.map (·.left) = [3] ∧
      c.latent = [] ∧ c.takeable = some (2, 254) ∧ irq.mayInterrupt 0 = true ∧ c.eid = 0 ∧ c.stepping = false ∧ a % 8 = 0 ∧
      irq.plainAt 0 2 a = true ∧ irq.readRefused 0 a = false ∧ (irq.coreLine 0 a).2 = false ∧ (irq.coreLine 0 a).1.toNat / 2 ^ (8 * (a % 64)) % 2 ^ 64 = 0x80005000 ∧ irq.plainAt 0 2 0x80005000 = true ∧
      (fired.core 0).takeable = none ∧ View.one ∈ (fired.core 0).timerFired ∧ View.one ∉ (timer.core 0).timerFired ∧ timer.coreUp 0 = true ∧
      (timer.core 0).sr (Sr.TMR (viewNo .one)) ≤ timer.now ∧ timer.now < (timer.core 0).sr (Sr.TMR (viewNo .two)) ∧
      (drains.core 0).stores = [wb] ∧ drains.storeBar wb = none ∧ inRom wb.addr = false ∧
      tabFind (drains.core 0).refused (lineOf wb.addr) = none ∧ ((drains.core 0).line wb.addr).map (·.st) = some .m ∧ drains.purging 0 = false ∧
      (nc.core 0).stores.map (·.type) = [.nc] ∧ nc.storeBar { wb with type := .nc } = none ∧ (nc.core 0).reserved = none ∧ (nc.core 0).tlbi = none ∧
      (keep.core 0).reserved = some rsv ∧ ¬ (4096 ≤ keep.cyclesIn 0 keep.clk) ∧ 4096 ≤ lose.cyclesIn 0 lose.clk ∧
      wait.tlbiDone (0, 1) = false ∧ done.tlbiDone (0, 1) = true := by decide +kernel

theorem test_witness_Counters_and_shutter :
    let s := at0 { sys := sys [(Sr.PMU_CTRL, 0x61), (Sr.PMSEL 9, 0x1000), (Sr.PMU_SAMPLE, 0x80000000)] } [(bankBlock (.hs 15) + 0x800, 1)]
    let still := at0 { sys := sys [(Sr.PMU_CTRL, 1)] } [(bankBlock (.hs 15) + 0x800, 1), (Reg.GT_PMU_FREEZE, 1)]
    let armed := at0 {} [(Reg.GT_SHUTTER_CTRL, 2), (Reg.GT_SHUTTER, 5)]
    let due : State := { armed with gt := { armed.gt with now := 5 } }
    let full : State := { s with homes := [(15, { full := some 5 })] }
    s.counting 0 = true ∧ still.counting 0 = false ∧ full.runningEvent (bankBlock (.hs 15)) = some (6, 5) ∧
      s.runningEvent (bankBlock (.hs 15)) = none ∧ (9 < 10) ∧ s.rb (bankBlock (.hs 15) + 0x800) 0 = true ∧
      s.rb Reg.GT_PMU_FREEZE 0 = false ∧ still.rb Reg.GT_PMU_FREEZE 0 = true ∧ s.rb Reg.GT_SHUTTER_CTRL 1 = false ∧
      armed.rb Reg.GT_SHUTTER_CTRL 1 = true ∧ armed.now < armed.rd Reg.GT_SHUTTER ∧ due.rd Reg.GT_SHUTTER ≤ due.now ∧
      due.rb Reg.GT_SHUTTER_CTRL 2 = false ∧ due.coreUp 0 = true := by decide +kernel

/-! ### The contact sheet, the queue engines, ports and points -/

/-- An event of a class and unit, and an entry that holds it. -/
def evnt (c : Byte) (u : Word32) : SheetEvent := { cls := c, unit := u, addr := 7, synd := 1, scrub := false, gt := 5 }
def kept (c : Byte) (u : Word32) : SheetEntry := { ev := evnt c u, valid := true, lost := false, repeats := 0xFFFF, seq := 3 }
/-- Queue 0 of VI 0 (EID 3, VMID 5) with a QSTAT and a context; its engine's TLB maps 0x1000 to 0x80001000. -/
def queued (head tail gen st : Nat) (q : Queue) (e : Qe) (l : List (Nat × Nat)) : State :=
  let s := dram ([(Reg.VI_CFG 0, 1 + 3 * 256 + 5 * 65536), (Reg.VI_QRANGE 0, 8 * 2 ^ 18),
    (qstat 0, head + tail * 2 ^ 24 + gen * 2 ^ 48 + st * 2 ^ 56)] ++ l)
  (s.setQueueCtx 0 q).setQe 0 { e with
    tlb := [{ vmid := 5, size := 12, ipage := 0x1000, ppage := 0x80001000, type := .wb, r := true, w := true }] }
/-- A COPY queue of 16 descriptors. -/
def copyQ : Queue := { kind := 0, ring := 0x1000, comp := 0x1F00, log2 := 4 }
/-- The TLB of engine 0 has an entry for an address of VMID 5. -/
def tlbHit (s : State) (ipa : Nat) : Bool :=
  ((s.qe 0).tlb.find? fun t => decide (t.vmid = s.viVmid 0) && decide (t.ipage = ipa / 2 ^ t.size * 2 ^ t.size)).isSome

theorem test_witness_Contact_sheet_and_queues :
    let fresh : State := { dram [] with sheet := { ring := [kept 1 2], intake := [evnt 0x21 5], lostPending := true } }
    let merge : State := { fresh with sheet := { fresh.sheet with ring := [kept 1 2, kept 0x21 5] } }
    let copies : State := { dram [] with sheet := { toMirror := [3], mirrorSize := 4, mirrorBase := 0x80001000 } }
    let fetch := queued 2 5 9 1 copyQ { fifo := [(0, 5, 77)] } []
    let full := queued 2 18 9 1 copyQ {} [(Reg.QE_STATUS 0, 0x2000)]
    let chan : Chan := { queue := some 0, tail := 5, stamp := 7, a := [(32, 0x80001000)] }
    let mem := [(0x80001001, 0x11), (0x80001009, 0x12), (0x80001010, 100), (0x80001014, (9 : Byte))]
    let desc : State := { queued 0 0 9 1 copyQ { chans := [(31, chan)] } [] with mem := mem }
    let later : State := { queued 0 0 8 1 copyQ { chans := [(31, chan)] } [] with mem := mem }
    let d := descrOf (toBytes 32 (desc.bytes 0x80001000 32)) (desc.queue 0).next 7
    let e : Descr := { index := 15, gen := 9, a := 0, b := 0, length := 100, irq := true, kind := 0, opt := 0, cookie := 1, stamp := 4
                       done := some (0, 100) }
    let comp := queued 15 16 9 2 { copyQ with flight := [e] } {} []
    (∀ x ∈ fresh.sheet.ring.take 16, x.merges (evnt 0x21 5) = false) ∧ (kept 0x21 5).merges (evnt 0x21 5) = true ∧
      (kept 1 2).merges (evnt 0x21 5) = false ∧ merge.sheet.ring = [kept 1 2] ++ kept 0x21 5 :: [] ∧
      copies.sheet.mirrorSize ≠ 0 ∧ copies.inDram (0x80001000 + 3 % 4 * 32) = true ∧ fresh.sheet.mirrorSize = 0 ∧
      fetch.queueEid 0 = 3 ∧ fetch.qWorks 0 = true ∧ full.qWorks 0 = true ∧ ¬ (fetch.qSize 0 < fetch.qHeld 0 + 13) ∧
      fetch.qSize 0 < fetch.qHeld 0 + 14 ∧ ¬ (full.qSize 0 < diff24 18 (full.qHead 0)) ∧ diff24 2 (fetch.qHead 0) < fetch.qHeld 0 ∧
      fetch.qState 0 ≠ qWaitGen ∧ (fetch.queue 0).kind ≠ typeRx ∧ diff24 5 (fetch.queue 0).next ≠ 0 ∧ fetch.rb (Reg.QE_STATUS 0) 13 = false ∧
      full.rb (Reg.QE_STATUS 0) 13 = true ∧ (full.qe 0).fifo = [] ∧ (full.qe 0).bitmap = [] ∧ (full.qe 0).scanHit = false ∧
      (fetch.qe 0).fifo = [(0, 5, 77)] ∧ (fetch.qe 0).chans = [] ∧ (fetch.qe 0).rx = [] ∧ fetch.viOfQueue 0 = some 0 ∧
      tlbHit fetch 0x1000 = true ∧ fetch.inDram 0x80001000 = true ∧ fetch.inDram 0x8000101F = true ∧
      desc.chan 0 31 = chan ∧ desc.viOfQueue 0 = some 0 ∧ desc.ertPermits (desc.viEid 0) 0x80001000 false = true ∧
      desc.poisoned (lineOf 0x80001000) = false ∧ d.gen.toNat = desc.qGen 0 ∧ d.gen.toNat ≠ later.qGen 0 ∧ d.kind = typeCopy ∧
      desc.formatBad (desc.queue 0) d ((toBytes 32 (desc.bytes 0x80001000 32)).getD 21 0) = false ∧ d.length = 100 ∧
      tlbHit desc d.a.toNat = true ∧ tlbHit desc d.b.toNat = true ∧ desc.inDram (0x80001000 + (d.a.toNat - 0x1000) + 99) = true ∧
      (comp.queue 0).flight = [e] ∧ comp.viOfQueue 0 = some 0 ∧ tlbHit comp (0x1F00 + 16 * 15) = true ∧ comp.inDram 0x80001FF0 = true ∧
      0x1FF0 - 0x1000 + 16 ≤ 2 ^ 12 ∧ comp.ertPermits (comp.viEid 0) 0x80001FF0 true = true ∧ comp.qGen 0 = 9 ∧ later.qGen 0 ≠ 9 := by
  decide +kernel

/-- A number as bytes, most significant first. -/
def be (n k : Nat) : List Byte := (List.range k).map fun i => BitVec.ofNat 8 (n / 256 ^ (k - 1 - i))
/-- A tagged frame of VLAN 5 and PCP 3, 64 bytes with its check sequence, of an EtherType. -/
def eth (type : Nat) : List Byte := be 0x020000000001 6 ++ be 0x020000000002 6 ++ be 0x81006005 4 ++ be type 2 ++ List.replicate 42 0
/-- A frame at rest in the buffer. -/
def stored (type : Nat) (whole : Bool) (wait active : List (Nat × Nat)) : Frame :=
  { bytes := eth type, inPort := some 3, sfd := 77, whole := whole, taken := true, order := 0, cells := 6, dropEligible := false
    wait := wait, active := active, since := 0, from_ := none }
/-- Ports 0 and 3 have link; they, port 2 and port 8 are members of VLAN 5, and the FDB names port 0. -/
def switch (l : List (Nat × Nat)) (n : Net) : State :=
  { dram ([(Reg.PORT_STATUS 3, 1), (Reg.PORT_STATUS 0, 1), (Reg.VLAN_CTRL 5, 6), (Reg.VLAN_MEMBER 5 0, 0x10D), (Reg.PORT_CFG 3, 0x17C9F1),
      (Reg.PORT_CFG 0, 0x17C811), (Reg.PORT_CFG 2, 0x17C811), (Reg.FDB_KEY 9, 2 ^ 63 + 5 * 2 ^ 48 + 0x020000000001), (Reg.FDB_PORTS 9 0, 1)] ++ l) with net := n }

theorem test_witness_Ports_and_frames :
    let f := eth 0x0800
    let s := switch [(Reg.SW_TC_LIMIT 3, 6 * 2 ^ 24 + 0x2000)] { nextFrame := 4 }
    let tight := switch [(Reg.SW_TC_LIMIT 3, 0)] { nextFrame := 4 }
    let none_ := switch [(Reg.FDB_PORTS 9 0, 8)] {}
    let got := fun (g : Frame) => switch [] { ports := [(3, { rx := some 7 })], frames := [(7, some g)], nextFrame := 9 }
    let rx := (switch [(qstat 1, 5 * 2 ^ 24 + 9 * 2 ^ 48 + 2 ^ 56), (Reg.PORT_RXQ 3 3, 2 ^ 31 + 1)]
      { ports := [(3, { rx := some 7 })], frames := [(7, some (stored 0x0800 false [(128, 3)] []))] }).setQueueCtx 1 { kind := 2, port := 3 }
    let out : State := { switch [] { frames := [(8, some (stored 0x0800 true [(0, 3)] []))] } with clk := 620 }
    let mid : State := { switch [] { ports := [(0, { tx := some (8, 3, 0, 600, false) })]
                                     frames := [(8, some (stored 0x0800 true [] [(0, 3)]))] } with clk := 599 }
    let last : State := { mid with clk := 600 }
    let aged : State := { out with clk := out.frameAge }
    let swap := switch [(Reg.PORT_GCL_CTRL 3, 4), (Reg.PORT_GCL_BASE 3, 1000003), (Reg.PORT_GCL_CYCLE 3, 7)] { ports := [(3, { swapAt := 5 })] }
    let due : State := { swap with gt := { swap.gt with now := 1000003 } }
    let claim := (s.maxFrame 3 + 255) / 256
    let old := fun (t : State) => t.frames.filter fun f => f.2.wait.any (fun d => d.1 == 0) && decide (f.2.since + t.frameAge ≤ t.clk)
    s.rb (Reg.VLAN_CTRL (frameVid f)) 2 = true ∧ (s.vlanMembers (frameVid f)).testBit 3 = true ∧ (s.vlanMembers (frameVid f)).testBit 4 = false ∧
      s.linkOn 3 = true ∧ s.linkOn 2 = false ∧ beAt f (afterTag f) 2 = 0x0800 ∧ s.streamOf f = none ∧ none_.destinations 3 f = [] ∧
      s.destinations 3 f = [0] ∧ s.cellsFor 0 (s.frameClass 3 f) + claim ≤ s.rf (Reg.SW_TC_LIMIT (s.frameClass 3 f)) 31 24 ∧
      tight.destinations 3 f = [0] ∧ tight.cellsFor 0 3 = 0 ∧ claim ≤ tight.sharedPool ∧ tight.rf (Reg.SW_TC_LIMIT 3) 16 0 < tight.sharedFor 3 + claim ∧
      (s.nport 3).rx = none ∧ ((got (stored 0x0800 false [(0, 3)] [])).nport 3).rx = some 7 ∧ 64 ≤ f.length + 4 ∧ f.length + 4 ≤ s.maxFrame 3 ∧
      ((got (stored 0x0800 false [] [])).frame 7).isSome = true ∧
      (rx.rd (Reg.PORT_RXQ 3 (rx.frameClass 3 f))).testBit 31 = true ∧ rx.qWorks 1 = true ∧ 0 < rx.qToFetch 1 ∧
      (out.nport 0).tx = none ∧ (out.nextFrameFor 0).map (fun e => (e.1, e.2.1)) = some (8, 3) ∧ mid.clk < 600 ∧ 600 ≤ last.clk ∧
      (last.frame 8).map (·.whole) = some true ∧ (old out).length = 0 ∧ (old aged).length = 1 ∧
      swap.rb (Reg.PORT_GCL_CTRL 3) 2 = true ∧ swap.now < swap.swapInstant 3 5 ∧ due.swapInstant 3 5 ≤ due.now ∧ s.rb (Reg.PORT_GCL_CTRL 3) 2 = false ∧
      s.syncMaster 3 = true ∧ s.syncMaster 0 = false ∧ s.rb (Reg.PORT_CFG 3) 7 = true ∧ beAt (eth 0x88F7) (afterTag (eth 0x88F7)) 2 = 0x88F7 ∧
      s.rb (Reg.PORT_CFG 0) 7 = false ∧ s.rb (Reg.PORT_STATUS 0) 0 = true ∧ s.rb (Reg.PORT_STATUS 2) 0 = false ∧ s.portMode 2 ≠ 0 := by
  decide +kernel

/-- A Dinath frame for node 7 of domain 4, from node 9. -/
def din (kind count : Nat) (body : List Byte) : List Byte :=
  be 0x020000000001 6 ++ be 0x020000000002 6 ++ be 0x88B5 2 ++ be (16 + kind) 1 ++ [0] ++ be 4 2 ++ be 7 3 ++ be 9 3 ++ [0, 0] ++ be count 2 ++
    [0, 0] ++ body ++ List.replicate (30 - body.length) 0

theorem test_witness_Point_image_and_Dinath :
    let at_ := fun (l : List (Nat × Nat)) (p : Point) => ({ dram ([(Reg.PORT_CFG 3, 0x17C851), (Reg.DIN_NODE, 7), (Reg.DIN_DOMAIN, 4),
      (Reg.PT_CLASS 2, 0x1F000001), (Reg.PT_DIN_EID 2, 3), (Reg.PT_DIN_SRC_HI 2, 9)] ++ l) with points := [(131071, p)] } : State)
    let p : Point := { value := 5, stamp := 100, valid := true, cls := 2, eid := 3 }
    let s : State := { at_ [] p with gt := { now := 1100 } }
    let late : State := { s with gt := { s.gt with now := 1101 } }
    let forced := at_ [] { p with forced := true }
    let go := fun first count => at_ [(Reg.PT_ASG_FIRST, first), (Reg.PT_ASG_COUNT, count), (Reg.PT_FRC_POINT, 131071)] p
    let stream := at_ [(Reg.PHB_CTRL 15, 1), (Reg.PHB_STATUS 15, srcStream * 2 ^ 10), (Reg.PHB_NODE 15, 7 + 3 * 2 ^ 20)] p
    let f := din 1 1 (be 131071 4 ++ be 7 8)
    let full : State := { s with net := { s.net with dinath := List.replicate 16 100 } }
    let service := at_ [(Reg.PVT_MODE, 7)] p
    (s.point 131071).forced = false ∧ (s.point 131071).eid = 3 ∧ s.rb (Reg.PT_CLASS 2) (24 + 1) = true ∧ (forced.point 131071).forced = true ∧
      ((BitVec.ofNat 40 99) - p.stamp).slt 0 = true ∧ ((BitVec.ofNat 40 100) - p.stamp).slt 0 = false ∧ pl3.eid ≠ p.eid ∧ p.bad = false ∧
      s.points.filter (fun e => s.pointStale e.2 && !e.2.stale) = [] ∧
      (late.points.filter fun e => late.pointStale e.2 && !e.2.stale).map (·.1) = [131071] ∧
      (∀ e ∈ (go 131070 1).points, ¬ (131070 ≤ e.1 ∧ e.1 < 131070 + 1)) ∧ (go 131070 1).rf Reg.PT_ASG_OWNER 17 12 = 0 ∧
      (go 131070 2).rd Reg.PT_ASG_FIRST + (go 131070 2).rd Reg.PT_ASG_COUNT ≤ 131072 ∧ 131072 < (go 131071 2).rd Reg.PT_ASG_FIRST + 2 ∧
      (go 131071 2).rd Reg.PT_ASG_COUNT = 2 ∧ (go 0 1).rb Reg.PT_ASG_CTRL 1 = false ∧ (at_ [(Reg.PT_ASG_CTRL, 2)] p).rb Reg.PT_ASG_CTRL 1 = true ∧
      ((go 0 1).point ((go 0 1).rd Reg.PT_FRC_POINT)).eid ≠ 0 ∧
      s.rf (Reg.PT_DIN_EID 2) 5 0 = p.eid.toNat ∧ s.rb (Reg.PT_CLASS 2) 24 = true ∧ s.rf (Reg.PT_DIN_SRC_LO 2) 17 0 ≤ 9 ∧
      9 ≤ s.rf (Reg.PT_DIN_SRC_HI 2) 17 0 ∧ ¬ (10 ≤ s.rf (Reg.PT_DIN_SRC_HI 2) 17 0) ∧
      (List.range 16).filter (fun b => stream.runsOn b srcStream && !stream.rb (Reg.PHB_CTRL b) 7 && stream.rf (Reg.PHB_NODE b) 17 0 == 7 &&
        stream.rf (Reg.PHB_NODE b) 23 20 == 3) = [15] ∧ s.runsOn 15 srcStream = false ∧
      dinathAt (eth 0x0800) = none ∧ dinathAt f = some 14 ∧ dinathGood f 14 = true ∧ dinathGood (din 4 1 []) 14 = false ∧
      dinathGood (din 2 1 [3, 0]) 14 = true ∧ dinathGood (din 3 1 [1]) 14 = true ∧ (dinHeader f 14).domain = s.rf Reg.DIN_DOMAIN 15 0 ∧
      (dinHeader f 14).dest = s.rf Reg.DIN_NODE 17 0 ∧ (dinHeader f 14).kind = 1 ∧ (dinHeader (din 3 1 [1]) 14).kind = 3 ∧
      s.rb (Reg.PORT_CFG 3) 6 = true ∧ (full.net.dinath.filter fun t => decide (full.clk < t)).length = 16 ∧ s.mode ≠ modeService ∧
      service.mode = modeService ∧ service.mgmtOutstanding < 4 := by decide +kernel

/-! ### Enclaves and the pair -/

/-- A device with the ERT window written: entry 0 of EID 3, its LO and HI words. -/
def ertWords (lo hi : Nat) (l : List (Nat × Nat)) : State :=
  (toBytes 8 lo ++ toBytes 8 hi).zipIdx.foldl (fun s b => s.setByte (0x1000000 + 3 * 0x80 + b.2) b.1) (dram l)

theorem test_witness_Enclave_ranges_purge_and_keys :
    let r : ErtRange := { eid := 3, index := 0, base := 0x80000000, last := 0x80001000, w := true }
    let s : State := { dram [] with ert := [r] }
    let good := ertWords 0x80000003 0x80001000 []
    let bad := ertWords 0x80001003 0x80000000 []
    let busy := dram [(Reg.ENC_STATUS 0, 1)]
    let line := good.setHome (good.homeOf line0) { dir := dir0 (some 1) true 0 }
    let walk : State := { busy.setHome (busy.homeOf line0) { txns := [{ line := line0, req := none, wait := .comp, left := 0, mask := 0 }] } with
      enc := { walk := [line0] } }
    let cell := fun st : LineSt => ({ st := st, data := 0, poison := false, acks := 0, granted := false, grantDirty := false } : CLine)
    let purges := (dram [(Reg.ENC_STATUS 95, 4)]).setCore 95 { lines := [(line0, cell .m)] }
    let empty := dram [(Reg.ENC_STATUS 95, 4)]
    let keys : State := { dram [] with enc := { deriving_ := [(95, some (7, 63))] } }
    (r.base ≤ 0x80001000 ∧ 0x80001000 ≤ r.last) ∧ ¬ (0x80002000 ≤ r.last) ∧ s.ert = [r] ∧
      good.ertTable.map (fun x => (x, good.ertReason good.ertTable x)) = [(r, 0)] ∧
      bad.ertTable.map (fun x => decide (bad.ertReason bad.ertTable x ≠ 0)) = [true] ∧ good.rb (Reg.ENC_STATUS 0) 0 = false ∧
      good.ertChanged good.ert good.ertTable = [] ∧ line.ertChanged line.ert line.ertTable = [line0] ∧
      (line.home (line.homeOf line0)).busy line0 = false ∧ ((line.home (line.homeOf line0)).entry line0).isSome = true ∧
      busy.rb (Reg.ENC_STATUS 0) 0 = true ∧ busy.enc.walk = [] ∧ walk.rb (Reg.ENC_STATUS 0) 0 = true ∧ walk.enc.walk = [line0] ∧
      (walk.home (walk.homeOf line0)).busy line0 = true ∧ pl3.pl = 3 ∧ ({ pl3 with pl := 2 } : Requester).pl ≠ 3 ∧
      good.rb (Reg.ENC_STATUS 95) 2 = false ∧ purges.rb (Reg.ENC_STATUS 95) 2 = true ∧ (purges.core 95).lines ≠ [] ∧
      empty.rb (Reg.ENC_STATUS 95) 2 = true ∧ (empty.core 95).lines = [] ∧ empty.enc.purgers = [] ∧
      ({ keys with enc := { state := 3 } } : State).enc.state = 3 ∧ keys.enc.state ≠ 3 ∧ tabGet none keys.enc.deriving_ 0 = none ∧
      tabGet none keys.enc.deriving_ 95 = some (7, 63) := by decide +kernel

/-- A state of the pair: its registers, its items, the mode, GT and the agreed change of mode. -/
def paired (l : List (Nat × Nat)) (p : Pair) (mode : Nat) (now : Word64) (agreed : Option (Bool × Word64)) : State :=
  let s := dram ((Reg.PVT_MODE, mode) :: l)
  { s with pair := p, gt := { now := now }, modes := { s.modes with agreed := agreed } }
/-- An item of pin 5 at GT 100 with the SEQ and the value. -/
def item (seq : Word32) (v : BitVec 128) : GateItem :=
  { frame := false, key := 5, seq := seq, subGt := 100, phase := true, tag := 5, value := v }

theorem test_witness_Pair_link_and_gate :
    let up := (Reg.PAIR_STATUS, 0xF002)
    let gate := (Reg.PAIR_STATUS, 0xF00A)
    let down := paired [] {} 3 0 none
    let off := paired [] {} 2 0 none
    let trains := paired [(Reg.PAIR_STATUS, 1), (Reg.PAIR_CFG, 1)] {} 3 0 none
    let link := paired [up, (Reg.PAIR_CFG, 3)] { first := true, good := 7, refusals := 14 } 3 0 none
    let stale : State := { paired [up] { refusals := 15 } 3 0 none with clk := 328 }
    let live := paired [gate] {} 4 100 none
    let full := paired [gate] { items := List.replicate 512 (item 9 1), peers := List.replicate 512 (item 9 1) } 4 100 none
    let meets := paired [gate] { peers := [item 0 1] } 4 100 none
    let waits := paired [gate] { items := [item 0 1] } 4 100 none
    let late : State := { waits with gt := { now := BitVec.ofNat 64 (100 + waits.agreeWindow) } }
    let enter := paired [up] {} 3 30 (some (true, 30))
    let leave := paired [up] {} 4 30 (some (false, 30))
    let g : PairGroup := { bad := 0, mode := 4, notice := some (false, 5, 9), up := true, win := 9, follows := true, agree := none }
    let r : Route := { src := .spi, opcode := 0x12, seq := 5 }
    (down.storeReg Reg.PAIR_CFG 2).rb Reg.PAIR_CFG 1 = true ∧ (down.storeReg Reg.PAIR_CFG 2).pairLink = 0 ∧ down.mode = modeRun ∧
      ¬ (off.mode = modeRun ∨ off.mode = modeDegraded ∨ off.mode = modeSafeHold ∨ off.mode = modeService) ∧
      (trains.storeReg Reg.PAIR_CFG 0).rb Reg.PAIR_CFG 1 = false ∧ (trains.storeReg Reg.PAIR_CFG 0).pairLink = 1 ∧
      (link.storeReg Reg.PAIR_CFG 0).pairLink = 2 ∧ link.mode ≠ modePaired ∧ trains.pairLink = 1 ∧ trains.rb Reg.PAIR_CFG 0 = true ∧
      link.pairLink = 2 ∧ link.pair.refusals < 15 ∧ 15 ≤ stale.pair.refusals ∧ stale.pairLink = 2 ∧ link.clk < link.pair.lastGood + 328 ∧
      stale.pair.lastGood + 328 ≤ stale.clk ∧ g.notice.isSome = true ∧ live.gateActive = true ∧ live.mode = modePaired ∧ live.pairLink = 2 ∧
      live.rb Reg.PAIR_IRQ_STATUS 0 = false ∧ down.gateActive = false ∧ (item 0 1).key.toNat < 512 ∧ full.gateActive = true ∧
      512 ≤ full.pair.items.length ∧ 512 ≤ full.pair.peers.length ∧
      (∀ x ∈ full.pair.items, gatePairs (item 0 1) x = false) ∧ live.pair.items.length < 512 ∧ live.pair.peers = [] ∧
      meets.pair.peers.find? (gatePairs (item 0 1)) = some (item 0 1) ∧ gateAgrees (item 0 1) (item 0 1) = true ∧
      gateAgrees (item 0 2) (item 0 1) = false ∧ gatePairs (item 0 2) (item 0 1) = true ∧ meets.pair.agreed = [] ∧
      tabGet 0 meets.pair.nextOut (gateKey (item 0 1)) = 0 ∧ tabGet 0 meets.pair.nextSeq (gateKey (item 0 1)) = 0 ∧
      waits.pair.items.find? (gatePairs (item 0 2)) = some (item 0 1) ∧ waits.now < 100 + waits.agreeWindow ∧ 100 + late.agreeWindow ≤ late.now ∧
      late.gateActive = true ∧ enter.modes.agreed = some (true, 30) ∧ (30 : Word64).toNat ≤ enter.now ∧ enter.mode = modeRun ∧ enter.pairLink = 2 ∧
      leave.modes.agreed = some (false, 30) ∧ leave.mode = modePaired ∧ down.modes.agreed = none ∧ down.lemam.outs = [] ∧
      [r].find? (fun r => decide (r.opcode = ofBytes (([0x12, 0, 5, 0] : List Byte).take 2)) &&
        decide (r.seq = ofBytes ((([0x12, 0, 5, 0] : List Byte).drop 2).take 2))) = some r := by decide +kernel

/-! ### Lemam -/

/-- A device in a mode in which Lemam runs, core 5 powered, with registers as listed. -/
def lem (mode : Nat) (l : List (Nat × Nat)) : State :=
  let s := dram ((Reg.PVT_MODE, mode) :: (Reg.PVT_COREPT 5, 0) :: l)
  { s with modes := { s.modes with lemamUp := true } }
/-- A command of a source with its parameters. -/
def cmdOf (src : CmdSource) (op : Nat) (params : List Byte) : Cmd :=
  { route := { src := src, opcode := op, seq := 0 }, flags := 0, len := params.length, zero := 0, params := params }
/-- A write list of one entry. -/
def listOf (b : Byte) (off : Nat) (width : Byte) (v : Nat) : List Byte := b :: toBytes 3 0 ++ toBytes 4 off ++ width :: toBytes 3 0 ++ toBytes 8 v
/-- A packet of the opcode with parameters of a length, and its flags. -/
def packet (op len flags : Nat) : List Byte := toBytes 2 op ++ toBytes 2 5 ++ toBytes 2 len ++ [0] ++ toBytes 1 flags ++ toBytes 8 0 ++ List.replicate len 1
/-- Ring j is enabled with four slots from a base and holds commands from HEAD. -/
def ring (j : Nat) (head tail base : Nat) : List (Nat × Nat) :=
  [(Reg.CMDR_CFG j, 0x102), (Reg.CMDR_BASE j, base), (Reg.CMDR_HEAD j, head), (Reg.CMDR_TAIL j, tail)]
/-- Bytes placed from an address. -/
def place (s : State) (a : Nat) (p : List Byte) : State := p.zipIdx.foldl (fun s b => s.setByte (a + b.2) b.1) s
/-- The sources of Lemam's round that hold a command. -/
def ready (s : State) : List Nat := (List.range 35).filter s.sourceReady

theorem test_witness_Lemam_transports :
    let on := lem 3 (ring 0 0xFFFF 3 0x80004000)
    let good := packet 1 0 0 ++ toBytes 4 (crc32c (packet 1 0 0)).toNat
    let spi := fun (p : List Byte) => ({ lem 3 [] with lemam := { spiBusy := true, spiCmd := some p } } : State)
    let told : State := { lem 3 [] with lemam := { spiReply := some [1, 2] } }
    let shut := lem 3 (ring 0 1 2 0x1000)
    let bad := place (lem 3 (ring 31 0xFFFF 0 0x80004000)) 0x80007000 (packet 0xFFFF 4 0)
    let peer := place (lem 3 ((Reg.PAIR_STATUS, 2) :: ring 16 1 2 0x80004000)) 0x80005000 (packet 1 4 2)
    let r : Route := { src := .spi, opcode := 1, seq := 5 }
    let fifth : State := { peer with lemam := { outs := [r, r, r, r] } }
    let wdog : State := { lem 3 [(cmdStatus, 0x200)] with spare := { command := false } }
    let wait := fun (op : Nat) (q c : List Nat) (v : Option Nat) (l : List (Nat × Nat)) =>
      ({ lem 3 l with lemam := { deferred := [{ route := { r with opcode := op }, queues := q, channels := c, vi := v }] } } : State)
    let busy := (wait 0x61 [1] [] (some 4095) []).setQe 0 { chans := [(31, { queue := some 1 })] }
    let hit := fun (s : State) (op : Nat) => (s.lemam.deferred.find? fun d => d.route.opcode == op && d.route.seq == 5 && d.route.src == .spi).isSome
    on.rb (Reg.CMDR_CFG 0) 8 = true ∧ (3 + 65536 - on.rd (Reg.CMDR_HEAD 0)) % 65536 = 2 ^ min 8 (on.rf (Reg.CMDR_CFG 0) 3 0) ∧
      2 ^ min 8 (on.rf (Reg.CMDR_CFG 0) 3 0) < (4 + 65536 - on.rd (Reg.CMDR_HEAD 0)) % 65536 ∧ (lem 3 []).rb (Reg.CMDR_CFG 0) 8 = false ∧
      ¬ (2 ≤ (1 : Pl).toNat) ∧ (lem 0 []).mode = modeOff ∧ on.modes.lemamUp = true ∧ on.mode ≠ modeOff ∧ 4 ≤ good.length ∧
      ofBytes (good.drop (good.length - 4)) = (crc32c (good.take (good.length - 4))).toNat ∧ on.lemam.spiBusy = false ∧ on.lemam.spiReply = none ∧
      (spi []).lemam.spiBusy = true ∧ told.lemam.spiReply = some [1, 2] ∧ wdog.lemamRuns = false ∧ wdog.rb cmdStatus 9 = true ∧
      wdog.spare.command = false ∧ on.lemamRuns = true ∧ on.lemam.waiting = [] ∧ ready (lem 3 []) = [] ∧ ready (spi (packet 1 0 0)) = [32] ∧
      (spi (packet 1 0 0)).cmdCheck (packetCmd { src := .spi, opcode := 0, seq := 0 } (packet 1 0 0)) = 0 ∧
      (spi [1, 2]).cmdCheck (packetCmd { src := .spi, opcode := 0, seq := 0 } [1, 2]) ≠ 0 ∧
      ready shut = [0] ∧ shut.inDram (0x1000 + 4096) = false ∧ ready bad = [31] ∧ bad.inDram 0x80007000 = true ∧
      bad.inDram (0x80007000 + 4095) = true ∧ bad.ertPermits 0 0x80007000 true = true ∧ (bad.slotBytes 0x80007000 16).isSome = true ∧
      (bad.slotBytes 0x80007000 20).isSome = true ∧ bad.cmdCheck (packetCmd { src := .ring 31, opcode := 0, seq := 0 } (packet 0xFFFF 4 0)) ≠ 0 ∧
      ready peer = [16] ∧ (peer.slotBytes 0x80005000 20).map (fun p => (packetCmd r p).flags) = some 2 ∧ peer.pairLink = 2 ∧
      peer.lemam.outs.length < 4 ∧ 4 ≤ fifth.lemam.outs.length ∧ ready fifth = [16] ∧
      hit busy 0x61 = true ∧ busy.queueQuiet 1 = false ∧ hit (wait 0x62 [1] [] none []) 0x62 = true ∧ (wait 0x62 [1] [] none []).queueQuiet 1 = true ∧
      hit (wait 0x61 [1] [] (some 4095) []) 0x61 = true ∧ (wait 0x52 [] [7] none [(Reg.MC_STATUS 7, 0x21)]).rb (Reg.MC_STATUS 7) 5 = true ∧
      hit (wait 0x55 [] [2] none []) 0x55 = true ∧ ofBytes (([1] : List Byte).take 1) ≠ 0 ∧ hit (wait 0x53 [] [1] none []) 0x53 = true ∧
      r.live = false ∧ hit (lem 3 []) 0x53 = false := by decide +kernel

theorem test_witness_Commands_of_Lemam_are_checked :
    let run := lem 3 []
    let lost : State := { run with enc := { state := 3 } }
    let locked : State := { run with locks := [(10, 3)] }
    let vi : State := lem 3 [(Reg.VI_CFG 7, 1)]
    let echo := cmdOf .mgmt 1 []
    let scrub := fun h : Byte => cmdOf .spi 0x56 [1, h, 0, 0]
    let lists := fun v : Nat => cmdOf .spi 0x70 (listOf 3 0 4 v)
    let make := cmdOf (.ring 0) 0x60 (toBytes 2 7 ++ toBytes 2 5 ++ toBytes 4 0 ++ toBytes 8 0x80004000 ++ toBytes 4 16 ++ toBytes 2 8 ++ toBytes 2 100 ++ [4] ++ List.replicate 7 0)
    let power := lem 3 [(Reg.PVT_COREPT 5, 8)]
    cmdSources 0xFF = [] ∧ cmdSources 0x50 ≠ [] ∧ (cmdSources 0x50).contains (sourceCode (.ring 31)) = false ∧ lost.enc.state = 3 ∧
      (cmdSources 1).contains (sourceCode .mgmt) = true ∧ run.cmdDenied echo = false ∧ run.mode ≠ modeService ∧
      (cmdSources 0x56).contains (sourceCode .spi) = true ∧ run.cmdDenied (scrub 241) = false ∧ run.cmdMode (scrub 241) = true ∧
      run.cmdValues (scrub 241) = false ∧ run.cmdValues (scrub 240) = true ∧ (scrub 240).headerGood = true ∧ run.cmdLocked (scrub 240) = false ∧
      run.cmdBusy (scrub 240) = false ∧ run.cmdShort (scrub 240) = false ∧
      (cmdSources 0x70).contains (sourceCode .spi) = true ∧ locked.cmdDenied (lists 5) = false ∧ locked.cmdMode (lists 5) = true ∧
      (lists 5).headerGood = true ∧ locked.cmdValues (lists 5) = true ∧ locked.cmdLocked (lists 5) = true ∧
      (cmdSources 0x60).contains (sourceCode (.ring 0)) = true ∧ vi.cmdDenied make = false ∧ vi.cmdMode make = true ∧ make.headerGood = true ∧
      vi.cmdValues make = true ∧ vi.cmdLocked make = false ∧ vi.cmdBusy make = true ∧
      power.cmdShort (cmdOf .spi 0x20 [5, 0, 0, 0]) = true ∧ power.cmdValues (cmdOf .spi 0x20 [5, 0, 0, 0]) = true ∧
      run.lemamRuns = true ∧ (dram []).lemamRuns = false ∧ run.cmdCheck (scrub 241) ≠ 0 := by decide +kernel

/-- The source may send the command, in this lifecycle state and mode. -/
def may (s : State) (src : CmdSource) (l : List Nat) : Bool :=
  s.lemamRuns && s.enc.state != 3 && l.contains (sourceCode src) && (src != .mgmt || s.mode == modeService)
/-- No change of mode is under way. -/
def steady (s : State) : Bool := s.modes.agreed.isNone && s.modes.waking.isNone
/-- No deferred command holds the queues or channels. -/
def freeOf (s : State) (queues channels : List Nat) : Bool :=
  s.lemam.deferred.all fun f => channels.all (fun n => !f.channels.contains n) && queues.all fun q => !f.queues.contains q
/-- Little-endian parameters. -/
def par (p : List Byte) (k n : Nat) : Nat := ofBytes ((p.drop k).take n)
/-- A deferred command that holds queue 90 and channel 6. -/
def held : Lemam := { deferred := [{ route := { src := .spi, opcode := 0x52, seq := 0 }, queues := [90], channels := [6] }] }

theorem test_witness_Commands_of_Lemam_act :
    let run := lem 3 [(Reg.PIN_OWNER 4, 7)]
    let service : State := { lem 7 [] with enc := { state := 2 } }
    let back : State := { lem 7 [] with enc := { state := 3 } }
    let hold := lem 6 []
    let asleep := lem 2 []
    let meet : State := { lem 3 [(Reg.PAIR_STATUS, 0xF006), (Reg.PAIR_CFG, 0xA02)] with pair := { peerMode := 3, peerWin := 10, peerFollows := true } }
    let pairs := lem 4 [(Reg.PAIR_STATUS, 0xF00E)]
    let peer : CmdSource := .peer 3 false
    (may run peer [0, 1, 2, 3, 4] = true ∧ may service .mgmt [0, 1, 2, 3, 4] = true ∧ back.lemamRuns = true ∧ back.mode = modeService ∧
      List.length (List.replicate 4080 (1 : Byte)) ≤ 4080 ∧ (63 : Byte).toNat + (1 : Byte).toNat ≤ 64 ∧ (0 : Byte).toNat + (24 : Byte).toNat ≤ 24) ∧
      (may run (.ring 31) [0, 1, 2, 3, 4] = true ∧ sourcePl3 (.ring 31) = true ∧ sourcePl3 peer = false ∧ run.unitEid 5 3 = 0 ∧ run.unitEid 5 4 = 7 ∧
        0 + 4 ≤ areaUnits 5 ∧ 508 + 4 ≤ areaUnits 5) ∧
      (run.mode = 3 ∧ steady run = true ∧ hold.mode = modeSafeHold ∧ may hold peer [0, 1, 2, 3] = true ∧ asleep.mode = modeStandby ∧
        may asleep .spi [0, 1, 2, 3] = true ∧ steady asleep = true ∧ steady hold = true ∧ may service (.ring 16) [0, 1, 2] = true ∧ steady service = true ∧
        pairs.mode = modePaired ∧ may pairs (.ring 0) [0, 1, 2] = true ∧ steady pairs = true ∧ pairs.agreedStart < 2 ^ 64) ∧
      (meet.mode = modeRun ∧ meet.pairLink = 2 ∧ meet.aligned = true ∧ meet.agreeWindow = 1000 * max 1 (min 100 meet.pair.peerWin) ∧
        meet.rb Reg.PAIR_CFG 0 = false ∧ may meet (.ring 0) [0, 1, 2] = true ∧ steady meet = true ∧ meet.agreedStart < 2 ^ 64) := by decide +kernel

theorem test_witness_Commands_of_Lemam_act_cores :
    let run := lem 3 []
    let gated := lem 3 [(Reg.PVT_COREPT 5, 4)]
    let stops : State := { lem 3 [(Reg.PVT_COREPT 5, 4), (Reg.DBG_CTRL 5, 0x10)] with modes := { (lem 3 []).modes with lemamUp := true, safelightUp := true } }
    let owned := (lem 3 []).setCore 9 { sys := [(Sr.EID, 4)], eff := [(Sr.EID, 4)] }
    let service : State := lem 7 [(Reg.PVT_COREPT 95, 4)]
    let idle := fun (s : State) (q k : Nat) => tabGet 0 s.spare.phase (4 * q + k) == 0 && !s.spare.failed.contains (2, q, 64 + k)
    let dark := fun (s : State) (q k : Nat) => tabGet 0 s.spare.serdes (2 * q + k) == 0 && !s.spare.failed.contains (3, q, 128 + 2 * q + k)
    (may run (.ring 0) [0, 1, 2] = true ∧ (run.core 5).eid = 0 ∧ (run.core 95).eid = 0 ∧ run.rb (Reg.PVT_COREPT 95) 3 = false ∧ run.coreUp 5 = true ∧
      run.rb (Reg.PVT_COREPT 5) 2 = false ∧ gated.rb (Reg.PVT_COREPT 5) 2 = true ∧ gated.rb (Reg.DBG_CTRL 5) 4 = false ∧
      stops.rb (Reg.PVT_COREPT 5) 2 = true ∧ stops.rb (Reg.DBG_CTRL 5) 4 = true ∧ stops.modes.safelightUp = true ∧
      (List.range 96).all (fun c => (run.core c).eid == 0) = true ∧ (owned.core 9).eid = 4 ∧ may owned (.ring 16) [0, 1, 2] = true) ∧
      (may service .spi [1, 2] = true ∧ service.mode = modeService ∧ tabGet 0 service.spare.main 23 = 0 ∧ (0, 23, 4) ∉ service.spare.failed ∧
        service.rb (Reg.PVT_COREPT (4 * 23 + 3)) 2 = true ∧ may run (.ring 31) [1, 2] = true ∧ tabGet 0 run.spare.llcWay 63 = 0 ∧
        (1, 63, 16) ∉ run.spare.failed ∧ tabGet 0 run.spare.dirWay 63 = 0 ∧ (1, 63, 41) ∉ run.spare.failed ∧ idle run 3 3 = true ∧
        [0, 1, 2, 3].all (fun k => tabGet 0 run.spare.phase (12 + k) != 64) = true ∧ run.pcState 255 = 0 ∧ dark run 3 1 = true ∧
        127 / 32 = 3 ∧ run.spare.serdes.all (fun e => e.2 != 128) = true ∧ run.portMode 127 = 0 ∧ run.spare.command = false ∧
        (10, 0, 1) ∉ run.spare.failed) := by decide +kernel

theorem test_witness_Commands_of_Lemam_act_dram :
    let run : State := { lem 3 [] with lemam := held }
    let service : State := { lem 7 [(Reg.MC_CTRL 1, 0x400), (Reg.ARB_CTRL 1, 1), (Reg.ARB_STATUS 1, 3)] with enc := { state := 1 }, lemam := held }
    let pre : State := { lem 1 [] with modes := { (lem 1 []).modes with dramReady := false } }
    let block : List Byte := [2, 2, 1, 1] ++ List.replicate 8 0
    let load : List Byte := [7, 3, 0, 0] ++ List.replicate 1024 1
    let fix : List Byte := [1, 1, 0, 9, 7, 3, 0, 0] ++ toBytes 4 (service.bankRows - 1)
    (may run (.ring 0) [0, 1, 2] = true ∧ pre.lemamRuns = true ∧ pre.enc.state ≠ 3 ∧ pre.mode = modePreflash ∧ pre.modes.dramReady = false ∧
      block.length = 12 ∧ par block 0 1 ≤ 2 ∧ par block 1 1 ≤ 2 ∧ par block 2 1 ≤ 1 ∧ par block 3 1 ≤ 1 ∧ par block 11 1 = 0) ∧
      (load.length = 1028 ∧ par load 0 1 < 8 ∧ par load 1 1 < 4 ∧ par load 2 2 = 0 ∧ (14, 4 * 7 + 3) ∉ run.locks ∧ run.rf (Reg.MC_STATUS 7) 4 3 ≠ 3 ∧
        run.rb (Reg.MC_STATUS 7) 5 = false ∧ freeOf run [] [7] = true ∧ freeOf run [] [6] = false) ∧
      ((bitsOf 0xBF 8).all (fun n => !run.rb (Reg.MC_STATUS n) 5) = true ∧ freeOf run [] (bitsOf 0xBF 8) = true ∧ run.lemam.deferred.length < 16) ∧
      (may service .mgmt [1, 2, 4] = true ∧ service.mode = modeService ∧ service.mcFrozen 1 = true ∧ freeOf service [] [1] = true ∧
        service.lemam.deferred.length < 16 ∧ fix.length = 12 ∧ par fix 0 1 < 8 ∧ par fix 1 1 < 2 ∧ par fix 2 1 < service.ranks ∧ par fix 3 1 < 10 ∧
        par fix 4 1 < 8 ∧ par fix 5 1 < 4 ∧ par fix 6 2 = 0 ∧ par fix 8 4 < service.bankRows) ∧
      ((7 : Byte) < 8 ∧ (1 : Byte) < 2 ∧ (0 : Byte).toNat < run.ranks ∧ (9 : Byte) < 10 ∧ tabGet 0 (run.mc 7).erased 2 = 0 ∧
        tabGet 0 (run.mc 7).erasing 2 = 0) := by decide +kernel

/-- A VI with 16 queues from 0, of which queue 1 is unbound and queue 2 idle. -/
def viRegs : List (Nat × Nat) :=
  [(Reg.VI_CFG 7, 1 + 5 * 65536), (Reg.VI_QRANGE 7, 16 * 2 ^ 18), (Reg.VI_VEC 7, 100 + 4 * 65536), (qstat 2, 3 + 5 * 2 ^ 24 + 2 ^ 56)]
/-- A VI_CREATE of VI 4095 with 8 queues from 16. -/
def makeVi : List Byte :=
  toBytes 2 4095 ++ toBytes 2 5 ++ toBytes 4 0 ++ toBytes 8 0x80004000 ++ toBytes 4 16 ++ toBytes 2 8 ++ toBytes 2 200 ++ [4] ++ List.replicate 7 0

theorem test_witness_Commands_of_Lemam_act_queues :
    let run : State := { lem 3 viRegs with lemam := held }
    let owned : State := { lem 3 ((Reg.VI_CFG 4095, 1 + 3 * 256) :: viRegs) with lemam := held }
    let bind : List Byte := [1, 0, 0, 0, 3, 20, 0xFF, 200] ++ toBytes 8 0x1000 ++ toBytes 8 0x2000
    let send : List Byte := [1, 0, 0, 0, 1, 4, 3, 127] ++ toBytes 8 0x1000 ++ toBytes 8 0x2000
    (may run (.ring 0) [0, 1] = true ∧ makeVi.length = 32 ∧ par makeVi 0 2 < 4096 ∧ par makeVi 2 2 < 4096 ∧ par makeVi 4 1 = 0 ∧ par makeVi 5 3 = 0 ∧
      par makeVi 8 8 % 4096 = 0 ∧ par makeVi 8 8 < 2 ^ 46 ∧ 1 ≤ par makeVi 20 2 ∧ par makeVi 20 2 ≤ 256 ∧ par makeVi 16 4 + par makeVi 20 2 ≤ 262144 ∧
      par makeVi 16 4 / 65536 = (par makeVi 16 4 + par makeVi 20 2 - 1) / 65536 ∧ par makeVi 24 1 ≤ 64 ∧ par makeVi 22 2 + par makeVi 24 1 ≤ 1024 ∧
      par makeVi 25 7 = 0 ∧ run.rb (Reg.VI_CFG 4095) 0 = false ∧ freeOf run (run.viQueues 4095) [] = true ∧ run.validVis = [7] ∧
      run.rf (Reg.VI_QRANGE 7) 17 0 + run.rf (Reg.VI_QRANGE 7) 26 18 ≤ par makeVi 16 4 ∧
      run.rf (Reg.VI_VEC 7) 9 0 + run.rf (Reg.VI_VEC 7) 22 16 ≤ par makeVi 22 2) ∧
      (run.rb (Reg.VI_CFG 7) 0 = true ∧ run.viEid 7 = 0 ∧ run.lemam.deferred.length < 16 ∧ freeOf run (run.viQueues 7) [] = true ∧
        owned.rb (Reg.VI_CFG 4095) 0 = true ∧ owned.viEid 4095 = 3 ∧ may owned (.ring 31) [0, 1] = true) ∧
      ([bind, send].all (fun p => p.length == 24 && run.viOfQueue (par p 0 4) == some 7 && decide (par p 4 1 ≤ 4) && decide (4 ≤ par p 5 1) &&
        decide (par p 5 1 ≤ 20) && par p 8 8 % 4096 == 0 && par p 16 8 % 4096 == 0) = true ∧ par bind 6 1 = 0xFF ∧ par bind 4 1 = 3 ∧
        par send 6 1 < run.rf (Reg.VI_VEC 7) 22 16 ∧ par send 7 1 < 128 ∧ run.qState 1 = qUnbound) ∧
      (run.qState 2 ≠ qUnbound ∧ run.viOfQueue 2 = some 7 ∧ 2 < 262144 ∧ run.qState 262143 = qUnbound) := by decide +kernel

theorem test_witness_Commands_of_Lemam_act_lists :
    let run := lem 3 []
    let service : State := { lem 7 [] with enc := { state := 1 } }
    let fresh : State := { lem 3 [] with enc := { state := 0 } }
    let two := listOf 127 0 4 0x17C851 ++ (listOf 0 8 4 5).drop 4
    let lists : List (Nat × List Byte) := [(0x70, listOf 127 0 4 0x17C851), (0x70, two), (0x71, listOf 0 0x100000 4 1), (0x72, listOf 0 0x100100 4 1),
      (0x80, listOf 15 0x18 8 5), (0x90, listOf 0 0 4 1)]
    let advance : List Byte := [2, 1, 64, 0] ++ List.replicate 48 0
    let first : List Byte := [1, 0, 0, 0] ++ List.replicate 48 7
    (may run (.ring 0) [0, 1, 2] = true ∧ may service .mgmt [0, 1, 2, 4] = true ∧
      lists.all (fun x => ((listWrites x.1 x.2).map fun l => l.all fun w => !run.writeIsLocked w.1 w.2.2 && !run.ptGuarded w.1 w.2.2) == some true) = true ∧
      (listWrites 0x70 two).map (·.length) = some 2) ∧
      (run.mode ∈ [3, 5, 6, 7] ∧ 1 ≤ (1 : Word64).toNat ∧ (0x10000000000 : Word64).toNat ≤ 2 ^ 40 ∧ run.rb Reg.GT_SHUTTER_CTRL 1 = false ∧ run.now < 1 ∧
        0 ≤ run.now) ∧
      (advance.length = 52 ∧ par advance 1 1 = service.enc.state ∧ par advance 2 1 ≤ 64 ∧ par advance 3 1 = 0 ∧ par advance 4 48 = 0 ∧
        first.length = 52 ∧ par first 1 1 = fresh.enc.state ∧ par first 4 48 ≠ 0 ∧ fresh.enc.state ≠ 3 ∧ service.lemamRuns = true ∧ service.enc.state = 1) ∧
      (3 + 1 ≤ areaUnits 18 ∧ (18 : BitVec 16).toNat ≤ 18 ∧ run.unitEid 18 3 = 0) := by decide +kernel

/-! ### Resets, monitors, debug and register writes -/

/-- A device in a mode, with its modes changed and registers as listed. -/
def inMode (mode : Nat) (f : Modes → Modes) (l : List (Nat × Nat)) : State :=
  let s := dev ((Reg.PVT_MODE, mode) :: l)
  { s with modes := f s.modes }

theorem test_witness_Resets_starts_and_standby :
    let run := inMode 3 id []
    let off := inMode 0 id []
    let held := inMode 1 (fun m => { m with poreset := true, pll := false }) []
    let railless := inMode 0 (fun m => { m with railsOut := [12], poreset := true }) []
    let back := inMode 0 (fun m => { m with railsOut := [12] }) []
    let lock := inMode 1 (fun m => { m with boot := some noBoot, pll := false }) []
    let saved : State := { lock with gt := { backup := 1000, backupRtc := 90, rtc := 99, backupValid := true, held := 5000 } }
    let reset := inMode 1 (fun m => { m with reset := true }) []
    let cold := inMode 1 (fun m => { m with reset := true, pll := false }) []
    let both := inMode 1 (fun m => { m with reset := true, poreset := true }) []
    let standby := inMode 2 id []
    let done := inMode 0x10002 id []
    let stopped := inMode 2 (fun m => { m with refclk := false, pll := false }) []
    let noclk := inMode 1 (fun m => { m with refclk := false }) []
    let wakes := inMode 2 (fun m => { m with waking := some (3, 11) }) []
    let store := (inMode 2 id [(Reg.PVT_COREPT 95, 0)]).setCore 95 { stores := [older] }
    let deep := inMode 2 id [(Reg.MC_CFG 7, 0x40)]
    run.modes.poreset = false ∧ run.mode ≠ modeOff ∧ off.mode = modeOff ∧ held.modes.poreset = true ∧ held.modes.railsOut = [] ∧
      held.modes.refclk = true ∧ railless.modes.poreset = true ∧ railless.modes.railsOut ≠ [] ∧ run.modes.boot = none ∧ lock.modes.boot ≠ none ∧
      lock.modes.pll = false ∧ lock.modes.refclk = true ∧ lock.gt.backupValid = false ∧ saved.gt.backupValid = true ∧ run.modes.reset = false ∧
      run.spare.serdes = [] ∧ run.modes.lostCores = [] ∧ reset.modes.reset = true ∧ reset.modes.pll = true ∧ cold.modes.pll = false ∧
      cold.modes.poreset = false ∧ both.modes.poreset = true ∧ both.modes.reset = true ∧ ((8 : Byte) < 9 ∧ 12 < (13 : Byte)) ∧
      back.modes.railsOut ≠ [] ∧ back.mode = modeOff ∧ back.modes.poreset = false ∧ back.modes.refclk = true ∧
      standby.mode = modeStandby ∧ standby.rb Reg.PVT_MODE 16 = false ∧ standby.modes.refclk = true ∧ done.mode = modeStandby ∧
      done.rb Reg.PVT_MODE 16 = true ∧ stopped.modes.refclk = false ∧ stopped.mode = modeStandby ∧ noclk.modes.refclk = false ∧
      noclk.mode = modePreflash ∧ noclk.modes.poreset = false ∧ noclk.modes.railsOut = [] ∧ run.mode ≠ modeStandby ∧
      (∀ c < 96, standby.coreUp c = true → (standby.core c).stores = []) ∧ store.coreUp 95 = true ∧ (store.core 95).stores ≠ [] ∧
      (∀ n < 8, standby.rb (Reg.MC_STATUS n) 1 = true ∨ standby.rb (Reg.MC_CFG n) 6 = false) ∧
      deep.rb (Reg.MC_STATUS 7) 1 = false ∧ deep.rb (Reg.MC_CFG 7) 6 = true ∧ wakes.modes.waking ≠ none ∧ standby.modes.waking = none := by
  decide +kernel

theorem test_witness_Resets_with_a_pin_held :
    let dark := inMode 0 (fun m => { m with railsOut := [12], refclk := false }) []
    let back := inMode 0 (fun m => { m with railsOut := [12] }) []
    let darkHeld := inMode 0 (fun m => { m with poreset := true, refclk := false }) []
    let pinLow := inMode 1 (fun m => { m with poreset := true, reset := true }) []
    let held := inMode 1 (fun m => { m with poreset := true, pll := false }) []
    let reset := inMode 1 (fun m => { m with reset := true }) []
    let cold := inMode 1 (fun m => { m with reset := true, pll := false }) []
    let noclk := inMode 1 (fun m => { m with refclk := false }) []
    dark.modes.railsOut ≠ [] ∧ dark.mode = modeOff ∧ dark.modes.poreset = false ∧ dark.modes.refclk = false ∧ back.modes.reset = false ∧
      darkHeld.modes.poreset = true ∧ darkHeld.modes.railsOut = [] ∧ darkHeld.mode = modeOff ∧ darkHeld.modes.refclk = false ∧
      pinLow.modes.poreset = true ∧ pinLow.mode ≠ modeOff ∧ pinLow.modes.reset = true ∧ held.modes.reset = false ∧ noclk.modes.reset = false ∧
      cold.modes.railsOut = [] ∧ cold.modes.refclk = true ∧ reset.modes.poreset = false := by
  decide +kernel

theorem test_witness_Monitors_and_regulators :
    let s := lem 3 [(Reg.PVT_PMBUS, 0x1FFF)]
    let again : State := { s with modes := { s.modes with voltCrit := [31] } }
    let core := lem 3 [(Reg.PVT_COREPT 0, 4)]
    let out := lem 3 []
    let gone : State := { s with modes := { s.modes with quadsOff := [0] } }
    let off0 := lem 0 []
    let short := lem 3 [(Reg.PVT_PMBUS, 1), (Reg.PVT_AM 23, 0xA000FFFF)]
    s.shortMonitor = none ∧ short.shortMonitor = some 23 ∧ short.rb cmdStatus 9 = false ∧ short.rb Reg.PVT_AVS 0 = true ∧
      short.rb Reg.PVT_PMBUS 0 = true ∧ short.rf Reg.PVT_AVS 25 16 ≤ 855 ∧ short.modes.lemamUp = true ∧ short.mode ≠ modeOff ∧ s.mode ≠ modeOff ∧ off0.mode = modeOff ∧ s.monitorUp .ts 63 = true ∧ gone.monitorUp .ts 0 = false ∧ s.monitorUp .vm 31 = true ∧
      s.monitorUp .pm 15 = true ∧ s.monitorUp .am 23 = true ∧ (1759 : BitVec 16).toInt < 1760 ∧ 1760 ≤ (1760 : BitVec 16).toInt ∧ s.mode = modeRun ∧
      6 * s.voltRef 31 < 100 * s.voltRef 31 ∧ 31 ∈ again.modes.voltCrit ∧ 31 ∉ s.modes.voltCrit ∧
      core.coreOfSlot 0 0 = some 0 ∧ core.rb (Reg.PVT_COREPT 0) 3 = false ∧ core.rb (Reg.PVT_COREPT 0) 2 = true ∧
      (dram []).lemamRuns = false ∧ s.lemamRuns = true ∧ s.rb Reg.PVT_PMBUS 12 = true ∧ (0x20 &&& 0xF73F : BitVec 16) ≠ 0 ∧
      (0x8000 : BitVec 16).getLsbD 15 = true ∧ (1 &&& 0xF73F : BitVec 16) ≠ 0 ∧ (1 : BitVec 16).getLsbD 5 = false ∧
      s.modes.lemamUp = true ∧ (dev []).modes.lemamUp = false ∧ s.rb cmdStatus 9 = false ∧ out.rb Reg.PVT_PMBUS 0 = false ∧
      s.rf Reg.PVT_AVS 25 16 = 850 := by decide +kernel

/-- A device with debug open or closed, core 95 as `x`, and registers as listed. -/
def probe (live : Bool) (x : Core) (l : List (Nat × Nat)) : State :=
  let s := (dram ([(Reg.PVT_COREPT 95, 0)] ++ l)).setCore 95 x
  { s with modes := { s.modes with safelightUp := true }, enc := { state := 1, debugOpen := live } }

theorem test_witness_Debug_halts_steps_and_accesses :
    let s := probe true { pc := 8 } []
    let closed := probe false {} []
    let dark : State := { s with modes := { s.modes with safelightUp := false } }
    let halted := probe true { pc := 8, g := [(31, 5)], run := .halted } [(Reg.DBG_REG_SEL 95, 31)]
    let atPc := probe true { pc := 8, run := .halted } [(Reg.DBG_REG_SEL 95, 0x3000)]
    let asked := probe true { haltReq := some 1 } []
    let fenced := probe true { haltReq := some 1, drainWait := true, stores := [older] } []
    let pcRun := (probe true {} [(Reg.PCC_STATUS 255, 1)]).setPcore 255 { pc := 8 }
    let pcBusy := pcRun.setPcore 255 { pc := 8, busy := 50 }
    let pcHalt := pcRun.setPcore 255 { pc := 8, halted := true }
    let xt := probe true {} [(Reg.DBG_XT_CFG 3, 3), (Reg.DBG_XT_MHALT 3 2, 0x80000000), (Reg.DBG_XT_PHALT 3 7, 0x80000000), (Reg.PCC_STATUS 255, 1)]
    let sysAt := fun a : Nat => probe true {} [(Reg.DBG_SYS_ADDR, a)]
    let poison : State := { sysAt 0x80000040 with poison := [(0x80000040, true)] }
    let hidden : State := { sysAt 0x80000040 with ert := [{ eid := 3, index := 0, base := 0x80000000, last := 0x80000000, w := true }] }
    let sel := (regFind (debugBase + 0x10)).map fun r => (r.1.wide, r.1.area)
    dark.modes.safelightUp = false ∧ closed.modes.safelightUp = true ∧ closed.debugLive = false ∧ s.debugLive = true ∧
      (regFind (debugBase + 0xFFF0)).isNone = true ∧ (s.core 95).run ≠ .halted ∧ (s.pcore 255).halted = false ∧
      (halted.core 95).run = .halted ∧ halted.rd (Reg.DBG_REG_SEL 95) = (31 : GReg).toNat ∧ atPc.rf (Reg.DBG_REG_SEL 95) 13 12 = 3 ∧
      sel = some (false, 0) ∧ s.dbgRunning 0x10 = false ∧ (asked.core 95).haltReq.isSome = true ∧ asked.coreUp 95 = true ∧
      (fenced.core 95).drainWait = true ∧ halted.coreUp 95 = true ∧ (halted.core 95).takeable = none ∧
      pcRun.pcState 255 = 1 ∧ pcRun.pcInFlight 255 = false ∧ pcBusy.pcState 255 = 1 ∧ pcBusy.pcInFlight 255 = true ∧
      (pcHalt.pcore 255).halted = true ∧ pcHalt.preemptAsked 255 = false ∧ (xt.rd (Reg.DBG_XT_MHALT 3 2)).testBit 31 = true ∧
      (xt.core 95).run = .running ∧ xt.coreUp 95 = true ∧ (xt.rd (Reg.DBG_XT_PHALT 3 7)).testBit 31 = true ∧ xt.pcState 255 = 1 ∧
      (sysAt 0x80000041).rd Reg.DBG_SYS_ADDR % 2 ≠ 0 ∧ (sysAt 0xFF0000000000).window 0xFF0000000000 = none ∧
      (sysAt 0x80000040).window 0x80000040 = some .dram ∧ hidden.ertPermits 5 0x80000040 false = false ∧
      (sysAt 0x80000040).ertPermits 5 0x80000040 true = true ∧ poison.poisoned (lineOf 0x80000040) = true ∧
      (sysAt 0x80000040).poisoned (lineOf 0x80000040) = false ∧ (s.enc.state = 1 ∧ s.enc.debugOpen = true) ∧
      ¬ (closed.enc.state = 0 ∨ (closed.enc.state = 1 ∧ closed.enc.debugOpen = true)) := by decide +kernel

theorem test_witness_Register_writes_follow_their_types :
    let s := dev []
    let bits := fun a : Nat => (regFind a).map fun r => (r.1.rw, r.1.rwl, r.1.w1c, r.1.area)
    let locked : State := { s with locks := [(5, 511), (9, 4095)] }
    let self := dev [(Reg.PIN_CFG 511, 2 ^ 31)]
    let hidden : State := { dram [] with ert := [{ eid := 3, index := 0, base := 0x80000000, last := 0x80000000, w := true }] }
    let low : Requester := { pl3 with pl := 0 }
    let lock := fun a : Nat => ((regFind a).map fun r => locked.lockedBits r.1 a r.2.1 r.2.2).getD 0
    (bits Reg.PVT_ALARM_STATUS).isSome = true ∧ s.unlockedAt (Reg.PIN_CFG 511) = true ∧ lock (Reg.PIN_CFG 511) ≠ 0 ∧ lock (Reg.IRT_SRC_CFG 4095) ≠ 0 ∧
      lockFlag 5 511 = some (Reg.PIN_STATUS 511, 7) ∧ lockFlag 9 4095 = none ∧ locked.rd (Reg.PIN_CFG 511) < 2 ^ 32 ∧
      locked.sheet.intake.length < 64 ∧ regFind 4 = none ∧ self.rb (Reg.PIN_CFG 511) 31 = true ∧ (5, 511) ∈ locked.locks ∧
      s.window 0xFF0000000000 = none ∧ s.window 0x1000000 = some .monSram ∧ windowOpen .monSram 0x1000000 low = false ∧
      s.window 0 = some .rom ∧ windowOpen .rom 0 pl3 = true ∧ s.window 0x3000000 = some .sheet ∧ windowOpen .sheet 0x3000000 pl3 = true ∧
      hidden.window 0x80000000 = some .dram ∧ windowOpen .dram 0x80000000 pl3 = true ∧ hidden.ertPermits pl3.eid.toNat 0x80000000 true = false ∧
      s.window (Reg.PVT_AVS + 2) = some .pvt ∧ windowOpen .pvt (Reg.PVT_AVS + 2) pl3 = true ∧ s.regBytes .pvt Reg.PVT_AVS = some 4 ∧
      Reg.PVT_AVS % 4 = 0 ∧ s.window (Reg.QE_STATUS 3) = some .queue ∧ s.regBytes .queue (Reg.QE_STATUS 3) = some 4 ∧
      windowOpen .queue (Reg.QE_STATUS 3) { pl3 with pl := 2 } = true ∧ s.window 0x13FFFFF8 = some .gt ∧ s.regBytes .gt 0x13FFFFF8 = none ∧ s.regBytes .gt 0x13FFFFFC = none ∧ windowOpen .gt 0x13FFFFF8 pl3 = true := by decide +kernel

end Sys2Proof.Tests
end

section
/-!
PROOF. Every command completes, and every step keeps the canonical forms (O59, O60). One lemma per operation of the model says
that it keeps them; each is proved from the lemmas of the operations it calls, along the branches of its definition.
-/
namespace Sys2Proof.Machine

/-! ### The forms under the elementary updates -/

/-- A write at the default of its key keeps the canonical form of a table whose defaults differ from key to key. -/
theorem tabWf_set_at {α : Type} [DecidableEq α] (d : Nat → α) (t : Tab α) (i : Nat) (v : α) (h : tabWf d t = true) :
    tabWf d (tabSet (d i) t i v) = true := by
  have herase : tabWf d (tabErase t i) = true := tabWf_filter d _ t h
  unfold tabSet
  split
  · exact herase
  · next hv =>
    simp only [tabWf, Bool.and_eq_true, List.all_eq_true, decide_eq_true_eq] at herase ⊢
    refine ⟨tabSorted_insert i v _ herase.1 fun e he => ?_, fun e he => ?_⟩
    · simpa using (List.mem_filter.mp he).2
    · rcases tabInsert_mem i v _ e he with rfl | he
      · exact hv
      · exact herase.2 e he

/-- Effects listed in the order of the clocks at which they fall due. -/
def InOrder (l : List (Nat × Act)) : Prop := l.Pairwise fun a b => a.1 ≤ b.1

theorem agendaInsert_mem {due : Nat} {a : Act} {l : List (Nat × Act)} {e : Nat × Act} (h : e ∈ agendaInsert due a l) :
    e = (due, a) ∨ e ∈ l := by
  induction l with
  | nil => exact .inl (by simpa [agendaInsert] using h)
  | cons x l ih =>
    unfold agendaInsert at h
    split at h
    · simpa using h
    · rcases List.mem_cons.mp h with rfl | h
      · exact .inr (by simp)
      · exact (ih h).imp_right (List.mem_cons_of_mem _)

theorem agendaInsert_inOrder {due : Nat} {a : Act} {l : List (Nat × Act)} (h : InOrder l) : InOrder (agendaInsert due a l) := by
  induction l with
  | nil => exact List.pairwise_singleton _ _
  | cons x l ih =>
    obtain ⟨hx, hl⟩ := List.pairwise_cons.mp h
    unfold agendaInsert
    split
    · next hlt =>
      refine List.pairwise_cons.mpr ⟨fun e he => ?_, h⟩
      rcases List.mem_cons.mp he with rfl | he
      · exact hlt.le
      · exact hlt.le.trans (hx e he)
    · next hlt =>
      refine List.pairwise_cons.mpr ⟨fun e he => ?_, ih hl⟩
      rcases agendaInsert_mem he with rfl | he
      · exact Nat.le_of_not_lt hlt
      · exact hx e he

theorem foldl_agendaInsert_inOrder {late l : List (Nat × Act)} (h : InOrder l) :
    InOrder (late.foldl (fun l e => agendaInsert e.1 e.2 l) l) := by
  induction late generalizing l with
  | nil => exact h
  | cons e late ih => exact ih (agendaInsert_inOrder h)

theorem deliveryAt_due {due n : Nat} {e : Nat × Act} (h : deliveryAt due e = some n) : e.1 = due := by
  unfold deliveryAt at h
  split at h
  · by_contra hne
    simp [hne] at h
  · simp at h

/-- The delivery of a source goes before an effect that falls due no earlier, or behind one that falls due no later. -/
theorem putDelivery_cons (due n : Nat) (x : Nat × Act) (l : List (Nat × Act)) :
    (due ≤ x.1 ∧ putDelivery due n (x :: l) = (due, .cmd (.interruptDelivery (Fin.ofNat 4096 n))) :: x :: l) ∨
      (x.1 ≤ due ∧ putDelivery due n (x :: l) = x :: putDelivery due n l) := by
  rw [putDelivery]
  split
  · next m hm =>
    have hx := deliveryAt_due hm
    split
    · exact .inl ⟨hx.ge, rfl⟩
    · exact .inr ⟨hx.le, rfl⟩
  · split
    · next hlt => exact .inl ⟨(of_decide_eq_true hlt).le, rfl⟩
    · next hlt => exact .inr ⟨by simpa using hlt, rfl⟩

theorem putDelivery_mem {due n : Nat} {l : List (Nat × Act)} {e : Nat × Act} (h : e ∈ putDelivery due n l) : e.1 = due ∨ e ∈ l := by
  induction l with
  | nil => exact .inl (by simp_all [putDelivery])
  | cons x l ih =>
    rcases putDelivery_cons due n x l with ⟨-, hput⟩ | ⟨-, hput⟩ <;> rw [hput] at h <;> rcases List.mem_cons.mp h with rfl | h
    · exact .inl rfl
    · exact .inr h
    · exact .inr (by simp)
    · exact (ih h).imp_right (List.mem_cons_of_mem _)

theorem putDelivery_inOrder {due n : Nat} {l : List (Nat × Act)} (h : InOrder l) : InOrder (putDelivery due n l) := by
  induction l with
  | nil => exact List.pairwise_singleton _ _
  | cons x l ih =>
    obtain ⟨hx, hl⟩ := List.pairwise_cons.mp h
    rcases putDelivery_cons due n x l with ⟨hle, hput⟩ | ⟨hle, hput⟩ <;> rw [hput] <;>
      refine List.pairwise_cons.mpr ⟨fun e he => ?_, ?_⟩
    · rcases List.mem_cons.mp he with rfl | he
      · exact hle
      · exact hle.trans (hx e he)
    · exact h
    · rcases putDelivery_mem he with he | he
      · exact hle.trans he.ge
      · exact hx e he
    · exact ih hl

theorem inOrder_filter {p : Nat × Act → Bool} {l : List (Nat × Act)} (h : InOrder l) : InOrder (l.filter p) := h.filter p

/-- Effects may change where they stand, if each falls due when it did. -/
theorem inOrder_map {f : Nat × Act → Nat × Act} {l : List (Nat × Act)} (h : InOrder l) (hf : ∀ e, (f e).1 = e.1) : InOrder (l.map f) :=
  List.pairwise_map.mpr (h.imp fun hab => by rwa [hf, hf])

/-! ### What every command keeps -/

/-- `t` has the forms of memory, registers and agenda wherever `s` has them, and shows the same phase clock. -/
structure FormsKept (s t : State) : Prop where
  mem : s.memOk → t.memOk
  regs : s.regsOk → t.regsOk
  agenda : s.agendaOk → t.agendaOk
  clk : t.clk = s.clk

/-- What every command keeps: the forms, the phase clock, and the queue of waiting commands. -/
structure Kept (s t : State) : Prop extends FormsKept s t where
  pending : t.pending = s.pending

/-- A command completes with a next state that keeps what every command keeps. -/
def Completes (s : State) (o : Host.Outcome State Fault Refusal) : Prop := ∃ t, o = .next t ∧ Kept s t

/-- The state that the effect of a main-core instruction leaves. -/
def IRes.state : IRes → State
  | .next s | .jump s _ | .fault s _ | .call s _ _ | .wait s | .done s => s

/-- The state that the effect of a phase-core instruction leaves. -/
def PRes.state : PRes → State
  | .next s _ _ | .jump s _ _ _ | .fault s _ _ | .done s => s

/-- The state that a comparator check leaves, whether the instruction goes on or not. -/
def Checked.state : Except State State → State
  | .ok s | .error s => s

section
variable {s t u : State}

theorem Kept.refl (s : State) : Kept s s := ⟨⟨id, id, id, rfl⟩, rfl⟩

theorem FormsKept.trans (h : FormsKept s t) (k : FormsKept t u) : FormsKept s u :=
  ⟨k.mem ∘ h.mem, k.regs ∘ h.regs, k.agenda ∘ h.agenda, k.clk.trans h.clk⟩

theorem Kept.trans (h : Kept s t) (k : Kept t u) : Kept s u :=
  ⟨h.toFormsKept.trans k.toFormsKept, k.pending.trans h.pending⟩

theorem Completes.next (h : Kept s t) : Completes s (.next t) := ⟨t, rfl, h⟩

theorem Kept.ite {c : Prop} [Decidable c] (h : Kept s t) (k : Kept s u) : Kept s (if c then t else u) := by
  split <;> assumption

theorem Completes.ite {c : Prop} [Decidable c] {o p : Host.Outcome State Fault Refusal} (h : Completes s o) (k : Completes s p) :
    Completes s (if c then o else p) := by
  split <;> assumption

theorem Kept.ite_snd {α : Type} {c : Prop} [Decidable c] {p q : α × State} (h : Kept s p.2) (k : Kept s q.2) :
    Kept s (if c then p else q).2 := by
  split <;> assumption

theorem Kept.ite_fst {α : Type} {c : Prop} [Decidable c] {p q : State × α} (h : Kept s p.1) (k : Kept s q.1) :
    Kept s (if c then p else q).1 := by
  split <;> assumption

theorem Kept.ite_ires {c : Prop} [Decidable c] {p q : IRes} (h : Kept s p.state) (k : Kept s q.state) :
    Kept s (if c then p else q).state := by
  split <;> assumption

theorem Kept.ite_pres {c : Prop} [Decidable c] {p q : PRes} (h : Kept s p.state) (k : Kept s q.state) :
    Kept s (if c then p else q).state := by
  split <;> assumption

theorem Kept.ite_checked {c : Prop} [Decidable c] {p q : Except State State} (h : Kept s (Checked.state p))
    (k : Kept s (Checked.state q)) : Kept s (Checked.state (if c then p else q)) := by
  split <;> assumption

theorem Kept.foldl {α : Type} {f : State → α → State} {l : List α} (h : Kept s t)
    (hf : ∀ u x, Kept s u → Kept s (f u x)) : Kept s (l.foldl f t) := by
  induction l generalizing t with
  | nil => exact h
  | cons x l ih => exact ih (hf t x h)

/-- The state of a pair that a match has opened. -/
theorem Kept.out {α : Type} {p : α × State} {x : α} (h : Kept s p.2) (e : p = (x, u)) : Kept s u := by
  subst e; exact h

theorem Kept.pair {α : Type} {x : α} (h : Kept s t) : Kept s (Prod.snd (x, t)) := h

theorem Kept.goesOn {r : Except State State} (h : Kept s (Checked.state r)) (e : r = .ok u) : Kept s u := by
  subst e; exact h

theorem Kept.stopped {r : Except State State} (h : Kept s (Checked.state r)) (e : r = .error u) : Kept s u := by
  subst e; exact h

/-- Fields beside the queue, the agenda, the clock, memory and the registers may change freely. -/
theorem Kept.other {free lastRead gt bases cmps crossed pins banks caps sdfs ctrs locks sheet cores modes spare poison pcores arbs work
    nextTag mcs homes ert posting points queues qes net enc pair lemam dbg} (h : Kept s t) :
    Kept s { t with free := free, lastRead := lastRead, gt := gt, bases := bases, cmps := cmps, crossed := crossed, pins := pins
                    banks := banks, caps := caps, sdfs := sdfs, ctrs := ctrs, locks := locks, sheet := sheet, cores := cores
                    modes := modes, spare := spare, poison := poison, pcores := pcores, arbs := arbs, work := work
                    nextTag := nextTag, mcs := mcs, homes := homes, ert := ert, posting := posting, points := points
                    queues := queues, qes := qes, net := net, enc := enc, pair := pair, lemam := lemam, dbg := dbg } :=
  ⟨⟨h.mem, h.regs, h.agenda, h.clk⟩, h.pending⟩

/-! ### What the operations of Machine/Ops.lean keep -/

theorem Kept.wr {a v} (h : Kept s t) : Kept s (t.wr a v) :=
  ⟨⟨h.mem, fun hs => tabWf_set_at regReset t.regs a _ (h.regs hs), h.agenda, h.clk⟩, h.pending⟩

theorem Kept.wf {a hi lo v} (h : Kept s t) : Kept s (t.wf a hi lo v) :=
  h.wr

theorem Kept.wb {a i b} (h : Kept s t) : Kept s (t.wb a i b) :=
  h.wf

theorem Kept.count {a w} (h : Kept s t) : Kept s (t.count a w) :=
  h.wr

theorem Kept.tally {a by_} (h : Kept s t) : Kept s (t.tally a by_) :=
  h.wr

theorem Kept.after {ns a} (h : Kept s t) : Kept s (t.after ns a) :=
  ⟨⟨h.mem, h.regs, fun hs => agendaInsert_inOrder (h.agenda hs), h.clk⟩, h.pending⟩

theorem Kept.send {ns i} (h : Kept s t) : Kept s (t.send ns i) :=
  h.after

theorem Kept.fresh (h : Kept s t) : Kept s t.fresh.2 :=
  h.other

theorem Kept.setByte {a v} (h : Kept s t) : Kept s (t.setByte a v) :=
  ⟨⟨fun hs => t.setByte_wf a v (h.mem hs), h.regs, h.agenda, h.clk⟩, h.pending⟩

theorem Kept.setBytes {a l} (h : Kept s t) : Kept s (t.setBytes a l) := by
  induction l generalizing t a with
  | nil => exact h
  | cons b l ih => exact ih h.setByte

theorem Kept.setPoison {a p} (h : Kept s t) : Kept s (t.setPoison a p) :=
  h.other

theorem Kept.intake {e} (h : Kept s t) : Kept s (t.intake e) :=
  .ite h.other.send h.other

theorem Kept.log {c unit addr synd scrub} (h : Kept s t) : Kept s (t.log c unit addr synd scrub) :=
  h.intake

theorem Kept.bankEvent {block event by_} (h : Kept s t) : Kept s (t.bankEvent block event by_) :=
  .ite (h.foldl fun _ _ h1 => .ite (.ite h1.wr h1.wr.wb) h1) h

theorem Kept.countFull {block event was full since} (h : Kept s t) : Kept s (t.countFull block event was full since) := by
  unfold State.countFull
  split
  · exact .ite h.bankEvent h
  · exact h

theorem Kept.setArb {a x} (h : Kept s t) : Kept s (t.setArb a x) :=
  h.other

theorem Kept.present {ns a port stamp key bytes w} (h : Kept s t) : Kept s (t.present ns a port stamp key bytes w) :=
  h.other.send

theorem Kept.dropWork {tag} (h : Kept s t) : Kept s (t.dropWork tag) :=
  h.other

theorem Kept.putMc {n x} (h : Kept s t) : Kept s (t.putMc n x) :=
  h.other

theorem Kept.putHome {h' x} (h : Kept s t) : Kept s (t.putHome h' x) :=
  h.other

theorem Kept.setMc {n x} (h : Kept s t) : Kept s (t.setMc n x) :=
  h.countFull.putMc

theorem Kept.delivery {due n} (h : Kept s t) : Kept s { t with agenda := putDelivery due n t.agenda } :=
  ⟨⟨h.mem, h.regs, fun hs => putDelivery_inOrder (h.agenda hs), h.clk⟩, h.pending⟩

theorem Kept.filterAgenda {p} (h : Kept s t) : Kept s { t with agenda := t.agenda.filter p } :=
  ⟨⟨h.mem, h.regs, fun hs => inOrder_filter (h.agenda hs), h.clk⟩, h.pending⟩

theorem Kept.filterRegs {p} (h : Kept s t) : Kept s { t with regs := t.regs.filter p } :=
  ⟨⟨h.mem, fun hs => tabWf_filter _ _ _ (h.regs hs), h.agenda, h.clk⟩, h.pending⟩

theorem Kept.filterMem {p} (h : Kept s t) : Kept s { t with mem := t.mem.filter p } :=
  ⟨⟨fun hs => tabWf_filter _ _ _ (h.mem hs), h.regs, h.agenda, h.clk⟩, h.pending⟩

theorem Kept.clearMem (h : Kept s t) : Kept s { t with mem := [] } :=
  ⟨⟨fun _ => rfl, h.regs, h.agenda, h.clk⟩, h.pending⟩

theorem Kept.dispatchAt {fuel due n} (h : Kept s t) : Kept s (State.dispatchAt fuel t due n) := by
  induction fuel generalizing t due n with
  | zero => exact h.delivery
  | succ fuel ih => exact .ite h (.ite h.delivery (.ite (ih h.filterAgenda.delivery) (ih h)))

theorem Kept.dispatch {n} (h : Kept s t) : Kept s (t.dispatch n) :=
  h.dispatchAt

theorem Kept.source {n} (h : Kept s t) : Kept s (t.source n) :=
  .ite h (.ite (.ite h.wb.send h.wb.dispatch) h.wb)

theorem Kept.sourceAfter {ns n} (h : Kept s t) : Kept s (t.sourceAfter ns n) :=
  .ite h.send h

theorem Kept.setBank {k x} (h : Kept s t) : Kept s (t.setBank k x) :=
  h.other

theorem Kept.setPin {p x} (h : Kept s t) : Kept s (t.setPin p x) :=
  h.other

theorem Kept.ballFollows {p late} (h : Kept s t) : Kept s (t.ballFollows p late) :=
  h.after

theorem Kept.setBall {p d} (h : Kept s t) : Kept s (t.setBall p d) := by
  unfold State.setBall
  dsimp only
  split
  · exact .ite h.setPin h.setPin.setPin.after
  · exact h.setPin.setPin
  · exact h.setPin

theorem Kept.releasePad {p pull} (h : Kept s t) : Kept s (t.releasePad p pull) :=
  h.setPin.filterAgenda

theorem Kept.pinArrive {p a late} (h : Kept s t) : Kept s (t.pinArrive p a late) :=
  h.setPin.send

theorem Kept.allPinsSafe (h : Kept s t) : Kept s t.allPinsSafe :=
  h.foldl fun _ _ h1 => .ite h1 h1.pinArrive

theorem Kept.enterMode {m cause} (h : Kept s t) : Kept s (t.enterMode m cause) :=
  h.wf.wf.wf.wr.other.log

/-! ### What the operations of Machine/Dram.lean keep -/

theorem Kept.mcIrq {n bit} (h : Kept s t) : Kept s (t.mcIrq n bit) :=
  .ite h.wb.source h.wb

theorem Kept.dramLog {n e c device} (h : Kept s t) : Kept s (t.dramLog n e c device) :=
  h.log

theorem Kept.decode {n e bad} (h : Kept s t) : Kept s (t.decode n e bad).2 :=
  .ite_snd h (.ite_snd h (.ite_snd h h.fresh))

theorem Kept.scramble {a} (h : Kept s t) : Kept s (t.scramble a) :=
  h.foldl fun _ _ h1 => h1.fresh.setBytes

theorem Kept.poisonLine {a} (h : Kept s t) : Kept s (t.poisonLine a) :=
  h.setBytes.setPoison

theorem Kept.presentScrub {n a} (h : Kept s t) : Kept s (t.presentScrub n a) :=
  h.present

theorem Kept.rewrite {n e} (h : Kept s t) : Kept s (t.rewrite n e) :=
  .ite h.presentScrub h

theorem Kept.decoded {n e bad} (h : Kept s t) : Kept s (t.decoded n e bad) := by
  unfold State.decoded
  split
  · exact h.decode.out ‹_›
  · exact h.decode.out ‹_›
  · exact (h.decode.out ‹_›).dramLog.rewrite
  · exact (h.decode.out ‹_›).fresh.scramble.dramLog.rewrite
  · split
    · exact (h.decode.out ‹_›).setPoison.dramLog
    · exact (h.decode.out ‹_›).poisonLine.dramLog
    · exact (h.decode.out ‹_›).dramLog

theorem Kept.setQueue {n q} (h : Kept s t) : Kept s (t.setQueue n q) :=
  h.setMc.wf

theorem Kept.kickMc {n ns} (h : Kept s t) : Kept s (t.kickMc n ns) :=
  h.send.send

theorem Kept.rearmAge {n} (h : Kept s t) : Kept s (t.rearmAge n) := by
  unfold State.rearmAge
  dsimp only
  split
  · exact .ite h h.after
  · exact h

theorem Kept.queueEntry {n tag addr kind cls} (h : Kept s t) : Kept s (t.queueEntry n tag addr kind cls) := by
  unfold State.queueEntry
  extract_lets _ _ _ s2
  have hs2 : Kept s s2 := by
    dsimp only [s2]
    split
    · exact h.setQueue.bankEvent
    · exact h.setQueue.bankEvent
    · exact h.setQueue.bankEvent.count
    · exact h.setQueue
  exact .ite hs2.send hs2.send.rearmAge

theorem Kept.readDone {n e checked} (h : Kept s t) : Kept s (t.readDone n e checked) :=
  h.setQueue.send

theorem Kept.rearmIdle {n} (h : Kept s t) : Kept s (t.rearmIdle n) :=
  h.foldl fun _ _ h1 => h1.send

theorem Kept.column {n e bad} (h : Kept s t) : Kept s (t.column n e bad) := by
  unfold State.column
  extract_lets _ _ _ s2 s3
  have hs2 : Kept s s2 := .ite h.setMc h.setMc.decoded
  have hs3 : Kept s s3 := .ite hs2.readDone hs2.setQueue.dropWork
  exact .ite hs3.setMc hs3.send

theorem Kept.issue {n e bad} (h : Kept s t) : Kept s (t.issue n e bad) := by
  unfold State.issue
  dsimp only
  split
  · exact h.setMc
  · exact h.setMc.bankEvent
  · exact h.column

theorem Kept.commandSlot {n sub bad} (h : Kept s t) : Kept s (t.commandSlot n sub bad) := by
  unfold State.commandSlot
  refine .ite h ?_
  split
  · exact h.readDone
  · split
    · exact h.issue.setMc
    · exact h

theorem Kept.rearmMc {n sub} (h : Kept s t) : Kept s (t.rearmMc n sub) :=
  .ite h.send h

theorem execIdleTimer_completes {mc sub rank bank} (h : Kept s t) : Completes s (execIdleTimer mc sub rank bank t) :=
  .ite (.next h) (.ite (.next h) (.ite (.next (.ite h h.send)) (.next h.setMc)))

theorem execAgePromotion_completes {mc} (h : Kept s t) : Completes s (execAgePromotion mc t) :=
  .next (.rearmAge (h.setQueue.foldl fun _ _ h1 => h1.count.bankEvent))

theorem Kept.publishBlackout {n gt} (h : Kept s t) : Kept s (t.publishBlackout n gt) :=
  h.wr.wr

theorem Kept.startBlackouts {n} (h : Kept s t) : Kept s (t.startBlackouts n) :=
  h.setMc.publishBlackout.send

theorem Kept.applyDelaySet {n} (h : Kept s t) : Kept s (t.applyDelaySet n) :=
  .ite h.wf.wb.mcIrq.after h

theorem Kept.applyErasures {n} (h : Kept s t) : Kept s (t.applyErasures n) :=
  .ite h (.send (h.setMc.foldl fun _ _ h1 => h1.log))

theorem execBlackoutStart_completes {mc} (h : Kept s t) : Completes s (execBlackoutStart mc t) := by
  unfold execBlackoutStart
  refine .ite (.next h) (.ite (.next h.setMc.wb.wb.publishBlackout.applyDelaySet.applyErasures) ?_)
  exact .next h.setMc.publishBlackout.tally.bankEvent.applyDelaySet.applyErasures.send.send

theorem execMr4Poll_completes {mc codes} (h : Kept s t) : Completes s (execMr4Poll mc codes t) := by
  unfold execMr4Poll
  extract_lets _ _ _ _ _ _ s3
  have hs3 : Kept s s3 := .ite h.setMc.wf.wb.mcIrq.log h.setMc.wf.wb
  refine .ite (.next h) (.ite (.next h.send) ?_)
  exact .ite (.next (hs3.foldl fun _ _ h1 => h1.wb.mcIrq)) (.ite (.next (hs3.foldl fun _ _ h1 => h1.wb.mcIrq)) (.next hs3))

theorem execScrubVisit_completes {mc} (h : Kept s t) : Completes s (execScrubVisit mc t) :=
  .ite (.next h) (.ite (.next h.send) (.next h.send.setMc.presentScrub))

/-! ### What the operations of Machine/Arbiter.lean keep -/

theorem Kept.arbShow {a} (h : Kept s t) : Kept s (t.arbShow a) :=
  .ite h.wf.wb.wb.wb.wb h.wf.wb.wb.wb

theorem Kept.portShow {a port} (h : Kept s t) : Kept s (t.portShow a port) :=
  h.wf

theorem Kept.arbArm {a ns} (h : Kept s t) : Kept s (t.arbArm a ns) :=
  .ite h h.setArb.send

theorem Kept.accept {a e} (h : Kept s t) : Kept s (t.accept a e) :=
  h.setArb.portShow.bankEvent.arbArm

theorem execArbRequest_completes {a r} (h : Kept s t) : Completes s (execArbRequest a r t) := by
  unfold execArbRequest
  refine .ite (.next h.dropWork) ?_
  exact .ite (.next h.setArb.arbShow) (.ite (.next h.after.bankEvent) (.next h.setArb.accept.arbShow))

theorem Kept.arbMiss {a r late} (h : Kept s t) : Kept s (t.arbMiss a r late) := by
  unfold State.arbMiss
  extract_lets _ _ s2 s3
  have hs2 : Kept s s2 := h.count.wf.wb.wr
  have hs3 : Kept s s3 := .ite hs2.source hs2
  exact .bankEvent (.ite hs3.log hs3)

theorem Kept.bpEnds {a} (h : Kept s t) : Kept s (t.bpEnds a) := by
  unfold State.bpEnds
  split
  · exact h.setArb.tally.bankEvent
  · exact h

theorem Kept.acceptHeld {a} (h : Kept s t) : Kept s (t.acceptHeld a) := by
  unfold State.acceptHeld
  refine .ite ?_ h
  split
  · exact .accept (.ite h.setArb.bpEnds h.setArb)
  · exact h

theorem Kept.takeBeat {a e} (h : Kept s t) : Kept s (t.takeBeat a e) := by
  unfold State.takeBeat
  extract_lets _ s0
  have hs0 : Kept s s0 := h.tally.bankEvent
  refine .ite hs0.setArb (.after ?_)
  refine .acceptHeld (.portShow ?_)
  refine .ite ?_ (.ite hs0.setArb.arbMiss hs0.setArb)
  split <;> exact .queueEntry (.ite hs0.setArb.arbMiss hs0.setArb)

theorem execArbGrant_completes {a} (h : Kept s t) : Completes s (execArbGrant a t) := by
  unfold execArbGrant
  refine .ite (.next h.setArb.arbShow) (.ite (.next h.setArb) ?_)
  refine .ite (.next h.setArb.arbArm) ?_
  split
  · exact .next h.setArb.arbArm
  · exact .next (.arbShow (.arbArm (.takeBeat (.setArb (.ite h.setArb.count.bankEvent h.setArb)))))

theorem Kept.writeArbCtrl {a v} (h : Kept s t) : Kept s (t.writeArbCtrl a v) := by
  unfold State.writeArbCtrl
  extract_lets _ _ _ _ s1
  have hs1 : Kept s s1 := .ite (.ite h.wf.setArb h.wf.setArb.setArb.send) h.wf
  exact .arbArm (.arbShow (.ite (hs1.wr.wr.foldl fun _ _ h1 => h1.wf) hs1))

theorem execArbFreeze_completes {a _who value} (h : Kept s t) : Completes s (execArbFreeze a _who value t) :=
  .next h.writeArbCtrl

theorem execMissClr_completes {a _who value} (h : Kept s t) : Completes s (execMissClr a _who value t) :=
  .next h.writeArbCtrl

theorem Kept.arbClear {a} (h : Kept s t) : Kept s (t.arbClear a) :=
  .arbShow (.foldl (.setArb (h.bpEnds.foldl fun _ _ h1 => h1.dropWork)) fun _ _ h1 => h1.portShow)

theorem Kept.arbStepped {step} (h : Kept s t) : Kept s (t.arbStepped step) :=
  h.foldl fun _ _ h1 => .ite h1.publishBlackout h1

theorem execMcCommandIssue_completes {mc sub bad} (h : Kept s t) : Completes s (execMcCommandIssue mc sub bad t) :=
  .next (.rearmMc (.ite h.commandSlot.arbArm.arbShow h.commandSlot))

theorem execBlackoutEnd_completes {mc} (h : Kept s t) : Completes s (execBlackoutEnd mc t) :=
  .ite (.next h.setMc.arbArm.kickMc) (.next h)

/-! ### What the operations of Machine/Coherence.lean keep -/

theorem Kept.writeMasked {a mask data} (h : Kept s t) : Kept s (t.writeMasked a mask data) :=
  h.foldl fun _ _ h1 => .ite h1.setByte h1

theorem Kept.setCore {n x} (h : Kept s t) : Kept s (t.setCore n x) :=
  h.other

theorem Kept.losesReservation {line writer} (h : Kept s t) : Kept s (t.losesReservation line writer) :=
  h.other

theorem Kept.setLine {n a x} (h : Kept s t) : Kept s (t.setLine n a x) :=
  h.setCore

theorem Kept.kickDrain {n ns} (h : Kept s t) : Kept s (t.kickDrain n ns) :=
  .ite h h.send

theorem Kept.setHome {h' x} (h : Kept s t) : Kept s (t.setHome h' x) :=
  h.countFull.putHome.wf.wf.wr

theorem Kept.hsIrq {h' bit} (h : Kept s t) : Kept s (t.hsIrq h' bit) :=
  .ite h.wb.source h.wb

theorem Kept.evict {h' line l stamp} (h : Kept s t) : Kept s (t.evict h' line l stamp) := by
  unfold State.evict
  refine .ite ?_ h.setHome
  exact .ite (.present (.ite h.setHome h.setHome.setBytes.setPoison)) (.ite h.setHome h.setHome.setBytes.setPoison)

theorem Kept.passBy {h' line dirty poison stamp} (h : Kept s t) : Kept s (t.passBy h' line dirty poison stamp) :=
  .ite h.setPoison.present h

theorem Kept.allocate {h' line data dirty poison stamp} (h : Kept s t) : Kept s (t.allocate h' line data dirty poison stamp) := by
  unfold State.allocate
  refine .ite h.setHome ?_
  split
  · exact h.evict.setHome
  · exact h.passBy

theorem Kept.touch {h' line} (h : Kept s t) : Kept s (t.touch h' line) := by
  unfold State.touch
  split
  · exact h.setHome
  · exact h

theorem Kept.sendComp {i q st acks prior} (h : Kept s t) : Kept s (t.sendComp i q st acks prior) :=
  h.send

theorem Kept.invalidateAll {cores line dst} (h : Kept s t) : Kept s (t.invalidateAll cores line dst) :=
  h.foldl fun _ _ h1 => h1.send

theorem Kept.closeHome {h' line} (h : Kept s t) : Kept s (t.closeHome h' line) :=
  h.setHome

theorem Kept.waitFor {h' line w left} (h : Kept s t) : Kept s (t.waitFor h' line w left) :=
  h.setHome

theorem Kept.grant {h' q c acks} (h : Kept s t) : Kept s (t.grant h' q c acks) :=
  h.setHome.waitFor.send

theorem Kept.homeWrite {h' i q} (h : Kept s t) : Kept s (t.homeWrite h' i q) := by
  unfold State.homeWrite
  extract_lets _ _ s0
  have hs0 : Kept s s0 := h.losesReservation
  split
  · split
    · exact hs0.setBytes.setPoison.setHome.closeHome.sendComp
    · exact .ite hs0.setBytes.setPoison.waitFor.present.sendComp hs0.setBytes.setPoison.closeHome.sendComp
  · split
    · exact hs0.writeMasked.setHome.closeHome.sendComp
    · exact .ite hs0.writeMasked.setHome.present.sendComp hs0.writeMasked.closeHome.sendComp
  · exact hs0.setBytes.allocate.closeHome.sendComp
  · exact h.closeHome

theorem Kept.supply {h' i q} (h : Kept s t) : Kept s (t.supply h' i q) := by
  unfold State.supply
  dsimp only
  split
  · split
    · exact .ite h.setHome.closeHome.send h.grant
    · exact h.grant
    · exact h.closeHome
  · split
    · exact h.invalidateAll.grant
    · exact h.closeHome
  · split
    · exact h.invalidateAll.grant
    · exact h.closeHome
  · exact h.closeHome.send
  · exact h.homeWrite

theorem Kept.homeRead {h' i q} (h : Kept s t) : Kept s (t.homeRead h' i q) := by
  unfold State.homeRead
  refine .ite ?_ (.ite h.bankEvent.waitFor.present h.bankEvent.supply)
  dsimp only
  split
  · exact h.bankEvent.touch.closeHome.send
  · exact h.bankEvent.touch.supply

theorem Kept.startWrite {h' i q} (h : Kept s t) : Kept s (t.startWrite h' i q) := by
  unfold State.startWrite
  split
  · exact h.homeRead
  · exact h.homeWrite

theorem Kept.removeEntry {h' line cores} (h : Kept s t) : Kept s (t.removeEntry h' line cores) :=
  h.setHome.foldl fun _ _ h1 => h1.send

theorem Kept.handle {h' i q} (h : Kept s t) : Kept s (t.handle h' i q) := by
  have hs : Kept s (if ((t.home h').entry (lineOf q.line.toNat)).isSome then t.setHome h'
      ((t.home h').setEntry (lineOf q.line.toNat) ((t.home h').entry (lineOf q.line.toNat))) else t) := .ite h.setHome h
  unfold State.handle
  dsimp only
  generalize (if ((t.home h').entry (lineOf q.line.toNat)).isSome then _ else t) = s' at hs
  split
  · split
    iterate 4 exact hs.homeRead
    exact hs.startWrite
  · split
    · split
      · exact hs.homeRead
      · exact .ite hs.homeRead hs.waitFor.send
    · split
      · exact hs.homeRead
      · exact hs.waitFor.send
    · split
      · exact .ite hs.invalidateAll.setHome.waitFor.sendComp hs.homeRead
      · refine .ite (.ite hs.waitFor.sendComp hs.homeRead) (.ite hs.invalidateAll.setHome.waitFor.sendComp ?_)
        exact .send (.waitFor (.ite (.ite hs hs.invalidateAll) (.setHome (.ite hs hs.invalidateAll))))
      · exact hs.closeHome
    · split
      · exact .ite hs.invalidateAll.setHome.waitFor.sendComp hs.homeRead
      · refine .ite (.ite hs.waitFor.sendComp hs.homeRead) (.ite hs.invalidateAll.setHome.waitFor.sendComp ?_)
        exact .send (.waitFor (.ite (.ite hs hs.invalidateAll) (.setHome (.ite hs hs.invalidateAll))))
      · exact hs.closeHome
    · split
      · exact hs.waitFor.invalidateAll
      · exact hs.waitFor.invalidateAll.send
    · split
      · exact hs.waitFor.invalidateAll
      · exact hs.waitFor.invalidateAll.send
    · exact hs.waitFor.invalidateAll

theorem Kept.takeDirty {h' line d l} (h : Kept s t) : Kept s (t.takeDirty h' line d l) :=
  h.setHome.allocate

theorem Kept.absorb {h' c line} (h : Kept s t) : Kept s (t.absorb h' c line) := by
  unfold State.absorb
  refine .send ?_
  split
  · exact .ite h.takeDirty h.tally
  · exact h.tally

theorem Kept.combine {n i} (h : Kept s t) (e : t.combine n i = some u) : Kept s u := by
  unfold State.combine at e
  split at e <;> try contradiction
  dsimp only at e
  split at e <;> try contradiction
  split at e <;> try contradiction
  split at e <;> try contradiction
  obtain rfl := Option.some.inj e
  exact .sendComp (.ite h.losesReservation.writeMasked.setHome.setPoison.other h.losesReservation.writeMasked.setHome)

theorem Kept.refuse {h' i q} (h : Kept s t) : Kept s (t.refuse h' i q) :=
  h.count.hsIrq.bankEvent.sendComp

theorem Kept.countRemoval {h'} (h : Kept s t) : Kept s (t.countRemoval h') := by
  unfold State.countRemoval
  extract_lets s1
  have hs1 : Kept s s1 := h.tally.bankEvent
  exact .setHome (.ite hs1.send hs1)

theorem Kept.dirCorrected {h' q} (h : Kept s t) : Kept s (t.dirCorrected h' q) :=
  .ite h.fresh.log h

theorem Kept.noteOrdered {q} (h : Kept s t) : Kept s (t.noteOrdered q) := by
  unfold State.noteOrdered
  split
  · exact h.setCore
  · exact h

theorem Kept.order {n i} (h : Kept s t) : Kept s (t.order n i).1 := by
  unfold State.order
  split
  · exact h.bankEvent.absorb
  · split
    · exact h
    · dsimp only
      refine .ite_fst h.sendComp (.ite_fst h.bankEvent.refuse (.ite_fst h.log.hsIrq.removeEntry ?_))
      split
      · exact h.countRemoval.removeEntry
      · exact h.dirCorrected.noteOrdered.bankEvent.setHome.handle

theorem Kept.homesStepped {old} (h : Kept s t) : Kept s (t.homesStepped old) :=
  h.other

theorem Kept.hasten {line st} (h : Kept s t) : Kept s (t.hasten line st) := by
  unfold State.hasten
  refine .ite (.setArb ⟨⟨h.mem, h.regs, fun hs => inOrder_map (h.agenda hs) fun e => ?_, h.clk⟩, h.pending⟩) h
  split
  · split <;> rfl
  · rfl

theorem Kept.enqueue {h' i front} (h : Kept s t) : Kept s (t.enqueue h' i front) :=
  h.setHome

theorem Kept.tryOrder {n i} (h : Kept s t) : Kept s (t.tryOrder n i) :=
  .ite h.order h.order.enqueue

theorem Kept.settle {n fuel} (h : Kept s t) : Kept s (State.settle n fuel t) := by
  induction fuel generalizing t with
  | zero => exact h
  | succ fuel ih =>
    unfold State.settle
    split
    · exact h
    · exact ih h.setHome.tryOrder

theorem Kept.queryResult {h' line} (h : Kept s t) : Kept s (t.queryResult h' line) :=
  h.wr.wr.wr

theorem Kept.answerQuery {h'} (h : Kept s t) : Kept s (t.answerQuery h') := by
  unfold State.answerQuery
  dsimp only
  split
  · exact .ite h h.setHome.queryResult
  · exact h

theorem Kept.settleHome {h'} (h : Kept s t) : Kept s (t.settleHome h') :=
  h.settle.answerQuery

theorem Kept.arrive {i} (h : Kept s t) : Kept s (t.arrive i) := by
  unfold State.arrive
  dsimp only
  split
  · exact h.combine ‹_›
  · exact .ite h.hasten.enqueue.settleHome h.tryOrder.settleHome

theorem execReadShared_completes {q} (h : Kept s t) : Completes s (execReadShared q t) :=
  .next h.arrive

theorem execReadUnique_completes {q} (h : Kept s t) : Completes s (execReadUnique q t) :=
  .next h.arrive

theorem execUpgrade_completes {q} (h : Kept s t) : Completes s (execUpgrade q t) :=
  .next h.arrive

theorem execReadOnce_completes {q} (h : Kept s t) : Completes s (execReadOnce q t) :=
  .next h.arrive

theorem execWriteUnique_completes {q data poison} (h : Kept s t) : Completes s (execWriteUnique q data poison t) :=
  .next h.arrive

theorem execWritePartial_completes {q mask data} (h : Kept s t) : Completes s (execWritePartial q mask data t) :=
  .next h.arrive

theorem execWritePartialPost_completes {q vector} (h : Kept s t) : Completes s (execWritePartialPost q vector t) :=
  .next h.arrive

theorem Kept.replaceLine {c line l} (h : Kept s t) : Kept s (t.replaceLine c line l) := by
  unfold State.replaceLine
  dsimp only
  split
  · exact h.setLine.send
  · exact h.setLine.send
  · exact h.setLine
  · exact h.setLine
  · exact h

theorem execWriteBack_completes {c line} (h : Kept s t) : Completes s (execWriteBack c line t) := by
  unfold execWriteBack
  dsimp only
  split
  · exact .ite (.ite (.next h) (.next h.replaceLine)) (.ite (.next h.arrive) (.next h))
  · exact .next h.arrive

theorem Kept.removed {h' line} (h : Kept s t) : Kept s (t.removed h' line) :=
  h.setHome.closeHome.settleHome

theorem Kept.acksDone {h' line t'} (h : Kept s t) : Kept s (t.acksDone h' line t') := by
  unfold State.acksDone
  dsimp only
  split
  · split
    · exact h.setHome.startWrite.settleHome
    · exact h.setHome.closeHome.settleHome
  · exact h.setHome.closeHome.settleHome

theorem Kept.ackHome {line} (h : Kept s t) : Kept s (t.ackHome line) := by
  unfold State.ackHome
  dsimp only
  split
  · exact h
  · exact .ite (.ite (.ite h.removed h.acksDone) h.setHome) h

theorem Kept.dataHome {line data poison dirty} (h : Kept s t) : Kept s (t.dataHome line data poison dirty) := by
  unfold State.dataHome
  dsimp only
  split
  · exact h
  · exact .ite h.allocate.ackHome h

theorem execFwdAck_completes {c line dirty} (h : Kept s t) : Completes s (execFwdAck c line dirty t) := by
  unfold execFwdAck
  dsimp only
  split
  · refine .ite ?_ (.next h)
    split
    · split
      · exact .next h.setHome.closeHome.settleHome
      · exact .next h.closeHome.settleHome
    · exact .next h.closeHome.settleHome
  · exact .next h

theorem execFwdMiss_completes {_c line} (h : Kept s t) : Completes s (execFwdMiss _c line t) := by
  unfold execFwdMiss
  extract_lets _ _ s1
  have hs1 : Kept s s1 := h.tally.bankEvent
  split
  · refine .ite ?_ (.ite (.next hs1.ackHome) (.next hs1))
    split
    · exact .next hs1.homeRead.settleHome
    · exact .next hs1
  · exact .next hs1

theorem execCompToHome_completes {c line} (h : Kept s t) : Completes s (execCompToHome c line t) := by
  unfold execCompToHome
  dsimp only
  split
  · refine .ite ?_ (.next h)
    refine .next (.settleHome ?_)
    refine .closeHome ?_
    split
    · exact h.setHome
    · exact h
  · exact .next h

theorem Kept.filled {line} (h : Kept s t) : Kept s (t.filled line) := by
  unfold State.filled
  dsimp only
  split
  · split
    · exact .settleHome (.supply (.ite h.allocate h))
    · exact h
  · exact h

theorem Kept.admitted {line} (h : Kept s t) : Kept s (t.admitted line) := by
  unfold State.admitted
  dsimp only
  split
  · exact .ite h.closeHome.settleHome h
  · exact h

theorem execReadDataHandoff_completes {mc} (h : Kept s t) : Completes s (execReadDataHandoff mc t) := by
  unfold execReadDataHandoff
  dsimp only
  split
  · exact .next h
  · exact .next h.setQueue.dropWork.filled.arbArm.arbShow

theorem Kept.completeGrant {c line l st} (h : Kept s t) : Kept s (t.completeGrant c line l st) :=
  h.setLine.send.kickDrain

theorem Kept.granted {c line l acks} (h : Kept s t) : Kept s (t.granted c line l acks) :=
  .ite h.completeGrant h.setLine

theorem Kept.lostTo {c line} (h : Kept s t) : Kept s (t.lostTo c line) :=
  h.setCore

theorem execFwdShared_completes {owner line dst once} (h : Kept s t) : Completes s (execFwdShared owner line dst once t) := by
  unfold execFwdShared
  dsimp only
  split
  · exact .next h.send
  · split
    · exact .next (.send (.send (.ite h h.setLine)))
    · exact .next h.send.send
    · exact .next h.send.send
    · exact .next h.send.send
    · exact .next (.send (.send (.ite h h.setLine)))
    · exact .next (.send (.send (.ite h h.setLine)))
    · exact .next h.send

theorem execFwdUnique_completes {owner line dst acks} (h : Kept s t) : Completes s (execFwdUnique owner line dst acks t) := by
  unfold execFwdUnique
  dsimp only
  split
  · exact .next h.lostTo.send
  · split
    · exact .next h.lostTo.setLine.send
    · exact .next h.lostTo.setLine.send
    · exact .next h.lostTo.setLine.send
    · exact .next h.lostTo.setLine.send
    · exact .next h.lostTo.setLine.send
    · exact .next h.lostTo.setLine.send
    · exact .next h.lostTo.send

theorem execInvalidate_completes {c line ackTo} (h : Kept s t) : Completes s (execInvalidate c line ackTo t) := by
  unfold execInvalidate
  dsimp only
  split
  · exact .next h.lostTo.send
  · split
    · exact .next h.lostTo.send.setLine
    · exact .next h.lostTo.send.setLine
    · exact .next h.lostTo.send.setLine
    · exact .next h.lostTo.send.setLine
    · exact .next h.lostTo.send.setLine
    · exact .next h.lostTo.send.setLine
    · exact .next h.lostTo.send.setLine
    · exact .next h.lostTo.send.setLine
    · exact .next h.lostTo.send.setLine
    · exact .next h.lostTo.send

theorem execBackInvalidate_completes {c line} (h : Kept s t) : Completes s (execBackInvalidate c line t) := by
  unfold execBackInvalidate
  dsimp only
  split
  · exact .next h.lostTo.send
  · split
    · exact .next h.lostTo.send.setLine
    · exact .next h.lostTo.send.setLine
    · exact .next h.lostTo.send.setLine
    · exact .next h.lostTo.send.setLine
    · exact .next h.lostTo.send.setLine
    · exact .next h.lostTo.send.setLine
    · exact .next h.lostTo.send.setLine
    · exact .next h.lostTo.send.setLine
    · exact .next h.lostTo.send.setLine
    · exact .next h.lostTo.send

theorem execInvAck_completes {_c line dst} (h : Kept s t) : Completes s (execInvAck _c line dst t) := by
  unfold execInvAck
  dsimp only
  split
  · exact .next h.ackHome
  · split
    · split
      · exact .ite (.next h.completeGrant) (.next h.setLine)
      · exact .next h.setLine
      · exact .next h.setLine
      · exact .next h.setLine
      · exact .next h
    · exact .next h
  · exact .next h

theorem execWbAck_completes {c line} (h : Kept s t) : Completes s (execWbAck c line t) := by
  unfold execWbAck
  dsimp only
  split
  · split
    · exact .next h.setLine.kickDrain
    · exact .next h.setLine.kickDrain
    · exact .next h.setLine.kickDrain
    · exact .next h
  · exact .next h

theorem Kept.hsQuery {h' _who v} (h : Kept s t) : Kept s (t.hsQuery h' _who v) :=
  .ite h.setHome.wr h.setHome.wr.answerQuery

theorem execHsQueryAddr_completes {h' who value} (h : Kept s t) : Completes s (execHsQueryAddr h' who value t) :=
  .next h.hsQuery

theorem execBackinvWindow_completes {h'} (h : Kept s t) : Completes s (execBackinvWindow h' t) :=
  .next (.ite h.setHome.hsIrq h.setHome)

/-! ### What the operations of Machine/CoreBase.lean keep -/

theorem Kept.setSr {c n v} (h : Kept s t) : Kept s (t.setSr c n v) :=
  h.setCore

theorem Kept.recountReservation {c change} (h : Kept s t) (hc : ∀ u, Kept s u → Kept s (change u)) :
    Kept s (t.recountReservation c change) := by
  unfold State.recountReservation
  dsimp only
  split
  · exact (hc _ h.setCore).send
  · exact hc _ h

theorem Kept.recognise {c} (h : Kept s t) : Kept s (t.recognise c) :=
  .ite h.send h

theorem Kept.pend {c x v} (h : Kept s t) : Kept s (t.pend c x v) :=
  h.setSr.recognise

theorem execLatentWindowEnd_completes {c} (h : Kept s t) : Completes s (execLatentWindowEnd c t) :=
  .next h.setCore.recognise

theorem Kept.overflow {c k} (h : Kept s t) : Kept s (t.overflow c k) :=
  .ite h.setCore.pend h.setCore

theorem Kept.counter {c k by_} (h : Kept s t) : Kept s (t.counter c k by_) :=
  .ite h.setSr h.setSr.overflow

theorem Kept.coreEvent {c event by_} (h : Kept s t) : Kept s (t.coreEvent c event by_) :=
  .ite (h.foldl fun _ _ h1 => .ite h1.counter h1) h

theorem Kept.syncCycles {c} (h : Kept s t) : Kept s (t.syncCycles c) := by
  unfold State.syncCycles
  split
  · exact .ite (.coreEvent (.ite h.setCore h.setCore.counter.coreEvent)) (.ite h.setCore h.setCore.counter.coreEvent)
  · exact .ite h.setCore h

theorem Kept.popStore {c k} (h : Kept s t) : Kept s (t.popStore c k) := by
  unfold State.popStore
  extract_lets s0
  have hs0 : Kept s s0 := .ite h.syncCycles h
  exact .ite hs0.setCore.recognise hs0.setCore.kickDrain

theorem Kept.countRetired {c} (h : Kept s t) : Kept s (t.countRetired c) := by
  unfold State.countRetired
  extract_lets _ _ _ _ s2
  have hs2 : Kept s s2 := .ite h.syncCycles.setCore h.syncCycles
  exact .ite hs2.counter.coreEvent hs2

theorem execCounterOverflow_completes {c ctr} (h : Kept s t) : Completes s (execCounterOverflow c ctr t) :=
  .ite (.next h.setSr.overflow) (.next h)

theorem execPmuClr_completes {c} (h : Kept s t) : Completes s (execPmuClr c t) :=
  .next h.syncCycles.setCore

theorem Kept.armTimer {c v} (h : Kept s t) : Kept s (t.armTimer c v) :=
  .ite h (.ite h.send h.send)

theorem Kept.armTimers (h : Kept s t) : Kept s t.armTimers :=
  h.foldl fun _ _ h1 => .ite (h1.foldl fun _ _ h2 => .ite h2 h2.armTimer) h1

theorem execTimerVector_completes {c view} (h : Kept s t) : Completes s (execTimerVector c view t) :=
  .ite (.next h) (.ite (.next h.setCore.pend) (.next h.armTimer))

/-! ### What the operations of Machine/RegWrite.lean keep -/

theorem Kept.lockedWrite {area unit a} (h : Kept s t) : Kept s (t.lockedWrite area unit a) := by
  unfold State.lockedWrite
  refine .log ?_
  split
  · exact h.wb
  · exact h

theorem Kept.storeReg {a v} (h : Kept s t) : Kept s (t.storeReg a v) := by
  unfold State.storeReg
  split
  · exact h
  · exact .ite h.wr h.wr.lockedWrite

/-! ### What the operations of Machine/Counters.lean keep -/

theorem Kept.settleBank {block} (h : Kept s t) : Kept s (t.settleBank block) := by
  unfold State.settleBank
  split
  · exact .ite h.bankEvent.putHome (.ite h.bankEvent.setArb.tally h.bankEvent.putMc)
  · exact h

theorem Kept.writeBankReg {block a v} (h : Kept s t) : Kept s (t.writeBankReg block a v) :=
  h.settleBank.storeReg

theorem Kept.clearBank {block} (h : Kept s t) : Kept s (t.clearBank block) :=
  h.foldl fun _ _ h1 => h1.wr

theorem Kept.writePmb {block v} (h : Kept s t) : Kept s (t.writePmb block v) := by
  unfold State.writePmb
  extract_lets s1
  have hs1 : Kept s s1 := h.settleBank.storeReg
  exact .ite hs1.clearBank hs1

theorem execPmbClr_completes {bank _who} (h : Kept s t) : Completes s (execPmbClr bank _who t) :=
  .next h.writePmb

theorem execPmbWrap_completes {bank k} (h : Kept s t) : Completes s (execPmbWrap bank k t) :=
  .ite (.next h.wr.wb) (.next h)

theorem Kept.syncAll (h : Kept s t) : Kept s t.syncAll :=
  h.foldl fun _ _ h1 => h1.syncCycles

theorem Kept.shadowCore {seq c} (h : Kept s t) : Kept s (t.shadowCore seq c) :=
  .ite h.setCore h

theorem Kept.shadowBank {seq block} (h : Kept s t) : Kept s (t.shadowBank seq block) :=
  .wf (h.foldl fun _ _ h1 => h1.wr)

theorem Kept.shutter {instant} (h : Kept s t) : Kept s (t.shutter instant) :=
  .ite h (.wr (.wb (.wf (.foldl (h.syncAll.foldl fun _ _ h1 => h1.shadowCore) fun _ _ h1 => h1.shadowBank))))

theorem Kept.seekShutter (h : Kept s t) : Kept s t.seekShutter :=
  h.send

theorem Kept.armShutter (h : Kept s t) : Kept s t.armShutter :=
  h.wb.seekShutter

theorem Kept.writeShutter {v} (h : Kept s t) : Kept s (t.writeShutter v) :=
  .ite h.storeReg.seekShutter h.storeReg

theorem Kept.writeShutterCtrl {v} (h : Kept s t) : Kept s (t.writeShutterCtrl v) :=
  .ite h.storeReg.armShutter h.storeReg

theorem execArm_completes {_who} (h : Kept s t) : Completes s (execArm _who t) :=
  .next h.writeShutterCtrl

theorem execShutterTake_completes (h : Kept s t) : Completes s (execShutterTake t) :=
  .ite (.ite (.next h.seekShutter) (.next h.wb.shutter)) (.next h)

theorem Kept.setFreeze {b} (h : Kept s t) : Kept s (t.setFreeze b) :=
  .syncAll (.wb (.syncAll (h.foldl fun _ _ h1 => h1.settleBank)))

theorem execFreeze_completes {_who value} (h : Kept s t) : Completes s (execFreeze _who value t) :=
  .next h.setFreeze

/-! ### What the operations of Machine/Contact.lean keep -/

theorem execContactEvent_completes (h : Kept s t) : Completes s (execContactEvent t) := by
  unfold execContactEvent
  split
  · exact .next h
  · exact .next (.ite h.other.send.source h.other.send)

theorem execMirrorCopy_completes (h : Kept s t) : Completes s (execMirrorCopy t) := by
  unfold execMirrorCopy
  split
  · exact .next h
  · exact .ite (.next h.other) (.next h.other.present)

theorem Kept.mirrorWrite {seq} (h : Kept s t) : Kept s (t.mirrorWrite seq) := by
  unfold State.mirrorWrite
  split
  · exact .ite h.setBytes h
  · exact h

/-! ### What the operations of Machine/Translate.lean keep -/

theorem Kept.ask {c a nc pl slack} (h : Kept s t) : Kept s (t.ask c a nc pl slack) :=
  .ite h.send (.ite h h.setLine.send.coreEvent)

theorem Kept.lineFor {c a nc pl slack} (h : Kept s t) : Kept s (t.lineFor c a nc pl slack).2 := by
  unfold State.lineFor
  dsimp only
  split
  · refine .ite_snd h ?_
    split
    · exact h
    · exact .ite_snd h.setCore h
  · split
    · exact h
    · exact .ite_snd (.ite_snd h (.ite_snd h h.ask.setCore)) (.ite_snd h h.ask.setCore)

theorem Kept.walk {stage2 read input fuel base} (h : Kept s t) (hr : ∀ u level a, Kept s u → Kept s (read u level a).2) :
    Kept s (walk stage2 read input fuel t base).2 := by
  induction fuel generalizing t base with
  | zero => exact h
  | succ fuel ih =>
    unfold Machine.walk
    dsimp only
    split
    · exact (hr _ _ _ h).out ‹_›
    · split
      · exact (hr _ _ _ h).out ‹_›
      · exact (hr _ _ _ h).out ‹_›
      · exact ih ((hr _ _ _ h).out ‹_›)

theorem Kept.readTable {c pl nc level a} (h : Kept s t) : Kept s (t.readTable c pl nc level a).2 :=
  .ite_snd h (.ite_snd h (.ite_snd h.ask.coreEvent h.ask.coreEvent))

theorem Kept.walk2 {c pl ipa} (h : Kept s t) : Kept s (t.walk2 c pl ipa).2 :=
  h.walk fun _ _ _ h1 => h1.readTable

theorem Kept.readEntry1 {c pl level ipa} (h : Kept s t) : Kept s (t.readEntry1 c pl level ipa).2 := by
  unfold State.readEntry1
  refine .ite_snd ?_ h.readTable
  split
  · exact h.walk2.out ‹_›
  · exact h.walk2.out ‹_›
  · exact .ite_snd (h.walk2.out ‹_›).readTable (h.walk2.out ‹_›)

theorem Kept.walk1 {c pl va} (h : Kept s t) : Kept s (t.walk1 c pl va).2 :=
  h.walk fun _ _ _ h1 => h1.readEntry1

theorem Kept.walkLog {c x1} (h : Kept s t) : Kept s (t.walkLog c x1) := by
  unfold State.walkLog
  split
  · exact h.log
  · exact h

theorem Kept.walkEntry {c pl va size k cross} (h : Kept s t) : Kept s (t.walkEntry c pl va size k cross).2 := by
  unfold State.walkEntry
  dsimp only
  split
  · exact .walkLog (.ite_snd h.walk1 h)
  · split
    · exact .ite_snd h.walk1 h
    · split
      · exact .walkLog (.ite_snd (.walk2 (.ite_snd h.walk1 h)) (.ite_snd h.walk1 h))
      · exact .ite_snd (.walk2 (.ite_snd h.walk1 h)) (.ite_snd h.walk1 h)

theorem Kept.translatePart {c pl va size bytes k cross} (h : Kept s t) : Kept s (t.translatePart c pl va size bytes k cross).2 := by
  unfold State.translatePart
  refine .ite_snd h (.ite_snd h ?_)
  refine .ite_snd h ?_
  dsimp only
  split
  · split
    · exact .ite h h.coreEvent
    · exact .setCore (.ite h h.coreEvent)
  · refine .ite_snd h ?_
    split
    · exact h.coreEvent.coreEvent.walkEntry.out ‹_›
    · split
      · exact h.coreEvent.coreEvent.walkEntry.out ‹_›
      · exact (h.coreEvent.coreEvent.walkEntry.out ‹_›).setCore

theorem Kept.checkPart {c pl whole va size bytes k reserved cross} (h : Kept s t) :
    Kept s (t.checkPart c pl whole va size bytes k reserved cross).2 := by
  unfold State.checkPart
  split
  · exact h.translatePart.out ‹_›
  · refine .ite_snd (h.translatePart.out ‹_›) ?_
    exact .ite_snd (h.translatePart.out ‹_›) (.ite_snd (h.translatePart.out ‹_›) (h.translatePart.out ‹_›))

theorem Kept.translate {c pl va size k reserved} (h : Kept s t) : Kept s (t.translate c pl va size k reserved).2 := by
  unfold State.translate
  refine .ite_snd ?_ ?_
  · split <;> exact h.checkPart.out ‹_›
  · split
    · exact h.checkPart.out ‹_›
    · next s1 hs1 =>
      have h1 : Kept s s1 := h.checkPart.out hs1
      split <;> exact h1.checkPart.out ‹_›

/-! ### What the operations of Machine/CoreRun.lean keep -/

theorem Kept.fetchAt {c pl va} (h : Kept s t) : Kept s (t.fetchAt c pl va).2 := by
  unfold State.fetchAt
  refine .ite_snd h ?_
  split
  · exact h.translate.out ‹_›
  · split
    · dsimp only
      split
      · exact .ite ((h.translate.out ‹_›).lineFor.out ‹_›) ((h.translate.out ‹_›).lineFor.out ‹_›).coreEvent
      · exact (h.translate.out ‹_›).lineFor.out ‹_›
      · exact .ite_snd ((h.translate.out ‹_›).lineFor.out ‹_›).log ((h.translate.out ‹_›).lineFor.out ‹_›)
    · exact h.translate.out ‹_›

theorem Kept.coreStops {c} (h : Kept s t) : Kept s (t.coreStops c) :=
  h.syncCycles.setCore.log.source

theorem Kept.entryFault {c t' addr elr} (h : Kept s t) : Kept s (t.entryFault c t' addr elr) := by
  unfold State.entryFault
  refine .ite h.coreStops ?_
  dsimp only
  split
  · exact h.setCore.fetchAt.out ‹_›
  · exact (h.setCore.fetchAt.out ‹_›).coreStops
  · exact (h.setCore.fetchAt.out ‹_›).setCore

theorem Kept.arriveAt {c t' target} (h : Kept s t) : Kept s (t.arriveAt c t' target) := by
  unfold State.arriveAt
  dsimp only
  split
  · exact h.setCore.fetchAt.out ‹_›
  · exact (h.setCore.fetchAt.out ‹_›).entryFault
  · exact (h.setCore.fetchAt.out ‹_›).setCore

theorem Kept.haltCore {c reason} (h : Kept s t) : Kept s (t.haltCore c reason) :=
  h.syncCycles.setCore.wb.wf

theorem Kept.stepDone {c} (h : Kept s t) : Kept s (t.stepDone c) :=
  .ite h.haltCore h

theorem Kept.exception {c f elr at_} (h : Kept s t) : Kept s (t.exception c f elr at_) :=
  h.syncCycles.setCore.arriveAt.coreEvent.recognise.stepDone

theorem Kept.signal {hits} (h : Kept s t) : Kept s (t.signal hits) := by
  unfold State.signal
  refine h.foldl fun _ _ h1 => ?_
  split
  · exact h1.send
  · exact h1

theorem Kept.compareAccess {c pl va bytes k} (h : Kept s t) : Kept s (Checked.state (t.compareAccess c pl va bytes k)) := by
  unfold State.compareAccess
  dsimp only
  split
  · exact h
  · split
    · exact .ite_checked h.signal.wf.haltCore h.signal.wf.exception
    · exact .ite_checked h.signal.wf.haltCore h.signal.wf

theorem Kept.retire {c pc target} (h : Kept s t) : Kept s (t.retire c pc target) := by
  unfold State.retire
  extract_lets _ _ _ _ s1
  have hs1 : Kept s s1 := h.setCore.countRetired
  exact .stepDone (.ite hs1.coreEvent hs1)

theorem Kept.retireCall {c} (h : Kept s t) : Kept s (t.retireCall c) :=
  h.setCore.countRetired

theorem Kept.runInstr {c notAtEnd op} (h : Kept s t) (hop : ∀ u, Kept s u → Kept s (op u).state) :
    Kept s (t.runInstr c notAtEnd op) := by
  unfold State.runInstr
  extract_lets s0
  have hs0 : Kept s s0 := .ite h h.setCore.recognise
  refine .ite ?_ hs0
  have hf : Kept s (if (s0.core c).buffered (s0.core c).pc.toNat then (.ok, s0)
      else s0.fetchAt c (s0.core c).pl.toNat (s0.core c).pc.toNat).2 := .ite_snd hs0 hs0.fetchAt
  split
  · exact hf.out ‹_›
  · split
    · exact (hf.out ‹_›).entryFault
    · exact (hf.out ‹_›).exception
  · next s1 hs1 =>
    have h1 : Kept s s1 := hf.out hs1
    have hc : Kept s (Checked.state (if (s0.core c).compared then .ok s1
        else s1.compareAccess c (s0.core c).pl.toNat (s0.core c).pc.toNat 4 .fetch)) := .ite_checked h1 h1.compareAccess
    split
    · exact hc.stopped ‹_›
    · next s2 hs2 =>
      have h2 : Kept s s2 := hc.goesOn hs2
      refine .ite h2.exception ?_
      have h3 := hop s2 h2
      split <;> rename_i hr <;> rw [hr] at h3
      · exact Kept.retire h3
      · exact Kept.retire h3
      · exact Kept.exception h3
      · exact (Kept.retireCall h3).exception
      · exact Kept.setCore h3
      · exact h3

theorem Kept.regInstr {c f} (h : Kept s t) : Kept s (t.regInstr c f) :=
  h.runInstr fun _ h1 => h1.setCore

/-! ### What the operations of Machine/GlobalTime.lean keep -/

theorem Kept.applyRate (h : Kept s t) : Kept s t.applyRate :=
  .ite h.wr.wb h.wr

theorem Kept.dropCorrection (h : Kept s t) : Kept s t.dropCorrection :=
  h.other.wr.wb

theorem Kept.writeGtCtrl {v} (h : Kept s t) : Kept s (t.writeGtCtrl v) := by
  unfold State.writeGtCtrl
  refine .ite h.storeReg ?_
  dsimp only
  split
  · exact h.storeReg.dropCorrection.wb.applyRate
  · exact h.storeReg.dropCorrection.wb.other.applyRate

theorem execGtCtrl_completes {_who value} (h : Kept s t) : Completes s (execGtCtrl _who value t) :=
  .next h.writeGtCtrl

theorem Kept.judgeOffset {offset} (h : Kept s t) : Kept s (t.judgeOffset offset) :=
  .ite h.other.wb (.ite h.other.wb.wb h.other)

theorem Kept.measure {offset} (h : Kept s t) : Kept s (t.measure offset) :=
  .applyRate (.judgeOffset (.ite h.other.wr h.other.wr.other.wr.wb))

theorem Kept.measureStepped {offset} (h : Kept s t) : Kept s (t.measureStepped offset) :=
  h.other.dropCorrection.wr.judgeOffset.applyRate

theorem execSync_completes {src offset interval} (h : Kept s t) : Completes s (execSync src offset interval t) := by
  unfold execSync
  refine .ite ?_ (.next h)
  refine .next (.measure ?_)
  split
  · exact h.other
  · exact h

theorem Kept.sourceLost (h : Kept s t) : Kept s t.sourceLost :=
  h.dropCorrection.wb.wb.other.applyRate

theorem execSrcLost_completes (h : Kept s t) : Completes s (execSrcLost t) :=
  .ite (.next h.sourceLost) (.next h)

theorem execSlewComplete_completes (h : Kept s t) : Completes s (execSlewComplete t) :=
  .ite (.next h.dropCorrection.applyRate) (.next h)

theorem execRtcTick_completes (h : Kept s t) : Completes s (execRtcTick t) :=
  .next h.other

theorem Kept.gtTick (h : Kept s t) : Kept s t.gtTick :=
  .ite h.other (.ite h.other.wr.send h.other.wr)

theorem Kept.gtAdvance (h : Kept s t) : Kept s t.gtAdvance :=
  .ite h.other.wr.wb.applyRate h.other.wb.wb.applyRate

/-! ### What the operations of Machine/PhaseBase.lean keep -/

theorem Kept.setBase {b x} (h : Kept s t) : Kept s (t.setBase b x) :=
  h.other

theorem Kept.noteLine {b} (h : Kept s t) : Kept s (t.noteLine b) :=
  .ite h h.setBase

theorem Kept.noteCrossed {ns jumped} (h : Kept s t) : Kept s (t.noteCrossed ns jumped) :=
  h.foldl fun _ _ h1 => h1.other.send

theorem Kept.showSense {b d} (h : Kept s t) : Kept s (t.showSense b d) :=
  .ite h h.wb

theorem Kept.noteMove {b old d jumped} (h : Kept s t) : Kept s (t.noteMove b old d jumped) :=
  h.setBase.showSense

theorem Kept.baseMoved {b old} (h : Kept s t) : Kept s (t.baseMoved b old) :=
  h.noteMove.noteCrossed

theorem Kept.baseJumped {b old d} (h : Kept s t) : Kept s (t.baseJumped b old d) :=
  h.noteMove.noteCrossed

theorem Kept.clockPassed {gt old} (h : Kept s t) : Kept s (t.clockPassed gt old) :=
  .noteCrossed (h.foldl fun _ _ h1 => h1.showSense)

theorem Kept.gtStepped {gt old} (h : Kept s t) : Kept s (t.gtStepped gt old) :=
  .noteCrossed (h.other.foldl fun _ _ h1 => h1.noteMove)

theorem Kept.recheck {n} (h : Kept s t) : Kept s (t.recheck n) := by
  unfold State.recheck
  dsimp only
  split
  · exact h.other
  · exact .ite h.other.noteCrossed h.other

theorem Kept.project {n} (h : Kept s t) : Kept s (t.project n) :=
  h.wr

theorem execProjectionRecompute_completes {b} (h : Kept s t) : Completes s (execProjectionRecompute b t) :=
  .next (h.foldl fun _ _ h1 => h1.project)

theorem Kept.setRate {b rate gt} (h : Kept s t) : Kept s (t.setRate b rate gt) :=
  h.setBase.wr.wr.wb.send

theorem Kept.stopBase {b} (h : Kept s t) : Kept s (t.stopBase b) :=
  h.setRate

theorem Kept.startBase {b} (h : Kept s t) : Kept s (t.startBase b) := by
  unfold State.startBase
  refine .ite h.wf.setBase.setBase.setRate ?_
  exact .ite h.wf.setBase.setRate.send (.ite h.wf.setBase.setRate.send h.wf.setBase.setRate)

theorem Kept.endBase {b v} (h : Kept s t) : Kept s (t.endBase b v) :=
  h.setBase.wr.wr.wb.wb.wb.wb.send

theorem Kept.writePhbCtrl {b v} (h : Kept s t) : Kept s (t.writePhbCtrl b v) :=
  .ite h.storeReg.startBase (.ite h.storeReg.endBase h.storeReg)

theorem execPhbCtrl_completes {b _who value} (h : Kept s t) : Completes s (execPhbCtrl b _who value t) :=
  .next h.writePhbCtrl

theorem Kept.preset {b v} (h : Kept s t) : Kept s (t.preset b v) :=
  .ite h h.setBase

theorem execPhbPreset_completes {b value} (h : Kept s t) : Completes s (execPhbPreset b value t) :=
  .next h.preset

theorem Kept.mainsLost {b freqRange} (h : Kept s t) : Kept s (t.mainsLost b freqRange) := by
  unfold State.mainsLost
  extract_lets _ _ s2
  have hs2 : Kept s s2 := .ite h.setBase.wb.wb h.setBase.wb
  exact .ite hs2.stopBase hs2.send

theorem Kept.goodCrossing {b rising instant half} (h : Kept s t) : Kept s (t.goodCrossing b rising instant half) :=
  h.setBase.setRate.wb.send

theorem Kept.crossing {b rising instant} (h : Kept s t) : Kept s (t.crossing b rising instant) := by
  unfold State.crossing
  refine .ite h.setBase ?_
  split
  · exact h.setBase
  · exact .ite h.setBase (.ite h.goodCrossing h.setBase.mainsLost)

theorem execMainsCrossing_completes {b rising instant} (h : Kept s t) : Completes s (execMainsCrossing b rising instant t) :=
  .ite (.next h.crossing) (.next h)

theorem execMainsInputLost_completes {b} (h : Kept s t) : Completes s (execMainsInputLost b t) := by
  unfold execMainsInputLost
  dsimp only
  split
  · exact .ite (.next h.setBase.mainsLost) (.next h)
  · exact .next h

theorem execMainsHoldoverEnd_completes {b} (h : Kept s t) : Completes s (execMainsHoldoverEnd b t) :=
  .ite (.next h.stopBase) (.next h)

theorem Kept.countEdge {b up} (h : Kept s t) : Kept s (t.countEdge b up) :=
  h.setBase.wb.baseMoved

theorem Kept.encoderSample {b a' b'} (h : Kept s t) : Kept s (t.encoderSample b a' b') := by
  unfold State.encoderSample
  refine .ite h.setBase.wb ?_
  split
  · exact h.setBase
  · split
    · exact .ite (.ite h.setBase.fresh.countEdge h.setBase.fresh.setBase) h.setBase.countEdge
    · exact h.setBase.countEdge

theorem Kept.seeLevel {p level} (h : Kept s t) : Kept s (t.seeLevel p level) :=
  h.setPin

theorem Kept.sampleEncoder {b a' b'} (h : Kept s t) : Kept s (t.sampleEncoder b a' b') :=
  .ite h.encoderSample h.setBase

theorem execEncoderEdge_completes {b levelA levelB} (h : Kept s t) : Completes s (execEncoderEdge b levelA levelB t) :=
  .next h.seeLevel.seeLevel.sampleEncoder

theorem execRateWindow_completes {b} (h : Kept s t) : Completes s (execRateWindow b t) :=
  .ite (.next h.setBase.setRate.send) (.next h)

theorem Kept.streamUpdate {b u gt} (h : Kept s t) : Kept s (t.streamUpdate b u gt) := by
  unfold State.streamUpdate
  extract_lets _ _ _ _ _ _ _ _ _ _ s2 s3 _ s5 s6 s7
  have hs2 : Kept s s2 := .ite h.wb.wb.wr.wb h.wb.wb.wr
  have hs3 : Kept s s3 := .ite hs2.wb hs2
  have hs5 : Kept s s5 := hs3.setBase.setRate
  have hs6 : Kept s s6 := .ite hs5.wb.send hs5
  have hs7 : Kept s s7 := .ite hs6.send hs6
  exact .ite hs7 (.ite hs7.baseJumped hs7.baseMoved)

theorem Kept.softwarePos {b v} (h : Kept s t) : Kept s (t.softwarePos b v) :=
  .ite h.streamUpdate h

theorem execPhbStreamPos_completes {b value} (h : Kept s t) : Completes s (execPhbStreamPos b value t) :=
  .next h.softwarePos

theorem execHeldResume_completes {b} (h : Kept s t) : Completes s (execHeldResume b t) := by
  unfold execHeldResume
  dsimp only
  split
  · exact .ite (.next h.wb.setBase.baseMoved) (.next h)
  · exact .next h

theorem execStreamTimeout_completes {b} (h : Kept s t) : Completes s (execStreamTimeout b t) :=
  .ite (.next h.wb.wb.setBase.setRate) (.next h)

theorem Kept.baseInstants {b} (h : Kept s t) : Kept s (t.baseInstants b) := by
  unfold State.baseInstants
  refine .ite h (.ite ?_ (.ite (.ite h.send h) (.ite (.ite (.send (.ite h.send h)) (.ite h.send h)) h)))
  split
  · exact .ite (.send (.ite h.send h)) (.ite h.send h)
  · exact h

theorem Kept.instants (h : Kept s t) : Kept s t.instants :=
  .foldl (.ite h.send h) fun _ _ h1 => h1.baseInstants

theorem Kept.writeRatio {b v} (h : Kept s t) : Kept s (t.writeRatio b v) :=
  .ite h.storeReg.setRate.baseMoved h.storeReg

/-! ### What the operations of Machine/PhaseEngine.lean keep -/

theorem Kept.pinBankEvent {k enable} (h : Kept s t) : Kept s (t.pinBankEvent k enable) :=
  .ite h.source h

theorem Kept.denyPin {p addr} (h : Kept s t) : Kept s (t.denyPin p addr) :=
  h.wb.log.pinBankEvent

theorem Kept.pinSubmit {p a eid phase tag late} (h : Kept s t) : Kept s (t.pinSubmit p a eid phase tag late) :=
  .ite h.wb (.ite h.denyPin (.ite h (.ite h.pinArrive (.ite h.pinArrive (.ite h.send h.wb)))))

theorem Kept.resolvePin {p} (h : Kept s t) : Kept s (t.resolvePin p) := by
  unfold State.resolvePin
  refine .ite (.ite h.wb h) (.ballFollows ?_)
  refine .wb (.ite (.wb (.ite (.pinBankEvent (.wb (.setPin (.ite h.wb h)))) (.setPin (.ite h.wb h)))) ?_)
  exact .ite (.pinBankEvent (.wb (.setPin (.ite h.wb h)))) (.setPin (.ite h.wb h))

theorem execPinAction_completes {p} (h : Kept s t) : Completes s (execPinAction p t) :=
  .next h.resolvePin

theorem Kept.driveChanged {p old} (h : Kept s t) : Kept s (t.driveChanged p old) :=
  .ite h h.ballFollows

theorem Kept.writePinCfg {p who v} (h : Kept s t) : Kept s (t.writePinCfg p who v) :=
  .ite h.denyPin (.driveChanged (.ite h.storeReg.setPin.wb h.storeReg))

theorem execPinCfg_completes {p who value} (h : Kept s t) : Completes s (execPinCfg p who value t) :=
  .next h.writePinCfg

theorem execPinLock_completes {p who} (h : Kept s t) : Completes s (execPinLock p who t) :=
  .next h.writePinCfg

theorem Kept.writePinAct {p who v} (h : Kept s t) : Kept s (t.writePinAct p who v) := by
  unfold State.writePinAct
  refine .ite h.denyPin ?_
  split
  · exact h.pinSubmit
  · exact h

theorem execPinAct_completes {p who value} (h : Kept s t) : Completes s (execPinAct p who value t) :=
  .next h.writePinAct

theorem Kept.writePinOwner {p who v} (h : Kept s t) : Kept s (t.writePinOwner p who v) :=
  .ite h.storeReg h.wb.pinBankEvent

theorem execPinOwner_completes {p who value} (h : Kept s t) : Completes s (execPinOwner p who value t) :=
  .next h.writePinOwner

theorem Kept.holdBank {k} (h : Kept s t) : Kept s (t.holdBank k) :=
  h.wb.setBank.foldl fun _ _ h1 => h1.releasePad

theorem Kept.freeBank {k late} (h : Kept s t) : Kept s (t.freeBank k late) :=
  h.foldl fun _ _ h1 => .ite h1.ballFollows h1

theorem Kept.writeVsel {k v} (h : Kept s t) : Kept s (t.writeVsel k v) := by
  unfold State.writeVsel
  extract_lets _ _ _ s1
  have hs1 : Kept s s1 := h.storeReg.setBank
  exact .ite (.ite hs1.freeBank hs1) (.ite hs1.holdBank.setBank.wb hs1.holdBank.setBank)

theorem execVsel_completes {k _who value} (h : Kept s t) : Completes s (execVsel k _who value t) :=
  .next h.writeVsel

theorem execSupplyErr_completes {k} (h : Kept s t) : Completes s (execSupplyErr k t) := by
  unfold execSupplyErr
  extract_lets _ _ _ s2
  have hs2 : Kept s s2 := h.holdBank.setBank.wb
  exact .next (.ite hs2.pinBankEvent hs2)

theorem execSupplyOk_completes {k} (h : Kept s t) : Completes s (execSupplyOk k t) :=
  .ite (.next h.setBank.wb.freeBank) (.next h)

theorem Kept.writeBankStatus {k v} (h : Kept s t) : Kept s (t.writeBankStatus k v) :=
  .ite h.storeReg.wb h.storeReg

theorem Kept.sampleLevel {p} (h : Kept s t) : Kept s (t.sampleLevel p).2 := by
  unfold State.sampleLevel
  split
  · exact h
  · exact h.fresh

theorem Kept.readPinStatus {p} (h : Kept s t) : Kept s (t.readPinStatus p).2 :=
  h.sampleLevel

theorem Kept.setCmp {n x} (h : Kept s t) : Kept s (t.setCmp n x) :=
  h.other

theorem Kept.checkLate {n} (h : Kept s t) : Kept s (t.checkLate n) :=
  .ite h.wb h

theorem Kept.cmpWriter {n who} (h : Kept s t) : Kept s (t.cmpWriter n who) :=
  h.wf

theorem Kept.writeCmpCtrl {n who v} (h : Kept s t) : Kept s (t.writeCmpCtrl n who v) := by
  unfold State.writeCmpCtrl
  extract_lets s1
  have hs1 : Kept s s1 := h.storeReg.cmpWriter
  exact .recheck (.project (.ite hs1.checkLate hs1))

theorem execCmpCtrl_completes {n who value} (h : Kept s t) : Completes s (execCmpCtrl n who value t) :=
  .next h.writeCmpCtrl

theorem Kept.writeCmpValue {n v} (h : Kept s t) : Kept s (t.writeCmpValue n v) := by
  unfold State.writeCmpValue
  extract_lets _ s1
  have hs1 : Kept s s1 := h.storeReg.setCmp
  exact .recheck (.project (.ite hs1.checkLate hs1))

theorem execCmpValue_completes {n value} (h : Kept s t) : Completes s (execCmpValue n value t) :=
  .next h.writeCmpValue

theorem Kept.writeCmpAction {n who v} (h : Kept s t) : Kept s (t.writeCmpAction n who v) :=
  h.storeReg.cmpWriter

theorem execCmpAction_completes {n who value} (h : Kept s t) : Completes s (execCmpAction n who value t) :=
  .next h.writeCmpAction

theorem Kept.writeCmpStatus {n v} (h : Kept s t) : Kept s (t.writeCmpStatus n v) :=
  .ite h.storeReg.wf h.storeReg

theorem Kept.autoStep {n clock} (h : Kept s t) : Kept s (t.autoStep n clock) :=
  .ite (.ite h.wr.wb h.wr) h

theorem Kept.matchPin {n jumped tag} (h : Kept s t) : Kept s (t.matchPin n jumped tag) := by
  unfold State.matchPin
  dsimp only
  split
  · exact .ite h h.pinSubmit
  · exact h

theorem Kept.matchOthers {n} (h : Kept s t) : Kept s (t.matchOthers n) := by
  unfold State.matchOthers
  extract_lets _ _ _ s2 s3
  have hs2 : Kept s s2 := .ite (.send (.ite h.send h)) (.ite h.send h)
  have hs3 : Kept s s3 := .ite hs2.sourceAfter hs2
  exact .ite hs3 hs3.send

theorem Kept.matchCmp {n clock jumped} (h : Kept s t) : Kept s (t.matchCmp n clock jumped) := by
  unfold State.matchCmp
  extract_lets _ _ _ _ _ s3 s4 s5 s6
  have hs3 : Kept s s3 := h.setCmp.wr.wb.wf
  have hs4 : Kept s s4 := .ite hs3.wb hs3
  have hs5 : Kept s s5 := .ite hs4.wb hs4
  have hs6 : Kept s s6 := hs5.autoStep.project.matchPin
  exact .ite hs6.matchOthers (.ite hs6.other hs6)

theorem execCompareMatch_completes {n} (h : Kept s t) : Completes s (execCompareMatch n t) := by
  unfold execCompareMatch
  split
  · exact .ite (.next h.other.matchCmp) (.next h.other)
  · exact .next h

theorem Kept.setCap {n x} (h : Kept s t) : Kept s (t.setCap n x) :=
  h.other

theorem Kept.captureAt {n rise instant} (h : Kept s t) : Kept s (t.captureAt n rise instant) :=
  .ite h.after h

theorem execCaptureEvent_completes {n rise instant} (h : Kept s t) : Completes s (execCaptureEvent n rise instant t) :=
  .next (.captureAt (.ite h h.seeLevel))

theorem Kept.pinSeen {p level gt since} (h : Kept s t) : Kept s (t.pinSeen p level gt since) :=
  .ite h (.foldl (h.setPin.foldl fun _ _ h1 => h1.captureAt) fun _ _ h1 => .ite h1.after (.ite h1.crossing h1))

theorem Kept.sampleBase {b} (h : Kept s t) : Kept s (t.sampleBase b) :=
  h.sampleEncoder

theorem Kept.landCapture {n value rise gt} (h : Kept s t) : Kept s (t.landCapture n value rise gt) := by
  unfold State.landCapture
  extract_lets _ _ _ _ _ s2 _ s4
  have hs2 : Kept s s2 := .ite h.setCap.wb h.setCap
  have hs4 : Kept s s4 := .ite hs2.wr.wb.wb.source hs2.wr.wb.wb
  exact .ite hs4.send hs4

theorem Kept.readCapture {n} (h : Kept s t) : Kept s (t.readCapture n).2 :=
  .ite_snd h.setCap.wb h.setCap.wb

theorem execCapValue_completes {n} (h : Kept s t) : Completes s (execCapValue n t) :=
  .next h.readCapture.other

theorem Kept.setSdf {n x} (h : Kept s t) : Kept s (t.setSdf n x) :=
  h.other

theorem Kept.sdfFlag {n bit} (h : Kept s t) : Kept s (t.sdfFlag n bit) :=
  .ite h.wb.source h.wb

theorem Kept.trip {n} (h : Kept s t) : Kept s (t.trip n) :=
  h.sdfFlag.foldl fun _ _ h1 => .ite h1 h1.pinArrive

theorem Kept.sdfEvent {n bit rise} (h : Kept s t) : Kept s (t.sdfEvent n bit rise) :=
  h.sdfFlag.foldl fun _ _ h1 => h1.send

theorem Kept.sdfMains {n r} (h : Kept s t) : Kept s (t.sdfMains n r) := by
  unfold State.sdfMains
  split
  · exact .ite h (h.foldl fun _ _ h1 => h1.send)
  · exact h

theorem Kept.sdfValid {n r} (h : Kept s t) : Kept s (t.sdfValid n r) := by
  unfold State.sdfValid
  extract_lets _ _ _ s1 s2 s3 _ s5
  have hs1 : Kept s s1 := .ite h.sdfEvent h
  have hs2 : Kept s s2 := .ite hs1.sdfEvent hs1
  have hs3 : Kept s s3 := .ite hs2.trip hs2
  have hs5 : Kept s s5 := hs3.sdfMains.setSdf
  exact .ite hs5.present hs5

theorem Kept.sdfValue {n sum} (h : Kept s t) : Kept s (t.sdfValue n sum).2 :=
  .ite_snd h h.fresh

theorem execSdResult_completes {n sum} (h : Kept s t) : Completes s (execSdResult n sum t) :=
  .ite (.ite (.next h.sdfValue.wr.setSdf) (.next h.sdfValue.wr.setSdf.wb.sdfValid)) (.next h)

theorem execClkLoss_completes {n} (h : Kept s t) : Completes s (execClkLoss n t) :=
  .ite (.next (.foldl (.ite h.setSdf.sdfFlag.wb.trip h.setSdf.sdfFlag.wb) fun _ _ h1 => h1.mainsLost)) (.next h)

theorem Kept.writeSdfSetup {n a v} (h : Kept s t) : Kept s (t.writeSdfSetup n a v) :=
  .foldl (.ite h.storeReg.setSdf.wb h.storeReg) fun _ _ h1 => h1.driveChanged

theorem Kept.writeSdfPt {n who v} (h : Kept s t) : Kept s (t.writeSdfPt n who v) :=
  h.storeReg.wf

theorem Kept.setCtr {n x} (h : Kept s t) : Kept s (t.setCtr n x) :=
  h.other

theorem Kept.ctrWrap {n} (h : Kept s t) : Kept s (t.ctrWrap n) := by
  unfold State.ctrWrap
  extract_lets _ _ s2 s3
  have hs2 : Kept s s2 := .ite h.wb.source h.wb
  have hs3 : Kept s s3 := .ite hs2.send hs2
  exact .ite hs3.send hs3

theorem execCtrTick_completes {n} (h : Kept s t) : Completes s (execCtrTick n t) :=
  .ite (.ite (.next h.wr.ctrWrap) (.next h.wr)) (.next h)

theorem Kept.ctrRun {n} (h : Kept s t) : Kept s (t.ctrRun n) :=
  .ite h h.wb.setCtr

theorem Kept.ctrAct {n act} (h : Kept s t) : Kept s (t.ctrAct n act) :=
  .ite (.ctrRun (.ite h.wr h)) (.ite h.wr h)

theorem execLinkedCounterAction_completes {n act} (h : Kept s t) : Completes s (execLinkedCounterAction n act t) :=
  .next h.ctrAct.setCtr

theorem Kept.writeCtr {n a v} (h : Kept s t) : Kept s (t.writeCtr n a v) := by
  unfold State.writeCtr
  extract_lets _ _ _ s2
  have hs2 : Kept s s2 := .ite h.storeReg.setCtr h.storeReg
  split
  · exact .ite hs2.ctrAct hs2
  · exact hs2

/-! ### What the operations of Machine/PhaseCore.lean keep -/

theorem Kept.setPcore {n x} (h : Kept s t) : Kept s (t.setPcore n x) :=
  h.other

theorem Kept.setPreg {n r v} (h : Kept s t) : Kept s (t.setPreg n r v) :=
  h.setPcore

theorem Kept.setPpair {n r v} (h : Kept s t) : Kept s (t.setPpair n r v) :=
  h.setPreg.setPreg

theorem Kept.setPacc {n a v} (h : Kept s t) : Kept s (t.setPacc n a v) :=
  h.setPcore

theorem Kept.setPcState {n st} (h : Kept s t) : Kept s (t.setPcState n st) :=
  h.setPcore.wf

theorem Kept.commitMode {n} (h : Kept s t) : Kept s (t.commitMode n) := by
  unfold State.commitMode
  dsimp only
  split
  · exact h.setPcore
  · exact h

theorem Kept.pcFault {n cause addr phys} (h : Kept s t) : Kept s (t.pcFault n cause addr phys) := by
  unfold State.pcFault
  extract_lets s1 _ _ s3 s4
  have hs1 : Kept s s1 := h.commitMode.setPcState
  have hs3 : Kept s s3 := hs1.setPcore.wr.wr
  have hs4 : Kept s s4 := .ite hs3.log hs3
  exact .ite hs4.source hs4

theorem Kept.abandon {n} (h : Kept s t) : Kept s (t.abandon n) := by
  unfold State.abandon
  dsimp only
  split
  · exact .ite h.setPcore.setPreg h.setPcore
  · exact h.setPcore

theorem Kept.pcStopNow {n} (h : Kept s t) : Kept s (t.pcStopNow n) := by
  unfold State.pcStopNow
  extract_lets _ s1
  have hs1 : Kept s s1 := h.abandon.commitMode.setPcState
  split
  · exact hs1.setPcore.wb.wf
  · exact hs1.setPcore

theorem Kept.pcStop {n} (h : Kept s t) : Kept s (t.pcStop n) :=
  .ite (.ite h.after h.pcStopNow) h

theorem Kept.pcHaltDue {n} (h : Kept s t) : Kept s (t.pcHaltDue n) :=
  .ite h.pcStopNow h

theorem Kept.preempt {n} (h : Kept s t) : Kept s (t.preempt n) :=
  h.abandon.commitMode.setPcore.wr.wb.setPcState

theorem execPreemptionEntry_completes {pc} (h : Kept s t) : Completes s (execPreemptionEntry pc t) :=
  .ite (.next h.preempt) (.next h)

theorem Kept.testPreempt {n} (h : Kept s t) : Kept s (t.testPreempt n) :=
  .ite (.ite h.send h.preempt) h

theorem Kept.enterEvent {n input source gt} (h : Kept s t) : Kept s (t.enterEvent n input source gt) := by
  unfold State.enterEvent
  dsimp only
  split
  · exact h.setPcore
  · exact h.setPcore.wb.wf.setPcore.after

theorem Kept.unshed {n input} (h : Kept s t) : Kept s (t.unshed n input) := by
  unfold State.unshed
  split
  · exact h
  · exact h.setPcore.wf.wb

theorem Kept.shedOver {n} (h : Kept s t) : Kept s (t.shedOver n) :=
  .ite h.setPcore.source h.setPcore

theorem Kept.rouse {n} (h : Kept s t) : Kept s (t.rouse n) := by
  unfold State.rouse
  dsimp only
  split
  · exact .ite h.setPcore.send h
  · exact h

theorem execTaskEvent_completes {pc input source instant} (h : Kept s t) : Completes s (execTaskEvent pc input source instant t) :=
  .next (.rouse (.ite h.enterEvent.testPreempt h.enterEvent))

theorem Kept.popEvent {n input rd} (h : Kept s t) : Kept s (t.popEvent n input rd) := by
  unfold State.popEvent
  dsimp only
  split
  · exact h
  · exact h.setPcore.unshed.setPreg.wr

theorem Kept.pcEnd {n count pc lcnt f} (h : Kept s t) : Kept s (t.pcEnd n count pc lcnt f) := by
  unfold State.pcEnd
  extract_lets _ _ _ s2
  have hs2 : Kept s s2 := .ite h.setPcore.after h.setPcore
  exact .ite hs2.send hs2

theorem Kept.pcDone {n count jump} (h : Kept s t) : Kept s (t.pcDone n count jump) :=
  h.pcEnd

theorem execWaitevWake_completes {pc} (h : Kept s t) : Completes s (execWaitevWake pc t) := by
  unfold execWaitevWake
  dsimp only
  split
  · split
    · exact .ite (.next h.setPcore.popEvent.setPcState.pcDone) (.next h)
    · exact .next h
  · exact .next h

theorem Kept.pcStart {n} (h : Kept s t) : Kept s (t.pcStart n) := by
  unfold State.pcStart
  extract_lets _ _ s2
  have hs2 : Kept s s2 := h.wr.wb.setPcore
  exact .setPcState (.ite hs2.wb hs2)

theorem Kept.clearPcc {n} (h : Kept s t) : Kept s (t.clearPcc n) :=
  h.filterRegs

theorem Kept.pcReset {n} (h : Kept s t) : Kept s (t.pcReset n) :=
  h.clearPcc.setPcore.filterAgenda

theorem Kept.tmodeWritten {n flat} (h : Kept s t) : Kept s (t.tmodeWritten n flat) :=
  .ite h.setPcore h.setPcore

theorem Kept.writePccCtrl {n v} (h : Kept s t) : Kept s (t.writePccCtrl n v) := by
  unfold State.writePccCtrl
  refine .ite h.pcReset ?_
  refine .ite ?_ ?_
  · refine .ite (.ite h.storeReg.tmodeWritten h.storeReg) ?_
    exact .ite (.pcStart (.ite h.storeReg.tmodeWritten h.storeReg)) (.setPcore (.ite h.storeReg.tmodeWritten h.storeReg))
  · exact .ite (.pcStop (.setPcore (.ite h.storeReg.tmodeWritten h.storeReg))) (.ite h.storeReg.tmodeWritten h.storeReg)

theorem execRunStart_completes {pc _who} (h : Kept s t) : Completes s (execRunStart pc _who t) :=
  .next h.writePccCtrl

theorem execRunStop_completes {pc _who} (h : Kept s t) : Completes s (execRunStop pc _who t) :=
  .next h.writePccCtrl

theorem execCoreRst_completes {pc _who} (h : Kept s t) : Completes s (execCoreRst pc _who t) :=
  .next h.writePccCtrl

theorem execTmode_completes {pc _who mode} (h : Kept s t) : Completes s (execTmode pc _who mode t) :=
  .next h.writePccCtrl

theorem Kept.postEvent {n input} (h : Kept s t) : Kept s (t.postEvent n input) :=
  h.send

theorem execPccEvPost_completes {pc _who input} (h : Kept s t) : Completes s (execPccEvPost pc _who input t) :=
  .next h.postEvent

theorem Kept.writeGuarded {n who r v} (h : Kept s t) : Kept s (t.writeGuarded n who r v) :=
  .ite h.wb (.ite h h.storeReg)

theorem execPccEid_completes {pc who reg value} (h : Kept s t) : Completes s (execPccEid pc who reg value t) :=
  .next h.writeGuarded

theorem Kept.writePcc {n who a v} (h : Kept s t) : Kept s (t.writePcc n who a v) := by
  unfold State.writePcc
  refine .ite h.writePccCtrl (.ite h.writeGuarded ?_)
  exact .ite h.writeGuarded (.ite h.postEvent (.ite (.ite h.storeReg.wf h.storeReg.testPreempt) h.storeReg))

theorem Kept.writeLocal {n off bytes v} (h : Kept s t) : Kept s (t.writeLocal n off bytes v) :=
  h.setBytes.foldl fun _ _ h1 => .ite h1.setPoison h1

theorem Kept.outsideLocal {n off bytes store} (h : Kept s t) : Kept s (t.outsideLocal n off bytes store).2 := by
  unfold State.outsideLocal
  split
  · exact h.log
  · split
    · exact h.writeLocal
    · exact h

theorem execLocalMemoryAccess_completes {pc _who offset size store} (h : Kept s t) :
    Completes s (execLocalMemoryAccess pc _who offset size store t) := by
  unfold execLocalMemoryAccess
  dsimp only
  split
  · exact .next (.ite h.outsideLocal.other h.outsideLocal)
  · exact .next h.outsideLocal

theorem Kept.pushPost {n e} (h : Kept s t) : Kept s (t.pushPost n e) :=
  h.setPcore.send

theorem Kept.popPost {n} (h : Kept s t) : Kept s (t.popPost n) := by
  unfold State.popPost
  extract_lets _ _ s2
  have hs2 : Kept s s2 := .ite h.setPcore h.setPcore.send
  split
  · exact hs2.pushPost.pcDone
  · exact hs2

theorem execPostQueueDrain_completes {pc} (h : Kept s t) : Completes s (execPostQueueDrain pc t) := by
  unfold execPostQueueDrain
  dsimp only
  split
  · exact .next h
  · exact .ite (.next h) (.ite (.next h.setPcore.present) (.next h.popPost.send))

theorem Kept.postGranted {n pt} (h : Kept s t) : Kept s (t.postGranted n pt) :=
  .ite h.popPost h

theorem Kept.pcDeliver {n bytes d v} (h : Kept s t) : Kept s (t.pcDeliver n bytes d v) := by
  unfold State.pcDeliver
  split
  · exact h.setPreg
  · exact h.setPpair
  · exact h.setPacc

theorem Kept.pcPoint {n r} (h : Kept s t) : Kept s (t.pcPoint n r) := by
  unfold State.pcPoint
  split
  · split
    · exact h.pcDeliver.pcDone
    · exact h.pcFault
    · exact h.pcFault
  · exact h

theorem Kept.pcWindow {n line r} (h : Kept s t) : Kept s (t.pcWindow n line r) := by
  unfold State.pcWindow
  split
  · split
    · exact .ite h.pcFault h.pcFault
    · refine .ite ?_ h.setPcore
      split
      · exact h.pcDone
      · exact h.pcDeliver.pcDone
  · exact h

/-! ### What the operations of Machine/Router.lean keep -/

theorem Kept.deliver {n} (h : Kept s t) : Kept s (t.deliver n) :=
  .ite h (.ite h.wb (.ite h (.ite h.send h.wb.after)))

theorem execInterruptSourceEvent_completes {n} (h : Kept s t) : Completes s (execInterruptSourceEvent n t) :=
  .next h.source

theorem execInterruptDelivery_completes {n} (h : Kept s t) : Completes s (execInterruptDelivery n t) :=
  .next h.deliver

theorem Kept.post {n} (h : Kept s t) : Kept s (t.post n) :=
  .ite h.wb.other.send h

theorem execInterruptPost_completes {n} (h : Kept s t) : Completes s (execInterruptPost n t) :=
  .next h.post

theorem execPostRetry_completes {n} (h : Kept s t) : Completes s (execPostRetry n t) :=
  .next h.post

theorem Kept.postAnswer {a st prior} (h : Kept s t) : Kept s (t.postAnswer a st prior) := by
  unfold State.postAnswer
  split
  · exact h
  · exact .ite h.other.wb (.ite (.ite h.other.send h.other) h.other.wb.send)

theorem Kept.writeThrough {a bytes writer} (h : Kept s t) : Kept s (t.writeThrough a bytes writer) := by
  unfold State.writeThrough
  refine h.setBytes.losesReservation.foldl fun _ _ h1 => (.other ?_)
  split
  · exact h1.setHome
  · exact h1

theorem Kept.absorbRecord {c a} (h : Kept s t) : Kept s (t.absorbRecord c a) :=
  .writeThrough (h.foldl fun _ _ h1 => h1.pend)

theorem execBell_completes {c record vector} (h : Kept s t) : Completes s (execBell c record vector t) :=
  .ite (.next h.absorbRecord) (.next h.pend)

theorem Kept.writeSrc {n who record v} (h : Kept s t) : Kept s (t.writeSrc n who record v) :=
  .ite h.log (.ite h.storeReg.dispatch h.storeReg)

theorem execIrtSrcCfg_completes {n who record value} (h : Kept s t) : Completes s (execIrtSrcCfg n who record value t) :=
  .next h.writeSrc

theorem Kept.swgen {g v} (h : Kept s t) : Kept s (t.swgen g v) :=
  h.source

theorem execIrtSwgen_completes {page _who value} (h : Kept s t) : Completes s (execIrtSwgen page _who value t) :=
  .next h.swgen

theorem Kept.retrySources (h : Kept s t) : Kept s t.retrySources :=
  h.foldl fun _ _ h1 => .ite h1.dispatch h1

/-! ### What the operations of Machine/QueueBase.lean keep -/

theorem Kept.setQueueCtx {q x} (h : Kept s t) : Kept s (t.setQueueCtx q x) :=
  h.other

theorem Kept.setQe {e x} (h : Kept s t) : Kept s (t.setQe e x) :=
  h.other.wf.wf

theorem Kept.setChan {e k c} (h : Kept s t) : Kept s (t.setChan e k c) :=
  h.setQe

theorem Kept.setQState {q st} (h : Kept s t) : Kept s (t.setQState q st) :=
  h.wf

theorem Kept.qSettle {q} (h : Kept s t) : Kept s (t.qSettle q) :=
  .ite h.setQState h

theorem Kept.qRaise {q} (h : Kept s t) : Kept s (t.qRaise q) := by
  unfold State.qRaise
  split
  · exact .ite h h.source
  · exact h

theorem Kept.kickQe {e} (h : Kept s t) : Kept s (t.kickQe e) :=
  .ite h h.send

theorem Kept.armScan {e} (h : Kept s t) : Kept s (t.armScan e) :=
  .ite h h.send

theorem Kept.enterWork {q stamp} (h : Kept s t) : Kept s (t.enterWork q stamp) :=
  .ite h.setQe.tally.kickQe (.ite h.setQe.wb.wb.tally.armScan.kickQe h.setQe.kickQe)

theorem Kept.rejectDoorbell {q} (h : Kept s t) : Kept s (t.rejectDoorbell q) :=
  .ite h.count h.count.wb

theorem Kept.applyDoorbell {q v stamp} (h : Kept s t) : Kept s (t.applyDoorbell q v stamp) :=
  .ite h (.ite h.rejectDoorbell (.ite h.wf.tally.qSettle h.wf.tally.qSettle.enterWork))

theorem Kept.doorbell {q who v stamp} (h : Kept s t) : Kept s (t.doorbell q who v stamp).2 := by
  unfold State.doorbell
  refine .ite_snd ?_ h.applyDoorbell
  split
  · exact h.wb
  · exact h.wb
  · exact h

theorem Kept.qeReadTable {eid level a} (h : Kept s t) : Kept s (qeReadTable eid t level a).2 :=
  .ite_snd h (.ite_snd h (.ite_snd h h))

theorem Kept.qeEntry {e v ipa} (h : Kept s t) : Kept s (t.qeEntry e v ipa).2 := by
  unfold State.qeEntry
  dsimp only
  split
  · exact h
  · split
    · exact ((h.walk fun _ _ _ h1 => h1.qeReadTable).out ‹_›).setQe
    · exact (h.walk fun _ _ _ h1 => h1.qeReadTable).out ‹_›

theorem Kept.qeRange {e v write fuel ipa left} (h : Kept s t) : Kept s (t.qeRange e v write fuel ipa left).2 := by
  induction fuel generalizing t ipa left with
  | zero => exact h
  | succ fuel ih =>
    unfold State.qeRange
    refine .ite_snd h (.ite_snd h ?_)
    split
    · exact h.qeEntry.out ‹_›
    · refine .ite_snd (h.qeEntry.out ‹_›) ?_
      dsimp only
      split <;> exact (ih (h.qeEntry.out ‹_›)).out ‹_›

theorem Kept.pushCompletion {q} (h : Kept s t) : Kept s (t.pushCompletion q) := by
  unfold State.pushCompletion
  dsimp only
  split
  · exact .ite h.setQueueCtx.present h
  · exact h

theorem Kept.descrDone {q index status len} (h : Kept s t) : Kept s (t.descrDone q index status len) :=
  h.setQueueCtx.pushCompletion

theorem execCompletionReturn_completes {q gen index status length} (h : Kept s t) :
    Completes s (execCompletionReturn q gen index status length t) :=
  .ite (.next h.descrDone) (.next h.count)

/-! ### What the operations of Machine/Net.lean keep -/

theorem Kept.setNport {p x} (h : Kept s t) : Kept s (t.setNport p x) :=
  h.other

theorem Kept.setFrame {id f} (h : Kept s t) : Kept s (t.setFrame id f) :=
  h.other

theorem Kept.portIrq {p bit} (h : Kept s t) : Kept s (t.portIrq p bit) :=
  .ite h.wb.source h.wb

theorem Kept.bufDrop {p} (h : Kept s t) : Kept s (t.bufDrop p) :=
  h.tally.portIrq

theorem Kept.setStream {n x} (h : Kept s t) : Kept s (t.setStream n x) :=
  h.other

theorem Kept.streamRules {f} (h : Kept s t) : Kept s (t.streamRules f).2 := by
  rw [State.streamRules]
  split
  · exact h
  · extract_lets cfg x drop
    have hd : ∀ y, Kept s (drop t y).2 := fun _ => h.setStream.count
    clear_value cfg x drop
    split
    refine .ite_snd (hd _) (.ite_snd ?_ h.setStream)
    split
    exact .ite_snd (hd _) h.setStream

theorem Kept.netShow (h : Kept s t) : Kept s t.netShow :=
  h.wf

theorem Kept.admitCells {e t' claim} (h : Kept s t) : Kept s (t.admitCells e t' claim).2 :=
  .ite_snd h (.ite_snd h.wb.source h)

theorem Kept.claimCells {p claim n l} (h : Kept s t) : Kept s (t.claimCells p claim n l).2 := by
  induction l generalizing t with
  | nil => exact h
  | cons e l ih => exact .ite_snd (ih h.admitCells) (ih h.admitCells.bufDrop)

theorem Kept.releaseFrame {id} (h : Kept s t) : Kept s (t.releaseFrame id) := by
  unfold State.releaseFrame
  split
  · exact .ite h.setFrame.netShow h
  · exact h

theorem Kept.kickPort {p ns} (h : Kept s t) : Kept s (t.kickPort p ns) :=
  .ite h.send h

theorem Kept.txReturn {o status} (h : Kept s t) : Kept s (t.txReturn o status) := by
  unfold State.txReturn
  split
  · exact h.send
  · exact h

theorem execFrameReceive_completes {p frame} (h : Kept s t) : Completes s (execFrameReceive p frame t) := by
  unfold execFrameReceive
  refine .ite (.next h) (.next ?_)
  refine .netShow ?_
  refine .foldl ?_ fun _ _ h1 => ?_
  · refine .setNport (.setFrame ?_)
    refine .other ?_
    split
    · exact .claimCells (.ite (.bufDrop (.ite_snd h h.streamRules)) (.ite_snd h h.streamRules))
    · exact .ite (.bufDrop (.ite_snd h h.streamRules)) (.ite_snd h h.streamRules)
  · exact h1.kickPort.send

theorem Kept.toHost {p t' f} (h : Kept s t) : Kept s (t.toHost p t' f) :=
  .ite h.bufDrop (.ite h.wb.bufDrop h.setQe.kickQe)

theorem Kept.endBad {p id f} (h : Kept s t) : Kept s (t.endBad p id f) := by
  unfold State.endBad
  refine .releaseFrame (h.tally.setFrame.foldl fun _ _ h1 => ?_)
  dsimp only
  split
  · exact h1.setNport
  · exact h1

theorem execFrameEnd_completes {p good} (h : Kept s t) : Completes s (execFrameEnd p good t) := by
  unfold execFrameEnd
  dsimp only
  split
  · exact .next h
  · split
    · exact .next h.setNport
    · refine .ite (.next h.setNport.endBad.netShow) (.next ?_)
      refine .netShow (.releaseFrame ?_)
      refine .foldl ?_ fun _ _ h1 => ?_
      · refine .ite ?_ (.ite h.setNport.tally.other.setFrame.toHost h.setNport.tally.other.setFrame)
        exact .send (.ite h.setNport.tally.other.setFrame.toHost h.setNport.tally.other.setFrame)
      · exact h1.kickPort

theorem Kept.armGate {p} (h : Kept s t) : Kept s (t.armGate p) :=
  .ite h h.send

theorem execGclEntry_completes {p} (h : Kept s t) : Completes s (execGclEntry p t) :=
  .next h.kickPort

theorem Kept.swap {p} (h : Kept s t) : Kept s (t.swap p) :=
  .ite h h.wb.setNport.send

theorem execSwap_completes {p _who} (h : Kept s t) : Completes s (execSwap p _who t) :=
  .next h.swap

theorem execSwapTake_completes {p} (h : Kept s t) : Completes s (execSwapTake p t) :=
  .ite (.next h) (.ite (.next h.send) (.next h.setNport.wb.wb.kickPort))

theorem Kept.finishTx {p} (h : Kept s t) : Kept s (t.finishTx p) := by
  unfold State.finishTx
  dsimp only
  split
  · split
    · exact .ite h (.txReturn (.releaseFrame (.setFrame (.ite h.setNport.tally h.setNport.tally))))
    · exact h.setNport
  · exact h

theorem execFrameTransmit_completes {p bad} (h : Kept s t) : Completes s (execFrameTransmit p bad t) := by
  unfold execFrameTransmit
  dsimp only
  split
  · exact .next h.finishTx.send
  · refine .ite (.next h.finishTx) ?_
    split
    · exact .next (.ite h.finishTx.armGate h.finishTx)
    · exact .ite (.next h.finishTx.setFrame.tally.releaseFrame.txReturn) (.next h.finishTx.setFrame.setNport.send)

theorem Kept.rearmAges (h : Kept s t) : Kept s t.rearmAges :=
  h.foldl fun _ _ h1 => h1.foldl fun _ _ h2 => h2.send

theorem execFrameAge_completes {p} (h : Kept s t) : Completes s (execFrameAge p t) :=
  .next (h.foldl fun _ _ h1 => h1.setFrame.tally.releaseFrame.txReturn)

theorem Kept.joinEgress {p t' bytes o} (h : Kept s t) : Kept s (t.joinEgress p t' bytes o) := by
  unfold State.joinEgress
  extract_lets body cells
  split
  next dests s1 hs1 =>
  have h1 : Kept s s1 := h.claimCells.out hs1
  exact .ite h1.txReturn h1.other.setFrame.netShow.kickPort.send

theorem Kept.handOver {p t' bytes o} (h : Kept s t) : Kept s (t.handOver p t' bytes o) :=
  .ite h.txReturn (.ite (.ite h.other.send h.txReturn) h.joinEgress)

theorem Kept.releaseGated {q ok} (h : Kept s t) : Kept s (t.releaseGated q ok) := by
  unfold State.releaseGated
  split
  · exact .ite h.other.joinEgress h.other.txReturn
  · exact h

theorem Kept.armSync {p} (h : Kept s t) : Kept s (t.armSync p) :=
  .ite h.send h

theorem execSyncSend_completes {p} (h : Kept s t) : Completes s (execSyncSend p t) :=
  .ite (.next h.setNport.armSync) (.next h.armSync)

theorem execPdelayReq_completes {p frame instant} (h : Kept s t) : Completes s (execPdelayReq p frame instant t) :=
  .ite (.next h.setNport) (.next h)

theorem Kept.linkChange {p up} (h : Kept s t) : Kept s (t.linkChange p up) := by
  unfold State.linkChange
  refine .ite h (.ite h.wb.wb.portIrq.kickPort.armSync ?_)
  split
  · split
    · exact h.wb.wb.portIrq.setNport.endBad.netShow
    · exact h.wb.wb.portIrq
  · exact h.wb.wb.portIrq

theorem execLinkChg_completes {p up} (h : Kept s t) : Completes s (execLinkChg p up t) :=
  .next h.linkChange

theorem Kept.writePort {p a v} (h : Kept s t) : Kept s (t.writePort p a v) := by
  unfold State.writePort
  refine .ite (.ite h.storeReg.kickPort.swap h.storeReg.kickPort) ?_
  exact .ite h.portIrq (.ite (.armSync (.ite h.storeReg.linkChange h.storeReg)) (.ite h.storeReg.kickPort h.storeReg))

theorem Kept.netStepped (h : Kept s t) : Kept s t.netStepped :=
  h.foldl fun _ _ h1 => h1.kickPort.send

/-! ### What the operations of Machine/Points.lean keep -/

theorem Kept.setPoint {n p} (h : Kept s t) : Kept s (t.setPoint n p) :=
  h.other

theorem Kept.ptIrq {bit} (h : Kept s t) : Kept s (t.ptIrq bit) :=
  .ite h.wb.source h.wb

theorem Kept.ptReject (h : Kept s t) : Kept s t.ptReject :=
  h.count.ptIrq

theorem Kept.armSweep (h : Kept s t) : Kept s t.armSweep :=
  .ite h h.send

theorem Kept.updatePoint {n path eid value stamp} (h : Kept s t) : Kept s (t.updatePoint n path eid value stamp).2 := by
  unfold State.updatePoint
  refine .ite_snd h.count ?_
  split
  · exact h
  · exact .ite_snd h.count h.setPoint.armSweep

theorem Kept.readPoint {n path eid status} (h : Kept s t) : Kept s (t.readPoint n path eid status).2 :=
  .ite_snd h (.ite_snd h.log (.ite_snd h h))

theorem Kept.pointBad {n bad} (h : Kept s t) : Kept s (t.pointBad n bad) :=
  .ite h.setPoint h

theorem Kept.pointRead {n who status} (h : Kept s t) : Kept s (t.pointRead n who status) := by
  unfold State.pointRead
  dsimp only
  split
  · exact h.readPoint.pcPoint
  · exact h.readPoint.other
  · exact h.readPoint

theorem Kept.pointWrite {n who v stamp} (h : Kept s t) : Kept s (t.pointWrite n who v stamp) := by
  unfold State.pointWrite
  dsimp only
  split
  · exact h.updatePoint.wb
  · exact h.updatePoint.ptReject
  · exact h.updatePoint

theorem Kept.applyRecord {n v stamp node} (h : Kept s t) : Kept s (t.applyRecord n v stamp node) :=
  .ite h.updatePoint.ptReject h.updatePoint

theorem execPointUpdate_completes {pt value stamp node} (h : Kept s t) : Completes s (execPointUpdate pt value stamp node t) :=
  .next h.present

theorem execStaleSweep_completes (h : Kept s t) : Completes s (execStaleSweep t) :=
  .next (.armSweep (h.foldl fun _ _ h1 => .ite h1.setPoint.count.wr.ptIrq h1))

theorem Kept.assignPoint {n} (h : Kept s t) : Kept s (t.assignPoint n) :=
  .setPoint (.ite h.wr h)

theorem Kept.presentAssign {n left port st} (h : Kept s t) : Kept s (t.presentAssign n left port st) :=
  h.present

theorem Kept.assigned {n left port st} (h : Kept s t) : Kept s (t.assigned n left port st) :=
  .ite h.assignPoint.wb (.ite h.assignPoint h.assignPoint.presentAssign)

theorem Kept.forced {n v} (h : Kept s t) : Kept s (t.forced n v) := by
  unfold State.forced
  dsimp only
  split
  · exact .setPoint (.ite h h.wr)
  · exact .ite h.wr.setPoint.armSweep h

theorem Kept.writePt {who a v} (h : Kept s t) : Kept s (t.writePt who a v) := by
  unfold State.writePt
  refine .ite h.log (.ite h.ptIrq ?_)
  refine .ite (.ite (h.wb.foldl fun _ _ h1 => h1.presentAssign) h) ?_
  exact .ite (.ite (.present (.ite h.present h)) (.ite h.present h)) h.storeReg

theorem execGo_completes {who} (h : Kept s t) : Completes s (execGo who t) :=
  .next h.writePt

theorem execSet_completes {who} (h : Kept s t) : Completes s (execSet who t) :=
  .next h.writePt

theorem execClear_completes {who} (h : Kept s t) : Completes s (execClear who t) :=
  .next h.writePt

/-! ### What the operations of Machine/Dinath.lean keep -/

theorem Kept.dinCount {reg bit} (h : Kept s t) : Kept s (t.dinCount reg bit) :=
  h.count.wb.source

theorem Kept.sendRecords {f k count src sfd} (h : Kept s t) : Kept s (t.sendRecords f k count src sfd) :=
  h.foldl fun _ _ h1 => h1.send

theorem Kept.sendPositions {f k count src sfd} (h : Kept s t) : Kept s (t.sendPositions f k count src sfd) :=
  h.foldl fun _ _ h1 => h1.send

theorem execDinathReceive_completes {p frame instant} (h : Kept s t) : Completes s (execDinathReceive p frame instant t) := by
  unfold execDinathReceive
  split
  · exact .next h
  · refine .ite (.next h.other) (.ite (.next h.other.dinCount) (.ite (.next h.other.dinCount) ?_))
    exact .ite (.next h.other.other.sendRecords) (.ite (.next h.other.other.sendPositions)
      (.ite (.next h.other.other.send) (.next h.other.count)))

theorem execPosition_completes {node stream value instant} (h : Kept s t) :
    Completes s (execPosition node stream value instant t) :=
  .next (h.foldl fun _ _ h1 => h1.streamUpdate)

/-! ### What the operations of Machine/Enclave.lean keep -/

theorem Kept.editEnc {f} (h : Kept s t) : Kept s (t.editEnc f) :=
  h.other

theorem Kept.walkOn (h : Kept s t) : Kept s t.walkOn := by
  unfold State.walkOn
  refine .editEnc (h.editEnc.foldl fun _ _ h1 => ?_)
  dsimp only
  split
  · exact .ite h1 h1.removeEntry
  · exact h1

theorem Kept.ertCommit (h : Kept s t) : Kept s t.ertCommit := by
  unfold State.ertCommit
  refine .ite h.wb ?_
  dsimp only
  split
  · exact h.wb.wf.wf.wf
  · exact h.other.wb.editEnc.walkOn.send

theorem execErtCommit_completes {_c who} (h : Kept s t) : Completes s (execErtCommit _c who t) :=
  .next (.ite h.ertCommit h)

theorem execCommitEnd_completes (h : Kept s t) : Completes s (execCommitEnd t) :=
  .ite (.ite (.next h.walkOn.wb) (.next h.walkOn.send)) (.next h)

theorem Kept.flushCore {c} (h : Kept s t) : Kept s (t.flushCore c) :=
  h.setCore.foldl fun _ _ h1 => h1.send

theorem Kept.purge {c} (h : Kept s t) : Kept s (t.purge c) :=
  .ite h h.wb.flushCore.send

theorem execPurge_completes {c who} (h : Kept s t) : Completes s (execPurge c who t) :=
  .next (.ite h.purge h)

theorem Kept.purgeAnswer {w} (h : Kept s t) : Kept s (t.purgeAnswer w) := by
  unfold State.purgeAnswer
  split
  · exact h.popStore
  · exact h

theorem execPurgeDone_completes {c} (h : Kept s t) : Completes s (execPurgeDone c t) := by
  unfold execPurgeDone
  refine .ite (.next h) ?_
  exact .ite (.next (.recognise (.kickDrain (h.wb.editEnc.foldl fun _ _ h1 => h1.purgeAnswer)))) (.next h.flushCore.send)

theorem Kept.derive {c eid} (h : Kept s t) : Kept s (t.derive c eid) :=
  .ite h h.editEnc.send

theorem execDerive_completes {c who} (h : Kept s t) : Completes s (execDerive c who t) :=
  .next (.ite h.derive h)

theorem execReady_completes {c} (h : Kept s t) : Completes s (execReady c t) := by
  unfold execReady
  split
  · exact .next (.editEnc (.wb (.wf (h.foldl fun _ _ h1 => h1.wr))))
  · exact .next h

theorem Kept.clearKeys {c} (h : Kept s t) : Kept s (t.clearKeys c) := by
  unfold State.clearKeys
  exact .editEnc (.wb (h.foldl fun _ _ h1 => h1.wr))

theorem execKeyClear_completes {c who} (h : Kept s t) : Completes s (execKeyClear c who t) :=
  .next (.ite h.clearKeys h)

theorem Kept.clearAllKeys (h : Kept s t) : Kept s t.clearAllKeys :=
  h.foldl fun _ _ h1 => h1.clearKeys

theorem Kept.endScan (h : Kept s t) : Kept s t.endScan :=
  .ite h.other h

theorem Kept.closeDebug (h : Kept s t) : Kept s t.closeDebug :=
  h.filterRegs.other.editEnc.clearAllKeys.endScan

theorem Kept.writeEnc {who a v} (h : Kept s t) : Kept s (t.writeEnc who a v) := by
  unfold State.writeEnc
  refine .ite (.ite (.purge (.ite h.ertCommit h)) (.ite h.ertCommit h)) ?_
  exact .ite h.storeReg (.ite (.ite (.clearKeys (.ite h.derive h)) (.ite h.derive h)) h.storeReg)

/-! ### What the operations of Machine/Pair.lean keep -/

theorem Kept.editPair {f} (h : Kept s t) : Kept s (t.editPair f) :=
  h.other

theorem Kept.pairIrq {bit} (h : Kept s t) : Kept s (t.pairIrq bit) :=
  .ite h.wb.source h.wb

theorem Kept.setPairLink {v} (h : Kept s t) : Kept s (t.setPairLink v) :=
  .ite h h.wf.pairIrq

theorem Kept.setAligned {b} (h : Kept s t) : Kept s (t.setAligned b) :=
  .ite h h.wb.pairIrq

theorem Kept.gateShow (h : Kept s t) : Kept s t.gateShow :=
  h.wf.wf

theorem Kept.gateClose (h : Kept s t) : Kept s t.gateClose :=
  .gateShow (.wb (.editPair (h.foldl fun _ _ h1 => h1.releaseGated)))

theorem Kept.setModes {f} (h : Kept s t) : Kept s (setModes t f) :=
  h.other

theorem Kept.askWake {target cause} (h : Kept s t) : Kept s (t.askWake target cause) := by
  unfold State.askWake
  split
  · exact .ite h.setModes h
  · exact h.setModes.after

theorem Kept.signalSafeHold (h : Kept s t) : Kept s t.signalSafeHold :=
  h.foldl fun _ _ h1 => .ite h1.send h1

theorem Kept.safeHold {cause} (h : Kept s t) : Kept s (t.safeHold cause) := by
  unfold State.safeHold
  refine .ite h.allPinsSafe.setModes.askWake ?_
  exact .ite (.signalSafeHold (.enterMode (.allPinsSafe (.setModes (.ite h.gateClose h))))) h

theorem Kept.gateFault {kind item} (h : Kept s t) : Kept s (t.gateFault kind item) := by
  unfold State.gateFault
  exact .safeHold (.gateClose (.log (.pairIrq (.ite h h.wf.wr.wr))))

theorem Kept.releaseItem {i} (h : Kept s t) : Kept s (t.releaseItem i) :=
  .ite h.tally.releaseGated h.tally.pinArrive

theorem Kept.releaseReady {fuel} (h : Kept s t) : Kept s (State.releaseReady fuel t) := by
  induction fuel generalizing t with
  | zero => exact h
  | succ fuel ih =>
    unfold State.releaseReady
    split
    · exact h
    · exact ih h.editPair.releaseItem

theorem Kept.pairMet {mine theirs} (h : Kept s t) : Kept s (t.pairMet mine theirs) := by
  unfold State.pairMet
  extract_lets s1
  have hs1 : Kept s s1 := h.editPair.gateShow
  exact .ite hs1.editPair.releaseReady hs1.gateFault

theorem Kept.armGateTimeout {subGt} (h : Kept s t) : Kept s (t.armGateTimeout subGt) :=
  h.send

theorem execGateSubmit_completes {item} (h : Kept s t) : Completes s (execGateSubmit item t) := by
  unfold execGateSubmit
  refine .ite (.next (.ite h.releaseGated h.wb)) (.ite (.next h.gateFault) ?_)
  dsimp only
  split
  · exact .next h.editPair.gateShow.present.armGateTimeout.pairMet
  · exact .next h.editPair.gateShow.present.armGateTimeout

theorem execGatePeerItem_completes {item} (h : Kept s t) : Completes s (execGatePeerItem item t) := by
  unfold execGatePeerItem
  refine .ite (.next h) ?_
  split
  · exact .next h.pairMet
  · exact .ite (.next h.gateFault) (.next h.editPair.gateShow.armGateTimeout)

theorem execGateTimeout_completes (h : Kept s t) : Completes s (execGateTimeout t) := by
  unfold execGateTimeout
  split
  · exact .ite (.next h.gateFault) (.next h)
  · split
    · exact .next h
    · exact .next h.armGateTimeout

theorem Kept.pairDown (h : Kept s t) : Kept s t.pairDown := by
  unfold State.pairDown
  exact h.setPairLink.setAligned.wf.arbClear.wb.editPair

theorem Kept.pairLost (h : Kept s t) : Kept s t.pairLost := by
  unfold State.pairLost
  refine .ite ?_ h
  refine .ite (.gateFault (.foldl (.ite h.pairDown.sourceLost h.pairDown) fun _ _ h1 => h1.send)) ?_
  exact .foldl (.ite h.pairDown.sourceLost h.pairDown) fun _ _ h1 => h1.send

theorem Kept.trainPair (h : Kept s t) : Kept s t.trainPair :=
  .ite h.setPairLink h

theorem Kept.writePairCfg {v} (h : Kept s t) : Kept s (t.writePairCfg v) :=
  .ite h.storeReg.trainPair (.ite h.storeReg.pairLost h.storeReg.setPairLink)

theorem execLinkEn_completes {_who value} (h : Kept s t) : Completes s (execLinkEn _who value t) :=
  .next h.writePairCfg

theorem Kept.armPairLoss (h : Kept s t) : Kept s t.armPairLoss :=
  h.send

theorem execLinkUp_completes {lanes peerSide} (h : Kept s t) : Completes s (execLinkUp lanes peerSide t) :=
  .ite (.next h) (.ite (.next h.wf) (.ite (.next h.wf.wb) (.next h.wf.wb.setPairLink.editPair.armPairLoss)))

theorem Kept.agreeOn {entry gt} (h : Kept s t) : Kept s (t.agreeOn entry gt) :=
  h.setModes.send

theorem Kept.peerProposes {a} (h : Kept s t) : Kept s (t.peerProposes a) := by
  unfold State.peerProposes
  split
  · exact .ite h.agreeOn h
  · exact h

theorem execPairGroup_completes {g} (h : Kept s t) : Completes s (execPairGroup g t) := by
  unfold execPairGroup
  refine .ite (.next h) ?_
  refine .ite ?_ ?_
  · refine .next (.ite (.pairLost (h.count.editPair.foldl fun _ _ h1 => .ite h1.log h1)) ?_)
    exact h.count.editPair.foldl fun _ _ h1 => .ite h1.log h1
  · refine .ite (.next h.pairLost) ?_
    dsimp only
    split
    · exact .next (.ite h.editPair.wb.peerProposes.armPairLoss.gateFault h.editPair.wb.peerProposes.armPairLoss)
    · exact .next h.editPair.wb.peerProposes.armPairLoss

theorem execPairLinkLoss_completes (h : Kept s t) : Completes s (execPairLinkLoss t) :=
  .ite (.next h.pairLost) (.next h)

theorem Kept.stepTime {step} (h : Kept s t) : Kept s (t.stepTime step) := by
  unfold State.stepTime
  refine .send (.send ?_)
  refine .armTimers (.instants ?_)
  refine .netStepped ?_
  exact .homesStepped (.arbStepped (.wr (.wb (.wb (.gtStepped (h.other.other.foldl fun _ _ h1 => h1.setBase))))))

theorem Kept.alignInterval {offset} (h : Kept s t) : Kept s (t.alignInterval offset) :=
  .ite (.ite h.editPair.setAligned h.editPair) (.ite h.editPair.setAligned.gateFault h.editPair.setAligned)

theorem execAlignmentExchange_completes {t1 t2 t3 t4} (h : Kept s t) : Completes s (execAlignmentExchange t1 t2 t3 t4 t) := by
  unfold execAlignmentExchange
  refine .ite (.next h) (.ite (.next h.wr.wr.editPair.alignInterval) ?_)
  refine .ite ?_ ?_
  · exact .next (.alignInterval (.ite h.wr.wr.editPair.wb.stepTime.measureStepped h.wr.wr.editPair.wb.stepTime))
  · refine .next (.alignInterval ?_)
    exact .ite (.measure (.ite h.wr.wr.editPair.wb h.wr.wr.editPair)) (.ite h.wr.wr.editPair.wb h.wr.wr.editPair)

theorem execPairedEntry_completes (h : Kept s t) : Completes s (execPairedEntry t) := by
  unfold execPairedEntry
  split
  · exact .ite (.next h.send) (.ite (.next h.setModes.editPair.gateShow.wb.enterMode.send) (.next h.setModes.send))
  · exact .next h

theorem execPairedExit_completes (h : Kept s t) : Completes s (execPairedExit t) := by
  unfold execPairedExit
  split
  · exact .ite (.next h.send) (.ite (.next h.setModes.gateClose.enterMode.send) (.next h.setModes.send))
  · exact .next h

/-! ### What the operations of Machine/LemamBase.lean keep -/

theorem Kept.editLemam {f} (h : Kept s t) : Kept s (t.editLemam f) :=
  h.other

theorem Kept.lemamShow (h : Kept s t) : Kept s t.lemamShow :=
  h.wf

theorem Kept.kickLemam {ns} (h : Kept s t) : Kept s (t.kickLemam ns) :=
  h.send

theorem Kept.writeCmdrBase {j v} (h : Kept s t) : Kept s (t.writeCmdrBase j v) :=
  .ite h h.storeReg

theorem Kept.writeCmdrCfg {j v} (h : Kept s t) : Kept s (t.writeCmdrCfg j v) :=
  .ite h.wb (.ite h.storeReg.wr.wr.wb h.storeReg)

theorem Kept.writeCmdrTail {j v} (h : Kept s t) : Kept s (t.writeCmdrTail j v) :=
  .ite h.wb h.storeReg.kickLemam

theorem Kept.writeCmdrStatus {j v} (h : Kept s t) : Kept s (t.writeCmdrStatus j v) :=
  h.storeReg

theorem execCmdrTail_completes {j who value} (h : Kept s t) : Completes s (execCmdrTail j who value t) :=
  .next (.ite h.writeCmdrTail h)

theorem execCmdrCfg_completes {j who value} (h : Kept s t) : Completes s (execCmdrCfg j who value t) :=
  .next (.ite h.writeCmdrCfg h)

theorem Kept.ringError {j} (h : Kept s t) : Kept s (t.ringError j) :=
  h.wb

theorem Kept.reply {r status data peer} (h : Kept s t) : Kept s (t.reply r status data peer) := by
  unfold State.reply
  refine .ite h.editLemam ?_
  split
  · exact .ite (.ite h.editLemam.writeThrough.source h.editLemam.writeThrough) h.editLemam.ringError
  · exact h.editLemam.editLemam
  · exact h.editLemam.present
  · exact h.editLemam.editLemam.joinEgress

theorem execWriteCmd_completes {packet} (h : Kept s t) : Completes s (execWriteCmd packet t) :=
  .ite (.next h) (.ite (.next h.editLemam) (.next h.editLemam.kickLemam))

theorem execReadReply_completes (h : Kept s t) : Completes s (execReadReply t) := by
  unfold execReadReply
  refine .ite (.next h) ?_
  split <;> exact .next h.editLemam

theorem execReadStatus_completes (h : Kept s t) : Completes s (execReadStatus t) :=
  .ite (.next h) (.next h.editLemam)

theorem Kept.bootEntry {port reason} (h : Kept s t) : Kept s (t.bootEntry port reason) :=
  h.log

theorem Kept.takePatch {l} (h : Kept s t) : Kept s (t.takePatch l) := by
  induction l generalizing t with
  | nil => exact h.setModes
  | cons x l ih =>
    obtain ⟨port, _ | ⟨v, _ | _⟩⟩ := x
    · exact ih h
    · exact ih h.bootEntry
    · exact h.setModes

theorem execWatchdog_completes (h : Kept s t) : Completes s (execWatchdog t) :=
  .ite (.next h.wb.log) (.next h)

theorem Kept.engageCommand (h : Kept s t) : Kept s t.engageCommand :=
  h.wb.wb.editLemam.other.lemamShow.takePatch.kickLemam

theorem execEngageSpare_completes (h : Kept s t) : Completes s (execEngageSpare t) :=
  .ite (.next h.engageCommand.log) (.next h)

/-! ### What the operations of Machine/QueueEngine.lean keep -/

theorem Kept.qeRead {e eid a stamp} (h : Kept s t) : Kept s (t.qeRead e eid a stamp) :=
  h.send

theorem Kept.qeWrite {e eid a stamp bytes} (h : Kept s t) : Kept s (t.qeWrite e eid a stamp bytes) :=
  .ite h.send h.send

theorem Kept.queueStops {q st} (h : Kept s t) : Kept s (t.queueStops q st) :=
  h.setQe.setQState.setQueueCtx.qRaise

theorem Kept.toWaitGen {e k q} (h : Kept s t) : Kept s (t.toWaitGen e k q) :=
  .setQState (.wb (.ite h h.setQe))

theorem Kept.chanNext {e k} (h : Kept s t) : Kept s (t.chanNext e k) := by
  rw [State.chanNext]
  split
  · exact h
  · refine .ite h.setQe.kickQe (.ite h.setChan.kickQe (.ite h.setQe.kickQe ?_))
    split
    · exact .ite h.setQe.kickQe h.setQe.kickQe
    · exact h.setQe.kickQe

theorem Kept.endDescr {e k outcome} (h : Kept s t) : Kept s (t.endDescr e k outcome) := by
  unfold State.endDescr
  dsimp only
  split
  · refine .chanNext ?_
    split
    · exact h.setChan.descrDone
    · exact h.setChan
  · exact h

theorem Kept.fetchDescr {e k q} (h : Kept s t) : Kept s (t.fetchDescr e k q) := by
  unfold State.fetchDescr
  dsimp only
  split
  · exact h
  · split
    · exact .ite (h.qeRange.out ‹_›).setChan.present (h.qeRange.out ‹_›).queueStops
    · exact (h.qeRange.out ‹_›).queueStops

theorem Kept.assign {e fuel} (h : Kept s t) : Kept s (State.assign e fuel t) := by
  induction fuel generalizing t with
  | zero => exact h
  | succ fuel ih =>
    unfold State.assign
    dsimp only
    split
    · exact h
    · split
      · exact ih h.setQe.fetchDescr
      · split
        · exact .ite (ih h.setQe) (ih h.setChan.fetchDescr)
        · refine .ite h ?_
          split
          · exact h
          · exact .ite (ih h.setQe) (ih h.setQe.fetchDescr)

theorem Kept.continueChans {e} (h : Kept s t) : Kept s (t.continueChans e) := by
  unfold State.continueChans
  refine h.foldl fun _ _ h1 => ?_
  dsimp only
  split
  · exact .ite h1.fetchDescr h1
  · exact h1

theorem execChannelAssign_completes {e} (h : Kept s t) : Completes s (execChannelAssign e t) :=
  .next h.continueChans.assign

theorem execDoorbellScan_completes {e} (h : Kept s t) : Completes s (execDoorbellScan e t) :=
  .ite (.next h) (.ite (.next h.wb) (.next h.setQe.armScan.kickQe))

theorem Kept.checkRanges {e v d} (h : Kept s t) : Kept s (t.checkRanges e v d).2 := by
  rw [State.checkRanges]
  split
  split
  · exact h.qeRange.out ‹_›
  · next s1 hs1 =>
    have h1 : Kept s s1 := h.qeRange.out hs1
    refine .ite_snd ?_ (.ite_snd h1 h1)
    split
    · exact h1.qeRange.out ‹_›
    · next s2 hs2 =>
      have h2 : Kept s s2 := h1.qeRange.out hs2
      exact .ite_snd h2 h2

theorem Kept.presentTransfer {e k d pos} (h : Kept s t) : Kept s (t.presentTransfer e k d pos) :=
  .ite h.present h.present

theorem Kept.failDescr {e k status} (h : Kept s t) : Kept s (t.failDescr e k status) :=
  h.endDescr

theorem execDescriptorFetched_completes {e ch bad} (h : Kept s t) : Completes s (execDescriptorFetched e ch bad t) := by
  rw [execDescriptorFetched]
  split
  · refine .ite (.next h.log.queueStops) (.ite (.next h) ?_)
    split
    · exact .next h.setChan
    · have h1 := fun c => h.setChan (e := e.val) (k := ch.val) (c := c)
      refine .ite (.next (h1 _).qeRead.queueStops) (.ite (.next (h1 _).qeRead.log.queueStops) ?_)
      refine .ite (.next (h1 _).qeRead.toWaitGen.chanNext) ?_
      refine .ite (.next (h1 _).qeRead.setQState.setQueueCtx.setChan.failDescr) ?_
      split
      · exact .next ((h1 _).qeRead.setQState.setQueueCtx.setChan.checkRanges.out ‹_›).failDescr
      · next hs2 =>
        have h2 := (h1 _).qeRead.setQState.setQueueCtx.setChan.checkRanges.out hs2
        exact .ite (.next h2.failDescr) (.next h2.setChan.presentTransfer)
  · exact .next h

theorem Kept.settleChan {e k} (h : Kept s t) : Kept s (t.settleChan e k) := by
  unfold State.settleChan
  dsimp only
  split
  · exact .ite h.endDescr h
  · exact .ite h.setChan.kickQe h

theorem Kept.lastBeat {e k status} (h : Kept s t) : Kept s (t.lastBeat e k status) :=
  h.setChan.settleChan

theorem Kept.beatWrite {e k eid pa stamp bytes} (h : Kept s t) : Kept s (t.beatWrite e k eid pa stamp bytes).2 :=
  .ite_snd h h.setChan.qeWrite

theorem Kept.readLines {e eid r pos n stamp} (h : Kept s t) : Kept s (t.readLines e eid r pos n stamp) :=
  h.foldl fun _ _ h1 => h1.qeRead

theorem Kept.beatPoison {e k eid pa stamp} (h : Kept s t) : Kept s (t.beatPoison e k eid pa stamp).2 :=
  .ite_snd h h.setChan.send

theorem Kept.copyBeats {e k eid d fuel pos stop} (h : Kept s t) : Kept s (t.copyBeats e k eid d fuel pos stop).2 := by
  induction fuel generalizing t pos stop with
  | zero => exact h
  | succ fuel ih =>
    unfold State.copyBeats
    refine .ite_snd h ?_
    dsimp only
    split
    · exact h
    · exact .ite_snd (ih h.log.setChan.beatPoison) h.log.setChan.beatPoison
    · exact .ite_snd (ih h.beatWrite) h.beatWrite

theorem Kept.frameBeats {e k eid d frame fuel pos stop} (h : Kept s t) :
    Kept s (t.frameBeats e k eid d frame fuel pos stop).2 := by
  induction fuel generalizing t pos stop with
  | zero => exact h
  | succ fuel ih => exact .ite_snd h (.ite_snd (ih h.beatWrite) h.beatWrite)

theorem Kept.phaseBeats {e k eid d fuel pos stop} (h : Kept s t) : Kept s (t.phaseBeats e k eid d fuel pos stop).2 := by
  induction fuel generalizing t pos stop with
  | zero => exact h
  | succ fuel ih =>
    unfold State.phaseBeats
    refine .ite_snd h (.ite_snd ?_ ?_)
    · split
      · exact h
      · exact h.log
      · exact ih h.writeLocal
    · dsimp only
      split
      · exact h.log.log
      · exact .ite_snd (ih h.beatWrite) h.beatWrite

/-- A fold that carries a state and a verdict keeps what each of its steps keeps. -/
theorem Kept.foldl_snd {α β : Type} {f : β × State → α → β × State} {l : List α} {p : β × State} (h : Kept s p.2)
    (hf : ∀ q x, Kept s q.2 → Kept s (f q x).2) : Kept s (l.foldl f p).2 := by
  induction l generalizing p with
  | nil => exact h
  | cons x l ih => exact ih (hf p x h)

theorem Kept.pointBeat {e k v d pos} (h : Kept s t) : Kept s (t.pointBeat e k v d pos).2 := by
  unfold State.pointBeat
  refine .ite_snd ?_ ?_
  · split
    · exact (h.readPoint.out ‹_›).log
    · exact .foldl_snd (h.readPoint.out ‹_›) fun _ _ hq => .ite_snd hq.beatWrite hq
  · split
    · exact h
    · exact h.log
    · exact h.updatePoint

theorem Kept.sendFrame {e k v q d} (h : Kept s t) : Kept s (t.sendFrame e k v q d) := by
  unfold State.sendFrame
  split
  · exact h.lastBeat
  · exact h.log.lastBeat
  · exact h.endDescr.handOver

theorem Kept.transfer {e k} (h : Kept s t) : Kept s (t.transfer e k) := by
  unfold State.transfer
  dsimp only
  split
  · split
    · exact h
    · split
      · refine .lastBeat (.ite_snd (.copyBeats (.ite h.readLines h)) ?_)
        refine .ite_snd (.frameBeats (.ite h.readLines h)) ?_
        exact .ite_snd (.phaseBeats (.ite h.readLines h)) (.ite_snd (.pointBeat (.ite h.readLines h)) (.ite h.readLines h))
      · refine .ite ?_ ?_
        · refine .presentTransfer (.setChan ?_)
          refine .ite_snd (.copyBeats (.ite h.readLines h)) (.ite_snd (.frameBeats (.ite h.readLines h)) ?_)
          refine .ite_snd (.phaseBeats (.ite h.readLines h)) ?_
          exact .ite_snd (.pointBeat (.ite h.readLines h)) (.ite h.readLines h)
        · refine .ite ?_ ?_
          · refine .sendFrame (.setChan ?_)
            refine .ite_snd (.copyBeats (.ite h.readLines h)) (.ite_snd (.frameBeats (.ite h.readLines h)) ?_)
            refine .ite_snd (.phaseBeats (.ite h.readLines h)) ?_
            exact .ite_snd (.pointBeat (.ite h.readLines h)) (.ite h.readLines h)
          · refine .lastBeat (.setChan ?_)
            refine .ite_snd (.copyBeats (.ite h.readLines h)) (.ite_snd (.frameBeats (.ite h.readLines h)) ?_)
            refine .ite_snd (.phaseBeats (.ite h.readLines h)) ?_
            exact .ite_snd (.pointBeat (.ite h.readLines h)) (.ite h.readLines h)
  · exact h

theorem Kept.engineComp {e line st} (h : Kept s t) : Kept s (t.engineComp e line st) := by
  unfold State.engineComp
  split
  · exact h
  · exact h.setChan.settleChan

theorem execCompletionWrite_completes {q} (h : Kept s t) : Completes s (execCompletionWrite q t) := by
  unfold execCompletionWrite
  dsimp only
  split
  · split
    · exact .next h.setQueueCtx
    · split
      · exact .next (h.qeRange.out ‹_›).queueStops
      · refine .ite (.next (h.qeRange.out ‹_›).queueStops) (.next ?_)
        refine .pushCompletion ?_
        refine .ite ?_ ?_
        · refine .qRaise (.ite (h.qeRange.out ‹_›).qeWrite.setQueueCtx.wf.tally.qSettle ?_)
          exact (h.qeRange.out ‹_›).qeWrite.setQueueCtx.wf.tally.qSettle.wb
        · refine .ite (h.qeRange.out ‹_›).qeWrite.setQueueCtx.wf.tally.qSettle ?_
          exact (h.qeRange.out ‹_›).qeWrite.setQueueCtx.wf.tally.qSettle.wb
  · exact .next h

theorem Kept.forgetWork {q} (h : Kept s t) : Kept s (t.forgetWork q) :=
  h.setQe.wr

theorem Kept.nextGen {q} (h : Kept s t) : Kept s (t.nextGen q) :=
  h.wf

theorem Kept.resetQueue {q} (h : Kept s t) : Kept s (t.resetQueue q) :=
  h.forgetWork.nextGen.wf.wf.setQState.setQueueCtx

theorem Kept.resetVi {v} (h : Kept s t) : Kept s (t.resetVi v) :=
  h.foldl fun _ _ h1 => h1.resetQueue

theorem Kept.dropVi {v} (h : Kept s t) : Kept s (t.dropVi v) :=
  .wr (.wr (.wr (.wr (h.foldl fun _ _ h1 => h1.setQState.setQueueCtx))))

theorem Kept.makeVi {v vmid base eid q count vec vecs} (h : Kept s t) : Kept s (t.makeVi v vmid base eid q count vec vecs) :=
  h.wr.wr.wr.wr

theorem Kept.bindQueue {q kind ring comp log2 vec port} (h : Kept s t) : Kept s (t.bindQueue q kind ring comp log2 vec port) :=
  h.nextGen.setQueueCtx.wf.wf.setQState.wr

/-! ### What the operations of Machine/Modes.lean keep -/

theorem Kept.showAbsent (h : Kept s t) : Kept s t.showAbsent :=
  h.foldl fun _ _ h1 => h1.wb

theorem Kept.degrade (h : Kept s t) : Kept s t.degrade :=
  .ite h.enterMode h

theorem Kept.disableQuad {q} (h : Kept s t) : Kept s (t.disableQuad q) :=
  h.setModes.showAbsent

theorem Kept.giveUpLines {c} (h : Kept s t) : Kept s (t.giveUpLines c) := by
  unfold State.giveUpLines
  refine h.foldl fun _ _ h1 => ?_
  dsimp only
  split
  · exact .ite h1.takeDirty h1
  · exact h1

theorem Kept.gateCore {c} (h : Kept s t) : Kept s (t.gateCore c) :=
  h.giveUpLines.setCore.wb

theorem Kept.stopCore {c} (h : Kept s t) : Kept s (t.stopCore c) :=
  h.syncCycles.setCore.kickDrain

theorem Kept.releaseCore {c} (h : Kept s t) : Kept s (t.releaseCore c) :=
  .ite h (.retrySources (.ite h.setCore.wb.haltCore h.setCore.wb))

theorem Kept.editSpare {f} (h : Kept s t) : Kept s (t.editSpare f) :=
  h.other

theorem Kept.engageMain {cluster slot} (h : Kept s t) : Kept s (t.engageMain cluster slot) :=
  h.editSpare.log

theorem Kept.engagePhase {q slot k} (h : Kept s t) : Kept s (t.engagePhase q slot k) :=
  h.editSpare.log

theorem Kept.absentCore {c} (h : Kept s t) : Kept s (t.absentCore c) :=
  h.setModes.showAbsent

theorem Kept.coverPhase {q i} (h : Kept s t) : Kept s (t.coverPhase q i) := by
  unfold State.coverPhase
  split
  · exact h.engagePhase
  · exact h.setModes

theorem Kept.unitFails {u} (h : Kept s t) : Kept s (t.unitFails u) :=
  .ite (.ite h (.ite h.engageMain h.absentCore)) (.ite (.ite h h.coverPhase) (.ite (.ite h h.setModes) h))

theorem Kept.spareFails {u} (h : Kept s t) : Kept s (t.spareFails u) := by
  unfold State.spareFails
  refine .ite ?_ ?_
  · split
    · exact h
    · exact h.absentCore
  · refine .ite ?_ ?_
    · split
      · exact h
      · exact h.editSpare.coverPhase
    · refine .ite ?_ h
      split
      · exact h
      · exact h.setModes

theorem Kept.replaceWorn {cluster} (h : Kept s t) : Kept s (t.replaceWorn cluster) := by
  unfold State.replaceWorn
  split
  · exact .ite h.engageMain h
  · exact h

theorem Kept.selfTest {b} (h : Kept s t) : Kept s (t.selfTest b) := by
  unfold State.selfTest
  refine .foldl ?_ fun _ _ h1 => ?_
  · refine .foldl ?_ fun _ _ h1 => ?_
    · exact .foldl (h.editSpare.foldl fun _ _ h1 => h1.spareFails) fun _ _ h1 => h1.unitFails
    · exact h1.replaceWorn
  · exact h1.disableQuad

theorem Kept.measured {f} (h : Kept s t) : Kept s (t.measured f) :=
  h.foldl fun _ _ h1 => h1.wr

theorem Kept.takeImage {port f} (h : Kept s t) : Kept s (t.takeImage port f) := by
  unfold State.takeImage
  extract_lets _ _ s1
  have hs1 : Kept s s1 := h.measured.wb.setBytes
  exact .ite hs1.setModes hs1.setModes.other

theorem Kept.verifyFrom {warm l} (h : Kept s t) :
    Kept s (t.verifyFrom warm l).2 ∧ ∀ u, (t.verifyFrom warm l).1 = some u → Kept s u := by
  induction l generalizing t with
  | nil => exact ⟨h, fun u e => by cases e⟩
  | cons x l ih =>
    obtain ⟨port, f⟩ := x
    rw [State.verifyFrom]
    by_cases hr : t.imageReason f warm = 0
    · rw [if_pos hr]
      exact ⟨h, fun u e => Option.some.inj e ▸ h.takeImage⟩
    · rw [if_neg hr]
      exact ih h.bootEntry

/-- The state that an image which verifies has been taken into, and the state that is left where none does. -/
theorem Kept.verified {warm l r} (h : Kept s t) (e : t.verifyFrom warm l = (some u, r)) : Kept s u :=
  h.verifyFrom.2 u (congrArg Prod.fst e)

theorem Kept.unverified {warm l o} (h : Kept s t) (e : t.verifyFrom warm l = (o, u)) : Kept s u :=
  h.verifyFrom.1.out e

theorem Kept.copyLoads {f} (h : Kept s t) : Kept s (t.copyLoads f) :=
  h.foldl fun _ _ h1 => h1.setBytes

theorem Kept.flushIntake {fuel} (h : Kept s t) : Kept s (State.flushIntake fuel t) := by
  induction fuel generalizing t with
  | zero => exact h
  | succ fuel ih =>
    unfold State.flushIntake
    split
    · exact h
    · exact ih h.other

theorem Kept.resetUnits {keepReg keepBase keepAct} (h : Kept s t) : Kept s (t.resetUnits keepReg keepBase keepAct) :=
  h.filterRegs.filterAgenda.other

theorem Kept.showSpares (h : Kept s t) : Kept s t.showSpares :=
  .showAbsent (h.foldl fun _ _ h1 => .ite h1 h1.wb)

theorem Kept.completeSent (h : Kept s t) : Kept s t.completeSent := by
  unfold State.completeSent
  refine h.foldl fun _ _ h1 => ?_
  split
  · exact .ite h1.writeMasked h1
  · exact h1

theorem Kept.warmReset (h : Kept s t) : Kept s t.warmReset :=
  .showSpares (.setModes (h.completeSent.flushIntake.resetUnits.other.foldl fun _ _ h1 => .ite h1.setMc h1.setMc.wb))

theorem Kept.coldReset (h : Kept s t) : Kept s t.coldReset := by
  unfold State.coldReset
  extract_lets lost s1 m s2
  have h1 : Kept s s1 := h.resetUnits
  have h2 : Kept s s2 := ⟨⟨fun _ => rfl, h1.regs, h1.agenda, h1.clk⟩, h1.pending⟩
  exact h2.wb

theorem Kept.modeAfter {prev m cause} (h : Kept s t) : Kept s (t.modeAfter prev m cause) :=
  h.wf.enterMode

theorem execPoresetAssert_completes (h : Kept s t) : Completes s (execPoresetAssert t) := by
  unfold execPoresetAssert
  extract_lets _ s1
  have hs1 : Kept s s1 := h.coldReset.setModes
  exact .ite (.next hs1.wf) (.next hs1.modeAfter.wf)

theorem Kept.startCold {b} (h : Kept s t) : Kept s (t.startCold b) :=
  h.setModes.send

theorem Kept.startFree {b} (h : Kept s t) : Kept s (t.startFree b) :=
  .ite h.startCold h

theorem Kept.leaveOff {b} (h : Kept s t) : Kept s (t.leaveOff b) :=
  h.enterMode.wf.startFree

theorem execPoresetRelease_completes {boot} (h : Kept s t) : Completes s (execPoresetRelease boot t) :=
  .ite (.next h) (.ite (.next h.setModes) (.ite (.next h.setModes.leaveOff) (.next h.setModes.startFree)))

theorem execPllLock_completes (h : Kept s t) : Completes s (execPllLock t) :=
  .ite (.next h.setModes.gtAdvance.after) (.next h)

theorem execResetAssert_completes (h : Kept s t) : Completes s (execResetAssert t) :=
  .ite (.next h.setModes) (.next h.warmReset.setModes.modeAfter.wf)

theorem execResetRelease_completes {boot} (h : Kept s t) : Completes s (execResetRelease boot t) :=
  .ite (.next h) (.ite (.next h.setModes) (.ite (.next h.setModes.setModes.send) (.next h.setModes.after)))

theorem execRailLoss_completes {rail} (h : Kept s t) : Completes s (execRailLoss rail t) :=
  .ite (.next h) (.ite (.next h.coldReset.setModes.wf) (.next h.coldReset.setModes.modeAfter))

theorem execRailReturn_completes {boot} (h : Kept s t) : Completes s (execRailReturn boot t) :=
  .ite (.next h.setModes.leaveOff) (.next h.setModes)

theorem execVddAoLoss_completes (h : Kept s t) : Completes s (execVddAoLoss t) :=
  .next h.coldReset.other.setModes.wb.wb.wf

theorem Kept.refclkLost (h : Kept s t) : Kept s t.refclkLost :=
  .ite h.setModes h.coldReset.setModes.modeAfter.wf

theorem execRefclkLoss_completes (h : Kept s t) : Completes s (execRefclkLoss t) :=
  .ite (.next h.refclkLost) (.next h)

theorem execRefclkStop_completes (h : Kept s t) : Completes s (execRefclkStop t) :=
  .ite (.next h) (.ite (.next h.setModes.other.wb) (.next h.refclkLost))

theorem Kept.resumeHeld {gap} (h : Kept s t) : Kept s (t.resumeHeld gap) :=
  ⟨⟨h.mem, h.regs, fun _ => foldl_agendaInsert_inOrder List.Pairwise.nil, h.clk⟩, h.pending⟩

theorem Kept.wakeBase {gap b} (h : Kept s t) : Kept s (t.wakeBase gap b) :=
  .ite h (.ite h.setBase.setBase.stopBase.wb (.ite h.setBase.setBase.stopBase.wb h.setBase.setBase))

theorem execRefclkReturn_completes {boot} (h : Kept s t) : Completes s (execRefclkReturn boot t) := by
  unfold execRefclkReturn
  refine .ite (.next h) (.ite ?_ (.ite (.next h.setModes.startFree) (.next h.setModes)))
  refine .next (.after ?_)
  refine .foldl ?_ fun _ _ h1 => ?_
  · exact .armTimers (.gtStepped (h.other.resumeHeld.setModes.gtAdvance.wb.foldl fun _ _ h1 => h1.wakeBase))
  · exact h1.source

theorem Kept.bootHalt (h : Kept s t) : Kept s t.bootHalt :=
  h.setModes

theorem Kept.armAvs (h : Kept s t) : Kept s t.armAvs :=
  h.send

theorem Kept.eraseAll (h : Kept s t) : Kept s t.eraseAll := by
  unfold State.eraseAll
  extract_lets s1
  have h1 : Kept s s1 := h.resetUnits
  exact ⟨⟨fun _ => rfl, h1.regs, h1.agenda, h1.clk⟩, h1.pending⟩

theorem Kept.configureDram {block} (h : Kept s t) : Kept s (t.configureDram block) :=
  .foldl (h.foldl fun _ _ h1 => h1.wr) fun _ _ h1 => h1.wf

theorem Kept.loadSets {ws} (h : Kept s t) : Kept s (t.loadSets ws) :=
  h.foldl fun _ _ h1 => h1.wr

theorem Kept.startChannel {n} (h : Kept s t) : Kept s (t.startChannel n) :=
  h.wb.wb.wf.startBlackouts.send

theorem Kept.initDram {b} (h : Kept s t) : Kept s (t.initDram b) := by
  unfold State.initDram
  refine .ite (h.foldl fun _ _ h1 => h1.startChannel) ?_
  exact .setModes (h.configureDram.loadSets.foldl fun _ _ h1 => h1.startChannel)

theorem Kept.engineUp (h : Kept s t) : Kept s t.engineUp :=
  .foldl (h.foldl fun _ _ h1 => .ite h1.wb h1) fun _ _ h1 => h1.ballFollows

theorem Kept.bootDone (h : Kept s t) : Kept s t.bootDone := by
  unfold State.bootDone
  extract_lets s1 s2
  have h1 : Kept s s1 := h.foldl fun _ _ h1 => h1.wf
  clear_value s1
  have h2 : Kept s s2 := h1.enterMode.wb
  exact h2.engineUp.releaseCore.bootHalt.setModes

theorem Kept.preflashed (h : Kept s t) : Kept s t.preflashed :=
  h.filterMem.other.setModes.wb.wr

theorem Kept.loadImage {b port} (h : Kept s t) : Kept s (t.loadImage b port) := by
  unfold State.loadImage
  extract_lets f r s1
  have h1 : Kept s s1 := h.bootEntry
  refine .ite h.copyLoads.bootEntry.after ?_
  split
  · next s2 _ hs2 =>
    have h2 : Kept s s2 := by
      split at hs2
      · exact h1.verified hs2
      · cases hs2
    exact .ite h2.copyLoads.bootEntry.after h2.bootEntry.bootHalt
  · next s2 hs2 =>
    have h2 : Kept s s2 := by
      split at hs2
      · exact h1.unverified hs2
      · cases hs2; exact h1
    exact h2.bootHalt

theorem Kept.bootStep {k} (h : Kept s t) : Kept s (t.bootStep k) := by
  unfold State.bootStep
  split
  · exact h
  · split
    · split
      · exact h.log.bootHalt
      · exact h.selfTest.after
    · exact .after (.ite h.eraseAll h)
    · extract_lets s1 s2
      have h1 : Kept s s1 := h.takePatch.wf
      have h2 : Kept s s2 := h1.setModes.wb.armAvs.kickLemam
      exact .ite h2.bootHalt (.ite h2 h2.after)
    · extract_lets port images
      split
      · exact (h.verified ‹_›).after
      · exact (h.unverified ‹_›).wb.bootHalt
    · refine .ite (.bootHalt (h.foldl fun _ _ h1 => .ite h1.wb.log h1)) ?_
      extract_lets s1
      have h1 : Kept s s1 := h.initDram
      exact .ite h1.setModes.after h1.bootEntry.after
    · exact h.preflashed.loadImage
    · exact h.bootDone
    · exact h

theorem Kept.powerDown (h : Kept s t) : Kept s t.powerDown := by
  unfold State.powerDown
  extract_lets s1
  have h1 : Kept s s1 := h.pairLost.pairDown
  clear_value s1
  exact ⟨⟨h1.mem, fun hs => tabWf_filter _ _ _ (h1.regs hs), h1.agenda, h1.clk⟩, h1.pending⟩

theorem execStandbySequence_completes (h : Kept s t) : Completes s (execStandbySequence t) := by
  unfold execStandbySequence
  refine .ite (.next h) (.ite ?_ (.next (.send (h.foldl fun _ _ h1 => h1.stopCore))))
  refine .next (.send ?_)
  exact .foldl (.powerDown (.foldl (h.foldl fun _ _ h1 => h1.stopCore) fun _ _ h1 => h1.gateCore)) fun _ _ h1 => h1.setMc

theorem execStandbyDone_completes (h : Kept s t) : Completes s (execStandbyDone t) :=
  .ite (.next h) (.ite (.next h.wb.after) (.next h.send))

theorem execWake_completes {src} (h : Kept s t) : Completes s (execWake src t) :=
  .ite (.next h) (.next h.askWake)

theorem Kept.wakeStep {k} (h : Kept s t) : Kept s (t.wakeStep k) := by
  unfold State.wakeStep
  split
  · exact h
  · refine .ite h (.ite (.ite h.setModes.after h) ?_)
    exact .ite (.after (h.foldl fun _ _ h1 => h1.startChannel)) h.wb.setModes.enterMode.releaseCore.retrySources.kickLemam

theorem Kept.bootAct {k} (h : Kept s t) : Kept s (t.bootAct k) :=
  .ite h.wakeStep h.bootStep

theorem execSafelightReset_completes (h : Kept s t) : Completes s (execSafelightReset t) :=
  .next h.closeDebug.setModes

theorem execSafelightRailLoss_completes (h : Kept s t) : Completes s (execSafelightRailLoss t) :=
  .next h.closeDebug.setModes

/-! ### What the operations of Machine/Spares.lean keep -/

theorem Kept.logEngaged {unit index} (h : Kept s t) : Kept s (t.logEngaged unit index) :=
  h.log

theorem Kept.engageLlc {h' w} (h : Kept s t) : Kept s (t.engageLlc h' w) := by
  unfold State.engageLlc
  refine .logEngaged (.editSpare ?_)
  refine .wf (.wb ?_)
  refine h.foldl fun _ _ h1 => ?_
  split
  · exact h1.evict
  · exact h1

theorem Kept.engageDir {h' w} (h : Kept s t) : Kept s (t.engageDir h' w) := by
  unfold State.engageDir
  refine .logEngaged (.editSpare ?_)
  refine .wf (.wb ?_)
  refine h.foldl fun _ _ h1 => ?_
  split
  · exact .ite h1 h1.removeEntry
  · exact h1

theorem Kept.engageLane {p lane} (h : Kept s t) : Kept s (t.engageLane p lane) :=
  h.wb.editSpare.logEngaged

theorem Kept.engage {kind quad group unit} (h : Kept s t) : Kept s (t.engage kind quad group unit) := by
  unfold State.engage
  split
  · exact h.engageMain
  · exact .ite h.engageLlc h.engageDir
  · split
    · exact h.engagePhase
    · exact h
  · split
    · exact h.engageLane
    · exact h
  · exact h.engageCommand.logEngaged

theorem Kept.coreLost {c} (h : Kept s t) : Kept s (t.coreLost c) :=
  h.gateCore.setModes.showAbsent.degrade.retrySources

theorem Kept.loseCore {c} (h : Kept s t) : Kept s (t.loseCore c) :=
  .ite h (.ite h.coreLost (.ite h.stopCore.coreLost h.stopCore.editLemam.kickLemam))

theorem Kept.pvtAlarm {bit} (h : Kept s t) : Kept s (t.pvtAlarm bit) :=
  .ite h (.ite h.wb.source h.wb)

theorem Kept.monitored {reg dev reading level bits} (h : Kept s t) : Kept s (t.monitored reg dev reading level bits) :=
  .ite h.wr.log.wr.pvtAlarm h.wr

theorem Kept.sampleTemp {n reading} (h : Kept s t) : Kept s (t.sampleTemp n reading) := by
  unfold State.sampleTemp
  extract_lets _ _ _ _ s2
  have hs2 : Kept s s2 := .ite h.monitored.setModes h.monitored
  exact .ite hs2.safeHold hs2

theorem Kept.sampleVolt {n reading} (h : Kept s t) : Kept s (t.sampleVolt n reading) := by
  unfold State.sampleVolt
  extract_lets _ _ _ _ _ _ _ s2
  have hs2 : Kept s s2 := h.setModes.monitored
  exact .ite hs2.safeHold hs2

theorem Kept.sampleAge {n slots} (h : Kept s t) : Kept s (t.sampleAge n slots) := by
  unfold State.sampleAge
  refine .ite ?_ h.setModes.monitored
  split
  · exact h.setModes.monitored.loseCore
  · exact h.setModes.monitored

theorem execMonitorSample_completes {kind n reading slots} (h : Kept s t) :
    Completes s (execMonitorSample kind n reading slots t) := by
  unfold execMonitorSample
  refine .ite (.next h) ?_
  split
  · exact .next (.ite h (.ite h.sampleTemp h.wr))
  · exact .next (.ite h (.ite h.sampleVolt h.wr))
  · exact .next (.ite h (.ite h.wr h.wr))
  · exact .next (.ite h (.ite h.sampleAge h.wr))

theorem execPmbusAlert_completes {words} (h : Kept s t) : Completes s (execPmbusAlert words t) := by
  unfold execPmbusAlert
  refine .ite (.next h) (.next ?_)
  exact .ite (.safeHold (h.foldl fun _ _ h1 => h1.fresh.wb.log.pvtAlarm)) (h.foldl fun _ _ h1 => h1.fresh.wb.log.pvtAlarm)

theorem Kept.coreVolts (h : Kept s t) : Kept s t.coreVolts.2 :=
  .ite_snd h (.ite_snd h h.fresh)

theorem Kept.alarmShort (h : Kept s t) : Kept s t.alarmShort := by
  unfold State.alarmShort
  split
  · exact h.log
  · exact h

theorem execAvsPeriod_completes (h : Kept s t) : Completes s (execAvsPeriod t) :=
  .ite (.next h) (.ite (.next h.armAvs) (.next (.armAvs (.wf (.ite_snd h h.alarmShort.coreVolts)))))

theorem execSdsrefLoss_completes {quadrant} (h : Kept s t) : Completes s (execSdsrefLoss quadrant t) := by
  unfold execSdsrefLoss
  extract_lets _ mine
  have hmine : Kept s mine := h.foldl fun _ _ h1 => h1.linkChange
  exact .next (.ite hmine.pairLost hmine)

theorem execLinkRetry_completes {link times} (h : Kept s t) : Completes s (execLinkRetry link times t) := by
  unfold execLinkRetry
  dsimp only
  split
  · exact .next (.ite (.safeHold (.log (h.foldl fun _ _ h1 => h1.log))) (h.foldl fun _ _ h1 => h1.log))
  · refine .ite (.next h) (.next ?_)
    refine .ite (.pairLost (.foldl (h.foldl fun _ _ h1 => h1.log) fun _ _ h1 => h1.count)) ?_
    exact .foldl (h.foldl fun _ _ h1 => h1.log) fun _ _ h1 => h1.count

/-! ### What the operations of Machine/Bus.lean keep -/

theorem Kept.readReg {who w a} (h : Kept s t) : Kept s (t.readReg who w a).2 := by
  unfold State.readReg
  split
  · exact h
  · exact .ite_snd h (.ite_snd h.readCapture (.ite_snd h.readPinStatus (.ite_snd h h)))
  · exact h
  · split <;> exact h
  · exact h
  · exact h
  · exact h
  · exact h
  · exact h
  · exact h

theorem Kept.writePhase {who a v} (h : Kept s t) : Kept s (t.writePhase who a v) := by
  unfold State.writePhase
  refine .ite ?_ ?_
  · dsimp only
    split
    · exact h.writePhbCtrl
    · exact h.preset
    · exact h.softwarePos
    · exact h.writeRatio
    · exact h.storeReg
  · refine .ite ?_ ?_
    · dsimp only
      split
      · exact h.writeCmpCtrl
      · exact h.writeCmpAction
      · exact h.writeCmpValue
      · exact h.writeCmpStatus
      · exact h.storeReg
    · refine .ite h.storeReg ?_
      refine .ite ?_ ?_
      · dsimp only
        split
        · exact h.writeSdfSetup
        · exact h.writeSdfSetup
        · exact h.writeSdfPt
        · exact h.storeReg
      · refine .ite ?_ ?_
        · dsimp only
          split
          · exact h.writePinCfg
          · exact h.writePinOwner
          · exact h.writePinAct
          · exact h.storeReg
        · refine .ite ?_ (.ite h.storeReg h.writeCtr)
          dsimp only
          split
          · exact h.writeVsel
          · exact h.writeBankStatus
          · exact h.storeReg

theorem Kept.writeReg {who w a v stamp} (h : Kept s t) : Kept s (t.writeReg who w a v stamp).2 := by
  unfold State.writeReg
  split
  · dsimp only
    split
    · exact .ite h.writeCmdrBase h
    · exact h.writeCmdrCfg
    · exact h.writeCmdrTail
    · exact h.writeCmdrStatus
    · exact h
  · exact h.writePcc
  · exact h.writePhase
  · refine .ite h.writeGtCtrl ?_
    exact .ite h.storeReg.applyRate (.ite h.writeShutter (.ite h.writeShutterCtrl (.ite h.setFreeze h.storeReg)))
  · split
    · exact h.doorbell
    · exact h
  · exact .ite h.writePort (.ite h.writePt (.ite h.storeReg.rearmAges h.storeReg))
  · exact .ite h.writeArbCtrl (.ite h.writePmb (.ite h.writeBankReg (.ite h.storeReg h.storeReg)))
  · exact .ite h.writePmb (.ite h.writeBankReg (.ite h.storeReg.rearmIdle (.ite h.storeReg.send h.storeReg)))
  · exact .ite h.hsQuery (.ite h.writePmb (.ite h.writeBankReg h.storeReg))
  · exact .ite h.swgen h.writeSrc
  · exact h.writeEnc.pair
  · exact .ite h.writePairCfg h.storeReg
  · exact h.storeReg

theorem Kept.busRead {who a n stamp} (h : Kept s t) : Kept s (t.busRead who a n stamp).2 := by
  unfold State.busRead
  split
  · exact h
  · refine .ite_snd h ?_
    split
    · exact .ite_snd h (.ite_snd h h.send)
    · exact .ite_snd h (.ite_snd h h.send)
    · exact .ite_snd h (.ite_snd h h.send)
    · exact h
    · exact h.outsideLocal
    · exact .ite_snd h.readPoint.present h
    · split
      · exact h
      · exact h
      · exact h.readReg

theorem Kept.busWrite {who a n v stamp} (h : Kept s t) : Kept s (t.busWrite who a n v stamp).2 := by
  unfold State.busWrite
  split
  · exact h
  · refine .ite_snd h ?_
    split
    · exact h
    · exact h
    · exact .ite_snd h h.send
    · exact .ite_snd h h.send
    · split <;> exact h.outsideLocal.out ‹_›
    · refine .ite_snd ?_ h
      refine .ite_snd h.present ?_
      split
      · exact h.present
      · exact h.updatePoint.present
    · split
      · exact h
      · exact h
      · exact h.writeReg

/-! ### What the operations of Machine/CoreMem.lean keep -/

theorem Kept.readPiece {c pl slack p} (h : Kept s t) : Kept s (t.readPiece c pl slack p).2 := by
  unfold State.readPiece
  dsimp only
  split
  · exact .ite (h.lineFor.out ‹_›) (h.lineFor.out ‹_›).coreEvent
  · exact h.lineFor.out ‹_›
  · exact .ite_snd (h.lineFor.out ‹_›) (h.lineFor.out ‹_›)

theorem Kept.readPieces {c pl slack l} (h : Kept s t) : Kept s (t.readPieces c pl slack l).2 := by
  induction l generalizing t with
  | nil => exact h
  | cons p l ih =>
    unfold State.readPieces
    split
    · split
      · exact (ih (h.readPiece.out ‹_›)).out ‹_›
      · exact ih (h.readPiece.out ‹_›)
    · exact h.readPiece

theorem Kept.loadAt {c va size put} (h : Kept s t) : Kept s (t.loadAt c va size put).state := by
  unfold State.loadAt
  dsimp only
  split
  · exact h.translate.out ‹_›
  · refine .ite_ires (h.translate.out ‹_›).kickDrain ?_
    split
    · split
      · exact (h.translate.out ‹_›).compareAccess.stopped ‹_›
      · exact ((h.translate.out ‹_›).compareAccess.goesOn ‹_›).setCore
    · refine .ite_ires ?_ ?_
      · split
        · exact (h.translate.out ‹_›).compareAccess.stopped ‹_›
        · split
          · exact ((h.translate.out ‹_›).compareAccess.goesOn ‹_›).busRead.out ‹_›
          · exact (((h.translate.out ‹_›).compareAccess.goesOn ‹_›).busRead.out ‹_›).coreEvent.setCore
      · split
        · exact (h.translate.out ‹_›).readPieces.out ‹_›
        · split
          · exact ((h.translate.out ‹_›).readPieces.out ‹_›).compareAccess.stopped ‹_›
          · exact (((h.translate.out ‹_›).readPieces.out ‹_›).compareAccess.goesOn ‹_›).setCore
        · split
          · exact ((h.translate.out ‹_›).readPieces.out ‹_›).compareAccess.stopped ‹_›
          · split
            · exact (((h.translate.out ‹_›).readPieces.out ‹_›).compareAccess.goesOn ‹_›).log
            · exact ((h.translate.out ‹_›).readPieces.out ‹_›).compareAccess.goesOn ‹_›

theorem Kept.readVector {c t' v} (h : Kept s t) : Kept s (t.readVector c t' v).2 := by
  unfold State.readVector
  dsimp only
  split
  · exact h.translate.out ‹_›
  · refine .ite_snd ?_ ?_
    · split <;> exact (h.translate.out ‹_›).busRead.out ‹_›
    · exact .ite_snd (h.translate.out ‹_›) (.ite_snd (h.translate.out ‹_›).ask.log (h.translate.out ‹_›).ask)
  · exact h.translate.out ‹_›

theorem Kept.takeInterrupt {c x v} (h : Kept s t) : Kept s (t.takeInterrupt c x v) := by
  unfold State.takeInterrupt
  extract_lets _ _ _ _ _ _ _ _ _ s1
  have hs1 : Kept s s1 := h.syncCycles.setCore.coreEvent
  split
  · exact (hs1.readVector.out ‹_›).entryFault.recognise.stepDone
  · exact (hs1.readVector.out ‹_›).arriveAt.recognise.stepDone

theorem execInterruptEntry_completes {c} (h : Kept s t) : Completes s (execInterruptEntry c t) := by
  unfold execInterruptEntry
  dsimp only
  split
  · exact .ite (.next h.setCore.takeInterrupt) (.next h.setCore)
  · exact .next h.setCore

theorem execLoad_completes {c fn rd rs1 imm} (h : Kept s t) : Completes s (execLoad c fn rd rs1 imm t) :=
  .next (h.runInstr fun _ h1 => h1.loadAt)

theorem execFlwFld_completes {c fmt rd rs1 imm} (h : Kept s t) : Completes s (execFlwFld c fmt rd rs1 imm t) :=
  .next (h.runInstr fun _ h1 => h1.loadAt)

theorem Kept.storeError {c addr cause pl eid size} (h : Kept s t) : Kept s (t.storeError c addr cause pl eid size) :=
  .ite h.setCore.log h.setCore.log.pend

theorem Kept.own {c line pl eid slack} (h : Kept s t) : Kept s (t.own c line pl eid slack) := by
  unfold State.own
  refine .ite h ?_
  split
  · exact h.setLine.send
  · split
    · exact h.setLine.send
    · exact h.setLine.send
    · exact h

theorem Kept.ownAhead {c} (h : Kept s t) : Kept s (t.ownAhead c) :=
  h.foldl fun _ _ h1 => .ite h1.own h1

theorem Kept.visible {c pa bytes v} (h : Kept s t) : Kept s (t.visible c pa bytes v) := by
  unfold State.visible
  extract_lets _ s1
  have hs1 : Kept s s1 := h.losesReservation.setBytes
  split
  · exact hs1.setLine
  · exact hs1

theorem Kept.markSent {c} (h : Kept s t) : Kept s (t.markSent c) := by
  unfold State.markSent
  dsimp only
  split
  · exact h.setCore
  · exact h

theorem Kept.failFront {c e cause} (h : Kept s t) : Kept s (t.failFront c e cause) :=
  h.storeError.popStore.ownAhead

theorem Kept.drainFront {c} (h : Kept s t) : Kept s (t.drainFront c) := by
  unfold State.drainFront
  dsimp only
  split
  · exact h
  · refine .ite h ?_
    split
    · exact h.failFront
    · split
      · split
        · exact h.setCore.failFront
        · exact .ite h.ownAhead (.ite h h.visible.popStore.ownAhead)
      · exact .ite h.failFront h.markSent.send
      · split
        · exact (h.markSent.busWrite.out ‹_›).failFront
        · split
          · exact (h.markSent.busWrite.out ‹_›).coreEvent.editEnc
          · exact .ite (h.markSent.busWrite.out ‹_›).coreEvent (h.markSent.busWrite.out ‹_›).coreEvent.popStore.ownAhead

theorem execStoreDrain_completes {c} (h : Kept s t) : Completes s (execStoreDrain c t) :=
  .next h.drainFront

theorem Kept.storeAt {c va size data} (h : Kept s t) : Kept s (t.storeAt c va size data).state := by
  unfold State.storeAt
  dsimp only
  split
  · exact h.translate.out ‹_›
  · refine .ite_ires (h.translate.out ‹_›).kickDrain ?_
    split
    · exact (h.translate.out ‹_›).compareAccess.stopped ‹_›
    · refine .kickDrain (.ownAhead ?_)
      refine .setCore (.ite ((h.translate.out ‹_›).compareAccess.goesOn ‹_›).syncCycles ?_)
      exact (h.translate.out ‹_›).compareAccess.goesOn ‹_›

theorem execStore_completes {c fn rs2 rs1 imm} (h : Kept s t) : Completes s (execStore c fn rs2 rs1 imm t) :=
  .next (h.runInstr fun _ h1 => h1.storeAt)

theorem execFswFsd_completes {c fmt rs2 rs1 imm} (h : Kept s t) : Completes s (execFswFsd c fmt rs2 rs1 imm t) :=
  .next (h.runInstr fun _ h1 => h1.storeAt)

theorem Kept.askCompanion {c pa pl slack} (h : Kept s t) : Kept s (t.askCompanion c pa pl slack) :=
  h.ask

theorem Kept.reserve {c pa pl slack} (h : Kept s t) : Kept s (t.reserve c pa pl slack) :=
  h.askCompanion.setCore.send

theorem execLdres_completes {c double rd rs1} (h : Kept s t) : Completes s (execLdres c double rd rs1 t) := by
  unfold execLdres
  refine .next (h.runInstr fun _ h1 => ?_)
  dsimp only
  split
  · exact h1.translate.out ‹_›
  · refine .ite_ires (h1.translate.out ‹_›).kickDrain ?_
    split
    · exact (h1.translate.out ‹_›).setCore
    · exact (h1.translate.out ‹_›).own.askCompanion
    · split
      · exact (h1.translate.out ‹_›).compareAccess.stopped ‹_›
      · split
        · exact ((h1.translate.out ‹_›).compareAccess.goesOn ‹_›).setCore.reserve
        · refine .ite_ires ((h1.translate.out ‹_›).compareAccess.goesOn ‹_›).log ?_
          exact ((h1.translate.out ‹_›).compareAccess.goesOn ‹_›).setCore.reserve

theorem execReservationTimeout_completes {c} (h : Kept s t) : Completes s (execReservationTimeout c t) := by
  unfold execReservationTimeout
  dsimp only
  split
  · exact .ite (.next h.setCore) (.next h)
  · exact .next h

theorem execStcond_completes {c double rd rs1 rs2} (h : Kept s t) : Completes s (execStcond c double rd rs1 rs2 t) := by
  unfold execStcond
  refine .next (h.runInstr fun u hu => ?_)
  extract_lets n x0 va size pl end_
  split
  · exact hu.translate.out ‹_›
  · next parts s1 hs1 =>
    have h1 : Kept s s1 := hu.translate.out hs1
    extract_lets x pa barred issue first beyond cmp refused
    have hi : Kept s issue := h1.setCore
    have he : ∀ v b, Kept s v → Kept s (end_ v b).state := fun v b hv => (Kept.ite hv.coreEvent hv).setCore
    have hc : ∀ k : State → IRes, (∀ v, Kept s v → Kept s (k v).state) → Kept s (cmp k).state := by
      intro k hk
      dsimp only [cmp]
      split
      · exact h1.compareAccess.stopped ‹_›
      · exact hk _ (h1.compareAccess.goesOn ‹_›)
    clear_value end_ cmp issue refused
    refine .ite_ires h1 (.ite_ires hi.kickDrain (.ite_ires (hc _ fun v hv => he _ _ hv) ?_))
    have hw := Kept.ite (c := first = true) (hi.setCore (n := n) (x := { issue.core n with refused := [] })) hi
    generalize x.line pa = o
    cases refused with
    | some st => exact h1.setCore
    | none =>
      cases o with
      | none => exact hw.own
      | some l =>
        refine .ite_ires (hc _ fun v hv => ?_) ?_
        · exact .ite_ires hv.setCore.log (he _ _ hv.visible)
        · exact hw.own

theorem execRegisterWrite_completes {who addr size value} (h : Kept s t) :
    Completes s (execRegisterWrite who addr size value t) := by
  unfold execRegisterWrite
  split
  · split
    · exact .next (h.busWrite.out ‹_›).storeError
    · exact .next (h.busWrite.out ‹_›)
  · exact .next (h.busWrite.out ‹_›)

/-! ### What the operations of Machine/Answers.lean keep -/

theorem Kept.answerLine {c line x} (h : Kept s t) : Kept s (t.answerLine c line x) :=
  h.setLine.kickDrain

theorem Kept.giveMiss {c line nc g} (h : Kept s t) : Kept s (t.giveMiss c line nc g) :=
  h.setCore

theorem Kept.endGrant {c line} (h : Kept s t) : Kept s (t.endGrant c line) :=
  h.send

theorem execDataShared_completes {dst line data poison once} (h : Kept s t) :
    Completes s (execDataShared dst line data poison once t) := by
  unfold execDataShared
  dsimp only
  split
  · refine .ite (.next h.giveMiss) ?_
    split
    · split
      · exact .next h.giveMiss.answerLine
      · exact .next h.giveMiss.answerLine
      · exact .next h
    · exact .next h
  · exact .next h.pcWindow
  · exact .next h.dataHome
  · exact .next h
  · exact .next h
  · exact .next h
  · exact .next h

theorem execDataUnique_completes {dst line data poison acks} (h : Kept s t) :
    Completes s (execDataUnique dst line data poison acks t) := by
  unfold execDataUnique
  dsimp only
  split
  · split
    · split
      · exact .next h.giveMiss.answerLine.endGrant
      · exact .next h.giveMiss.answerLine.endGrant
      · exact .next h.granted
      · exact .next h
    · exact .next h
  · exact .next h.dataHome
  · exact .next h
  · exact .next h
  · exact .next h
  · exact .next h
  · exact .next h

theorem execDataDirty_completes {dst line data poison acks} (h : Kept s t) :
    Completes s (execDataDirty dst line data poison acks t) := by
  unfold execDataDirty
  dsimp only
  split
  · split
    · split
      · exact .next h.granted
      · exact .next h
    · exact .next h
  · exact .next h.dataHome
  · exact .next h
  · exact .next h
  · exact .next h
  · exact .next h
  · exact .next h

theorem Kept.refusedLine {c line x st} (h : Kept s t) : Kept s (t.refusedLine c line x st) :=
  h.setLine.setCore.kickDrain

theorem Kept.writeDone {c st} (h : Kept s t) : Kept s (t.writeDone c st) := by
  unfold State.writeDone
  split
  · refine .ite h ?_
    split
    · exact h.popStore.ownAhead
    · exact h.popStore.ownAhead
    · exact h.failFront
    · exact h.failFront
  · exact h

theorem Kept.refusedOnce {c line st} (h : Kept s t) : Kept s (t.refusedOnce c line st) :=
  .ite h h.giveMiss

theorem execComp_completes {dst line status acks write prior} (h : Kept s t) :
    Completes s (execComp dst line status acks write prior t) := by
  unfold execComp
  dsimp only
  split
  · refine .ite (.next h.writeDone) ?_
    split
    · split
      · exact .ite (.next h.granted) (.next h.refusedLine)
      · exact .ite (.next h.granted) (.next h.refusedLine)
      · exact .ite (.next h) (.next h.refusedLine)
      · exact .ite (.next h) (.next h.giveMiss.answerLine)
      · exact .ite (.next h) (.next h.giveMiss.answerLine)
      · exact .next h.refusedOnce
    · exact .next h.refusedOnce
  · exact .next h.pcWindow
  · exact .next h.engineComp
  · exact .next h.postAnswer
  · exact .next h
  · exact .next h
  · exact .next h

theorem execDoorbell_completes {q who value stamp} (h : Kept s t) : Completes s (execDoorbell q who value stamp t) := by
  unfold execDoorbell
  split
  · exact .next (h.doorbell.out ‹_›).storeError
  · exact .next (h.doorbell.out ‹_›)

theorem Kept.pointStored {c n who refused} (h : Kept s t) : Kept s (t.pointStored c n who refused) := by
  unfold State.pointStored
  split
  · refine .ite ?_ ?_
    · split
      · exact h.failFront
      · exact h.popStore.ownAhead
    · split
      · exact h.storeError
      · exact h
  · split
    · exact h.storeError
    · exact h

theorem execPointAccess_completes {pt who access bad} (h : Kept s t) : Completes s (execPointAccess pt who access bad t) := by
  unfold execPointAccess
  dsimp only
  split
  · exact .next h.pointBad.pointRead
  · exact .next h.pointBad.pointRead
  · split
    · exact .next h.pointBad.pointWrite.pointStored
    · exact .next h.pointBad.pointWrite

/-! ### What the operations of Machine/SysIsa.lean keep -/

theorem execMfsr_completes {c rd number} (h : Kept s t) : Completes s (execMfsr c rd number t) := by
  unfold execMfsr
  refine .next (h.runInstr fun _ h1 => ?_)
  split
  · exact h1
  · exact .setCore (.ite h1.syncCycles h1)

theorem Kept.putSr {c n v latent} (h : Kept s t) : Kept s (t.putSr c n v latent) := by
  unfold State.putSr
  extract_lets s0
  have hs0 : Kept s s0 := .ite h.syncCycles h
  refine .ite hs0 ?_
  split
  · exact hs0
  · refine .ite (.ite hs0.setCore.setCore.coreEvent hs0.setCore.setCore.recognise) ?_
    refine .ite ?_ ?_
    · split
      · exact hs0.setSr.recognise
      · exact hs0
    · refine .ite hs0.setCore.setCore.armTimer (.ite (.ite hs0.setCore.absorbRecord hs0.setCore) ?_)
      exact .ite hs0.setCore.setCore (.ite (.syncCycles (.ite hs0.setCore.setCore hs0.setCore)) hs0.setCore.recognise)

theorem execMtsr_completes {c rs1 number} (h : Kept s t) : Completes s (execMtsr c rs1 number t) := by
  unfold execMtsr
  refine .next (h.runInstr fun _ h1 => ?_)
  dsimp only
  split
  · exact h1
  · exact .ite_ires h1.retire.putSr h1.putSr

theorem Kept.tlbiReach {c o} (h : Kept s t) : Kept s (t.tlbiReach c o) :=
  .setCore (.ite h.other.other h.other)

theorem Kept.startTlbi {c o} (h : Kept s t) : Kept s (t.startTlbi c o).state :=
  .ite_ires h.tlbiReach.send h.setCore.kickDrain

theorem execTlbiCompletion_completes {c} (h : Kept s t) : Completes s (execTlbiCompletion c t) := by
  unfold execTlbiCompletion
  dsimp only
  split
  · exact .next h
  · exact .ite (.next h.setCore.recognise) (.next h.send)

theorem tlbi_completes {c level op} (h : Kept s t) : Completes s (t.tlbi c level op) :=
  .next (h.runInstr fun _ h1 => .ite_ires h1 h1.startTlbi)

theorem execTlbiVa_completes {c rs1 rs2} (h : Kept s t) : Completes s (execTlbiVa c rs1 rs2 t) :=
  tlbi_completes h

theorem execTlbiAsid_completes {c rs1} (h : Kept s t) : Completes s (execTlbiAsid c rs1 t) :=
  tlbi_completes h

theorem execTlbiGuest_completes {c} (h : Kept s t) : Completes s (execTlbiGuest c t) :=
  tlbi_completes h

theorem execTlbiIpa_completes {c rs1 rs2} (h : Kept s t) : Completes s (execTlbiIpa c rs1 rs2 t) :=
  tlbi_completes h

theorem execTlbiVmid_completes {c rs1} (h : Kept s t) : Completes s (execTlbiVmid c rs1 t) :=
  tlbi_completes h

theorem execTlbiAll_completes {c} (h : Kept s t) : Completes s (execTlbiAll c t) :=
  tlbi_completes h

/-! ### What the operations of Machine/Debug.lean keep -/

theorem Kept.askHalt {c reason ns} (h : Kept s t) : Kept s (t.askHalt c reason ns) :=
  .ite h.setCore.send h

theorem execHaltReq_completes {c} (h : Kept s t) : Completes s (execHaltReq c t) :=
  .next h.askHalt

theorem execCoreHalt_completes {c} (h : Kept s t) : Completes s (execCoreHalt c t) := by
  unfold execCoreHalt
  dsimp only
  split
  · exact .next h
  · exact .ite (.next h.setCore) (.ite (.next h.send) (.next h.setCore.haltCore))

theorem Kept.letGo {c step} (h : Kept s t) : Kept s (t.letGo c step) := by
  unfold State.letGo
  refine .ite ?_ h
  dsimp only
  split
  · exact .ite h.setCore.wb.takeInterrupt h.setCore.wb.syncCycles.recognise
  · exact h.setCore.wb.syncCycles

theorem execResume_completes {c} (h : Kept s t) : Completes s (execResume c t) :=
  .next h.letGo

theorem execStep_completes {c} (h : Kept s t) : Completes s (execStep c t) :=
  .next h.letGo

theorem Kept.selected {c} (h : Kept s t) : Kept s (t.selected c).2 := by
  unfold State.selected
  dsimp only
  split
  · exact .ite_snd h h.fresh
  · exact .ite_snd h h.fresh
  · exact .ite_snd h h.fresh
  · exact h

theorem Kept.setSelected {c v} (h : Kept s t) : Kept s (t.setSelected c v) := by
  unfold State.setSelected
  dsimp only
  split
  · exact .ite h.setCore h
  · exact .ite h.setCore h
  · exact h.putSr
  · exact h.setCore

theorem Kept.askPcHalt {n reason} (h : Kept s t) : Kept s (t.askPcHalt n reason) :=
  .ite h.setPcore.pcStop h

theorem execPcHaltReq_completes {pc} (h : Kept s t) : Completes s (execPcHaltReq pc t) :=
  .next h.askPcHalt

theorem Kept.pcLetGo {n step} (h : Kept s t) : Kept s (t.pcLetGo n step) :=
  .ite h.setPcore.wb.setPcState.testPreempt h

theorem execPcResume_completes {pc} (h : Kept s t) : Completes s (execPcResume pc t) :=
  .next h.pcLetGo

theorem execPcStep_completes {pc} (h : Kept s t) : Completes s (execPcStep pc t) :=
  .next h.pcLetGo

theorem Kept.setPcSelected {n v} (h : Kept s t) : Kept s (t.setPcSelected n v) := by
  unfold State.setPcSelected
  refine .ite h.setPreg ?_
  split
  · exact h.setPacc
  · exact h.setPacc
  · exact h.setPacc
  · exact h.setPacc
  · exact h.setPcore
  · exact h

theorem Kept.fireTrigger {x} (h : Kept s t) : Kept s (t.fireTrigger x) := by
  unfold State.fireTrigger
  refine .ite h ?_
  refine .ite ?_ ?_
  · refine .shutter (.ite (.setFreeze (.foldl (h.wb.foldl fun _ _ h1 => h1.askHalt) fun _ _ h1 => h1.askPcHalt)) ?_)
    exact .foldl (h.wb.foldl fun _ _ h1 => h1.askHalt) fun _ _ h1 => h1.askPcHalt
  · refine .ite (.setFreeze (.foldl (h.wb.foldl fun _ _ h1 => h1.askHalt) fun _ _ h1 => h1.askPcHalt)) ?_
    exact .foldl (h.wb.foldl fun _ _ h1 => h1.askHalt) fun _ _ h1 => h1.askPcHalt

theorem execCrossTrigger_completes {x} (h : Kept s t) : Completes s (execCrossTrigger x t) :=
  .next h.fireTrigger

theorem Kept.sysGo {v} (h : Kept s t) : Kept s (t.sysGo v) := by
  unfold State.sysGo
  refine .ite h.wr (.ite h.wr.wf ?_)
  refine .ite ?_ ?_
  · split <;> exact (h.wr.busWrite.out ‹_›).wf
  · split
    · exact (h.wr.busRead.out ‹_›).wr.wf
    · exact (h.wr.busRead.out ‹_›).wf

theorem execDbgSysGo_completes {value} (h : Kept s t) : Completes s (execDbgSysGo value t) :=
  .next (.ite h.sysGo h)

theorem Kept.samplePins {n} (h : Kept s t) : Kept s (t.samplePins n).2 := by
  induction n with
  | zero => exact h
  | succ n ih => exact ih.sampleLevel

theorem Kept.scanChain {levels enables} (h : Kept s t) : Kept s (t.scanChain levels enables) := by
  unfold State.scanChain
  split
  next s1 hs1 =>
  have h1 : Kept s s1 := h.samplePins.out hs1
  exact h1.other

theorem execSamplePreload_completes {levels enables} (h : Kept s t) : Completes s (execSamplePreload levels enables t) :=
  .next (.ite h.endScan.scanChain h)

theorem execExtest_completes {levels enables} (h : Kept s t) : Completes s (execExtest levels enables t) :=
  .ite (.next h) (.ite (.next (h.scanChain.foldl fun _ _ h1 => h1.setPin)) (.next h.endScan))

theorem Kept.dbgRead {off} (h : Kept s t) : Kept s (t.dbgRead off).2 := by
  unfold State.dbgRead
  split
  · exact .ite_snd h.selected h
  · exact h
  · exact h

theorem Kept.dbgWrite {off v} (h : Kept s t) : Kept s (t.dbgWrite off v) := by
  unfold State.dbgWrite
  split
  · split
    · refine .ite ?_ ?_
      · exact .letGo (.ite (.letGo (.ite h.storeReg.askHalt h.storeReg)) (.ite h.storeReg.askHalt h.storeReg))
      · exact .ite (.letGo (.ite h.storeReg.askHalt h.storeReg)) (.ite h.storeReg.askHalt h.storeReg)
    · exact h.setSelected
    · exact h.storeReg
  · split
    · refine .ite (.pcLetGo (.ite (.pcLetGo (.ite h.askPcHalt h)) (.ite h.askPcHalt h))) ?_
      exact .ite (.pcLetGo (.ite h.askPcHalt h)) (.ite h.askPcHalt h)
    · exact h.setPcSelected
    · exact h.storeReg
  · exact .ite h.sysGo h.storeReg

theorem Kept.dbgAnswer {status data} (h : Kept s t) : Kept s (t.dbgAnswer status data) :=
  h.other

theorem Kept.dbgAccess {write off data} (h : Kept s t) : Kept s (t.dbgAccess write off data) := by
  unfold State.dbgAccess
  dsimp only
  split
  · exact h.dbgAnswer
  · refine .ite h.dbgAnswer ?_
    exact .ite (.ite h.other.dbgAnswer (.ite h.other.dbgWrite.dbgAnswer h.dbgWrite.dbgAnswer)) h.dbgRead.dbgAnswer

theorem execDbgAcc_completes {dr} (h : Kept s t) : Completes s (execDbgAcc dr t) :=
  .ite (.next h) (.ite (.next h.endScan.dbgAnswer) (.next h.endScan.dbgAccess))

/-! ### What the operations of Machine/Areas.lean keep -/

theorem Kept.lockArea {area first count} (h : Kept s t) : Kept s (t.lockArea area first count) :=
  h.other

theorem Kept.writeList {pl3 ws} (h : Kept s t) : Kept s (t.writeList pl3 ws) :=
  h.foldl fun _ _ h1 => h1.busWrite

/-! ### What the operations of Machine/Lemam.lean keep -/

theorem Kept.await {r n} (h : Kept s t) : Kept s (t.await r n) :=
  h.editLemam

theorem Kept.defer {d} (h : Kept s t) : Kept s (t.defer d) := by
  unfold State.defer
  extract_lets s1
  have hs1 : Kept s s1 := h.editLemam.lemamShow
  exact .ite hs1 hs1.send

theorem Kept.runModeSet {r t'} (h : Kept s t) : Kept s (t.runModeSet r t') := by
  unfold State.runModeSet
  refine .ite h.reply ?_
  split
  · exact h.enterMode.reply.send
  · exact .ite h.agreeOn.await (.ite h.askWake.await h.enterMode.reply)
  · exact h.agreeOn.await
  · exact .ite h.safeHold.await h.safeHold.reply
  · exact h.enterMode.reply

theorem Kept.setPoint_ {c point} (h : Kept s t) : Kept s (t.setPoint_ c point) :=
  .ite h (h.syncCycles.recountReservation fun _ h1 => h1.wf)

theorem Kept.runPower {r core code} (h : Kept s t) : Kept s (t.runPower r core code) := by
  unfold State.runPower
  dsimp only
  split
  · exact .ite h.stopCore.await.kickLemam h.reply
  · exact .reply (.ite h.releaseCore h)
  · exact .reply (h.foldl fun _ _ h1 => h1.setPoint_)

theorem Kept.loadSet {n set words} (h : Kept s t) : Kept s (t.loadSet n set words) :=
  h.foldl fun _ _ h1 => h1.wr

theorem Kept.selectSet {set channels} (h : Kept s t) : Kept s (t.selectSet set channels) :=
  h.foldl fun _ _ h1 => h1.wf.wb

theorem Kept.setScrub {n hours} (h : Kept s t) : Kept s (t.setScrub n hours) :=
  .ite h.setMc h.setMc.after

theorem Kept.flashChannel {n} (h : Kept s t) : Kept s (t.flashChannel n) :=
  h.filterMem.other

theorem Kept.endRepair {d results} (h : Kept s t) : Kept s (t.endRepair d results) :=
  .ite h.reply (.reply (.log (h.foldl fun _ _ h1 => h1.poisonLine)))

theorem Kept.lemamCleared (h : Kept s t) : Kept s t.lemamCleared :=
  h.editLemam.lemamShow

theorem Kept.enterReturn (h : Kept s t) : Kept s t.enterReturn :=
  .kickLemam (.armAvs (.bootHalt (h.closeDebug.eraseAll.lemamCleared.foldl fun _ _ h1 => h1.setCore.wb)))

theorem Kept.runLifecycle {r c} (h : Kept s t) : Kept s (t.runLifecycle r c) := by
  unfold State.runLifecycle
  refine .ite h.fresh.reply (.ite h.fresh.editEnc.reply ?_)
  exact .ite h.fresh.editEnc.enterReturn.reply (.reply (.ite h.fresh.editEnc.endScan.after h.fresh.editEnc.closeDebug))

theorem Kept.runUnlock {r} (h : Kept s t) : Kept s (t.runUnlock r) := by
  unfold State.runUnlock
  extract_lets prev s1 s2 s3 s4
  have h1 : Kept s s1 := h.warmReset
  clear_value s1
  have h2 : Kept s s2 := ⟨⟨fun _ => rfl, h1.regs, h1.agenda, h1.clk⟩, h1.pending⟩
  have h3 : Kept s s3 := h2.wr.clearAllKeys.editEnc
  have h4 : Kept s s4 := h3.modeAfter.reply
  exact h4.setModes.after

theorem Kept.cmdRun {c} (h : Kept s t) : Kept s (t.cmdRun c) := by
  unfold State.cmdRun
  dsimp only
  split
  · exact h.reply
  · exact h.reply
  · exact h.runModeSet
  · exact h.reply
  · exact h.runPower
  · exact h.reply
  · exact h.reply
  · exact h.engage.reply
  · exact h.reply
  · exact h.other.reply
  · exact h.setModes.reply
  · exact h.loadSet.reply
  · exact h.selectSet.defer
  · exact h.defer
  · exact h.setMc.await
  · exact h.defer
  · exact .reply (h.foldl fun _ _ h1 => h1.setScrub)
  · exact h.makeVi.reply
  · exact h.resetVi.defer
  · exact h.resetVi.defer
  · exact h.bindQueue.reply
  · exact h.resetQueue.defer
  · exact h.writeList.reply
  · exact h.writeList.reply
  · exact h.writeList.reply
  · exact h.writeList.reply
  · exact h.writeList.reply
  · exact h.stepTime.reply
  · exact h.reply
  · exact .ite h.shutter.reply h.storeReg.armShutter.reply
  · exact h.runLifecycle
  · exact h.runUnlock
  · exact h.lockArea.reply
  · exact h.reply

theorem Kept.command {c} (h : Kept s t) : Kept s (t.command c) :=
  .ite h.cmdRun h.reply

theorem Kept.toPeer {c} (h : Kept s t) : Kept s (t.toPeer c) :=
  .ite h.reply (.ite h.reply (.ite h.reply h.editLemam.present))

theorem execPeerCommand_completes {packet} (h : Kept s t) : Completes s (execPeerCommand packet t) :=
  .ite (.next h) (.next h.editLemam.kickLemam)

theorem execPeerReply_completes {packet} (h : Kept s t) : Completes s (execPeerReply packet t) := by
  unfold execPeerReply
  dsimp only
  split
  · exact .next h
  · exact .ite (.next h.editLemam.reply) (.next h.editLemam.reply)

theorem Kept.takeRing {j} (h : Kept s t) : Kept s (t.takeRing j) := by
  unfold State.takeRing
  refine .ite h.ringError ?_
  split
  · exact h.ringError
  · split
    · exact h.ringError
    · exact .ite h.wr.toPeer h.wr.command

theorem Kept.takeFrom {k} (h : Kept s t) : Kept s (t.takeFrom k) := by
  unfold State.takeFrom
  refine .ite h.takeRing (.ite h.editLemam.command ?_)
  refine .ite ?_ ?_
  · split
    · exact h
    · exact h.editLemam.command
  · split
    · exact h
    · exact h.other.command

theorem Kept.settleOne {w} (h : Kept s t) : Kept s (t.settleOne w) := by
  unfold State.settleOne
  refine .ite (.ite h.reply (.ite h.await h.reply)) ?_
  exact .ite (.ite h.gateCore.reply h.await) (.ite (.ite h.coreLost h.await) (.ite h.reply h.await))

theorem Kept.settleWaiting (h : Kept s t) : Kept s t.settleWaiting :=
  h.editLemam.foldl fun _ _ h1 => h1.settleOne

theorem execCommandTake_completes (h : Kept s t) : Completes s (execCommandTake t) := by
  unfold execCommandTake
  refine .ite (.next h) (.next ?_)
  refine .ite ?_ ?_
  · refine .kickLemam ?_
    refine .ite ?_ ?_
    · refine .kickLemam ?_
      split
      · exact h.settleWaiting
      · exact h.settleWaiting.editLemam.takeFrom
    · split
      · exact h.settleWaiting
      · exact h.settleWaiting.editLemam.takeFrom
  · refine .ite ?_ ?_
    · refine .kickLemam ?_
      split
      · exact h.settleWaiting
      · exact h.settleWaiting.editLemam.takeFrom
    · split
      · exact h.settleWaiting
      · exact h.settleWaiting.editLemam.takeFrom

theorem Kept.deferredEnd {d results} (h : Kept s t) : Kept s (t.deferredEnd d results) := by
  unfold State.deferredEnd
  split
  · exact .reply (h.foldl fun _ _ h1 => h1.flashChannel)
  · exact h.endRepair
  · split
    · exact h.dropVi.reply
    · exact h.reply

theorem execDeferredComplete_completes {seq opcode src results} (h : Kept s t) :
    Completes s (execDeferredComplete seq opcode src results t) := by
  unfold execDeferredComplete
  dsimp only
  split
  · exact .next h
  · exact .ite (.next h.editLemam.deferredEnd.lemamShow) (.ite (.next h) (.next h.send))

/-! ### What the operations of Machine/LemamRows.lean keep -/

theorem Kept.row {src opcode params} (h : Kept s t) : Kept s (t.row src opcode params) :=
  .ite h.command h

theorem execEcho_completes {src bytes} (h : Kept s t) : Completes s (execEcho src bytes t) :=
  .next h.row

theorem execGetInfo_completes {src} (h : Kept s t) : Completes s (execGetInfo src t) :=
  .next h.row

theorem execModeSet_completes {src mode} (h : Kept s t) : Completes s (execModeSet src mode t) :=
  .next h.row

theorem execModeGet_completes {src} (h : Kept s t) : Completes s (execModeGet src t) :=
  .next h.row

theorem execPowerPointSet_completes {src core point} (h : Kept s t) : Completes s (execPowerPointSet src core point t) :=
  .next h.row

theorem execPvtRead_completes {src kind first count} (h : Kept s t) : Completes s (execPvtRead src kind first count t) :=
  .next h.row

theorem execSpareStatus_completes {src kind quad} (h : Kept s t) : Completes s (execSpareStatus src kind quad t) :=
  .next h.row

theorem execSpareEngage_completes {src kind quad group unit} (h : Kept s t) :
    Completes s (execSpareEngage src kind quad group unit t) :=
  .next h.row

theorem execContactRead_completes {src first count} (h : Kept s t) : Completes s (execContactRead src first count t) :=
  .next h.row

theorem execContactClear_completes {src} (h : Kept s t) : Completes s (execContactClear src t) :=
  .next h.row

theorem execDramConfig_completes {src params} (h : Kept s t) : Completes s (execDramConfig src params t) :=
  .next h.row

theorem execDramDelaysetLoad_completes {src params} (h : Kept s t) : Completes s (execDramDelaysetLoad src params t) :=
  .next h.row

theorem execDramDelaysetSelect_completes {src set mask} (h : Kept s t) : Completes s (execDramDelaysetSelect src set mask t) :=
  .next h.row

theorem execDramMarginScan_completes {src params} (h : Kept s t) : Completes s (execDramMarginScan src params t) :=
  .next h.row

theorem execDramEraseDevice_completes {src channel sub rank device} (h : Kept s t) :
    Completes s (execDramEraseDevice src channel sub rank device t) :=
  .next h.row

theorem execDramRepairRow_completes {src params} (h : Kept s t) : Completes s (execDramRepairRow src params t) :=
  .next h.row

theorem execDramScrubSet_completes {src mask hours} (h : Kept s t) : Completes s (execDramScrubSet src mask hours t) :=
  .next h.row

theorem execViCreate_completes {src params} (h : Kept s t) : Completes s (execViCreate src params t) :=
  .next h.row

theorem execViDestroy_completes {src vi} (h : Kept s t) : Completes s (execViDestroy src vi t) :=
  .next h.row

theorem execViReset_completes {src vi} (h : Kept s t) : Completes s (execViReset src vi t) :=
  .next h.row

theorem execQueueBind_completes {src params} (h : Kept s t) : Completes s (execQueueBind src params t) :=
  .next h.row

theorem execQueueReset_completes {src queue} (h : Kept s t) : Completes s (execQueueReset src queue t) :=
  .next h.row

theorem execPortConfig_completes {src port writes} (h : Kept s t) : Completes s (execPortConfig src port writes t) :=
  .next h.row

theorem execSwitchConfig_completes {src writes} (h : Kept s t) : Completes s (execSwitchConfig src writes t) :=
  .next h.row

theorem execDinathConfig_completes {src writes} (h : Kept s t) : Completes s (execDinathConfig src writes t) :=
  .next h.row

theorem execPhaseBaseConfig_completes {src base writes} (h : Kept s t) : Completes s (execPhaseBaseConfig src base writes t) :=
  .next h.row

theorem execTimeStep_completes {src step} (h : Kept s t) : Completes s (execTimeStep src step t) :=
  .next h.row

theorem execPairConfig_completes {src writes} (h : Kept s t) : Completes s (execPairConfig src writes t) :=
  .next h.row

theorem execPairStatus_completes {src} (h : Kept s t) : Completes s (execPairStatus src t) :=
  .next h.row

theorem execShutter_completes {src gt} (h : Kept s t) : Completes s (execShutter src gt t) :=
  .next h.row

theorem execLifecycleAdvance_completes {src params} (h : Kept s t) : Completes s (execLifecycleAdvance src params t) :=
  .next h.row

theorem execDebugUnlock_completes {src} (h : Kept s t) : Completes s (execDebugUnlock src t) :=
  .next h.row

theorem execLockRegion_completes {src area first count} (h : Kept s t) : Completes s (execLockRegion src area first count t) :=
  .next h.row

theorem execConfigChecksum_completes {src area first count} (h : Kept s t) :
    Completes s (execConfigChecksum src area first count t) :=
  .next h.row

/-! ### What the operations of Machine/MainIsa.lean keep -/

theorem opRR_completes {c rd rs1 rs2 f} (h : Kept s t) : Completes s (t.opRR c rd rs1 rs2 f) :=
  .next h.regInstr

theorem opR_completes {c rd rs1 f} (h : Kept s t) : Completes s (t.opR c rd rs1 f) :=
  .next h.regInstr

theorem execAdd_completes {c sub rd rs1 rs2} (h : Kept s t) : Completes s (execAdd c sub rd rs1 rs2 t) :=
  opRR_completes h

theorem execAnd_completes {c fn rd rs1 rs2} (h : Kept s t) : Completes s (execAnd c fn rd rs1 rs2 t) :=
  opRR_completes h

theorem execSll_completes {c fn rd rs1 rs2} (h : Kept s t) : Completes s (execSll c fn rd rs1 rs2 t) :=
  opRR_completes h

theorem execSlt_completes {c sign rd rs1 rs2} (h : Kept s t) : Completes s (execSlt c sign rd rs1 rs2 t) :=
  opRR_completes h

theorem execMinMax_completes {c fn rd rs1 rs2} (h : Kept s t) : Completes s (execMinMax c fn rd rs1 rs2 t) :=
  opRR_completes h

theorem execMinuMaxu_completes {c fn rd rs1 rs2} (h : Kept s t) : Completes s (execMinuMaxu c fn rd rs1 rs2 t) :=
  opRR_completes h

theorem execClzCtz_completes {c trailing rd rs1} (h : Kept s t) : Completes s (execClzCtz c trailing rd rs1 t) :=
  opR_completes h

theorem execPopc_completes {c rd rs1} (h : Kept s t) : Completes s (execPopc c rd rs1 t) :=
  opR_completes h

theorem execAddwSubw_completes {c sub rd rs1 rs2} (h : Kept s t) : Completes s (execAddwSubw c sub rd rs1 rs2 t) :=
  opRR_completes h

theorem execSllw_completes {c fn rd rs1 rs2} (h : Kept s t) : Completes s (execSllw c fn rd rs1 rs2 t) :=
  opRR_completes h

theorem execMul_completes {c rd rs1 rs2} (h : Kept s t) : Completes s (execMul c rd rs1 rs2 t) :=
  opRR_completes h

theorem execMulh_completes {c fn rd rs1 rs2} (h : Kept s t) : Completes s (execMulh c fn rd rs1 rs2 t) :=
  opRR_completes h

theorem execMulw_completes {c rd rs1 rs2} (h : Kept s t) : Completes s (execMulw c rd rs1 rs2 t) :=
  opRR_completes h

theorem execDiv_completes {c sign rd rs1 rs2} (h : Kept s t) : Completes s (execDiv c sign rd rs1 rs2 t) :=
  opRR_completes h

theorem execRem_completes {c sign rd rs1 rs2} (h : Kept s t) : Completes s (execRem c sign rd rs1 rs2 t) :=
  opRR_completes h

theorem execDivw_completes {c fn rd rs1 rs2} (h : Kept s t) : Completes s (execDivw c fn rd rs1 rs2 t) :=
  opRR_completes h

theorem execAddi_completes {c rd rs1 imm} (h : Kept s t) : Completes s (execAddi c rd rs1 imm t) :=
  opR_completes h

theorem execAddiw_completes {c rd rs1 imm} (h : Kept s t) : Completes s (execAddiw c rd rs1 imm t) :=
  opR_completes h

theorem execAndi_completes {c fn rd rs1 imm} (h : Kept s t) : Completes s (execAndi c fn rd rs1 imm t) :=
  opR_completes h

theorem execSlti_completes {c sign rd rs1 imm} (h : Kept s t) : Completes s (execSlti c sign rd rs1 imm t) :=
  opR_completes h

theorem execSlli_completes {c fn word rd rs1 amount} (h : Kept s t) : Completes s (execSlli c fn word rd rs1 amount t) :=
  .next (h.runInstr fun _ h1 => .ite_ires h1 h1.setCore)

theorem execLui_completes {c rd imm} (h : Kept s t) : Completes s (execLui c rd imm t) :=
  .next h.regInstr

theorem execAuipc_completes {c rd imm} (h : Kept s t) : Completes s (execAuipc c rd imm t) :=
  .next h.regInstr

theorem branch_completes {c rs1 rs2 off taken} (h : Kept s t) : Completes s (t.branch c rs1 rs2 off taken) := by
  unfold State.branch
  refine .next (h.runInstr fun _ h1 => ?_)
  refine .ite_ires (.ite h1.setCore.coreEvent h1.setCore.coreEvent.coreEvent) ?_
  exact .ite h1.setCore.coreEvent h1.setCore.coreEvent.coreEvent

theorem execBeqBne_completes {c ne rs1 rs2 off} (h : Kept s t) : Completes s (execBeqBne c ne rs1 rs2 off t) :=
  branch_completes h

theorem execBltBge_completes {c ge rs1 rs2 off} (h : Kept s t) : Completes s (execBltBge c ge rs1 rs2 off t) :=
  branch_completes h

theorem execBltuBgeu_completes {c ge rs1 rs2 off} (h : Kept s t) : Completes s (execBltuBgeu c ge rs1 rs2 off t) :=
  branch_completes h

theorem execJ_completes {c off} (h : Kept s t) : Completes s (execJ c off t) :=
  .next (h.runInstr fun _ h1 => h1)

theorem execJal_completes {c off} (h : Kept s t) : Completes s (execJal c off t) :=
  .next (h.runInstr fun _ h1 => h1.setCore)

theorem execJalr_completes {c rd rs1 imm} (h : Kept s t) : Completes s (execJalr c rd rs1 imm t) :=
  .next (h.runInstr fun _ h1 => .ite h1.setCore.coreEvent.coreEvent h1.setCore.coreEvent)

theorem Kept.openLoop {c lvl count len} (h : Kept s t) : Kept s (t.openLoop c lvl count len).state :=
  .ite_ires h (.ite_ires h.setCore h.setCore)

theorem execLoop_completes {c lvl rs1 len} (h : Kept s t) : Completes s (execLoop c lvl rs1 len t) :=
  .next (h.runInstr fun _ h1 => h1.openLoop)

theorem execLoopi_completes {c lvl count len} (h : Kept s t) : Completes s (execLoopi c lvl count len t) :=
  .next (h.runInstr fun _ h1 => h1.openLoop)

theorem opF_completes {c rd f} (h : Kept s t) : Completes s (t.opF c rd f) :=
  .next h.regInstr

theorem opFG_completes {c rd f} (h : Kept s t) : Completes s (t.opFG c rd f) :=
  .next h.regInstr

theorem execFadd_completes {c fn fmt rm rd rs1 rs2} (h : Kept s t) : Completes s (execFadd c fn fmt rm rd rs1 rs2 t) :=
  opF_completes h

theorem execFsqrt_completes {c fmt rm rd rs1} (h : Kept s t) : Completes s (execFsqrt c fmt rm rd rs1 t) :=
  opF_completes h

theorem execFminFmax_completes {c fn fmt rd rs1 rs2} (h : Kept s t) : Completes s (execFminFmax c fn fmt rd rs1 rs2 t) :=
  opF_completes h

theorem execFsign_completes {c fn fmt rd rs1 rs2} (h : Kept s t) : Completes s (execFsign c fn fmt rd rs1 rs2 t) :=
  opF_completes h

theorem execFeq_completes {c fn fmt rd rs1 rs2} (h : Kept s t) : Completes s (execFeq c fn fmt rd rs1 rs2 t) :=
  opFG_completes h

theorem execFkind_completes {c fmt rd rs1} (h : Kept s t) : Completes s (execFkind c fmt rd rs1 t) :=
  opFG_completes h

theorem execFtoiW_completes {c sign fmt rm rd rs1} (h : Kept s t) : Completes s (execFtoiW c sign fmt rm rd rs1 t) :=
  opFG_completes h

theorem execFtoiL_completes {c sign fmt rm rd rs1} (h : Kept s t) : Completes s (execFtoiL c sign fmt rm rd rs1 t) :=
  opFG_completes h

theorem execItofW_completes {c sign fmt rm rd rs1} (h : Kept s t) : Completes s (execItofW c sign fmt rm rd rs1 t) :=
  opF_completes h

theorem execItofL_completes {c sign fmt rm rd rs1} (h : Kept s t) : Completes s (execItofL c sign fmt rm rd rs1 t) :=
  opF_completes h

theorem execFresize_completes {c fmt rm rd rs1} (h : Kept s t) : Completes s (execFresize c fmt rm rd rs1 t) :=
  opF_completes h

theorem execFbitsG_completes {c fmt rd rs1} (h : Kept s t) : Completes s (execFbitsG c fmt rd rs1 t) :=
  opFG_completes h

theorem execFbitsF_completes {c fmt rd rs1} (h : Kept s t) : Completes s (execFbitsF c fmt rd rs1 t) :=
  opF_completes h

theorem fused_completes {c fmt rm rd rs1 rs2 rs3 negProduct negAddend} (h : Kept s t) :
    Completes s (t.fused c fmt rm rd rs1 rs2 rs3 negProduct negAddend) :=
  opF_completes h

theorem execFmadd_completes {c fmt rm rd rs1 rs2 rs3} (h : Kept s t) : Completes s (execFmadd c fmt rm rd rs1 rs2 rs3 t) :=
  fused_completes h

theorem execFmsub_completes {c fmt rm rd rs1 rs2 rs3} (h : Kept s t) : Completes s (execFmsub c fmt rm rd rs1 rs2 rs3 t) :=
  fused_completes h

theorem execFnmsub_completes {c fmt rm rd rs1 rs2 rs3} (h : Kept s t) : Completes s (execFnmsub c fmt rm rd rs1 rs2 rs3 t) :=
  fused_completes h

theorem execFnmadd_completes {c fmt rm rd rs1 rs2 rs3} (h : Kept s t) : Completes s (execFnmadd c fmt rm rd rs1 rs2 rs3 t) :=
  fused_completes h

theorem drainFence_completes {c refetch} (h : Kept s t) : Completes s (t.drainFence c refetch) :=
  .next (h.runInstr fun _ h1 => .ite_ires h1.setCore.coreEvent h1.setCore.kickDrain)

theorem execFence_completes {c} (h : Kept s t) : Completes s (execFence c t) :=
  drainFence_completes h

theorem execFenceSl_completes {c} (h : Kept s t) : Completes s (execFenceSl c t) :=
  drainFence_completes h

theorem execFenceL_completes {c} (h : Kept s t) : Completes s (execFenceL c t) :=
  .next (h.runInstr fun _ h1 => h1.coreEvent)

theorem execFenceIo_completes {c} (h : Kept s t) : Completes s (execFenceIo c t) :=
  .next (h.runInstr fun _ h1 => .ite_ires h1.kickDrain h1.setCore.coreEvent)

theorem execSyncI_completes {c} (h : Kept s t) : Completes s (execSyncI c t) :=
  drainFence_completes h

theorem execRdgt_completes {c rd} (h : Kept s t) : Completes s (execRdgt c rd t) :=
  .next (h.runInstr fun _ h1 => .ite_ires h1 h1.setCore)

theorem execSvcall_completes {c imm} (h : Kept s t) : Completes s (execSvcall c imm t) :=
  .next (h.runInstr fun _ h1 => .ite_ires h1 h1)

theorem execHvcall_completes {c imm} (h : Kept s t) : Completes s (execHvcall c imm t) :=
  .next (h.runInstr fun _ h1 => .ite_ires h1 h1)

theorem execMoncall_completes {c imm} (h : Kept s t) : Completes s (execMoncall c imm t) :=
  .next (h.runInstr fun _ h1 => h1)

theorem execEret_completes {c} (h : Kept s t) : Completes s (execEret c t) := by
  unfold execEret
  refine .next (h.runInstr fun _ h1 => ?_)
  exact .ite_ires h1 (.ite_ires h1 (.ite_ires h1.countRetired.setCore.exception h1.countRetired.setCore.stepDone.recognise))

theorem execWfi_completes {c} (h : Kept s t) : Completes s (execWfi c t) :=
  .next (h.runInstr fun _ h1 => .ite_ires h1 h1.countRetired.setCore.stepDone.recognise)

theorem execIllegalInstruction_completes {c word} (h : Kept s t) : Completes s (execIllegalInstruction c word t) :=
  .ite (.next h) (.next (h.runInstr fun _ h1 => h1))

/-! ### What the operations of Machine/PhaseIsa.lean keep -/

theorem Kept.pcCompare {n addr kind} (h : Kept s t) : Kept s (Checked.state (t.pcCompare n addr kind)) := by
  unfold State.pcCompare
  refine .ite_checked h (.ite_checked (.pcStopNow (.setPcore (h.foldl fun _ _ h1 => .ite h1.send h1))) ?_)
  exact h.foldl fun _ _ h1 => .ite h1.send h1

theorem Kept.runPc {n notAtEnd op} (h : Kept s t) (hop : ∀ u, Kept s u → Kept s (op u).state) :
    Kept s (t.runPc n notAtEnd op) := by
  unfold State.runPc
  refine .ite h (.ite h.setPcore.pcStopNow (.ite h.setPcore.preempt ?_))
  extract_lets c s1
  have h1 : Kept s s1 := by
    dsimp only [s1]
    split
    · exact h.setPcore.commitMode
    · exact h.setPcore
  refine .ite h1.pcFault (.ite h1.pcFault ?_)
  split
  · exact h1.pcCompare.stopped ‹_›
  · next s2 hs2 =>
    have h2 : Kept s s2 := h1.pcCompare.goesOn hs2
    refine .ite h2.pcFault ?_
    have h3 := hop s2 h2
    split <;> rename_i hr <;> rw [hr] at h3
    · exact Kept.pcDone h3
    · exact .ite (Kept.pcDone h3) h2.pcFault
    · exact Kept.pcFault h3
    · exact h3

theorem pcReg_completes {pc rd count f} (h : Kept s t) : Completes s (t.pcReg pc rd count f) :=
  .next (h.runPc fun _ h1 => h1.setPreg)

theorem pcRR_completes {pc rd rs1 rs2 count f} (h : Kept s t) : Completes s (t.pcRR pc rd rs1 rs2 count f) :=
  pcReg_completes h

theorem Kept.pcSat {n clamped} (h : Kept s t) : Kept s (t.pcSat n clamped) :=
  .ite h.wb h

theorem execPcNop_completes {pc} (h : Kept s t) : Completes s (execPcNop pc t) :=
  .next (h.runPc fun _ h1 => h1)

theorem execPcAlu_completes {pc fn rd rs1 rs2} (h : Kept s t) : Completes s (execPcAlu pc fn rd rs1 rs2 t) :=
  pcRR_completes h

theorem execPcShift_completes {pc fn rd rs1 rs2} (h : Kept s t) : Completes s (execPcShift pc fn rd rs1 rs2 t) :=
  pcRR_completes h

theorem execPcSlt_completes {pc sign rd rs1 rs2} (h : Kept s t) : Completes s (execPcSlt pc sign rd rs1 rs2 t) :=
  pcRR_completes h

theorem execPcMul_completes {pc rd rs1 rs2} (h : Kept s t) : Completes s (execPcMul pc rd rs1 rs2 t) :=
  pcRR_completes h

theorem execPcMulh_completes {pc sign rd rs1 rs2} (h : Kept s t) : Completes s (execPcMulh pc sign rd rs1 rs2 t) :=
  pcRR_completes h

theorem execQadd_completes {pc sub rd rs1 rs2} (h : Kept s t) : Completes s (execQadd pc sub rd rs1 rs2 t) :=
  .next (h.runPc fun _ h1 => h1.setPreg.pcSat)

theorem execPcMinMax_completes {pc fn rd rs1 rs2} (h : Kept s t) : Completes s (execPcMinMax pc fn rd rs1 rs2 t) :=
  pcRR_completes h

theorem execPcAluImm_completes {pc fn rd rs1 imm} (h : Kept s t) : Completes s (execPcAluImm pc fn rd rs1 imm t) :=
  pcReg_completes h

theorem execPcShiftImm_completes {pc fn rd rs1 amount} (h : Kept s t) : Completes s (execPcShiftImm pc fn rd rs1 amount t) :=
  pcReg_completes h

theorem execPcLui_completes {pc rd imm} (h : Kept s t) : Completes s (execPcLui pc rd imm t) :=
  pcReg_completes h

theorem execMac_completes {pc fn acc rs1 rs2} (h : Kept s t) : Completes s (execMac pc fn acc rs1 rs2 t) :=
  .next (h.runPc fun _ h1 => h1.setPacc.pcSat)

theorem execAccrd_completes {pc rd acc shift round} (h : Kept s t) : Completes s (execAccrd pc rd acc shift round t) :=
  .next (h.runPc fun _ h1 => h1.setPreg.pcSat)

theorem execAccwr_completes {pc acc rs1 shift} (h : Kept s t) : Completes s (execAccwr pc acc rs1 shift t) :=
  .next (h.runPc fun _ h1 => h1.setPacc)

theorem Kept.pcLong {n count rd v} (h : Kept s t) : Kept s (t.pcLong n count rd v) :=
  h.setPcore.setPreg

theorem execPcDiv_completes {pc fn rd rs1 rs2} (h : Kept s t) : Completes s (execPcDiv pc fn rd rs1 rs2 t) :=
  .next (h.runPc fun _ h1 => h1.pcLong)

theorem execPcFadd_completes {pc fn rd rs1 rs2} (h : Kept s t) : Completes s (execPcFadd pc fn rd rs1 rs2 t) :=
  pcRR_completes h

theorem execFmac_completes {pc rd rs1 rs2} (h : Kept s t) : Completes s (execFmac pc rd rs1 rs2 t) :=
  pcReg_completes h

theorem execPcFdiv_completes {pc rd rs1 rs2} (h : Kept s t) : Completes s (execPcFdiv pc rd rs1 rs2 t) :=
  .next (h.runPc fun _ h1 => h1.pcLong)

theorem execPcFsqrt_completes {pc rd rs1} (h : Kept s t) : Completes s (execPcFsqrt pc rd rs1 t) :=
  .next (h.runPc fun _ h1 => h1.pcLong)

theorem execPcFcompare_completes {pc fn rd rs1 rs2} (h : Kept s t) : Completes s (execPcFcompare pc fn rd rs1 rs2 t) :=
  pcRR_completes h

theorem execPcFcvt_completes {pc toInt rd rs1} (h : Kept s t) : Completes s (execPcFcvt pc toInt rd rs1 t) :=
  pcReg_completes h

theorem execFabsFneg_completes {pc neg rd rs1} (h : Kept s t) : Completes s (execFabsFneg pc neg rd rs1 t) :=
  pcReg_completes h

theorem Kept.pcWindowAccess {n a} (h : Kept s t) : Kept s (t.pcWindowAccess n a).state := by
  unfold State.pcWindowAccess
  refine .ite_pres h (.ite_pres h ?_)
  refine .ite_pres h ?_
  refine .ite_pres ?_ ?_
  · refine h.setPcore.foldl fun _ _ h1 => ?_
    dsimp only
    split <;> exact h1.send
  · split
    · split
      · exact (h.busRead.out ‹_›).pcDeliver
      · exact (h.busRead.out ‹_›).pcFault
    · split
      · exact h.busWrite.out ‹_›
      · exact (h.busWrite.out ‹_›).pcFault

theorem Kept.pcAccess {n va bytes flat store dest} (h : Kept s t) : Kept s (t.pcAccess n va bytes flat store dest).state := by
  unfold State.pcAccess
  dsimp only
  split
  · exact h
  · split
    · exact h.pcCompare.stopped ‹_›
    · split
      · split
        · exact h.pcCompare.goesOn ‹_›
        · exact .ite_pres (h.pcCompare.goesOn ‹_›).after (h.pcCompare.goesOn ‹_›).after
      · exact (h.pcCompare.goesOn ‹_›).after
      · exact .ite_pres (h.pcCompare.goesOn ‹_›).after (h.pcCompare.goesOn ‹_›).after
      · exact .ite_pres (h.pcCompare.goesOn ‹_›) (h.pcCompare.goesOn ‹_›).pcWindowAccess

theorem execPcLoad_completes {pc fn rd rs1 imm} (h : Kept s t) : Completes s (execPcLoad pc fn rd rs1 imm t) :=
  .next (h.runPc fun _ h1 => h1.pcAccess)

theorem execPcLd_completes {pc dst rs1 imm} (h : Kept s t) : Completes s (execPcLd pc dst rs1 imm t) := by
  unfold execPcLd
  refine .next (h.runPc fun _ h1 => ?_)
  split
  · exact .ite_pres h1 h1.pcAccess
  · exact h1.pcAccess

theorem execPcStore_completes {pc size rs2 rs1 imm} (h : Kept s t) : Completes s (execPcStore pc size rs2 rs1 imm t) :=
  .next (h.runPc fun _ h1 => h1.pcAccess)

theorem execPcSd_completes {pc src rs1 imm} (h : Kept s t) : Completes s (execPcSd pc src rs1 imm t) := by
  unfold execPcSd
  refine .next (h.runPc fun _ h1 => ?_)
  split
  · exact .ite_pres h1 h1.pcAccess
  · exact h1.pcAccess

theorem Kept.engineAccess {n a} (h : Kept s t) : Kept s (t.engineAccess n a) := by
  unfold State.engineAccess
  dsimp only
  split
  · exact h.busWrite
  · split
    · exact (h.busRead.out ‹_›).pcDeliver
    · exact h.busRead.out ‹_›

theorem Kept.portAccess {n a} (h : Kept s t) : Kept s (t.portAccess n a) := by
  unfold State.portAccess
  refine .ite ?_ (.ite h.pcDeliver h.engineAccess)
  split
  · exact h.writeLocal
  · exact h.pcDeliver

theorem execPcBranch_completes {pc fn rs1 rs2 off} (h : Kept s t) : Completes s (execPcBranch pc fn rs1 rs2 off t) :=
  .next (h.runPc fun _ h1 => .ite_pres h1 h1)

theorem execPcJal_completes {pc off} (h : Kept s t) : Completes s (execPcJal pc off t) :=
  .next (h.runPc fun _ h1 => h1.setPreg)

theorem execPcJalr_completes {pc rd rs1 imm} (h : Kept s t) : Completes s (execPcJalr pc rd rs1 imm t) :=
  .next (h.runPc fun _ h1 => h1.setPreg)

theorem Kept.pcSetLoop {n count length} (h : Kept s t) : Kept s (t.pcSetLoop n count length).state :=
  .ite_pres h (.ite_pres h.setPcore h.setPcore)

theorem execPcLoop_completes {pc rs1 imm} (h : Kept s t) : Completes s (execPcLoop pc rs1 imm t) :=
  .next (h.runPc fun _ h1 => h1.pcSetLoop)

theorem execPcLoopi_completes {pc count length} (h : Kept s t) : Completes s (execPcLoopi pc count length t) :=
  .next (h.runPc fun _ h1 => h1.pcSetLoop)

theorem execWaitev_completes {pc rd imm} (h : Kept s t) : Completes s (execWaitev pc rd imm t) := by
  unfold execWaitev
  refine .next (h.runPc fun _ h1 => ?_)
  dsimp only
  split
  · exact h1.popEvent
  · exact .ite_pres h1.setPreg h1.setPcore.setPcState

theorem execEvsend_completes {pc rs1 input} (h : Kept s t) : Completes s (execEvsend pc rs1 input t) :=
  .next (h.runPc fun _ h1 => h1.after)

theorem Kept.sendEvent {n target input} (h : Kept s t) : Kept s (t.sendEvent n target input) :=
  .ite h.send h.wb

theorem execPina_completes {pc rs1 act} (h : Kept s t) : Completes s (execPina pc rs1 act t) :=
  .next (h.runPc fun _ h1 => h1.after)

theorem execPtld_completes {pc status rd rs1} (h : Kept s t) : Completes s (execPtld pc status rd rs1 t) :=
  .next (h.runPc fun _ h1 => .ite_pres h1 (.ite_pres h1 h1.setPcore.present))

theorem Kept.pcPost {n e} (h : Kept s t) : Kept s (t.pcPost n e).state :=
  .ite_pres h.pushPost (.ite_pres h h.setPcore)

theorem execPtst_completes {pc rs1 rs2} (h : Kept s t) : Completes s (execPtst pc rs1 rs2 t) :=
  .next (h.runPc fun _ h1 => .ite_pres h1 h1.pcPost)

theorem execDbell_completes {pc rs1 rs2} (h : Kept s t) : Completes s (execDbell pc rs1 rs2 t) :=
  .next (h.runPc fun _ h1 => h1.pcPost)

theorem execPcRdgt_completes {pc rd} (h : Kept s t) : Completes s (execPcRdgt pc rd t) :=
  .next (h.runPc fun _ h1 => .ite_pres h1 h1.setPpair)

theorem execSetdl_completes {pc add rs1} (h : Kept s t) : Completes s (execSetdl pc add rs1 t) :=
  .next (h.runPc fun _ h1 => .ite_pres h1.setPcore (.ite_pres h1 h1.setPcore))

theorem execSettm_completes {pc mode} (h : Kept s t) : Completes s (execSettm pc mode t) :=
  .next (h.runPc fun _ h1 => h1.setPcore)

theorem Kept.presDone (h : Kept s t) : Kept s (PRes.done t).state := h

theorem execTret_completes {pc} (h : Kept s t) : Completes s (execTret pc t) := by
  unfold execTret
  refine .next (h.runPc fun u hu => ?_)
  extract_lets n c shadow
  exact (hu.wb.pcEnd).presDone

theorem execPcStop_completes {pc} (h : Kept s t) : Completes s (execPcStop pc t) := by
  unfold execPcStop
  refine .next (h.runPc fun _ h1 => ?_)
  refine .ite ?_ ?_
  · exact .source (.ite h1.commitMode.setPcState.wb.setPcore.wb.wb.wf h1.commitMode.setPcState.wb.setPcore.wb)
  · exact .ite h1.commitMode.setPcState.wb.setPcore.wb.wb.wf h1.commitMode.setPcState.wb.setPcore.wb

theorem execPcIllegalInstruction_completes {pc word} (h : Kept s t) : Completes s (execPcIllegalInstruction pc word t) :=
  .ite (.next h) (.next (h.runPc fun _ h1 => h1))

/-! ### What the operations of Machine/Dispatch.lean keep -/

theorem exec_completes {i} (h : Kept s t) : Completes s (exec i t) := by
  unfold exec
  split
  · exact execSrcLost_completes h
  · exact execMainsCrossing_completes h
  · exact execMainsInputLost_completes h
  · exact execMainsHoldoverEnd_completes h
  · exact execRateWindow_completes h
  · exact execStreamTimeout_completes h
  · exact execProjectionRecompute_completes h
  · exact execCompareMatch_completes h
  · exact execPinAction_completes h
  · exact execCaptureEvent_completes h
  · exact execCtrTick_completes h
  · exact execLinkedCounterAction_completes h
  · exact execTaskEvent_completes h
  · exact execWaitevWake_completes h
  · exact execPreemptionEntry_completes h
  · exact execPostQueueDrain_completes h
  · exact execArbRequest_completes h
  · exact execArbGrant_completes h
  · exact execInterruptEntry_completes h
  · exact execTimerVector_completes h
  · exact execInterruptSourceEvent_completes h
  · exact execInterruptDelivery_completes h
  · exact execInterruptPost_completes h
  · exact execPostRetry_completes h
  · exact execBell_completes h
  · exact execTlbiCompletion_completes h
  · exact execStoreDrain_completes h
  · exact execReservationTimeout_completes h
  · exact execReadShared_completes h
  · exact execReadUnique_completes h
  · exact execUpgrade_completes h
  · exact execWriteBack_completes h
  · exact execReadOnce_completes h
  · exact execWriteUnique_completes h
  · exact execWritePartial_completes h
  · exact execWritePartialPost_completes h
  · exact execFwdShared_completes h
  · exact execFwdUnique_completes h
  · exact execInvalidate_completes h
  · exact execBackInvalidate_completes h
  · exact execInvAck_completes h
  · exact execFwdAck_completes h
  · exact execFwdMiss_completes h
  · exact execDataShared_completes h
  · exact execDataUnique_completes h
  · exact execDataDirty_completes h
  · exact execWbAck_completes h
  · exact execComp_completes h
  · exact execCompToHome_completes h
  · exact execHsQueryAddr_completes h
  · exact execBackinvWindow_completes h
  · exact execLinkRetry_completes h
  · exact execMcCommandIssue_completes h
  · exact execReadDataHandoff_completes h
  · exact execIdleTimer_completes h
  · exact execMr4Poll_completes h
  · exact execAgePromotion_completes h
  · exact execBlackoutStart_completes h
  · exact execBlackoutEnd_completes h
  · exact execScrubVisit_completes h
  · exact execContactEvent_completes h
  · exact execMirrorCopy_completes h
  · exact execDoorbell_completes h
  · exact execDoorbellScan_completes h
  · exact execChannelAssign_completes h
  · exact execDescriptorFetched_completes h
  · exact execCompletionWrite_completes h
  · exact execCompletionReturn_completes h
  · exact execFrameTransmit_completes h
  · exact execFrameAge_completes h
  · exact execGclEntry_completes h
  · exact execSwapTake_completes h
  · exact execSyncSend_completes h
  · exact execDinathReceive_completes h
  · exact execPointUpdate_completes h
  · exact execPosition_completes h
  · exact execPointAccess_completes h
  · exact execStaleSweep_completes h
  · exact execCommitEnd_completes h
  · exact execPurgeDone_completes h
  · exact execReady_completes h
  · exact execPairLinkLoss_completes h
  · exact execGateSubmit_completes h
  · exact execGateTimeout_completes h
  · exact execPairedEntry_completes h
  · exact execPairedExit_completes h
  · exact execPeerCommand_completes h
  · exact execPeerReply_completes h
  · exact execCommandTake_completes h
  · exact execDeferredComplete_completes h
  · exact execReadStatus_completes h
  · exact execStandbySequence_completes h
  · exact execStandbyDone_completes h
  · exact execWake_completes h
  · exact execPllLock_completes h
  · exact execAvsPeriod_completes h
  · exact execCoreHalt_completes h
  · exact execCrossTrigger_completes h
  · exact execShutterTake_completes h
  · exact execSlewComplete_completes h
  · exact execHeldResume_completes h
  · exact execPcNop_completes h
  · exact execPcAlu_completes h
  · exact execPcShift_completes h
  · exact execPcSlt_completes h
  · exact execPcMul_completes h
  · exact execPcMulh_completes h
  · exact execQadd_completes h
  · exact execPcMinMax_completes h
  · exact execPcAluImm_completes h
  · exact execPcShiftImm_completes h
  · exact execPcLui_completes h
  · exact execMac_completes h
  · exact execAccrd_completes h
  · exact execAccwr_completes h
  · exact execPcDiv_completes h
  · exact execPcFadd_completes h
  · exact execFmac_completes h
  · exact execPcFdiv_completes h
  · exact execPcFsqrt_completes h
  · exact execPcFcompare_completes h
  · exact execPcFcvt_completes h
  · exact execFabsFneg_completes h
  · exact execPcLoad_completes h
  · exact execPcLd_completes h
  · exact execPcStore_completes h
  · exact execPcSd_completes h
  · exact execPcBranch_completes h
  · exact execPcJal_completes h
  · exact execPcJalr_completes h
  · exact execPcLoop_completes h
  · exact execPcLoopi_completes h
  · exact execWaitev_completes h
  · exact execEvsend_completes h
  · exact execPina_completes h
  · exact execPtld_completes h
  · exact execPtst_completes h
  · exact execDbell_completes h
  · exact execPcRdgt_completes h
  · exact execSetdl_completes h
  · exact execSettm_completes h
  · exact execTret_completes h
  · exact execPcStop_completes h
  · exact execAdd_completes h
  · exact execAnd_completes h
  · exact execSll_completes h
  · exact execSlt_completes h
  · exact execMinMax_completes h
  · exact execMinuMaxu_completes h
  · exact execClzCtz_completes h
  · exact execPopc_completes h
  · exact execAddwSubw_completes h
  · exact execSllw_completes h
  · exact execMul_completes h
  · exact execMulh_completes h
  · exact execMulw_completes h
  · exact execDiv_completes h
  · exact execRem_completes h
  · exact execDivw_completes h
  · exact execAddi_completes h
  · exact execAddiw_completes h
  · exact execAndi_completes h
  · exact execSlti_completes h
  · exact execSlli_completes h
  · exact execLui_completes h
  · exact execAuipc_completes h
  · exact execLoad_completes h
  · exact execFlwFld_completes h
  · exact execStore_completes h
  · exact execFswFsd_completes h
  · exact execBeqBne_completes h
  · exact execBltBge_completes h
  · exact execBltuBgeu_completes h
  · exact execJ_completes h
  · exact execJal_completes h
  · exact execJalr_completes h
  · exact execLoop_completes h
  · exact execLoopi_completes h
  · exact execFadd_completes h
  · exact execFsqrt_completes h
  · exact execFminFmax_completes h
  · exact execFsign_completes h
  · exact execFeq_completes h
  · exact execFkind_completes h
  · exact execFtoiW_completes h
  · exact execFtoiL_completes h
  · exact execItofW_completes h
  · exact execItofL_completes h
  · exact execFresize_completes h
  · exact execFbitsG_completes h
  · exact execFbitsF_completes h
  · exact execFmadd_completes h
  · exact execFmsub_completes h
  · exact execFnmsub_completes h
  · exact execFnmadd_completes h
  · exact execLdres_completes h
  · exact execStcond_completes h
  · exact execFence_completes h
  · exact execFenceSl_completes h
  · exact execFenceL_completes h
  · exact execFenceIo_completes h
  · exact execSyncI_completes h
  · exact execRdgt_completes h
  · exact execMfsr_completes h
  · exact execMtsr_completes h
  · exact execSvcall_completes h
  · exact execHvcall_completes h
  · exact execMoncall_completes h
  · exact execEret_completes h
  · exact execWfi_completes h
  · exact execTlbiVa_completes h
  · exact execTlbiAsid_completes h
  · exact execTlbiGuest_completes h
  · exact execTlbiIpa_completes h
  · exact execTlbiVmid_completes h
  · exact execTlbiAll_completes h
  · exact execGtCtrl_completes h
  · exact execSync_completes h
  · exact execRtcTick_completes h
  · exact execVddAoLoss_completes h
  · exact execPhbCtrl_completes h
  · exact execPhbPreset_completes h
  · exact execPhbStreamPos_completes h
  · exact execEncoderEdge_completes h
  · exact execCmpCtrl_completes h
  · exact execCmpValue_completes h
  · exact execCmpAction_completes h
  · exact execPinCfg_completes h
  · exact execPinLock_completes h
  · exact execPinAct_completes h
  · exact execPinOwner_completes h
  · exact execVsel_completes h
  · exact execSupplyErr_completes h
  · exact execSupplyOk_completes h
  · exact execCapValue_completes h
  · exact execSdResult_completes h
  · exact execClkLoss_completes h
  · exact execLocalMemoryAccess_completes h
  · exact execRunStart_completes h
  · exact execRunStop_completes h
  · exact execCoreRst_completes h
  · exact execTmode_completes h
  · exact execPccEvPost_completes h
  · exact execPccEid_completes h
  · exact execArbFreeze_completes h
  · exact execMissClr_completes h
  · exact execLatentWindowEnd_completes h
  · exact execIrtSrcCfg_completes h
  · exact execIrtSwgen_completes h
  · exact execFrameReceive_completes h
  · exact execFrameEnd_completes h
  · exact execSwap_completes h
  · exact execPdelayReq_completes h
  · exact execLinkChg_completes h
  · exact execGo_completes h
  · exact execSet_completes h
  · exact execClear_completes h
  · exact execErtCommit_completes h
  · exact execPurge_completes h
  · exact execDerive_completes h
  · exact execKeyClear_completes h
  · exact execLinkEn_completes h
  · exact execLinkUp_completes h
  · exact execPairGroup_completes h
  · exact execAlignmentExchange_completes h
  · exact execGatePeerItem_completes h
  · exact execCmdrTail_completes h
  · exact execCmdrCfg_completes h
  · exact execWatchdog_completes h
  · exact execWriteCmd_completes h
  · exact execReadReply_completes h
  · exact execEngageSpare_completes h
  · exact execRefclkStop_completes h
  · exact execRefclkReturn_completes h
  · exact execRefclkLoss_completes h
  · exact execPoresetAssert_completes h
  · exact execPoresetRelease_completes h
  · exact execResetAssert_completes h
  · exact execResetRelease_completes h
  · exact execSafelightReset_completes h
  · exact execRailLoss_completes h
  · exact execPmbusAlert_completes h
  · exact execSdsrefLoss_completes h
  · exact execMonitorSample_completes h
  · exact execDbgAcc_completes h
  · exact execHaltReq_completes h
  · exact execResume_completes h
  · exact execStep_completes h
  · exact execPcHaltReq_completes h
  · exact execPcResume_completes h
  · exact execPcStep_completes h
  · exact execDbgSysGo_completes h
  · exact execCounterOverflow_completes h
  · exact execPmuClr_completes h
  · exact execPmbClr_completes h
  · exact execPmbWrap_completes h
  · exact execArm_completes h
  · exact execFreeze_completes h
  · exact execRailReturn_completes h
  · exact execSafelightRailLoss_completes h
  · exact execRegisterWrite_completes h
  · exact execTimeStep_completes h
  · exact execEcho_completes h
  · exact execGetInfo_completes h
  · exact execModeSet_completes h
  · exact execModeGet_completes h
  · exact execPowerPointSet_completes h
  · exact execPvtRead_completes h
  · exact execSpareStatus_completes h
  · exact execSpareEngage_completes h
  · exact execContactRead_completes h
  · exact execContactClear_completes h
  · exact execDramConfig_completes h
  · exact execDramDelaysetLoad_completes h
  · exact execDramDelaysetSelect_completes h
  · exact execDramMarginScan_completes h
  · exact execDramEraseDevice_completes h
  · exact execDramRepairRow_completes h
  · exact execDramScrubSet_completes h
  · exact execViCreate_completes h
  · exact execViDestroy_completes h
  · exact execViReset_completes h
  · exact execQueueBind_completes h
  · exact execQueueReset_completes h
  · exact execPortConfig_completes h
  · exact execSwitchConfig_completes h
  · exact execDinathConfig_completes h
  · exact execPhaseBaseConfig_completes h
  · exact execPairConfig_completes h
  · exact execPairStatus_completes h
  · exact execShutter_completes h
  · exact execLifecycleAdvance_completes h
  · exact execDebugUnlock_completes h
  · exact execLockRegion_completes h
  · exact execConfigChecksum_completes h
  · exact execExtest_completes h
  · exact execSamplePreload_completes h
  · exact execIllegalInstruction_completes h
  · exact execPcIllegalInstruction_completes h

/-! ### What the operations of Machine/Tick.lean keep -/

theorem Kept.workDone {x0} (h : Kept s t) : Kept s (t.workDone x0) := by
  unfold State.workDone
  split
  · exact h
  · exact h
  · exact .ite h.admitted h
  · exact h.mirrorWrite
  · dsimp only
    split
    · exact h.send.postGranted
    · exact h.send
  · exact h.applyRecord
  · exact h.assigned
  · exact h.forced
  · exact h.send
  · exact h.transfer
  · exact h.send
  · exact h
  · exact h
  · exact h
  · exact h

theorem Kept.grantDone {a tag} (h : Kept s t) : Kept s (t.grantDone a tag) := by
  unfold State.grantDone
  split
  · exact .workDone (.ite h h.dropWork)
  · exact h

theorem Kept.hintTaken {tag gt} (h : Kept s t) : Kept s (t.hintTaken tag gt) := by
  unfold State.hintTaken
  split
  · split
    · exact h.dropWork.present
    · exact h.dropWork
  · exact h.dropWork

theorem Kept.setApplied {mc} (h : Kept s t) : Kept s (t.setApplied mc) :=
  h.foldl fun _ _ h1 => h1.send

theorem Kept.advance (h : Kept s t) : Kept s t.advance := by
  unfold State.advance
  extract_lets s0 old
  have h0 : Kept s s0 := h.other.foldl fun _ _ h1 => h1.noteLine
  clear_value s0
  exact h0.gtTick.clockPassed.instants

/-- An effect that falls due keeps the forms and the phase clock; a command joins the queue. -/
theorem Kept.fall {a} (h : FormsKept s t) : FormsKept s (t.fall a) := by
  have k := Kept.refl t
  refine h.trans ?_
  cases a with
  | cmd i => exact ⟨id, id, id, rfl⟩
  | pina n p act eid =>
    rw [State.fall]
    split
    · exact k.pinSubmit.toFormsKept
    · exact k.toFormsKept
  | ball p d => exact k.setBall.toFormsKept
  | seen p level gt since => exact k.pinSeen.toFormsKept
  | sample b => exact k.sampleBase.toFormsKept
  | capture n v rise gt => exact k.landCapture.toFormsKept
  | evsend n target input => exact k.sendEvent.toFormsKept
  | engine n a => exact k.portAccess.toFormsKept
  | shed n => exact k.shedOver.toFormsKept
  | granted a tag => exact k.grantDone.toFormsKept
  | hinted a tag gt => exact k.hintTaken.toFormsKept
  | vector c v n => exact k.pend.toFormsKept
  | dsApplied mc => exact k.setApplied.toFormsKept
  | pcHalt n => exact k.pcHaltDue.toFormsKept
  | boot k' => exact k.bootAct.toFormsKept

/-- The effects that fall due on an empty queue leave the forms as they are. -/
theorem FormsKept.foldl_fall {l : List (Nat × Act)} (h : FormsKept s t) :
    FormsKept s (l.foldl (fun s e => s.fall e.2) t) := by
  induction l generalizing t with
  | nil => exact h
  | cons e l ih => exact ih (Kept.fall h)

/-- A phase clock passes, or none does, and the forms stay. -/
structure StepKept (s t : State) : Prop where
  mem : s.memOk → t.memOk
  regs : s.regsOk → t.regsOk
  agenda : s.agendaOk → t.agendaOk
  clk_ge : s.clk ≤ t.clk
  clk_le : t.clk ≤ s.clk + 1

theorem FormsKept.stepKept (h : FormsKept s t) : StepKept s t :=
  ⟨h.mem, h.regs, h.agenda, h.clk.ge, h.clk.le.trans (Nat.le_succ _)⟩

theorem FormsKept.clockTick (h : FormsKept s t) (k : FormsKept { t with clk := t.clk + 1 } u) : StepKept s u :=
  ⟨k.mem ∘ h.mem, k.regs ∘ h.regs, k.agenda ∘ h.agenda, by rw [k.clk, ← h.clk]; exact Nat.le_succ _, by rw [k.clk, ← h.clk]⟩

theorem tick_stepKept (s : State) : StepKept s s.tick := by
  unfold State.tick
  split
  · exact (Kept.refl s).advance.clockTick ((Kept.refl _).foldl fun _ _ h => h.send).toFormsKept
  · exact (Kept.refl s).clockTick (Kept.refl _).toFormsKept

theorem idle_stepKept (s : State) : StepKept s s.idle := by
  unfold State.idle
  extract_lets due
  split
  · exact tick_stepKept s
  · exact (Kept.refl s).filterAgenda.foldl_fall.stepKept

/-- What a command keeps of the state it runs in. -/
theorem exec_kept {c : Instr} (e : exec c s = .next t) : Kept s t := by
  obtain ⟨u, hu, k⟩ := exec_completes (i := c) (Kept.refl s)
  rw [e] at hu
  cases hu
  exact k

theorem step_completes (s : State) : ∃ t, step s = .next t ∧ StepKept s t := by
  unfold step
  split
  · next c rest _ =>
    obtain ⟨t, ht, k⟩ := exec_completes (i := c) (Kept.refl { s with pending := rest })
    exact ⟨t, ht, ⟨k.mem, k.regs, k.agenda, k.clk.ge, k.clk.le.trans (Nat.le_succ _)⟩⟩
  · exact ⟨_, rfl, idle_stepKept s⟩
end

/-- Settles O59: each command answers a next state by its own lemma, and an empty queue lets effects or a phase clock pass. -/
theorem everyCommandCompletes : Obligations.Every_command_completes := by
  unfold Obligations.Every_command_completes
  refine ⟨fun c s => ?_, fun s => ?_⟩
  · obtain ⟨t, ht, -⟩ := exec_completes (i := c) (Kept.refl s)
    exact ⟨t, ht⟩
  · obtain ⟨t, ht, -⟩ := step_completes s
    exact ⟨t, ht⟩

/-- Settles O60: every operation keeps the forms, and no command touches the queue or the phase clock. -/
theorem everyStepKeepsTheForms : Obligations.Every_step_keeps_the_forms := by
  unfold Obligations.Every_step_keeps_the_forms
  refine ⟨fun s t e => ?_, fun c s t e => ?_⟩
  · obtain ⟨u, hu, k⟩ := step_completes s
    cases e.symm.trans hu
    exact ⟨k.mem, k.regs, k.agenda, k.clk_ge, k.clk_le⟩
  · have k := exec_kept e
    exact ⟨k.pending, k.clk⟩

end Sys2Proof.Machine
end

section
/-!
PROOF. The state after reset (O58): every register reads its Reset column, and nothing is in flight.
-/
namespace Sys2Proof.Machine

/-- No register is listed at reset, so that each reads the value of its Reset column (R14). -/
theorem State.rd_reset (a : Nat) : State.reset.rd a = (regReset a).toNat := rfl

theorem regReset_of_find {a i j : Nat} {d : RegDesc} (h : regFind a = some (d, i, j)) : (regReset a).toNat = d.reset % 2 ^ 64 := by
  simp [regReset, h]

/-- Every PVT_COREPT register has GATED as its reset value: gated, at the operating point 0 (R521). -/
theorem State.rd_reset_corept : ∀ c : CoreId, State.reset.rd (Reg.PVT_COREPT c.val) = 4 := by decide

/-- Memory lists nothing at reset, so that a byte outside the boot ROM reads 0 (entry 4). -/
theorem State.byte_reset (a : Nat) (h : inRom a = false) : State.reset.byte a = 0 := by
  simp [State.byte, h, State.reset, tabGet, tabFind]

/-- Settles O58: the tables are empty at reset, and a register that no table lists reads its Reset column. -/
theorem resetState : Obligations.Reset_state := by
  unfold Obligations.Reset_state
  refine ⟨rfl, rfl, .nil, rfl, rfl, fun a d i j h => ?_, by decide, rfl, rfl, fun c => ?_, by decide, by decide, by decide,
    fun _ => ⟨rfl, rfl⟩, rfl, by decide, rfl, fun _ => ⟨rfl, rfl⟩, State.byte_reset⟩
  · rw [State.rd_reset, regReset_of_find h]
  · simp only [State.rb, State.rf, State.rd_reset_corept]
    decide

end Sys2Proof.Machine
end

section
/-!
PROOF. Register writes by their types (O57): what a write leaves of a register's fields and of the locked ones, the register map at the
addresses of pins, and what REGISTER_WRITE does for every window.
-/
namespace Sys2Proof.Machine

/-! ### The fields of a register (R12, R13, R494) -/

/-- A bit stores where it is RW or unlocked RWL, clears where it is W1C and written as 1, and stays otherwise. -/
theorem testBit_storedValue (d : RegDesc) (locked old v k : Nat) (hk : k < 64) : (storedValue d locked old v).testBit k =
    if (d.rw ||| d.rwl).testBit k && !locked.testBit k then v.testBit k
    else if d.w1c.testBit k && v.testBit k then false else old.testBit k := by
  have hones : (2 ^ 64 - 1).testBit k = true :=
    (Nat.testBit_two_pow_sub_one ..).trans (decide_eq_true hk)
  simp only [storedValue, Nat.testBit_or, Nat.testBit_and, Nat.testBit_xor, hones, Bool.true_xor]
  cases (d.rw.testBit k || d.rwl.testBit k) <;> cases locked.testBit k <;> cases d.w1c.testBit k <;> cases v.testBit k <;> simp

/-- No locked bit differs between two values just where the locked part of their difference is 0. -/
theorem xor_and_eq_zero_iff (x y locked : Nat) : (x ^^^ y) &&& locked = 0 ↔ ∀ k, locked.testBit k = true → x.testBit k = y.testBit k := by
  constructor
  · intro h k hk
    have hbit := congrArg (·.testBit k) h
    simpa [hk] using hbit
  · intro h
    apply Nat.eq_of_testBit_eq
    intro k
    by_cases hk : locked.testBit k = true
    · simp [h k hk]
    · simp [hk]

theorem lockFlag_lt {area unit r b : Nat} (h : lockFlag area unit = some (r, b)) : b < 64 := by
  unfold lockFlag at h
  split at h <;> simp at h <;> omega

/-! ### The contact sheet -/

/-- A report changes the contact sheet and the agenda only. -/
theorem State.log_eq (s : State) (c : SheetClass) (unit : Word32) (addr synd : Nat) (scrub : Bool) :
    s.log c unit addr synd scrub =
      { s with sheet := (s.log c unit addr synd scrub).sheet, agenda := (s.log c unit addr synd scrub).agenda } := by
  unfold State.log State.intake
  split <;> rfl

/-- A report that finds room stands last in the intake (R355). -/
theorem State.log_intake (s : State) (c : SheetClass) (unit : Word32) (addr synd : Nat) (scrub : Bool)
    (h : s.sheet.intake.length < 64) : (s.log c unit addr synd scrub).sheet.intake = s.sheet.intake ++
      [{ cls := c.code, unit := unit, addr := BitVec.ofNat 64 addr, synd := BitVec.ofNat 32 synd, scrub := scrub, gt := s.gt.now }] := by
  unfold State.log State.intake
  rw [if_pos h]
  rfl

theorem State.log_regs (s : State) (c : SheetClass) (unit : Word32) (addr synd : Nat) (scrub : Bool) :
    (s.log c unit addr synd scrub).regs = s.regs := by rw [State.log_eq]
theorem State.log_mem (s : State) (c : SheetClass) (unit : Word32) (addr synd : Nat) (scrub : Bool) :
    (s.log c unit addr synd scrub).mem = s.mem := by rw [State.log_eq]
theorem State.log_cores (s : State) (c : SheetClass) (unit : Word32) (addr synd : Nat) (scrub : Bool) :
    (s.log c unit addr synd scrub).cores = s.cores := by rw [State.log_eq]

/-- A register reads the same in states that hold the same registers. -/
theorem State.rd_congr {s t : State} (h : t.regs = s.regs) (a : Nat) : t.rd a = s.rd a := by
  simp [State.rd, h]

theorem State.rb_congr {s t : State} (h : t.regs = s.regs) (a i : Nat) : t.rb a i = s.rb a i := by
  simp [State.rb, State.rd_congr h]

/-! ### A write that meets a locked field (R494) -/

/-- The state in which a locked write sets the flag of its unit, if the unit has one. -/
def State.flagLocked (s : State) (flag : Option (Nat × Nat)) : State :=
  match flag with
  | some (r, b) => s.wb r b true
  | none => s

theorem State.lockedWrite_eq (s : State) (area unit a : Nat) :
    s.lockedWrite area unit a = (s.flagLocked (lockFlag area unit)).log .lockedWrite (s.areaUnitCode area unit) a := rfl

/-- The flag is a register's bit: nothing but registers changes. -/
theorem State.flagLocked_eq (s : State) (flag : Option (Nat × Nat)) : s.flagLocked flag = { s with regs := (s.flagLocked flag).regs } := by
  unfold State.flagLocked
  split <;> rfl

theorem State.rb_flagLocked_ne (s : State) {flag : Option (Nat × Nat)} {a k : Nat} (hb : ∀ r b, flag = some (r, b) → b < 64)
    (h : flag ≠ some (a, k)) : (s.flagLocked flag).rb a k = s.rb a k := by
  unfold State.flagLocked
  split
  · next r b =>
    rw [State.rb_wb _ _ _ _ _ _ (hb r b rfl), if_neg]
    rintro ⟨rfl, rfl⟩
    exact h rfl
  · rfl

theorem State.areaUnitCode_wr (s : State) (a v area unit : Nat) : (s.wr a v).areaUnitCode area unit = s.areaUnitCode area unit := rfl

/-- What a locked write leaves: every bit but the flag as it was, the flag set, an entry if there is room, and nothing else. -/
theorem State.lockedWrite_spec (s : State) (area unit a : Nat) :
    let t := s.lockedWrite area unit a
    let flag := lockFlag area unit
    (∀ r k, flag ≠ some (r, k) → t.rb r k = s.rb r k) ∧
    (∀ r b, flag = some (r, b) → t.rb r b = true ∧ s.regsKept t [r]) ∧ (flag = none → s.regsKept t []) ∧
    (s.sheet.intake.length < 64 → ∃ e, t.sheet.intake = s.sheet.intake ++ [e] ∧ e.cls = 0x22 ∧ e.addr = BitVec.ofNat 64 a ∧
      e.unit = s.areaUnitCode area unit ∧ e.gt = s.gt.now) ∧
    t = { s with regs := t.regs, sheet := t.sheet, agenda := t.agenda } := by
  intro t flag
  have hb : ∀ r b, flag = some (r, b) → b < 64 := fun r b h => lockFlag_lt h
  have hf : s.flagLocked flag = { s with regs := (s.flagLocked flag).regs } := s.flagLocked_eq flag
  have ht : t = (s.flagLocked flag).log .lockedWrite (s.areaUnitCode area unit) a := rfl
  have hregs : t.regs = (s.flagLocked flag).regs := State.log_regs ..
  have hsheet : (s.flagLocked flag).sheet = s.sheet := by rw [hf]
  have hgt : (s.flagLocked flag).gt = s.gt := by rw [hf]
  refine ⟨fun r k h => ?_, fun r b h => ⟨?_, fun x hx => ?_⟩, fun h x _ => ?_, fun h => ?_, ?_⟩
  · rw [State.rb_congr hregs, State.rb_flagLocked_ne _ hb h]
  · rw [State.rb_congr hregs, h, State.flagLocked, State.rb_wb _ _ _ _ _ _ (hb r b h), if_pos ⟨rfl, rfl⟩]
  · rw [State.rd_congr hregs, h, State.flagLocked, State.rd_wb_ne _ _ _ fun e => hx (by simp [e])]
  · rw [State.rd_congr hregs, h, State.flagLocked]
  · have hlog := State.log_intake (s.flagLocked flag) .lockedWrite (s.areaUnitCode area unit) a 0 false (by rw [hsheet]; exact h)
    rw [hsheet, hgt] at hlog
    exact ⟨_, hlog, rfl, rfl, rfl, rfl⟩
  · have hlog := State.log_eq (s.flagLocked flag) .lockedWrite (s.areaUnitCode area unit) a 0 false
    rw [ht]
    generalize (s.flagLocked flag).log .lockedWrite (s.areaUnitCode area unit) a 0 false = u at hlog
    rw [hlog, hf]

/-! ### STORE of a register -/

/-- The number of bits of a register (R11). -/
def RegDesc.width (d : RegDesc) : Nat := if d.wide then 64 else 32

theorem RegDesc.width_le (d : RegDesc) : d.width ≤ 64 := by unfold RegDesc.width; split <;> omega

theorem State.storeReg_hole {s : State} {a v : Nat} (h : regFind a = none) : s.storeReg a v = s := by
  simp [State.storeReg, h]

theorem State.storeReg_eq {s : State} {a v i j : Nat} {d : RegDesc} (h : regFind a = some (d, i, j)) :
    let s1 := s.wr a (storedValue d (s.lockedBits d a i j) (s.rd a) (v % 2 ^ d.width))
    s.storeReg a v = if (v % 2 ^ d.width ^^^ s.rd a) &&& s.lockedBits d a i j = 0 then s1
      else s1.lockedWrite d.area (areaUnit d.area a i j) a := by
  have hw : (if d.wide then v % 2 ^ 64 else v % 2 ^ 32) = v % 2 ^ d.width := by unfold RegDesc.width; split <;> rfl
  simp only [State.storeReg, h, hw]

/-- A write alters a locked bit. -/
def State.altersLocked (s : State) (d : RegDesc) (a i j v : Nat) : Prop :=
  ∃ k < d.width, (s.lockedBits d a i j).testBit k = true ∧ v.testBit k ≠ s.rb a k

theorem State.not_altersLocked {s : State} {d : RegDesc} {a i j v : Nat} (hlt : s.rd a < 2 ^ d.width)
    (h : ¬ s.altersLocked d a i j v) : (v % 2 ^ d.width ^^^ s.rd a) &&& s.lockedBits d a i j = 0 := by
  rw [xor_and_eq_zero_iff]
  intro k hk
  rw [Nat.testBit_mod_two_pow]
  by_cases hkw : k < d.width
  · have hv : v.testBit k = s.rb a k := by
      by_contra hne
      exact h ⟨k, hkw, hk, hne⟩
    simpa [hkw, State.rb] using hv
  · simp [hkw, Nat.testBit_lt_two_pow (hlt.trans_le (Nat.pow_le_pow_right (by omega) (Nat.le_of_not_lt hkw)))]

theorem State.altersLocked_ne_zero {s : State} {d : RegDesc} {a i j v : Nat} (h : s.altersLocked d a i j v) :
    (v % 2 ^ d.width ^^^ s.rd a) &&& s.lockedBits d a i j ≠ 0 := by
  obtain ⟨k, hkw, hk, hne⟩ := h
  intro hz
  have hbit := (xor_and_eq_zero_iff _ _ _).mp hz k hk
  rw [Nat.testBit_mod_two_pow] at hbit
  exact hne (by simpa [hkw, State.rb] using hbit)

/-- The register's own bits after its fields have taken a value. -/
theorem State.rb_wr_storedValue (s : State) (d : RegDesc) (a locked v k : Nat) (hk : k < d.width) :
    (s.wr a (storedValue d locked (s.rd a) (v % 2 ^ d.width))).rb a k =
      if (d.rw ||| d.rwl).testBit k && !locked.testBit k then v.testBit k
      else if d.w1c.testBit k && v.testBit k then false else s.rb a k := by
  have hk64 : k < 64 := hk.trans_le d.width_le
  have hv : (v % 2 ^ d.width).testBit k = v.testBit k := by simp [Nat.testBit_mod_two_pow, hk]
  rw [State.rb, State.rd_wr_same, Nat.testBit_mod_two_pow, testBit_storedValue _ _ _ _ _ hk64, hv]
  simp [hk64, State.rb]

/-- A write touches its own register only, unless it alters a locked bit. -/
theorem State.storeReg_plain {s : State} {a v i j : Nat} {d : RegDesc} (h : regFind a = some (d, i, j))
    (hz : (v % 2 ^ d.width ^^^ s.rd a) &&& s.lockedBits d a i j = 0) :
    s.regsKept (s.storeReg a v) [a] ∧ s.storeReg a v = { s with regs := (s.storeReg a v).regs } := by
  rw [State.storeReg_eq h, if_pos hz]
  exact ⟨fun x hx => State.rd_wr_ne _ _ fun e => hx (by simp [e]), rfl⟩

/-- The bits of a register after a write, but for a flag of its own that a locked write sets. -/
theorem State.rb_storeReg {s : State} {a v i j k : Nat} {d : RegDesc} (h : regFind a = some (d, i, j)) (hk : k < d.width)
    (hflag : lockFlag d.area (areaUnit d.area a i j) ≠ some (a, k)) :
    (s.storeReg a v).rb a k =
      if (d.rw ||| d.rwl).testBit k && !(s.lockedBits d a i j).testBit k then v.testBit k
      else if d.w1c.testBit k && v.testBit k then false else s.rb a k := by
  rw [State.storeReg_eq h, ← State.rb_wr_storedValue s d a _ v k hk]
  split
  · rfl
  · exact (State.lockedWrite_spec _ _ _ _).1 a k hflag

/-- A write that alters a locked bit sets the flag and is reported. -/
theorem State.storeReg_locked {s : State} {a v i j : Nat} {d : RegDesc} (h : regFind a = some (d, i, j))
    (ho : s.altersLocked d a i j v) :
    let unit := areaUnit d.area a i j
    let flag := lockFlag d.area unit
    let t := s.storeReg a v
    (∀ r b, flag = some (r, b) → t.rb r b = true ∧ s.regsKept t [a, r]) ∧ (flag = none → s.regsKept t [a]) ∧
    (s.sheet.intake.length < 64 → ∃ e, t.sheet.intake = s.sheet.intake ++ [e] ∧ e.cls = 0x22 ∧ e.addr = BitVec.ofNat 64 a ∧
      e.unit = s.areaUnitCode d.area unit ∧ e.gt = s.gt.now) ∧
    t = { s with regs := t.regs, sheet := t.sheet, agenda := t.agenda } := by
  intro unit flag t
  have ht : t = (s.wr a (storedValue d (s.lockedBits d a i j) (s.rd a) (v % 2 ^ d.width))).lockedWrite d.area unit a :=
    (State.storeReg_eq h).trans (if_neg (State.altersLocked_ne_zero ho))
  obtain ⟨-, hset, hnone, hent, hrest⟩ :=
    State.lockedWrite_spec (s.wr a (storedValue d (s.lockedBits d a i j) (s.rd a) (v % 2 ^ d.width))) d.area unit a
  rw [ht]
  refine ⟨fun r b hf => ⟨(hset r b hf).1, fun x hx => ?_⟩, fun hf x hx => ?_, hent, hrest⟩
  · simp only [List.mem_cons, List.not_mem_nil, or_false, not_or] at hx
    rw [(hset r b hf).2 x (by simpa using hx.2), State.rd_wr_ne _ _ (Ne.symm hx.1)]
  · rw [hnone hf x (by simp), State.rd_wr_ne _ _ fun e => hx (by simp [e])]

/-! ### Pins and their locks (R79, R493) -/

/-- An array of registers holds no address behind its last register. -/
theorem RegDesc.find_behind {d : RegDesc} {a : Nat} (hn : 1 < d.n1) (hs : 0 < d.s1) (h : d.base + d.n1 * d.s1 ≤ a) :
    d.find a = none := by
  have hi : ¬ (a - d.base) / d.s1 < d.n1 := by
    rw [Nat.not_lt, Nat.le_div_iff_mul_le hs]
    omega
  simp [RegDesc.find, hi, show ¬ a < d.base by omega, show ¬ d.n1 ≤ 1 by omega]

theorem regFindIn_append {l r : List RegDesc} {a : Nat} (h : ∀ d ∈ l, d.find a = none) : regFindIn (l ++ r) a = regFindIn r a := by
  induction l with
  | nil => rfl
  | cons d l ih =>
    rw [List.cons_append, regFindIn, h d (by simp)]
    exact ih fun x hx => h x (by simp [hx])

/-- The rows of the map that stand before PIN_CFG end below the pins. -/
theorem regs12_below_pins : ∀ d ∈ regs12.take 33, 1 < d.n1 ∧ 0 < d.s1 ∧ d.base + d.n1 * d.s1 ≤ 0x12040000 := by decide

/-- The row of PIN_CFG and the row of PIN_OWNER. -/
def pinCfgRow : RegDesc := ⟨0x12040000, 512, 0x10, 1, 0x0, false, 0xb0, 0x0, 0x800fffff, 0x0, 0x0, 5, 0x800fffff⟩
def pinOwnerRow : RegDesc := ⟨0x12040004, 512, 0x10, 1, 0x0, false, 0x0, 0x0, 0x3f, 0x0, 0x0, 5, 0x3f⟩

theorem regs12_pins : regs12 = regs12.take 33 ++ pinCfgRow :: pinOwnerRow :: regs12.drop 35 := rfl

theorem regFind_pins {a : Nat} (h1 : 0x12040000 ≤ a) (h2 : a < 0x13000000) :
    regFind a = regFindIn (pinCfgRow :: pinOwnerRow :: regs12.drop 35) a := by
  have hw : regWindow a = regs12 := by
    simp [regWindow, show a / 0x1000000 = 0x12 by omega]
  rw [regFind, hw]
  refine (congrArg (regFindIn · a) regs12_pins).trans (regFindIn_append fun d hd => ?_)
  obtain ⟨hn, hs, hle⟩ := regs12_below_pins d hd
  exact RegDesc.find_behind hn hs (hle.trans h1)

theorem regFind_pinCfg (p : PinId) : regFind (Reg.PIN_CFG p.val) = some (pinCfgRow, p.val, 0) := by
  have hp := p.isLt
  have hfind : pinCfgRow.find (Reg.PIN_CFG p.val) = some (p.val, 0) := by
    simp [RegDesc.find, pinCfgRow, Reg.PIN_CFG]
  rw [regFind_pins (by simp [Reg.PIN_CFG]) (by simp only [Reg.PIN_CFG]; omega), regFindIn, hfind]

theorem regFind_pinOwner (p : PinId) : regFind (Reg.PIN_OWNER p.val) = some (pinOwnerRow, p.val, 0) := by
  have hp := p.isLt
  have hcfg : pinCfgRow.find (Reg.PIN_OWNER p.val) = none := by
    simp [RegDesc.find, pinCfgRow, Reg.PIN_OWNER]
    omega
  have hfind : pinOwnerRow.find (Reg.PIN_OWNER p.val) = some (p.val, 0) := by
    simp [RegDesc.find, pinOwnerRow, Reg.PIN_OWNER]
  rw [regFind_pins (by simp only [Reg.PIN_OWNER]; omega) (by simp only [Reg.PIN_OWNER]; omega), regFindIn, hcfg]
  simp only [regFindIn, hfind]

/-- A register of a pin is locked by the pin's own LOCK bit or by LOCK_REGION. -/
theorem State.lockedBits_pin (s : State) {d : RegDesc} (a i j : Nat) (h : d.area = 5) :
    s.lockedBits d a i j = if s.rb (Reg.PIN_CFG i) 31 = true ∨ (5, i) ∈ s.locks then d.cover else 0 := by
  have hunit : areaUnit d.area a i j = i := by rw [h]; rfl
  rw [State.lockedBits, hunit, h, if_neg (by decide)]
  by_cases hl : (5, i) ∈ s.locks
  · rw [if_pos (by simpa using hl), if_pos (Or.inr hl)]
  · rw [if_neg (by simpa using hl)]
    exact if_congr (by simp only [hl, true_and, or_false]) rfl rfl

/-! ### Store errors (R215) -/

theorem Core.sr_setSr_same (x : Core) (n v : Nat) : (x.setSr n v).sr n = v % 2 ^ 64 := by
  simp [Core.sr, Core.setSr]

theorem Core.sr_setSr_ne (x : Core) {n m : Nat} (v : Nat) (h : n ≠ m) : (x.setSr n v).sr m = x.sr m := by
  simp [Core.sr, Core.setSr, tabGet_set_ne _ _ _ _ h]

/-- A takeable interrupt that is recognised changes the agenda only. -/
theorem State.recognise_eq (s : State) (c : Nat) : s.recognise c = { s with agenda := (s.recognise c).agenda } := by
  unfold State.recognise
  split <;> rfl

/-- A vector that becomes pending changes its core's PEND register, and the agenda. -/
theorem State.pend_eq (s : State) (c x v : Nat) : ∃ l w, s.pend c x v =
    { s with agenda := l, cores := tabSet {} s.cores c ((s.core c).setSr (Sr.PEND x (v / 64)) w) } :=
  ⟨_, _, State.recognise_eq ..⟩

/-- What SERR_ADDR and SERR_INFO of a core hold once a store of it has failed. -/
def Core.records (x : Core) (addr cause pl eid size : Nat) : Core :=
  let i := x.sr Sr.SERR_INFO
  if i.testBit 0 then x.setSr Sr.SERR_INFO (putFld (putFld i 1 1 1) 31 24 (min 255 (fld i 31 24 + 1)))
  else (x.setSr Sr.SERR_ADDR addr).setSr Sr.SERR_INFO
    (1 + 2 * fld i 1 1 + cause * 2 ^ 2 + pl * 2 ^ 8 + eid * 2 ^ 10 + size * 2 ^ 16)

/-- A store error changes its core, the contact sheet and the agenda; the core holds the record, and vector 255 may be pending. -/
theorem State.storeError_eq (s : State) (c addr cause pl eid size : Nat) :
    let t := s.storeError c addr cause pl eid size
    t.regs = s.regs ∧ t.mem = s.mem ∧ (∀ k, k ≠ c → t.core k = s.core k) ∧
      (∀ n < 16, (t.core c).sr n = ((s.core c).records addr cause pl eid size).sr n) := by
  intro t
  have hlog (u : State) (unit : Word32) : (u.log .storeError unit addr).regs = u.regs ∧ (u.log .storeError unit addr).mem = u.mem ∧
      ∀ k, (u.log .storeError unit addr).core k = u.core k :=
    ⟨State.log_regs .., State.log_mem .., fun k => by simp only [State.core, State.log_cores]⟩
  obtain ⟨hr, hm, hc⟩ := hlog (s.setCore c ((s.core c).records addr cause pl eid size)) (s.unitCore c)
  generalize hu : (s.setCore c ((s.core c).records addr cause pl eid size)).log .storeError (s.unitCore c) addr = u at hr hm hc
  have ht : ∃ x, t = if s.gating c then u else u.pend c x 255 := ⟨_, by rw [← hu]; rfl⟩
  have hne (k : Nat) (hk : k ≠ c) : u.core k = s.core k := by rw [hc, State.setCore_core_ne _ _ _ _ hk.symm]
  have hsame : u.core c = (s.core c).records addr cause pl eid size := by rw [hc, State.setCore_core_same]
  obtain ⟨x, ht⟩ := ht
  split at ht
  · subst ht
    exact ⟨hr, hm, hne, fun n _ => by rw [hsame]⟩
  · obtain ⟨l, w, hp⟩ := u.pend_eq c x 255
    rw [ht, hp]
    refine ⟨hr, hm, fun k hk => ?_, fun n hn => ?_⟩
    · rw [← hne k hk]
      simp [State.core, tabGet_set_ne _ _ _ _ hk.symm]
    · rw [← hsame, ← Core.sr_setSr_ne (u.core c) (n := Sr.PEND x (255 / 64)) w (by simp [Sr.PEND, Sr.blk]; omega)]
      simp [State.core]

/-- The first store error is recorded with its address and cause; a later one is counted and leaves the address. -/
theorem Core.records_spec (x : Core) {addr cause : Nat} (pl eid size : Nat) (ha : addr < 2 ^ 64) (hc : cause < 64) :
    let y := x.records addr cause pl eid size
    (y.sr Sr.SERR_INFO).testBit 0 = true ∧
    ((x.sr Sr.SERR_INFO).testBit 0 = false → y.sr Sr.SERR_ADDR = addr ∧ fld (y.sr Sr.SERR_INFO) 7 2 = cause) ∧
    ((x.sr Sr.SERR_INFO).testBit 0 = true → (y.sr Sr.SERR_INFO).testBit 1 = true ∧ y.sr Sr.SERR_ADDR = x.sr Sr.SERR_ADDR) := by
  intro y
  have hne : Sr.SERR_INFO ≠ Sr.SERR_ADDR := by decide
  by_cases h : (x.sr Sr.SERR_INFO).testBit 0 = true
  · have hy : y = x.setSr Sr.SERR_INFO (putFld (putFld (x.sr Sr.SERR_INFO) 1 1 1) 31 24 (min 255 (fld (x.sr Sr.SERR_INFO) 31 24 + 1))) :=
      if_pos h
    have hbit (k : Nat) (hk : k < 24) : (y.sr Sr.SERR_INFO).testBit k = if k = 1 then true else (x.sr Sr.SERR_INFO).testBit k := by
      rw [hy, Core.sr_setSr_same, Nat.testBit_mod_two_pow, testBit_putFld _ _ _ _ _ (by omega), testBit_putFld _ _ _ _ _ (by omega)]
      by_cases h1 : k = 1
      · subst h1; simp
      · simp [h1, show k < 64 by omega, show ¬ 24 ≤ k by omega, show ¬ (1 ≤ k ∧ k ≤ 1) by omega]
    refine ⟨by rw [hbit 0 (by omega)]; simpa using h, fun h0 => by simp [h] at h0, fun _ => ⟨by rw [hbit 1 (by omega)]; rfl, ?_⟩⟩
    rw [hy, Core.sr_setSr_ne _ _ hne]
  · have hy : y = (x.setSr Sr.SERR_ADDR addr).setSr Sr.SERR_INFO
        (1 + 2 * fld (x.sr Sr.SERR_INFO) 1 1 + cause * 2 ^ 2 + pl * 2 ^ 8 + eid * 2 ^ 10 + size * 2 ^ 16) := if_neg h
    have hinfo := congrArg (·.sr Sr.SERR_INFO) hy
    simp only [Core.sr_setSr_same] at hinfo
    have hf : fld (x.sr Sr.SERR_INFO) 1 1 < 2 := Nat.mod_lt _ (by decide)
    refine ⟨?_, fun _ => ⟨?_, ?_⟩, fun h1 => absurd h1 h⟩
    · rw [hinfo, Nat.testBit_zero]
      simp only [decide_eq_true_eq]
      omega
    · rw [hy, Core.sr_setSr_ne _ _ hne, Core.sr_setSr_same, Nat.mod_eq_of_lt ha]
    · rw [hinfo]
      simp only [fld, Nat.shiftRight_eq_div_pow]
      simp only [fld] at hf
      omega

/-! ### Accesses of a window (R9, R11, R160) -/

/-- A window other than DRAM that comes first in the list is not the answer DRAM. -/
theorem Win.later {c : Prop} [Decidable c] {w : Win} {o : Option Win} (hw : w ≠ .dram) (h : (if c then some w else o) = some .dram) :
    o = some .dram := by
  split at h
  · exact absurd (Option.some.inj h) hw
  · exact h

theorem State.inDram_of_window {s : State} {a : Nat} (h : s.window a = some .dram) : s.inDram a = true := by
  unfold State.window at h
  iterate 19 replace h := Win.later (by decide) h
  by_contra hd
  simp [hd] at h

/-- The windows whose addresses hold registers or nothing. -/
theorem Win.registers_iff (w : Win) : w.registers = true ↔ w ∉ [Win.rom, .sheet, .monSram, .dram, .localMem, .points] := by
  cases w <;> decide

theorem State.busWrite_noWindow {s : State} {a : Nat} (who : Requester) (n v : Nat) (st : Stamp) (h : s.window a = none) :
    s.busWrite who a n v st = (some .noTarget, s) := by
  simp [State.busWrite, h]

/-- A write of a register window, by the form of its access (R9, R11). -/
def State.writeByForm (s : State) (who : Requester) (w : Win) (a n v : Nat) (st : Stamp) : Option AccessErr × State :=
  match s.regForm w a n with
  | .error e => (some e, s)
  | .ok false => (none, s)
  | .ok true => s.writeReg who w a v st

section
variable {s : State} {w : Win} {a : Nat} {who : Requester} (n v : Nat) (st : Stamp) (hw : s.window a = some w)
include hw

theorem State.busWrite_closed (h : windowOpen w a who = false) : s.busWrite who a n v st = (some .priv, s) := by
  simp [State.busWrite, hw, h]

theorem State.busWrite_readOnly (ho : windowOpen w a who = true) (h : w = .rom ∨ w = .sheet) :
    s.busWrite who a n v st = (some .target, s) := by
  rcases h with rfl | rfl <;> simp [State.busWrite, hw, ho]

theorem State.busWrite_denied (ho : windowOpen w a who = true) (h : w = .dram) (he : s.ertPermits who.eid.toNat a true = false) :
    s.busWrite who a n v st = (some .enclave, s) := by
  subst h
  simp [State.busWrite, hw, ho, he, State.inDram_of_window hw]

/-- Past the window's level, a register window's write goes by its form. -/
theorem State.busWrite_registers (ho : windowOpen w a who = true) (hr : w.registers = true) :
    s.busWrite who a n v st = s.writeByForm who w a n v st := by
  unfold State.busWrite State.writeByForm
  simp only [hw, ho, not_true_eq_false, if_false]
  cases w
  case rom | monSram | sheet | localMem | points | dram => cases hr
  all_goals rfl

end

theorem State.regForm_misformed {s : State} {w : Win} {a n : Nat} (h : (n ≠ 4 ∧ n ≠ 8) ∨ a % n ≠ 0) :
    s.regForm w a n = .error .form := by
  unfold State.regForm
  rw [if_pos (by simpa [not_or] using h)]

theorem State.regForm_wrongWidth {s : State} {w : Win} {a n k : Nat} (hk : s.regBytes w a = some k) (hne : k ≠ n) :
    s.regForm w a n = .error .form := by
  unfold State.regForm
  split
  · rfl
  · simp [hk, hne]

theorem State.regForm_hole {s : State} {w : Win} {a n : Nat} (hn : n = 4 ∨ n = 8) (ha : a % n = 0) (hk : s.regBytes w a = none)
    (hbelow : ¬ (a % 8 = 4 ∧ s.regBytes w (a - 4) = some 8)) (habove : ¬ (n = 8 ∧ (s.regBytes w (a + 4)).isSome)) :
    s.regForm w a n = .ok false := by
  unfold State.regForm
  rw [if_neg (by simp [hn, ha])]
  simp only [hk]
  rw [if_neg (not_or.mpr ⟨hbelow, habove⟩)]

theorem State.regBytes_width {s : State} {w : Win} {a k : Nat} (h : s.regBytes w a = some k) : k = 4 ∨ k = 8 := by
  unfold State.regBytes at h
  split_ifs at h
  · simp at h; omega
  · simp at h; omega
  · obtain ⟨r, -, hr⟩ := Option.map_eq_some_iff.mp h
    split at hr <;> omega

theorem State.regForm_register {s : State} {w : Win} {a n : Nat} (ha : a % n = 0) (hk : s.regBytes w a = some n) :
    s.regForm w a n = .ok true := by
  unfold State.regForm
  rw [if_neg (by simp [State.regBytes_width hk, ha])]
  simp [hk]

theorem State.regBytes_of_find {s : State} {w : Win} {a i j : Nat} {d : RegDesc} (hw : w ≠ .doorbell) (ha : a ≠ cmdStatus)
    (h : regFind a = some (d, i, j)) : s.regBytes w a = some (if d.wide then 8 else 4) := by
  simp [State.regBytes, hw, ha, h]

/-! ### REGISTER_WRITE -/

section
variable {s t : State} {who : Requester} {addr : PAddr} {size : BitVec 2} {value : Word64}

/-- A write that is not performed: a main core records it with its cause, any other agent records nothing. -/
def State.refusesWrite (s : State) (who : Requester) (addr : PAddr) (size : BitVec 2) (value : Word64) (cause : Nat) : Prop :=
  ∃ t, exec (.registerWrite who addr size value) s = .next t ∧ t.regs = s.regs ∧ t.mem = s.mem ∧
    ((∀ c, who.agent ≠ .core c) → t = s) ∧
    (∀ c, who.agent = .core c → let x := s.core c.val
      let y := t.core c.val
      (y.sr Sr.SERR_INFO).testBit 0 = true ∧
      ((x.sr Sr.SERR_INFO).testBit 0 = false → y.sr Sr.SERR_ADDR = addr.toNat ∧ fld (y.sr Sr.SERR_INFO) 7 2 = cause) ∧
      ((x.sr Sr.SERR_INFO).testBit 0 = true → (y.sr Sr.SERR_INFO).testBit 1 = true ∧ y.sr Sr.SERR_ADDR = x.sr Sr.SERR_ADDR) ∧
      (∀ k, k ≠ c.val → t.core k = s.core k))

theorem exec_registerWrite_done
    (h : ∀ st, s.busWrite who addr.toNat (2 ^ size.toNat) (value.toNat % 2 ^ (8 * 2 ^ size.toNat)) st = (none, t)) :
    exec (.registerWrite who addr size value) s = .next t := by
  change execRegisterWrite who addr size value s = _
  unfold execRegisterWrite
  rw [h]

theorem AccessErr.storeCause_lt (e : AccessErr) : e.storeCause < 64 := by
  cases e <;> decide

theorem State.refusesWrite_of_busWrite {e : AccessErr}
    (h : ∀ st, s.busWrite who addr.toNat (2 ^ size.toNat) (value.toNat % 2 ^ (8 * 2 ^ size.toNat)) st = (some e, s)) :
    s.refusesWrite who addr size value e.storeCause := by
  unfold State.refusesWrite
  change ∃ t, execRegisterWrite who addr size value s = .next t ∧ _
  unfold execRegisterWrite
  rw [h]
  cases ha : who.agent with
  | core c =>
    obtain ⟨hr, hm, hne, hsr⟩ := s.storeError_eq c.val addr.toNat e.storeCause who.pl.toNat who.eid.toNat size.toNat
    obtain ⟨hv, hfirst, hlater⟩ := (s.core c.val).records_spec who.pl.toNat who.eid.toNat size.toNat
      (addr.isLt.trans (by decide)) e.storeCause_lt
    refine ⟨_, rfl, hr, hm, fun h => absurd rfl (h c), fun c' hc => ?_⟩
    cases hc
    simp only [hsr Sr.SERR_INFO (by decide), hsr Sr.SERR_ADDR (by decide)]
    exact ⟨hv, hfirst, hlater, hne⟩
  | _ => exact ⟨s, rfl, rfl, rfl, fun _ => rfl, fun c hc => by cases hc⟩

/-- A write of a register at its width does what the register's own write does. -/
theorem exec_registerWrite_register {w : Win} (hw : s.window addr.toNat = some w) (ho : windowOpen w addr.toNat who = true)
    (hr : w.registers = true) (hb : s.regBytes w addr.toNat = some (2 ^ size.toNat)) (ha : addr.toNat % 2 ^ size.toNat = 0)
    (h : ∀ st, s.writeReg who w addr.toNat (value.toNat % 2 ^ (8 * 2 ^ size.toNat)) st = (none, t)) :
    exec (.registerWrite who addr size value) s = .next t := by
  refine exec_registerWrite_done fun st => ?_
  rw [State.busWrite_registers _ _ _ hw ho hr, State.writeByForm, State.regForm_register ha hb]
  exact h st

end

/-! ### The registers whose write is a command of its own -/

/-- A window of level 0, other than the queue-engine window and the rings, admits every requester (R160). -/
theorem windowOpen_of_level {w : Win} {a : Nat} (who : Requester) (hq : w ≠ .queue) (hr : w ≠ .rings) (h : w.level a = 0) :
    windowOpen w a who = true := by
  simp [windowOpen, Win.admits, hq, hr, h]

theorem regFind_phbCtrl : ∀ b : BaseId, (regFind (Reg.PHB_CTRL b.val)).map (·.1.wide) = some false := by decide
theorem regFind_bankCfg : ∀ b : BankId, (regFind (Reg.PIN_BANK_CFG b.val)).map (·.1.wide) = some false := by decide
theorem regFind_queryAddr : ∀ h : HsId, (regFind (Reg.HS_QUERY_ADDR h.val)).map (·.1.wide) = some true := by decide

theorem State.regBytes_of_wide {s : State} {w : Win} {a : Nat} {wide : Bool} (hw : w ≠ .doorbell) (ha : a ≠ cmdStatus)
    (h : (regFind a).map (·.1.wide) = some wide) : s.regBytes w a = some (if wide then 8 else 4) := by
  obtain ⟨⟨d, i, j⟩, hf, rfl⟩ := Option.map_eq_some_iff.mp h
  exact State.regBytes_of_find hw ha hf

section
variable {s t : State} {who : Requester} {addr : PAddr} {size : BitVec 2} {value : Word64} {w : Win} {a : Nat}

/-- A word written to a register that has a command of its own, in a window that every level may use. -/
theorem exec_registerWrite_word (hs : size = 2) (ha : addr.toNat = a) (hw : s.window a = some w) (hl : w.level a = 0)
    (hq : w ∉ [Win.queue, .rings, .doorbell]) (hr : w.registers = true) (hc : a ≠ cmdStatus)
    (hf : (regFind a).map (·.1.wide) = some false) (h4 : a % 4 = 0)
    (h : ∀ st, s.writeReg who w a (value.setWidth 32).toNat st = (none, t)) :
    exec (.registerWrite who addr size value) s = .next t := by
  subst hs ha
  simp only [List.mem_cons, List.not_mem_nil, or_false, not_or] at hq
  obtain ⟨hqueue, hrings, hbell⟩ := hq
  refine exec_registerWrite_register hw (windowOpen_of_level who hqueue hrings hl) hr (State.regBytes_of_wide hbell hc hf) h4 fun st => ?_
  rw [← h st, BitVec.toNat_setWidth]
  rfl

theorem exec_registerWrite_gtCtrl (hs : size = 2) (ha : addr.toNat = Reg.GT_CTRL) :
    exec (.registerWrite who addr size value) s = exec (.gtCtrl who (value.setWidth 32)) s :=
  exec_registerWrite_word (w := .gt) hs ha rfl rfl (by decide) rfl (by decide) (by decide) (by decide) fun _ => rfl

theorem exec_registerWrite_freeze (hs : size = 2) (ha : addr.toNat = Reg.GT_PMU_FREEZE) :
    exec (.registerWrite who addr size value) s = exec (.freeze who (value.setWidth 32)) s :=
  exec_registerWrite_word (w := .gt) hs ha rfl rfl (by decide) rfl (by decide) (by decide) (by decide) fun _ => rfl

theorem exec_registerWrite_pairCfg (hs : size = 2) (ha : addr.toNat = Reg.PAIR_CFG) :
    exec (.registerWrite who addr size value) s = exec (.linkEn who (value.setWidth 32)) s :=
  exec_registerWrite_word (w := .pair) hs ha rfl rfl (by decide) rfl (by decide) (by decide) (by decide) fun _ => rfl

theorem State.window_phase (h1 : 0x12000000 ≤ a) (h2 : a < 0x13000000) : s.window a = some .phase := by
  unfold State.window
  iterate 6 rw [if_neg (by omega)]
  rw [if_pos ⟨h1, h2⟩]

theorem State.window_hs (h1 : 0x52000000 ≤ a) (h2 : a < 0x53000000) : s.window a = some .hs := by
  unfold State.window
  iterate 14 rw [if_neg (by omega)]
  rw [if_pos ⟨h1, h2⟩]

theorem State.writePhase_phbCtrl (s : State) (who : Requester) (b : BaseId) (v : Nat) :
    s.writePhase who (Reg.PHB_CTRL b.val) v = s.writePhbCtrl b.val v := by
  have hb := b.isLt
  have hlt : Reg.PHB_CTRL b.val < 0x12001000 := by unfold Reg.PHB_CTRL; omega
  have hoff : Reg.PHB_CTRL b.val % 0x100 = 0 := by unfold Reg.PHB_CTRL; omega
  have hidx : (Reg.PHB_CTRL b.val - 0x12000000) / 0x100 = b.val := by unfold Reg.PHB_CTRL; omega
  unfold State.writePhase
  rw [if_pos hlt]
  simp only [hoff, hidx]

theorem State.writePhase_bankCfg (s : State) (who : Requester) (k : BankId) (v : Nat) :
    s.writePhase who (Reg.PIN_BANK_CFG k.val) v = s.writeVsel k.val v := by
  have hk := k.isLt
  have hge : 0x12050000 ≤ Reg.PIN_BANK_CFG k.val := by unfold Reg.PIN_BANK_CFG; omega
  have hlt : Reg.PIN_BANK_CFG k.val < 0x12060000 := by unfold Reg.PIN_BANK_CFG; omega
  have hoff : Reg.PIN_BANK_CFG k.val % 0x10 = 0 := by unfold Reg.PIN_BANK_CFG; omega
  have hidx : (Reg.PIN_BANK_CFG k.val - 0x12050000) / 0x10 = k.val := by unfold Reg.PIN_BANK_CFG; omega
  unfold State.writePhase
  iterate 5 rw [if_neg (by omega)]
  rw [if_pos hlt]
  simp only [hoff, hidx]

theorem exec_registerWrite_phbCtrl (b : BaseId) (hs : size = 2) (ha : addr.toNat = Reg.PHB_CTRL b.val) :
    exec (.registerWrite who addr size value) s = exec (.phbCtrl b who (value.setWidth 32)) s := by
  have hb := b.isLt
  have h1 : 0x12000000 ≤ Reg.PHB_CTRL b.val := by unfold Reg.PHB_CTRL; omega
  have h2 : Reg.PHB_CTRL b.val < 0x13000000 := by unfold Reg.PHB_CTRL; omega
  have h4 : Reg.PHB_CTRL b.val % 4 = 0 := by unfold Reg.PHB_CTRL; omega
  refine exec_registerWrite_word (w := .phase) hs ha (State.window_phase h1 h2) rfl (by decide) rfl ?_ (regFind_phbCtrl b) h4 fun _ => ?_
  · unfold cmdStatus; omega
  · exact congrArg (Prod.mk none) (s.writePhase_phbCtrl who b _)

theorem exec_registerWrite_vsel (k : BankId) (hs : size = 2) (ha : addr.toNat = Reg.PIN_BANK_CFG k.val) :
    exec (.registerWrite who addr size value) s = exec (.vsel k who (value.setWidth 32)) s := by
  have hk := k.isLt
  have h1 : 0x12000000 ≤ Reg.PIN_BANK_CFG k.val := by unfold Reg.PIN_BANK_CFG; omega
  have h2 : Reg.PIN_BANK_CFG k.val < 0x13000000 := by unfold Reg.PIN_BANK_CFG; omega
  have h4 : Reg.PIN_BANK_CFG k.val % 4 = 0 := by unfold Reg.PIN_BANK_CFG; omega
  refine exec_registerWrite_word (w := .phase) hs ha (State.window_phase h1 h2) rfl (by decide) rfl ?_ (regFind_bankCfg k) h4 fun _ => ?_
  · unfold cmdStatus; omega
  · exact congrArg (Prod.mk none) (s.writePhase_bankCfg who k _)

theorem exec_registerWrite_queryAddr (h : HsId) (hs : size = 3) (ha : addr.toNat = Reg.HS_QUERY_ADDR h.val) :
    exec (.registerWrite who addr size value) s = exec (.hsQueryAddr h who value) s := by
  subst hs
  have hh := h.isLt
  have h1 : 0x52000000 ≤ addr.toNat := by rw [ha]; unfold Reg.HS_QUERY_ADDR; omega
  have h2 : addr.toNat < 0x53000000 := by rw [ha]; unfold Reg.HS_QUERY_ADDR; omega
  have h8 : addr.toNat % 8 = 0 := by rw [ha]; unfold Reg.HS_QUERY_ADDR; omega
  have hidx : (addr.toNat - 0x52000000) / 0x10000 = h.val := by rw [ha]; unfold Reg.HS_QUERY_ADDR; omega
  have hb : s.regBytes .hs addr.toNat = some 8 :=
    State.regBytes_of_wide (by decide) (by unfold cmdStatus; omega) (ha ▸ regFind_queryAddr h)
  refine exec_registerWrite_register (State.window_hs h1 h2) (windowOpen_of_level who (by decide) (by decide) rfl) rfl hb h8 fun st => ?_
  have hv : BitVec.ofNat 64 (value.toNat % 2 ^ 64) = value := by
    rw [Nat.mod_eq_of_lt value.isLt, BitVec.ofNat_toNat, BitVec.setWidth_eq]
  unfold State.writeReg
  simp only [hidx]
  rw [if_pos ha]
  exact congrArg (fun x => (none, s.hsQuery h.val who x)) hv

end

/-! ### The obligation -/

/-- What the windows make of a write, from the highest check to the register itself. -/
theorem exec_registerWrite_windows (s : State) (who : Requester) (addr : PAddr) (size : BitVec 2) (value : Word64) :
    let a := addr.toNat
    let n := 2 ^ size.toNat
    let i := Instr.registerWrite who addr size value
    (s.window a = none → s.refusesWrite who addr size value 1) ∧
    (∀ w, s.window a = some w →
      (windowOpen w a who = false → s.refusesWrite who addr size value 3) ∧
      (windowOpen w a who = true →
        (w = .rom ∨ w = .sheet → s.refusesWrite who addr size value 5) ∧
        (w = .dram → s.ertPermits who.eid.toNat a true = false → s.refusesWrite who addr size value 4) ∧
        (w ∉ [Win.rom, .sheet, .monSram, .dram, .localMem, .points] →
          ((n ≠ 4 ∧ n ≠ 8) ∨ a % n ≠ 0 → s.refusesWrite who addr size value 2) ∧
          (∀ k, s.regBytes w a = some k → k ≠ n → s.refusesWrite who addr size value 2) ∧
          ((n = 4 ∨ n = 8) → a % n = 0 → s.regBytes w a = none → ¬ (a % 8 = 4 ∧ s.regBytes w (a - 4) = some 8) →
            ¬ (n = 8 ∧ (s.regBytes w (a + 4)).isSome) → exec i s = .next s)) ∧
        (w = .queue ∨ w = .pvt → a % n = 0 → s.regBytes w a = some n →
          exec i s = .next (s.storeReg a (value.toNat % 2 ^ (8 * n)))))) := by
  intro a n i
  refine ⟨fun hw => ?_, fun w hw => ⟨fun ho => ?_, fun ho => ⟨fun h => ?_, fun h he => ?_, fun h => ?_, fun h ha hb => ?_⟩⟩⟩
  · exact State.refusesWrite_of_busWrite (e := .noTarget) fun st => State.busWrite_noWindow who _ _ st hw
  · exact State.refusesWrite_of_busWrite (e := .priv) fun st => State.busWrite_closed _ _ st hw ho
  · exact State.refusesWrite_of_busWrite (e := .target) fun st => State.busWrite_readOnly _ _ st hw ho h
  · exact State.refusesWrite_of_busWrite (e := .enclave) fun st => State.busWrite_denied _ _ st hw ho h he
  · have hr : w.registers = true := w.registers_iff.mpr h
    have hform {e : AccessErr} (hf : s.regForm w a n = .error e) : s.refusesWrite who addr size value e.storeCause :=
      State.refusesWrite_of_busWrite fun st => by
        rw [State.busWrite_registers _ _ st hw ho hr, State.writeByForm, hf]
    refine ⟨fun hn => hform (State.regForm_misformed hn), fun k hk hne => hform (State.regForm_wrongWidth hk hne),
      fun hn ha hb hbelow habove => exec_registerWrite_done fun st => ?_⟩
    rw [State.busWrite_registers _ _ st hw ho hr, State.writeByForm, State.regForm_hole hn ha hb hbelow habove]
  · have hr : w.registers = true := by rcases h with rfl | rfl <;> rfl
    refine exec_registerWrite_register hw ho hr hb ha fun st => ?_
    rcases h with rfl | rfl <;> rfl

/-- Settles O57: fields by their types, locks of pins, the checks of a window, and the registers that have commands of their own. -/
theorem registerWritesFollowTheirTypes : Obligations.Register_writes_follow_their_types := by
  unfold Obligations.Register_writes_follow_their_types
  refine ⟨fun s a v d i j h => ⟨fun k hk hflag => State.rb_storeReg h hk hflag, fun hz => State.storeReg_plain h ?_,
    State.storeReg_locked h⟩, fun s a v h => State.storeReg_hole h, fun s p d i j a ha h => ?_, fun s who addr size value => ?_⟩
  · rcases hz with hz | ⟨hlt, hno⟩
    · rw [hz, Nat.and_zero]
    · exact State.not_altersLocked hlt hno
  · have hrow : d.area = 5 ∧ i = p.val := by
      rcases ha with rfl | rfl
      · cases (regFind_pinCfg p).symm.trans h
        exact ⟨rfl, rfl⟩
      · cases (regFind_pinOwner p).symm.trans h
        exact ⟨rfl, rfl⟩
    obtain ⟨harea, rfl⟩ := hrow
    exact s.lockedBits_pin a _ j harea
  · obtain ⟨hnone, hsome⟩ := exec_registerWrite_windows s who addr size value
    exact ⟨hnone, hsome, fun hs => ⟨exec_registerWrite_gtCtrl hs, exec_registerWrite_freeze hs, exec_registerWrite_pairCfg hs,
      fun b => exec_registerWrite_phbCtrl b hs, fun k => exec_registerWrite_vsel k hs⟩, fun hs h => exec_registerWrite_queryAddr h hs⟩

end Sys2Proof.Machine
end

section
/-!
PROOF. Global time (O2, O3): the adjustment that R19 permits and what it adds to GT, and what the commands of global time do to the
servo and its registers.
-/
namespace Sys2Proof.Machine

/-! ### Signed readings -/

/-- A number in the signed range of a width reads back from its low bits. -/
theorem toSigned_wrapTo {w : Nat} {x : Int} (hlo : -2 ^ w ≤ x) (hhi : x < 2 ^ w) : toSigned (w + 1) (wrapTo (w + 1) x) = x := by
  have hpow : (2 : Int) ^ (w + 1) = 2 * 2 ^ w := by ring
  have hcast : ((2 ^ w : Nat) : Int) = 2 ^ w := by push_cast; rfl
  have hnat : (2 : Nat) ^ (w + 1) = 2 * 2 ^ w := by ring
  rcases le_or_gt 0 x with hx | hx
  · have hw : wrapTo (w + 1) x = x.toNat := by rw [wrapTo, Int.emod_eq_of_lt hx (by omega)]
    have hmod : x.toNat % 2 ^ (w + 1) = x.toNat := Nat.mod_eq_of_lt (by omega)
    rw [hw, toSigned, hmod, Nat.add_sub_cancel, if_pos (by omega)]
    omega
  · have hw : wrapTo (w + 1) x = (x + 2 ^ (w + 1)).toNat := by
      rw [wrapTo, ← Int.add_emod_right, Int.emod_eq_of_lt (by omega) (by omega)]
    have hmod : (x + 2 ^ (w + 1)).toNat % 2 ^ (w + 1) = (x + 2 ^ (w + 1)).toNat := Nat.mod_eq_of_lt (by omega)
    rw [hw, toSigned, hmod, Nat.add_sub_cancel, if_neg (by omega)]
    omega

/-- The low bits of a number fit their width. -/
theorem wrapTo_lt (w : Nat) (x : Int) : wrapTo w x < 2 ^ w := by
  have hpos : (0 : Int) < 2 ^ w := by positivity
  have hcast : ((2 ^ w : Nat) : Int) = 2 ^ w := by push_cast; rfl
  have := Int.emod_lt_of_pos x hpos
  have := Int.emod_nonneg x hpos.ne'
  rw [wrapTo]
  omega

/-- A word's signed value spells the word. -/
theorem wrapTo_toInt {w : Nat} (v : BitVec w) : wrapTo w v.toInt = v.toNat := by
  have hmod : (v.toInt : Int) % ((2 ^ w : Nat) : Int) = v.toNat := by
    rw [BitVec.toInt_eq_toNat_bmod, Int.bmod_emod, Int.emod_eq_of_lt (by omega) (by exact_mod_cast v.isLt)]
  push_cast at hmod
  rw [wrapTo, hmod, Int.toNat_natCast]

/-! ### Registers beside the one written -/

theorem State.rd_wb (s : State) {i : Nat} (h : i < 64) (a b : Nat) (v : Bool) :
    (s.wb a i v).rd b = if a = b then putFld (s.rd a) i i (b2n v) else s.rd b := by
  split
  · next hab => rw [← hab, State.rd_wb_same s a i v h]
  · next hab => exact State.rd_wb_ne s i v hab

theorem State.rb_wr_ne (s : State) {a b : Nat} (v i : Nat) (h : a ≠ b) : (s.wr a v).rb b i = s.rb b i := by
  rw [State.rb, State.rd_wr_ne s v h, State.rb]

/-! ### The adjustment of R19 -/

theorem clampRate_eq (r : Int) : clampRate r = max (-2147483) (min 2147483 r) := rfl

theorem clampRate_ne_iff (r : Int) : clampRate r ≠ r ↔ 2147483 < r ∨ r < -2147483 := by
  rw [clampRate_eq]
  omega

/-- The register form of a clamped adjustment reads back. -/
theorem toSigned_clampRate (r : Int) : toSigned 32 (wrapTo 32 (clampRate r)) = clampRate r := by
  have : clampRate r = max (-2147483) (min 2147483 r) := rfl
  exact toSigned_wrapTo (w := 31) (by omega) (by omega)

/-- Working out the adjustment changes registers only. -/
theorem State.applyRate_eq (s : State) : s.applyRate = { s with regs := s.applyRate.regs } := by
  unfold State.applyRate
  dsimp only
  split <;> rfl

theorem State.rd_applyRate_rateEff (s : State) : toSigned 32 (s.applyRate.rd Reg.GT_RATE_EFF) = clampRate s.rateAsked := by
  have hlt : wrapTo 32 (clampRate s.rateAsked) % 2 ^ 64 = wrapTo 32 (clampRate s.rateAsked) :=
    Nat.mod_eq_of_lt ((wrapTo_lt 32 _).trans (by decide))
  have hrd : s.applyRate.rd Reg.GT_RATE_EFF = wrapTo 32 (clampRate s.rateAsked) := by
    unfold State.applyRate
    dsimp only
    split
    · rw [State.rd_wb_ne _ _ _ (by decide), State.rd_wr_same, hlt]
    · rw [State.rd_wr_same, hlt]
  rw [hrd, toSigned_clampRate]

/-- RATE_CLAMPED, and every other bit of GT_STATUS. -/
theorem State.rb_applyRate_status (s : State) (i : Nat) :
    s.applyRate.rb Reg.GT_STATUS i = if i = 5 ∧ clampRate s.rateAsked ≠ s.rateAsked then true else s.rb Reg.GT_STATUS i := by
  unfold State.applyRate
  by_cases hc : clampRate s.rateAsked ≠ s.rateAsked
  · rw [if_pos hc, State.rb_wb _ _ _ _ _ _ (by decide), State.rb_wr_ne _ _ _ (by decide)]
    simp [hc, eq_comm]
  · rw [if_neg hc, State.rb_wr_ne _ _ _ (by decide)]
    simp [hc]

theorem State.rd_applyRate_ne (s : State) {a : Nat} (h1 : a ≠ Reg.GT_RATE_EFF) (h2 : a ≠ Reg.GT_STATUS) : s.applyRate.rd a = s.rd a := by
  unfold State.applyRate
  dsimp only
  split
  · rw [State.rd_wb_ne _ _ _ h2.symm, State.rd_wr_ne _ _ h1.symm]
  · rw [State.rd_wr_ne _ _ h1.symm]

/-- GT with its hidden fraction, in units of 2^-32 ns. -/
def Gt.fine (g : Gt) : Int := (g.now.toNat : Int) * 2 ^ 32 + g.frac.toNat

/-- One clock adds 2^32 and the clamped adjustment to the accumulator of R18. -/
theorem State.gtTick_fine (s : State) : s.gtTick.gt.fine % 2 ^ 96 = (s.gt.fine + 2 ^ 32 + clampRate s.rateAsked) % 2 ^ 96 := by
  have hgt : s.gtTick.gt.now = BitVec.ofInt 64 (s.now + ((s.gt.frac.toNat : Int) + 2 ^ 32 + clampRate s.rateAsked) / 2 ^ 32) ∧
      s.gtTick.gt.frac = BitVec.ofInt 32 ((s.gt.frac.toNat : Int) + 2 ^ 32 + clampRate s.rateAsked) := by
    unfold State.gtTick
    constructor <;> (dsimp only; repeat' split) <;> rfl
  obtain ⟨hnow, hfrac⟩ := hgt
  rw [Gt.fine, hnow, hfrac, BitVec.toNat_ofInt, BitVec.toNat_ofInt, Gt.fine, ← State.now]
  omega

/-- Settles O2, from what working out the adjustment leaves of its two registers. -/
theorem rateIsClamped : Obligations.Rate_is_clamped := by
  unfold Obligations.Rate_is_clamped
  intro s
  refine ⟨s.rd_applyRate_rateEff, ?_, fun a ha => ?_, fun i hi => ?_, s.applyRate_eq, s.gtTick_fine⟩
  · rw [State.rb_applyRate_status, ← or_assoc, ← clampRate_ne_iff]
    by_cases hc : clampRate s.rateAsked ≠ s.rateAsked <;> simp [hc]
  · simp only [List.mem_cons, List.not_mem_nil, or_false, not_or] at ha
    exact s.rd_applyRate_ne ha.1 ha.2
  · rw [State.rb_applyRate_status, if_neg (by omega)]

/-! ### Writes of unlocked registers -/

/-- A write of a register with no locked field changes that register and nothing else. -/
theorem State.storeReg_unlocked {s : State} {a : Nat} (v : Nat) (h : s.unlockedAt a = true) :
    s.regsKept (s.storeReg a v) [a] ∧ s.storeReg a v = { s with regs := (s.storeReg a v).regs } := by
  unfold State.unlockedAt at h
  split at h
  · next hf => rw [State.storeReg_hole hf]; exact ⟨fun _ _ => rfl, rfl⟩
  · next d i j hf =>
    refine State.storeReg_plain hf ?_
    rw [beq_iff_eq.mp h, Nat.and_zero]

/-! ### Changes of the servo -/

/-- The state with another record of GT and its servo. -/
def State.setGt (s : State) (g : Gt) : State := { s with gt := g }

@[simp] theorem State.setGt_gt (s : State) (g : Gt) : (s.setGt g).gt = g := rfl
@[simp] theorem State.setGt_rd (s : State) (g : Gt) (a : Nat) : (s.setGt g).rd a = s.rd a := rfl
@[simp] theorem State.setGt_rb (s : State) (g : Gt) (a i : Nat) : (s.setGt g).rb a i = s.rb a i := rfl

/-- `t` is `s` but for GT with its servo and the registers listed. -/
structure TimeStep (rs : List Nat) (s t : State) : Prop where
  frame : t = { s with gt := t.gt, regs := t.regs }
  kept : s.regsKept t rs

section
variable {rs : List Nat} {s t u : State}

theorem State.regsKept.trans (h : s.regsKept t rs) (k : t.regsKept u rs) : s.regsKept u rs :=
  fun a ha => (k a ha).trans (h a ha)

theorem State.regsKept.wr {a v : Nat} (h : s.regsKept t rs) (ha : a ∈ rs) : s.regsKept (t.wr a v) rs :=
  fun x hx => (State.rd_wr_ne t v fun e : a = x => hx (e ▸ ha)).trans (h x hx)

theorem State.regsKept.wb {a i : Nat} {b : Bool} (h : s.regsKept t rs) (ha : a ∈ rs) : s.regsKept (t.wb a i b) rs :=
  State.regsKept.wr h ha

theorem TimeStep.refl (s : State) : TimeStep rs s s := ⟨rfl, fun _ _ => rfl⟩

theorem TimeStep.wr {a v : Nat} (h : TimeStep rs s t) (ha : a ∈ rs) : TimeStep rs s (t.wr a v) :=
  ⟨congrArg (·.wr a v) h.frame, h.kept.wr ha⟩

theorem TimeStep.wb {a i : Nat} {b : Bool} (h : TimeStep rs s t) (ha : a ∈ rs) : TimeStep rs s (t.wb a i b) := h.wr ha

theorem TimeStep.setGt (h : TimeStep rs s t) (g : Gt) : TimeStep rs s (t.setGt g) :=
  ⟨congrArg (·.setGt g) h.frame, h.kept⟩

theorem TimeStep.ite {c : Prop} [Decidable c] (h : TimeStep rs s t) (k : TimeStep rs s u) : TimeStep rs s (if c then t else u) := by
  split <;> assumption

theorem TimeStep.applyRate (h : TimeStep rs s t) (he : Reg.GT_RATE_EFF ∈ rs) (hs : Reg.GT_STATUS ∈ rs) : TimeStep rs s t.applyRate :=
  .ite ((h.wr he).wb hs) (h.wr he)

theorem TimeStep.dropCorrection (h : TimeStep rs s t) (hr : Reg.GT_SLEW_REMAIN ∈ rs) (hs : Reg.GT_STATUS ∈ rs) :
    TimeStep rs s t.dropCorrection := ((h.setGt _).wr hr).wb hs

theorem TimeStep.judgeOffset {x : Int} (h : TimeStep rs s t) (hs : Reg.GT_STATUS ∈ rs) : TimeStep rs s (t.judgeOffset x) :=
  .ite ((h.setGt _).wb hs) (.ite (((h.setGt _).wb hs).wb hs) (h.setGt _))

end

theorem TimeStep.of_storeReg {rs : List Nat} {s : State} {a : Nat} (v : Nat) (h : s.unlockedAt a = true) (ha : a ∈ rs) :
    TimeStep rs s (s.storeReg a v) := by
  obtain ⟨hkept, hframe⟩ := s.storeReg_unlocked v h
  refine ⟨?_, fun x hx => hkept x fun e => hx (List.mem_singleton.mp e ▸ ha)⟩
  generalize s.storeReg a v = t at hframe
  rw [hframe]

@[simp] theorem State.applyRate_gt (s : State) : s.applyRate.gt = s.gt := by rw [s.applyRate_eq]

/-- The adjustment asked for rests on the source, GT_RATE_SW, the rate term and what is left to slew. -/
theorem State.rateAsked_free {s : State} (h : s.gtSource = none) : s.rateAsked = toSigned 32 (s.rd Reg.GT_RATE_SW) := by
  simp [State.rateAsked, h]

theorem State.rateAsked_servo {s : State} (h : s.gtSource.isSome = true) (hs : s.gt.slew = 0) : s.rateAsked = s.gt.rho := by
  obtain ⟨src, h⟩ := Option.isSome_iff_exists.mp h
  simp [State.rateAsked, h, State.correction, hs]

/-- The source in effect rests on GT_CTRL and PAIR_CFG. -/
theorem State.gtSource_congr {s t : State} (hc : t.rd Reg.GT_CTRL = s.rd Reg.GT_CTRL) (hp : t.rd Reg.PAIR_CFG = s.rd Reg.PAIR_CFG) :
    t.gtSource = s.gtSource := by
  simp only [State.gtSource, State.rf, State.rb, hc, hp] <;> rfl

/-! ### The correction dropped -/

@[simp] theorem State.dropCorrection_gt (s : State) : s.dropCorrection.gt = { s.gt with slew := 0, slewed := 0 } := rfl

theorem State.rd_dropCorrection_slew (s : State) : s.dropCorrection.rd Reg.GT_SLEW_REMAIN = 0 := by
  rw [State.dropCorrection, State.rd_wb_ne _ _ _ (by decide), State.rd_wr_same, Nat.zero_mod]

theorem State.rb_dropCorrection_status (s : State) (i : Nat) :
    s.dropCorrection.rb Reg.GT_STATUS i = if i = 3 then false else s.rb Reg.GT_STATUS i := by
  rw [State.dropCorrection, State.rb_wb _ _ _ _ _ _ (by decide), State.rb_wr_ne _ _ _ (by decide)]
  simp only [true_and, eq_comm (a := 3)]
  rfl

theorem State.rd_dropCorrection_ne (s : State) {a : Nat} (h1 : a ≠ Reg.GT_SLEW_REMAIN) (h2 : a ≠ Reg.GT_STATUS) :
    s.dropCorrection.rd a = s.rd a := by
  rw [State.dropCorrection, State.rd_wb_ne _ _ _ h2.symm, State.rd_wr_ne _ _ h1.symm]
  rfl

/-! ### What follows from an offset -/

/-- An offset above 1 µs clears SYNC_LOCKED; a smaller one counts the good intervals, and may set SYNC_LOCKED and clear
TIME_ESTIMATED. -/
theorem State.judgeOffset_cases (s : State) (x : Int) : ∃ g, let s1 := s.setGt { s.gt with good := g }
    s.judgeOffset x = s1.wb Reg.GT_STATUS 2 false ∨
    x.natAbs ≤ 1000 ∧ (s.judgeOffset x = (s1.wb Reg.GT_STATUS 2 true).wb Reg.GT_STATUS 0 false ∨ s.judgeOffset x = s1) := by
  refine ⟨if x.natAbs ≤ 100 then min 8 (s.gt.good + 1) else 0, ?_⟩
  unfold State.judgeOffset
  dsimp only
  by_cases hx : x.natAbs > 1000
  · exact .inl (if_pos hx)
  · rw [if_neg hx]
    refine .inr ⟨Nat.le_of_not_lt hx, ?_⟩
    generalize (if x.natAbs ≤ 100 then min 8 (s.gt.good + 1) else 0) = g
    by_cases hg : g = 8
    · exact .inl (if_pos hg)
    · exact .inr (if_neg hg)

theorem State.judgeOffset_gt (s : State) (x : Int) : ∃ g, (s.judgeOffset x).gt = { s.gt with good := g } := by
  obtain ⟨g, h | ⟨-, h | h⟩⟩ := s.judgeOffset_cases x <;> exact ⟨g, congrArg State.gt h⟩

theorem State.rd_judgeOffset_ne (s : State) (x : Int) {a : Nat} (h : a ≠ Reg.GT_STATUS) : (s.judgeOffset x).rd a = s.rd a := by
  have hwb (t : State) (i : Nat) (b : Bool) : (t.wb Reg.GT_STATUS i b).rd a = t.rd a := State.rd_wb_ne _ _ _ h.symm
  obtain ⟨g, e | ⟨-, e | e⟩⟩ := s.judgeOffset_cases x <;> simp only [e, hwb] <;> rfl

/-- SYNC_LOCKED and TIME_ESTIMATED apart, the flags stay. -/
theorem State.rb_judgeOffset_status (s : State) (x : Int) {i : Nat} (h2 : i ≠ 2) (h0 : i ≠ 0) :
    (s.judgeOffset x).rb Reg.GT_STATUS i = s.rb Reg.GT_STATUS i := by
  have hwb (t : State) (j : Nat) (b : Bool) (hj : j = 2 ∨ j = 0) : (t.wb Reg.GT_STATUS j b).rb Reg.GT_STATUS i = t.rb Reg.GT_STATUS i := by
    rw [State.rb_wb _ _ _ _ _ _ (by omega), if_neg (by omega)]
  obtain ⟨g, e | ⟨-, e | e⟩⟩ := s.judgeOffset_cases x
  · rw [e, hwb _ _ _ (.inl rfl)]; rfl
  · rw [e, hwb _ _ _ (.inr rfl), hwb _ _ _ (.inl rfl)]; rfl
  · rw [e]; rfl

/-- SYNC_LOCKED clears above 1 µs (R25). -/
theorem State.rb_judgeOffset_locked (s : State) {x : Int} (h : 1000 < x.natAbs) : (s.judgeOffset x).rb Reg.GT_STATUS 2 = false := by
  obtain ⟨g, e | ⟨hle, -⟩⟩ := s.judgeOffset_cases x
  · rw [e, State.rb_wb _ _ _ _ _ _ (by decide), if_pos ⟨rfl, rfl⟩]
  · omega

/-! ### GT_CTRL, SRC_LOST and SLEW_COMPLETE (R23, R26, R593) -/

/-- The registers that a command of the servo may change beside GT_CTRL and GT_OFFSET. -/
def servoRegs : List Nat := [Reg.GT_SLEW_REMAIN, Reg.GT_STATUS, Reg.GT_RATE_EFF]

/-- A new source drops the correction and SYNC_LOCKED, may start the servo afresh, and has the adjustment worked out. -/
theorem State.writeGtCtrl_newSource (s : State) (v : Nat) (h : (s.storeReg Reg.GT_CTRL v).gtSource ≠ s.gtSource) : ∃ g : Gt,
    s.writeGtCtrl v = (((s.storeReg Reg.GT_CTRL v).dropCorrection.wb Reg.GT_STATUS 2 false).setGt g).applyRate ∧
      g.slew = 0 ∧ g.now = (s.storeReg Reg.GT_CTRL v).gt.now := by
  unfold State.writeGtCtrl
  dsimp only
  rw [if_neg h]
  split
  · exact ⟨_, rfl, rfl, rfl⟩
  · exact ⟨_, rfl, rfl, rfl⟩

/-- The state of the servo once the correction has been dropped and flags have been set. -/
theorem State.rb_dropped_wb (s : State) (i j : Nat) (b : Bool) (hi : i < 64) : (s.dropCorrection.wb Reg.GT_STATUS i b).rb Reg.GT_STATUS j =
    if i = j then b else if j = 3 then false else s.rb Reg.GT_STATUS j := by
  rw [State.rb_wb _ _ _ _ _ _ hi, State.rb_dropCorrection_status]
  simp

theorem exec_gtCtrl_newSource {s s1 : State} {who : Requester} {v : Word32} (hu : s.unlockedAt Reg.GT_CTRL = true)
    (hs1 : s1 = s.storeReg Reg.GT_CTRL v.toNat) (hne : s1.gtSource ≠ s.gtSource) : ∃ t, exec (.gtCtrl who v) s = .next t ∧
      t.rd Reg.GT_CTRL = s1.rd Reg.GT_CTRL ∧ t.rd Reg.GT_SLEW_REMAIN = 0 ∧ t.rb Reg.GT_STATUS 3 = false ∧
      t.rb Reg.GT_STATUS 2 = false ∧ t.rb Reg.GT_STATUS 4 = s.rb Reg.GT_STATUS 4 ∧ t.gt.slew = 0 ∧ t.gt.now = s.gt.now ∧
      (s1.gtSource = none → toSigned 32 (t.rd Reg.GT_RATE_EFF) = clampRate (toSigned 32 (s.rd Reg.GT_RATE_SW))) ∧
      TimeStep (Reg.GT_CTRL :: servoRegs) s t := by
  obtain ⟨g, ht, hslew, hnow⟩ := s.writeGtCtrl_newSource v.toNat (hs1 ▸ hne)
  obtain ⟨hkept, hframe⟩ := s.storeReg_unlocked v.toNat hu
  have hexec : exec (.gtCtrl who v) s = .next (s.writeGtCtrl v.toNat) := rfl
  rw [← hs1] at ht hnow hkept hframe
  have hgt : s1.gt = s.gt := by rw [hframe]
  have hstep : TimeStep (Reg.GT_CTRL :: servoRegs) s s1 := hs1 ▸ TimeStep.of_storeReg _ hu List.mem_cons_self
  have hrd {a : Nat} (h1 : a ≠ Reg.GT_SLEW_REMAIN) (h2 : a ≠ Reg.GT_STATUS) :
      ((s1.dropCorrection.wb Reg.GT_STATUS 2 false).setGt g).rd a = s1.rd a :=
    (State.rd_wb_ne _ 2 false h2.symm).trans (s1.rd_dropCorrection_ne h1 h2)
  refine ⟨_, hexec.trans (congrArg _ ht), ?_, ?_, ?_, ?_, ?_, ?_, ?_, fun hnone => ?_, ?_⟩
  · rw [State.rd_applyRate_ne _ (by decide) (by decide), hrd (by decide) (by decide)]
  · rw [State.rd_applyRate_ne _ (by decide) (by decide), State.setGt_rd, State.rd_wb_ne _ _ _ (by decide), State.rd_dropCorrection_slew]
  · simp [State.rb_applyRate_status, State.rb_dropped_wb]
  · simp [State.rb_applyRate_status, State.rb_dropped_wb]
  · have hkeep : s1.rb Reg.GT_STATUS 4 = s.rb Reg.GT_STATUS 4 := by rw [State.rb, hkept _ (by decide), State.rb]
    simp [State.rb_applyRate_status, State.rb_dropped_wb, hkeep]
  · rw [State.applyRate_gt, State.setGt_gt, hslew]
  · rw [State.applyRate_gt, State.setGt_gt, hnow, hgt]
  · have hsrc := (State.gtSource_congr (hrd (a := Reg.GT_CTRL) (by decide) (by decide)) (hrd (a := Reg.PAIR_CFG) (by decide) (by decide))).trans hnone
    rw [State.rd_applyRate_rateEff, State.rateAsked_free hsrc, hrd (by decide) (by decide), hkept _ (by decide)]
  · exact (((hstep.dropCorrection (by decide) (by decide)).wb (by decide)).setGt g).applyRate (by decide) (by decide)

/-- The loss of the source: the correction dropped, SRC_LOST set, SYNC_LOCKED clear, and the servo to start afresh with its rate term. -/
theorem State.sourceLost_eq (s : State) : s.sourceLost =
    (((s.dropCorrection.wb Reg.GT_STATUS 4 true).wb Reg.GT_STATUS 2 false).setGt
      { s.gt with slew := 0, slewed := 0, measured := 0, good := 0, lost := true }).applyRate := rfl

/-- SRC_LOST once HOLDOFF has passed: the flags and the correction drop, the rate term stays (R26). -/
theorem exec_srcLost {s : State} (hsrc : s.gtSource.isSome = true) (hh : s.holdoffMet = true) : ∃ t, exec .srcLost s = .next t ∧
    t.rb Reg.GT_STATUS 4 = true ∧ t.rb Reg.GT_STATUS 2 = false ∧ t.rb Reg.GT_STATUS 3 = false ∧
    t.rd Reg.GT_SLEW_REMAIN = 0 ∧ t.gt.slew = 0 ∧ t.gt.rho = s.gt.rho ∧ t.gt.now = s.gt.now ∧
    toSigned 32 (t.rd Reg.GT_RATE_EFF) = clampRate s.gt.rho ∧ TimeStep servoRegs s t := by
  have hexec : exec .srcLost s = execSrcLost s := rfl
  have hrun : execSrcLost s = .next s.sourceLost := if_pos ⟨hsrc, hh⟩
  have hrd {a : Nat} (h1 : a ≠ Reg.GT_SLEW_REMAIN) (h2 : a ≠ Reg.GT_STATUS) :
      ((s.dropCorrection.wb Reg.GT_STATUS 4 true).wb Reg.GT_STATUS 2 false).rd a = s.rd a := by
    rw [State.rd_wb_ne _ _ _ h2.symm, State.rd_wb_ne _ _ _ h2.symm, s.rd_dropCorrection_ne h1 h2]
  rw [State.sourceLost_eq] at hrun
  refine ⟨_, hexec.trans hrun, ?_, ?_, ?_, ?_, ?_, ?_, ?_, ?_, ?_⟩
  · simp [State.rb_applyRate_status, State.rb_wb]
  · simp [State.rb_applyRate_status, State.rb_wb]
  · simp [State.rb_applyRate_status, State.rb_wb, State.rb_dropCorrection_status]
  · rw [State.rd_applyRate_ne _ (by decide) (by decide), State.setGt_rd, State.rd_wb_ne _ _ _ (by decide), State.rd_wb_ne _ _ _ (by decide),
      State.rd_dropCorrection_slew]
  · rw [State.applyRate_gt, State.setGt_gt]
  · rw [State.applyRate_gt, State.setGt_gt]
  · rw [State.applyRate_gt, State.setGt_gt]
  · rw [State.rd_applyRate_rateEff, State.rateAsked_servo _ (by rw [State.setGt_gt]), State.setGt_gt]
    refine (congrArg Option.isSome (State.gtSource_congr ?_ ?_)).trans hsrc <;> exact hrd (by decide) (by decide)
  · exact (((((TimeStep.refl s).dropCorrection (by decide) (by decide)).wb (by decide)).wb (by decide)).setGt _).applyRate
      (by decide) (by decide)

/-- SLEW_COMPLETE with nothing left to slew clears SLEWING. -/
theorem exec_slewComplete {s : State} (hslew : s.gt.slew = 0) (hf : s.rb Reg.GT_STATUS 3 = true) : ∃ t, exec .slewComplete s = .next t ∧
    t.rb Reg.GT_STATUS 3 = false ∧ t.rd Reg.GT_SLEW_REMAIN = 0 ∧ t.gt.now = s.gt.now ∧ t.gt.rho = s.gt.rho ∧ TimeStep servoRegs s t := by
  have hexec : exec .slewComplete s = execSlewComplete s := rfl
  have hrun : execSlewComplete s = .next s.dropCorrection.applyRate := if_pos ⟨hslew, hf⟩
  refine ⟨_, hexec.trans hrun, ?_, ?_, ?_, ?_, ?_⟩
  · simp [State.rb_applyRate_status, State.rb_dropCorrection_status]
  · rw [State.rd_applyRate_ne _ (by decide) (by decide), s.rd_dropCorrection_slew]
  · rw [State.applyRate_gt, State.dropCorrection_gt]
  · rw [State.applyRate_gt, State.dropCorrection_gt]
  · exact ((TimeStep.refl s).dropCorrection (by decide) (by decide)).applyRate (by decide) (by decide)

/-- RTC_TICK counts, and refreshes the backup while GT counts. -/
theorem exec_rtcTick (s : State) : exec .rtcTick s = .next { s with gt :=
    if s.modes.refclk = true ∧ s.modes.pll = true then
      { s.gt with rtc := s.gt.rtc + 1, backup := s.gt.now, backupRtc := s.gt.rtc + 1, backupValid := true }
    else { s.gt with rtc := s.gt.rtc + 1 } } := by
  have hcounts : (s.gtCounts = true) ↔ (s.modes.refclk = true ∧ s.modes.pll = true) := by
    rw [State.gtCounts, Bool.and_eq_true]
  refine Eq.trans (b := execRtcTick s) rfl ?_
  simp only [execRtcTick, hcounts]

/-- Loss of VDD_AO restarts GT at 0 in mode OFF (R20, R49). -/
theorem exec_vddAoLoss (s : State) : ∃ t, exec .vddAoLoss s = .next t ∧ t.gt.now = 0 ∧ t.gt.backupValid = false ∧
    t.rb Reg.GT_STATUS 0 = true ∧ t.rb Reg.GT_STATUS 1 = true ∧ t.mode = modeOff ∧ t.pending = s.pending ∧ t.mem = [] := by
  obtain ⟨u, hexec, hgt, hpending, hmem⟩ : ∃ u : State,
      exec .vddAoLoss s = .next (((u.wb Reg.GT_STATUS 1 true).wb Reg.GT_STATUS 0 true).wf Reg.PVT_MODE 2 0 modeOff) ∧
        u.gt = {} ∧ u.pending = s.pending ∧ u.mem = [] := ⟨_, rfl, rfl, rfl, rfl⟩
  have hflag (i : Nat) : (((u.wb Reg.GT_STATUS 1 true).wb Reg.GT_STATUS 0 true).wf Reg.PVT_MODE 2 0 modeOff).rb Reg.GT_STATUS i =
      if i = 0 ∨ i = 1 then true else u.rb Reg.GT_STATUS i := by
    rw [State.rb, State.rd_wf_ne _ _ _ _ (by decide), ← State.rb, State.rb_wb _ _ _ _ _ _ (by decide), State.rb_wb _ _ _ _ _ _ (by decide)]
    by_cases h0 : i = 0 <;> simp [h0, eq_comm]
  refine ⟨_, hexec, ?_, ?_, ?_, ?_, ?_, hpending, hmem⟩
  · simp [hgt]
  · simp [hgt]
  · simp [hflag]
  · simp [hflag]
  · rw [State.mode, State.rf_wf_same _ _ _ _ _ (by decide) (by decide)]
    rfl

/-! ### SYNC (R24, R25, R592) -/

/-- The servo's record once a measurement has been taken. -/
def Gt.afterMeasure (g : Gt) (offset : Int) : Gt :=
  let d := drift offset g.lastOffset g.slewed ((g.now.toNat : Int) - g.lastMeasure.toNat)
  { g with rho := match g.measured with
             | 0 => g.rho
             | 1 => g.rho + d
             | _ => g.rho + d.tdiv 8
           slewed := 0, measured := min 2 (g.measured + 1), lastOffset := offset, lastMeasure := g.now, lastMessage := g.now, lost := false }

/-- GT_OFFSET holds the offset, and from the second measurement on the correction is outstanding. -/
def State.recordOffset (s : State) (offset : Int) (first : Bool) : State :=
  let s1 := s.wr Reg.GT_OFFSET (wrapTo 64 offset)
  if first then s1
  else ((s1.setGt { s1.gt with slew := offset * 2 ^ 32 }).wr Reg.GT_SLEW_REMAIN (wrapTo 64 offset)).wb Reg.GT_STATUS 3 (decide (offset ≠ 0))

theorem State.measure_eq (s : State) (offset : Int) : s.measure offset =
    (((s.setGt (s.gt.afterMeasure offset)).recordOffset offset (decide (s.gt.measured = 0))).judgeOffset offset).applyRate := by
  simp only [State.measure, State.recordOffset, decide_eq_true_eq] <;> rfl

section
variable (s : State) (offset : Int) (first : Bool)

theorem State.rd_recordOffset_offset : (s.recordOffset offset first).rd Reg.GT_OFFSET = wrapTo 64 offset := by
  have hlt : wrapTo 64 offset % 2 ^ 64 = wrapTo 64 offset := Nat.mod_eq_of_lt (wrapTo_lt 64 offset)
  unfold State.recordOffset
  dsimp only
  split
  · rw [State.rd_wr_same, hlt]
  · rw [State.rd_wb_ne _ _ _ (by decide), State.rd_wr_ne _ _ (by decide), State.setGt_rd, State.rd_wr_same, hlt]

theorem State.rd_recordOffset_slew : (s.recordOffset offset first).rd Reg.GT_SLEW_REMAIN =
    if first then s.rd Reg.GT_SLEW_REMAIN else wrapTo 64 offset := by
  unfold State.recordOffset
  dsimp only
  split
  · rw [State.rd_wr_ne _ _ (by decide)]
  · rw [State.rd_wb_ne _ _ _ (by decide), State.rd_wr_same, Nat.mod_eq_of_lt (wrapTo_lt 64 offset)]

theorem State.rb_recordOffset_slewing : (s.recordOffset offset first).rb Reg.GT_STATUS 3 =
    if first then s.rb Reg.GT_STATUS 3 else decide (offset ≠ 0) := by
  unfold State.recordOffset
  dsimp only
  split
  · rw [State.rb_wr_ne _ _ _ (by decide)]
  · rw [State.rb_wb _ _ _ _ _ _ (by decide), if_pos ⟨rfl, rfl⟩]

theorem State.recordOffset_gt : (s.recordOffset offset first).gt = if first then s.gt else { s.gt with slew := offset * 2 ^ 32 } := by
  unfold State.recordOffset
  dsimp only
  split <;> rfl

end

/-- The registers that a measurement may change. -/
def syncRegs : List Nat := Reg.GT_OFFSET :: servoRegs

theorem TimeStep.recordOffset {s t : State} {x : Int} {first : Bool} (h : TimeStep syncRegs s t) :
    TimeStep syncRegs s (t.recordOffset x first) :=
  .ite (h.wr (by decide)) ((((h.wr (by decide)).setGt _).wr (by decide)).wb (by decide))

/-- A SYNC of the source in use is a measurement by a servo that may have noted the message's interval first. -/
theorem exec_sync_source {s : State} {src : SyncSource} (offset : Word64) (interval : Word32) (h : s.gtSource = some src) :
    ∃ n, exec (.sync src offset interval) s = .next ((s.setGt { s.gt with interval := n }).measure offset.toInt) := by
  have hexec : exec (.sync src offset interval) s = execSync src offset interval s := rfl
  rw [hexec]
  unfold execSync
  rw [if_pos h]
  cases src with
  | port p => exact ⟨interval.toNat, rfl⟩
  | pair => exact ⟨s.gt.interval, rfl⟩

theorem State.measure_spec (s : State) (offset : Word64) : let t := s.measure offset.toInt
    t.rd Reg.GT_OFFSET = offset.toNat ∧
    (s.gt.measured ≠ 0 → t.rd Reg.GT_SLEW_REMAIN = offset.toNat ∧ t.rb Reg.GT_STATUS 3 = decide (offset ≠ 0) ∧
      t.gt.slew = offset.toInt * 2 ^ 32) ∧
    (s.gt.measured = 0 → t.rd Reg.GT_SLEW_REMAIN = s.rd Reg.GT_SLEW_REMAIN ∧ t.rb Reg.GT_STATUS 3 = s.rb Reg.GT_STATUS 3 ∧
      t.gt.slew = s.gt.slew) ∧
    (1000 < offset.toInt.natAbs → t.rb Reg.GT_STATUS 2 = false) ∧
    t.gt.rho = (s.gt.afterMeasure offset.toInt).rho ∧ t.gt.lastMessage = s.gt.now ∧ t.gt.now = s.gt.now ∧ TimeStep syncRegs s t := by
  intro t
  have ht : t = (((s.setGt (s.gt.afterMeasure offset.toInt)).recordOffset offset.toInt (decide (s.gt.measured = 0))).judgeOffset
      offset.toInt).applyRate := s.measure_eq _
  generalize hu : (s.setGt (s.gt.afterMeasure offset.toInt)).recordOffset offset.toInt (decide (s.gt.measured = 0)) = u at ht
  have hrd {a : Nat} (h1 : a ≠ Reg.GT_RATE_EFF) (h2 : a ≠ Reg.GT_STATUS) : t.rd a = u.rd a := by
    rw [ht, State.rd_applyRate_ne _ h1 h2, State.rd_judgeOffset_ne _ _ h2]
  have hgt : ∃ g, t.gt = { u.gt with good := g } := by
    rw [ht, State.applyRate_gt]
    exact u.judgeOffset_gt _
  have hslewing : t.rb Reg.GT_STATUS 3 = u.rb Reg.GT_STATUS 3 := by
    rw [ht, State.rb_applyRate_status, if_neg (by simp), State.rb_judgeOffset_status _ _ (by decide) (by decide)]
  have hzero : decide (offset.toInt ≠ 0) = decide (offset ≠ 0) := 
    decide_eq_decide.mpr (not_congr (by rw [← BitVec.toInt_inj]; rfl))
  obtain ⟨g, hgt⟩ := hgt
  have hugt : u.gt = if s.gt.measured = 0 then s.gt.afterMeasure offset.toInt
      else { s.gt.afterMeasure offset.toInt with slew := offset.toInt * 2 ^ 32 } := by
    rw [← hu, State.recordOffset_gt]
    simp
  have hu_slew := congrArg (·.rd Reg.GT_SLEW_REMAIN) hu
  have hu_flag := congrArg (·.rb Reg.GT_STATUS 3) hu
  simp only [State.rd_recordOffset_slew, State.rb_recordOffset_slewing, State.setGt_rd, State.setGt_rb, wrapTo_toInt, hzero,
    decide_eq_true_eq] at hu_slew hu_flag
  refine ⟨?_, fun hm => ⟨?_, ?_, ?_⟩, fun hm => ⟨?_, ?_, ?_⟩, fun hx => ?_, ?_, ?_, ?_, ?_⟩
  · rw [hrd (by decide) (by decide), ← hu, State.rd_recordOffset_offset, wrapTo_toInt]
  · rw [hrd (by decide) (by decide), ← hu_slew, if_neg hm]
  · rw [hslewing, ← hu_flag, if_neg hm]
  · rw [hgt, hugt, if_neg hm]
  · rw [hrd (by decide) (by decide), ← hu_slew, if_pos hm]
  · rw [hslewing, ← hu_flag, if_pos hm]
  · rw [hgt, hugt, if_pos hm, Gt.afterMeasure]
  · rw [ht, State.rb_applyRate_status, if_neg (by simp), State.rb_judgeOffset_locked _ hx]
  · rw [hgt, hugt]
    split <;> rfl
  · rw [hgt, hugt]
    split <;> rfl
  · rw [hgt, hugt]
    split <;> rfl
  · rw [ht, ← hu]
    exact (((TimeStep.refl s).setGt _).recordOffset.judgeOffset (by decide)).applyRate (by decide) (by decide)

/-- Settles O3, command by command. -/
theorem globalTimeCommands : Obligations.Global_time_commands := by
  unfold Obligations.Global_time_commands
  refine ⟨fun s who v hu => ⟨fun h => ?_, fun h => ?_⟩, fun s hsrc hh => ?_, fun s hslew hf => ?_, exec_rtcTick, exec_vddAoLoss,
    fun s src offset interval => ⟨fun h => ?_, fun h => ?_⟩⟩
  · have hexec : exec (.gtCtrl who v) s = .next (s.writeGtCtrl v.toNat) := rfl
    rw [hexec, State.writeGtCtrl]
    exact congrArg _ (if_pos h)
  · obtain ⟨t, hexec, hctrl, hremain, hslewing, hlocked, hlost, hslew, hnow, hrate, hstep⟩ := exec_gtCtrl_newSource (who := who) hu rfl h
    exact ⟨t, hexec, hctrl, hremain, hslewing, hlocked, hlost, hslew, hnow, hrate, hstep.frame, hstep.kept⟩
  · obtain ⟨t, hexec, hlost, hlocked, hslewing, hremain, hslew, hrho, hnow, hrate, hstep⟩ := exec_srcLost hsrc hh
    exact ⟨t, hexec, hlost, hlocked, hslewing, hremain, hslew, hrho, hnow, hrate, hstep.frame, hstep.kept⟩
  · obtain ⟨t, hexec, hslewing, hremain, hnow, hrho, hstep⟩ := exec_slewComplete hslew hf
    exact ⟨t, hexec, hslewing, hremain, hnow, hrho, hstep.frame, hstep.kept⟩
  · exact if_neg h
  · obtain ⟨n, hexec⟩ := exec_sync_source offset interval h
    obtain ⟨hoffset, hlater, hfirst, hlocked, hrho, hmessage, hnow, hstep⟩ :=
      (s.setGt { s.gt with interval := n }).measure_spec offset
    have hall : TimeStep syncRegs s ((s.setGt { s.gt with interval := n }).measure offset.toInt) := ⟨hstep.frame, hstep.kept⟩
    exact ⟨_, hexec, hoffset, hlater, hfirst, hlocked, hrho, hmessage, hnow, hall.frame, hall.kept⟩

end Sys2Proof.Machine
end

section
/-!
PROOF. The phase bases (O4 to O7): what a base's value rests on, what a rate update, a move and a crossing leave of it and of its
registers, and from these the commands of the four sources.
-/
namespace Sys2Proof.Machine

/-! ### Bits and fields beside the one written -/

theorem State.rf_wb_out (s : State) {a i hi lo : Nat} (v : Bool) (hi64 : i < 64) (h : i < lo ∨ hi < i) (hl : lo ≤ hi) :
    (s.wb a i v).rf a hi lo = s.rf a hi lo := by
  rw [State.rf, State.rd_wb_same s a i v hi64, fld_putFld_ne _ _ _ _ _ _ (Nat.le_refl i) (by omega) hl, State.rf]

theorem State.rb_wf_out (s : State) {a hi lo i : Nat} (v : Nat) (hl : lo ≤ hi) (hi64 : hi < 64) (h : i < lo ∨ hi < i) :
    (s.wf a hi lo v).rb a i = s.rb a i := by
  rw [State.rb, State.rd_wf_same s a hi lo v hl hi64, testBit_putFld _ _ _ _ _ hl, if_neg (by omega), State.rb]

theorem State.rf_congr {s t : State} {a : Nat} (h : t.rd a = s.rd a) (hi lo : Nat) : t.rf a hi lo = s.rf a hi lo := by
  rw [State.rf, h, State.rf]

theorem State.rb_of_rd {s t : State} {a : Nat} (h : t.rd a = s.rd a) (i : Nat) : t.rb a i = s.rb a i := by
  rw [State.rb, h, State.rb]

theorem agendaInsert_self (due : Nat) (a : Act) (l : List (Nat × Act)) : (due, a) ∈ agendaInsert due a l := by
  induction l with
  | nil => exact List.mem_singleton.mpr rfl
  | cons x l ih =>
    unfold agendaInsert
    split
    · exact List.mem_cons_self
    · exact List.mem_cons_of_mem _ ih

theorem State.mem_agenda_send (s : State) (ns : Nat) (i : Instr) : (s.clk + ns, Act.cmd i) ∈ (s.send ns i).agenda :=
  agendaInsert_self _ _ _

theorem wrapTo_mod (v : Nat) (w : Nat) : wrapTo w v % 2 ^ w = wrapTo w v := Nat.mod_eq_of_lt (wrapTo_lt w v)

theorem finOfNat_val {n : Nat} [NeZero n] (b : Fin n) : Fin.ofNat n b.val = b := Fin.ofNat_val_eq_self b

/-! ### The addresses of a base's registers -/

section
variable (b : Nat)

theorem Reg.phb_status_ne_ctrl : Reg.PHB_STATUS b ≠ Reg.PHB_CTRL b := by simp only [Reg.PHB_STATUS, Reg.PHB_CTRL]; omega
theorem Reg.phb_status_ne_rate : Reg.PHB_STATUS b ≠ Reg.PHB_RATE b := by simp only [Reg.PHB_STATUS, Reg.PHB_RATE]; omega
theorem Reg.phb_status_ne_rateGt : Reg.PHB_STATUS b ≠ Reg.PHB_RATE_GT b := by simp only [Reg.PHB_STATUS, Reg.PHB_RATE_GT]; omega
theorem Reg.phb_status_ne_ratio : Reg.PHB_STATUS b ≠ Reg.PHB_TIME_RATIO b := by simp only [Reg.PHB_STATUS, Reg.PHB_TIME_RATIO]; omega
theorem Reg.phb_status_ne_lastUpd : Reg.PHB_STATUS b ≠ Reg.PHB_LAST_UPD_GT b := by simp only [Reg.PHB_STATUS, Reg.PHB_LAST_UPD_GT]; omega
theorem Reg.phb_rate_ne_rateGt : Reg.PHB_RATE b ≠ Reg.PHB_RATE_GT b := by simp only [Reg.PHB_RATE, Reg.PHB_RATE_GT]; omega
theorem Reg.phb_rate_ne_ctrl : Reg.PHB_RATE b ≠ Reg.PHB_CTRL b := by simp only [Reg.PHB_RATE, Reg.PHB_CTRL]; omega
theorem Reg.phb_rate_ne_ratio : Reg.PHB_RATE b ≠ Reg.PHB_TIME_RATIO b := by simp only [Reg.PHB_RATE, Reg.PHB_TIME_RATIO]; omega
theorem Reg.phb_rate_ne_lastUpd : Reg.PHB_RATE b ≠ Reg.PHB_LAST_UPD_GT b := by simp only [Reg.PHB_RATE, Reg.PHB_LAST_UPD_GT]; omega
theorem Reg.phb_rateGt_ne_ctrl : Reg.PHB_RATE_GT b ≠ Reg.PHB_CTRL b := by simp only [Reg.PHB_RATE_GT, Reg.PHB_CTRL]; omega
theorem Reg.phb_rateGt_ne_ratio : Reg.PHB_RATE_GT b ≠ Reg.PHB_TIME_RATIO b := by simp only [Reg.PHB_RATE_GT, Reg.PHB_TIME_RATIO]; omega
theorem Reg.phb_rateGt_ne_lastUpd : Reg.PHB_RATE_GT b ≠ Reg.PHB_LAST_UPD_GT b := by simp only [Reg.PHB_RATE_GT, Reg.PHB_LAST_UPD_GT]; omega
theorem Reg.phb_lastUpd_ne_ctrl : Reg.PHB_LAST_UPD_GT b ≠ Reg.PHB_CTRL b := by simp only [Reg.PHB_LAST_UPD_GT, Reg.PHB_CTRL]; omega
theorem Reg.phb_lastUpd_ne_ratio : Reg.PHB_LAST_UPD_GT b ≠ Reg.PHB_TIME_RATIO b := by simp only [Reg.PHB_LAST_UPD_GT, Reg.PHB_TIME_RATIO]; omega
theorem Reg.phb_ratio_ne_ctrl : Reg.PHB_TIME_RATIO b ≠ Reg.PHB_CTRL b := by simp only [Reg.PHB_TIME_RATIO, Reg.PHB_CTRL]; omega

end

/-! ### Changes of one base -/

/-- `t` is `s` but for base b, the agenda and the registers listed. -/
structure BaseStep (b : Nat) (rs : List Nat) (s t : State) : Prop where
  frame : t = { s with regs := t.regs, bases := t.bases, agenda := t.agenda }
  others : ∀ k, k ≠ b → t.base k = s.base k
  kept : s.regsKept t rs

/-- In `t` base b counts, or not, under the same source as in `s`, and is HELD where it was. -/
structure SameRun (b : Nat) (s t : State) : Prop where
  on : t.baseOn b = s.baseOn b
  src : t.baseSrc b = s.baseSrc b
  held : t.rb (Reg.PHB_STATUS b) 3 = s.rb (Reg.PHB_STATUS b) 3
  ratio : t.rd (Reg.PHB_TIME_RATIO b) = s.rd (Reg.PHB_TIME_RATIO b)

section
variable {b : Nat} {rs : List Nat} {s t u : State}

theorem BaseStep.refl (s : State) : BaseStep b rs s s := ⟨rfl, fun _ _ => rfl, fun _ _ => rfl⟩

theorem BaseStep.wr {a v : Nat} (h : BaseStep b rs s t) (ha : a ∈ rs) : BaseStep b rs s (t.wr a v) :=
  ⟨congrArg (·.wr a v) h.frame, h.others, h.kept.wr ha⟩

theorem BaseStep.wb {a i : Nat} {v : Bool} (h : BaseStep b rs s t) (ha : a ∈ rs) : BaseStep b rs s (t.wb a i v) := h.wr ha

theorem BaseStep.wf {a hi lo v : Nat} (h : BaseStep b rs s t) (ha : a ∈ rs) : BaseStep b rs s (t.wf a hi lo v) := h.wr ha

theorem BaseStep.clk (h : BaseStep b rs s t) : t.clk = s.clk := by rw [h.frame]

theorem BaseStep.gt (h : BaseStep b rs s t) : t.gt = s.gt := by rw [h.frame]

theorem BaseStep.send {ns : Nat} {i : Instr} (h : BaseStep b rs s t) : BaseStep b rs s (t.send ns i) := by
  refine ⟨(congrArg (·.send ns i) h.frame).trans ?_, h.others, h.kept⟩
  simp only [State.send, State.after, h.clk]

theorem BaseStep.setBase {x : Base} (h : BaseStep b rs s t) : BaseStep b rs s (t.setBase b x) :=
  ⟨congrArg (·.setBase b x) h.frame, fun k hk => (State.setBase_base_ne _ _ _ _ hk.symm).trans (h.others k hk), h.kept⟩

theorem BaseStep.ite {c : Prop} [Decidable c] (h : BaseStep b rs s t) (k : BaseStep b rs s u) : BaseStep b rs s (if c then t else u) := by
  split <;> assumption

theorem BaseStep.trans (h : BaseStep b rs s t) (k : BaseStep b rs t u) : BaseStep b rs s u := by
  refine ⟨?_, fun n hn => (k.others n hn).trans (h.others n hn), h.kept.trans k.kept⟩
  have hk := k.frame
  generalize u.regs = r, u.bases = x, u.agenda = l at hk ⊢
  rw [hk, h.frame]

theorem BaseStep.of_storeReg {a : Nat} (v : Nat) (h : s.unlockedAt a = true) (ha : a ∈ rs) : BaseStep b rs s (s.storeReg a v) := by
  obtain ⟨hkept, hframe⟩ := s.storeReg_unlocked v h
  refine ⟨?_, fun k _ => ?_, fun x hx => hkept x fun e => hx (List.mem_singleton.mp e ▸ ha)⟩
  · generalize s.storeReg a v = t at hframe
    rw [hframe]
  · generalize s.storeReg a v = t at hframe
    rw [hframe]
    rfl

theorem SameRun.refl (s : State) : SameRun b s s := ⟨rfl, rfl, rfl, rfl⟩

theorem SameRun.trans (h : SameRun b s t) (k : SameRun b t u) : SameRun b s u :=
  ⟨k.on.trans h.on, k.src.trans h.src, k.held.trans h.held, k.ratio.trans h.ratio⟩

/-- A state with the same three registers runs its base alike. -/
theorem SameRun.of_rd (hc : t.rd (Reg.PHB_CTRL b) = s.rd (Reg.PHB_CTRL b)) (hs : t.rd (Reg.PHB_STATUS b) = s.rd (Reg.PHB_STATUS b))
    (hr : t.rd (Reg.PHB_TIME_RATIO b) = s.rd (Reg.PHB_TIME_RATIO b)) : SameRun b s t :=
  ⟨State.rb_of_rd hc 0, State.rf_congr hs 11 10, State.rb_of_rd hs 3, hr⟩

theorem SameRun.wr {a v : Nat} (h : SameRun b s t) (hc : a ≠ Reg.PHB_CTRL b) (hs : a ≠ Reg.PHB_STATUS b) (hr : a ≠ Reg.PHB_TIME_RATIO b) :
    SameRun b s (t.wr a v) :=
  h.trans (.of_rd (State.rd_wr_ne t v hc) (State.rd_wr_ne t v hs) (State.rd_wr_ne t v hr))

/-- The flags of PHB_STATUS but HELD and SRC_EFF. -/
theorem SameRun.wb_status {i : Nat} {v : Bool} (h : SameRun b s t) (h3 : i ≠ 3) (hi : i < 10) : SameRun b s (t.wb (Reg.PHB_STATUS b) i v) := by
  refine h.trans ⟨?_, ?_, ?_, ?_⟩
  · exact State.rb_of_rd (State.rd_wb_ne t i v (Reg.phb_status_ne_ctrl b)) 0
  · exact State.rf_wb_out t v (by omega) (.inl hi) (by decide)
  · rw [State.rb_wb _ _ _ _ _ _ (by omega), if_neg (by omega)]
  · exact State.rd_wb_ne t i v (Reg.phb_status_ne_ratio b)

theorem SameRun.setBase {x : Base} (h : SameRun b s t) : SameRun b s (t.setBase b x) := h.trans ⟨rfl, rfl, rfl, rfl⟩

theorem SameRun.send {ns : Nat} {i : Instr} (h : SameRun b s t) : SameRun b s (t.send ns i) := h.trans ⟨rfl, rfl, rfl, rfl⟩

theorem SameRun.ite {c : Prop} [Decidable c] (h : SameRun b s t) (k : SameRun b s u) : SameRun b s (if c then t else u) := by
  split <;> assumption

end

/-! ### What a base's value rests on (R33) -/

theorem wrapTo_div_mod (q : Int) : wrapTo 48 (q % 2 ^ 80 / 2 ^ 32) = wrapTo 48 (q / 2 ^ 32) := by
  simp only [wrapTo]
  congr 1
  omega

theorem State.runsOn_iff (s : State) (b src : Nat) : s.runsOn b src = true ↔ s.baseOn b = true ∧ s.baseSrc b = src := by
  simp [State.runsOn]

section
variable {s t : State} {b : Nat}

theorem State.baseValue_of_at {q : Int} (h : s.baseAt b s.now = q) : s.baseValue b = wrapTo 48 (q / 2 ^ 32) := by rw [State.baseValue, h]

@[simp] theorem State.baseValue_send (ns : Nat) (i : Instr) : (s.send ns i).baseValue b = s.baseValue b := rfl

/-- A base that is off, held, or of an encoder stands at its anchor. -/
theorem State.baseAt_stands (gt : Nat) (h : s.baseOn b = false ∨ (s.baseSrc b ≠ srcTime ∧ (s.baseSrc b = srcEncoder ∨ s.rb (Reg.PHB_STATUS b) 3 = true))) :
    s.baseAt b gt = (s.base b).anchor := by
  have hline : s.baseLine b = ((s.base b).anchor, 0, 0) := by
    unfold State.baseLine
    rcases h with h | ⟨hsrc, h⟩
    · simp [h]
    · by_cases hon : s.baseOn b = true <;> simp [hon, hsrc, h]
  simp [State.baseAt, hline, lineAt]

/-- A base that runs moves from its anchor at its rate. -/
theorem State.baseAt_moves (gt : Nat) (hon : s.baseOn b = true) (ht : s.baseSrc b ≠ srcTime) (he : s.baseSrc b ≠ srcEncoder)
    (hh : s.rb (Reg.PHB_STATUS b) 3 = false) : s.baseAt b gt = (s.base b).anchor + (s.base b).rate * ((gt : Int) - (s.base b).anchorGt.toNat) := by
  simp [State.baseAt, State.baseLine, lineAt, hon, ht, he, hh]

/-- A base that stands at its anchor, or was re-anchored at the present GT, has the anchor's value. -/
theorem State.baseValue_anchored (ht : s.baseOn b = true → s.baseSrc b ≠ srcTime) (ha : (s.base b).anchorGt = s.gt.now) :
    s.baseValue b = wrapTo 48 ((s.base b).anchor / 2 ^ 32) := by
  have hat : s.baseAt b s.now = (s.base b).anchor := by
    by_cases hon : s.baseOn b = true
    · by_cases h : s.baseSrc b = srcEncoder ∨ s.rb (Reg.PHB_STATUS b) 3 = true
      · exact State.baseAt_stands _ (.inr ⟨ht hon, h⟩)
      · obtain ⟨he, hh⟩ := not_or.mp h
        rw [State.baseAt_moves _ hon (ht hon) he (by simpa using hh), ha, State.now]
        ring
    · exact State.baseAt_stands _ (.inl (by simpa using hon))
  rw [State.baseValue, hat]

/-- Two states in which a base runs alike from the same anchor give it the same value. -/
theorem SameRun.baseAt (h : SameRun b s t) (hx : (t.base b).anchor = (s.base b).anchor) (hg : (t.base b).anchorGt = (s.base b).anchorGt)
    (hr : (t.base b).rate = (s.base b).rate) (he : (t.base b).enGt = (s.base b).enGt) (gt : Nat) : t.baseAt b gt = s.baseAt b gt := by
  simp only [State.baseAt, State.baseLine, h.on, h.src, h.held, h.ratio, hx, hg, hr, he]

theorem SameRun.baseValue (h : SameRun b s t) (hx : (t.base b).anchor = (s.base b).anchor) (hg : (t.base b).anchorGt = (s.base b).anchorGt)
    (hr : (t.base b).rate = (s.base b).rate) (he : (t.base b).enGt = (s.base b).enGt) (hnow : t.gt = s.gt) : t.baseValue b = s.baseValue b := by
  simp only [State.baseValue, h.baseAt hx hg hr he, State.now, hnow]

end

/-! ### A rate update (R44, R57, R58) -/

section
variable (s : State) (b : Nat) (rate : Int) (gt : Nat)

/-- The base that a rate update leaves: at its present value from now on, unless it follows GT or is HELD. -/
def State.anchored (s : State) (b : Nat) : Base :=
  if s.baseSrc b = srcTime ∨ s.rb (Reg.PHB_STATUS b) 3 = true then s.base b
  else { s.base b with anchor := s.baseAt b s.now % 2 ^ 80, anchorGt := s.gt.now }

theorem State.setRate_eq : s.setRate b rate gt =
    ((((s.setBase b { s.anchored b with rate := rate }).wr (Reg.PHB_RATE b) (wrapTo 64 rate)).wr (Reg.PHB_RATE_GT b) gt).wb
      (Reg.PHB_STATUS b) 1 (decide (rate = 0))).send 1024 (.projectionRecompute (Fin.ofNat 16 b)) := rfl

@[simp] theorem State.setRate_gt : (s.setRate b rate gt).gt = s.gt := rfl
@[simp] theorem State.setRate_now : (s.setRate b rate gt).now = s.now := rfl

theorem State.setRate_base : (s.setRate b rate gt).base b = { s.anchored b with rate := rate } := by
  rw [State.setRate_eq]
  simp

theorem State.rd_setRate_rate : (s.setRate b rate gt).rd (Reg.PHB_RATE b) = wrapTo 64 rate := by
  rw [State.setRate_eq, State.send_rd, State.rd_wb_ne _ _ _ (Reg.phb_status_ne_rate b), State.rd_wr_ne _ _ (Reg.phb_rate_ne_rateGt b).symm,
    State.rd_wr_same, Nat.mod_eq_of_lt (wrapTo_lt 64 rate)]

theorem State.rd_setRate_rateGt : (s.setRate b rate gt).rd (Reg.PHB_RATE_GT b) = gt % 2 ^ 64 := by
  rw [State.setRate_eq, State.send_rd, State.rd_wb_ne _ _ _ (Reg.phb_status_ne_rateGt b), State.rd_wr_same]

/-- STOPPED shows a zero rate; every other flag stays. -/
theorem State.rb_setRate_status (i : Nat) : (s.setRate b rate gt).rb (Reg.PHB_STATUS b) i =
    if i = 1 then decide (rate = 0) else s.rb (Reg.PHB_STATUS b) i := by
  rw [State.setRate_eq, State.rb, State.send_rd, ← State.rb, State.rb_wb _ _ _ _ _ _ (by decide),
    State.rb_wr_ne _ _ _ (Reg.phb_status_ne_rateGt b).symm, State.rb_wr_ne _ _ _ (Reg.phb_status_ne_rate b).symm]
  simp only [true_and, eq_comm (a := 1)]
  rfl

variable {s b} in
theorem BaseStep.setRate {rs : List Nat} {t : State} (h : BaseStep b rs s t) (hs : Reg.PHB_STATUS b ∈ rs) (hr : Reg.PHB_RATE b ∈ rs)
    (hg : Reg.PHB_RATE_GT b ∈ rs) : BaseStep b rs s (t.setRate b rate gt) :=
  (((h.setBase.wr hr).wr hg).wb hs).send

variable {s b} in
theorem SameRun.setRate {t : State} (h : SameRun b s t) : SameRun b s (t.setRate b rate gt) :=
  ((((h.setBase).wr (Reg.phb_rate_ne_ctrl b) (Reg.phb_status_ne_rate b).symm (Reg.phb_rate_ne_ratio b)).wr
    (Reg.phb_rateGt_ne_ctrl b) (Reg.phb_status_ne_rateGt b).symm (Reg.phb_rateGt_ne_ratio b)).wb_status (by decide) (by decide)).send

variable {s b} in
/-- A rate update does not move a base. -/
theorem State.baseValue_setRate (ht : s.baseSrc b ≠ srcTime) : (s.setRate b rate gt).baseValue b = s.baseValue b := by
  have hrun : SameRun b s (s.setRate b rate gt) := (SameRun.refl s).setRate rate gt
  by_cases hh : s.rb (Reg.PHB_STATUS b) 3 = true
  · have hbase : (s.setRate b rate gt).base b = { s.base b with rate := rate } := by
      rw [State.setRate_base, State.anchored, if_pos (.inr hh)]
    have hat : (s.setRate b rate gt).baseAt b (s.setRate b rate gt).now = s.baseAt b s.now := by
      rw [State.baseAt_stands _ (.inr ⟨hrun.src ▸ ht, .inr (hrun.held.trans hh)⟩), State.baseAt_stands _ (.inr ⟨ht, .inr hh⟩), hbase]
    rw [State.baseValue_of_at hat, State.baseValue]
  · have hbase : (s.setRate b rate gt).base b = { s.base b with anchor := s.baseAt b s.now % 2 ^ 80, anchorGt := s.gt.now, rate := rate } := by
      rw [State.setRate_base, State.anchored, if_neg (by simp [ht, hh])]
    rw [State.baseValue_anchored (fun _ => hrun.src ▸ ht) (by rw [hbase]; rfl), hbase, wrapTo_div_mod]
    rfl

end

/-! ### PHB_CTRL and PHB_PRESET (R34, R55, R57) -/

/-- The registers that show a base's state. -/
def phbShown (b : Nat) : List Nat := [Reg.PHB_STATUS b, Reg.PHB_RATE b, Reg.PHB_RATE_GT b]

theorem phb_status_mem (b : Nat) : Reg.PHB_STATUS b ∈ phbShown b := List.mem_cons_self
theorem phb_rate_mem (b : Nat) : Reg.PHB_RATE b ∈ phbShown b := List.mem_cons_of_mem _ List.mem_cons_self
theorem phb_rateGt_mem (b : Nat) : Reg.PHB_RATE_GT b ∈ phbShown b := List.mem_cons_of_mem _ (List.mem_cons_of_mem _ List.mem_cons_self)

theorem BaseStep.rate {b : Nat} {s t : State} {rate : Int} {gt : Nat} (h : BaseStep b (phbShown b) s t) :
    BaseStep b (phbShown b) s (t.setRate b rate gt) := h.setRate rate gt (phb_status_mem b) (phb_rate_mem b) (phb_rateGt_mem b)

theorem BaseStep.flag {b i : Nat} {s t : State} {v : Bool} (h : BaseStep b (phbShown b) s t) :
    BaseStep b (phbShown b) s (t.wb (Reg.PHB_STATUS b) i v) := h.wb (phb_status_mem b)

theorem BaseStep.weaken {b : Nat} {rs qs : List Nat} {s t : State} (h : BaseStep b rs s t) (hsub : ∀ a ∈ rs, a ∈ qs) : BaseStep b qs s t :=
  ⟨h.frame, h.others, fun a ha => h.kept a fun hr => ha (hsub a hr)⟩

/-- A base that is off stands at its anchor. -/
theorem State.baseValue_off {s : State} {b : Nat} (h : s.baseOn b = false) : s.baseValue b = wrapTo 48 ((s.base b).anchor / 2 ^ 32) := by
  rw [State.baseValue, State.baseAt_stands _ (.inl h)]

section
variable (s : State) (b : Nat)

/-- The base that a start leaves: at its value, with nothing measured yet. -/
def State.started : Base :=
  { anchor := (s.base b).anchor, anchorGt := s.gt.now, enGt := s.gt.now, winStart := s.gt.now, winLen := s.rateWin b * 1000
    levelA := (s.base b).levelA, levelB := (s.base b).levelB }

/-- The state in which a start has put the source into effect. -/
def State.sourced : State := (s.wf (Reg.PHB_STATUS b) 11 10 (s.rf (Reg.PHB_CTRL b) 2 1)).setBase b (s.started b)

/-- A start puts the source into effect and sets the rate: the ratio of a TIME base, else zero, from which an instant of the source counts. -/
theorem State.startBase_cases :
    (s.rf (Reg.PHB_CTRL b) 2 1 = srcTime ∧ s.startBase b =
      ((s.sourced b).setBase b { s.started b with anchor := (s.base b).anchor / 2 ^ 32 * 2 ^ 32 }).setRate b (s.rd (Reg.PHB_TIME_RATIO b)) s.now) ∨
    (s.rf (Reg.PHB_CTRL b) 2 1 ≠ srcTime ∧ (s.startBase b = (s.sourced b).setRate b 0 s.now ∨
      ∃ ns i, s.startBase b = ((s.sourced b).setRate b 0 s.now).send ns i)) := by
  unfold State.startBase
  dsimp only
  split
  · next h => exact .inl ⟨h, rfl⟩
  · next h =>
    refine .inr ⟨h, ?_⟩
    split
    · exact .inr ⟨_, _, rfl⟩
    · split
      · exact .inr ⟨_, _, rfl⟩
      · exact .inl rfl

theorem State.sourced_step : BaseStep b (phbShown b) s (s.sourced b) := ((BaseStep.refl s).wf (phb_status_mem b)).setBase

theorem State.startBase_step : BaseStep b (phbShown b) s (s.startBase b) := by
  rcases s.startBase_cases b with ⟨-, h⟩ | ⟨-, h | ⟨ns, i, h⟩⟩ <;> rw [h]
  · exact (s.sourced_step b).setBase.rate
  · exact (s.sourced_step b).rate
  · exact (s.sourced_step b).rate.send

/-- SRC is put into effect. -/
theorem State.sourced_src : (s.sourced b).baseSrc b = s.rf (Reg.PHB_CTRL b) 2 1 := by
  have hlt : s.rf (Reg.PHB_CTRL b) 2 1 < 2 ^ 2 := Nat.mod_lt _ (by decide)
  exact (State.rf_wf_same s _ 11 10 _ (by decide) (by decide)).trans (Nat.mod_eq_of_lt hlt)

theorem State.startBase_src : (s.startBase b).baseSrc b = s.rf (Reg.PHB_CTRL b) 2 1 := by
  rw [← s.sourced_src b]
  rcases s.startBase_cases b with ⟨-, h⟩ | ⟨-, h | ⟨ns, i, h⟩⟩ <;> rw [h]
  · exact ((SameRun.refl (b := b) (s.sourced b)).setBase.setRate _ _).src
  · exact ((SameRun.refl (b := b) (s.sourced b)).setRate _ _).src
  · exact ((SameRun.refl (b := b) (s.sourced b)).setRate _ _).send.src

variable {s b} in
/-- A start keeps the base's value. -/
theorem State.startBase_value (hon : s.baseOn b = true) : (s.startBase b).baseValue b = wrapTo 48 ((s.base b).anchor / 2 ^ 32) := by
  have hsourced : (s.sourced b).base b = s.started b := State.setBase_base_same ..
  have hnow : (s.sourced b).gt.now = s.gt.now := rfl
  rcases s.startBase_cases b with ⟨hsrc, h⟩ | ⟨hsrc, h⟩
  · generalize hu : (s.sourced b).setBase b { s.started b with anchor := (s.base b).anchor / 2 ^ 32 * 2 ^ 32 } = u at h
    have hrun : SameRun b (s.sourced b) u := hu ▸ (SameRun.refl _).setBase
    have husrc : u.baseSrc b = srcTime := by rw [hrun.src, s.sourced_src, hsrc]
    have hctrl : (s.sourced b).rd (Reg.PHB_CTRL b) = s.rd (Reg.PHB_CTRL b) := State.rd_wf_ne s 11 10 _ (Reg.phb_status_ne_ctrl b)
    have huon : u.baseOn b = true := (hrun.on.trans (State.rb_of_rd hctrl 0)).trans hon
    have hubase : u.base b = { s.started b with anchor := (s.base b).anchor / 2 ^ 32 * 2 ^ 32 } := by
      rw [← hu]
      exact State.setBase_base_same ..
    have hugt : u.gt = s.gt := by rw [← hu]; rfl
    have hrun' : SameRun b u (u.setRate b (s.rd (Reg.PHB_TIME_RATIO b)) s.now) := (SameRun.refl u).setRate _ _
    have hbase : (u.setRate b (s.rd (Reg.PHB_TIME_RATIO b)) s.now).base b =
        { s.started b with anchor := (s.base b).anchor / 2 ^ 32 * 2 ^ 32, rate := s.rd (Reg.PHB_TIME_RATIO b) } := by
      rw [State.setRate_base, State.anchored, if_pos (.inl husrc), hubase]
    have hat : (u.setRate b (s.rd (Reg.PHB_TIME_RATIO b)) s.now).baseAt b (u.setRate b (s.rd (Reg.PHB_TIME_RATIO b)) s.now).now = (s.base b).anchor / 2 ^ 32 * 2 ^ 32 := by
      simp only [State.setRate_now, State.baseAt, State.baseLine, hrun'.on, hrun'.src, huon, husrc, hbase]
      simp [lineAt, State.started, State.now, hugt]
    rw [h, State.baseValue_of_at hat]
    simp
  · have hkeep : ((s.sourced b).setRate b 0 s.now).baseValue b = wrapTo 48 ((s.base b).anchor / 2 ^ 32) := by
      rw [State.baseValue_setRate _ _ (by rwa [s.sourced_src]),
        State.baseValue_anchored (fun _ => by rwa [s.sourced_src]) (by rw [hsourced, hnow]; rfl), hsourced]
      rfl
    rcases h with h | ⟨ns, i, h⟩
    · rw [h, hkeep]
    · rw [h, State.baseValue_send, hkeep]

/-! ### The end of a base's run (R34) -/

variable (v : Int)

theorem State.endBase_eq : s.endBase b v =
    (((((((s.setBase b { s.base b with anchor := v % 2 ^ 80, anchorGt := s.gt.now, rate := 0, heldPath := none }).wr (Reg.PHB_RATE b) 0).wr
      (Reg.PHB_RATE_GT b) s.now).wb (Reg.PHB_STATUS b) 1 true).wb (Reg.PHB_STATUS b) 2 false).wb (Reg.PHB_STATUS b) 3 false).wb
      (Reg.PHB_STATUS b) 0 false).send 1024 (.projectionRecompute (Fin.ofNat 16 b)) := rfl

theorem State.endBase_step : BaseStep b (phbShown b) s (s.endBase b v) :=
  ((((((BaseStep.refl s).setBase.wr (phb_rate_mem b)).wr (phb_rateGt_mem b)).flag).flag).flag).flag.send

theorem State.rd_endBase_rate : (s.endBase b v).rd (Reg.PHB_RATE b) = 0 := by
  have hs := Reg.phb_status_ne_rate b
  rw [State.endBase_eq, State.send_rd, State.rd_wb_ne _ _ _ hs, State.rd_wb_ne _ _ _ hs, State.rd_wb_ne _ _ _ hs, State.rd_wb_ne _ _ _ hs,
    State.rd_wr_ne _ _ (Reg.phb_rate_ne_rateGt b).symm, State.rd_wr_same, Nat.zero_mod]

theorem State.rb_endBase_status : (s.endBase b v).rb (Reg.PHB_STATUS b) 1 = true ∧ (s.endBase b v).rb (Reg.PHB_STATUS b) 2 = false ∧
    (s.endBase b v).rb (Reg.PHB_STATUS b) 3 = false := by
  simp [State.endBase_eq, State.rb, State.send_rd, State.rd_wb, testBit_putBit]

variable {s b} in
theorem State.endBase_value (h : s.baseOn b = false) : (s.endBase b v).baseValue b = wrapTo 48 (v / 2 ^ 32) := by
  have hctrl : (s.endBase b v).rd (Reg.PHB_CTRL b) = s.rd (Reg.PHB_CTRL b) := (s.endBase_step b v).kept _ (by
    simp [phbShown, (Reg.phb_status_ne_ctrl b).symm, (Reg.phb_rate_ne_ctrl b).symm, (Reg.phb_rateGt_ne_ctrl b).symm])
  have hoff : (s.endBase b v).baseOn b = false := (State.rb_of_rd hctrl 0).trans h
  have hbase : (s.endBase b v).base b = { s.base b with anchor := v % 2 ^ 80, anchorGt := s.gt.now, rate := 0, heldPath := none } := by
    rw [State.endBase_eq]
    simp
  rw [State.baseValue_off hoff, hbase, wrapTo_div_mod]

end

/-- A preset of a base that is off moves its anchor. -/
theorem State.preset_off {s : State} {b v : Nat} (h : s.baseOn b = false) :
    ∃ x, s.preset b v = s.setBase b x ∧ x.anchor = ((v % 2 ^ 48 : Nat) : Int) * 2 ^ 32 := by
  rw [State.preset, if_neg (by simp [h])]
  exact ⟨_, rfl, rfl⟩

/-- PHB_PRESET while the base is off. -/
theorem exec_phbPreset_off {s : State} {b : BaseId} (v : Word64) (h : s.baseOn b.val = false) : ∃ t, exec (.phbPreset b v) s = .next t ∧
    t.baseValue b.val = v.toNat % 2 ^ 48 ∧ (∀ k, k ≠ b.val → t.base k = s.base k) ∧ t = { s with bases := t.bases } := by
  have hexec : exec (.phbPreset b v) s = .next (s.preset b.val v.toNat) := rfl
  obtain ⟨x, hrun, hx⟩ := State.preset_off (v := v.toNat) h
  have hoff : (s.setBase b.val x).baseOn b.val = false := h
  rw [hrun] at hexec
  refine ⟨_, hexec, ?_, fun k hk => State.setBase_base_ne _ _ _ _ hk.symm, rfl⟩
  rw [State.baseValue_off hoff, State.setBase_base_same, hx, wrapTo]
  omega

/-- PHB_CTRL, unlocked: a start, an end, or a plain write. -/
theorem State.writePhbCtrl_spec {s s1 t : State} {b v : Nat} (ht : t = s.writePhbCtrl b v) (hu : s.unlockedAt (Reg.PHB_CTRL b) = true)
    (hs1 : s1 = s.storeReg (Reg.PHB_CTRL b) (if b < 8 then v else putFld v 6 6 0)) :
    t.rd (Reg.PHB_CTRL b) = s1.rd (Reg.PHB_CTRL b) ∧ t.baseValue b = s.baseValue b ∧
    (s.baseOn b = true → s1.baseOn b = false → t.rd (Reg.PHB_RATE b) = 0 ∧ t.rb (Reg.PHB_STATUS b) 1 = true ∧
      t.rb (Reg.PHB_STATUS b) 2 = false ∧ t.rb (Reg.PHB_STATUS b) 3 = false) ∧
    (s.baseOn b = false → s1.baseOn b = true → t.baseSrc b = s1.rf (Reg.PHB_CTRL b) 2 1) ∧
    (s.baseOn b = s1.baseOn b → t = s1) ∧ BaseStep b (Reg.PHB_CTRL b :: phbShown b) s t := by
  replace ht : t = if !s.baseOn b && s1.baseOn b then s1.startBase b
      else if s.baseOn b && !s1.baseOn b then s1.endBase b (s.baseAt b s.now) else s1 := by
    rw [ht, hs1]
    rfl
  have hstep : BaseStep b (Reg.PHB_CTRL b :: phbShown b) s s1 := hs1 ▸ BaseStep.of_storeReg _ hu List.mem_cons_self
  have hbase : s1.base b = s.base b := by
    obtain ⟨-, hframe⟩ := s.storeReg_unlocked (if b < 8 then v else putFld v 6 6 0) hu
    rw [← hs1] at hframe
    rw [hframe]
    rfl
  have hkept : s.regsKept s1 [Reg.PHB_CTRL b] := hs1 ▸ (s.storeReg_unlocked _ hu).1
  have hctrl : Reg.PHB_CTRL b ∉ phbShown b := by
    simp [phbShown, (Reg.phb_status_ne_ctrl b).symm, (Reg.phb_rate_ne_ctrl b).symm, (Reg.phb_rateGt_ne_ctrl b).symm]
  have hthen {u : State} (h : BaseStep b (phbShown b) s1 u) : BaseStep b (Reg.PHB_CTRL b :: phbShown b) s u :=
    hstep.trans (h.weaken fun a ha => List.mem_cons_of_mem _ ha)
  cases hwas : s.baseOn b <;> cases his : s1.baseOn b <;> simp [hwas, his] at ht <;> rw [ht]
  · refine ⟨rfl, ?_, by simp, by simp, fun _ => rfl, hstep⟩
    rw [State.baseValue_off his, State.baseValue_off hwas, hbase]
  · refine ⟨(s1.startBase_step b).kept _ hctrl, ?_, by simp, fun _ _ => s1.startBase_src b, by simp, hthen (s1.startBase_step b)⟩
    exact (State.startBase_value his).trans (by rw [State.baseValue_off hwas, hbase])
  · exact ⟨(s1.endBase_step b _).kept _ hctrl, State.endBase_value _ his, fun _ _ => ⟨s1.rd_endBase_rate b _, s1.rb_endBase_status b _⟩,
      by simp, by simp, hthen (s1.endBase_step b _)⟩
  · refine ⟨rfl, ?_, by simp, by simp, fun _ => rfl, hstep⟩
    have hrd {a : Nat} (h : a ≠ Reg.PHB_CTRL b) : s1.rd a = s.rd a := hkept a (by simpa using h)
    have hrun : SameRun b s s1 := ⟨his.trans hwas.symm, State.rf_congr (hrd (Reg.phb_status_ne_ctrl b)) 11 10,
      State.rb_of_rd (hrd (Reg.phb_status_ne_ctrl b)) 3, hrd (Reg.phb_ratio_ne_ctrl b)⟩
    exact hrun.baseValue (by rw [hbase]) (by rw [hbase]) (by rw [hbase]) (by rw [hbase]) hstep.gt

/-- Settles O4, from what a start, an end and a preset leave. -/
theorem baseControlAndPreset : Obligations.Base_control_and_preset := by
  unfold Obligations.Base_control_and_preset
  refine ⟨fun s b v => ⟨fun h => ?_, exec_phbPreset_off v⟩, fun s b who v hu => ?_⟩
  · have hexec : exec (.phbPreset b v) s = .next (s.preset b.val v.toNat) := rfl
    rw [hexec, State.preset, if_pos h]
  · have hexec : exec (.phbCtrl b who v) s = .next (s.writePhbCtrl b.val v.toNat) := rfl
    obtain ⟨hctrl, hvalue, hend, hstart, hplain, hstep⟩ := State.writePhbCtrl_spec (v := v.toNat) rfl hu rfl
    exact ⟨_, hexec, hctrl, hvalue, hend, hstart, hplain, hstep.others, hstep.frame, hstep.kept⟩

/-! ### The stop of a base, and the loss of a MAINS input (R36) -/

section
variable {s : State} {b : Nat}

theorem BaseStep.stopBase {t : State} (h : BaseStep b (phbShown b) s t) : BaseStep b (phbShown b) s (t.stopBase b) := h.rate

/-- A base that stops shows rate zero and STOPPED, and keeps its value and every other flag. -/
theorem State.stopBase_spec (ht : s.baseSrc b ≠ srcTime) : (s.stopBase b).rd (Reg.PHB_RATE b) = 0 ∧
    (∀ i, (s.stopBase b).rb (Reg.PHB_STATUS b) i = if i = 1 then true else s.rb (Reg.PHB_STATUS b) i) ∧
    (s.stopBase b).baseValue b = s.baseValue b ∧ (s.stopBase b).base b = { s.anchored b with rate := 0 } :=
  ⟨s.rd_setRate_rate b 0 _, s.rb_setRate_status b 0 _, State.baseValue_setRate 0 _ ht, s.setRate_base b 0 _⟩

/-- The state in which the loss of an input is noted. -/
def State.inputNoted (s : State) (b : Nat) (freqRange : Bool) : State :=
  let s1 := (s.setBase b { s.base b with inputLost := true }).wb (Reg.PHB_STATUS b) 0 false
  if freqRange then s1.wb (Reg.PHB_STATUS b) 6 true else s1

theorem State.mainsLost_eq (s : State) (b : Nat) (f : Bool) : s.mainsLost b f = if s.now ≥ s.holdoverEnd b then (s.inputNoted b f).stopBase b
    else (s.inputNoted b f).send (s.holdoverEnd b - s.now) (.mainsHoldoverEnd (Fin.ofNat 16 b)) := rfl

theorem State.inputNoted_step (s : State) (b : Nat) (f : Bool) : BaseStep b (phbShown b) s (s.inputNoted b f) :=
  .ite (BaseStep.refl s).setBase.flag.flag (BaseStep.refl s).setBase.flag

theorem State.inputNoted_run (s : State) (b : Nat) (f : Bool) : SameRun b s (s.inputNoted b f) :=
  .ite (((SameRun.refl s).setBase.wb_status (by decide) (by decide)).wb_status (by decide) (by decide))
    ((SameRun.refl s).setBase.wb_status (by decide) (by decide))

theorem State.inputNoted_base (s : State) (b : Nat) (f : Bool) : (s.inputNoted b f).base b = { s.base b with inputLost := true } := by
  unfold State.inputNoted
  cases f <;> simp

/-- LOCKED clears, and FREQ_RANGE is set for a half-cycle out of range. -/
theorem State.inputNoted_flags (s : State) (b : Nat) (f : Bool) : (s.inputNoted b f).rb (Reg.PHB_STATUS b) 0 = false ∧
    (f = true → (s.inputNoted b f).rb (Reg.PHB_STATUS b) 6 = true) := by
  unfold State.inputNoted
  cases f <;> simp [State.rb_wb]

theorem State.inputNoted_rate (s : State) (b : Nat) (f : Bool) : (s.inputNoted b f).rd (Reg.PHB_RATE b) = s.rd (Reg.PHB_RATE b) := by
  have hne := Reg.phb_status_ne_rate b
  unfold State.inputNoted
  cases f <;> simp [State.rd_wb_ne _ _ _ hne]

theorem State.inputNoted_value (s : State) (b : Nat) (f : Bool) : (s.inputNoted b f).baseValue b = s.baseValue b := by
  have hbase := s.inputNoted_base b f
  exact (s.inputNoted_run b f).baseValue (by rw [hbase]) (by rw [hbase]) (by rw [hbase]) (by rw [hbase]) (s.inputNoted_step b f).gt

/-- What re-anchoring leaves of a base's record beside its line. -/
theorem State.anchored_cases (s : State) (b : Nat) : ∃ q g, s.anchored b = { s.base b with anchor := q, anchorGt := g } := by
  unfold State.anchored
  split
  · exact ⟨_, _, rfl⟩
  · exact ⟨_, _, rfl⟩

theorem State.mainsLost_step (s : State) (b : Nat) (f : Bool) : BaseStep b (phbShown b) s (s.mainsLost b f) := by
  rw [State.mainsLost_eq]
  exact .ite (s.inputNoted_step b f).stopBase (s.inputNoted_step b f).send

/-- The loss of an input: LOCKED clears, the value stays, and the base stops once holdover has ended, or its end follows. -/
theorem State.mainsLost_spec {t : State} (f : Bool) (hsrc : s.baseSrc b ≠ srcTime) (ht : t = s.mainsLost b f) :
    (t.base b).inputLost = true ∧ (t.base b).lastCross = (s.base b).lastCross ∧ t.rb (Reg.PHB_STATUS b) 0 = false ∧
    (f = true → t.rb (Reg.PHB_STATUS b) 6 = true) ∧ t.baseValue b = s.baseValue b ∧
    (s.holdoverEnd b ≤ s.now → t.rd (Reg.PHB_RATE b) = 0 ∧ t.rb (Reg.PHB_STATUS b) 1 = true) ∧
    (s.now < s.holdoverEnd b → t.rd (Reg.PHB_RATE b) = s.rd (Reg.PHB_RATE b) ∧
      (s.clk + (s.holdoverEnd b - s.now), Act.cmd (.mainsHoldoverEnd (Fin.ofNat 16 b))) ∈ t.agenda) := by
  rw [State.mainsLost_eq] at ht
  have hclk := (s.inputNoted_step b f).clk
  have hrun := s.inputNoted_run b f
  have hvalue := s.inputNoted_value b f
  have hbase := s.inputNoted_base b f
  obtain ⟨hlocked, hrange⟩ := s.inputNoted_flags b f
  have hrate := s.inputNoted_rate b f
  generalize s.inputNoted b f = u at ht hclk hrun hvalue hbase hlocked hrange hrate
  by_cases hend : s.holdoverEnd b ≤ s.now
  · obtain ⟨hzero, hflags, hkeep, hstopped⟩ := State.stopBase_spec (s := u) (b := b) (hrun.src ▸ hsrc)
    obtain ⟨q, g, hanchored⟩ := u.anchored_cases b
    rw [if_pos hend] at ht
    rw [← ht] at hzero hflags hkeep hstopped
    rw [hstopped, hanchored, hbase]
    exact ⟨rfl, rfl, (hflags 0).trans hlocked, fun h => (hflags 6).trans (hrange h), hkeep.trans hvalue, fun _ => ⟨hzero, hflags 1⟩,
      fun h => absurd hend (Nat.not_le_of_lt h)⟩
  · rw [if_neg hend] at ht
    have hmem := u.mem_agenda_send (s.holdoverEnd b - s.now) (.mainsHoldoverEnd (Fin.ofNat 16 b))
    rw [hclk, ← ht] at hmem
    have hreg (a : Nat) : t.rd a = u.rd a := by rw [ht, State.send_rd]
    refine ⟨?_, ?_, (State.rb_of_rd (hreg _) 0).trans hlocked, fun h => (State.rb_of_rd (hreg _) 6).trans (hrange h), ?_,
      fun h => absurd h hend, fun _ => ⟨(hreg _).trans hrate, hmem⟩⟩
    · rw [ht, State.send_base_at, hbase]
    · rw [ht, State.send_base_at, hbase]
    · rw [ht, State.baseValue_send, hvalue]

/-! ### MAINS crossings (R35, R36, R594) -/

/-- What the loop gives lies within 25 % of the measured rate, and never runs backward (R594). -/
theorem loopUpdate_bounds (bw half : Nat) (integral err : Int) : let meas : Int := (2 ^ 63 / half : Nat)
    0 ≤ (loopUpdate bw half integral err).1 ∧ meas * 3 / 4 ≤ (loopUpdate bw half integral err).1 ∧
      (loopUpdate bw half integral err).1 ≤ meas * 5 / 4 := by
  intro meas
  obtain ⟨want, hrate⟩ : ∃ want, (loopUpdate bw half integral err).1 = max 0 (max (meas * 3 / 4) (min (meas * 5 / 4) want)) := ⟨_, rfl⟩
  have hmeas : 0 ≤ meas := Int.natCast_nonneg _
  rw [hrate]
  omega

/-- The rate and the integral term after a good crossing: measured when the input had been lost, else by the loop. -/
def State.steered (s : State) (b half : Nat) (err : Int) : Int × Int :=
  let meas : Int := (2 ^ 63 / half : Nat)
  if (s.base b).inputLost then (meas, meas) else loopUpdate (s.loopBw b half) half (s.base b).integral err

theorem State.steered_bounds (s : State) (b half : Nat) (err : Int) : let meas : Int := (2 ^ 63 / half : Nat)
    0 ≤ (s.steered b half err).1 ∧ meas * 3 / 4 ≤ (s.steered b half err).1 ∧ (s.steered b half err).1 ≤ meas * 5 / 4 := by
  intro meas
  have hmeas : 0 ≤ meas := Int.natCast_nonneg _
  unfold State.steered
  dsimp only
  split
  · show 0 ≤ meas ∧ meas * 3 / 4 ≤ meas ∧ meas ≤ meas * 5 / 4
    omega
  · exact loopUpdate_bounds _ _ _ _

/-- A good crossing: the loop's rate from the present value on, LOCKED by the phase error, and the loss of the input to come. -/
theorem State.goodCrossing_eq (s : State) (b : Nat) (rising : Bool) (instant half : Nat) : ∃ err locked,
    let x : Base := { s.base b with lastCross := some (rising, BitVec.ofNat 64 instant), lastGood := some (BitVec.ofNat 64 instant)
                                    half := half, integral := (s.steered b half err).2, inputLost := false }
    s.goodCrossing b rising instant half = ((((s.setBase b x).setRate b (s.steered b half err).1 instant).wb (Reg.PHB_STATUS b) 0 locked).send
      (instant + half * 5 / 2 - s.now) (.mainsInputLost (Fin.ofNat 16 b))) := ⟨_, _, rfl⟩

/-- What a good crossing leaves. -/
theorem State.goodCrossing_spec {t : State} {rising : Bool} {instant : Word64} {half : Nat} (hsrc : s.baseSrc b ≠ srcTime)
    (ht : t = s.goodCrossing b rising instant.toNat half) :
    BaseStep b (phbShown b) s t ∧ (t.base b).lastCross = some (rising, instant) ∧ (t.base b).inputLost = false ∧
    (t.base b).lastGood = some instant ∧ (t.base b).half = half ∧
    ((s.base b).inputLost = true → (t.base b).rate = ((2 ^ 63 / half : Nat) : Int)) ∧
    0 ≤ (t.base b).rate ∧ ((2 ^ 63 / half : Nat) : Int) * 3 / 4 ≤ (t.base b).rate ∧ (t.base b).rate ≤ ((2 ^ 63 / half : Nat) : Int) * 5 / 4 ∧
    t.rd (Reg.PHB_RATE b) = wrapTo 64 (t.base b).rate ∧ t.rd (Reg.PHB_RATE_GT b) = instant.toNat ∧ t.baseValue b = s.baseValue b := by
  obtain ⟨err, locked, heq⟩ := s.goodCrossing_eq b rising instant.toNat half
  dsimp only at heq
  rw [heq] at ht
  have hbounds := s.steered_bounds b half err
  have hlost : (s.base b).inputLost = true → (s.steered b half err).1 = ((2 ^ 63 / half : Nat) : Int) := fun h => by
    unfold State.steered
    rw [if_pos h]
  generalize hx : ({ s.base b with lastCross := some (rising, BitVec.ofNat 64 instant.toNat), lastGood := some (BitVec.ofNat 64 instant.toNat)
                                   half := half, integral := (s.steered b half err).2, inputLost := false } : Base) = x at ht
  generalize (s.steered b half err).1 = rate at ht hbounds hlost
  have hset : SameRun b s (s.setBase b x) := (SameRun.refl s).setBase
  have hsetb : (s.setBase b x).base b = x := State.setBase_base_same ..
  have hvalue : (s.setBase b x).baseValue b = s.baseValue b :=
    hset.baseValue (by rw [hsetb, ← hx]) (by rw [hsetb, ← hx]) (by rw [hsetb, ← hx]) (by rw [hsetb, ← hx]) rfl
  generalize hu : s.setBase b x = u at ht hset hsetb hvalue
  have hustep : BaseStep b (phbShown b) s u := hu ▸ (BaseStep.refl s).setBase
  obtain ⟨q, g, hanchored⟩ := u.anchored_cases b
  have hbase : t.base b = { x with anchor := q, anchorGt := g, rate := rate } := by
    rw [ht, State.send_base_at, State.wb_base_at, State.setRate_base, hanchored, hsetb]
  have hrd {a : Nat} (h : Reg.PHB_STATUS b ≠ a) : t.rd a = (u.setRate b rate instant.toNat).rd a := by
    rw [ht, State.send_rd, State.rd_wb_ne _ _ _ h]
  have hrun : SameRun b (u.setRate b rate instant.toNat) t := ht ▸ ((SameRun.refl _).wb_status (by decide) (by decide)).send
  rw [hbase]
  refine ⟨ht ▸ hustep.rate.flag.send, ?_, ?_, ?_, ?_, hlost, hbounds.1, hbounds.2.1, hbounds.2.2, ?_, ?_, ?_⟩
  · rw [← hx, BitVec.ofNat_toNat, BitVec.setWidth_eq]
  · rw [← hx]
  · rw [← hx, BitVec.ofNat_toNat, BitVec.setWidth_eq]
  · rw [← hx]
  · rw [hrd (Reg.phb_status_ne_rate b), State.rd_setRate_rate]
  · rw [hrd (Reg.phb_status_ne_rateGt b), State.rd_setRate_rateGt, Nat.mod_eq_of_lt instant.isLt]
  · have hsame : t.base b = (u.setRate b rate instant.toNat).base b := by rw [ht, State.send_base_at, State.wb_base_at]
    rw [hrun.baseValue (by rw [hsame]) (by rw [hsame]) (by rw [hsame]) (by rw [hsame]) (by rw [ht]; rfl),
      State.baseValue_setRate _ _ (hset.src ▸ hsrc), hvalue]

end

/-- A crossing of a MAINS base is recorded only, is a good one, or shows a frequency out of range. -/
theorem State.crossing_cases (s : State) (b : Nat) (rising : Bool) (instant : Nat) : let x := s.base b
    let t := s.crossing b rising instant
    let noted := s.setBase b { x with lastCross := some (rising, BitVec.ofNat 64 instant) }
    ((s.mainsShut b = true ∨ x.lastCross = none ∨ ∃ g, x.lastCross = some (rising, g)) ∧ t = noted) ∨
    (∃ g, s.mainsShut b = false ∧ x.lastCross = some (!rising, g) ∧
      (halfGood ((instant : Int) - g.toNat) = true ∧ t = s.goodCrossing b rising instant ((instant : Int) - g.toNat).toNat ∨
        halfGood ((instant : Int) - g.toNat) = false ∧ t = noted.mainsLost b true)) := by
  intro x t noted
  have ht : t = s.crossing b rising instant := rfl
  unfold State.crossing at ht
  dsimp only at ht
  cases hshut : s.mainsShut b with
  | true => exact .inl ⟨.inl rfl, ht.trans (if_pos hshut)⟩
  | false =>
    rw [if_neg (by simp [hshut])] at ht
    rcases hx : (s.base b).lastCross with _ | ⟨r, g⟩
    · rw [hx] at ht
      exact .inl ⟨.inr (.inl rfl), ht⟩
    · rw [hx] at ht
      dsimp only at ht
      by_cases hr : r = rising
      · exact .inl ⟨.inr (.inr ⟨g, by rw [hr]⟩), ht.trans (if_pos hr)⟩
      · rw [if_neg hr] at ht
        have hnot : r = !rising := by cases r <;> cases rising <;> simp_all
        refine .inr ⟨g, rfl, by rw [hnot], ?_⟩
        cases hgood : halfGood ((instant : Int) - g.toNat) with
        | true => exact .inl ⟨rfl, ht.trans (if_pos hgood)⟩
        | false => exact .inr ⟨rfl, ht.trans (if_neg (by simp [hgood]))⟩

/-- A running MAINS base does not follow GT. -/
theorem State.runsOn_src_ne_time {s : State} {b src : Nat} (h : s.runsOn b src = true) (hne : src ≠ srcTime) : s.baseSrc b ≠ srcTime := by
  rw [((s.runsOn_iff b src).mp h).2]
  exact hne

/-- What MAINS_CROSSING leaves of a running MAINS base. -/
theorem State.crossing_spec {s t : State} {b : Nat} {rising : Bool} {instant : Word64} (hrun : s.runsOn b srcMains = true)
    (ht : t = s.crossing b rising instant.toNat) :
    (t.base b).lastCross = some (rising, instant) ∧
    ((s.mainsShut b = true ∨ (s.base b).lastCross = none ∨ (∃ g, (s.base b).lastCross = some (rising, g))) →
      t.regs = s.regs ∧ t.agenda = s.agenda ∧ (t.base b).inputLost = (s.base b).inputLost) ∧
    (∀ g, s.mainsShut b = false → (s.base b).lastCross = some (!rising, g) →
      (halfGood ((instant.toNat : Int) - g.toNat) = false →
        t.rb (Reg.PHB_STATUS b) 0 = false ∧ t.rb (Reg.PHB_STATUS b) 6 = true ∧ (t.base b).inputLost = true) ∧
      (halfGood ((instant.toNat : Int) - g.toNat) = true →
        let half := ((instant.toNat : Int) - g.toNat).toNat
        (t.base b).inputLost = false ∧ (t.base b).lastGood = some instant ∧ (t.base b).half = half ∧
        ((s.base b).inputLost = true → (t.base b).rate = ((2 ^ 63 / half : Nat) : Int)) ∧
        0 ≤ (t.base b).rate ∧ ((2 ^ 63 / half : Nat) : Int) * 3 / 4 ≤ (t.base b).rate ∧
        (t.base b).rate ≤ ((2 ^ 63 / half : Nat) : Int) * 5 / 4 ∧
        t.rd (Reg.PHB_RATE b) = wrapTo 64 (t.base b).rate ∧ t.rd (Reg.PHB_RATE_GT b) = instant.toNat ∧
        t.baseValue b = s.baseValue b)) ∧
    BaseStep b (phbShown b) s t := by
  have hsrc : s.baseSrc b ≠ srcTime := State.runsOn_src_ne_time hrun (by decide)
  have hword : BitVec.ofNat 64 instant.toNat = instant := by simp
  have hcases := s.crossing_cases b rising instant.toNat
  dsimp only at hcases
  rw [← ht, hword] at hcases
  generalize hx : ({ s.base b with lastCross := some (rising, instant) } : Base) = x at hcases
  have hnoted : (s.setBase b x).base b = x := State.setBase_base_same ..
  have hstep : BaseStep b (phbShown b) s (s.setBase b x) := (BaseStep.refl s).setBase
  have hrun' : SameRun b s (s.setBase b x) := (SameRun.refl s).setBase
  rcases hcases with ⟨hwhy, hnote⟩ | ⟨g, hshut, hlast, ⟨hgood, hok⟩ | ⟨hbad, hlost⟩⟩
  · refine ⟨by rw [hnote, hnoted, ← hx], fun _ => ⟨by rw [hnote]; rfl, by rw [hnote]; rfl, by rw [hnote, hnoted, ← hx]⟩, fun g hshut hlast => ?_,
      hnote ▸ hstep⟩
    rcases hwhy with h | h | ⟨g', h⟩
    · simp [hshut] at h
    · simp [hlast] at h
    · simp [hlast] at h
  · obtain ⟨hstep, hcross, hfound, hlastGood, hhalf, hmeasured, hpos, hlow, hhigh, hrate, hrateGt, hvalue⟩ :=
      State.goodCrossing_spec hsrc hok
    refine ⟨hcross, fun hwhy => ?_, fun g' hshut' hlast' => ?_, hstep⟩
    · simp [hshut, hlast] at hwhy
    · obtain rfl : g = g' := by simpa [hlast] using hlast'
      exact ⟨fun h => by simp [hgood] at h, fun _ => ⟨hfound, hlastGood, hhalf, hmeasured, hpos, hlow, hhigh, hrate, hrateGt, hvalue⟩⟩
  · obtain ⟨hinput, hcross, hlocked, hrange, hvalue, -, -⟩ := State.mainsLost_spec true (hrun'.src ▸ hsrc) hlost
    refine ⟨by rw [hcross, hnoted, ← hx], fun hwhy => ?_, fun g' hshut' hlast' => ?_, ?_⟩
    · simp [hshut, hlast] at hwhy
    · obtain rfl : g = g' := by simpa [hlast] using hlast'
      exact ⟨fun _ => ⟨hlocked, hrange rfl, hinput⟩, fun h => by simp [hbad] at h⟩
    · rw [hlost]
      exact hstep.trans (State.mainsLost_step ..)

/-- Settles O5, from what a crossing, the loss of the input and a stop leave. -/
theorem mainsBase : Obligations.Mains_base := by
  unfold Obligations.Mains_base
  refine ⟨fun s b rising instant hrun => ?_, fun s b g hrun hg hlost hdue => ?_, fun s b hrun hlost hend => ?_⟩
  · have hexec : exec (.mainsCrossing b rising instant) s = execMainsCrossing b rising instant s := rfl
    have hgo : execMainsCrossing b rising instant s = .next (s.crossing b.val rising instant.toNat) := if_pos hrun
    obtain ⟨hcross, hnoted, hother, hstep⟩ := State.crossing_spec hrun rfl
    exact ⟨_, hexec.trans hgo, hcross, hnoted, hother, hstep.frame, hstep.others, hstep.kept⟩
  · have hexec : exec (.mainsInputLost b) s = execMainsInputLost b s := rfl
    obtain ⟨x, hgo, hx⟩ : ∃ x, execMainsInputLost b s = .next ((s.setBase b.val x).mainsLost b.val false) ∧
        ({ s.base b.val with lastCross := none } : Base) = x := by
      unfold execMainsInputLost
      dsimp only
      split
      · next g' hg' =>
        obtain rfl : g = g' := by simpa [hg] using hg'
        exact ⟨_, if_pos ⟨hrun, by simp [hlost], hdue⟩, rfl⟩
      · next hnone => simp [hg] at hnone
    have hsrc : s.baseSrc b.val ≠ srcTime := State.runsOn_src_ne_time hrun (by decide)
    have hstep : BaseStep b.val (phbShown b.val) s (s.setBase b.val x) := (BaseStep.refl s).setBase
    have hset : SameRun b.val s (s.setBase b.val x) := (SameRun.refl s).setBase
    have hbase : (s.setBase b.val x).base b.val = x := State.setBase_base_same ..
    have hvalue : (s.setBase b.val x).baseValue b.val = s.baseValue b.val :=
      hset.baseValue (by rw [hbase, ← hx]) (by rw [hbase, ← hx]) (by rw [hbase, ← hx]) (by rw [hbase, ← hx]) rfl
    have hendEq : (s.setBase b.val x).holdoverEnd b.val = s.holdoverEnd b.val := by
      rw [State.holdoverEnd, hbase, ← hx]
      rfl
    obtain ⟨hinput, -, hlocked, -, hkeep, hstopped, hheld⟩ :=
      State.mainsLost_spec (s := s.setBase b.val x) (b := b.val) false (hset.src ▸ hsrc) rfl
    rw [hendEq, finOfNat_val] at hheld
    rw [hendEq] at hstopped
    have hall := hstep.trans ((s.setBase b.val x).mainsLost_step b.val false)
    exact ⟨_, hexec.trans hgo, hinput, hlocked, hkeep.trans hvalue, hstopped, hheld, hall.frame, hall.kept⟩
  · have hexec : exec (.mainsHoldoverEnd b) s = execMainsHoldoverEnd b s := rfl
    have hgo : execMainsHoldoverEnd b s = .next (s.stopBase b.val) := if_pos ⟨hrun, hlost, hend⟩
    obtain ⟨hzero, hflags, hkeep, hstopped⟩ := State.stopBase_spec (State.runsOn_src_ne_time hrun (by decide))
    have hstep : BaseStep b.val (phbShown b.val) s (s.stopBase b.val) := (BaseStep.refl s).stopBase
    exact ⟨_, hexec.trans hgo, hzero, hflags 1, by rw [hstopped], hkeep, hstep.frame, hstep.kept⟩

/-! ### Moves of a base (R40, R58, R62) -/

/-- The difference that a base has moved by, if it lies in the signed range of 48 bits. -/
theorem diff48_moved {v : Nat} {d : Int} (hlo : -2 ^ 47 ≤ d) (hhi : d < 2 ^ 47) : diff48 (wrapTo 48 (v + d)) v = d := by
  have hwrap : wrapTo 48 ((wrapTo 48 (v + d) : Int) - v) = wrapTo 48 d := by
    simp only [wrapTo]
    omega
  rw [diff48, hwrap]
  exact toSigned_wrapTo (w := 47) hlo hhi

/-- The state with other crossings and another agenda. -/
def State.queued (s : State) (l : List (Nat × Bool × Nat)) (a : List (Nat × Act)) : State := { s with crossed := l, agenda := a }

@[simp] theorem State.queued_rd (s : State) (l : List (Nat × Bool × Nat)) (a : List (Nat × Act)) (r : Nat) : (s.queued l a).rd r = s.rd r := rfl
@[simp] theorem State.queued_base (s : State) (l : List (Nat × Bool × Nat)) (a : List (Nat × Act)) (k : Nat) : (s.queued l a).base k = s.base k := rfl
@[simp] theorem State.queued_gt (s : State) (l : List (Nat × Bool × Nat)) (a : List (Nat × Act)) : (s.queued l a).gt = s.gt := rfl
@[simp] theorem State.queued_value (s : State) (l : List (Nat × Bool × Nat)) (a : List (Nat × Act)) (b : Nat) :
    (s.queued l a).baseValue b = s.baseValue b := rfl

/-- Noting crossings queues their matches and changes nothing else. -/
theorem State.noteCrossed_eq (s : State) (ns : List Nat) (j : Bool) : ∃ l a, s.noteCrossed ns j = s.queued l a := by
  unfold State.noteCrossed
  induction ns generalizing s with
  | nil => exact ⟨_, _, rfl⟩
  | cons n ns ih =>
    obtain ⟨l, a, h⟩ := ih ({ s with crossed := s.crossed ++ [(n, j, s.clk)] }.send 0 (.compareMatch (Fin.ofNat 1024 n)))
    exact ⟨l, a, h⟩

/-- A base that has noted a move and shows its sense. -/
def State.shifted (s : State) (b : Nat) (m : Option (Nat × Nat × Int × Bool)) (d : Int) : State :=
  (s.setBase b { s.base b with lastMove := m }).showSense b d

theorem State.baseMoved_eq (s : State) (b old : Nat) : ∃ m l a, s.baseMoved b old = (s.shifted b m (diff48 (s.baseValue b) old)).queued l a := by
  obtain ⟨l, a, h⟩ := State.noteCrossed_eq (s.noteMove b old (diff48 (s.baseValue b) old) false) _ _
  exact ⟨_, l, a, h⟩

theorem State.baseJumped_eq (s : State) (b old : Nat) (d : Int) : ∃ m l a, s.baseJumped b old d = (s.shifted b m d).queued l a := by
  obtain ⟨l, a, h⟩ := State.noteCrossed_eq (s.noteMove b old d true) _ _
  exact ⟨_, l, a, h⟩

/-- `t` is `s` but for base b, the crossings, the agenda and the registers listed. -/
structure MoveStep (b : Nat) (rs : List Nat) (s t : State) : Prop where
  frame : t = { s with regs := t.regs, bases := t.bases, crossed := t.crossed, agenda := t.agenda }
  others : ∀ k, k ≠ b → t.base k = s.base k
  kept : s.regsKept t rs

section
variable {s t : State} {b : Nat} {rs : List Nat} {m : Option (Nat × Nat × Int × Bool)} {d : Int}

theorem BaseStep.queued {l : List (Nat × Bool × Nat)} {a : List (Nat × Act)} (h : BaseStep b rs s t) : MoveStep b rs s (t.queued l a) :=
  ⟨congrArg (·.queued l a) h.frame, h.others, h.kept⟩

theorem BaseStep.moves (h : BaseStep b rs s t) : MoveStep b rs s t := by
  refine ⟨?_, h.others, h.kept⟩
  have hcrossed : t.crossed = s.crossed := by rw [h.frame]
  rw [hcrossed]
  exact h.frame

theorem BaseStep.shifted (h : BaseStep b rs s t) (hs : Reg.PHB_STATUS b ∈ rs) : BaseStep b rs s (t.shifted b m d) :=
  .ite h.setBase (h.setBase.wb hs)

theorem BaseStep.baseMoved {old : Nat} (h : BaseStep b rs s t) (hs : Reg.PHB_STATUS b ∈ rs) : MoveStep b rs s (t.baseMoved b old) := by
  obtain ⟨m, l, a, e⟩ := t.baseMoved_eq b old
  exact e ▸ (h.shifted hs).queued

theorem BaseStep.baseJumped {old : Nat} (h : BaseStep b rs s t) (hs : Reg.PHB_STATUS b ∈ rs) : MoveStep b rs s (t.baseJumped b old d) := by
  obtain ⟨m, l, a, e⟩ := t.baseJumped_eq b old d
  exact e ▸ (h.shifted hs).queued

theorem State.shifted_run (s : State) (b : Nat) (m : Option (Nat × Nat × Int × Bool)) (d : Int) : SameRun b s (s.shifted b m d) :=
  .ite (SameRun.refl s).setBase ((SameRun.refl s).setBase.wb_status (by decide) (by decide))

theorem State.shifted_base (s : State) (b : Nat) (m : Option (Nat × Nat × Int × Bool)) (d : Int) :
    (s.shifted b m d).base b = { s.base b with lastMove := m } := by
  unfold State.shifted State.showSense
  split
  · exact State.setBase_base_same ..
  · rw [State.wb_base_at, State.setBase_base_same]

theorem State.shifted_value (s : State) (b : Nat) (m : Option (Nat × Nat × Int × Bool)) (d : Int) :
    (s.shifted b m d).baseValue b = s.baseValue b := by
  have hbase := s.shifted_base b m d
  have hstep : BaseStep b [Reg.PHB_STATUS b] s (s.shifted b m d) := (BaseStep.refl s).shifted List.mem_cons_self
  exact (s.shifted_run b m d).baseValue (by rw [hbase]) (by rw [hbase]) (by rw [hbase]) (by rw [hbase]) hstep.gt

/-- DIR shows the sense of a move; every other flag stays. -/
theorem State.rb_shifted (s : State) (b : Nat) (m : Option (Nat × Nat × Int × Bool)) (d : Int) (i : Nat) :
    (s.shifted b m d).rb (Reg.PHB_STATUS b) i = if i = 8 ∧ d ≠ 0 then decide (d < 0) else s.rb (Reg.PHB_STATUS b) i := by
  unfold State.shifted State.showSense
  by_cases hd : d = 0
  · rw [if_pos hd, if_neg (by simp [hd])]
    rfl
  · rw [if_neg hd, State.rb_wb _ _ _ _ _ _ (by decide)]
    simp only [true_and, hd, eq_comm (a := 8), ne_eq, not_false_eq_true, and_true]
    rfl

/-- A move noted keeps the base where the update has put it. -/
theorem State.baseMoved_spec (s : State) (b old : Nat) : (s.baseMoved b old).baseValue b = s.baseValue b ∧
    (∃ m, (s.baseMoved b old).base b = { s.base b with lastMove := m }) ∧
    (∀ i, (s.baseMoved b old).rb (Reg.PHB_STATUS b) i =
      if i = 8 ∧ diff48 (s.baseValue b) old ≠ 0 then decide (diff48 (s.baseValue b) old < 0) else s.rb (Reg.PHB_STATUS b) i) ∧
    (∀ a, a ≠ Reg.PHB_STATUS b → (s.baseMoved b old).rd a = s.rd a) := by
  obtain ⟨m, l, a, e⟩ := s.baseMoved_eq b old
  rw [e, State.queued_value, State.queued_base]
  have hstep : BaseStep b [Reg.PHB_STATUS b] s (s.shifted b m (diff48 (s.baseValue b) old)) := (BaseStep.refl s).shifted List.mem_cons_self
  exact ⟨s.shifted_value b m _, ⟨m, s.shifted_base b m _⟩, s.rb_shifted b m _, fun r hr => hstep.kept r (by simpa using hr)⟩

/-- So does a jump. -/
theorem State.baseJumped_spec (s : State) (b old : Nat) (d : Int) : (s.baseJumped b old d).baseValue b = s.baseValue b ∧
    (∃ m, (s.baseJumped b old d).base b = { s.base b with lastMove := m }) ∧
    (∀ i, (s.baseJumped b old d).rb (Reg.PHB_STATUS b) i = if i = 8 ∧ d ≠ 0 then decide (d < 0) else s.rb (Reg.PHB_STATUS b) i) ∧
    (∀ a, a ≠ Reg.PHB_STATUS b → (s.baseJumped b old d).rd a = s.rd a) := by
  obtain ⟨m, l, a, e⟩ := s.baseJumped_eq b old d
  rw [e, State.queued_value, State.queued_base]
  have hstep : BaseStep b [Reg.PHB_STATUS b] s (s.shifted b m d) := (BaseStep.refl s).shifted List.mem_cons_self
  exact ⟨s.shifted_value b m d, ⟨m, s.shifted_base b m d⟩, s.rb_shifted b m d, fun r hr => hstep.kept r (by simpa using hr)⟩

end

/-! ### ENCODER (R37, R38) -/

/-- The state with other records of the pins. -/
def State.setPins (s : State) (p : Tab Pin) : State := { s with pins := p }

/-- A level seen is recorded at its pin. -/
theorem State.seeLevel_eq (s : State) (n : Nat) (level : Bool) : ∃ p, s.seeLevel n level = s.setPins p := ⟨_, rfl⟩

/-- ENCODER_EDGE samples the levels beside the records of the pins. -/
theorem exec_encoderEdge {s : State} {b : BaseId} (a' b' : Bool) (hrun : s.runsOn b.val srcEncoder = true) (hclk : s.modes.refclk = true) :
    ∃ p, exec (.encoderEdge b a' b') s = .next ((s.setPins p).encoderSample b.val a' b') := by
  have hexec : exec (.encoderEdge b a' b') s = execEncoderEdge b a' b' s := rfl
  obtain ⟨p, hp⟩ := s.seeLevel_eq (s.rf (Reg.PHB_INPUT b.val) 8 0) a'
  obtain ⟨q, hq⟩ := (s.setPins p).seeLevel_eq (s.rf (Reg.PHB_INPUT b.val) 24 16) b'
  refine ⟨q, hexec.trans ?_⟩
  unfold execEncoderEdge
  dsimp only
  rw [hp, hq]
  exact congrArg _ (if_pos ⟨hrun, .inl hclk⟩)

/-- The state in which base b has recorded the levels of its two signals. -/
def State.sampled (s : State) (b : Nat) (a' b' : Bool) : State := s.setBase b { s.base b with levelA := a', levelB := b' }

theorem State.sampled_base (s : State) (b : Nat) (a' b' : Bool) : (s.sampled b a' b').base b = { s.base b with levelA := a', levelB := b' } :=
  State.setBase_base_same ..

theorem State.sampled_run (s : State) (b : Nat) (a' b' : Bool) : SameRun b s (s.sampled b a' b') := (SameRun.refl s).setBase

theorem State.sampled_step (s : State) (b : Nat) (rs : List Nat) (a' b' : Bool) : BaseStep b rs s (s.sampled b a' b') := (BaseStep.refl s).setBase

theorem State.sampled_value (s : State) (b : Nat) (a' b' : Bool) : (s.sampled b a' b').baseValue b = s.baseValue b := by
  have hbase := s.sampled_base b a' b'
  exact (s.sampled_run b a' b').baseValue (by rw [hbase]) (by rw [hbase]) (by rw [hbase]) (by rw [hbase]) rfl

/-- A sample of both signals at once, one that does not count, and one that counts far enough from the last edge. -/
theorem State.encoderSample_both {s : State} {b : Nat} {a' b' : Bool}
    (h : (s.base b).levelA ≠ a' ∧ (s.base b).levelB ≠ b' ∧ s.rf (Reg.PHB_CTRL b) 4 3 ≠ 3) :
    s.encoderSample b a' b' = (s.sampled b a' b').wb (Reg.PHB_STATUS b) 7 true := by
  unfold State.encoderSample
  exact if_pos h

theorem State.encoderSample_none {s : State} {b : Nat} {a' b' : Bool}
    (h : ¬ ((s.base b).levelA ≠ a' ∧ (s.base b).levelB ≠ b' ∧ s.rf (Reg.PHB_CTRL b) 4 3 ≠ 3))
    (hn : encoderStep (s.rf (Reg.PHB_CTRL b) 4 3) (s.base b).levelA (s.base b).levelB a' b' = none) :
    s.encoderSample b a' b' = s.sampled b a' b' := by
  unfold State.encoderSample
  dsimp only
  rw [if_neg h, hn]
  rfl

theorem State.encoderSample_counts {s : State} {b : Nat} {a' b' up : Bool}
    (h : ¬ ((s.base b).levelA ≠ a' ∧ (s.base b).levelB ≠ b' ∧ s.rf (Reg.PHB_CTRL b) 4 3 ≠ 3))
    (hu : encoderStep (s.rf (Reg.PHB_CTRL b) 4 3) (s.base b).levelA (s.base b).levelB a' b' = some up)
    (hgap : ∀ e, (s.base b).lastEdge = some e → e + s.encoderGap ≤ s.clk) :
    s.encoderSample b a' b' = (s.sampled b a' b').countEdge b up := by
  unfold State.encoderSample
  dsimp only
  rw [if_neg h, hu]
  dsimp only
  split
  · next e he => exact if_neg (Nat.not_lt_of_le (hgap e he))
  · rfl

/-- The counts that an edge adds: INC, or 1 for 0, in the edge's sense, which bit 5 inverts. -/
def State.edgeCounts (s : State) (b : Nat) (up : Bool) : Int :=
  let inc : Int := (max 1 (s.rf (Reg.PHB_CTRL b) 31 16) : Nat)
  if (if s.rb (Reg.PHB_CTRL b) 5 then !up else up) then inc else -inc

/-- A counted edge moves the anchor by its counts, and DIR shows its sense. -/
theorem State.countEdge_eq (s : State) (b : Nat) (up : Bool) : ∃ x : Base,
    s.countEdge b up = ((s.setBase b x).wb (Reg.PHB_STATUS b) 8 (!(if s.rb (Reg.PHB_CTRL b) 5 then !up else up))).baseMoved b (s.baseValue b) ∧
    x.anchor = ((s.base b).anchor + s.edgeCounts b up * 2 ^ 32) % 2 ^ 80 ∧ x.levelA = (s.base b).levelA ∧ x.levelB = (s.base b).levelB :=
  ⟨_, rfl, rfl, rfl, rfl⟩

theorem State.edgeCounts_spec (s : State) (b : Nat) (up : Bool) : let d := s.edgeCounts b up
    d ≠ 0 ∧ -2 ^ 47 ≤ d ∧ d < 2 ^ 47 ∧ decide (d < 0) = !(if s.rb (Reg.PHB_CTRL b) 5 then !up else up) := by
  have hlt : s.rf (Reg.PHB_CTRL b) 31 16 < 2 ^ 16 := Nat.mod_lt _ (by decide)
  unfold State.edgeCounts
  dsimp only
  cases (if s.rb (Reg.PHB_CTRL b) 5 = true then !up else up) <;> simp <;> omega

theorem State.countEdge_spec {s t : State} {b : Nat} (up : Bool) (hrun : s.runsOn b srcEncoder = true) (ht : t = s.countEdge b up) :
    t.baseValue b = wrapTo 48 ((s.baseValue b : Int) + s.edgeCounts b up) ∧
    t.rb (Reg.PHB_STATUS b) 8 = !(if s.rb (Reg.PHB_CTRL b) 5 then !up else up) ∧
    (t.base b).levelA = (s.base b).levelA ∧ (t.base b).levelB = (s.base b).levelB ∧ MoveStep b [Reg.PHB_STATUS b] s t := by
  obtain ⟨hon, hsrc⟩ := (s.runsOn_iff b _).mp hrun
  obtain ⟨x, hcount, hanchor, hA, hB⟩ := s.countEdge_eq b up
  obtain ⟨hne, hlo, hhi, hsense⟩ := s.edgeCounts_spec b up
  generalize hu : (s.setBase b x).wb (Reg.PHB_STATUS b) 8 (!(if s.rb (Reg.PHB_CTRL b) 5 then !up else up)) = u at hcount
  rw [hcount] at ht
  have hstep : BaseStep b [Reg.PHB_STATUS b] s u := hu ▸ (BaseStep.refl s).setBase.wb List.mem_cons_self
  have hsame : SameRun b s u := hu ▸ (SameRun.refl s).setBase.wb_status (by decide) (by decide)
  have hbase : u.base b = x := by rw [← hu, State.wb_base_at, State.setBase_base_same]
  have hstands : s.baseValue b = wrapTo 48 ((s.base b).anchor / 2 ^ 32) :=
    State.baseValue_of_at (State.baseAt_stands _ (.inr ⟨by rw [hsrc]; decide, .inl hsrc⟩))
  have hvalue : u.baseValue b = wrapTo 48 ((s.baseValue b : Int) + s.edgeCounts b up) := by
    rw [State.baseValue_of_at (State.baseAt_stands _ (.inr ⟨by rw [hsame.src, hsrc]; decide, .inl (hsame.src.trans hsrc)⟩)), hbase, hanchor,
      hstands]
    simp only [wrapTo]
    omega
  obtain ⟨hkeep, ⟨m, hmoved⟩, hflags, -⟩ := u.baseMoved_spec b (s.baseValue b)
  rw [hvalue, diff48_moved hlo hhi] at hflags
  refine ⟨?_, ?_, ?_, ?_, ht ▸ hstep.baseMoved List.mem_cons_self⟩
  · rw [ht, hkeep, hvalue]
  · rw [ht, hflags 8, if_pos ⟨rfl, hne⟩, hsense]
  · rw [ht, hmoved, hbase, hA]
  · rw [ht, hmoved, hbase, hB]

/-- The rate that the end of a window sets, and the window that begins. -/
theorem exec_rateWindow {s : State} {b : BaseId} (hrun : s.runsOn b.val srcEncoder = true) (hclk : s.modes.refclk = true)
    (hdue : s.now ≥ (s.base b.val).winStart.toNat + (s.base b.val).winLen) : ∃ x : Base,
    exec (.rateWindow b) s = .next (((s.setBase b.val x).setRate b.val (((s.base b.val).winChange * 2 ^ 32).tdiv ((s.base b.val).winLen : Int))
      s.now).send (s.rateWin b.val * 1000) (.rateWindow b)) ∧
    x = { s.base b.val with winChange := 0, winEdges := 0, winStart := s.gt.now, winLen := s.rateWin b.val * 1000 } := by
  have hexec : exec (.rateWindow b) s = execRateWindow b s := rfl
  refine ⟨_, hexec.trans ?_, rfl⟩
  unfold execRateWindow
  exact if_pos ⟨hrun, hclk, hdue⟩

theorem rateWindow_spec {s t : State} {b : Nat} {x : Base} {rate : Int} {n : Nat} {i : Instr} (hrun : s.runsOn b srcEncoder = true)
    (hx : x = { s.base b with winChange := 0, winEdges := 0, winStart := s.gt.now, winLen := n })
    (ht : t = ((s.setBase b x).setRate b rate s.now).send n i) :
    (t.base b).rate = rate ∧ t.rd (Reg.PHB_RATE b) = wrapTo 64 rate ∧ t.rb (Reg.PHB_STATUS b) 1 = decide (rate = 0) ∧
    t.baseValue b = s.baseValue b ∧ (t.base b).winStart = s.gt.now ∧ (t.base b).winChange = 0 ∧ (t.base b).winLen = n ∧
    (s.clk + n, Act.cmd i) ∈ t.agenda ∧ BaseStep b (phbShown b) s t := by
  have hset : SameRun b s (s.setBase b x) := (SameRun.refl s).setBase
  have hsetb : (s.setBase b x).base b = x := State.setBase_base_same ..
  have hvalue : (s.setBase b x).baseValue b = s.baseValue b :=
    hset.baseValue (by rw [hsetb, hx]) (by rw [hsetb, hx]) (by rw [hsetb, hx]) (by rw [hsetb, hx]) rfl
  have hstep : BaseStep b (phbShown b) s (s.setBase b x) := (BaseStep.refl s).setBase
  generalize s.setBase b x = u at ht hset hsetb hvalue hstep
  obtain ⟨q, g, hanchored⟩ := u.anchored_cases b
  have hbase : t.base b = { x with anchor := q, anchorGt := g, rate := rate } := by
    rw [ht, State.send_base_at, State.setRate_base, hanchored, hsetb]
  have hmem := (u.setRate b rate s.now).mem_agenda_send n i
  rw [← ht, (hstep.rate (rate := rate) (gt := s.now)).clk] at hmem
  rw [hbase, hx]
  refine ⟨rfl, ?_, ?_, ?_, rfl, rfl, rfl, hmem, ht ▸ hstep.rate.send⟩
  · rw [ht, State.send_rd, State.rd_setRate_rate]
  · rw [State.rb, ht, State.send_rd, ← State.rb, State.rb_setRate_status, if_pos rfl]
  · rw [ht, State.baseValue_send, State.baseValue_setRate _ _ (hset.src ▸ State.runsOn_src_ne_time hrun (by decide)), hvalue]

theorem MoveStep.trans_base {b : Nat} {rs : List Nat} {s t u : State} (h : BaseStep b rs s t) (k : MoveStep b rs t u) : MoveStep b rs s u := by
  refine ⟨?_, fun n hn => (k.others n hn).trans (h.others n hn), h.kept.trans k.kept⟩
  have hk := k.frame
  generalize u.regs = r, u.bases = x, u.agenda = l, u.crossed = c at hk ⊢
  rw [hk, h.frame]

/-- A move beside the records of the pins. -/
theorem MoveStep.beside_pins {b : Nat} {rs : List Nat} {s t : State} {p : Tab Pin} (h : MoveStep b rs (s.setPins p) t) :
    t = { s with regs := t.regs, bases := t.bases, pins := t.pins, crossed := t.crossed, agenda := t.agenda } := by
  have hp : t.pins = p := by rw [h.frame]; rfl
  rw [hp]
  exact h.frame

/-- Settles O6, from what a sample and the end of a window leave. -/
theorem encoderBase : Obligations.Encoder_base := by
  unfold Obligations.Encoder_base
  refine ⟨fun s b a' b' hrun hclk => ?_, fun s b hrun hclk hdue => ?_⟩
  · obtain ⟨p, hexec⟩ := exec_encoderEdge a' b' hrun hclk
    intro x mode inc
    have hvalue : ((s.setPins p).sampled b.val a' b').baseValue b.val = s.baseValue b.val := (s.setPins p).sampled_value b.val a' b'
    refine ⟨fun hboth => ?_, fun hnot => ⟨fun hnone => ?_, fun up hup hgap => ?_⟩⟩
    · rw [State.encoderSample_both (s := s.setPins p) hboth] at hexec
      have hrun' : SameRun b.val ((s.setPins p).sampled b.val a' b') (((s.setPins p).sampled b.val a' b').wb (Reg.PHB_STATUS b.val) 7 true) :=
        (SameRun.refl _).wb_status (by decide) (by decide)
      have hstep := ((s.setPins p).sampled_step b.val [Reg.PHB_STATUS b.val] a' b').wb (i := 7) (v := true) List.mem_cons_self
      exact ⟨_, hexec, by rw [State.rb_wb _ _ _ _ _ _ (by decide), if_pos ⟨rfl, rfl⟩],
        (hrun'.baseValue rfl rfl rfl rfl rfl).trans hvalue, rfl, hstep.kept⟩
    · rw [State.encoderSample_none (s := s.setPins p) hnot hnone] at hexec
      exact ⟨_, hexec, hvalue, rfl⟩
    · have hten : (s.setPins p).encoderGap = 10 := if_pos hclk
      have hfar (e : Nat) (he : ((s.setPins p).base b.val).lastEdge = some e) : e + (s.setPins p).encoderGap ≤ (s.setPins p).clk := by
        rw [hten]
        exact hgap e he
      rw [State.encoderSample_counts (s := s.setPins p) hnot hup hfar] at hexec
      have hbase := (s.setPins p).sampled_base b.val a' b'
      have hrun' : ((s.setPins p).sampled b.val a' b').runsOn b.val srcEncoder = true := hrun
      obtain ⟨hmoved, hdir, hA, hB, hstep⟩ := State.countEdge_spec up hrun' rfl
      rw [hvalue] at hmoved
      rw [hbase] at hA hB
      have hall := MoveStep.trans_base ((s.setPins p).sampled_step b.val _ a' b') hstep
      exact ⟨_, hexec, hmoved, hdir, hA, hB, hall.beside_pins, hall.kept⟩
  · obtain ⟨x, hexec, hx⟩ := exec_rateWindow hrun hclk hdue
    intro rate
    obtain ⟨hr, hrate, hstopped, hvalue, hstart, hchange, hlen, hnext, hstep⟩ := rateWindow_spec hrun hx rfl
    exact ⟨_, hexec, hr, hrate, hstopped, hvalue, hstart, hchange, hlen, hnext, hstep.frame, hstep.kept⟩

/-! ### A position update of a STREAM base (R39, R40) -/

/-- The registers that a position update may change. -/
def streamRegs (b : Nat) : List Nat := [Reg.PHB_STATUS b, Reg.PHB_RATE b, Reg.PHB_RATE_GT b, Reg.PHB_LAST_UPD_GT b]

theorem phbShown_stream (b : Nat) : ∀ a ∈ phbShown b, a ∈ streamRegs b := by
  intro a ha
  simp only [phbShown, streamRegs, List.mem_cons, List.not_mem_nil, or_false] at ha ⊢
  tauto

/-- The state in which an update is noted: STALE and HELD clear, its GT shown, and JUMPED and JUMP_BACK set for a jump. -/
def State.updateNoted (s : State) (b gt : Nat) (jump back : Bool) : State :=
  let s1 := ((s.wb (Reg.PHB_STATUS b) 2 false).wb (Reg.PHB_STATUS b) 3 false).wr (Reg.PHB_LAST_UPD_GT b) gt
  let s2 := if jump then s1.wb (Reg.PHB_STATUS b) 4 true else s1
  if jump && back then s2.wb (Reg.PHB_STATUS b) 5 true else s2

section
variable (s : State) (b gt : Nat) (jump back : Bool)

theorem State.updateNoted_step : BaseStep b (streamRegs b) s (s.updateNoted b gt jump back) := by
  have hstatus : Reg.PHB_STATUS b ∈ streamRegs b := List.mem_cons_self
  have h1 := (((BaseStep.refl (b := b) s).wb (i := 2) (v := false) hstatus).wb (i := 3) (v := false) hstatus).wr (v := gt)
    (show Reg.PHB_LAST_UPD_GT b ∈ streamRegs b by simp [streamRegs])
  have h2 := BaseStep.ite (c := jump = true) (h1.wb (i := 4) (v := true) hstatus) h1
  exact .ite (h2.wb hstatus) h2

@[simp] theorem State.updateNoted_base (k : Nat) : (s.updateNoted b gt jump back).base k = s.base k := by
  unfold State.updateNoted
  cases jump <;> cases back <;> simp

/-- The flags after an update: STALE and HELD clear, JUMPED and JUMP_BACK as the jump gives. -/
theorem State.rb_updateNoted (i : Nat) : (s.updateNoted b gt jump back).rb (Reg.PHB_STATUS b) i =
    if i = 2 ∨ i = 3 then false else if i = 4 then s.rb (Reg.PHB_STATUS b) 4 || jump
    else if i = 5 then s.rb (Reg.PHB_STATUS b) 5 || (jump && back) else s.rb (Reg.PHB_STATUS b) i := by
  have hne : Reg.PHB_LAST_UPD_GT b ≠ Reg.PHB_STATUS b := (Reg.phb_status_ne_lastUpd b).symm
  have h1 (j : Nat) : (((s.wb (Reg.PHB_STATUS b) 2 false).wb (Reg.PHB_STATUS b) 3 false).wr (Reg.PHB_LAST_UPD_GT b) gt).rb (Reg.PHB_STATUS b) j =
      if j = 2 ∨ j = 3 then false else s.rb (Reg.PHB_STATUS b) j := by
    rw [State.rb_wr_ne _ _ _ hne, State.rb_wb _ _ _ _ _ _ (by decide), State.rb_wb _ _ _ _ _ _ (by decide)]
    by_cases h3 : j = 3 <;> simp [h3, eq_comm]
  unfold State.updateNoted
  dsimp only
  cases jump <;> cases back <;> simp [h1, State.rb_wb, eq_comm]
  all_goals grind

theorem State.rd_updateNoted_lastUpd (h : gt < 2 ^ 64) : (s.updateNoted b gt jump back).rd (Reg.PHB_LAST_UPD_GT b) = gt := by
  have hne := Reg.phb_status_ne_lastUpd b
  unfold State.updateNoted
  cases jump <;> cases back <;> simpa [State.rd_wb_ne _ _ _ hne] using h

/-- The source stays in effect. -/
theorem State.updateNoted_src : (s.updateNoted b gt jump back).baseSrc b = s.baseSrc b := by
  have hne : Reg.PHB_LAST_UPD_GT b ≠ Reg.PHB_STATUS b := (Reg.phb_status_ne_lastUpd b).symm
  have hwb (t : State) (i : Nat) (v : Bool) (hi : i < 10) : (t.wb (Reg.PHB_STATUS b) i v).baseSrc b = t.baseSrc b :=
    State.rf_wb_out t v (by omega) (.inl hi) (by decide)
  have hwr (t : State) : (t.wr (Reg.PHB_LAST_UPD_GT b) gt).baseSrc b = t.baseSrc b := State.rf_congr (State.rd_wr_ne t gt hne) 11 10
  unfold State.updateNoted
  cases jump <;> cases back <;> simp [hwb, hwr]

theorem State.updateNoted_on : (s.updateNoted b gt jump back).baseOn b = s.baseOn b :=
  State.rb_of_rd ((s.updateNoted_step b gt jump back).kept _ (by
    simp [streamRegs, (Reg.phb_status_ne_ctrl b).symm, (Reg.phb_rate_ne_ctrl b).symm, (Reg.phb_rateGt_ne_ctrl b).symm,
      (Reg.phb_lastUpd_ne_ctrl b).symm])) 0

/-- The state in which the new rate is in effect from the anchor that an update has chosen. -/
def State.updateRated (x : Base) (rate : Int) : State := ((s.updateNoted b gt jump back).setBase b x).setRate b rate s.now

variable {x : Base} {rate : Int}

theorem State.updateRated_step : BaseStep b (streamRegs b) s (s.updateRated b gt jump back x rate) :=
  (s.updateNoted_step b gt jump back).setBase.setRate rate _ (by simp [streamRegs]) (by simp [streamRegs]) (by simp [streamRegs])

variable {s b gt jump back} in
/-- The base goes on from the anchor at the new rate. -/
theorem State.updateRated_base (hsrc : s.baseSrc b = srcStream) (hon : s.baseOn b = true) (hgt : x.anchorGt = s.gt.now) :
    (s.updateRated b gt jump back x rate).base b = { x with anchor := x.anchor % 2 ^ 80, rate := rate } := by
  generalize hu : (s.updateNoted b gt jump back).setBase b x = u
  have hbase : u.base b = x := by rw [← hu, State.setBase_base_same]
  have husrc : u.baseSrc b = srcStream := by rw [← hu]; exact (s.updateNoted_src b gt jump back).trans hsrc
  have huon : u.baseOn b = true := by rw [← hu]; exact (s.updateNoted_on b gt jump back).trans hon
  have hheld : u.rb (Reg.PHB_STATUS b) 3 = false := by
    rw [← hu]
    exact (s.rb_updateNoted b gt jump back 3).trans (if_pos (.inr rfl))
  have hugt : u.gt = s.gt := by
    rw [← hu]
    exact (s.updateNoted_step b gt jump back).gt
  have hat : u.baseAt b u.now = x.anchor := by
    rw [State.baseAt_moves _ huon (by rw [husrc]; decide) (by rw [husrc]; decide) hheld, hbase, hgt, State.now, hugt]
    ring
  rw [State.updateRated, hu, State.setRate_base, State.anchored, if_neg (by simp [husrc, hheld]; decide), hat, hbase, hugt, ← hgt]

theorem State.rb_updateRated (i : Nat) : (s.updateRated b gt jump back x rate).rb (Reg.PHB_STATUS b) i =
    if i = 1 then decide (rate = 0) else (s.updateNoted b gt jump back).rb (Reg.PHB_STATUS b) i := by
  rw [State.updateRated, State.rb_setRate_status]
  rfl

theorem State.rd_updateRated_rate : (s.updateRated b gt jump back x rate).rd (Reg.PHB_RATE b) = wrapTo 64 rate := State.rd_setRate_rate ..

theorem State.rd_updateRated_lastUpd (h : gt < 2 ^ 64) : (s.updateRated b gt jump back x rate).rd (Reg.PHB_LAST_UPD_GT b) = gt := by
  have hstep : BaseStep b (phbShown b) ((s.updateNoted b gt jump back).setBase b x) (s.updateRated b gt jump back x rate) := (BaseStep.refl _).rate
  rw [hstep.kept _ (by simp [phbShown, (Reg.phb_status_ne_lastUpd b).symm, (Reg.phb_rate_ne_lastUpd b).symm, (Reg.phb_rateGt_ne_lastUpd b).symm])]
  exact s.rd_updateNoted_lastUpd b gt jump back h

theorem State.updateRated_src : (s.updateRated b gt jump back x rate).baseSrc b = s.baseSrc b :=
  ((SameRun.refl _).setBase.setRate rate _).src.trans (s.updateNoted_src b gt jump back)

/-- The state in which a base holds, if it does, and what follows later is in the agenda. -/
def State.holding (s : State) (b : Nat) (hold : Bool) (resume timeout : Nat) : State :=
  let s6 := if hold then (s.wb (Reg.PHB_STATUS b) 3 true).send resume (.heldResume (Fin.ofNat 16 b)) else s
  if timeout ≠ 0 then s6.send (timeout * 1000000) (.streamTimeout (Fin.ofNat 16 b)) else s6

variable (hold : Bool) (resume timeout : Nat)

variable {s} in
theorem BaseStep.holding {t : State} {rs : List Nat} (h : BaseStep b rs s t) (hs : Reg.PHB_STATUS b ∈ rs) :
    BaseStep b rs s (t.holding b hold resume timeout) :=
  .ite (BaseStep.ite (h.wb hs).send h).send (.ite (h.wb hs).send h)

@[simp] theorem State.holding_base (k : Nat) : (s.holding b hold resume timeout).base k = s.base k := by
  unfold State.holding
  cases hold <;> dsimp only <;> split <;> simp

theorem State.rb_holding (i : Nat) : (s.holding b hold resume timeout).rb (Reg.PHB_STATUS b) i =
    if i = 3 ∧ hold = true then true else s.rb (Reg.PHB_STATUS b) i := by
  have hsend (t : State) (n : Nat) (c : Instr) : (t.send n c).rb (Reg.PHB_STATUS b) i = t.rb (Reg.PHB_STATUS b) i := rfl
  unfold State.holding
  cases hold <;> dsimp only <;> split <;> simp [hsend, State.rb_wb, eq_comm]

theorem State.rd_holding {a : Nat} (h : a ≠ Reg.PHB_STATUS b) : (s.holding b hold resume timeout).rd a = s.rd a := by
  unfold State.holding
  cases hold <;> dsimp only <;> split <;> simp [State.rd_wb_ne _ _ _ h.symm]

theorem State.holding_src : (s.holding b hold resume timeout).baseSrc b = s.baseSrc b := by
  have hsend (t : State) (n : Nat) (c : Instr) : (t.send n c).baseSrc b = t.baseSrc b := rfl
  have hwb (t : State) : (t.wb (Reg.PHB_STATUS b) 3 true).baseSrc b = t.baseSrc b := State.rf_wb_out t _ (by omega) (.inl (by decide)) (by decide)
  unfold State.holding
  cases hold <;> dsimp only <;> split <;> simp [hsend, hwb]

end

/-- An update that does not jump back out of range: the base holds while it would run backward, or stands. -/
def State.stays (s : State) (b u : Nat) : Bool :=
  decide (diff48 u (s.baseValue b) < 0) && !decide ((diff48 u (s.baseValue b)).natAbs > s.snapLimit b)

/-- The record that a position update gives the base: its anchor is the value it keeps or takes. -/
def State.updated (s : State) (b u gt : Nat) : Base :=
  { s.base b with
    anchor := if s.stays b u then s.baseAt b s.now % 2 ^ 80 else (u : Int) * 2 ^ 32
    anchorGt := s.gt.now, rate := s.nextStreamRate b u gt, lastUpd := some (BitVec.ofNat 48 u, BitVec.ofNat 64 gt)
    heldPath := if s.stays b u && decide (s.nextStreamRate b u gt > 0) then some ((u : Int) * 2 ^ 32) else none }

/-- A position update puts the new rate into effect from the value that the base keeps or takes, notes the hold, and then the move. -/
theorem State.streamUpdate_eq (s : State) (b u gt : Nat) : ∃ resume w,
    w = (s.updateRated b gt (decide ((diff48 u (s.baseValue b)).natAbs > s.snapLimit b)) (decide (diff48 u (s.baseValue b) < 0)) (s.updated b u gt)
      (s.nextStreamRate b u gt)).holding b (s.stays b u && decide (s.nextStreamRate b u gt > 0)) resume (s.streamTimeout b) ∧
    s.streamUpdate b u gt = if s.stays b u then w
      else if (diff48 u (s.baseValue b)).natAbs > s.snapLimit b then w.baseJumped b (s.baseValue b) (diff48 u (s.baseValue b))
      else w.baseMoved b (s.baseValue b) := by
  refine ⟨(diff48 u (s.baseValue b)).natAbs * 2 ^ 32 / (s.nextStreamRate b u gt).natAbs + 1, _, rfl, ?_⟩
  by_cases hneg : diff48 u (s.baseValue b) < 0 <;> by_cases hjump : (diff48 u (s.baseValue b)).natAbs > s.snapLimit b <;>
    by_cases hpos : s.nextStreamRate b u gt > 0 <;>
    simp [State.streamUpdate, State.updateRated, State.updateNoted, State.holding, State.stays, State.updated, hneg, hjump, hpos]

/-- The value of a base that stands at its anchor or was anchored at the present GT. -/
theorem wrapTo_anchor (u : Nat) (h : u < 2 ^ 48) : wrapTo 48 ((u : Int) * 2 ^ 32 % 2 ^ 80 / 2 ^ 32) = u := by
  simp only [wrapTo]
  omega

section
variable {s t : State} {b u gt : Nat} {jump back hold : Bool} {x : Base} {rate : Int} {resume timeout : Nat}

/-- What holds before a position update notes the move: the base's record, its value, its flags and registers. -/
theorem State.holding_updateRated_spec (hrun : s.runsOn b srcStream = true) (hgt : x.anchorGt = s.gt.now) (hlt : gt < 2 ^ 64)
    (ht : t = (s.updateRated b gt jump back x rate).holding b hold resume timeout) :
    t.base b = { x with anchor := x.anchor % 2 ^ 80, rate := rate } ∧ t.baseValue b = wrapTo 48 (x.anchor % 2 ^ 80 / 2 ^ 32) ∧
    t.rb (Reg.PHB_STATUS b) 2 = false ∧ t.rb (Reg.PHB_STATUS b) 3 = hold ∧
    t.rb (Reg.PHB_STATUS b) 4 = (s.rb (Reg.PHB_STATUS b) 4 || jump) ∧
    t.rb (Reg.PHB_STATUS b) 5 = (s.rb (Reg.PHB_STATUS b) 5 || (jump && back)) ∧
    t.rd (Reg.PHB_LAST_UPD_GT b) = gt ∧ t.rd (Reg.PHB_RATE b) = wrapTo 64 rate ∧ BaseStep b (streamRegs b) s t := by
  obtain ⟨hon, hsrc⟩ := (s.runsOn_iff b _).mp hrun
  have hbase : t.base b = { x with anchor := x.anchor % 2 ^ 80, rate := rate } := by
    rw [ht, State.holding_base, State.updateRated_base hsrc hon hgt]
  have hflag (i : Nat) : t.rb (Reg.PHB_STATUS b) i = if i = 3 ∧ hold = true then true else if i = 1 then decide (rate = 0)
      else (s.updateNoted b gt jump back).rb (Reg.PHB_STATUS b) i := by
    rw [ht, State.rb_holding, State.rb_updateRated]
  have hstep : BaseStep b (streamRegs b) s t := ht ▸ (s.updateRated_step b gt jump back).holding b hold resume timeout (by simp [streamRegs])
  have hsrc' : t.baseSrc b ≠ srcTime := by
    rw [ht, State.holding_src, State.updateRated_src, hsrc]
    decide
  refine ⟨hbase, ?_, ?_, ?_, ?_, ?_, ?_, ?_, hstep⟩
  · rw [State.baseValue_anchored (fun _ => hsrc') (by rw [hbase, hstep.gt]; exact hgt), hbase]
  · simp [hflag, State.rb_updateNoted]
  · cases hold <;> simp [hflag, State.rb_updateNoted]
  · simp [hflag, State.rb_updateNoted]
  · simp [hflag, State.rb_updateNoted]
  · rw [ht, State.rd_holding _ _ _ _ _ (Reg.phb_status_ne_lastUpd b).symm, State.rd_updateRated_lastUpd _ _ _ _ _ hlt]
  · rw [ht, State.rd_holding _ _ _ _ _ (Reg.phb_status_ne_rate b).symm, State.rd_updateRated_rate]

/-- What a position update leaves of a running STREAM base. -/
theorem State.streamUpdate_spec (hrun : s.runsOn b srcStream = true) (hu : u < 2 ^ 48) (hlt : gt < 2 ^ 64) (ht : t = s.streamUpdate b u gt) :
    let d := diff48 u (s.baseValue b)
    let jump := decide (d.natAbs > s.snapLimit b)
    t.baseValue b = (if s.stays b u then s.baseValue b else u) ∧ (t.base b).rate = s.nextStreamRate b u gt ∧
    t.rb (Reg.PHB_STATUS b) 4 = (s.rb (Reg.PHB_STATUS b) 4 || jump) ∧
    t.rb (Reg.PHB_STATUS b) 5 = (s.rb (Reg.PHB_STATUS b) 5 || (jump && decide (d < 0))) ∧
    t.rb (Reg.PHB_STATUS b) 2 = false ∧ t.rb (Reg.PHB_STATUS b) 3 = (s.stays b u && decide (0 < s.nextStreamRate b u gt)) ∧
    t.rd (Reg.PHB_LAST_UPD_GT b) = gt ∧ t.rd (Reg.PHB_RATE b) = wrapTo 64 (s.nextStreamRate b u gt) ∧ MoveStep b (streamRegs b) s t := by
  intro d jump
  obtain ⟨resume, w, hw, heq⟩ := s.streamUpdate_eq b u gt
  rw [heq] at ht
  obtain ⟨hbase, hvalue, hstale, hheld, hjumped, hback, hlast, hrate, hstep⟩ := State.holding_updateRated_spec hrun rfl hlt hw
  have hmem : Reg.PHB_STATUS b ∈ streamRegs b := List.mem_cons_self
  have hval : w.baseValue b = if s.stays b u then s.baseValue b else u := by
    rw [hvalue, State.updated]
    cases s.stays b u with
    | true => simp only [if_true, Int.emod_emod_of_dvd _ (dvd_refl _), wrapTo_div_mod]; rfl
    | false => exact wrapTo_anchor u hu
  have hwrate : (w.base b).rate = s.nextStreamRate b u gt := by rw [hbase]
  by_cases hstay : s.stays b u = true
  · rw [if_pos hstay] at ht
    subst ht
    exact ⟨hval, hwrate, hjumped, hback, hstale, hheld, hlast, hrate, hstep.moves⟩
  · rw [if_neg hstay] at ht
    by_cases hjump : (diff48 u (s.baseValue b)).natAbs > s.snapLimit b
    · rw [if_pos hjump] at ht
      obtain ⟨hkeep, ⟨m, hmoved⟩, hflags, hregs⟩ := w.baseJumped_spec b (s.baseValue b) (diff48 u (s.baseValue b))
      rw [← ht] at hkeep hmoved hflags hregs
      refine ⟨hkeep.trans hval, by rw [hmoved, ← hwrate], (hflags 4).trans hjumped, (hflags 5).trans hback, (hflags 2).trans hstale,
        (hflags 3).trans hheld, (hregs _ (Reg.phb_status_ne_lastUpd b).symm).trans hlast, (hregs _ (Reg.phb_status_ne_rate b).symm).trans hrate,
        ht ▸ hstep.baseJumped hmem⟩
    · rw [if_neg hjump] at ht
      obtain ⟨hkeep, ⟨m, hmoved⟩, hflags, hregs⟩ := w.baseMoved_spec b (s.baseValue b)
      rw [← ht] at hkeep hmoved hflags hregs
      refine ⟨hkeep.trans hval, by rw [hmoved, ← hwrate], (hflags 4).trans hjumped, (hflags 5).trans hback, (hflags 2).trans hstale,
        (hflags 3).trans hheld, (hregs _ (Reg.phb_status_ne_lastUpd b).symm).trans hlast, (hregs _ (Reg.phb_status_ne_rate b).symm).trans hrate,
        ht ▸ hstep.baseMoved hmem⟩

end

/-! ### The timeout and the path of a STREAM base (R40, R41) -/

/-- A timeout stops the base at its value: STALE and STOPPED set, HELD clear. -/
theorem exec_streamTimeout {s : State} {b : BaseId} (hrun : s.runsOn b.val srcStream = true) (hon : s.streamTimeout b.val ≠ 0)
    (hdue : s.now ≥ (match (s.base b.val).lastUpd with
      | some _ => s.rd (Reg.PHB_LAST_UPD_GT b.val)
      | none => (s.base b.val).enGt.toNat) + s.streamTimeout b.val * 1000000) : ∃ x : Base,
    exec (.streamTimeout b) s = .next (((((s.wb (Reg.PHB_STATUS b.val) 2 true).wb (Reg.PHB_STATUS b.val) 3 false).setBase b.val x)).setRate b.val 0 s.now) ∧
    x = { s.base b.val with anchor := s.baseAt b.val s.now % 2 ^ 80, anchorGt := s.gt.now, rate := 0, lastUpd := none, heldPath := none } := by
  have hexec : exec (.streamTimeout b) s = execStreamTimeout b s := rfl
  exact ⟨_, hexec.trans (if_pos ⟨hrun, hon, hdue⟩), rfl⟩

theorem streamTimeout_spec {s t : State} {b : Nat} {x : Base} (hrun : s.runsOn b srcStream = true)
    (hx : x = { s.base b with anchor := s.baseAt b s.now % 2 ^ 80, anchorGt := s.gt.now, rate := 0, lastUpd := none, heldPath := none })
    (ht : t = ((((s.wb (Reg.PHB_STATUS b) 2 true).wb (Reg.PHB_STATUS b) 3 false).setBase b x)).setRate b 0 s.now) :
    t.rb (Reg.PHB_STATUS b) 1 = true ∧ t.rb (Reg.PHB_STATUS b) 2 = true ∧ t.rb (Reg.PHB_STATUS b) 3 = false ∧
    t.rd (Reg.PHB_RATE b) = 0 ∧ t.baseValue b = s.baseValue b ∧ (t.base b).lastUpd = none ∧ BaseStep b (phbShown b) s t := by
  have hsrc : s.baseSrc b ≠ srcTime := State.runsOn_src_ne_time hrun (by decide)
  generalize hu : ((s.wb (Reg.PHB_STATUS b) 2 true).wb (Reg.PHB_STATUS b) 3 false).setBase b x = u at ht
  have hstep : BaseStep b (phbShown b) s u := hu ▸ (BaseStep.refl s).flag.flag.setBase
  have hbase : u.base b = x := by rw [← hu, State.setBase_base_same]
  have husrc : u.baseSrc b = s.baseSrc b := by
    have h2 := State.rf_wb_out s (a := Reg.PHB_STATUS b) (i := 2) (hi := 11) (lo := 10) true (by decide) (by decide) (by decide)
    have h3 := State.rf_wb_out (s.wb (Reg.PHB_STATUS b) 2 true) (a := Reg.PHB_STATUS b) (i := 3) (hi := 11) (lo := 10) false (by decide)
      (by decide) (by decide)
    rw [← hu]
    exact h3.trans h2
  have hflag (i : Nat) : u.rb (Reg.PHB_STATUS b) i = if i = 3 then false else if i = 2 then true else s.rb (Reg.PHB_STATUS b) i := by
    have hset : u.rb (Reg.PHB_STATUS b) i = ((s.wb (Reg.PHB_STATUS b) 2 true).wb (Reg.PHB_STATUS b) 3 false).rb (Reg.PHB_STATUS b) i := by
      rw [← hu]
      rfl
    rw [hset, State.rb_wb _ _ _ _ _ _ (by decide), State.rb_wb _ _ _ _ _ _ (by decide)]
    simp only [true_and, eq_comm (b := i)]
  have hvalue : u.baseValue b = s.baseValue b := by
    rw [State.baseValue_anchored (fun _ => by rwa [husrc]) (by rw [hbase, hx, hstep.gt]), hbase, hx, wrapTo_div_mod, State.baseValue]
  obtain ⟨q, g, hanchored⟩ := u.anchored_cases b
  refine ⟨?_, ?_, ?_, ?_, ?_, ?_, ht ▸ hstep.rate⟩
  · rw [ht, State.rb_setRate_status]; rfl
  · rw [ht, State.rb_setRate_status, hflag]; rfl
  · rw [ht, State.rb_setRate_status, hflag]; rfl
  · rw [ht, State.rd_setRate_rate]; rfl
  · rw [ht, State.baseValue_setRate _ _ (by rwa [husrc]), hvalue]
  · rw [ht, State.setRate_base, hanchored, hbase, hx]

/-- HELD_RESUME once the path has passed the held value: the base goes on from the path. -/
theorem exec_heldResume {s : State} {b : BaseId} {p : Int} (hpath : s.heldPathNow b.val = some p) (hrun : s.runsOn b.val srcStream = true)
    (hheld : s.rb (Reg.PHB_STATUS b.val) 3 = true) (hpast : 0 ≤ diff48 (wrapTo 48 (p / 2 ^ 32)) (s.baseValue b.val)) : ∃ x : Base,
    exec (.heldResume b) s = .next (((s.wb (Reg.PHB_STATUS b.val) 3 false).setBase b.val x).baseMoved b.val (s.baseValue b.val)) ∧
    x.anchor = p % 2 ^ 80 ∧ x.anchorGt = s.gt.now := by
  have hexec : exec (.heldResume b) s = execHeldResume b s := rfl
  unfold execHeldResume at hexec
  rw [hpath] at hexec
  exact ⟨_, hexec.trans (if_pos ⟨hrun, hheld, hpast⟩), rfl, rfl⟩

theorem heldResume_spec {s t : State} {b : Nat} {p : Int} {x : Base} (hrun : s.runsOn b srcStream = true) (hx : x.anchor = p % 2 ^ 80)
    (hgt : x.anchorGt = s.gt.now) (ht : t = ((s.wb (Reg.PHB_STATUS b) 3 false).setBase b x).baseMoved b (s.baseValue b)) :
    t.rb (Reg.PHB_STATUS b) 3 = false ∧ t.baseValue b = wrapTo 48 (p / 2 ^ 32) ∧ MoveStep b [Reg.PHB_STATUS b] s t := by
  have hsrc : s.baseSrc b ≠ srcTime := State.runsOn_src_ne_time hrun (by decide)
  generalize hu : (s.wb (Reg.PHB_STATUS b) 3 false).setBase b x = u at ht
  have hstep : BaseStep b [Reg.PHB_STATUS b] s u := hu ▸ ((BaseStep.refl s).wb List.mem_cons_self).setBase
  have hbase : u.base b = x := by rw [← hu, State.setBase_base_same]
  have husrc : u.baseSrc b = s.baseSrc b := by
    rw [← hu]
    exact State.rf_wb_out s (a := Reg.PHB_STATUS b) (i := 3) (hi := 11) (lo := 10) false (by decide) (by decide) (by decide)
  have hclear : u.rb (Reg.PHB_STATUS b) 3 = false := by
    rw [← hu]
    exact (State.rb_wb s _ _ _ _ _ (by decide)).trans (if_pos ⟨rfl, rfl⟩)
  obtain ⟨hkeep, -, hflags, -⟩ := u.baseMoved_spec b (s.baseValue b)
  rw [← ht] at hkeep hflags
  refine ⟨(hflags 3).trans hclear, ?_, ht ▸ hstep.baseMoved List.mem_cons_self⟩
  rw [hkeep, State.baseValue_anchored (fun _ => by rwa [husrc]) (by rw [hbase, hstep.gt, hgt]), hbase, hx, wrapTo_div_mod]

/-! ### Projection (R43, R44) -/

theorem State.armed_lt {s : State} {n : Nat} (h : n ∈ s.armed) : n < 1024 := by
  simp only [State.armed, List.mem_filterMap] at h
  obtain ⟨e, -, he⟩ := h
  split at he
  · next hin =>
    obtain ⟨hlo, hhi, -, -⟩ := hin
    simp only [Reg.CMP_CTRL] at hlo hhi he
    cases he
    omega
  · cases he

theorem State.projection_lt (s : State) (n : Nat) (h : s.cmpBind n ≠ 16) : s.projection n < 2 ^ 64 := by
  have hinf : 2 ^ 64 - 1 < 2 ^ 64 := by decide
  have hword (c : Prop) [Decidable c] (x : Nat) : (if c then x % 2 ^ 64 else 2 ^ 64 - 1) < 2 ^ 64 := by
    split
    · exact Nat.mod_lt _ (by decide)
    · exact hinf
  unfold State.projection
  dsimp only
  rw [if_neg h]
  split
  · exact hinf
  · split
    · exact hinf
    · exact hword _ _

/-- A compare's projection rests on its registers, the bases and the registers of its base: not on a projection written. -/
theorem State.projection_project (s : State) {n m : Nat} (hm : m < 1024) (hn : s.cmpBind n < 16) : (s.project m).projection n = s.projection n := by
  have hrd {a : Nat} (h : Reg.CMP_PROJ m ≠ a) : (s.project m).rd a = s.rd a := State.rd_wr_ne s _ h
  have hctrl : (s.project m).rd (Reg.CMP_CTRL n) = s.rd (Reg.CMP_CTRL n) := hrd (by simp only [Reg.CMP_PROJ, Reg.CMP_CTRL]; omega)
  have hvalue : (s.project m).rd (Reg.CMP_VALUE n) = s.rd (Reg.CMP_VALUE n) := hrd (by simp only [Reg.CMP_PROJ, Reg.CMP_VALUE]; omega)
  have hbind : (s.project m).cmpBind n = s.cmpBind n := State.rf_congr hctrl 9 5
  have hrun : SameRun (s.cmpBind n) s (s.project m) :=
    .of_rd (hrd (by simp only [Reg.CMP_PROJ, Reg.PHB_CTRL]; omega)) (hrd (by simp only [Reg.CMP_PROJ, Reg.PHB_STATUS]; omega))
      (hrd (by simp only [Reg.CMP_PROJ, Reg.PHB_TIME_RATIO]; omega))
  have hbase : (s.project m).base (s.cmpBind n) = s.base (s.cmpBind n) := State.wr_base_at ..
  have hnow : (s.project m).now = s.now := rfl
  have hbv : (s.project m).baseValue (s.cmpBind n) = s.baseValue (s.cmpBind n) :=
    hrun.baseValue (by rw [hbase]) (by rw [hbase]) (by rw [hbase]) (by rw [hbase]) rfl
  have harm (i : Nat) : (s.project m).rb (Reg.CMP_CTRL n) i = s.rb (Reg.CMP_CTRL n) i := State.rb_of_rd hctrl i
  have hup : (s.project m).cmpUp n = s.cmpUp n := by rw [State.cmpUp, State.rf_congr hctrl, State.cmpUp]
  have hdown : (s.project m).cmpDown n = s.cmpDown n := harm 2
  simp only [State.projection, hbind, harm, hvalue, hbv, hrun.on, hbase, hup, hdown, hnow]

/-- The projections written for a list of compares of one base. -/
theorem State.projects_spec (s : State) (l : List Nat) (hl : ∀ n ∈ l, n < 1024 ∧ s.cmpBind n < 16) : let t := l.foldl (fun s n => s.project n) s
    (∀ n ∈ l, t.rd (Reg.CMP_PROJ n) = s.projection n) ∧ (∀ a, (∀ n ∈ l, a ≠ Reg.CMP_PROJ n) → t.rd a = s.rd a) ∧
    (∀ n, s.cmpBind n < 16 → t.projection n = s.projection n) ∧ t = { s with regs := t.regs } := by
  induction l using List.reverseRecOn with
  | nil => exact ⟨by simp, fun _ _ => rfl, fun _ _ => rfl, rfl⟩
  | append_singleton l m ih =>
    obtain ⟨hproj, hkept, hsame, hframe⟩ := ih fun n hn => hl n (List.mem_append_left _ hn)
    obtain ⟨hm, hbind⟩ := hl m (by simp)
    simp only [List.foldl_append, List.foldl_cons, List.foldl_nil]
    generalize l.foldl (fun s n => s.project n) s = u at hproj hkept hsame hframe
    have hubind (n : Nat) : u.cmpBind n = s.cmpBind n :=
      State.rf_congr (hkept _ fun k hk => by
        have := hl k (List.mem_append_left _ hk)
        simp only [Reg.CMP_CTRL, Reg.CMP_PROJ]
        omega) 9 5
    have hwritten : (u.project m).rd (Reg.CMP_PROJ m) = s.projection m := by
      rw [State.project, State.rd_wr_same, hsame m hbind, Nat.mod_eq_of_lt (s.projection_lt m (by omega))]
    refine ⟨fun n hn => ?_, fun a ha => ?_, fun n hn => ?_, ?_⟩
    · by_cases hnm : n = m
      · rw [hnm, hwritten]
      · rw [State.project, State.rd_wr_ne _ _ (by simp only [Reg.CMP_PROJ]; omega)]
        exact hproj n (by simpa [hnm] using hn)
    · rw [State.project, State.rd_wr_ne _ _ (ha m (by simp)).symm]
      exact hkept a fun n hn => ha n (List.mem_append_left _ hn)
    · rw [u.projection_project hm (by rwa [hubind]), hsame n hn]
    · rw [hframe]
      rfl

/-- Settles O7, from what a position update, a timeout, the path and the projections leave. -/
theorem streamBase : Obligations.Stream_base := by
  unfold Obligations.Stream_base
  refine ⟨fun s b v hrun hsw => ?_, fun s b hrun hon hdue => ?_, fun s b p hpath hrun hheld hpast => ?_, fun s b => ?_⟩
  · have hexec : exec (.phbStreamPos b v) s = .next (s.softwarePos b.val v.toNat) := rfl
    have hgo : s.softwarePos b.val v.toNat = s.streamUpdate b.val (v.toNat % 2 ^ 48) s.now := if_pos ⟨hrun, hsw⟩
    rw [hgo] at hexec
    intro u d jump st
    obtain ⟨hvalue, hrate, hjumped, hback, hstale, hheld, hlast, hshown, hstep⟩ :=
      State.streamUpdate_spec (t := s.streamUpdate b.val u s.now) hrun (Nat.mod_lt _ (by decide)) s.gt.now.isLt rfl
    refine ⟨_, hexec, ?_, hjumped, hback, hstale, ?_, hlast, by rw [hrate]; exact hshown, hstep.frame, hstep.kept⟩
    · refine hvalue.trans (if_congr ?_ rfl rfl)
      simp [State.stays, d, jump, u]
    · rw [hrate]
      exact hheld
  · obtain ⟨x, hexec, hx⟩ := exec_streamTimeout hrun hon hdue
    obtain ⟨hstopped, hstale, hheld, hrate, hvalue, hlast, hstep⟩ := streamTimeout_spec hrun hx rfl
    exact ⟨_, hexec, hstopped, hstale, hheld, hrate, hvalue, hlast, hstep.frame, hstep.kept⟩
  · obtain ⟨x, hexec, hx, hgt⟩ := exec_heldResume hpath hrun hheld hpast
    obtain ⟨hclear, hvalue, hstep⟩ := heldResume_spec hrun hx hgt rfl
    exact ⟨_, hexec, hclear, hvalue, hstep.frame, hstep.kept⟩
  · have hexec : exec (.projectionRecompute b) s = .next ((s.armed.filter fun n => s.cmpBind n = b.val).foldl (fun s n => s.project n) s) := rfl
    have hmem (n : Nat) : n ∈ s.armed.filter (fun n => s.cmpBind n = b.val) ↔ n ∈ s.armed ∧ s.cmpBind n = b.val := by
      rw [List.mem_filter, decide_eq_true_iff]
    obtain ⟨hproj, hkept, -, hframe⟩ := s.projects_spec (s.armed.filter fun n => s.cmpBind n = b.val) fun n hn => by
      obtain ⟨harmed, hbind⟩ := (hmem n).mp hn
      exact ⟨State.armed_lt harmed, by omega⟩
    exact ⟨_, hexec, fun n hn hb => hproj n ((hmem n).mpr ⟨hn, hb⟩),
      fun a ha => hkept a fun n hn => ha n ((hmem n).mp hn).1 ((hmem n).mp hn).2, hframe⟩

end Sys2Proof.Machine
end

section
/-!
PROOF. Resets, starts and STANDBY (O54): refuted. PLL lock advances GT, and from then on GT_RATE_EFF shows the adjustment in effect (R52),
while the statement lets only GT_STATUS and GT_RTC_ELAPSED change.
-/
namespace Sys2Proof.Machine

/-- What a start finds when there is nothing to find. -/
def emptyBoot : BootInput :=
  { images := [], patches := [], pmbus := 0, dram := [], sets := [], fatal := none, failed := [], quads := [], chFail := 0 }

/-- A cold start that waits for its PLLs, with GT_RATE_SW written and not yet in effect. -/
def lockingWithRate : State :=
  { State.reset with
    regs := [(Reg.GT_RATE_SW, 5)]
    modes := { boot := some emptyBoot } }

/-- The same start at PLL lock. -/
def lockedWithRate : State :=
  ((setModes lockingWithRate fun m => { m with pll := true }).gtAdvance).after 3000000 (.boot 3)

theorem exec_pllLock_lockingWithRate : exec .pllLock lockingWithRate = .next lockedWithRate := rfl

theorem rd_rateEff_lockingWithRate : lockingWithRate.rd Reg.GT_RATE_EFF = 0 := by decide

theorem rd_rateEff_lockedWithRate : lockedWithRate.rd Reg.GT_RATE_EFF = 5 := by decide

/-- Refutes O54: at PLL lock GT_RATE_EFF takes the adjustment of GT_RATE_SW, here 5, and is not among the registers the statement lets
change. -/
theorem not_resetsStartsAndStandby : ¬ Obligations.Resets_starts_and_standby := by
  unfold Obligations.Resets_starts_and_standby
  intro h
  obtain ⟨-, -, -, -, -, -, hlock, -⟩ := h lockingWithRate emptyBoot 0 .command
  obtain ⟨t, hexec, -, -, -, -, -, -, hkept⟩ := hlock (by decide) rfl rfl
  obtain rfl : lockedWithRate = t := by
    rw [exec_pllLock_lockingWithRate] at hexec
    exact Host.Outcome.next.inj hexec
  have heff : lockedWithRate.rd Reg.GT_RATE_EFF = lockingWithRate.rd Reg.GT_RATE_EFF := hkept Reg.GT_RATE_EFF (by decide)
  rw [rd_rateEff_lockedWithRate, rd_rateEff_lockingWithRate] at heff
  exact absurd heff (by decide)

end Sys2Proof.Machine
end

section
/-!
PROOF. The commands of Lemam (O53): what a row comes to once every check of R480 has passed, and what each of the 34 commands then does.
-/
namespace Sys2Proof.Machine

/-! ### Parameter bytes -/

@[simp] theorem toBytes_length (n v : Nat) : (toBytes n v).length = n := by
  induction n generalizing v with
  | zero => rfl
  | succ n ih => simp [toBytes, ih]

/-- Little-endian bytes spell the number they were made of. -/
theorem ofBytes_toBytes (n v : Nat) (h : v < 256 ^ n) : ofBytes (toBytes n v) = v := by
  induction n generalizing v with
  | zero =>
    have : v = 0 := by simpa using h
    simp [toBytes, ofBytes, this]
  | succ n ih =>
    have hv : v / 256 < 256 ^ n := Nat.div_lt_of_lt_mul (by rw [pow_succ] at h; omega)
    have hb : (BitVec.ofNat 8 v).toNat = v % 256 := by simp
    rw [toBytes, ofBytes, ih _ hv, hb]
    omega

theorem ofBytes_toBytes_append (n v : Nat) (l : List Byte) (h : v < 256 ^ n) : ofBytes ((toBytes n v ++ l).take n) = v := by
  rw [List.take_left' (toBytes_length n v), ofBytes_toBytes n v h]

@[simp] theorem ofBytes_byte (a : Byte) : ofBytes [a] = a.toNat := by simp [ofBytes]

/-! ### The command of a row -/

/-- The command that a row carries out. -/
def rowCmd (src : CmdSource) (op : Nat) (p : List Byte) : Cmd :=
  { route := { src := src, opcode := op, seq := 0 }, flags := 0, len := p.length, zero := 0, params := p }

/-- The reply stands in `lemam.reply`. -/
def State.answered (s : State) (status : Nat) (data : List Byte) : State := { s with lemam := { s.lemam with reply := (status, data) } }

@[simp] theorem rowCmd_opcode (src : CmdSource) (op : Nat) (p : List Byte) : (rowCmd src op p).route.opcode = op := rfl

@[simp] theorem rowCmd_src (src : CmdSource) (op : Nat) (p : List Byte) : (rowCmd src op p).route.src = src := rfl

theorem rowCmd_par (src : CmdSource) (op : Nat) (p : List Byte) (k n : Nat) : (rowCmd src op p).par k n = ofBytes ((p.drop k).take n) := rfl

/-- A command of a row answers in `lemam.reply` and nowhere else. -/
theorem State.reply_row (s : State) (src : CmdSource) (op : Nat) (p : List Byte) (data : List Byte) :
    s.reply (rowCmd src op p).route 0 data = s.answered 0 data := rfl

theorem State.reply_row_failed (s : State) (src : CmdSource) (op : Nat) (p : List Byte) (status : Nat) (data : List Byte) (h : status ≠ 0) :
    s.reply (rowCmd src op p).route status data = s.answered status [] := by
  simp [State.reply, rowCmd, h, State.editLemam, State.answered]

/-- No deferred command holds one of some queues or channels (R482). -/
def State.unheld (s : State) (queues channels : List Nat) : Prop :=
  ∀ f ∈ s.lemam.deferred, (∀ n ∈ channels, n ∉ f.channels) ∧ (∀ q ∈ queues, q ∉ f.queues)

theorem State.unheld_nil (s : State) : s.unheld [] [] := fun _ _ => ⟨fun _ h => by simp at h, fun _ h => by simp at h⟩

theorem State.heldByDeferred_unheld (s : State) (c : Cmd) (h : s.unheld (s.cmdQueues c) c.channels) : s.heldByDeferred c = false := by
  unfold State.heldByDeferred
  rw [List.any_eq_false]
  intro f hf
  obtain ⟨hn, hq⟩ := h f hf
  simpa using ⟨hn, hq⟩

/-- What R480 asks of a command before it runs, SPARE_ENGAGE apart. -/
structure State.Passes (s : State) (c : Cmd) : Prop where
  source : sourceCode c.route.src ∈ cmdSources c.route.opcode
  allowed : s.cmdDenied c = false
  mode : s.cmdMode c = true
  header : c.headerGood = true
  values : s.cmdValues c = true
  unlocked : s.cmdLocked c = false

theorem State.cmdCheck_of_passes (s : State) (c : Cmd) (h : s.Passes c) (hop : c.route.opcode ≠ 0x31) (hbusy : s.cmdBusy c = false)
    (hshort : s.cmdShort c = false) : s.cmdCheck c = 0 := by
  obtain ⟨hsrc, hden, hmode, hhead, hval, hlock⟩ := h
  have hne : cmdSources c.route.opcode ≠ [] := fun e => by simp [e] at hsrc
  simp [State.cmdCheck, hne, hsrc, hden, hmode, hhead, hval, hlock, hop, hbusy, hshort]

theorem State.cmdCheck_of_spare (s : State) (c : Cmd) (h : s.Passes c) (hop : c.route.opcode = 0x31) (hspare : s.spareCheck c = 0) :
    s.cmdCheck c = 0 := by
  obtain ⟨hsrc, hden, hmode, hhead, hval, hlock⟩ := h
  have hne : cmdSources c.route.opcode ≠ [] := fun e => by simp [e] at hsrc
  simp only [hop] at hsrc hne
  simp [State.cmdCheck, hne, hsrc, hden, hmode, hhead, hval, hlock, hop, hspare]

/-- A row whose command passes is what the command does. -/
theorem State.row_runs (s : State) (src : CmdSource) (op : Nat) (p : List Byte) (hrun : s.lemamRuns = true)
    (h : s.Passes (rowCmd src op p)) (hop : op ≠ 0x31) (hbusy : s.cmdBusy (rowCmd src op p) = false)
    (hshort : s.cmdShort (rowCmd src op p) = false) : s.row src op p = s.cmdRun (rowCmd src op p) :=
  s.row_passed src op p hrun (s.cmdCheck_of_passes _ h hop hbusy hshort)

/-- The header of a row is good once its parameters have the length that their command asks for. -/
theorem rowCmd_headerGood (src : CmdSource) (op : Nat) (p : List Byte) (h : p.length ≤ 4080)
    (hlen : ∀ n, cmdLength op = some n → p.length = n) : (rowCmd src op p).headerGood = true := by
  cases e : cmdLength op with
  | none => simp [Cmd.headerGood, rowCmd, e, h]
  | some n =>
    have hn := hlen n e
    have h' : n ≤ 4080 := hn ▸ h
    simp [Cmd.headerGood, rowCmd, e, hn, h']

/-! ### Commands without conditions of their own -/

/-- What every row asks of its source (R485): the lifecycle is not RETURN, the source is listed, and MGMT is in SERVICE. -/
def State.takes (s : State) (src : CmdSource) (from_ : List Nat) : Prop :=
  s.enc.state ≠ 3 ∧ sourceCode src ∈ from_ ∧ (src = .mgmt → s.mode = modeService)

/-- A source other than MGMT. -/
theorem mgmt_of_code {src : CmdSource} {P : Prop} (h : sourceCode src ≠ 4) : src = .mgmt → P := fun e => absurd (e ▸ rfl) h

/-- The commands whose source needs no more than a place in the list. -/
def openOps : List Nat :=
  [0x01, 0x11, 0x21, 0x30, 0x31, 0x41, 0x50, 0x51, 0x52, 0x53, 0x54, 0x55, 0x56, 0x70, 0x71, 0x80, 0x81, 0x90, 0x91, 0xA0]

theorem State.cmdDenied_open (s : State) (src : CmdSource) (op : Nat) (p : List Byte) (hop : op ∈ openOps) (h : s.enc.state ≠ 3) :
    s.cmdDenied (rowCmd src op p) = false := by
  have hret : ¬ s.enc.state = lifeReturn := h
  simp only [openOps, List.mem_cons, List.not_mem_nil, or_false] at hop
  rcases hop with h | h | h | h | h | h | h | h | h | h | h | h | h | h | h | h | h | h | h | h <;>
    simp [State.cmdDenied, rowCmd, hret, h]

/-- A command whose source needs no more than a place in the list passes once its mode, parameters and locks allow it. -/
theorem State.passes_open (s : State) (src : CmdSource) (op : Nat) (p : List Byte) (hop : op ∈ openOps)
    (hmay : s.takes src (cmdSources op)) (hmode : s.cmdMode (rowCmd src op p) = true) (hhead : (rowCmd src op p).headerGood = true)
    (hval : s.cmdValues (rowCmd src op p) = true) (hlock : s.cmdLocked (rowCmd src op p) = false) : s.Passes (rowCmd src op p) :=
  { source := hmay.2.1, allowed := s.cmdDenied_open src op p hop hmay.1, mode := hmode, header := hhead, values := hval, unlocked := hlock }

/-- The commands that every mode permits. -/
def anyModeOps : List Nat := [0x01, 0x02, 0x11, 0x21, 0x30, 0x40, 0x41, 0x91, 0xF0, 0xB1]

theorem State.cmdMode_any (s : State) (src : CmdSource) (op : Nat) (p : List Byte) (hop : op ∈ anyModeOps)
    (hmgmt : src = .mgmt → s.mode = modeService) : s.cmdMode (rowCmd src op p) = true := by
  simp only [anyModeOps, List.mem_cons, List.not_mem_nil, or_false] at hop
  rcases hop with h | h | h | h | h | h | h | h | h | h <;> simp [State.cmdMode, rowCmd, h, mgmt_mode s src hmgmt]

/-- The commands of the operating modes. -/
def opModeOps : List Nat :=
  [0x20, 0x51, 0x52, 0x54, 0x56, 0x60, 0x61, 0x62, 0x63, 0x64, 0x70, 0x71, 0x72, 0x80, 0x90, 0xA0, 0xC0]

theorem State.cmdMode_op (s : State) (src : CmdSource) (op : Nat) (p : List Byte) (hop : op ∈ opModeOps)
    (hmgmt : src = .mgmt → s.mode = modeService) (hm : 3 ≤ s.mode ∧ s.mode ≤ 7) : s.cmdMode (rowCmd src op p) = true := by
  have hopm : opMode s.mode = true := by simpa [opMode] using hm
  simp only [opModeOps, List.mem_cons, List.not_mem_nil, or_false] at hop
  rcases hop with h | h | h | h | h | h | h | h | h | h | h | h | h | h | h | h | h <;>
    simp [State.cmdMode, rowCmd, h, mgmt_mode s src hmgmt, hopm]

/-- The commands that conflict with nothing and need no resource. -/
def freeOps : List Nat :=
  [0x01, 0x02, 0x11, 0x21, 0x30, 0x40, 0x41, 0x50, 0x70, 0x71, 0x72, 0x80, 0x81, 0x90, 0x91, 0xB0, 0xB1, 0xC0, 0xF0]

theorem State.row_free (s : State) (src : CmdSource) (op : Nat) (p : List Byte) (hrun : s.lemamRuns = true)
    (h : s.Passes (rowCmd src op p)) (hop : op ∈ freeOps) : s.row src op p = s.cmdRun (rowCmd src op p) := by
  have hnames : s.cmdQueues (rowCmd src op p) = [] ∧ (rowCmd src op p).channels = [] ∧ op ≠ 0x31 ∧ s.cmdShort (rowCmd src op p) = false ∧
      (s.heldByDeferred (rowCmd src op p) = false → s.cmdBusy (rowCmd src op p) = false) := by
    simp only [freeOps, List.mem_cons, List.not_mem_nil, or_false] at hop
    rcases hop with h | h | h | h | h | h | h | h | h | h | h | h | h | h | h | h | h | h | h <;> subst h <;>
      refine ⟨rfl, rfl, by decide, rfl, fun hheld => ?_⟩ <;> simp [State.cmdBusy, rowCmd, cmdDefers] <;> exact hheld
  obtain ⟨hq, hc, h31, hshort, hbusy⟩ := hnames
  refine s.row_runs src op p hrun h h31 (hbusy (s.heldByDeferred_unheld _ ?_)) hshort
  rw [hq, hc]
  exact s.unheld_nil

/-! ### The reading commands -/

theorem State.exec_echo (s : State) (src : CmdSource) (p : List Byte) (hrun : s.lemamRuns = true) (hmay : s.takes src [0, 1, 2, 3, 4])
    (hp : p.length ≤ 4080) : exec (.echo src p) s = .next (s.answered 0 p) := by
  have hexec : exec (.echo src p) s = .next (s.row src 0x01 p) := rfl
  have hpass : s.Passes (rowCmd src 0x01 p) :=
    s.passes_open src 0x01 p (by decide) hmay (s.cmdMode_any src 0x01 p (by decide) hmay.2.2)
      (rowCmd_headerGood src 0x01 p hp (by simp [cmdLength])) rfl rfl
  rw [hexec, s.row_free src 0x01 p hrun hpass (by decide)]
  rfl

theorem State.infoBytes_eq (s : State) : s.infoBytes =
    toBytes 4 0x7200 ++ [0xA1, Config.romVersion] ++ toBytes 2 s.modes.patch ++ toBytes 1 s.enc.state ++
      toBytes 1 s.mode ++ toBytes 1 (s.rf cmdStatus 8 8) ++ [0] ++ toBytes 4 (s.capacity / 2 ^ 30) ++ toBytes 2 (96 - s.modes.lostCores.length) ++
      toBytes 2 (256 - s.modes.lostPcs.length) ++ List.replicate 12 0 := by
  have hbit : s.rf cmdStatus 8 8 / 256 = 0 := Nat.div_eq_of_lt ((Nat.mod_lt _ (by decide)).trans (by decide))
  have hside : toBytes 2 (s.rf cmdStatus 8 8) = toBytes 1 (s.rf cmdStatus 8 8) ++ [0] := by simp [toBytes, hbit]
  have hzero : toBytes 12 0 = List.replicate 12 0 := by decide
  rw [State.infoBytes, hside, hzero]
  simp only [List.append_assoc]

theorem State.modeBytes_eq (s : State) : s.modeBytes =
    toBytes 1 s.mode ++ toBytes 1 (s.rf Reg.PVT_MODE 6 4) ++ toBytes 1 (s.rf Reg.PVT_MODE 15 8) ++ [0] ++ toBytes 8 (s.rd Reg.PVT_MODE_GT) := by
  have hcause : s.rf Reg.PVT_MODE 15 8 / 256 = 0 := Nat.div_eq_of_lt (Nat.mod_lt _ (by decide))
  have hbytes : toBytes 2 (s.rf Reg.PVT_MODE 15 8) = toBytes 1 (s.rf Reg.PVT_MODE 15 8) ++ [0] := by simp [toBytes, hcause]
  rw [State.modeBytes, hbytes]
  simp only [List.append_assoc]

theorem sourceCode_mem (src : CmdSource) : sourceCode src ∈ [0, 1, 2, 3, 4] := by
  cases src with
  | ring j =>
    by_cases hj : j.val < 16 <;> simp [sourceCode, hj]
  | spi => decide
  | peer j pl3 => simp [sourceCode]
  | mgmt => decide

theorem State.exec_getInfo (s : State) (src : CmdSource) (hrun : s.lemamRuns = true) (hmgmt : src = .mgmt → s.mode = modeService) :
    exec (.getInfo src) s = .next (s.answered 0 s.infoBytes) := by
  have hexec : exec (.getInfo src) s = .next (s.row src 0x02 []) := rfl
  have hpass : s.Passes (rowCmd src 0x02 []) :=
    { source := sourceCode_mem src
      allowed := by simp [State.cmdDenied, rowCmd]
      mode := s.cmdMode_any src 0x02 [] (by decide) hmgmt
      header := rfl
      values := rfl
      unlocked := rfl }
  rw [hexec, s.row_free src 0x02 [] hrun hpass (by decide)]
  rfl

theorem State.exec_modeGet (s : State) (src : CmdSource) (hrun : s.lemamRuns = true) (hmay : s.takes src [0, 1, 2, 3, 4]) :
    exec (.modeGet src) s = .next (s.answered 0 s.modeBytes) := by
  have hexec : exec (.modeGet src) s = .next (s.row src 0x11 []) := rfl
  have hpass : s.Passes (rowCmd src 0x11 []) :=
    s.passes_open src 0x11 [] (by decide) hmay (s.cmdMode_any src 0x11 [] (by decide) hmay.2.2) rfl rfl rfl
  rw [hexec, s.row_free src 0x11 [] hrun hpass (by decide)]
  rfl

/-! PVT_READ -/

theorem State.monitorBytes_eq (s : State) (a : Byte) (first count : Nat) (ha : a < 4) : s.monitorBytes a.toNat first count =
    (List.range count).flatMap fun k => toBytes 4 (s.rd
      ((if a = 0 then Reg.PVT_TS else if a = 1 then Reg.PVT_VM else if a = 2 then Reg.PVT_PM else Reg.PVT_AM) (first + k))) := by
  have hkind : a = 0 ∨ a = 1 ∨ a = 2 ∨ a = 3 := by bv_omega
  rcases hkind with rfl | rfl | rfl | rfl <;> rfl

theorem monitorCount_eq (a : Byte) (ha : a < 4) :
    monitorCount a.toNat = if a = 0 then 64 else if a = 1 then 32 else if a = 2 then 16 else 24 := by
  have hkind : a = 0 ∨ a = 1 ∨ a = 2 ∨ a = 3 := by bv_omega
  rcases hkind with rfl | rfl | rfl | rfl <;> rfl

theorem State.exec_pvtRead (s : State) (src : CmdSource) (a b d : Byte) (hrun : s.lemamRuns = true) (hmay : s.takes src [0, 1, 2, 3, 4])
    (h1 : 1 ≤ d) (h64 : d ≤ 64) (hrange : b.toNat + d.toNat ≤ monitorCount a.toNat) :
    exec (.pvtRead src a b d) s = .next (s.answered 0 (s.monitorBytes a.toNat b.toNat d.toNat)) := by
  have hexec : exec (.pvtRead src a b d) s = .next (s.row src 0x21 [a, b, d, 0]) := rfl
  have hd : 1 ≤ d.toNat ∧ d.toNat ≤ 64 := by bv_omega
  have hval : s.cmdValues (rowCmd src 0x21 [a, b, d, 0]) = true := by
    simp [State.cmdValues, rowCmd, Cmd.par, hd, hrange]
  have hpass : s.Passes (rowCmd src 0x21 [a, b, d, 0]) :=
    s.passes_open src 0x21 _ (by decide) hmay (s.cmdMode_any src 0x21 _ (by decide) hmay.2.2) rfl hval rfl
  rw [hexec, s.row_free src 0x21 _ hrun hpass (by decide)]
  rfl

/-! SPARE_STATUS -/

theorem spareRecord_length (group spares failed absent : Nat) (replaced : List Nat) :
    (spareRecord group spares failed absent replaced).length = 24 := by
  simp [spareRecord, List.length_flatMap]

theorem State.spareRecords_length (s : State) (kind q : Nat) : ∀ r ∈ s.spareRecords kind q, r.length = 24 := by
  intro r hr
  unfold State.spareRecords at hr
  split at hr <;> simp only [List.mem_map, List.mem_singleton] at hr
  · obtain ⟨c, -, rfl⟩ := hr
    exact spareRecord_length _ _ _ _ _
  · obtain ⟨c, -, rfl⟩ := hr
    exact spareRecord_length _ _ _ _ _
  all_goals subst hr; exact spareRecord_length _ _ _ _ _

theorem State.spareRecords_count (s : State) (kind q : Nat) : (s.spareRecords kind q).length < 256 := by
  unfold State.spareRecords
  split <;> simp

theorem State.spareReply_eq (s : State) (a b : Byte) : ∃ n r,
    s.spareReply a.toNat b.toNat = [a, b, n, 0, 0, 0, 0, 0] ++ r ∧ r.length = 24 * n.toNat := by
  refine ⟨BitVec.ofNat 8 (s.spareRecords a.toNat b.toNat).length, (s.spareRecords a.toNat b.toNat).flatten, ?_, ?_⟩
  · simp [State.spareReply, toBytes]
  · rw [List.length_flatten, List.map_congr_left (s.spareRecords_length a.toNat b.toNat)]
    have hn := s.spareRecords_count a.toNat b.toNat
    simp [Nat.mod_eq_of_lt hn, Nat.mul_comm]

theorem State.exec_spareStatus (s : State) (src : CmdSource) (a b : Byte) (hrun : s.lemamRuns = true) (hmay : s.takes src [0, 1, 2, 3, 4])
    (hab : (a < 4 ∧ b < 4) ∨ (a = 10 ∧ b = 4)) :
    exec (.spareStatus src a b) s = .next (s.answered 0 (s.spareReply a.toNat b.toNat)) := by
  have hexec : exec (.spareStatus src a b) s = .next (s.row src 0x30 [a, b, 0, 0]) := rfl
  have hgroup : statusParams a.toNat b.toNat = true := by
    rcases hab with ⟨ha, hb⟩ | ⟨rfl, rfl⟩
    · have h : a.toNat < 4 ∧ b.toNat < 4 := by bv_omega
      simp [statusParams, h]
    · rfl
  have hval : s.cmdValues (rowCmd src 0x30 [a, b, 0, 0]) = true := by
    simp [State.cmdValues, rowCmd, Cmd.par, hgroup, ofBytes]
  have hpass : s.Passes (rowCmd src 0x30 [a, b, 0, 0]) :=
    s.passes_open src 0x30 _ (by decide) hmay (s.cmdMode_any src 0x30 _ (by decide) hmay.2.2) rfl hval rfl
  rw [hexec, s.row_free src 0x30 _ hrun hpass (by decide)]
  rfl

/-! CONTACT_READ -/

/-- What CONTACT_READ answers stands in the ring, and is no more than was asked for. -/
theorem Sheet.answer_mem (x : Sheet) (first : Word32) (count : Nat) :
    (x.answer first count).length ≤ count ∧ ∀ e ∈ x.answer first count, e ∈ x.ring := by
  unfold Sheet.answer
  dsimp only
  split
  · simp
  · refine ⟨?_, fun e he => ?_⟩
    · exact (List.length_filterMap_le _ _).trans (by simp)
    · obtain ⟨k, -, hk⟩ := List.mem_filterMap.mp he
      exact List.mem_of_find?_eq_some hk

theorem State.exec_contactRead (s : State) (src : CmdSource) (x : Word32) (a : Byte) (hrun : s.lemamRuns = true)
    (hmgmt : src = .mgmt → s.mode = modeService) (h1 : 1 ≤ a) (h127 : a ≤ 127) :
    exec (.contactRead src x a) s = .next (s.answered 0 (s.contactBytes x a.toNat)) := by
  have hexec : exec (.contactRead src x a) s = .next (s.row src 0x40 (toBytes 4 x.toNat ++ a :: toBytes 3 0)) := rfl
  have ha : 1 ≤ a.toNat ∧ a.toNat ≤ 127 := by bv_omega
  have hfirst : (rowCmd src 0x40 (toBytes 4 x.toNat ++ a :: toBytes 3 0)).par 0 4 = x.toNat :=
    ofBytes_toBytes_append 4 x.toNat _ (by have := x.isLt; omega)
  have hcount : (rowCmd src 0x40 (toBytes 4 x.toNat ++ a :: toBytes 3 0)).par 4 1 = a.toNat := by
    simp [rowCmd_par, toBytes]
  have hval : s.cmdValues (rowCmd src 0x40 (toBytes 4 x.toNat ++ a :: toBytes 3 0)) = true := by
    simp [State.cmdValues, rowCmd, Cmd.par, toBytes, ofBytes, ha]
  have hpass : s.Passes (rowCmd src 0x40 (toBytes 4 x.toNat ++ a :: toBytes 3 0)) :=
    { source := sourceCode_mem src
      allowed := by simp [State.cmdDenied, rowCmd]
      mode := s.cmdMode_any src 0x40 _ (by decide) hmgmt
      header := rfl
      values := hval
      unlocked := rfl }
  rw [hexec, s.row_free src 0x40 _ hrun hpass (by decide)]
  have hdo : s.cmdRun (rowCmd src 0x40 (toBytes 4 x.toNat ++ a :: toBytes 3 0)) =
      s.answered 0 (s.contactBytes (BitVec.ofNat 32 ((rowCmd src 0x40 (toBytes 4 x.toNat ++ a :: toBytes 3 0)).par 0 4))
        ((rowCmd src 0x40 (toBytes 4 x.toNat ++ a :: toBytes 3 0)).par 4 1)) := rfl
  rw [hdo, hfirst, hcount]
  simp

/-! PAIR_STATUS -/

theorem State.pairBytes_length (s : State) : s.pairBytes.length = 64 := by
  simp [State.pairBytes, List.length_flatMap]

theorem State.exec_pairStatus (s : State) (src : CmdSource) (hrun : s.lemamRuns = true) (hmay : s.takes src [0, 1, 2, 3]) :
    exec (.pairStatus src) s = .next (s.answered 0 s.pairBytes) := by
  have hexec : exec (.pairStatus src) s = .next (s.row src 0x91 []) := rfl
  have hpass : s.Passes (rowCmd src 0x91 []) :=
    s.passes_open src 0x91 [] (by decide) hmay (s.cmdMode_any src 0x91 [] (by decide) hmay.2.2) rfl rfl rfl
  rw [hexec, s.row_free src 0x91 [] hrun hpass (by decide)]
  rfl

/-! ### CONFIG_CHECKSUM and LOCK_REGION -/

theorem areaParams_par (src : CmdSource) (op : Nat) (h : BitVec 16) (x y : Word32) :
    (rowCmd src op (areaParams h x y)).par 0 2 = h.toNat ∧ (rowCmd src op (areaParams h x y)).par 2 2 = 0 ∧
      (rowCmd src op (areaParams h x y)).par 4 4 = x.toNat ∧ (rowCmd src op (areaParams h x y)).par 8 4 = y.toNat := by
  have hh := h.isLt
  have hx := x.isLt
  have hy := y.isLt
  refine ⟨?_, rfl, ?_, ?_⟩
  · exact ofBytes_toBytes 2 h.toNat (by omega)
  · exact ofBytes_toBytes 4 x.toNat (by omega)
  · exact ofBytes_toBytes 4 y.toNat (by omega)

/-- The units are there, and those of an enclave are named at PL3 only (R483). -/
def State.areaNamed (s : State) (src : CmdSource) (h : BitVec 16) (x y : Word32) : Prop :=
  1 ≤ y.toNat ∧ x.toNat + y.toNat ≤ areaUnits h.toNat ∧ (sourcePl3 src = true ∨ ∀ k < y.toNat, s.unitEid h.toNat (x.toNat + k) = 0)

theorem State.areaNamed_there {s : State} {src : CmdSource} {h : BitVec 16} {x y : Word32} (hn : s.areaNamed src h x y) :
    areaThere h.toNat x.toNat y.toNat = true := by
  simpa [areaThere] using ⟨hn.1, hn.2.1⟩

theorem State.areaNamed_open {s : State} {src : CmdSource} {h : BitVec 16} {x y : Word32} (hn : s.areaNamed src h x y) :
    (s.areaGuarded h.toNat x.toNat y.toNat && !sourcePl3 src) = false := by
  obtain ⟨-, -, hpl | heid⟩ := hn
  · simp [hpl]
  · have hnone : s.areaGuarded h.toNat x.toNat y.toNat = false := by
      simp only [State.areaGuarded, Bool.and_eq_false_iff, List.any_eq_false, List.mem_range]
      exact .inr fun k hk => by simp [heid k hk]
    simp [hnone]

theorem State.exec_configChecksum (s : State) (src : CmdSource) (h : BitVec 16) (x y : Word32) (hrun : s.lemamRuns = true)
    (hmay : s.takes src [0, 1, 2, 3, 4]) (hn : s.areaNamed src h x y) : exec (.configChecksum src h x y) s =
      .next (s.answered 0 (toBytes 4 (crc32c (s.areaBytes h.toNat x.toNat y.toNat)).toNat ++
        toBytes 4 (s.areaBytes h.toNat x.toNat y.toNat).length)) := by
  have hexec : exec (.configChecksum src h x y) s = .next (s.row src 0xF0 (areaParams h x y)) := rfl
  obtain ⟨hret, hsrc, hmgmt⟩ := hmay
  have hlife : ¬ s.enc.state = lifeReturn := hret
  obtain ⟨hh, hz, hx, hy⟩ := areaParams_par src 0xF0 h x y
  have hden : s.cmdDenied (rowCmd src 0xF0 (areaParams h x y)) = false := by
    have hopen := State.areaNamed_open hn
    rw [← hh, ← hx, ← hy] at hopen
    simpa [State.cmdDenied, hlife] using hopen
  have hval : s.cmdValues (rowCmd src 0xF0 (areaParams h x y)) = true := by
    simp [State.cmdValues, hh, hz, hx, hy, State.areaNamed_there hn]
  have hpass : s.Passes (rowCmd src 0xF0 (areaParams h x y)) :=
    { source := hsrc, allowed := hden, mode := s.cmdMode_any src 0xF0 _ (by decide) hmgmt, header := rfl, values := hval, unlocked := rfl }
  rw [hexec, s.row_free src 0xF0 _ hrun hpass (by decide), ← hh, ← hx, ← hy]
  rfl

/-- The units that a list of locks adds. -/
theorem locks_foldl (more l : List (Nat × Nat)) :
    ∀ u, u ∈ more.foldl (fun l x => if l.contains x then l else l ++ [x]) l ↔ u ∈ l ∨ u ∈ more := by
  induction more generalizing l with
  | nil => simp
  | cons x more ih =>
    intro u
    rw [List.foldl_cons, ih]
    by_cases hx : x ∈ l
    · rw [if_pos (by simpa using hx)]
      grind
    · rw [if_neg (by simpa using hx)]
      simp [or_assoc]

theorem State.mem_lockArea (s : State) (area first count : Nat) (u : Nat × Nat) :
    u ∈ (s.lockArea area first count).locks ↔ u ∈ s.locks ∨ ∃ k < count, u = (area, first + k) := by
  rw [State.lockArea, locks_foldl]
  simp [eq_comm]

theorem State.exec_lockRegion (s : State) (src : CmdSource) (h : BitVec 16) (x y : Word32) (hrun : s.lemamRuns = true)
    (hmay : s.takes src [0, 1, 2]) (hop : 3 ≤ s.mode ∧ s.mode ≤ 7) (h18 : h.toNat ≤ 18) (hn : s.areaNamed src h x y) :
    exec (.lockRegion src h x y) s = .next ((s.lockArea h.toNat x.toNat y.toNat).answered 0 []) := by
  have hexec : exec (.lockRegion src h x y) s = .next (s.row src 0xC0 (areaParams h x y)) := rfl
  obtain ⟨hret, hsrc, hmgmt⟩ := hmay
  have hlife : ¬ s.enc.state = lifeReturn := hret
  obtain ⟨hh, hz, hx, hy⟩ := areaParams_par src 0xC0 h x y
  have hden : s.cmdDenied (rowCmd src 0xC0 (areaParams h x y)) = false := by
    have hopen := State.areaNamed_open hn
    rw [← hh, ← hx, ← hy] at hopen
    simpa [State.cmdDenied, hlife] using hopen
  have hval : s.cmdValues (rowCmd src 0xC0 (areaParams h x y)) = true := by
    simp [State.cmdValues, hh, hz, hx, hy, h18, State.areaNamed_there hn]
  have hpass : s.Passes (rowCmd src 0xC0 (areaParams h x y)) :=
    { source := hsrc, allowed := hden, mode := s.cmdMode_op src 0xC0 _ (by decide) hmgmt hop, header := rfl, values := hval, unlocked := rfl }
  rw [hexec, s.row_free src 0xC0 _ hrun hpass (by decide), ← hh, ← hx, ← hy]
  rfl

/-! ### Fields beside the one written -/

theorem State.rf_wf_out (s : State) {a hi lo h' l' : Nat} (v : Nat) (hl : lo ≤ hi) (hi64 : hi < 64) (h : h' < lo ∨ hi < l') (hh : l' ≤ h') :
    (s.wf a hi lo v).rf a h' l' = s.rf a h' l' := by
  rw [State.rf, State.rd_wf_same s a hi lo v hl hi64, fld_putFld_ne _ _ _ _ _ _ hl (by omega) hh, State.rf]

theorem State.rf_wf_ne (s : State) {a b hi lo h' l' : Nat} (v : Nat) (h : a ≠ b) : (s.wf a hi lo v).rf b h' l' = s.rf b h' l' :=
  State.rf_congr (State.rd_wf_ne s hi lo v h) h' l'

theorem State.rf_wr_ne (s : State) {a b h' l' : Nat} (v : Nat) (h : a ≠ b) : (s.wr a v).rf b h' l' = s.rf b h' l' :=
  State.rf_congr (State.rd_wr_ne s v h) h' l'

/-! ### Entering a mode -/

/-- PVT_MODE, PVT_MODE_GT as a change of mode leaves them, before its entry on the contact sheet. -/
def State.modeShown (s : State) (m cause : Nat) : State :=
  (((s.wf Reg.PVT_MODE 6 4 s.mode).wf Reg.PVT_MODE 15 8 cause).wf Reg.PVT_MODE 2 0 m).wr Reg.PVT_MODE_GT s.now

/-- SAFE_N and PAIR_OK as a mode asks for them. -/
def State.signalsOf (s : State) (m : Nat) : State :=
  { s with modes := { s.modes with safeN := m = modeOff ∨ m = modePreflash ∨ m = modeSafeHold ∨ m = modeService, pairOk := m = modePaired } }

@[simp] theorem State.signalsOf_regs (s : State) (m : Nat) : (s.signalsOf m).regs = s.regs := rfl
@[simp] theorem State.signalsOf_mem (s : State) (m : Nat) : (s.signalsOf m).mem = s.mem := rfl
@[simp] theorem State.signalsOf_clk (s : State) (m : Nat) : (s.signalsOf m).clk = s.clk := rfl
theorem State.signalsOf_modes (s : State) (m : Nat) : (s.signalsOf m).modes =
    { s.modes with safeN := m = modeOff ∨ m = modePreflash ∨ m = modeSafeHold ∨ m = modeService, pairOk := m = modePaired } := rfl

theorem State.enterMode_log (s : State) (m cause : Nat) : s.enterMode m cause =
    ((s.modeShown m cause).signalsOf m).log .modeChange (dieUnit 23 0) (m + s.mode * 2 ^ 8 + cause * 2 ^ 16) := rfl

theorem State.log_clk (s : State) (c : SheetClass) (unit : Word32) (addr : Nat) : (s.log c unit addr).clk = s.clk := by
  rw [State.log_eq]

theorem State.log_modes (s : State) (c : SheetClass) (unit : Word32) (addr : Nat) : (s.log c unit addr).modes = s.modes := by
  rw [State.log_eq]

theorem State.enterMode_regs (s : State) (m cause : Nat) : (s.enterMode m cause).regs = (s.modeShown m cause).regs := by
  rw [State.enterMode_log, State.log_regs, State.signalsOf_regs]

theorem State.enterMode_modes (s : State) (m cause : Nat) : (s.enterMode m cause).modes =
    { s.modes with safeN := m = modeOff ∨ m = modePreflash ∨ m = modeSafeHold ∨ m = modeService, pairOk := m = modePaired } := by
  rw [State.enterMode_log, State.log_modes, State.signalsOf_modes]
  simp [State.modeShown]

theorem State.enterMode_mem (s : State) (m cause : Nat) : (s.enterMode m cause).mem = s.mem := by
  rw [State.enterMode_log, State.log_mem]
  simp [State.modeShown]

theorem State.enterMode_clk (s : State) (m cause : Nat) : (s.enterMode m cause).clk = s.clk := by
  rw [State.enterMode_log, State.log_clk]
  simp [State.modeShown]

theorem State.enterMode_mode (s : State) (m cause : Nat) (hm : m < 8) : (s.enterMode m cause).mode = m := by
  have h : (s.modeShown m cause).mode = m % 2 ^ (2 - 0 + 1) := by
    rw [State.mode, State.modeShown, State.rf_wr_ne _ _ (by decide), State.rf_wf_same _ _ _ _ _ (by decide) (by decide)]
  rw [State.mode, State.rf_congr (State.rd_congr (s.enterMode_regs m cause) _), ← State.mode, h]
  exact Nat.mod_eq_of_lt hm

theorem State.enterMode_cause (s : State) (m cause : Nat) (hc : cause < 256) : (s.enterMode m cause).rf Reg.PVT_MODE 15 8 = cause := by
  rw [State.rf_congr (State.rd_congr (s.enterMode_regs m cause) _), State.modeShown, State.rf_wr_ne _ _ (by decide),
    State.rf_wf_out _ _ (by decide) (by decide) (by decide) (by decide), State.rf_wf_same _ _ _ _ _ (by decide) (by decide)]
  exact Nat.mod_eq_of_lt hc

theorem State.mode_lt (s : State) : s.mode < 8 := Nat.mod_lt _ (by decide)

theorem State.enterMode_prev (s : State) (m cause : Nat) : (s.enterMode m cause).rf Reg.PVT_MODE 6 4 = s.mode := by
  rw [State.rf_congr (State.rd_congr (s.enterMode_regs m cause) _), State.modeShown, State.rf_wr_ne _ _ (by decide),
    State.rf_wf_out _ _ (by decide) (by decide) (by decide) (by decide),
    State.rf_wf_out _ _ (by decide) (by decide) (by decide) (by decide), State.rf_wf_same _ _ _ _ _ (by decide) (by decide)]
  exact Nat.mod_eq_of_lt s.mode_lt

theorem State.enterMode_kept (s : State) (m cause : Nat) : s.regsKept (s.enterMode m cause) [Reg.PVT_MODE, Reg.PVT_MODE_GT] := by
  intro a ha
  have hmode : Reg.PVT_MODE ≠ a := fun e => ha (by simp [e])
  have hgt : Reg.PVT_MODE_GT ≠ a := fun e => ha (by simp [e])
  rw [State.rd_congr (s.enterMode_regs m cause), State.modeShown, State.rd_wr_ne _ _ hgt, State.rd_wf_ne _ _ _ _ hmode,
    State.rd_wf_ne _ _ _ _ hmode, State.rd_wf_ne _ _ _ _ hmode]

/-! ### Entry to SAFE_HOLD -/

/-- Only the agenda has changed. -/
def AgendaStep (s t : State) : Prop := t = { s with agenda := t.agenda }

theorem AgendaStep.refl (s : State) : AgendaStep s s := rfl

theorem AgendaStep.trans {s t u : State} (h : AgendaStep s t) (k : AgendaStep t u) : AgendaStep s u := by
  unfold AgendaStep at *
  rw [k, h]

theorem AgendaStep.after (s : State) (ns : Nat) (a : Act) : AgendaStep s (s.after ns a) := rfl

theorem AgendaStep.send (s : State) (ns : Nat) (i : Instr) : AgendaStep s (s.send ns i) := rfl

theorem AgendaStep.foldl {α : Type} {f : State → α → State} (hf : ∀ s x, AgendaStep s (f s x)) (l : List α) (s : State) :
    AgendaStep s (l.foldl f s) := by
  induction l generalizing s with
  | nil => exact .refl s
  | cons x l ih => exact (hf s x).trans (ih _)

theorem AgendaStep.signalSafeHold (s : State) : AgendaStep s s.signalSafeHold :=
  .foldl (fun s c => by split <;> rfl) _ s

/-- Only the pins and the agenda have changed. -/
def PinStep (s t : State) : Prop := t = { s with pins := t.pins, agenda := t.agenda }

theorem PinStep.trans {s t u : State} (h : PinStep s t) (k : PinStep t u) : PinStep s u := by
  unfold PinStep at *
  rw [k, h]

theorem PinStep.foldl {α : Type} {f : State → α → State} (hf : ∀ s x, PinStep s (f s x)) (l : List α) (s : State) :
    PinStep s (l.foldl f s) := by
  induction l generalizing s with
  | nil => rfl
  | cons x l ih => exact (hf s x).trans (ih _)

theorem PinStep.allPinsSafe (s : State) : PinStep s s.allPinsSafe :=
  .foldl (fun s p => by split <;> rfl) _ s

/-- Only what the gate, the network and the pair link hold has changed, registers but PAIR_STATUS and PAIR_GATE_USED included. -/
def GateStep (s t : State) : Prop :=
  t = { s with regs := t.regs, net := t.net, pair := t.pair, agenda := t.agenda } ∧ s.regsKept t [Reg.PAIR_STATUS, Reg.PAIR_GATE_USED]

theorem GateStep.refl (s : State) : GateStep s s := ⟨rfl, fun _ _ => rfl⟩

theorem GateStep.trans {s t u : State} (h : GateStep s t) (k : GateStep t u) : GateStep s u := by
  refine ⟨?_, h.2.trans k.2⟩
  obtain ⟨ht, -⟩ := h
  obtain ⟨hu, -⟩ := k
  rw [hu, ht]

theorem GateStep.wr (s : State) {a : Nat} (v : Nat) (ha : a ∈ [Reg.PAIR_STATUS, Reg.PAIR_GATE_USED]) : GateStep s (s.wr a v) :=
  ⟨rfl, .wr (fun _ _ => rfl) ha⟩

theorem GateStep.releaseGated (s : State) (q : Nat) : GateStep s (s.releaseGated q false) := by
  unfold State.releaseGated
  split
  · exact ⟨rfl, fun _ _ => rfl⟩
  · exact .refl s

theorem GateStep.gateClose (s : State) : GateStep s s.gateClose := by
  have hfold : ∀ (l : List (Nat × Nat × Nat × List Byte × TxFrom)) (s : State),
      GateStep s (l.foldl (fun s e => s.releaseGated e.1 false) s) := by
    intro l
    induction l with
    | nil => exact GateStep.refl
    | cons e l ih => exact fun s => (GateStep.releaseGated s e.1).trans (ih _)
  have hedit : ∀ s : State, GateStep s (s.editPair fun p => { p with items := [], peers := [], agreed := [] }) :=
    fun s => ⟨rfl, fun _ _ => rfl⟩
  exact (((hfold _ s).trans (hedit _)).trans (.wr _ _ (by decide))).trans ((GateStep.wr _ _ (by decide)).trans (.wr _ _ (by decide)))

/-! ### MODE_SET (R496 to R501) -/

/-- What the source of a MODE_SET must be (R497). -/
structure State.MaySetMode (s : State) (src : CmdSource) (a : Byte) : Prop where
  life : s.enc.state ≠ 3
  source : sourceCode src ∈ [0, 1, 2, 3]
  peer : sourceCode src = 3 → a = 6
  service : (a = 7 ↔ s.mode = modeService) ∨ sourceCode src = 1 ∨ sourceCode src = 2
  standby : s.mode = modeStandby → src = .spi

theorem State.MaySetMode.allowed {s : State} {src : CmdSource} {a : Byte} (h : s.MaySetMode src a) :
    s.cmdDenied (rowCmd src 0x10 [a, 0, 0, 0]) = false := by
  obtain ⟨hlife, -, hpeer, hserv, hstand⟩ := h
  have hret : ¬ s.enc.state = lifeReturn := hlife
  have h1 : (sourceCode src == 3 && a.toNat != modeSafeHold) = false := by
    by_cases h3 : sourceCode src = 3
    · simp [hpeer h3, modeSafeHold]
    · simp [h3]
  have h2 : ((a.toNat == modeService) != (s.mode == modeService) && !(sourceCode src == 1 || sourceCode src == 2)) = false := by
    have ha : a.toNat = modeService ↔ a = 7 := ⟨fun e => BitVec.eq_of_toNat_eq e, fun e => by rw [e]; rfl⟩
    rcases hserv with hs | hs | hs
    · by_cases hm : s.mode = modeService
      · simp [hm, ha.mpr (hs.mpr hm)]
      · have hne : a.toNat ≠ modeService := fun e => hm (hs.mp (ha.mp e))
        simp [hm, hne]
    · simp [hs]
    · simp [hs]
  have h3 : (s.mode == modeStandby && sourceCode src != 2) = false := by
    by_cases hm : s.mode = modeStandby
    · simp [hstand hm, sourceCode]
    · simp [hm]
  simpa [State.cmdDenied, hret, rowCmd_par, h1, h3] using h2

/-- The modes that MODE_SET may name. -/
def settableModes : List Byte := [2, 3, 4, 6, 7]

theorem State.runModeSet_same (s : State) (r : Route) (t : Nat) (h : t = s.mode) : s.runModeSet r t = s.reply r 0 [] := by
  unfold State.runModeSet
  exact if_pos h

theorem State.runModeSet_standby (s : State) (r : Route) (h : 2 ≠ s.mode) :
    s.runModeSet r 2 = ((s.enterMode modeStandby (cmdCause r)).reply r 0 []).send 100000 .standbySequence := if_neg h

theorem State.runModeSet_run (s : State) (r : Route) (h : 3 ≠ s.mode) : s.runModeSet r 3 =
    if s.mode = modePaired then (s.agreeOn false s.agreedStart).await r modeRun
    else if s.mode = modeStandby then (s.askWake modeRun 11).await r modeRun
    else (s.enterMode s.runMode (cmdCause r)).reply r 0 [] := if_neg h

theorem State.runModeSet_paired (s : State) (r : Route) (h : 4 ≠ s.mode) :
    s.runModeSet r 4 = (s.agreeOn true s.agreedStart).await r modePaired := if_neg h

theorem State.runModeSet_safeHold (s : State) (r : Route) (h : 6 ≠ s.mode) : s.runModeSet r 6 =
    if s.mode = modeStandby then (s.safeHold (cmdCause r)).await r modeSafeHold else (s.safeHold (cmdCause r)).reply r 0 [] := if_neg h

theorem State.runModeSet_service (s : State) (r : Route) (h : 7 ≠ s.mode) :
    s.runModeSet r 7 = (s.enterMode modeService (cmdCause r)).reply r 0 [] := if_neg h

theorem State.exec_modeSet (s : State) (src : CmdSource) (a : Byte) (hrun : s.lemamRuns = true) (h : s.MaySetMode src a)
    (ha : a ∈ settableModes) (henter : s.mayEnter a.toNat = true) (hbusy : a.toNat = s.mode ∨ s.modeChanging = false) :
    exec (.modeSet src a) s = .next (s.runModeSet (rowCmd src 0x10 [a, 0, 0, 0]).route a.toNat) := by
  have hexec : exec (.modeSet src a) s = .next (s.row src 0x10 [a, 0, 0, 0]) := rfl
  have hsrc := h.source
  have hmgmt : src = .mgmt → s.mode = modeService := mgmt_of_code (by rintro e; simp [e] at hsrc)
  have hmode : s.cmdMode (rowCmd src 0x10 [a, 0, 0, 0]) = true := by
    simp [State.cmdMode, rowCmd_par, mgmt_mode s src hmgmt, henter]
  have hval : s.cmdValues (rowCmd src 0x10 [a, 0, 0, 0]) = true := by
    simp only [settableModes, List.mem_cons, List.not_mem_nil, or_false] at ha
    rcases ha with rfl | rfl | rfl | rfl | rfl <;> rfl
  have hpass : s.Passes (rowCmd src 0x10 [a, 0, 0, 0]) :=
    { source := hsrc, allowed := h.allowed, mode := hmode, header := rfl, values := hval, unlocked := rfl }
  have hheld := s.heldByDeferred_unheld (rowCmd src 0x10 [a, 0, 0, 0]) s.unheld_nil
  have hfree : s.cmdBusy (rowCmd src 0x10 [a, 0, 0, 0]) = false := by
    rcases hbusy with e | e <;> simp [State.cmdBusy, cmdDefers, rowCmd_par, e] <;> exact hheld
  rw [hexec, s.row_runs src 0x10 _ hrun hpass (by decide) hfree rfl]
  rfl

theorem State.exec_modeSet_same (s : State) (src : CmdSource) (a : Byte) (hrun : s.lemamRuns = true) (h : s.MaySetMode src a)
    (ha : a ∈ settableModes) (hm : a.toNat = s.mode) : exec (.modeSet src a) s = .next (s.answered 0 []) := by
  rw [s.exec_modeSet src a hrun h ha (by simp [State.mayEnter, hm]) (.inl hm), s.runModeSet_same _ _ hm]
  rfl

/-- No change of mode is in progress (R496). -/
def State.steady (s : State) : Prop := s.modes.agreed = none ∧ s.modes.waking = none

theorem State.modeChanging_steady {s : State} (h : s.steady) : s.modeChanging = false := by simp [State.modeChanging, h.1, h.2]

/-- The command acts and answers OK without data. -/
def State.acts (s : State) (i : Instr) (t : State) : Prop := exec i s = .next t ∧ t.lemam.reply = (0, [])

/-- The reply waits for what `n` codes. -/
def State.waits (s : State) (src : CmdSource) (op n : Nat) (t : State) : Prop :=
  t.lemam = { s.lemam with waiting := s.lemam.waiting ++ [({ src := src, opcode := op, seq := 0 }, n)] }

theorem State.waits_await {s t : State} (src : CmdSource) (op n : Nat) (p : List Byte) (h : t.lemam = s.lemam) :
    s.waits src op n (t.await (rowCmd src op p).route n) := by
  unfold State.waits
  rw [← h]
  rfl

/-! Into SAFE_HOLD -/

theorem State.safeHold_running (s : State) (cause : Nat) (hm : s.mode ∈ [3, 4, 5, 7]) (hc : cause < 256) :
    (s.safeHold cause).mode = modeSafeHold ∧ (s.safeHold cause).rf Reg.PVT_MODE 6 4 = s.mode ∧
      (s.safeHold cause).rf Reg.PVT_MODE 15 8 = cause ∧ (s.safeHold cause).modes.safeN = true ∧ (s.safeHold cause).modes.pairOk = false ∧
      (s.safeHold cause).mem = s.mem := by
  have hgate : ∃ u, u = (if s.gateActive then s.gateClose else s) ∧ GateStep s u :=
    ⟨_, rfl, by split; exacts [.gateClose s, .refl s]⟩
  obtain ⟨u, hu, hueq, hukept⟩ := hgate
  have hstep : ∃ v, PinStep (setModes u fun m => { m with agreed := none }) v ∧ s.safeHold cause = (v.enterMode modeSafeHold cause).signalSafeHold := by
    refine ⟨_, .allPinsSafe _, ?_⟩
    have hstand : s.mode ≠ modeStandby := fun e => by simp [e, modeStandby] at hm
    have hrun : s.mode = modeRun ∨ s.mode = modePaired ∨ s.mode = modeDegraded ∨ s.mode = modeService := by
      simpa [modeRun, modePaired, modeDegraded, modeService] using hm
    rw [State.safeHold, if_neg hstand, if_pos hrun, hu]
  obtain ⟨v, hv, hsafe⟩ := hstep
  have hmode : v.mode = s.mode := by
    have hrd : v.rd Reg.PVT_MODE = s.rd Reg.PVT_MODE := by
      rw [hv]
      exact hukept Reg.PVT_MODE (by decide)
    exact State.rf_congr hrd 2 0
  have hmem : v.mem = s.mem := by rw [hv, setModes, hueq]
  rw [hsafe, AgendaStep.signalSafeHold (v.enterMode modeSafeHold cause)]
  refine ⟨v.enterMode_mode modeSafeHold cause (by decide), (v.enterMode_prev _ _).trans hmode, v.enterMode_cause _ _ hc, ?_, ?_,
    (v.enterMode_mem _ _).trans hmem⟩
  · show (v.enterMode modeSafeHold cause).modes.safeN = true
    rw [State.enterMode_modes]
    rfl
  · show (v.enterMode modeSafeHold cause).modes.pairOk = false
    rw [State.enterMode_modes]
    rfl

theorem cmdCause_lt (r : Route) : cmdCause r < 256 := by
  unfold cmdCause
  split <;> decide

theorem State.exec_modeSet_safeHold (s : State) (src : CmdSource) (hrun : s.lemamRuns = true) (h : s.MaySetMode src 6)
    (hm : s.mode ∈ [3, 4, 5, 7]) (hsteady : s.steady) : ∃ t, s.acts (.modeSet src 6) t ∧ t.mode = modeSafeHold ∧
      t.rf Reg.PVT_MODE 6 4 = s.mode ∧ t.rf Reg.PVT_MODE 15 8 = cmdCause (rowCmd src 0x10 [6, 0, 0, 0]).route ∧ t.modes.safeN = true ∧
      t.modes.pairOk = false ∧ t.mem = s.mem := by
  have henter : s.mayEnter 6 = true := by
    simp only [List.mem_cons, List.not_mem_nil, or_false] at hm
    rcases hm with e | e | e | e <;> simp [State.mayEnter, e, modeRun, modePaired, modeDegraded, modeService]
  have hne : ¬ 6 = s.mode := fun e => by simp [← e] at hm
  have hstand : ¬ s.mode = modeStandby := fun e => by simp [e, modeStandby] at hm
  have hexec := s.exec_modeSet src 6 hrun h (by decide) henter (.inr (State.modeChanging_steady hsteady))
  have hdo : s.runModeSet (rowCmd src 0x10 [6, 0, 0, 0]).route 6 =
      (s.safeHold (cmdCause (rowCmd src 0x10 [6, 0, 0, 0]).route)).answered 0 [] := by
    rw [s.runModeSet_safeHold _ hne, if_neg hstand]
    rfl
  exact ⟨_, ⟨hexec.trans (congrArg _ hdo), rfl⟩, s.safeHold_running _ hm (cmdCause_lt _)⟩

theorem State.exec_modeSet_wakeSafe (s : State) (hrun : s.lemamRuns = true) (hlife : s.enc.state ≠ 3) (hm : s.mode = modeStandby)
    (hsteady : s.steady) : ∃ t, exec (.modeSet .spi 6) s = .next t ∧ t.modes.waking = some (6, 3) ∧ t.modes.safeN = true ∧
      t.modes.holdCause = some 3 ∧ (s.clk, Act.boot 20) ∈ t.agenda ∧ s.waits .spi 0x10 6 t ∧ t.mode = modeStandby ∧ t.mem = s.mem := by
  have hmay : s.MaySetMode .spi 6 := ⟨hlife, by decide, by decide, .inr (.inr rfl), fun _ => rfl⟩
  have hne : ¬ 6 = s.mode := by rw [hm]; decide
  have hexec := s.exec_modeSet .spi 6 hrun hmay (by decide) (by simp [State.mayEnter, hm]) (.inr (State.modeChanging_steady hsteady))
  have hpins := PinStep.allPinsSafe s
  have hdo : ∃ v, PinStep s v ∧ s.runModeSet (rowCmd .spi 0x10 [6, 0, 0, 0]).route 6 =
      ((setModes v fun m => { m with safeN := true, holdCause := some 3, waking := some (6, 3) }).after 0 (.boot 20)).await
        (rowCmd .spi 0x10 [6, 0, 0, 0]).route 6 := by
    refine ⟨_, hpins, ?_⟩
    have hwaking : s.allPinsSafe.modes.waking = none := by rw [hpins]; exact hsteady.2
    rw [s.runModeSet_safeHold _ hne, if_pos hm, State.safeHold, if_pos hm, State.askWake]
    simp only [setModes, hwaking]
    rfl
  obtain ⟨v, hv, hdo⟩ := hdo
  refine ⟨_, hexec.trans (congrArg _ hdo), rfl, rfl, rfl, ?_, State.waits_await _ _ _ _ ?_, ?_, ?_⟩
  · have hclk : v.clk = s.clk := by rw [hv]
    rw [← hclk]
    exact agendaInsert_self _ _ _
  · show v.lemam = s.lemam
    rw [hv]
  · show v.mode = modeStandby
    rw [hv]
    exact hm
  · show v.mem = s.mem
    rw [hv]

theorem State.exec_modeSet_wake (s : State) (hrun : s.lemamRuns = true) (hlife : s.enc.state ≠ 3) (hm : s.mode = modeStandby)
    (hsteady : s.steady) : ∃ t, exec (.modeSet .spi 3) s = .next t ∧ t.modes.waking = some (3, 11) ∧ (s.clk, Act.boot 20) ∈ t.agenda ∧
      s.waits .spi 0x10 3 t ∧ t.mode = modeStandby ∧ t.regs = s.regs ∧ t.mem = s.mem := by
  have hmay : s.MaySetMode .spi 3 := ⟨hlife, by decide, by decide, .inr (.inr rfl), fun _ => rfl⟩
  have hne : ¬ 3 = s.mode := by rw [hm]; decide
  have hpaired : ¬ s.mode = modePaired := by rw [hm]; decide
  have hexec := s.exec_modeSet .spi 3 hrun hmay (by decide) (by simp [State.mayEnter, hm]) (.inr (State.modeChanging_steady hsteady))
  have hdo : s.runModeSet (rowCmd .spi 0x10 [3, 0, 0, 0]).route 3 =
      ((setModes s fun m => { m with waking := some (3, 11) }).after 0 (.boot 20)).await (rowCmd .spi 0x10 [3, 0, 0, 0]).route 3 := by
    rw [s.runModeSet_run _ hne, if_neg hpaired, if_pos hm]
    simp only [State.askWake, hsteady.2]
    rfl
  exact ⟨_, hexec.trans (congrArg _ hdo), rfl, agendaInsert_self _ _ _, State.waits_await _ _ _ _ rfl, hm, rfl, rfl⟩

/-! Into SERVICE, STANDBY and RUN, and the agreed start and end of RUN_PAIRED -/

theorem State.exec_modeSet_service (s : State) (src : CmdSource) (hrun : s.lemamRuns = true) (h : s.MaySetMode src 7)
    (hm : s.mode = modeSafeHold) (hsteady : s.steady) : ∃ t, s.acts (.modeSet src 7) t ∧ t.mode = modeService ∧
      t.rf Reg.PVT_MODE 15 8 = cmdCause (rowCmd src 0x10 [7, 0, 0, 0]).route ∧ t.modes.safeN = true ∧ t.mem = s.mem ∧
      s.regsKept t [Reg.PVT_MODE, Reg.PVT_MODE_GT] := by
  have hexec := s.exec_modeSet src 7 hrun h (by decide) (by simp [State.mayEnter, hm]) (.inr (State.modeChanging_steady hsteady))
  have hdo := s.runModeSet_service (rowCmd src 0x10 [7, 0, 0, 0]).route (by rw [hm]; decide)
  have hsafe : (s.enterMode modeService (cmdCause (rowCmd src 0x10 [7, 0, 0, 0]).route)).modes.safeN = true := by
    rw [State.enterMode_modes]
    rfl
  exact ⟨_, ⟨hexec.trans (congrArg _ hdo), rfl⟩, s.enterMode_mode modeService _ (by decide), s.enterMode_cause _ _ (cmdCause_lt _), hsafe,
    s.enterMode_mem _ _, s.enterMode_kept _ _⟩

theorem State.exec_modeSet_standby (s : State) (src : CmdSource) (hrun : s.lemamRuns = true) (h : s.MaySetMode src 2)
    (hm : s.mode = modeRun ∨ s.mode = modeDegraded) (hsteady : s.steady) : ∃ t, s.acts (.modeSet src 2) t ∧ t.mode = modeStandby ∧
      t.rf Reg.PVT_MODE 15 8 = cmdCause (rowCmd src 0x10 [2, 0, 0, 0]).route ∧ t.sends s 100000 .standbySequence ∧
      s.regsKept t [Reg.PVT_MODE, Reg.PVT_MODE_GT] := by
  have henter : s.mayEnter 2 = true := by rcases hm with e | e <;> simp [State.mayEnter, e]
  have hexec := s.exec_modeSet src 2 hrun h (by decide) henter (.inr (State.modeChanging_steady hsteady))
  have hdo := s.runModeSet_standby (rowCmd src 0x10 [2, 0, 0, 0]).route (by rcases hm with e | e <;> rw [e] <;> decide)
  refine ⟨_, ⟨hexec.trans (congrArg _ hdo), rfl⟩, s.enterMode_mode modeStandby _ (by decide), s.enterMode_cause _ _ (cmdCause_lt _), ?_,
    s.enterMode_kept _ _⟩
  have hclk : (s.enterMode modeStandby (cmdCause (rowCmd src 0x10 [2, 0, 0, 0]).route)).clk = s.clk := s.enterMode_clk _ _
  rw [State.sends, ← hclk]
  exact agendaInsert_self _ _ _

theorem State.runMode_cases (s : State) : s.runMode = modeRun ∨ s.runMode = modeDegraded := by
  unfold State.runMode
  split
  · exact .inr rfl
  · exact .inl rfl

theorem State.exec_modeSet_run (s : State) (src : CmdSource) (hrun : s.lemamRuns = true) (h : s.MaySetMode src 3)
    (hm : s.mode = modeService) (hsteady : s.steady) : ∃ t, s.acts (.modeSet src 3) t ∧ t.mode = s.runMode ∧
      t.rf Reg.PVT_MODE 15 8 = cmdCause (rowCmd src 0x10 [3, 0, 0, 0]).route ∧ t.modes.safeN = false ∧
      s.regsKept t [Reg.PVT_MODE, Reg.PVT_MODE_GT] := by
  have hexec := s.exec_modeSet src 3 hrun h (by decide) (by simp [State.mayEnter, hm]) (.inr (State.modeChanging_steady hsteady))
  have hdo := s.runModeSet_run (rowCmd src 0x10 [3, 0, 0, 0]).route (by rw [hm]; decide)
  rw [if_neg (by rw [hm]; decide), if_neg (by rw [hm]; decide)] at hdo
  have hlt : s.runMode < 8 := by rcases s.runMode_cases with e | e <;> rw [e] <;> decide
  have hsafe : (s.enterMode s.runMode (cmdCause (rowCmd src 0x10 [3, 0, 0, 0]).route)).modes.safeN = false := by
    rw [State.enterMode_modes]
    rcases s.runMode_cases with e | e <;> rw [e] <;> rfl
  exact ⟨_, ⟨hexec.trans (congrArg _ hdo), rfl⟩, s.enterMode_mode _ _ hlt, s.enterMode_cause _ _ (cmdCause_lt _), hsafe,
    s.enterMode_kept _ _⟩

/-- The instant of R464: the first multiple of 2^20 ns at least 100 µs ahead. -/
theorem State.agreedStart_bounds (s : State) :
    s.now + 100000 ≤ s.agreedStart ∧ s.agreedStart % 2 ^ 20 = 0 ∧ s.agreedStart < s.now + 100000 + 2 ^ 20 := by
  unfold State.agreedStart
  omega

theorem State.agreeOn_eq (s : State) (entry : Bool) (gt : Nat) (h : s.modes.agreed = none) : s.agreeOn entry gt =
    (setModes s fun m => { m with agreed := some (entry, BitVec.ofNat 64 gt) }).send (max 1 (gt - s.now))
      (if entry then .pairedEntry else .pairedExit) := by
  simp [State.agreeOn, h]

theorem State.agreeOn_modes (s : State) (entry : Bool) (gt : Nat) (h : s.modes.agreed = none) :
    (s.agreeOn entry gt).modes = { s.modes with agreed := some (entry, BitVec.ofNat 64 gt) } := by
  rw [s.agreeOn_eq entry gt h]
  rfl

theorem State.agreeOn_kept (s : State) (entry : Bool) (gt : Nat) (h : s.modes.agreed = none) :
    (s.agreeOn entry gt).regs = s.regs ∧ (s.agreeOn entry gt).mem = s.mem ∧ (s.agreeOn entry gt).lemam = s.lemam := by
  rw [s.agreeOn_eq entry gt h]
  exact ⟨rfl, rfl, rfl⟩

/-- The conditions of R464 on the start of RUN_PAIRED, or RUN_PAIRED for its end. -/
def State.mayAgree (s : State) (a : Byte) : Prop :=
  (a = 3 ∧ s.mode = modePaired) ∨ (a = 4 ∧ s.mode = modeRun ∧ s.pairLink = 2 ∧ s.aligned = true ∧ s.pair.peerMode = modeRun ∧
    s.agreeWindow = 1000 * max 1 (min 100 s.pair.peerWin) ∧
    (if s.rb Reg.PAIR_CFG 0 then s.rf Reg.GT_CTRL 1 0 = 2 else s.pair.peerFollows = true))

theorem State.runModeSet_agreed (s : State) (r : Route) (a : Byte) (h : s.mayAgree a) :
    s.mayEnter a.toNat = true ∧ a ∈ settableModes ∧ s.runModeSet r a.toNat = (s.agreeOn (a == 4) s.agreedStart).await r a.toNat := by
  rcases h with ⟨rfl, hm⟩ | ⟨rfl, hm, hlink, hal, hpeer, hwin, hfollow⟩
  · refine ⟨by simp [State.mayEnter, hm], by decide, (s.runModeSet_run r (by rw [hm]; decide)).trans (if_pos hm)⟩
  · have hsync : (if s.rb Reg.PAIR_CFG 0 then s.rf Reg.GT_CTRL 1 0 == 2 else s.pair.peerFollows) = true := by
      split
      · next hb => simpa [hb] using hfollow
      · next hb => simpa [hb] using hfollow
    refine ⟨by simp [State.mayEnter, State.mayPair, hm, hlink, hal, hpeer, hwin, hsync], by decide, s.runModeSet_paired r (by rw [hm]; decide)⟩

theorem State.exec_modeSet_agreed (s : State) (src : CmdSource) (a : Byte) (hrun : s.lemamRuns = true) (h : s.MaySetMode src a)
    (ha : s.mayAgree a) (hsteady : s.steady) (hlt : s.agreedStart < 2 ^ 64) : ∃ t g, exec (.modeSet src a) s = .next t ∧
      t.modes = { s.modes with agreed := some (a == 4, g) } ∧ s.now + 100000 ≤ g.toNat ∧ g.toNat % 2 ^ 20 = 0 ∧
      g.toNat < s.now + 100000 + 2 ^ 20 ∧ s.waits src 0x10 a.toNat t ∧ t.regs = s.regs ∧ t.mem = s.mem := by
  obtain ⟨henter, hset, hdo⟩ := s.runModeSet_agreed (rowCmd src 0x10 [a, 0, 0, 0]).route a ha
  have hexec := s.exec_modeSet src a hrun h hset henter (.inr (State.modeChanging_steady hsteady))
  obtain ⟨hregs, hmem, hlem⟩ := s.agreeOn_kept (a == 4) s.agreedStart hsteady.1
  have hg : (BitVec.ofNat 64 s.agreedStart).toNat = s.agreedStart := by rw [BitVec.toNat_ofNat, Nat.mod_eq_of_lt hlt]
  obtain ⟨hge, hmul, hle⟩ := s.agreedStart_bounds
  exact ⟨_, BitVec.ofNat 64 s.agreedStart, hexec.trans (congrArg _ hdo), s.agreeOn_modes _ _ hsteady.1, by rw [hg]; exact hge,
    by rw [hg]; exact hmul, by rw [hg]; exact hle, State.waits_await src _ _ _ hlem, hregs, hmem⟩

/-! ### What a core's own bookkeeping changes -/

/-- Only cores and the agenda have changed, and no store has left a buffer. -/
def CoreStep (s t : State) : Prop := t = { s with cores := t.cores, agenda := t.agenda } ∧ ∀ n, (t.core n).stores = (s.core n).stores

theorem CoreStep.refl (s : State) : CoreStep s s := ⟨rfl, fun _ => rfl⟩

theorem CoreStep.trans {s t u : State} (h : CoreStep s t) (k : CoreStep t u) : CoreStep s u := by
  refine ⟨?_, fun n => (k.2 n).trans (h.2 n)⟩
  obtain ⟨ht, -⟩ := h
  obtain ⟨hu, -⟩ := k
  rw [hu, ht]

theorem CoreStep.ite {s t u : State} {c : Prop} [Decidable c] (h : CoreStep s t) (k : CoreStep s u) : CoreStep s (if c then t else u) := by
  split
  · exact h
  · exact k

theorem CoreStep.foldl {α : Type} {f : State → α → State} (hf : ∀ s x, CoreStep s (f s x)) (l : List α) (s : State) :
    CoreStep s (l.foldl f s) := by
  induction l generalizing s with
  | nil => exact .refl s
  | cons x l ih => exact (hf s x).trans (ih _)

theorem CoreStep.send (s : State) (ns : Nat) (i : Instr) : CoreStep s (s.send ns i) := ⟨rfl, fun _ => rfl⟩

theorem CoreStep.setCore (s : State) (c : Nat) (x : Core) (h : x.stores = (s.core c).stores) : CoreStep s (s.setCore c x) := by
  refine ⟨rfl, fun n => ?_⟩
  by_cases hn : c = n
  · subst hn
    rw [State.setCore_core_same, h]
  · rw [State.setCore_core_ne s c x n hn]

theorem CoreStep.setSr (s : State) (c n v : Nat) : CoreStep s (s.setSr c n v) := .setCore s c _ rfl

theorem CoreStep.recognise (s : State) (c : Nat) : CoreStep s (s.recognise c) := .ite (.send s _ _) (.refl s)

theorem CoreStep.kickDrain (s : State) (c ns : Nat) : CoreStep s (s.kickDrain c ns) := .ite (.refl s) (.send s _ _)

theorem CoreStep.pend (s : State) (c x v : Nat) : CoreStep s (s.pend c x v) := (CoreStep.setSr s _ _ _).trans (.recognise _ _)

theorem CoreStep.overflow (s : State) (c k : Nat) : CoreStep s (s.overflow c k) := by
  refine .ite (CoreStep.trans ?_ (.pend _ _ _ _)) ?_ <;>
  · refine .setCore s c _ ?_
    dsimp only
    split <;> rfl

theorem CoreStep.counter (s : State) (c k by_ : Nat) : CoreStep s (s.counter c k by_) :=
  .ite (.setSr _ _ _ _) ((CoreStep.setSr _ _ _ _).trans (.overflow _ _ _))

theorem CoreStep.coreEvent (s : State) (c event by_ : Nat) : CoreStep s (s.coreEvent c event by_) :=
  .ite (.foldl (fun s _ => .ite (.counter s _ _ _) (.refl s)) _ s) (.refl s)

theorem CoreStep.syncCycles (s : State) (c : Nat) : CoreStep s (s.syncCycles c) := by
  unfold State.syncCycles
  split
  · dsimp only
    refine .ite (CoreStep.trans (.ite ?_ (CoreStep.trans ?_ ((CoreStep.counter _ _ _ _).trans (.coreEvent _ _ _ _))))
      (.coreEvent _ _ _ _)) (.ite ?_ (CoreStep.trans ?_ ((CoreStep.counter _ _ _ _).trans (.coreEvent _ _ _ _)))) <;>
    exact .setCore s c _ rfl
  · exact .ite (.setCore s c _ rfl) (.refl s)

theorem Core.commit_stores (x : Core) (l : LatentWrite) : (x.commit l).stores = x.stores := by
  unfold Core.commit
  dsimp only
  split <;> split <;> rfl

theorem Core.commitAll_stores (x : Core) : x.commitAll.stores = x.stores := by
  have h : ∀ (l : List LatentWrite) (x : Core), (l.foldl Core.commit x).stores = x.stores := by
    intro l
    induction l with
    | nil => exact fun _ => rfl
    | cons w l ih => exact fun x => (ih _).trans (x.commit_stores w)
  exact h _ _

/-- A core that is stopped: STOPPED, with its stores still to drain. -/
theorem State.stopCore_step (s : State) (c : Nat) :
    CoreStep s (s.stopCore c) ∧ ((s.stopCore c).core c).run = .stopped ∧ (s.stopCore c).clk = s.clk := by
  have hsync := CoreStep.syncCycles s c
  have hstop := CoreStep.setCore (s.syncCycles c) c
    { ((s.syncCycles c).core c).commitAll with run := .stopped, drainWait := false, cycSince := none } (Core.commitAll_stores _)
  have hkick := CoreStep.kickDrain ((s.syncCycles c).setCore c
    { ((s.syncCycles c).core c).commitAll with run := .stopped, drainWait := false, cycSince := none }) c 1
  have hstep : CoreStep s (s.stopCore c) := (hsync.trans hstop).trans hkick
  refine ⟨hstep, ?_, by rw [hstep.1]⟩
  have hcore : (s.stopCore c).core c =
      { ((s.syncCycles c).core c).commitAll with run := .stopped, drainWait := false, cycSince := none } := by
    have hcores : ∀ t : State, (t.kickDrain c 1).core c = t.core c := by
      intro t
      unfold State.kickDrain
      split <;> rfl
    exact (hcores _).trans (State.setCore_core_same _ _ _)
  rw [hcore]

/-! ### The clock point of a core -/

theorem State.wf_regs_congr {s t : State} (h : t.regs = s.regs) (a hi lo v : Nat) : (t.wf a hi lo v).regs = (s.wf a hi lo v).regs := by
  simp [State.wf, State.wr, State.rd, h]

theorem State.setPoint_eq (s : State) (c p : Nat) (h : s.rb (Reg.PVT_COREPT c) 3 = false) :
    (s.setPoint_ c p).regs = (s.wf (Reg.PVT_COREPT c) 1 0 p).regs ∧ (s.setPoint_ c p).mem = s.mem := by
  have hsync := (CoreStep.syncCycles s c).1
  have hregs : (s.syncCycles c).regs = s.regs := by rw [hsync]
  have hmem : (s.syncCycles c).mem = s.mem := by rw [hsync]
  rw [State.setPoint_, if_neg (by simp [h])]
  generalize s.syncCycles c = u at hregs hmem
  unfold State.recountReservation
  dsimp only
  split
  · exact ⟨State.wf_regs_congr hregs _ _ _ _, hmem⟩
  · exact ⟨State.wf_regs_congr hregs _ _ _ _, hmem⟩

theorem State.setPoint_absent (s : State) (c p : Nat) (h : s.rb (Reg.PVT_COREPT c) 3 = true) : s.setPoint_ c p = s := by
  rw [State.setPoint_, if_pos h]

theorem corept_inj {c d : Nat} (h : Reg.PVT_COREPT c = Reg.PVT_COREPT d) : c = d := by
  simp only [Reg.PVT_COREPT] at h
  omega

/-- What setting the points of some cores comes to: each present one of them has the point, and every other register is as before. -/
def State.pointsSet (s t : State) (l : List Nat) (p : Nat) : Prop :=
  t.mem = s.mem ∧ s.regsKept t (l.map Reg.PVT_COREPT) ∧ ∀ c, t.rb (Reg.PVT_COREPT c) 3 = s.rb (Reg.PVT_COREPT c) 3 ∧
    t.rf (Reg.PVT_COREPT c) 1 0 = if c ∈ l ∧ s.rb (Reg.PVT_COREPT c) 3 = false then p else s.rf (Reg.PVT_COREPT c) 1 0

theorem State.pointsSet_one (s : State) (c p : Nat) (hp : p < 4) : s.pointsSet (s.setPoint_ c p) [c] p := by
  by_cases hb : s.rb (Reg.PVT_COREPT c) 3 = true
  · rw [s.setPoint_absent c p hb]
    refine ⟨rfl, fun _ _ => rfl, fun d => ⟨rfl, ?_⟩⟩
    rw [if_neg]
    rintro ⟨hd, hd3⟩
    rw [List.mem_singleton.mp hd, hb] at hd3
    exact absurd hd3 (by decide)
  · obtain ⟨hregs, hmem⟩ := s.setPoint_eq c p (by simpa using hb)
    have hrd := State.rd_congr hregs
    refine ⟨hmem, fun a ha => ?_, fun d => ?_⟩
    · rw [hrd, State.rd_wf_ne _ _ _ _ fun e => ha (by simp [e])]
    · by_cases hd : c = d
      · subst hd
        rw [State.rb_of_rd (hrd _), State.rf_congr (hrd _), State.rb_wf_out _ _ (by decide) (by decide) (by decide),
          State.rf_wf_same _ _ _ _ _ (by decide) (by decide)]
        exact ⟨rfl, by simp only [Nat.mod_eq_of_lt (show p < 2 ^ (1 - 0 + 1) from hp)]; simp [hb]⟩
      · have hne : Reg.PVT_COREPT c ≠ Reg.PVT_COREPT d := fun e => hd (corept_inj e)
        rw [State.rb_of_rd (hrd _), State.rf_congr (hrd _), State.rb_of_rd (State.rd_wf_ne _ _ _ _ hne), State.rf_wf_ne _ _ hne]
        exact ⟨rfl, by simp [Ne.symm hd]⟩

theorem State.pointsSet_foldl (s : State) (l : List Nat) (p : Nat) (hp : p < 4) :
    s.pointsSet (l.foldl (fun s c => s.setPoint_ c p) s) l p := by
  induction l generalizing s with
  | nil => exact ⟨rfl, fun _ _ => rfl, fun c => ⟨rfl, by simp⟩⟩
  | cons k l ih =>
    obtain ⟨hmem, hkept, hcores⟩ := s.pointsSet_one k p hp
    obtain ⟨hmem', hkept', hcores'⟩ := ih (s.setPoint_ k p)
    refine ⟨hmem'.trans hmem, fun a ha => ?_, fun c => ?_⟩
    · simp only [List.map_cons, List.mem_cons, not_or] at ha
      exact (hkept' a ha.2).trans (hkept a (by simpa using ha.1))
    · obtain ⟨hb, hf⟩ := hcores c
      obtain ⟨hb', hf'⟩ := hcores' c
      refine ⟨hb'.trans hb, ?_⟩
      rw [List.foldl_cons, hf', hb, hf]
      by_cases hl : c ∈ l <;> by_cases h3 : s.rb (Reg.PVT_COREPT c) 3 = false <;> simp [hl, h3]

/-! ### POWER_POINT_SET (R515) -/

theorem State.exec_powerPointSet (s : State) (src : CmdSource) (a b : Byte) (hrun : s.lemamRuns = true) (hmay : s.takes src [0, 1, 2])
    (hop : 3 ≤ s.mode ∧ s.mode ≤ 7) (heid : s.namesEnclaveCore a.toNat = false ∨ sourceCode src = 1 ∨ sourceCode src = 2)
    (hab : (a < 96 ∧ b ≤ 5) ∨ (a = 0xFF ∧ b < 4)) (hthere : a ≠ 0xFF → s.rb (Reg.PVT_COREPT a.toNat) 3 = false) :
    exec (.powerPointSet src a b) s = .next (s.runPower (rowCmd src 0x20 [a, b, 0, 0]).route a.toNat b.toNat) := by
  have hexec : exec (.powerPointSet src a b) s = .next (s.row src 0x20 [a, b, 0, 0]) := rfl
  obtain ⟨hret, hsrc, hmgmt⟩ := hmay
  have hlife : ¬ s.enc.state = lifeReturn := hret
  have hden : s.cmdDenied (rowCmd src 0x20 [a, b, 0, 0]) = false := by
    rcases heid with h | h | h <;> simp [State.cmdDenied, rowCmd_par, hlife, h]
  have hval : s.cmdValues (rowCmd src 0x20 [a, b, 0, 0]) = true := by
    have hnum : b.toNat ≤ 5 ∧ (a.toNat < 96 ∨ (a.toNat = 255 ∧ b.toNat < 4)) := by bv_omega
    simpa [State.cmdValues, rowCmd_par, ofBytes] using hnum
  have hpass : s.Passes (rowCmd src 0x20 [a, b, 0, 0]) :=
    { source := hsrc, allowed := hden, mode := s.cmdMode_op src 0x20 _ (by decide) hmgmt hop, header := rfl, values := hval, unlocked := rfl }
  have hfree : s.cmdBusy (rowCmd src 0x20 [a, b, 0, 0]) = false := by
    simp [State.cmdBusy, cmdDefers]
    exact s.heldByDeferred_unheld _ s.unheld_nil
  have hshort : s.cmdShort (rowCmd src 0x20 [a, b, 0, 0]) = false := by
    by_cases h : a = 0xFF
    · simp [State.cmdShort, rowCmd_par, h]
    · simp [State.cmdShort, rowCmd_par, hthere h]
  rw [hexec, s.row_runs src 0x20 _ hrun hpass (by decide) hfree hshort]
  rfl

/-- One present core that the source may set. -/
def State.mayPower (s : State) (src : CmdSource) (a : Byte) : Prop :=
  s.takes src [0, 1, 2] ∧ (3 ≤ s.mode ∧ s.mode ≤ 7) ∧ a < 96 ∧ ((s.core a.toNat).eid = 0 ∨ sourceCode src = 1 ∨ sourceCode src = 2) ∧
    s.rb (Reg.PVT_COREPT a.toNat) 3 = false

theorem State.exec_powerPointSet_one (s : State) (src : CmdSource) (a b : Byte) (hrun : s.lemamRuns = true) (h : s.mayPower src a)
    (hb : b ≤ 5) : exec (.powerPointSet src a b) s = .next (s.runPower (rowCmd src 0x20 [a, b, 0, 0]).route a.toNat b.toNat) := by
  obtain ⟨hmay, hop, ha, heid, hthere⟩ := h
  have hne : a.toNat ≠ 0xFF := by bv_omega
  refine s.exec_powerPointSet src a b hrun hmay hop ?_ (.inl ⟨ha, hb⟩) fun _ => hthere
  refine heid.imp_left fun e => ?_
  simp [State.namesEnclaveCore, hne, e]

theorem State.runPower_point (s : State) (r : Route) (core code : Nat) (h : code < 4) : s.runPower r core code =
    ((if core = 0xFF then List.range 96 else [core]).foldl (fun s c => s.setPoint_ c code) s).reply r 0 [] := by
  have hcode : code = 0 ∨ code = 1 ∨ code = 2 ∨ code = 3 := by omega
  rcases hcode with rfl | rfl | rfl | rfl <;> rfl

theorem State.exec_powerPointSet_point (s : State) (src : CmdSource) (a b : Byte) (hrun : s.lemamRuns = true) (h : s.mayPower src a)
    (hb : b < 4) : ∃ t, s.acts (.powerPointSet src a b) t ∧ t.rf (Reg.PVT_COREPT a.toNat) 1 0 = b.toNat ∧ t.mem = s.mem ∧
      s.regsKept t [Reg.PVT_COREPT a.toNat] := by
  have hexec := s.exec_powerPointSet_one src a b hrun h (by bv_omega)
  obtain ⟨-, -, ha, -, hthere⟩ := h
  have hlt : b.toNat < 4 := by bv_omega
  have hdo := s.runPower_point (rowCmd src 0x20 [a, b, 0, 0]).route a.toNat b.toNat hlt
  rw [if_neg (by bv_omega)] at hdo
  obtain ⟨hmem, hkept, hpoint⟩ := s.pointsSet_foldl [a.toNat] b.toNat hlt
  have hval := (hpoint a.toNat).2
  rw [if_pos ⟨List.mem_singleton.mpr rfl, hthere⟩] at hval
  exact ⟨_, ⟨hexec.trans (congrArg _ hdo), rfl⟩, hval, hmem, hkept⟩

theorem State.exec_powerPointSet_all (s : State) (src : CmdSource) (b : Byte) (hrun : s.lemamRuns = true) (hmay : s.takes src [0, 1, 2])
    (hop : 3 ≤ s.mode ∧ s.mode ≤ 7) (hb : b < 4) (heid : (∀ c < 96, (s.core c).eid = 0) ∨ sourceCode src = 1 ∨ sourceCode src = 2) :
    ∃ t, s.acts (.powerPointSet src 0xFF b) t ∧ t.mem = s.mem ∧
      (∀ c < 96, t.rf (Reg.PVT_COREPT c) 1 0 = if s.rb (Reg.PVT_COREPT c) 3 then s.rf (Reg.PVT_COREPT c) 1 0 else b.toNat) ∧
      s.regsKept t ((List.range 96).map Reg.PVT_COREPT) := by
  have hnames : s.namesEnclaveCore (0xFF : Byte).toNat = false ∨ sourceCode src = 1 ∨ sourceCode src = 2 := by
    refine heid.imp_left fun e => ?_
    simpa [State.namesEnclaveCore] using e
  have hexec := s.exec_powerPointSet src 0xFF b hrun hmay hop hnames (.inr ⟨rfl, hb⟩) (fun h => absurd rfl h)
  have hlt : b.toNat < 4 := by bv_omega
  have hdo := s.runPower_point (rowCmd src 0x20 [0xFF, b, 0, 0]).route 0xFF b.toNat hlt
  rw [if_pos rfl] at hdo
  obtain ⟨hmem, hkept, hpoint⟩ := s.pointsSet_foldl (List.range 96) b.toNat hlt
  refine ⟨_, ⟨hexec.trans (congrArg _ hdo), rfl⟩, hmem, fun c hc => ?_, hkept⟩
  refine (hpoint c).2.trans ?_
  by_cases h3 : s.rb (Reg.PVT_COREPT c) 3 = true <;> simp [h3, hc]

theorem State.exec_powerPointSet_off (s : State) (src : CmdSource) (a : Byte) (hrun : s.lemamRuns = true) (h : s.mayPower src a)
    (hup : s.coreUp a.toNat = true) : ∃ t, exec (.powerPointSet src a 4) s = .next t ∧ (t.core a.toNat).run = .stopped ∧
      (t.core a.toNat).stores = (s.core a.toNat).stores ∧ s.waits src 0x20 (256 + a.toNat) t ∧ t.sends s 0 .commandTake ∧
      t.regs = s.regs := by
  have hexec := s.exec_powerPointSet_one src a 4 hrun h (by decide)
  have hdo : s.runPower (rowCmd src 0x20 [a, 4, 0, 0]).route a.toNat 4 =
      ((s.stopCore a.toNat).await (rowCmd src 0x20 [a, 4, 0, 0]).route (256 + a.toNat)).kickLemam 0 := if_pos hup
  obtain ⟨⟨hstep, hstores⟩, hstop, hclk⟩ := s.stopCore_step a.toNat
  generalize s.stopCore a.toNat = u at hdo hstep hstores hstop hclk
  have hlem : u.lemam = s.lemam := by rw [hstep]
  have hregs : u.regs = s.regs := by rw [hstep]
  refine ⟨_, hexec.trans (congrArg _ hdo), hstop, hstores _, State.waits_await src 0x20 _ [a, 4, 0, 0] hlem, ?_, hregs⟩
  rw [State.sends, ← hclk]
  exact agendaInsert_self _ _ _

theorem State.exec_powerPointSet_already (s : State) (src : CmdSource) (a b : Byte) (hrun : s.lemamRuns = true) (h : s.mayPower src a)
    (hb : (b = 4 ∧ s.rb (Reg.PVT_COREPT a.toNat) 2 = true) ∨ (b = 5 ∧ s.rb (Reg.PVT_COREPT a.toNat) 2 = false)) :
    exec (.powerPointSet src a b) s = .next (s.answered 0 []) := by
  rcases hb with ⟨rfl, hgated⟩ | ⟨rfl, hon⟩
  · rw [s.exec_powerPointSet_one src a 4 hrun h (by decide)]
    have hup : ¬ s.coreUp a.toNat = true := by simp [State.coreUp, hgated]
    exact congrArg _ (if_neg hup)
  · rw [s.exec_powerPointSet_one src a 5 hrun h (by decide)]
    have hdo : s.runPower (rowCmd src 0x20 [a, 5, 0, 0]).route a.toNat 5 = s.reply (rowCmd src 0x20 [a, 5, 0, 0]).route 0 [] := by
      have hoff : ¬ s.rb (Reg.PVT_COREPT a.toNat) 2 = true := by simp [hon]
      show (if s.rb (Reg.PVT_COREPT a.toNat) 2 then s.releaseCore a.toNat else s).reply (rowCmd src 0x20 [a, 5, 0, 0]).route 0 [] = _
      rw [if_neg hoff]
    exact congrArg _ hdo

/-! A core that is powered on -/

theorem AgendaStep.dispatchAt (fuel : Nat) (s : State) (t n : Nat) : AgendaStep s (State.dispatchAt fuel s t n) := by
  induction fuel generalizing s t n with
  | zero => exact rfl
  | succ fuel ih =>
    unfold State.dispatchAt
    extract_lets same last
    split
    · exact .refl s
    · split
      · exact rfl
      · split
        · exact AgendaStep.trans (t := { s with agenda := _ }) rfl (ih _ _ _)
        · exact ih _ _ _

theorem AgendaStep.retrySources (s : State) : AgendaStep s s.retrySources := by
  have h : ∀ (l : List (Nat × Word64)) (t : State), AgendaStep t (l.foldl (fun t e =>
      if Reg.IRT_SRC_CFG 0 ≤ e.1 ∧ e.1 < Reg.IRT_SRC_CFG 4096 ∧ (e.1 - Reg.IRT_SRC_CFG 0) % 16 = 0 ∧ e.2.toNat % 8 / 4 = 1 ∧
          e.2.toNat % 2 = 1 ∧ e.2.toNat % 16 / 8 = 0 then
        t.dispatch ((e.1 - Reg.IRT_SRC_CFG 0) / 16) else t) t) :=
    AgendaStep.foldl fun t e => by
      split
      · exact .dispatchAt _ _ _ _
      · exact .refl t
  exact h _ s

/-- A core as released: at MON_ENTRY, PL3, EID 0 (R515), and powered. -/
def State.released (s : State) (c : Nat) : State := (s.setCore c { pc := s.modes.monEntry }).wb (Reg.PVT_COREPT c) 2 false

theorem State.releaseCore_eq (s : State) (c : Nat) (h : s.rb (Reg.PVT_COREPT c) 3 = false) : s.releaseCore c =
    (if (s.released c).rb (Reg.DBG_CTRL c) 4 = true ∧ (s.released c).safelightUp = true then (s.released c).haltCore c 5
      else s.released c).retrySources := by
  rw [State.releaseCore, if_neg (by simp [h])]
  rfl

theorem State.released_core (s : State) (c : Nat) : (s.released c).core c = { pc := s.modes.monEntry } := by
  simp [State.released]

/-- A released core has counted nothing yet. -/
theorem State.released_syncCycles (s : State) (c : Nat) : (s.released c).syncCycles c = s.released c := by
  have hcount : (s.released c).counting c = false := by
    have hctrl : ({ pc := s.modes.monEntry } : Core).sr Sr.PMU_CTRL % 2 = 0 := by
      show (tabGet (srReset Sr.PMU_CTRL) [] Sr.PMU_CTRL).toNat % 2 = 0
      decide
    simp only [State.counting, s.released_core c, hctrl]
    rfl
  rw [State.syncCycles, s.released_core c]
  exact if_neg (by simp [hcount])

theorem State.released_halted (s : State) (c : Nat) : (((s.released c).haltCore c 5).core c).run = .halted ∧
    (((s.released c).haltCore c 5).core c).pc = s.modes.monEntry ∧ (((s.released c).haltCore c 5).core c).pl = 3 := by
  rw [State.haltCore, s.released_syncCycles c]
  simp only [State.wf_core_at, State.wb_core_at, State.setCore_core_same, s.released_core c]
  exact ⟨trivial, rfl, rfl⟩

/-- What holds of a core once it is powered on, in the state `t` that follows `s`. -/
def State.poweredOn (s t : State) (c : Nat) : Prop :=
  t.rb (Reg.PVT_COREPT c) 2 = false ∧ t.mem = s.mem ∧ (t.core c).pc = s.modes.monEntry ∧ (t.core c).pl = 3 ∧
    (s.rb (Reg.DBG_CTRL c) 4 = false → t.core c = { pc := s.modes.monEntry }) ∧
    (s.rb (Reg.DBG_CTRL c) 4 = true → s.modes.safelightUp = true → (t.core c).run = .halted)

theorem State.poweredOn.agenda {s t u : State} {c : Nat} (h : s.poweredOn t c) (k : AgendaStep t u) : s.poweredOn u c := by
  rw [k]
  exact h

theorem State.rb_released (s : State) (c : Nat) : (s.released c).rb (Reg.PVT_COREPT c) 2 = false := by simp [State.released, State.rb_wb]

theorem State.rb_released_dbg (s : State) (c : Nat) (hc : c < 96) : (s.released c).rb (Reg.DBG_CTRL c) 4 = s.rb (Reg.DBG_CTRL c) 4 := by
  refine State.rb_of_rd (State.rd_wb_ne _ _ _ ?_) 4
  simp only [Reg.PVT_COREPT, Reg.DBG_CTRL]
  omega

theorem State.rb_halted (s : State) (c : Nat) (hc : c < 96) : ((s.released c).haltCore c 5).rb (Reg.PVT_COREPT c) 2 = false := by
  have hne : Reg.DBG_STATUS c ≠ Reg.PVT_COREPT c := by
    simp only [Reg.PVT_COREPT, Reg.DBG_STATUS]
    omega
  rw [← s.rb_released c]
  refine State.rb_of_rd ?_ 2
  rw [State.haltCore, s.released_syncCycles c, State.rd_wf_ne _ _ _ _ hne, State.rd_wb_ne _ _ _ hne]
  rfl

theorem State.releaseCore_poweredOn (s : State) (c : Nat) (hc : c < 96) (h : s.rb (Reg.PVT_COREPT c) 3 = false) :
    s.poweredOn (s.releaseCore c) c := by
  rw [s.releaseCore_eq c h]
  refine State.poweredOn.agenda ?_ (.retrySources _)
  have hdbg := s.rb_released_dbg c hc
  have hsafe : (s.released c).safelightUp = s.modes.safelightUp := by simp [State.safelightUp, State.released]
  split
  · next hh =>
    obtain ⟨hrunning, hpc, hpl⟩ := s.released_halted c
    have hmem : ((s.released c).haltCore c 5).mem = s.mem := by
      rw [State.haltCore, s.released_syncCycles c]
      simp [State.released]
    refine ⟨s.rb_halted c hc, hmem, hpc, hpl, fun h4 => ?_, fun _ _ => hrunning⟩
    rw [hdbg, h4] at hh
    exact absurd hh.1 (by decide)
  · next hh =>
    have hcore := s.released_core c
    have hmem : (s.released c).mem = s.mem := by simp [State.released]
    exact ⟨s.rb_released c, hmem, congrArg Core.pc hcore, congrArg Core.pl hcore, fun _ => hcore,
      fun h4 hup => absurd ⟨hdbg.trans h4, hsafe.trans hup⟩ hh⟩

theorem State.exec_powerPointSet_on (s : State) (src : CmdSource) (a : Byte) (hrun : s.lemamRuns = true) (h : s.mayPower src a)
    (hgated : s.rb (Reg.PVT_COREPT a.toNat) 2 = true) : ∃ t, s.acts (.powerPointSet src a 5) t ∧ s.poweredOn t a.toNat := by
  have hexec := s.exec_powerPointSet_one src a 5 hrun h (by decide)
  obtain ⟨-, -, ha, -, hthere⟩ := h
  have hdo : s.runPower (rowCmd src 0x20 [a, 5, 0, 0]).route a.toNat 5 = (s.releaseCore a.toNat).answered 0 [] := by
    show (if s.rb (Reg.PVT_COREPT a.toNat) 2 then s.releaseCore a.toNat else s).reply (rowCmd src 0x20 [a, 5, 0, 0]).route 0 [] = _
    rw [if_pos hgated]
    rfl
  have hon := s.releaseCore_poweredOn a.toNat (by bv_omega) hthere
  exact ⟨_, ⟨hexec.trans (congrArg _ hdo), rfl⟩, hon⟩

/-! ### SPARE_ENGAGE (R523, R524) -/

theorem spareCmd_par (src : CmdSource) (a b d : Byte) (h : BitVec 16) :
    (rowCmd src 0x31 ([a, b, d, 0] ++ toBytes 2 h.toNat ++ toBytes 2 0)).par 0 1 = a.toNat ∧
    (rowCmd src 0x31 ([a, b, d, 0] ++ toBytes 2 h.toNat ++ toBytes 2 0)).par 1 1 = b.toNat ∧
    (rowCmd src 0x31 ([a, b, d, 0] ++ toBytes 2 h.toNat ++ toBytes 2 0)).par 2 1 = d.toNat ∧
    (rowCmd src 0x31 ([a, b, d, 0] ++ toBytes 2 h.toNat ++ toBytes 2 0)).par 4 2 = h.toNat :=
  ⟨ofBytes_byte a, ofBytes_byte b, ofBytes_byte d, ofBytes_toBytes 2 h.toNat (by have := h.isLt; omega)⟩

theorem State.exec_spareEngage (s : State) (src : CmdSource) (a b d : Byte) (h : BitVec 16) (hrun : s.lemamRuns = true)
    (hlife : s.enc.state ≠ 3) (hhigh : sourceCode src = 1 ∨ sourceCode src = 2)
    (hmode : if a.toNat = 0 then s.mode = modeService else 3 ≤ s.mode ∧ s.mode ≤ 7)
    (hpar : spareParams a.toNat b.toNat d.toNat h.toNat = true) (hthere : s.spareThere a.toNat b.toNat d.toNat h.toNat = true)
    (hbusy : s.spareUnitBusy a.toNat b.toNat d.toNat h.toNat = false) :
    exec (.spareEngage src a b d h) s = .next ((s.engage a.toNat b.toNat d.toNat h.toNat).answered 0 []) := by
  have hexec : exec (.spareEngage src a b d h) s =
      .next (s.row src 0x31 ([a, b, d, 0] ++ toBytes 2 h.toNat ++ toBytes 2 0)) := rfl
  obtain ⟨hpa, hpb, hpd, hph⟩ := spareCmd_par src a b d h
  have hsrc : sourceCode src ∈ [1, 2] := by simpa using hhigh
  have hmgmt : src = .mgmt → s.mode = modeService := mgmt_of_code (by omega)
  have hm : s.cmdMode (rowCmd src 0x31 ([a, b, d, 0] ++ toBytes 2 h.toNat ++ toBytes 2 0)) = true := by
    have hin : (if a.toNat = 0 then s.mode == modeService else opMode s.mode) = true := by
      split at hmode
      · next h0 => simpa [h0] using hmode
      · next h0 => simpa [h0, opMode] using hmode
    simp only [State.cmdMode, rowCmd_src, rowCmd_opcode, mgmt_mode s src hmgmt, hpa, Bool.true_and]
    exact hin
  have hval : s.cmdValues (rowCmd src 0x31 ([a, b, d, 0] ++ toBytes 2 h.toNat ++ toBytes 2 0)) = true := by
    have hz : (rowCmd src 0x31 ([a, b, d, 0] ++ toBytes 2 h.toNat ++ toBytes 2 0)).par 3 1 = 0 ∧
        (rowCmd src 0x31 ([a, b, d, 0] ++ toBytes 2 h.toNat ++ toBytes 2 0)).par 6 2 = 0 := ⟨rfl, rfl⟩
    simp only [State.cmdValues, rowCmd_opcode, hpa, hpb, hpd, hph, hz, hpar]
    rfl
  have hcheck : s.spareCheck (rowCmd src 0x31 ([a, b, d, 0] ++ toBytes 2 h.toNat ++ toBytes 2 0)) = 0 := by
    simp only [State.spareCheck, hpa, hpb, hpd, hph, hthere, hbusy]
    rfl
  have hpass : s.Passes (rowCmd src 0x31 ([a, b, d, 0] ++ toBytes 2 h.toNat ++ toBytes 2 0)) :=
    { source := hsrc
      allowed := s.cmdDenied_open src 0x31 _ (by decide) hlife
      mode := hm
      header := rfl
      values := hval
      unlocked := rfl }
  rw [hexec, s.row_passed src 0x31 _ hrun (s.cmdCheck_of_spare _ hpass rfl hcheck)]
  have hdo : s.cmdRun (rowCmd src 0x31 ([a, b, d, 0] ++ toBytes 2 h.toNat ++ toBytes 2 0)) =
      (s.engage ((rowCmd src 0x31 ([a, b, d, 0] ++ toBytes 2 h.toNat ++ toBytes 2 0)).par 0 1)
        ((rowCmd src 0x31 ([a, b, d, 0] ++ toBytes 2 h.toNat ++ toBytes 2 0)).par 1 1)
        ((rowCmd src 0x31 ([a, b, d, 0] ++ toBytes 2 h.toNat ++ toBytes 2 0)).par 2 1)
        ((rowCmd src 0x31 ([a, b, d, 0] ++ toBytes 2 h.toNat ++ toBytes 2 0)).par 4 2)).answered 0 [] := rfl
  rw [hpa, hpb, hpd, hph] at hdo
  exact congrArg _ hdo

theorem State.log_spare (s : State) (c : SheetClass) (unit : Word32) (addr : Nat) : (s.log c unit addr).spare = s.spare := by
  rw [State.log_eq]

theorem State.spareFree_iff (s : State) (kind group k n : Nat) :
    s.spareFree kind group k (n != 0) = true ↔ n = 0 ∧ (kind, group, k) ∉ s.spare.failed := by
  simp [State.spareFree]

@[simp] theorem State.editSpare_rb (s : State) (f : Spare → Spare) (a i : Nat) : (s.editSpare f).rb a i = s.rb a i := rfl
@[simp] theorem State.editLemam_rb (s : State) (f : Lemam → Lemam) (a i : Nat) : (s.editLemam f).rb a i = s.rb a i := rfl
@[simp] theorem State.editSpare_mem (s : State) (f : Spare → Spare) : (s.editSpare f).mem = s.mem := rfl

/-! A core, a way of the LLC and of the directory -/

theorem State.exec_spareEngage_core (s : State) (src : CmdSource) (b d : Byte) (h : BitVec 16) (hrun : s.lemamRuns = true)
    (hlife : s.enc.state ≠ 3) (hhigh : sourceCode src = 1 ∨ sourceCode src = 2) (hm : s.mode = modeService) (hb : b < 4) (hd : d < 6)
    (hh : h < 4) (hfree : tabGet 0 s.spare.main (6 * b.toNat + d.toNat) = 0) (hwork : (0, 6 * b.toNat + d.toNat, 4) ∉ s.spare.failed)
    (hgated : s.rb (Reg.PVT_COREPT (4 * (6 * b.toNat + d.toNat) + h.toNat)) 2 = true) :
    ∃ t, s.acts (.spareEngage src 0 b d h) t ∧ tabGet 0 t.spare.main (6 * b.toNat + d.toNat) = h.toNat + 1 ∧ t.regs = s.regs ∧
      t.mem = s.mem := by
  have hpar : spareParams 0 b.toNat d.toNat h.toNat = true := by
    have : b.toNat < 4 ∧ d.toNat < 6 ∧ h.toNat < 4 := by bv_omega
    simpa [spareParams] using this
  have hcore : 24 * b.toNat + 4 * d.toNat + h.toNat = 4 * (6 * b.toNat + d.toNat) + h.toNat := by ring
  have hbusy : s.spareUnitBusy 0 b.toNat d.toNat h.toNat = false := by
    simp [State.spareUnitBusy, hcore, hgated]
  have hexec := s.exec_spareEngage src 0 b d h hrun hlife hhigh hm hpar ((s.spareFree_iff _ _ _ _).mpr ⟨hfree, hwork⟩) hbusy
  refine ⟨_, ⟨hexec, rfl⟩, ?_, State.log_regs _ _ _ _ _ _, State.log_mem _ _ _ _ _ _⟩
  show tabGet 0 (s.engageMain (6 * b.toNat + d.toNat) h.toNat).spare.main _ = _
  rw [State.engageMain, State.log_spare]
  exact tabGet_set_same 0 s.spare.main _ (h.toNat + 1)

/-- HS_CFG with a spare way in use, in the bits from `i` for a way of index `w`. -/
theorem State.wayShown (s : State) (a i w : Nat) (hi : i = 1 ∨ i = 6) (hw : w < 16) :
    ((s.wb a i true).wf a (i + 4) (i + 1) w).rb a i = true ∧ ((s.wb a i true).wf a (i + 4) (i + 1) w).rf a (i + 4) (i + 1) = w := by
  rw [State.rb_wf_out _ _ (by omega) (by omega) (by omega), State.rb_wb _ _ _ _ _ _ (by omega), if_pos ⟨rfl, rfl⟩,
    State.rf_wf_same _ _ _ _ _ (by omega) (by omega)]
  refine ⟨rfl, Nat.mod_eq_of_lt ?_⟩
  rw [show i + 4 - (i + 1) + 1 = 4 by omega]
  exact hw

theorem State.engageLlc_shown (s : State) (h w : Nat) (hw : w < 16) : (s.engageLlc h w).rb (Reg.HS_CFG h) 1 = true ∧
    (s.engageLlc h w).rf (Reg.HS_CFG h) 5 2 = w ∧ tabGet 0 (s.engageLlc h w).spare.llcWay h = w + 1 := by
  unfold State.engageLlc State.logEngaged
  extract_lets lines s1 s2
  have hregs := State.log_regs (s2.editSpare fun x => { x with llcWay := tabSet 0 x.llcWay h (w + 1) }) .spareEngaged (unitHs h) 16 0 false
  obtain ⟨hbit, hfld⟩ := s1.wayShown (Reg.HS_CFG h) 1 w (.inl rfl) hw
  refine ⟨(State.rb_congr hregs _ _).trans hbit, (State.rf_congr (State.rd_congr hregs _) _ _).trans hfld, ?_⟩
  rw [State.log_spare]
  exact tabGet_set_same 0 s2.spare.llcWay h (w + 1)

theorem State.engageDir_shown (s : State) (h w : Nat) (hw : w < 16) : (s.engageDir h w).rb (Reg.HS_CFG h) 6 = true ∧
    (s.engageDir h w).rf (Reg.HS_CFG h) 10 7 = w ∧ tabGet 0 (s.engageDir h w).spare.dirWay h = w + 1 := by
  unfold State.engageDir State.logEngaged
  extract_lets lines s1 s2
  have hregs := State.log_regs (s2.editSpare fun x => { x with dirWay := tabSet 0 x.dirWay h (w + 1) }) .spareEngaged (unitHs h) 41 0 false
  obtain ⟨hbit, hfld⟩ := s1.wayShown (Reg.HS_CFG h) 6 w (.inr rfl) hw
  refine ⟨(State.rb_congr hregs _ _).trans hbit, (State.rf_congr (State.rd_congr hregs _) _ _).trans hfld, ?_⟩
  rw [State.log_spare]
  exact tabGet_set_same 0 s2.spare.dirWay h (w + 1)

theorem State.exec_spareEngage_llc (s : State) (src : CmdSource) (b d : Byte) (h : BitVec 16) (hrun : s.lemamRuns = true)
    (hlife : s.enc.state ≠ 3) (hhigh : sourceCode src = 1 ∨ sourceCode src = 2) (hm : 3 ≤ s.mode ∧ s.mode ≤ 7) (hb : b < 4) (hd : d < 16)
    (hh : h < 16) (hfree : tabGet 0 s.spare.llcWay (16 * b.toNat + d.toNat) = 0) (hwork : (1, 16 * b.toNat + d.toNat, 16) ∉ s.spare.failed) :
    ∃ t, s.acts (.spareEngage src 1 b d h) t ∧ t.rb (Reg.HS_CFG (16 * b.toNat + d.toNat)) 1 = true ∧
      t.rf (Reg.HS_CFG (16 * b.toNat + d.toNat)) 5 2 = h.toNat ∧ tabGet 0 t.spare.llcWay (16 * b.toNat + d.toNat) = h.toNat + 1 := by
  have hlt : b.toNat < 4 ∧ d.toNat < 16 ∧ h.toNat < 16 := by bv_omega
  obtain ⟨hb', hd', hh'⟩ := hlt
  have hpar : spareParams 1 b.toNat d.toNat h.toNat = true := by simp [spareParams, hb', hd', hh']
  have hthere : s.spareThere 1 b.toNat d.toNat h.toNat = true := by
    rw [State.spareThere, if_pos hh']
    exact (s.spareFree_iff _ _ _ _).mpr ⟨hfree, hwork⟩
  have hexec := s.exec_spareEngage src 1 b d h hrun hlife hhigh hm hpar hthere rfl
  have hdo : s.engage 1 b.toNat d.toNat h.toNat = s.engageLlc (16 * b.toNat + d.toNat) h.toNat := if_pos hh'
  obtain ⟨hbit, hfld, hway⟩ := s.engageLlc_shown (16 * b.toNat + d.toNat) h.toNat hh'
  have hdone := hexec.trans (congrArg (fun u => Host.Outcome.next (State.answered u 0 [])) hdo)
  generalize s.engageLlc (16 * b.toNat + d.toNat) h.toNat = u at hdone hbit hfld hway
  exact ⟨_, ⟨hdone, rfl⟩, hbit, hfld, hway⟩

theorem State.exec_spareEngage_dir (s : State) (src : CmdSource) (b d : Byte) (h : BitVec 16) (hrun : s.lemamRuns = true)
    (hlife : s.enc.state ≠ 3) (hhigh : sourceCode src = 1 ∨ sourceCode src = 2) (hm : 3 ≤ s.mode ∧ s.mode ≤ 7) (hb : b < 4) (hd : d < 16)
    (h32 : 32 ≤ h) (h40 : h ≤ 40) (hfree : tabGet 0 s.spare.dirWay (16 * b.toNat + d.toNat) = 0)
    (hwork : (1, 16 * b.toNat + d.toNat, 41) ∉ s.spare.failed) :
    ∃ t, s.acts (.spareEngage src 1 b d h) t ∧ t.rb (Reg.HS_CFG (16 * b.toNat + d.toNat)) 6 = true ∧
      t.rf (Reg.HS_CFG (16 * b.toNat + d.toNat)) 10 7 = h.toNat - 32 ∧ tabGet 0 t.spare.dirWay (16 * b.toNat + d.toNat) = h.toNat - 31 := by
  have hlt : b.toNat < 4 ∧ d.toNat < 16 ∧ 32 ≤ h.toNat ∧ h.toNat ≤ 40 := by bv_omega
  obtain ⟨hb', hd', hlo, hhi⟩ := hlt
  have hnot : ¬ h.toNat < 16 := by omega
  have hpar : spareParams 1 b.toNat d.toNat h.toNat = true := by simp [spareParams, hb', hd', hlo, hhi]
  have hthere : s.spareThere 1 b.toNat d.toNat h.toNat = true := by
    rw [State.spareThere, if_neg hnot]
    exact (s.spareFree_iff _ _ _ _).mpr ⟨hfree, hwork⟩
  have hexec := s.exec_spareEngage src 1 b d h hrun hlife hhigh hm hpar hthere rfl
  have hdo : s.engage 1 b.toNat d.toNat h.toNat = s.engageDir (16 * b.toNat + d.toNat) (h.toNat - 32) := if_neg hnot
  obtain ⟨hbit, hfld, hway⟩ := s.engageDir_shown (16 * b.toNat + d.toNat) (h.toNat - 32) (by omega)
  rw [show h.toNat - 32 + 1 = h.toNat - 31 by omega] at hway
  have hdone := hexec.trans (congrArg (fun u => Host.Outcome.next (State.answered u 0 [])) hdo)
  generalize s.engageDir (16 * b.toNat + d.toNat) (h.toNat - 32) = u at hdone hbit hfld hway
  exact ⟨_, ⟨hdone, rfl⟩, hbit, hfld, hway⟩

/-! A phase core, a port's lane, the command core -/

theorem State.phaseSpare_spec (s : State) (q k : Nat) (h : s.phaseSpare q = some k) :
    k < 4 ∧ tabGet 0 s.spare.phase (4 * q + k) = 0 ∧ (2, q, 64 + k) ∉ s.spare.failed := by
  unfold State.phaseSpare at h
  have hmem := List.mem_of_find?_eq_some h
  have hfound := List.find?_some h
  have hfree := (s.spareFree_iff _ _ _ _).mp hfound
  simp only [List.mem_cons, List.not_mem_nil, or_false] at hmem
  exact ⟨by omega, hfree⟩

theorem State.phaseSpare_some (s : State) (q : Nat)
    (h : ∃ k < 4, tabGet 0 s.spare.phase (4 * q + k) = 0 ∧ (2, q, 64 + k) ∉ s.spare.failed) : ∃ k, s.phaseSpare q = some k := by
  obtain ⟨k, hk, hfree⟩ := h
  rw [← Option.isSome_iff_exists, State.phaseSpare, List.find?_isSome]
  refine ⟨k, ?_, (s.spareFree_iff _ _ _ _).mpr hfree⟩
  simp only [List.mem_cons, List.not_mem_nil, or_false]
  omega

theorem State.exec_spareEngage_phase (s : State) (src : CmdSource) (b : Byte) (h : BitVec 16) (hrun : s.lemamRuns = true)
    (hlife : s.enc.state ≠ 3) (hhigh : sourceCode src = 1 ∨ sourceCode src = 2) (hm : 3 ≤ s.mode ∧ s.mode ≤ 7) (hb : b < 4) (hh : h < 64)
    (hfree : ∃ k < 4, tabGet 0 s.spare.phase (4 * b.toNat + k) = 0 ∧ (2, b.toNat, 64 + k) ∉ s.spare.failed)
    (hnew : ∀ k < 4, tabGet 0 s.spare.phase (4 * b.toNat + k) ≠ h.toNat + 1)
    (hidle : s.pcState (64 * b.toNat + h.toNat) = 0 ∨ s.pcState (64 * b.toNat + h.toNat) = 3) :
    ∃ t k, s.acts (.spareEngage src 2 b 0 h) t ∧ k < 4 ∧
      (tabGet 0 s.spare.phase (4 * b.toNat + k) = 0 ∧ (2, b.toNat, 64 + k) ∉ s.spare.failed) ∧
      tabGet 0 t.spare.phase (4 * b.toNat + k) = h.toNat + 1 ∧ t.regs = s.regs ∧ t.mem = s.mem := by
  have hlt : b.toNat < 4 ∧ h.toNat < 64 := by bv_omega
  obtain ⟨hb', hh'⟩ := hlt
  obtain ⟨k, hk⟩ := s.phaseSpare_some b.toNat hfree
  obtain ⟨hk4, hspare⟩ := s.phaseSpare_spec b.toNat k hk
  have hpar : spareParams 2 b.toNat (0 : Byte).toNat h.toNat = true := by simp [spareParams, hb', hh']
  have hthere : s.spareThere 2 b.toNat (0 : Byte).toNat h.toNat = true := by
    simp only [State.spareThere, hk, Option.isSome_some, Bool.true_and, List.all_eq_true, List.mem_cons, List.not_mem_nil, or_false]
    exact fun j hj => by simpa using hnew j (by omega)
  have hbusy : s.spareUnitBusy 2 b.toNat (0 : Byte).toNat h.toNat = false := by
    simp only [State.spareUnitBusy, decide_eq_false_iff_not]
    omega
  have hexec := s.exec_spareEngage src 2 b 0 h hrun hlife hhigh hm hpar hthere hbusy
  have hdo : s.engage 2 b.toNat (0 : Byte).toNat h.toNat = s.engagePhase b.toNat h.toNat k := by
    simp only [State.engage, hk]
  have hphase : tabGet 0 (s.engagePhase b.toNat h.toNat k).spare.phase (4 * b.toNat + k) = h.toNat + 1 := by
    rw [State.engagePhase, State.log_spare]
    exact tabGet_set_same 0 s.spare.phase _ (h.toNat + 1)
  exact ⟨_, k, ⟨hexec.trans (congrArg (fun u => Host.Outcome.next (State.answered u 0 [])) hdo), rfl⟩, hk4, hspare, hphase,
    State.log_regs _ _ _ _ _ _, State.log_mem _ _ _ _ _ _⟩

theorem State.laneSpare_spec (s : State) (q lane : Nat) (h : s.laneSpare q = some lane) : ∃ k < 2, lane = 2 * q + k ∧
    tabGet 0 s.spare.serdes (2 * q + k) = 0 ∧ (3, q, 128 + 2 * q + k) ∉ s.spare.failed := by
  unfold State.laneSpare at h
  have hmem := List.mem_of_find?_eq_some h
  have hfound := List.find?_some h
  have hfree := (s.spareFree_iff _ _ _ _).mp hfound
  simp only [List.mem_cons, List.not_mem_nil, or_false] at hmem
  rcases hmem with rfl | rfl
  · exact ⟨0, by decide, rfl, hfree⟩
  · exact ⟨1, by decide, rfl, hfree⟩

theorem State.laneSpare_some (s : State) (q : Nat)
    (h : ∃ k < 2, tabGet 0 s.spare.serdes (2 * q + k) = 0 ∧ (3, q, 128 + 2 * q + k) ∉ s.spare.failed) : ∃ lane, s.laneSpare q = some lane := by
  obtain ⟨k, hk, hserdes, hwork⟩ := h
  rw [← Option.isSome_iff_exists, State.laneSpare, List.find?_isSome]
  refine ⟨2 * q + k, ?_, (s.spareFree_iff _ _ _ _).mpr ⟨hserdes, by rwa [← Nat.add_assoc]⟩⟩
  simp only [List.mem_cons, List.not_mem_nil, or_false]
  omega

theorem State.exec_spareEngage_lane (s : State) (src : CmdSource) (b : Byte) (h : BitVec 16) (hrun : s.lemamRuns = true)
    (hlife : s.enc.state ≠ 3) (hhigh : sourceCode src = 1 ∨ sourceCode src = 2) (hm : 3 ≤ s.mode ∧ s.mode ≤ 7) (hb : b < 4)
    (hquad : h.toNat / 32 = b.toNat)
    (hfree : ∃ k < 2, tabGet 0 s.spare.serdes (2 * b.toNat + k) = 0 ∧ (3, b.toNat, 128 + 2 * b.toNat + k) ∉ s.spare.failed)
    (hnew : ∀ e ∈ s.spare.serdes, e.2 ≠ h.toNat + 1) (hoff : s.portMode h.toNat = 0) :
    ∃ t k, s.acts (.spareEngage src 3 b 0 h) t ∧ k < 2 ∧
      (tabGet 0 s.spare.serdes (2 * b.toNat + k) = 0 ∧ (3, b.toNat, 128 + 2 * b.toNat + k) ∉ s.spare.failed) ∧
      tabGet 0 t.spare.serdes (2 * b.toNat + k) = h.toNat + 1 ∧ t.rb (Reg.PORT_STATUS h.toNat) 2 = true ∧ t.mem = s.mem := by
  have hb' : b.toNat < 4 := by bv_omega
  obtain ⟨lane, hlane⟩ := s.laneSpare_some b.toNat hfree
  obtain ⟨k, hk, rfl, hspare⟩ := s.laneSpare_spec b.toNat lane hlane
  have hpar : spareParams 3 b.toNat (0 : Byte).toNat h.toNat = true := by simp [spareParams, hb', hquad]
  have hthere : s.spareThere 3 b.toNat (0 : Byte).toNat h.toNat = true := by
    simp only [State.spareThere, hlane, Option.isSome_some, Bool.true_and, List.all_eq_true]
    exact fun e he => by simpa using hnew e he
  have hbusy : s.spareUnitBusy 3 b.toNat (0 : Byte).toNat h.toNat = false := by simp [State.spareUnitBusy, hoff]
  have hexec := s.exec_spareEngage src 3 b 0 h hrun hlife hhigh hm hpar hthere hbusy
  have hdo : s.engage 3 b.toNat (0 : Byte).toNat h.toNat = s.engageLane h.toNat (2 * b.toNat + k) := by
    simp only [State.engage, hlane]
  have hserdes : tabGet 0 (s.engageLane h.toNat (2 * b.toNat + k)).spare.serdes (2 * b.toNat + k) = h.toNat + 1 := by
    rw [State.engageLane, State.logEngaged, State.log_spare]
    exact tabGet_set_same 0 s.spare.serdes _ (h.toNat + 1)
  have hshown : (s.engageLane h.toNat (2 * b.toNat + k)).rb (Reg.PORT_STATUS h.toNat) 2 = true := by
    rw [State.engageLane, State.logEngaged, State.rb_congr (State.log_regs _ _ _ _ _ _), State.editSpare_rb, State.rb_wb _ _ _ _ _ _ (by decide)]
    exact if_pos ⟨rfl, rfl⟩
  have hmem : (s.engageLane h.toNat (2 * b.toNat + k)).mem = s.mem := by
    rw [State.engageLane, State.logEngaged, State.log_mem, State.editSpare_mem, State.wb_mem]
  exact ⟨_, k, ⟨hexec.trans (congrArg (fun u => Host.Outcome.next (State.answered u 0 [])) hdo), rfl⟩, hk, hspare, hserdes, hshown, hmem⟩

/-- Taking a patch writes no register and no memory, and engages no spare. -/
theorem State.takePatch_kept (s : State) (l : List (Nat × Option (BitVec 16 × Bool))) :
    (s.takePatch l).regs = s.regs ∧ (s.takePatch l).mem = s.mem ∧ (s.takePatch l).spare = s.spare := by
  induction l generalizing s with
  | nil => exact ⟨rfl, rfl, rfl⟩
  | cons x l ih =>
    obtain ⟨port, patch⟩ := x
    match patch with
    | none => exact ih s
    | some (v, true) => exact ⟨rfl, rfl, rfl⟩
    | some (v, false) =>
      obtain ⟨hregs, hmem, hspare⟩ := ih (s.bootEntry port 7)
      exact ⟨hregs.trans (State.log_regs _ _ _ _ _ _), hmem.trans (State.log_mem _ _ _ _ _ _), hspare.trans (s.log_spare _ _ _)⟩

/-- Command core 1 as it starts: what Lemam had taken and not answered is gone. -/
def State.commandFresh (s : State) : State :=
  ((s.wb cmdStatus 9 false).wb cmdStatus 8 true).editLemam fun x =>
    { x with deferred := [], outs := [], waiting := x.waiting.filter fun w => coreWait w.2, spiBusy := x.spiCmd.isSome }

/-- The spare command core is in use. -/
def State.commandSpared (s : State) : State := { s with spare := { s.spare with command := true } }

theorem State.engageCommand_eq (s : State) : s.engageCommand =
    ((s.commandFresh.commandSpared.lemamShow).takePatch s.commandFresh.commandSpared.lemamShow.patchesFound).kickLemam 5000000 := rfl

theorem State.rb_commandFresh (s : State) : s.commandFresh.rb cmdStatus 8 = true := by
  rw [State.commandFresh, State.editLemam_rb, State.rb_wb _ _ _ _ _ _ (by decide)]
  exact if_pos ⟨rfl, rfl⟩

theorem State.mem_commandFresh (s : State) : s.commandFresh.mem = s.mem := by
  simp [State.commandFresh, State.editLemam]

theorem State.commandSpared_shown (s : State) : (s.commandSpared.lemamShow).rb cmdStatus 8 = s.rb cmdStatus 8 ∧
    s.commandSpared.lemamShow.spare.command = true ∧ s.commandSpared.lemamShow.mem = s.mem :=
  ⟨State.rb_wf_out _ _ (by decide) (by decide) (by decide), rfl, rfl⟩

theorem State.engageCommand_shown (s : State) :
    s.engageCommand.rb cmdStatus 8 = true ∧ s.engageCommand.spare.command = true ∧ s.engageCommand.mem = s.mem := by
  obtain ⟨hbit, hcommand, hmem⟩ := s.commandFresh.commandSpared_shown
  rw [s.engageCommand_eq]
  generalize s.commandFresh.commandSpared.lemamShow = u at hbit hcommand hmem
  obtain ⟨hregs', hmem', hspare'⟩ := u.takePatch_kept u.patchesFound
  exact ⟨(State.rb_congr hregs' _ _).trans (hbit.trans s.rb_commandFresh), (congrArg Spare.command hspare').trans hcommand,
    hmem'.trans (hmem.trans s.mem_commandFresh)⟩

theorem State.exec_spareEngage_command (s : State) (src : CmdSource) (hrun : s.lemamRuns = true)
    (hlife : s.enc.state ≠ 3) (hhigh : sourceCode src = 1 ∨ sourceCode src = 2) (hm : 3 ≤ s.mode ∧ s.mode ≤ 7)
    (hfree : s.spare.command = false) (hwork : (10, 0, 1) ∉ s.spare.failed) :
    ∃ t, s.acts (.spareEngage src 10 4 0 0) t ∧ t.rb cmdStatus 8 = true ∧ t.spare.command = true ∧ t.mem = s.mem := by
  have hthere : s.spareThere 10 4 0 0 = true := by simp [State.spareThere, State.spareFree, hfree, hwork]
  have hexec := s.exec_spareEngage src 10 4 0 0 hrun hlife hhigh hm rfl hthere rfl
  have hdo : s.engage (10 : Byte).toNat (4 : Byte).toNat (0 : Byte).toNat (0 : BitVec 16).toNat =
      s.engageCommand.logEngaged (dieUnit 10 0) 1 := rfl
  obtain ⟨hbit, hspare, hmem⟩ := s.engageCommand_shown
  generalize s.engageCommand = u at hdo hbit hspare hmem
  refine ⟨_, ⟨hexec.trans (congrArg (fun u => Host.Outcome.next (State.answered u 0 [])) hdo), rfl⟩, ?_, ?_, ?_⟩
  · exact (State.rb_congr (State.log_regs _ _ _ _ _ _) _ _).trans hbit
  · exact (congrArg Spare.command (u.log_spare _ _ _)).trans hspare
  · exact (State.log_mem _ _ _ _ _ _).trans hmem

/-! ### CONTACT_CLEAR and DRAM_CONFIG -/

/-- The contact sheet with no entry valid (R357). -/
def State.sheetCleared (s : State) : State := { s with sheet := s.sheet.clear }

theorem State.exec_contactClear (s : State) (src : CmdSource) (hrun : s.lemamRuns = true) (hmay : s.takes src [0, 1, 2]) :
    exec (.contactClear src) s = .next (s.sheetCleared.answered 0 []) := by
  have hexec : exec (.contactClear src) s = .next (s.row src 0x41 []) := rfl
  have hpass : s.Passes (rowCmd src 0x41 []) :=
    s.passes_open src 0x41 [] (by decide) hmay (s.cmdMode_any src 0x41 [] (by decide) hmay.2.2) rfl rfl rfl
  rw [hexec, s.row_free src 0x41 [] hrun hpass (by decide)]
  rfl

/-- Parameter bytes of a block. -/
def parOf (p : List Byte) (k n : Nat) : Nat := ofBytes ((p.drop k).take n)

theorem rowCmd_parOf (src : CmdSource) (op : Nat) (p : List Byte) (k n : Nat) : (rowCmd src op p).par k n = parOf p k n := rfl

theorem State.exec_dramConfig (s : State) (p : List Byte) (hrun : s.lemamRuns = true) (hlife : s.enc.state ≠ 3)
    (hm : s.mode = modePreflash) (hready : s.modes.dramReady = false) (hlen : p.length = 12) (h0 : parOf p 0 1 ≤ 2) (h1 : parOf p 1 1 ≤ 2)
    (h2 : parOf p 2 1 ≤ 1) (h3 : parOf p 3 1 ≤ 1) (h11 : parOf p 11 1 = 0) :
    exec (.dramConfig .spi p) s = .next ((setModes s fun m => { m with dramBlock := some p }).answered 0 []) := by
  have hexec : exec (.dramConfig .spi p) s = .next (s.row .spi 0x50 p) := rfl
  have hmay : s.takes .spi [2] := ⟨hlife, by decide, fun e => by cases e⟩
  have hmode : s.cmdMode (rowCmd .spi 0x50 p) = true := by simp [State.cmdMode, hm]
  have hval : s.cmdValues (rowCmd .spi 0x50 p) = true := by
    simp [State.cmdValues, rowCmd_parOf, h0, h1, h2, h3, h11]
  have hpass : s.Passes (rowCmd .spi 0x50 p) :=
    s.passes_open .spi 0x50 p (by decide) hmay hmode (rowCmd_headerGood .spi 0x50 p (by omega) (by simp [cmdLength, hlen])) hval hready
  rw [hexec, s.row_free .spi 0x50 p hrun hpass (by decide)]
  rfl

/-! ### DRAM_DELAYSET_LOAD (R326) -/

/-- The row of the words of the delay sets. -/
def delayWordRow : RegDesc := ⟨0x50001000, 8, 0x10000, 1024, 0x4, false, 0x0, 0x0, 0x0, 0x0, 0x0, 14, 0xffffffff⟩

theorem regs50_delayWords : regs50 = regs50.take 11 ++ delayWordRow :: regs50.drop 12 := rfl

/-- The rows before the delay words hold one register a channel, below them. -/
theorem regs50_single : ∀ d ∈ regs50.take 11, d.n1 = 8 ∧ d.s1 = 0x10000 ∧ d.n2 = 1 ∧ 0x50000000 ≤ d.base ∧ d.base < 0x50001000 := by
  decide

theorem regFind_delayWord (n w : Nat) (hn : n < 8) (hw : w < 1024) : regFind (Reg.MC_DS_WORD n w) = some (delayWordRow, n, w) := by
  have hwin : regWindow (Reg.MC_DS_WORD n w) = regs50 := by
    simp [regWindow, show Reg.MC_DS_WORD n w / 0x1000000 = 0x50 by simp only [Reg.MC_DS_WORD]; omega]
  have hskip : ∀ d ∈ regs50.take 11, d.find (Reg.MC_DS_WORD n w) = none := by
    intro d hd
    obtain ⟨h1, hs, h2, hlo, hhi⟩ := regs50_single d hd
    have hr : Reg.MC_DS_WORD n w - d.base - (Reg.MC_DS_WORD n w - d.base) / 0x10000 * 0x10000 ≠ 0 := by
      simp only [Reg.MC_DS_WORD]
      omega
    simp [RegDesc.find, h1, hs, h2, hr]
  have hfind : delayWordRow.find (Reg.MC_DS_WORD n w) = some (n, w) := by
    have hi : (Reg.MC_DS_WORD n w - 0x50001000) / 0x10000 = n := by
      simp only [Reg.MC_DS_WORD]
      omega
    have hj : Reg.MC_DS_WORD n w - 0x50001000 - n * 0x10000 = w * 4 := by
      simp only [Reg.MC_DS_WORD]
      omega
    have hb : ¬ Reg.MC_DS_WORD n w < 0x50001000 := by
      simp only [Reg.MC_DS_WORD]
      omega
    simp [RegDesc.find, delayWordRow, hi, hj, hb, hn, hw]
  rw [regFind, hwin, regs50_delayWords, regFindIn_append hskip, regFindIn, hfind]

theorem State.lockedBits_delayWord (s : State) (a n w : Nat) (h : (14, n * 4 + w / 256) ∉ s.locks) :
    s.lockedBits delayWordRow a n w = 0 := by
  have hunit : (delayWordRow.area, areaUnit delayWordRow.area a n w) = (14, n * 4 + w / 256) := rfl
  have hfree : ¬ s.locks.contains (delayWordRow.area, areaUnit delayWordRow.area a n w) = true := by
    rw [hunit]
    simpa using h
  rw [State.lockedBits, if_neg (by decide), if_neg hfree]
  exact if_neg fun e => absurd e.1 (by decide)

theorem State.writeIsLocked_delayWord (s : State) (n set k v : Nat) (hn : n < 8) (hset : set < 4) (hk : k < 256)
    (h : (14, 4 * n + set) ∉ s.locks) : s.writeIsLocked (Reg.MC_DS_WORD n (set * 256 + k)) v = false := by
  have hunit : n * 4 + (set * 256 + k) / 256 = 4 * n + set := by omega
  have hfree := s.lockedBits_delayWord (Reg.MC_DS_WORD n (set * 256 + k)) n (set * 256 + k) (hunit ▸ h)
  simp [State.writeIsLocked, regFind_delayWord n (set * 256 + k) hn (by omega), hfree]

/-- Registers written one after another read back, when none is written twice. -/
theorem State.foldl_wr (s : State) (f v : Nat → Nat) (m : Nat) (hinj : ∀ i < m, ∀ j < m, f i = f j → i = j) :
    (∀ k < m, ((List.range m).foldl (fun s k => s.wr (f k) (v k)) s).rd (f k) = v k % 2 ^ 64) ∧
      (List.range m).foldl (fun s k => s.wr (f k) (v k)) s =
        { s with regs := ((List.range m).foldl (fun s k => s.wr (f k) (v k)) s).regs } := by
  induction m with
  | zero => exact ⟨fun k hk => absurd hk (Nat.not_lt_zero k), rfl⟩
  | succ m ih =>
    obtain ⟨hrd, heq⟩ := ih fun i hi j hj => hinj i (by omega) j (by omega)
    rw [List.range_succ, List.foldl_append, List.foldl_cons, List.foldl_nil]
    refine ⟨fun k hk => ?_, ?_⟩
    · by_cases hkm : k = m
      · rw [hkm, State.rd_wr_same]
      · rw [State.rd_wr_ne _ _ fun e => hkm (hinj m (by omega) k hk e).symm, hrd k (by omega)]
    · generalize (List.range m).foldl (fun s k => s.wr (f k) (v k)) s = u at heq
      rw [heq]
      rfl

theorem dsMask_lt (k : Nat) : dsMask k < 2 ^ 32 := by
  unfold dsMask
  dsimp only
  split_ifs <;> decide

theorem State.loadSet_spec (s : State) (n set : Nat) (p : List Byte) :
    (∀ k < 256, (s.loadSet n set (p.drop 4)).rd (Reg.MC_DS_WORD n (set * 256 + k)) = parOf p (4 + 4 * k) 4 &&& dsMask (set * 256 + k)) ∧
      s.loadSet n set (p.drop 4) = { s with regs := (s.loadSet n set (p.drop 4)).regs } := by
  have hinj : ∀ i < 256, ∀ j < 256, Reg.MC_DS_WORD n (set * 256 + i) = Reg.MC_DS_WORD n (set * 256 + j) → i = j := by
    intro i _ j _ h
    simp only [Reg.MC_DS_WORD] at h
    omega
  obtain ⟨hrd, heq⟩ := s.foldl_wr (fun k => Reg.MC_DS_WORD n (set * 256 + k))
    (fun k => ofBytes (((p.drop 4).drop (4 * k)).take 4) &&& dsMask (set * 256 + k)) 256 hinj
  refine ⟨fun k hk => (hrd k hk).trans ?_, heq⟩
  have hlt : ofBytes (((p.drop 4).drop (4 * k)).take 4) &&& dsMask (set * 256 + k) < 2 ^ 64 :=
    (Nat.and_le_right.trans_lt (dsMask_lt _)).trans (by decide)
  rw [Nat.mod_eq_of_lt hlt, List.drop_drop, parOf]

theorem State.exec_dramDelaysetLoad (s : State) (src : CmdSource) (p : List Byte) (hrun : s.lemamRuns = true)
    (hmay : s.takes src [0, 1, 2]) (hop : 3 ≤ s.mode ∧ s.mode ≤ 7) (hlen : p.length = 1028) (hn : parOf p 0 1 < 8) (hset : parOf p 1 1 < 4)
    (hz : parOf p 2 2 = 0) (hlock : (14, 4 * parOf p 0 1 + parOf p 1 1) ∉ s.locks)
    (hactive : s.rf (Reg.MC_STATUS (parOf p 0 1)) 4 3 ≠ parOf p 1 1)
    (hpend : s.rb (Reg.MC_STATUS (parOf p 0 1)) 5 = true → s.rf (Reg.MC_STATUS (parOf p 0 1)) 7 6 ≠ parOf p 1 1)
    (hfree : s.unheld [] [parOf p 0 1]) :
    exec (.dramDelaysetLoad src p) s = .next ((s.loadSet (parOf p 0 1) (parOf p 1 1) (p.drop 4)).answered 0 []) := by
  have hexec : exec (.dramDelaysetLoad src p) s = .next (s.row src 0x51 p) := rfl
  have hval : s.cmdValues (rowCmd src 0x51 p) = true := by
    simp [State.cmdValues, rowCmd_parOf, hn, hset, hz]
  have hunlocked : s.cmdLocked (rowCmd src 0x51 p) = false := by
    simp only [State.cmdLocked, rowCmd_opcode, rowCmd_parOf, List.any_eq_false, List.mem_range]
    exact fun k hk => by simpa using s.writeIsLocked_delayWord _ _ k _ hn hset hk hlock
  have hpass : s.Passes (rowCmd src 0x51 p) :=
    s.passes_open src 0x51 p (by decide) hmay (s.cmdMode_op src 0x51 p (by decide) hmay.2.2 hop)
      (rowCmd_headerGood src 0x51 p (by omega) (by simp [cmdLength, hlen])) hval hunlocked
  have hbusy : s.cmdBusy (rowCmd src 0x51 p) = false := by
    have hheld : s.heldByDeferred (rowCmd src 0x51 p) = false := s.heldByDeferred_unheld _ hfree
    refine Bool.or_eq_false_iff.mpr ⟨Bool.or_eq_false_iff.mpr ⟨rfl, hheld⟩, Bool.or_eq_false_iff.mpr ⟨decide_eq_false hactive, ?_⟩⟩
    exact Bool.and_eq_false_imp.mpr fun hb => decide_eq_false (hpend hb)
  rw [hexec, s.row_runs src 0x51 p hrun hpass (by decide) hbusy rfl]
  rfl

/-! ### Commands that are deferred (R482) -/

/-- The command is deferred: what it holds stands last among the deferred commands, and memory is as before. -/
def State.deferred (s t : State) (d : Deferred) : Prop := t.lemam = { s.lemam with deferred := s.lemam.deferred ++ [d] } ∧ t.mem = s.mem

theorem State.deferred_defer {s u : State} (d : Deferred) (hlem : u.lemam = s.lemam) (hmem : u.mem = s.mem) : s.deferred (u.defer d) d := by
  rw [State.deferred, ← hlem, ← hmem]
  unfold State.defer
  dsimp only
  split <;> exact ⟨rfl, rfl⟩

/-- The registers of a command that is deferred follow its immediate part, DEFERRED of the command cores apart. -/
theorem State.rd_defer (u : State) (d : Deferred) {a : Nat} (h : cmdStatus ≠ a) : (u.defer d).rd a = u.rd a := by
  unfold State.defer
  dsimp only
  split <;> exact State.rd_wf_ne _ _ _ _ h

/-- What a command that R482 defers needs beside its own conditions. -/
theorem State.cmdBusy_room (s : State) (c : Cmd) (hroom : s.lemam.deferred.length < 16) (hheld : s.unheld (s.cmdQueues c) c.channels) :
    (cmdDefers c.route.opcode && decide (16 ≤ s.lemam.deferred.length) || s.heldByDeferred c) = false := by
  refine Bool.or_eq_false_iff.mpr ⟨?_, s.heldByDeferred_unheld c hheld⟩
  rw [decide_eq_false (by omega), Bool.and_false]

/-! DRAM_DELAYSET_SELECT (R327) -/

theorem mcStatus_inj {n m : Nat} (h : Reg.MC_STATUS n = Reg.MC_STATUS m) : n = m := by
  simp only [Reg.MC_STATUS] at h
  omega

theorem State.selectSet_spec (s : State) (set : Nat) (l : List Nat) (hset : set < 4) :
    s.selectSet set l = { s with regs := (s.selectSet set l).regs } ∧ ∀ n ∈ l,
      (s.selectSet set l).rf (Reg.MC_STATUS n) 7 6 = set ∧ (s.selectSet set l).rb (Reg.MC_STATUS n) 5 = true := by
  have hone : ∀ (s : State) (m n : Nat), (m = n ∨ (s.rf (Reg.MC_STATUS n) 7 6 = set ∧ s.rb (Reg.MC_STATUS n) 5 = true)) →
      ((s.wf (Reg.MC_STATUS m) 7 6 set).wb (Reg.MC_STATUS m) 5 true).rf (Reg.MC_STATUS n) 7 6 = set ∧
        ((s.wf (Reg.MC_STATUS m) 7 6 set).wb (Reg.MC_STATUS m) 5 true).rb (Reg.MC_STATUS n) 5 = true := by
    intro s m n h
    by_cases hmn : m = n
    · subst hmn
      rw [State.rf_wb_out _ _ (by decide) (by decide) (by decide), State.rf_wf_same _ _ _ _ _ (by decide) (by decide),
        State.rb_wb _ _ _ _ _ _ (by decide), if_pos ⟨rfl, rfl⟩]
      exact ⟨Nat.mod_eq_of_lt hset, rfl⟩
    · have hne : Reg.MC_STATUS m ≠ Reg.MC_STATUS n := fun e => hmn (mcStatus_inj e)
      have hrd : ((s.wf (Reg.MC_STATUS m) 7 6 set).wb (Reg.MC_STATUS m) 5 true).rd (Reg.MC_STATUS n) = s.rd (Reg.MC_STATUS n) := by
        rw [State.rd_wb_ne _ _ _ hne, State.rd_wf_ne _ _ _ _ hne]
      rw [State.rf_congr hrd, State.rb_of_rd hrd]
      exact h.resolve_left hmn
  have hfold : ∀ (l : List Nat) (s : State), s.selectSet set l = { s with regs := (s.selectSet set l).regs } ∧
      ∀ n, (n ∈ l ∨ (s.rf (Reg.MC_STATUS n) 7 6 = set ∧ s.rb (Reg.MC_STATUS n) 5 = true)) →
        (s.selectSet set l).rf (Reg.MC_STATUS n) 7 6 = set ∧ (s.selectSet set l).rb (Reg.MC_STATUS n) 5 = true := by
    intro l
    induction l with
    | nil => exact fun s => ⟨rfl, fun n h => h.resolve_left (by simp)⟩
    | cons m l ih =>
      intro s
      obtain ⟨heq, hval⟩ := ih ((s.wf (Reg.MC_STATUS m) 7 6 set).wb (Reg.MC_STATUS m) 5 true)
      refine ⟨heq.trans ?_, fun n hn => hval n ?_⟩
      · rfl
      · by_cases hl : n ∈ l
        · exact .inl hl
        · refine .inr (hone s m n (hn.imp_left fun h => ?_))
          exact ((List.mem_cons.mp h).resolve_right hl).symm
  exact ⟨(hfold l s).1, fun n hn => (hfold l s).2 n (.inl hn)⟩

theorem mem_bitsOf (b : Byte) (n : Nat) : n ∈ bitsOf b.toNat 8 ↔ n < 8 ∧ b.getLsbD n = true := by
  simp [bitsOf, BitVec.testBit_toNat]

theorem State.exec_dramDelaysetSelect (s : State) (src : CmdSource) (a b : Byte) (hrun : s.lemamRuns = true) (hmay : s.takes src [0, 1, 2])
    (hop : 3 ≤ s.mode ∧ s.mode ≤ 7) (ha : a < 4) (hpend : ∀ n < 8, b.getLsbD n = true → s.rb (Reg.MC_STATUS n) 5 = false)
    (hroom : s.lemam.deferred.length < 16) (hfree : s.unheld [] (bitsOf b.toNat 8)) :
    exec (.dramDelaysetSelect src a b) s = .next ((s.selectSet a.toNat (bitsOf b.toNat 8)).defer
      { route := { src := src, opcode := 0x52, seq := 0 }, queues := [], channels := bitsOf b.toNat 8, vi := none, params := [a, b, 0, 0] }) := by
  have hexec : exec (.dramDelaysetSelect src a b) s = .next (s.row src 0x52 [a, b, 0, 0]) := rfl
  have ha' : a.toNat < 4 := by bv_omega
  have hpar : (rowCmd src 0x52 [a, b, 0, 0]).par 0 1 = a.toNat ∧ (rowCmd src 0x52 [a, b, 0, 0]).par 1 1 = b.toNat :=
    ⟨ofBytes_byte a, ofBytes_byte b⟩
  have hchan : (rowCmd src 0x52 [a, b, 0, 0]).channels = bitsOf b.toNat 8 := congrArg (bitsOf · 8) hpar.2
  have hval : s.cmdValues (rowCmd src 0x52 [a, b, 0, 0]) = true := by
    refine Bool.and_eq_true_iff.mpr ⟨decide_eq_true ?_, rfl⟩
    rw [hpar.1]
    exact ha'
  have hpass : s.Passes (rowCmd src 0x52 [a, b, 0, 0]) :=
    s.passes_open src 0x52 _ (by decide) hmay (s.cmdMode_op src 0x52 _ (by decide) hmay.2.2 hop) rfl hval rfl
  have hbusy : s.cmdBusy (rowCmd src 0x52 [a, b, 0, 0]) = false := by
    refine Bool.or_eq_false_iff.mpr ⟨s.cmdBusy_room _ hroom (by rw [hchan]; exact hfree), ?_⟩
    refine List.any_eq_false.mpr fun n hn => ?_
    rw [hchan, mem_bitsOf] at hn
    simpa using hpend n hn.1 hn.2
  rw [hexec, s.row_runs src 0x52 _ hrun hpass (by decide) hbusy rfl]
  have hdo : s.cmdRun (rowCmd src 0x52 [a, b, 0, 0]) =
      (s.selectSet ((rowCmd src 0x52 [a, b, 0, 0]).par 0 1) (rowCmd src 0x52 [a, b, 0, 0]).channels).defer
        { route := { src := src, opcode := 0x52, seq := 0 }, queues := [], channels := (rowCmd src 0x52 [a, b, 0, 0]).channels
          params := [a, b, 0, 0] } := rfl
  rw [hdo, hpar.1, hchan]

theorem State.delaysetSelected (s : State) (set : Nat) (d : Deferred) (l : List Nat) (hset : set < 4) :
    s.deferred ((s.selectSet set l).defer d) d ∧ ∀ n ∈ l, n < 8 → ((s.selectSet set l).defer d).rf (Reg.MC_STATUS n) 7 6 = set ∧
      ((s.selectSet set l).defer d).rb (Reg.MC_STATUS n) 5 = true := by
  obtain ⟨heq, hval⟩ := s.selectSet_spec set l hset
  generalize s.selectSet set l = u at heq hval
  refine ⟨State.deferred_defer d (by rw [heq]) (by rw [heq]), fun n hn _ => ?_⟩
  have hne : cmdStatus ≠ Reg.MC_STATUS n := by
    simp only [cmdStatus, Reg.MC_STATUS]
    omega
  have hrd := u.rd_defer d hne
  rw [State.rf_congr hrd, State.rb_of_rd hrd]
  exact hval n hn

/-! DRAM_MARGIN_SCAN (R328) and DRAM_REPAIR_ROW (R362) -/

theorem State.exec_dramMarginScan (s : State) (src : CmdSource) (p : List Byte) (hrun : s.lemamRuns = true)
    (hlife : s.enc.state ≠ 3) (hsrc : sourceCode src ∈ [1, 2, 4]) (hmgmt : src = .mgmt → s.mode = modeService)
    (hmode : s.mode = modeService ∨ s.enc.state = 1) (hlen : p.length = 4) (hn : parOf p 0 1 < 8) (hz : parOf p 1 3 = 0)
    (hfrozen : s.mcFrozen (parOf p 0 1) = true) (hroom : s.lemam.deferred.length < 16) (hfree : s.unheld [] [parOf p 0 1]) :
    exec (.dramMarginScan src p) s = .next (s.defer
      { route := { src := src, opcode := 0x53, seq := 0 }, queues := [], channels := [parOf p 0 1], vi := none, params := p }) := by
  have hexec : exec (.dramMarginScan src p) s = .next (s.row src 0x53 p) := rfl
  have hm : s.cmdMode (rowCmd src 0x53 p) = true :=
    Bool.and_eq_true_iff.mpr ⟨mgmt_mode s src hmgmt, by rcases hmode with h | h <;> simp [h]⟩
  have hval : s.cmdValues (rowCmd src 0x53 p) = true := by simp [State.cmdValues, rowCmd_parOf, hn, hz]
  have hpass : s.Passes (rowCmd src 0x53 p) :=
    s.passes_open src 0x53 p (by decide) ⟨hlife, hsrc, hmgmt⟩ hm (rowCmd_headerGood src 0x53 p (by omega) (by simp [cmdLength, hlen])) hval rfl
  have hbusy : s.cmdBusy (rowCmd src 0x53 p) = false :=
    Bool.or_eq_false_iff.mpr ⟨s.cmdBusy_room _ hroom hfree, by rw [rowCmd_parOf, hfrozen]; rfl⟩
  rw [hexec, s.row_runs src 0x53 p hrun hpass (by decide) hbusy rfl]
  rfl

theorem State.exec_dramRepairRow (s : State) (src : CmdSource) (p : List Byte) (hrun : s.lemamRuns = true)
    (hmay : s.takes src [1, 2, 4]) (hmode : s.mode = modeService) (hlen : p.length = 12) (hn : parOf p 0 1 < 8) (hsub : parOf p 1 1 < 2)
    (hrank : parOf p 2 1 < s.ranks) (hdev : parOf p 3 1 < 10) (hgroup : parOf p 4 1 < 8) (hbank : parOf p 5 1 < 4) (hz : parOf p 6 2 = 0)
    (hrow : parOf p 8 4 < s.bankRows)
    (hfrozen : s.mcFrozen (parOf p 0 1) = true) (hroom : s.lemam.deferred.length < 16) (hfree : s.unheld [] [parOf p 0 1]) :
    exec (.dramRepairRow src p) s = .next (s.defer
      { route := { src := src, opcode := 0x55, seq := 0 }, queues := [], channels := [parOf p 0 1], vi := none, params := p }) := by
  have hexec : exec (.dramRepairRow src p) s = .next (s.row src 0x55 p) := rfl
  have hm : s.cmdMode (rowCmd src 0x55 p) = true :=
    Bool.and_eq_true_iff.mpr ⟨mgmt_mode s src hmay.2.2, by simp [hmode]⟩
  have hval : s.cmdValues (rowCmd src 0x55 p) = true := by
    simp [State.cmdValues, rowCmd_parOf, hn, hsub, hrank, hdev, hgroup, hbank, hz, hrow]
  have hpass : s.Passes (rowCmd src 0x55 p) :=
    s.passes_open src 0x55 p (by decide) hmay hm (rowCmd_headerGood src 0x55 p (by omega) (by simp [cmdLength, hlen])) hval rfl
  have hbusy : s.cmdBusy (rowCmd src 0x55 p) = false :=
    Bool.or_eq_false_iff.mpr ⟨s.cmdBusy_room _ hroom hfree, by rw [rowCmd_parOf, hfrozen]; rfl⟩
  rw [hexec, s.row_runs src 0x55 p hrun hpass (by decide) hbusy rfl]
  rfl

/-! ### DRAM_ERASE_DEVICE (R361) -/

/-- A controller that is put back with the same queue: it reads back but for the record of a full queue, and nothing else changes. -/
theorem State.setMc_sameQueue (s : State) (n : Nat) (x : Mc) (h : x.queue = (s.mc n).queue) :
    (∃ f, (s.setMc n x).mc n = { x with full := f }) ∧ (∀ m, m ≠ n → (s.setMc n x).mc m = s.mc m) ∧
      s.setMc n x = { s with mcs := (s.setMc n x).mcs } := by
  obtain ⟨r, g, heq, hr⟩ := s.setMc_eq n x
  refine ⟨s.mc_setMc_same n x, fun m hm => s.mc_setMc_ne _ (Ne.symm hm), ?_⟩
  rw [heq, hr fun hlen => h ▸ hlen]

/-- A controller that erases a device. -/
def Mc.erasingDevice (x : Mc) (key device : Nat) : Mc := { x with erasing := tabSet 0 x.erasing key (device + 1) }

/-- A device of a channel is being erased. -/
def State.eraseBegun (s : State) (n key device : Nat) : State := s.setMc n ((s.mc n).erasingDevice key device)

theorem State.eraseBegun_spec (s : State) (n key device : Nat) : tabGet 0 ((s.eraseBegun n key device).mc n).erasing key = device + 1 ∧
    (∀ m, m ≠ n → (s.eraseBegun n key device).mc m = s.mc m) ∧ s.eraseBegun n key device = { s with mcs := (s.eraseBegun n key device).mcs } := by
  obtain ⟨⟨f, hf⟩, hne, heq⟩ := s.setMc_sameQueue n ((s.mc n).erasingDevice key device) rfl
  refine ⟨?_, hne, heq⟩
  rw [State.eraseBegun, hf]
  exact tabGet_set_same 0 (s.mc n).erasing key (device + 1)

theorem State.exec_dramEraseDevice (s : State) (src : CmdSource) (a b d e : Byte) (hrun : s.lemamRuns = true) (hmay : s.takes src [0, 1, 2])
    (hop : 3 ≤ s.mode ∧ s.mode ≤ 7) (ha : a < 8) (hb : b < 2) (hd : d.toNat < s.ranks) (he : e < 10)
    (herased : tabGet 0 (s.mc a.toNat).erased (b.toNat * 2 + d.toNat) = 0)
    (herasing : tabGet 0 (s.mc a.toNat).erasing (b.toNat * 2 + d.toNat) = 0) (hfree : s.unheld [] [a.toNat]) :
    exec (.dramEraseDevice src a b d e) s = .next ((s.eraseBegun a.toNat (b.toNat * 2 + d.toNat) e.toNat).await
      (rowCmd src 0x54 [a, b, d, e]).route (1024 + 4 * a.toNat + b.toNat * 2 + d.toNat)) := by
  have hexec : exec (.dramEraseDevice src a b d e) s = .next (s.row src 0x54 [a, b, d, e]) := rfl
  have hpar : (rowCmd src 0x54 [a, b, d, e]).par 0 1 = a.toNat ∧ (rowCmd src 0x54 [a, b, d, e]).par 1 1 = b.toNat ∧
      (rowCmd src 0x54 [a, b, d, e]).par 2 1 = d.toNat ∧ (rowCmd src 0x54 [a, b, d, e]).par 3 1 = e.toNat :=
    ⟨ofBytes_byte a, ofBytes_byte b, ofBytes_byte d, ofBytes_byte e⟩
  obtain ⟨hpa, hpb, hpd, hpe⟩ := hpar
  have hchan : (rowCmd src 0x54 [a, b, d, e]).channels = [a.toNat] := congrArg (fun n => [n]) hpa
  have hval : s.cmdValues (rowCmd src 0x54 [a, b, d, e]) = true := by
    have hlt : a.toNat < 8 ∧ b.toNat < 2 ∧ d.toNat < s.ranks ∧ e.toNat < 10 := by
      refine ⟨by bv_omega, by bv_omega, hd, by bv_omega⟩
    simpa [State.cmdValues, hpa, hpb, hpd, hpe] using hlt
  have hpass : s.Passes (rowCmd src 0x54 [a, b, d, e]) :=
    s.passes_open src 0x54 _ (by decide) hmay (s.cmdMode_op src 0x54 _ (by decide) hmay.2.2 hop) rfl hval rfl
  have hbusy : s.cmdBusy (rowCmd src 0x54 [a, b, d, e]) = false :=
    Bool.or_eq_false_iff.mpr ⟨Bool.or_eq_false_iff.mpr ⟨rfl, s.heldByDeferred_unheld _ (by rw [hchan]; exact hfree)⟩, rfl⟩
  have hshort : s.cmdShort (rowCmd src 0x54 [a, b, d, e]) = false := by
    simp [State.cmdShort, hpa, hpb, hpd, herased, herasing]
  rw [hexec, s.row_runs src 0x54 _ hrun hpass (by decide) hbusy hshort]
  rw [← hpa, ← hpb, ← hpd, ← hpe]
  rfl

/-! ### DRAM_SCRUB_SET (R348) -/

/-- A controller with a scrub period. -/
def Mc.scrubbing (x : Mc) (hours : Nat) : Mc := { x with scrubHours := hours }

theorem State.setScrub_eq (s : State) (n hours : Nat) : AgendaStep (s.setMc n ((s.mc n).scrubbing hours)) (s.setScrub n hours) := by
  unfold State.setScrub
  dsimp only
  split <;> rfl

theorem State.setScrub_spec (s : State) (n hours : Nat) :
    (∀ m, ((s.setScrub n hours).mc m).scrubHours = if m = n then hours else (s.mc m).scrubHours) ∧
      s.setScrub n hours = { s with mcs := (s.setScrub n hours).mcs, agenda := (s.setScrub n hours).agenda } := by
  obtain ⟨⟨f, hf⟩, hne, heq⟩ := s.setMc_sameQueue n ((s.mc n).scrubbing hours) rfl
  have hstep := s.setScrub_eq n hours
  generalize s.setMc n ((s.mc n).scrubbing hours) = u at hf hne heq hstep
  generalize s.setScrub n hours = v at hstep
  have hmc : ∀ m, (v.mc m).scrubHours = if m = n then hours else (s.mc m).scrubHours := by
    intro m
    have hvm : v.mc m = u.mc m := by rw [hstep]; rfl
    rw [hvm]
    split
    · next h => rw [h, hf, Mc.scrubbing]
    · next h => rw [hne m h]
  refine ⟨hmc, ?_⟩
  rw [hstep, heq]

theorem State.foldl_setScrub (s : State) (hours : Nat) (l : List Nat) :
    (∀ m, ((l.foldl (fun s n => s.setScrub n hours) s).mc m).scrubHours = if m ∈ l then hours else (s.mc m).scrubHours) ∧
      l.foldl (fun s n => s.setScrub n hours) s = { s with
        mcs := (l.foldl (fun s n => s.setScrub n hours) s).mcs, agenda := (l.foldl (fun s n => s.setScrub n hours) s).agenda } := by
  induction l generalizing s with
  | nil => exact ⟨fun m => by simp, rfl⟩
  | cons n l ih =>
    obtain ⟨hone, heq1⟩ := s.setScrub_spec n hours
    obtain ⟨hrest, heq⟩ := ih (s.setScrub n hours)
    rw [List.foldl_cons]
    refine ⟨fun m => ?_, ?_⟩
    · rw [hrest m, hone m]
      by_cases hl : m ∈ l <;> simp [hl]
    · generalize l.foldl (fun s n => s.setScrub n hours) (s.setScrub n hours) = u at heq
      rw [heq, heq1]

theorem State.exec_dramScrubSet (s : State) (src : CmdSource) (a b : Byte) (hrun : s.lemamRuns = true) (hmay : s.takes src [0, 1, 2])
    (hop : 3 ≤ s.mode ∧ s.mode ≤ 7) (hb : b ≤ 240) (hfree : s.unheld [] (bitsOf a.toNat 8)) :
    exec (.dramScrubSet src a b) s = .next (((bitsOf a.toNat 8).foldl (fun s n => s.setScrub n b.toNat) s).answered 0 []) := by
  have hexec : exec (.dramScrubSet src a b) s = .next (s.row src 0x56 [a, b, 0, 0]) := rfl
  have hpar : (rowCmd src 0x56 [a, b, 0, 0]).par 0 1 = a.toNat ∧ (rowCmd src 0x56 [a, b, 0, 0]).par 1 1 = b.toNat :=
    ⟨ofBytes_byte a, ofBytes_byte b⟩
  have hchan : (rowCmd src 0x56 [a, b, 0, 0]).channels = bitsOf a.toNat 8 := congrArg (bitsOf · 8) hpar.1
  have hval : s.cmdValues (rowCmd src 0x56 [a, b, 0, 0]) = true := by
    refine Bool.and_eq_true_iff.mpr ⟨decide_eq_true ?_, rfl⟩
    rw [hpar.2]
    bv_omega
  have hpass : s.Passes (rowCmd src 0x56 [a, b, 0, 0]) :=
    s.passes_open src 0x56 _ (by decide) hmay (s.cmdMode_op src 0x56 _ (by decide) hmay.2.2 hop) rfl hval rfl
  have hbusy : s.cmdBusy (rowCmd src 0x56 [a, b, 0, 0]) = false :=
    Bool.or_eq_false_iff.mpr ⟨Bool.or_eq_false_iff.mpr ⟨rfl, s.heldByDeferred_unheld _ (by rw [hchan]; exact hfree)⟩, rfl⟩
  rw [hexec, s.row_runs src 0x56 _ hrun hpass (by decide) hbusy rfl]
  have hdo : s.cmdRun (rowCmd src 0x56 [a, b, 0, 0]) =
      ((rowCmd src 0x56 [a, b, 0, 0]).channels.foldl (fun s n => s.setScrub n ((rowCmd src 0x56 [a, b, 0, 0]).par 1 1)) s).answered 0 [] := rfl
  rw [hdo, hpar.2, hchan]

/-! ### VI_CREATE (R366) -/

/-- The ranges of queues and of vectors overlap those of no valid VI. -/
def State.viApart (s : State) (q n vec vecs : Nat) : Prop :=
  ∀ w ∈ s.validVis, (s.rf (Reg.VI_QRANGE w) 17 0 + s.rf (Reg.VI_QRANGE w) 26 18 ≤ q ∨ q + n ≤ s.rf (Reg.VI_QRANGE w) 17 0) ∧
    (s.rf (Reg.VI_VEC w) 9 0 + s.rf (Reg.VI_VEC w) 22 16 ≤ vec ∨ vec + vecs ≤ s.rf (Reg.VI_VEC w) 9 0)

theorem State.viOverlaps_apart {s : State} {q n vec vecs : Nat} (h : s.viApart q n vec vecs) : s.viOverlaps q n vec vecs = false := by
  refine List.any_eq_false.mpr fun w hw => ?_
  obtain ⟨hq, hv⟩ := h w hw
  simp only [Bool.or_eq_true, Bool.and_eq_true, decide_eq_true_eq, not_or]
  omega

theorem State.wr_of_regs {s u : State} (h : u = { s with regs := u.regs }) (a v : Nat) : u.wr a v = { s with regs := (u.wr a v).regs } := by
  rw [h]
  rfl

theorem State.makeVi_eq (s : State) (v vmid base eid q count vec vecs : Nat) :
    s.makeVi v vmid base eid q count vec vecs = { s with regs := (s.makeVi v vmid base eid q count vec vecs).regs } := by
  unfold State.makeVi
  exact State.wr_of_regs (State.wr_of_regs (State.wr_of_regs (State.wr_of_regs rfl _ _) _ _) _ _) _ _

theorem State.makeVi_spec (s : State) (v vmid base eid q count vec vecs : Nat) (hvmid : vmid < 4096) (hbase : base < 2 ^ 46) (heid : eid < 64)
    (hq : q < 2 ^ 18) (hcount : count ≤ 256) (hvec : vec ≤ 1024) (hvecs : vecs ≤ 64) :
    (s.makeVi v vmid base eid q count vec vecs).rd (Reg.VI_CFG v) = 1 + eid * 2 ^ 8 + vmid * 2 ^ 16 ∧
    (s.makeVi v vmid base eid q count vec vecs).rd (Reg.VI_QRANGE v) = q + count * 2 ^ 18 ∧
    (s.makeVi v vmid base eid q count vec vecs).rd (Reg.VI_VEC v) = vec + vecs * 2 ^ 16 ∧
    (s.makeVi v vmid base eid q count vec vecs).rd (Reg.VI_S2BASE v) = base ∧
    s.regsKept (s.makeVi v vmid base eid q count vec vecs) [Reg.VI_CFG v, Reg.VI_QRANGE v, Reg.VI_VEC v, Reg.VI_S2BASE v] := by
  have hcr : Reg.VI_CFG v ≠ Reg.VI_QRANGE v := by simp [Reg.VI_CFG, Reg.VI_QRANGE]
  have hcv : Reg.VI_CFG v ≠ Reg.VI_VEC v := by simp [Reg.VI_CFG, Reg.VI_VEC]
  have hcb : Reg.VI_CFG v ≠ Reg.VI_S2BASE v := by simp [Reg.VI_CFG, Reg.VI_S2BASE]
  have hrv : Reg.VI_QRANGE v ≠ Reg.VI_VEC v := by simp [Reg.VI_QRANGE, Reg.VI_VEC]
  have hrb : Reg.VI_QRANGE v ≠ Reg.VI_S2BASE v := by simp [Reg.VI_QRANGE, Reg.VI_S2BASE]
  have hvb : Reg.VI_VEC v ≠ Reg.VI_S2BASE v := by simp [Reg.VI_VEC, Reg.VI_S2BASE]
  unfold State.makeVi
  refine ⟨?_, ?_, ?_, ?_, ?_⟩
  · rw [State.rd_wr_ne _ _ hcb.symm, State.rd_wr_ne _ _ hcv.symm, State.rd_wr_ne _ _ hcr.symm, State.rd_wr_same]
    omega
  · rw [State.rd_wr_ne _ _ hrb.symm, State.rd_wr_ne _ _ hrv.symm, State.rd_wr_same]
    omega
  · rw [State.rd_wr_ne _ _ hvb.symm, State.rd_wr_same]
    omega
  · rw [State.rd_wr_same]
    omega
  · exact ((((show s.regsKept s _ from fun _ _ => rfl).wr (by simp)).wr (by simp)).wr (by simp)).wr (by simp)

/-- What R366 and R488 ask of the parameters of VI_CREATE. -/
structure ViBlock (p : List Byte) : Prop where
  vi : parOf p 0 2 < 4096
  vmid : parOf p 2 2 < 4096
  eid : parOf p 4 1 < 64
  zero : parOf p 5 3 = 0
  aligned : parOf p 8 8 % 4096 = 0
  base : parOf p 8 8 < 2 ^ 46
  some : 1 ≤ parOf p 20 2
  count : parOf p 20 2 ≤ 256
  queues : parOf p 16 4 + parOf p 20 2 ≤ 262144
  engine : parOf p 16 4 / 65536 = (parOf p 16 4 + parOf p 20 2 - 1) / 65536
  vecs : parOf p 24 1 ≤ 64
  vec : parOf p 22 2 + parOf p 24 1 ≤ 1024
  rest : parOf p 25 7 = 0

/-- The VI that a block of VI_CREATE makes. -/
def State.viMade (s : State) (p : List Byte) : State :=
  s.makeVi (parOf p 0 2) (parOf p 2 2) (parOf p 8 8) (parOf p 4 1) (parOf p 16 4) (parOf p 20 2) (parOf p 22 2) (parOf p 24 1)

theorem State.exec_viCreate (s : State) (src : CmdSource) (p : List Byte) (hrun : s.lemamRuns = true) (hmay : s.takes src [0, 1])
    (hop : 3 ≤ s.mode ∧ s.mode ≤ 7) (hlen : p.length = 32) (hblock : ViBlock p) (heid : parOf p 4 1 = 0 ∨ sourceCode src = 1)
    (hnew : s.rb (Reg.VI_CFG (parOf p 0 2)) 0 = false) (hfree : s.unheld (s.viQueues (parOf p 0 2)) [])
    (hapart : s.viApart (parOf p 16 4) (parOf p 20 2) (parOf p 22 2) (parOf p 24 1)) :
    exec (.viCreate src p) s = .next ((s.viMade p).answered 0 []) := by
  have hexec : exec (.viCreate src p) s = .next (s.row src 0x60 p) := rfl
  obtain ⟨hret, hsrc, hmgmt⟩ := hmay
  have hlife : ¬ s.enc.state = lifeReturn := hret
  have hden : s.cmdDenied (rowCmd src 0x60 p) = false := by
    rcases heid with h | h <;> simp [State.cmdDenied, rowCmd_parOf, hlife, h]
  have hval : s.cmdValues (rowCmd src 0x60 p) = true := by
    obtain ⟨h1, h2, h3, h4, h5, h6, h7, h8, h9, h10, h11, h12, h13⟩ := hblock
    refine Bool.and_eq_true_iff.mpr ⟨Bool.and_eq_true_iff.mpr ⟨decide_eq_true ⟨h1, h2, h3, h5, h6, h7, h8, h9, h10, h11, h12⟩, ?_⟩, ?_⟩
    · exact beq_iff_eq.mpr h4
    · exact beq_iff_eq.mpr h13
  have hpass : s.Passes (rowCmd src 0x60 p) :=
    { source := hsrc
      allowed := hden
      mode := s.cmdMode_op src 0x60 p (by decide) hmgmt hop
      header := rowCmd_headerGood src 0x60 p (by omega) (by simp [cmdLength, hlen])
      values := hval
      unlocked := rfl }
  have hbusy : s.cmdBusy (rowCmd src 0x60 p) = false :=
    Bool.or_eq_false_iff.mpr ⟨Bool.or_eq_false_iff.mpr ⟨rfl, s.heldByDeferred_unheld _ hfree⟩, hnew⟩
  rw [hexec, s.row_runs src 0x60 p hrun hpass (by decide) hbusy (State.viOverlaps_apart hapart)]
  rfl

/-! ### Queues that are reset (R384) -/

/-- Only registers, queue contexts and the engines' work have changed. -/
def QueueStep (s t : State) : Prop := t = { s with regs := t.regs, queues := t.queues, qes := t.qes }

theorem QueueStep.trans {s t u : State} (h : QueueStep s t) (k : QueueStep t u) : QueueStep s u := by
  unfold QueueStep at *
  rw [k, h]

theorem QueueStep.wr (s : State) (a v : Nat) : QueueStep s (s.wr a v) := rfl

theorem QueueStep.wf (s : State) (a hi lo v : Nat) : QueueStep s (s.wf a hi lo v) := .wr s _ _

theorem QueueStep.setQe (s : State) (e : Nat) (x : Qe) : QueueStep s (s.setQe e x) :=
  (show QueueStep s { s with qes := tabSet {} s.qes e x } from rfl).trans ((QueueStep.wf _ _ _ _ _).trans (.wf _ _ _ _ _))

theorem QueueStep.setQueueCtx (s : State) (q : Nat) (x : Queue) : QueueStep s (s.setQueueCtx q x) := rfl

theorem QueueStep.forgetWork (s : State) (q : Nat) : QueueStep s (s.forgetWork q) := (QueueStep.setQe s _ _).trans (.wr _ _ _)

theorem QueueStep.nextGen (s : State) (q : Nat) : QueueStep s (s.nextGen q) := .wf s _ _ _ _

theorem QueueStep.setQState (s : State) (q st : Nat) : QueueStep s (s.setQState q st) := .wf s _ _ _ _

theorem QueueStep.resetQueue (s : State) (q : Nat) : QueueStep s (s.resetQueue q) := by
  have hwork := (QueueStep.forgetWork s q).trans (.nextGen _ q)
  exact (((hwork.trans (.wf _ _ _ _ _)).trans (.wf _ _ _ _ _)).trans (.setQState _ _ _)).trans (.setQueueCtx _ _ _)

theorem QueueStep.foldl {α : Type} {f : State → α → State} (hf : ∀ s x, QueueStep s (f s x)) (l : List α) (s : State) :
    QueueStep s (l.foldl f s) := by
  induction l generalizing s with
  | nil => rfl
  | cons x l ih => exact (hf s x).trans (ih _)

theorem QueueStep.resetVi (s : State) (v : Nat) : QueueStep s (s.resetVi v) := .foldl QueueStep.resetQueue _ s

/-- A source that may name a VI: no enclave owns it, or the source is a PL3 ring (R483). -/
def State.mayNameVi (s : State) (src : CmdSource) (v : Nat) : Prop := s.viEid v = 0 ∨ sourceCode src = 1

theorem State.viDenied {s : State} {src : CmdSource} {v : Nat} (h : s.mayNameVi src v) : (s.viEid v != 0 && sourceCode src != 1) = false := by
  rcases h with h | h <;> simp [h]

/-- VI_DESTROY and VI_RESET name a VI that there is. -/
theorem State.viNamed_passes (s : State) (src : CmdSource) (op : Nat) (h : BitVec 16) (hopc : op = 0x61 ∨ op = 0x62)
    (hmay : s.takes src [0, 1]) (hop : 3 ≤ s.mode ∧ s.mode ≤ 7) (hh : h < 4096) (hvalid : s.rb (Reg.VI_CFG h.toNat) 0 = true)
    (hname : s.mayNameVi src h.toNat) : s.Passes (rowCmd src op (toBytes 2 h.toNat ++ toBytes 2 0)) ∧
      (rowCmd src op (toBytes 2 h.toNat ++ toBytes 2 0)).par 0 2 = h.toNat ∧
      s.cmdQueues (rowCmd src op (toBytes 2 h.toNat ++ toBytes 2 0)) = s.viQueues h.toNat := by
  obtain ⟨hret, hsrc, hmgmt⟩ := hmay
  have hlife : ¬ s.enc.state = lifeReturn := hret
  have hpar : (rowCmd src op (toBytes 2 h.toNat ++ toBytes 2 0)).par 0 2 = h.toNat :=
    ofBytes_toBytes 2 h.toNat (by have := h.isLt; omega)
  have hlt : h.toNat < 4096 := by bv_omega
  have hvi : s.namedVi (rowCmd src op (toBytes 2 h.toNat ++ toBytes 2 0)) = some h.toNat := by
    have hnamed : s.namedVi (rowCmd src op (toBytes 2 h.toNat ++ toBytes 2 0)) =
        some ((rowCmd src op (toBytes 2 h.toNat ++ toBytes 2 0)).par 0 2) := by
      rcases hopc with rfl | rfl <;> rfl
    rw [hnamed, hpar]
  have hden : s.cmdDenied (rowCmd src op (toBytes 2 h.toNat ++ toBytes 2 0)) = false := by
    have hown := State.viDenied hname
    rcases hopc with rfl | rfl <;> simpa [State.cmdDenied, hlife, hvi] using hown
  have hval : s.cmdValues (rowCmd src op (toBytes 2 h.toNat ++ toBytes 2 0)) = true := by
    have hz : (rowCmd src op (toBytes 2 h.toNat ++ toBytes 2 0)).par 2 2 = 0 := rfl
    rcases hopc with rfl | rfl <;> simp [State.cmdValues, hpar, hz, hlt, hvalid]
  refine ⟨{ source := ?_, allowed := hden, mode := ?_, header := ?_, values := hval, unlocked := ?_ }, hpar, ?_⟩
  · rcases hopc with rfl | rfl <;> exact hsrc
  · exact s.cmdMode_op src op _ (by rcases hopc with rfl | rfl <;> decide) hmgmt hop
  · rcases hopc with rfl | rfl <;> rfl
  · rcases hopc with rfl | rfl <;> rfl
  · simp [State.cmdQueues, hvi]

theorem State.exec_viDestroy (s : State) (src : CmdSource) (h : BitVec 16) (hrun : s.lemamRuns = true) (hmay : s.takes src [0, 1])
    (hop : 3 ≤ s.mode ∧ s.mode ≤ 7) (hh : h < 4096) (hvalid : s.rb (Reg.VI_CFG h.toNat) 0 = true) (hname : s.mayNameVi src h.toNat)
    (hroom : s.lemam.deferred.length < 16) (hfree : s.unheld (s.viQueues h.toNat) []) :
    exec (.viDestroy src h) s = .next ((s.resetVi h.toNat).defer
        { route := { src := src, opcode := 0x61, seq := 0 }, queues := s.viQueues h.toNat, channels := [], vi := some h.toNat,
          params := toBytes 2 h.toNat ++ toBytes 2 0 }) := by
  have hexec : exec (.viDestroy src h) s = .next (s.row src 0x61 (toBytes 2 h.toNat ++ toBytes 2 0)) := rfl
  obtain ⟨hpass, hpar, hqueues⟩ := s.viNamed_passes src 0x61 h (.inl rfl) hmay hop hh hvalid hname
  have hbusy : s.cmdBusy (rowCmd src 0x61 (toBytes 2 h.toNat ++ toBytes 2 0)) = false :=
    Bool.or_eq_false_iff.mpr ⟨s.cmdBusy_room _ hroom (by rw [hqueues]; exact hfree), rfl⟩
  rw [hexec, s.row_runs src 0x61 _ hrun hpass (by decide) hbusy rfl]
  have hdo : ∀ v, (rowCmd src 0x61 (toBytes 2 h.toNat ++ toBytes 2 0)).par 0 2 = v →
      s.cmdRun (rowCmd src 0x61 (toBytes 2 h.toNat ++ toBytes 2 0)) = (s.resetVi v).defer
        { route := { src := src, opcode := 0x61, seq := 0 }, queues := s.viQueues v, channels := [], vi := some v,
          params := toBytes 2 h.toNat ++ toBytes 2 0 } := by
    rintro _ rfl
    rfl
  rw [hdo _ hpar]

theorem State.exec_viReset (s : State) (src : CmdSource) (h : BitVec 16) (hrun : s.lemamRuns = true) (hmay : s.takes src [0, 1])
    (hop : 3 ≤ s.mode ∧ s.mode ≤ 7) (hh : h < 4096) (hvalid : s.rb (Reg.VI_CFG h.toNat) 0 = true) (hname : s.mayNameVi src h.toNat)
    (hroom : s.lemam.deferred.length < 16) (hfree : s.unheld (s.viQueues h.toNat) []) :
    exec (.viReset src h) s = .next ((s.resetVi h.toNat).defer
        { route := { src := src, opcode := 0x62, seq := 0 }, queues := s.viQueues h.toNat, channels := [], vi := none,
          params := toBytes 2 h.toNat ++ toBytes 2 0 }) := by
  have hexec : exec (.viReset src h) s = .next (s.row src 0x62 (toBytes 2 h.toNat ++ toBytes 2 0)) := rfl
  obtain ⟨hpass, hpar, hqueues⟩ := s.viNamed_passes src 0x62 h (.inr rfl) hmay hop hh hvalid hname
  have hbusy : s.cmdBusy (rowCmd src 0x62 (toBytes 2 h.toNat ++ toBytes 2 0)) = false :=
    Bool.or_eq_false_iff.mpr ⟨s.cmdBusy_room _ hroom (by rw [hqueues]; exact hfree), rfl⟩
  rw [hexec, s.row_runs src 0x62 _ hrun hpass (by decide) hbusy rfl]
  have hdo : ∀ v, (rowCmd src 0x62 (toBytes 2 h.toNat ++ toBytes 2 0)).par 0 2 = v →
      s.cmdRun (rowCmd src 0x62 (toBytes 2 h.toNat ++ toBytes 2 0)) = (s.resetVi v).defer
        { route := { src := src, opcode := 0x62, seq := 0 }, queues := s.viQueues v, channels := [], vi := none,
          params := toBytes 2 h.toNat ++ toBytes 2 0 } := by
    rintro _ rfl
    rfl
  rw [hdo _ hpar]

theorem State.deferred_resetVi (s : State) (v : Nat) (d : Deferred) : s.deferred ((s.resetVi v).defer d) d := by
  have hstep := QueueStep.resetVi s v
  generalize s.resetVi v = u at hstep
  exact State.deferred_defer d (by rw [hstep]) (by rw [hstep])

/-! ### The status word of a queue (R390) -/

/-- Within a field that is written with 0 every part reads 0. -/
theorem fld_putFld_zero (v hi lo h l : Nat) (hl : lo ≤ hi) (hlo : lo ≤ l) (hhi : h ≤ hi) (hh : l ≤ h) : fld (putFld v hi lo 0) h l = 0 := by
  apply Nat.eq_of_testBit_eq
  intro i
  simp only [fld, Nat.testBit_mod_two_pow, Nat.testBit_shiftRight, testBit_putFld _ _ _ _ _ hl, Nat.zero_testBit]
  by_cases hi' : i < h - l + 1
  · simp [show lo ≤ l + i ∧ l + i ≤ hi by omega]
  · simp [hi']

/-- A queue's status word with its counts cleared and a state: GEN stays. -/
def State.statusCleared (s : State) (q st : Nat) : State := ((s.wf (qstat q) 47 0 0).wf (qstat q) 62 59 0).setQState q st

theorem State.rd_statusCleared_ne (s : State) {q st a : Nat} (h : qstat q ≠ a) : (s.statusCleared q st).rd a = s.rd a := by
  rw [State.statusCleared, State.setQState, State.rd_wf_ne _ _ _ _ h, State.rd_wf_ne _ _ _ _ h, State.rd_wf_ne _ _ _ _ h]

theorem State.statusCleared_spec (s : State) (q st : Nat) (hst : st < 8) : (s.statusCleared q st).qState q = st ∧
    (s.statusCleared q st).qHead q = 0 ∧ (s.statusCleared q st).qTail q = 0 ∧ (s.statusCleared q st).qGen q = s.qGen q := by
  unfold State.statusCleared State.setQState State.qState State.qHead State.qTail State.qGen
  refine ⟨?_, ?_, ?_, ?_⟩
  · rw [State.rf_wf_same _ _ _ _ _ (by decide) (by decide)]
    exact Nat.mod_eq_of_lt hst
  · rw [State.rf_wf_out _ _ (by decide) (by decide) (by decide) (by decide),
      State.rf_wf_out _ _ (by decide) (by decide) (by decide) (by decide), State.rf, State.rd_wf_same _ _ _ _ _ (by decide) (by decide)]
    exact fld_putFld_zero _ _ _ _ _ (by decide) (by decide) (by decide) (by decide)
  · rw [State.rf_wf_out _ _ (by decide) (by decide) (by decide) (by decide),
      State.rf_wf_out _ _ (by decide) (by decide) (by decide) (by decide), State.rf, State.rd_wf_same _ _ _ _ _ (by decide) (by decide)]
    exact fld_putFld_zero _ _ _ _ _ (by decide) (by decide) (by decide) (by decide)
  · rw [State.rf_wf_out _ _ (by decide) (by decide) (by decide) (by decide),
      State.rf_wf_out _ _ (by decide) (by decide) (by decide) (by decide),
      State.rf_wf_out _ _ (by decide) (by decide) (by decide) (by decide)]

theorem State.qGen_nextGen (s : State) (q : Nat) : (s.nextGen q).qGen q = (s.qGen q + 1) % 256 := by
  rw [State.nextGen, State.qGen, State.rf_wf_same _ _ _ _ _ (by decide) (by decide)]
  exact Nat.mod_mod _ _

/-- The status word reads by its fields. -/
theorem State.queueWord_congr {s t : State} {q : Nat} (h : t.rd (qstat q) = s.rd (qstat q)) :
    t.qState q = s.qState q ∧ t.qHead q = s.qHead q ∧ t.qTail q = s.qTail q ∧ t.qGen q = s.qGen q :=
  ⟨State.rf_congr h _ _, State.rf_congr h _ _, State.rf_congr h _ _, State.rf_congr h _ _⟩

theorem qstat_ne_discards (q : Nat) : Reg.QE_QDISC (engineOf q) (q % 65536) ≠ qstat q := by
  simp only [qstat, Reg.QE_QSTAT, Reg.QE_QDISC]
  omega

theorem qstat_ne_engine (q : Nat) : Reg.QE_STATUS (engineOf q) ≠ qstat q := by
  simp only [qstat, Reg.QE_QSTAT, Reg.QE_STATUS]
  omega

/-! ### QUEUE_BIND (R366) -/

/-- The context that a block of QUEUE_BIND gives a queue. -/
def boundQueue (p : List Byte) : Queue :=
  { kind := parOf p 4 1, ring := parOf p 8 8, comp := parOf p 16 8, log2 := parOf p 5 1, vec := parOf p 6 1, port := parOf p 7 1 }

/-- The state in which the block's queue is bound. -/
def State.queueBound (s : State) (p : List Byte) : State :=
  s.bindQueue (parOf p 0 4) (parOf p 4 1) (parOf p 8 8) (parOf p 16 8) (parOf p 5 1) (parOf p 6 1) (parOf p 7 1)

theorem State.bindQueue_eq (s : State) (q kind ring comp log2 vec port : Nat) : s.bindQueue q kind ring comp log2 vec port =
    (((s.nextGen q).setQueueCtx q { kind := kind, ring := ring, comp := comp, log2 := log2, vec := vec, port := port }).statusCleared q qIdle).wr
      (Reg.QE_QDISC (engineOf q) (q % 65536)) 0 := by
  unfold State.bindQueue State.statusCleared
  exact rfl

theorem State.queueBound_eq (s : State) (p : List Byte) : s.queueBound p =
    ((((s.nextGen (parOf p 0 4)).setQueueCtx (parOf p 0 4) (boundQueue p)).statusCleared (parOf p 0 4) qIdle).wr
      (Reg.QE_QDISC (engineOf (parOf p 0 4)) (parOf p 0 4 % 65536)) 0) := s.bindQueue_eq _ _ _ _ _ _ _

theorem State.queue_setQueueCtx (s : State) (q : Nat) (x : Queue) : (s.setQueueCtx q x).queue q = x := tabGet_set_same _ _ _ _

theorem State.rd_setQueueCtx (s : State) (q : Nat) (x : Queue) (a : Nat) : (s.setQueueCtx q x).rd a = s.rd a := rfl

/-- What binding does to the queue's own word and context. -/
theorem State.bindQueue_spec (s : State) (q : Nat) (x : Queue) :
    let t := ((((s.nextGen q).setQueueCtx q x).statusCleared q qIdle).wr (Reg.QE_QDISC (engineOf q) (q % 65536)) 0)
    t.qState q = qIdle ∧ t.qHead q = 0 ∧ t.qTail q = 0 ∧ t.qGen q = (s.qGen q + 1) % 256 ∧
      s.regsKept t [qstat q, Reg.QE_QDISC (engineOf q) (q % 65536)] := by
  intro t
  obtain ⟨hst, hhead, htail, hgen⟩ := ((s.nextGen q).setQueueCtx q x).statusCleared_spec q qIdle (by decide)
  obtain ⟨h1, h2, h3, h4⟩ := State.queueWord_congr
    (State.rd_wr_ne (((s.nextGen q).setQueueCtx q x).statusCleared q qIdle) 0 (qstat_ne_discards q))
  have hctx := (State.queueWord_congr ((s.nextGen q).rd_setQueueCtx q x (qstat q))).2.2.2
  refine ⟨h1.trans hst, h2.trans hhead, h3.trans htail, h4.trans (hgen.trans (hctx.trans (s.qGen_nextGen q))), ?_⟩
  intro a ha
  simp only [List.mem_cons, List.not_mem_nil, or_false, not_or] at ha
  rw [State.rd_wr_ne _ _ (Ne.symm ha.2), State.rd_statusCleared_ne _ (Ne.symm ha.1), State.rd_setQueueCtx, State.nextGen,
    State.rd_wf_ne _ _ _ _ (Ne.symm ha.1)]

theorem State.wr_eq (s : State) (a v : Nat) : ∃ r, s.wr a v = { s with regs := r } := ⟨_, rfl⟩

theorem State.wf_eq (s : State) (a hi lo v : Nat) : ∃ r, s.wf a hi lo v = { s with regs := r } := s.wr_eq _ _

theorem State.statusCleared_eq (s : State) (q st : Nat) : ∃ r, s.statusCleared q st = { s with regs := r } := by
  unfold State.statusCleared State.setQState
  obtain ⟨r, hr⟩ := s.wf_eq (qstat q) 47 0 0
  rw [hr]
  obtain ⟨r', hr'⟩ := { s with regs := r }.wf_eq (qstat q) 62 59 0
  rw [hr']
  exact { s with regs := r' }.wf_eq _ _ _ _

theorem State.queueBound_step (s : State) (p : List Byte) :
    s.queueBound p = { s with regs := (s.queueBound p).regs, queues := (s.queueBound p).queues } := by
  suffices h : ∃ r c, s.queueBound p = { s with regs := r, queues := c } by
    obtain ⟨r, c, h⟩ := h
    rw [h]
  rw [s.queueBound_eq p]
  generalize parOf p 0 4 = q
  obtain ⟨r, hr⟩ := s.wf_eq (qstat q) 55 48 ((s.qGen q + 1) % 256)
  rw [State.nextGen, hr]
  obtain ⟨c, hc⟩ : ∃ c, { s with regs := r }.setQueueCtx q (boundQueue p) = { s with regs := r, queues := c } := ⟨_, rfl⟩
  rw [hc]
  obtain ⟨r', hr'⟩ := { s with regs := r, queues := c }.statusCleared_eq q qIdle
  rw [hr']
  obtain ⟨r'', hr''⟩ := { s with regs := r', queues := c }.wr_eq (Reg.QE_QDISC (engineOf q) (q % 65536)) 0
  exact ⟨r'', c, hr''⟩

theorem State.queue_wr (s : State) (a v q : Nat) : (s.wr a v).queue q = s.queue q := rfl

theorem State.queue_wf (s : State) (a hi lo v q : Nat) : (s.wf a hi lo v).queue q = s.queue q := s.queue_wr _ _ _

theorem State.queue_statusCleared (s : State) (q st k : Nat) : (s.statusCleared q st).queue k = s.queue k := by
  rw [State.statusCleared, State.setQState, State.queue_wf, State.queue_wf, State.queue_wf]

theorem State.queueBound_spec (s : State) (p : List Byte) :
    (s.queueBound p).qState (parOf p 0 4) = qIdle ∧ (s.queueBound p).qHead (parOf p 0 4) = 0 ∧ (s.queueBound p).qTail (parOf p 0 4) = 0 ∧
      (s.queueBound p).qGen (parOf p 0 4) = (s.qGen (parOf p 0 4) + 1) % 256 ∧ (s.queueBound p).queue (parOf p 0 4) = boundQueue p ∧
      s.regsKept (s.queueBound p) [qstat (parOf p 0 4), Reg.QE_QDISC (engineOf (parOf p 0 4)) (parOf p 0 4 % 65536)] := by
  rw [s.queueBound_eq p]
  obtain ⟨hst, hhead, htail, hgen, hregs⟩ := s.bindQueue_spec (parOf p 0 4) (boundQueue p)
  exact ⟨hst, hhead, htail, hgen, by rw [State.queue_wr, State.queue_statusCleared, State.queue_setQueueCtx], hregs⟩

/-- What R366 asks of the parameters of QUEUE_BIND for a queue of the VI `v`. -/
structure State.BindBlock (s : State) (p : List Byte) (v : Nat) : Prop where
  vi : s.viOfQueue (parOf p 0 4) = some v
  kind : parOf p 4 1 ≤ 4
  small : 4 ≤ parOf p 5 1
  large : parOf p 5 1 ≤ 20
  vec : parOf p 6 1 < s.rf (Reg.VI_VEC v) 22 16 ∨ parOf p 6 1 = 0xFF
  port : parOf p 7 1 < 128 ∨ (parOf p 4 1 ≠ 1 ∧ parOf p 4 1 ≠ 2)
  ring : parOf p 8 8 % 4096 = 0
  comp : parOf p 16 8 % 4096 = 0

theorem State.bindParams_of_block {s : State} {src : CmdSource} {p : List Byte} {v : Nat} (h : s.BindBlock p v) :
    s.bindParams (rowCmd src 0x63 p) = true := by
  obtain ⟨hvi, hkind, hsmall, hlarge, hvec, hport, hring, hcomp⟩ := h
  have hport' : (decide (parOf p 7 1 < 128) || (parOf p 4 1 != typeTx && parOf p 4 1 != typeRx)) = true := by
    rcases hport with h | ⟨h1, h2⟩
    · simp [h]
    · simp [typeTx, typeRx, h1, h2]
  have hvec' : (decide (parOf p 6 1 < s.rf (Reg.VI_VEC v) 22 16) || parOf p 6 1 == 0xFF) = true := by
    rcases hvec with h | h <;> simp [h]
  simp only [State.bindParams, rowCmd_parOf, hvi]
  exact Bool.and_eq_true_iff.mpr ⟨Bool.and_eq_true_iff.mpr ⟨Bool.and_eq_true_iff.mpr ⟨Bool.and_eq_true_iff.mpr
    ⟨decide_eq_true hkind, decide_eq_true ⟨hsmall, hlarge⟩⟩, hvec'⟩, hport'⟩, decide_eq_true ⟨hring, hcomp⟩⟩

theorem State.exec_queueBind (s : State) (src : CmdSource) (p : List Byte) (v : Nat) (hrun : s.lemamRuns = true) (hmay : s.takes src [0, 1])
    (hop : 3 ≤ s.mode ∧ s.mode ≤ 7) (hlen : p.length = 24) (hblock : s.BindBlock p v) (hname : s.mayNameVi src v)
    (hunbound : s.qState (parOf p 0 4) = qUnbound) (hfree : s.unheld (s.viQueues v) []) :
    exec (.queueBind src p) s = .next ((s.queueBound p).answered 0 []) := by
  have hexec : exec (.queueBind src p) s = .next (s.row src 0x63 p) := rfl
  obtain ⟨hret, hsrc, hmgmt⟩ := hmay
  have hlife : ¬ s.enc.state = lifeReturn := hret
  have hvi : s.namedVi (rowCmd src 0x63 p) = some v := hblock.vi
  have hden : s.cmdDenied (rowCmd src 0x63 p) = false := by
    have hown := State.viDenied hname
    simpa [State.cmdDenied, hlife, hvi] using hown
  have hpass : s.Passes (rowCmd src 0x63 p) :=
    { source := hsrc
      allowed := hden
      mode := s.cmdMode_op src 0x63 p (by decide) hmgmt hop
      header := rowCmd_headerGood src 0x63 p (by omega) (by simp [cmdLength, hlen])
      values := State.bindParams_of_block hblock
      unlocked := rfl }
  have hqueues : s.cmdQueues (rowCmd src 0x63 p) = s.viQueues v := by simp [State.cmdQueues, hvi]
  have hown : (s.qState (parOf p 0 4) != qUnbound) = false := by simp [hunbound]
  have hbusy : s.cmdBusy (rowCmd src 0x63 p) = false :=
    Bool.or_eq_false_iff.mpr ⟨Bool.or_eq_false_iff.mpr ⟨rfl, s.heldByDeferred_unheld _ (by rw [hqueues]; exact hfree)⟩, hown⟩
  rw [hexec, s.row_runs src 0x63 p hrun hpass (by decide) hbusy rfl]
  rfl

/-! ### QUEUE_RESET (R384) -/

theorem State.rd_forgetWork (s : State) (q : Nat) : (s.forgetWork q).rd (qstat q) = s.rd (qstat q) := by
  unfold State.forgetWork
  dsimp only
  rw [State.rd_wr_ne _ _ (qstat_ne_discards q), State.setQe, State.rd_wf_ne _ _ _ _ (qstat_ne_engine q),
    State.rd_wf_ne _ _ _ _ (qstat_ne_engine q)]
  rfl

/-- The context of a queue with nothing of its ring under way, as a reset leaves it. -/
def State.contextEmptied (s : State) (q : Nat) : State := s.setQueueCtx q { s.queue q with next := 0, flight := [], writing := false }

theorem State.rd_contextEmptied (s : State) (q a : Nat) : (s.contextEmptied q).rd a = s.rd a := s.rd_setQueueCtx _ _ _

theorem State.resetQueue_eq (s : State) (q : Nat) : s.resetQueue q =
    (((s.forgetWork q).nextGen q).statusCleared q (if s.qState q = qError then qUnbound else qIdle)).contextEmptied q := by
  unfold State.resetQueue State.statusCleared State.contextEmptied
  exact rfl

theorem State.resetQueue_spec (s : State) (q : Nat) : (s.resetQueue q).qHead q = 0 ∧ (s.resetQueue q).qTail q = 0 ∧
    (s.resetQueue q).qGen q = (s.qGen q + 1) % 256 ∧ (s.resetQueue q).qState q = (if s.qState q = qError then qUnbound else qIdle) ∧
    ((s.resetQueue q).queue q).flight = [] ∧ ((s.resetQueue q).queue q).next = 0 := by
  rw [s.resetQueue_eq q]
  have hst : (if s.qState q = qError then qUnbound else qIdle) < 8 := by split <;> decide
  have hgen := (((s.forgetWork q).qGen_nextGen q)).trans (congrArg (fun g => (g + 1) % 256) (State.queueWord_congr (s.rd_forgetWork q)).2.2.2)
  obtain ⟨hstate, hhead, htail, hgen'⟩ := ((s.forgetWork q).nextGen q).statusCleared_spec q _ hst
  obtain ⟨h1, h2, h3, h4⟩ := State.queueWord_congr
    (State.rd_contextEmptied (((s.forgetWork q).nextGen q).statusCleared q (if s.qState q = qError then qUnbound else qIdle)) q (qstat q))
  refine ⟨h2.trans hhead, h3.trans htail, h4.trans (hgen'.trans hgen), h1.trans hstate, ?_, ?_⟩
  · rw [State.contextEmptied, State.queue_setQueueCtx]
  · rw [State.contextEmptied, State.queue_setQueueCtx]

/-- The queues that QUEUE_RESET holds: those of the queue's VI. -/
def State.heldQueues (s : State) (q : Nat) : List Nat :=
  match s.viOfQueue q with
  | some v => s.viQueues v
  | none => []

theorem State.exec_queueReset (s : State) (src : CmdSource) (x : Word32) (hrun : s.lemamRuns = true) (hmay : s.takes src [0, 1])
    (hop : 3 ≤ s.mode ∧ s.mode ≤ 7) (hx : x.toNat < 262144) (hbound : s.qState x.toNat ≠ qUnbound) (hroom : s.lemam.deferred.length < 16)
    (hvi : ∀ v, s.viOfQueue x.toNat = some v → s.mayNameVi src v ∧ s.unheld (s.viQueues v) []) :
    exec (.queueReset src x) s = .next ((s.resetQueue x.toNat).defer
      { route := { src := src, opcode := 0x64, seq := 0 }, queues := s.heldQueues x.toNat, channels := [], vi := none,
        params := toBytes 4 x.toNat }) := by
  have hexec : exec (.queueReset src x) s = .next (s.row src 0x64 (toBytes 4 x.toNat)) := rfl
  obtain ⟨hret, hsrc, hmgmt⟩ := hmay
  have hlife : ¬ s.enc.state = lifeReturn := hret
  have hpar : (rowCmd src 0x64 (toBytes 4 x.toNat)).par 0 4 = x.toNat := ofBytes_toBytes 4 x.toNat (by have := x.isLt; omega)
  have hnamed : s.namedVi (rowCmd src 0x64 (toBytes 4 x.toNat)) = s.viOfQueue x.toNat := congrArg s.viOfQueue hpar
  have hqueues : s.cmdQueues (rowCmd src 0x64 (toBytes 4 x.toNat)) = s.heldQueues x.toNat := by
    rw [State.cmdQueues, hnamed, State.heldQueues] <;> rfl
  have hfree : s.unheld (s.heldQueues x.toNat) [] := by
    unfold State.heldQueues
    cases hv : s.viOfQueue x.toNat with
    | none => exact s.unheld_nil
    | some v => exact (hvi v hv).2
  have hden : s.cmdDenied (rowCmd src 0x64 (toBytes 4 x.toNat)) = false := by
    cases hv : s.viOfQueue x.toNat with
    | none => simp [State.cmdDenied, hlife, hnamed, hv]
    | some v =>
      have hown := State.viDenied (hvi v hv).1
      simpa [State.cmdDenied, hlife, hnamed, hv] using hown
  have hval : s.cmdValues (rowCmd src 0x64 (toBytes 4 x.toNat)) = true := by
    simp [State.cmdValues, hpar, hx, hbound]
  have hpass : s.Passes (rowCmd src 0x64 (toBytes 4 x.toNat)) :=
    { source := hsrc
      allowed := hden
      mode := s.cmdMode_op src 0x64 _ (by decide) hmgmt hop
      header := rfl
      values := hval
      unlocked := rfl }
  have hbusy : s.cmdBusy (rowCmd src 0x64 (toBytes 4 x.toNat)) = false :=
    Bool.or_eq_false_iff.mpr ⟨s.cmdBusy_room _ hroom (by rw [hqueues]; exact hfree), rfl⟩
  rw [hexec, s.row_runs src 0x64 _ hrun hpass (by decide) hbusy rfl]
  have hdo : ∀ q l, (rowCmd src 0x64 (toBytes 4 x.toNat)).par 0 4 = q → s.cmdQueues (rowCmd src 0x64 (toBytes 4 x.toNat)) = l →
      s.cmdRun (rowCmd src 0x64 (toBytes 4 x.toNat)) = (s.resetQueue q).defer
        { route := { src := src, opcode := 0x64, seq := 0 }, queues := l, channels := [], vi := none, params := toBytes 4 x.toNat } := by
    rintro _ _ rfl rfl
    rfl
  rw [hdo _ _ hpar hqueues]

theorem State.deferred_resetQueue (s : State) (q : Nat) (d : Deferred) : s.deferred ((s.resetQueue q).defer d) d := by
  have hstep := QueueStep.resetQueue s q
  generalize s.resetQueue q = u at hstep
  exact State.deferred_defer d (by rw [hstep]) (by rw [hstep])

theorem State.queue_defer (u : State) (d : Deferred) (q : Nat) : (u.defer d).queue q = u.queue q := by
  unfold State.defer
  dsimp only
  split <;> rfl

theorem State.queueReset_spec (s : State) (q : Nat) (d : Deferred) : ((s.resetQueue q).defer d).qHead q = 0 ∧
    ((s.resetQueue q).defer d).qTail q = 0 ∧ ((s.resetQueue q).defer d).qGen q = (s.qGen q + 1) % 256 ∧
    ((s.resetQueue q).defer d).qState q = (if s.qState q = qError then qUnbound else qIdle) ∧
    (((s.resetQueue q).defer d).queue q).flight = [] ∧ (((s.resetQueue q).defer d).queue q).next = 0 := by
  obtain ⟨hhead, htail, hgen, hstate, hflight, hnext⟩ := s.resetQueue_spec q
  generalize s.resetQueue q = u at hhead htail hgen hstate hflight hnext
  have hne : cmdStatus ≠ qstat q := by
    simp only [cmdStatus, qstat, Reg.QE_QSTAT]
    omega
  obtain ⟨h1, h2, h3, h4⟩ := State.queueWord_congr (u.rd_defer d hne)
  rw [State.queue_defer]
  exact ⟨h2.trans hhead, h3.trans htail, h4.trans hgen, h1.trans hstate, hflight, hnext⟩

/-! ### Write lists (R487) -/

/-- The writes of a list in order, with the authority that a command of a source has. -/
def State.listWritten (s : State) (src : CmdSource) (l : List (Nat × Nat × Nat)) : State :=
  let who : Requester := { agent := .lemam, pl := if sourcePl3 src then 3 else 2, eid := 0 }
  l.foldl (fun s w => (s.busWrite who w.1 w.2.1 w.2.2 (s.whoStamp who 12 10)).2) s

/-- A list that can be read is no longer than a header allows. -/
theorem listWrites_length {op : Nat} {p : List Byte} {l : List (Nat × Nat × Nat)} (h : listWrites op p = some l) : p.length ≤ 4080 := by
  unfold listWrites at h
  dsimp only at h
  split at h
  · cases h
  · omega

/-- The commands whose parameters are a write list. -/
def listOps : List Nat := [0x70, 0x71, 0x72, 0x80, 0x90]

/-- A write list that can be read, of which no write meets a lock, is carried out. -/
theorem State.row_listed (s : State) (src : CmdSource) (op : Nat) (p : List Byte) (l : List (Nat × Nat × Nat)) (hrun : s.lemamRuns = true)
    (hop : op ∈ listOps) (hmay : s.takes src (cmdSources op)) (hmode : 3 ≤ s.mode ∧ s.mode ≤ 7) (hden : s.cmdDenied (rowCmd src op p) = false)
    (hl : listWrites op p = some l) (hlock : ∀ w ∈ l, s.writeIsLocked w.1 w.2.2 = false) :
    s.row src op p = (s.listWritten src l).answered 0 [] := by
  obtain ⟨hret, hsrc, hmgmt⟩ := hmay
  have hany : (l.any fun w => s.writeIsLocked w.1 w.2.2) = false := by simpa using hlock
  simp only [listOps, List.mem_cons, List.not_mem_nil, or_false] at hop
  have hfacts : op ∈ opModeOps ∧ op ∈ freeOps ∧ cmdLength op = none ∧ s.cmdValues (rowCmd src op p) = (listWrites op p).isSome ∧
      s.cmdLocked (rowCmd src op p) = (match listWrites op p with
        | some ws => ws.any fun w => s.writeIsLocked w.1 w.2.2
        | none => false) ∧
      s.cmdRun (rowCmd src op p) = (s.listWritten src ((listWrites op p).getD [])).answered 0 [] := by
    rcases hop with rfl | rfl | rfl | rfl | rfl <;> exact ⟨by decide, by decide, rfl, rfl, rfl, rfl⟩
  obtain ⟨hm, hf, hlen, hval, hlocked, hdo⟩ := hfacts
  rw [hl] at hval hlocked hdo
  have hpass : s.Passes (rowCmd src op p) :=
    { source := hsrc
      allowed := hden
      mode := s.cmdMode_op src op p hm hmgmt hmode
      header := rowCmd_headerGood src op p (listWrites_length hl) (by simp [hlen])
      values := hval
      unlocked := hlocked.trans hany }
  rw [s.row_free src op p hrun hpass hf, hdo]
  rfl

theorem State.exec_portConfig (s : State) (src : CmdSource) (a : Byte) (ws : List CfgWrite) (l : List (Nat × Nat × Nat))
    (hrun : s.lemamRuns = true) (hmay : s.takes src [0, 1, 2, 4]) (hmode : 3 ≤ s.mode ∧ s.mode ≤ 7)
    (hl : listWrites 0x70 (listBytes a ws) = some l) (hlock : ∀ w ∈ l, s.writeIsLocked w.1 w.2.2 = false) :
    exec (.portConfig src a ws) s = .next ((s.listWritten src l).answered 0 []) := by
  have hexec : exec (.portConfig src a ws) s = .next (s.row src 0x70 (listBytes a ws)) := rfl
  rw [hexec, s.row_listed src 0x70 _ l hrun (by decide) hmay hmode (s.cmdDenied_open src _ _ (by decide) hmay.1) hl hlock]

theorem State.exec_switchConfig (s : State) (src : CmdSource) (ws : List CfgWrite) (l : List (Nat × Nat × Nat))
    (hrun : s.lemamRuns = true) (hmay : s.takes src [0, 1, 2, 4]) (hmode : 3 ≤ s.mode ∧ s.mode ≤ 7)
    (hl : listWrites 0x71 (listBytes 0 ws) = some l) (hlock : ∀ w ∈ l, s.writeIsLocked w.1 w.2.2 = false) :
    exec (.switchConfig src ws) s = .next ((s.listWritten src l).answered 0 []) := by
  have hexec : exec (.switchConfig src ws) s = .next (s.row src 0x71 (listBytes 0 ws)) := rfl
  rw [hexec, s.row_listed src 0x71 _ l hrun (by decide) hmay hmode (s.cmdDenied_open src _ _ (by decide) hmay.1) hl hlock]

/-- A list for Dinath is refused when one of its writes is guarded and the source has no PL3 (R485). -/
theorem State.cmdDenied_guarded (s : State) (src : CmdSource) (p : List Byte) (l : List (Nat × Nat × Nat)) (hret : s.enc.state ≠ 3)
    (hl : listWrites 0x72 p = some l) (hguard : sourcePl3 src = true ∨ ∀ w ∈ l, s.ptGuarded w.1 w.2.2 = false) :
    s.cmdDenied (rowCmd src 0x72 p) = false := by
  have hlife : ¬ s.enc.state = lifeReturn := hret
  have hparams : (rowCmd src 0x72 p).params = p := rfl
  rcases hguard with h | h
  · simp [State.cmdDenied, hlife, h]
  · have hany : (l.any fun w => s.ptGuarded w.1 w.2.2) = false := by simpa using h
    simp only [State.cmdDenied, rowCmd_opcode, hlife, false_and, if_false, hparams, hl, hany, Bool.and_false]

theorem State.exec_dinathConfig (s : State) (src : CmdSource) (ws : List CfgWrite) (l : List (Nat × Nat × Nat))
    (hrun : s.lemamRuns = true) (hmay : s.takes src [0, 1, 2, 4]) (hmode : 3 ≤ s.mode ∧ s.mode ≤ 7)
    (hl : listWrites 0x72 (listBytes 0 ws) = some l) (hlock : ∀ w ∈ l, s.writeIsLocked w.1 w.2.2 = false)
    (hguard : sourcePl3 src = true ∨ ∀ w ∈ l, s.ptGuarded w.1 w.2.2 = false) :
    exec (.dinathConfig src ws) s = .next ((s.listWritten src l).answered 0 []) := by
  have hexec : exec (.dinathConfig src ws) s = .next (s.row src 0x72 (listBytes 0 ws)) := rfl
  rw [hexec, s.row_listed src 0x72 _ l hrun (by decide) hmay hmode (s.cmdDenied_guarded src _ l hmay.1 hl hguard) hl hlock]

theorem State.exec_phaseBaseConfig (s : State) (src : CmdSource) (a : Byte) (ws : List CfgWrite) (l : List (Nat × Nat × Nat))
    (hrun : s.lemamRuns = true) (hmay : s.takes src [0, 1, 2]) (hmode : 3 ≤ s.mode ∧ s.mode ≤ 7)
    (hl : listWrites 0x80 (listBytes a ws) = some l) (hlock : ∀ w ∈ l, s.writeIsLocked w.1 w.2.2 = false) :
    exec (.phaseBaseConfig src a ws) s = .next ((s.listWritten src l).answered 0 []) := by
  have hexec : exec (.phaseBaseConfig src a ws) s = .next (s.row src 0x80 (listBytes a ws)) := rfl
  rw [hexec, s.row_listed src 0x80 _ l hrun (by decide) hmay hmode (s.cmdDenied_open src _ _ (by decide) hmay.1) hl hlock]

theorem State.exec_pairConfig (s : State) (src : CmdSource) (ws : List CfgWrite) (l : List (Nat × Nat × Nat))
    (hrun : s.lemamRuns = true) (hmay : s.takes src [0, 1, 2]) (hmode : 3 ≤ s.mode ∧ s.mode ≤ 7)
    (hl : listWrites 0x90 (listBytes 0 ws) = some l) (hlock : ∀ w ∈ l, s.writeIsLocked w.1 w.2.2 = false) :
    exec (.pairConfig src ws) s = .next ((s.listWritten src l).answered 0 []) := by
  have hexec : exec (.pairConfig src ws) s = .next (s.row src 0x90 (listBytes 0 ws)) := rfl
  rw [hexec, s.row_listed src 0x90 _ l hrun (by decide) hmay hmode (s.cmdDenied_open src _ _ (by decide) hmay.1) hl hlock]

/-! ### SHUTTER (R556) -/

theorem par_word (src : CmdSource) (op : Nat) (w : Word64) : (rowCmd src op (toBytes 8 w.toNat)).par 0 8 = w.toNat :=
  ofBytes_toBytes 8 w.toNat (by have := w.isLt; omega)

/-- A shutter that may be asked for. -/
theorem State.row_shutter (s : State) (src : CmdSource) (w : Word64) (hrun : s.lemamRuns = true) (hmay : s.takes src [0, 1, 2, 3])
    (hop : 3 ≤ s.mode ∧ s.mode ≤ 7) (harmed : s.rb Reg.GT_SHUTTER_CTRL 1 = false) :
    exec (.shutter src w) s = .next (if w.toNat ≤ s.now then (s.shutter s.now).answered 0 (toBytes 8 s.now)
      else ((s.storeReg Reg.GT_SHUTTER w.toNat).armShutter).answered 0 (toBytes 8 w.toNat)) := by
  have hexec : exec (.shutter src w) s = .next (s.row src 0xA0 (toBytes 8 w.toNat)) := rfl
  have hpass := s.passes_open src 0xA0 (toBytes 8 w.toNat) (by decide) hmay (s.cmdMode_op src _ _ (by decide) hmay.2.2 hop)
    (rowCmd_headerGood src _ _ (by simp) (by simp [cmdLength])) rfl rfl
  have hbusy : s.cmdBusy (rowCmd src 0xA0 (toBytes 8 w.toNat)) = false :=
    Bool.or_eq_false_iff.mpr ⟨Bool.or_eq_false_iff.mpr ⟨rfl, s.heldByDeferred_unheld _ s.unheld_nil⟩, harmed⟩
  rw [hexec, s.row_runs src 0xA0 _ hrun hpass (by decide) hbusy rfl]
  have hdo : ∀ g, (rowCmd src 0xA0 (toBytes 8 w.toNat)).par 0 8 = g → s.cmdRun (rowCmd src 0xA0 (toBytes 8 w.toNat)) =
      if g ≤ s.now then (s.shutter s.now).answered 0 (toBytes 8 s.now)
      else ((s.storeReg Reg.GT_SHUTTER g).armShutter).answered 0 (toBytes 8 g) := by
    rintro _ rfl
    rfl
  rw [hdo _ (par_word src _ w)]

/-! An instant that has passed is counted at once. -/

/-- Only registers, cores and the agenda have changed. -/
def CountStep (s t : State) : Prop := t = { s with regs := t.regs, cores := t.cores, agenda := t.agenda }

theorem CountStep.trans {s t u : State} (h : CountStep s t) (k : CountStep t u) : CountStep s u := by
  unfold CountStep at *
  rw [k, h]

theorem CountStep.refl (s : State) : CountStep s s := rfl

theorem CountStep.foldl {α : Type} {f : State → α → State} (hf : ∀ s x, CountStep s (f s x)) (l : List α) (s : State) :
    CountStep s (l.foldl f s) := by
  induction l generalizing s with
  | nil => exact .refl s
  | cons x l ih => exact (hf s x).trans (ih _)

theorem CountStep.of_core {s t : State} (h : CoreStep s t) : CountStep s t := by
  obtain ⟨ht, -⟩ := h
  unfold CountStep
  generalize t.cores = c, t.agenda = a at ht
  rw [ht]

theorem CountStep.wr (s : State) (a v : Nat) : CountStep s (s.wr a v) := rfl

theorem CountStep.wf (s : State) (a hi lo v : Nat) : CountStep s (s.wf a hi lo v) := .wr s _ _

theorem CountStep.syncAll (s : State) : CountStep s s.syncAll := .foldl (fun s c => .of_core (.syncCycles s c)) _ s

theorem CountStep.shadowCore (s : State) (seq c : Nat) : CountStep s (s.shadowCore seq c) := by
  unfold State.shadowCore
  split <;> rfl

theorem CountStep.shadowBank (s : State) (seq block : Nat) : CountStep s (s.shadowBank seq block) :=
  (CountStep.foldl (fun s _ => .wr s _ _) _ s).trans (.wf _ _ _ _ _)

/-- The shutter is counted: the counters taken, TAKEN set and the instant shown. -/
theorem State.shutter_spec (s : State) (instant : Nat) (hi : instant < 2 ^ 64) (hnow : instant = s.now) :
    (s.shutter instant).mem = s.mem ∧ (s.shutter instant).rb Reg.GT_SHUTTER_CTRL 2 = true ∧
      (s.shutter instant).rd Reg.GT_SHUTTER_GT = instant := by
  unfold State.shutter
  split
  · next h => exact ⟨rfl, h.1, h.2.trans hnow.symm⟩
  · dsimp only
    generalize (s.rf Reg.GT_SHUTTER_CTRL 31 16 + 1) % 2 ^ 16 = seq
    have hstep : CountStep s (bankBlocks.foldl (fun s b => s.shadowBank seq b) ((List.range 96).foldl (fun s c => s.shadowCore seq c) s.syncAll)) :=
      ((CountStep.syncAll s).trans (.foldl (fun s c => .shadowCore s seq c) _ _)).trans (.foldl (fun s b => .shadowBank s seq b) _ _)
    generalize bankBlocks.foldl (fun s b => s.shadowBank seq b) ((List.range 96).foldl (fun s c => s.shadowCore seq c) s.syncAll) = u at hstep
    have hmem : u.mem = s.mem := by rw [hstep]
    refine ⟨by simp [hmem], ?_, ?_⟩
    · rw [State.rb_wr_ne _ _ _ (by decide), State.rb_wb _ _ _ _ _ _ (by decide), if_pos ⟨rfl, rfl⟩]
    · rw [State.rd_wr_same, Nat.mod_eq_of_lt hi]

theorem State.now_lt (s : State) : s.now < 2 ^ 64 := s.gt.now.isLt

theorem State.exec_shutter_now (s : State) (src : CmdSource) (w : Word64) (hrun : s.lemamRuns = true) (hmay : s.takes src [0, 1, 2, 3])
    (hop : 3 ≤ s.mode ∧ s.mode ≤ 7) (harmed : s.rb Reg.GT_SHUTTER_CTRL 1 = false) (hw : w.toNat ≤ s.now) :
    exec (.shutter src w) s = .next ((s.shutter s.now).answered 0 (toBytes 8 s.now)) := by
  rw [s.row_shutter src w hrun hmay hop harmed, if_pos hw]

/-! A later one is armed. -/

/-- The row of GT_SHUTTER in the register map. -/
def shutterRow : RegDesc := ⟨0x13000100, 1, 0x0, 1, 0x0, true, 0x0, 0xffffffffffffffff, 0x0, 0x0, 0x0, 0, 0x0⟩

theorem regFind_shutter : regFind Reg.GT_SHUTTER = some (shutterRow, 0, 0) := by decide

theorem State.storeReg_shutter (s : State) (w : Word64) : s.storeReg Reg.GT_SHUTTER w.toNat = s.wr Reg.GT_SHUTTER w.toNat := by
  have hfree : s.lockedBits shutterRow Reg.GT_SHUTTER 0 0 = 0 := rfl
  have hw : w.toNat % 2 ^ shutterRow.width = w.toNat := Nat.mod_eq_of_lt w.isLt
  have hval : storedValue shutterRow 0 (s.rd Reg.GT_SHUTTER) w.toNat = w.toNat := by
    have hstore : storedValue shutterRow 0 (s.rd Reg.GT_SHUTTER) w.toNat =
        s.rd Reg.GT_SHUTTER &&& 0 &&& (2 ^ 64 - 1 ^^^ (0 &&& w.toNat)) ||| w.toNat &&& (2 ^ 64 - 1) := rfl
    rw [hstore, Nat.and_zero, Nat.zero_and, Nat.zero_or, Nat.and_two_pow_sub_one_eq_mod, Nat.mod_eq_of_lt w.isLt]
  rw [State.storeReg_eq regFind_shutter, hfree, hw, hval, if_pos (Nat.and_zero _)]

/-- The state in which the shutter is armed for an instant. -/
def State.shutterArmed (s : State) (w : Word64) : State :=
  ((s.wr Reg.GT_SHUTTER w.toNat).wb Reg.GT_SHUTTER_CTRL 1 true).send (w.toNat - s.now) .shutterTake

theorem State.exec_shutter_later (s : State) (src : CmdSource) (w : Word64) (hrun : s.lemamRuns = true) (hmay : s.takes src [0, 1, 2, 3])
    (hop : 3 ≤ s.mode ∧ s.mode ≤ 7) (harmed : s.rb Reg.GT_SHUTTER_CTRL 1 = false) (hw : s.now < w.toNat) :
    exec (.shutter src w) s = .next ((s.shutterArmed w).answered 0 (toBytes 8 w.toNat)) := by
  have hrd : ((s.wr Reg.GT_SHUTTER w.toNat).wb Reg.GT_SHUTTER_CTRL 1 true).rd Reg.GT_SHUTTER = w.toNat := by
    rw [State.rd_wb_ne _ _ _ (by decide), State.rd_wr_same, Nat.mod_eq_of_lt w.isLt]
  have harm : (s.wr Reg.GT_SHUTTER w.toNat).armShutter = s.shutterArmed w := by
    rw [State.armShutter, State.seekShutter, hrd]
    rfl
  rw [s.row_shutter src w hrun hmay hop harmed, if_neg (by omega), State.storeReg_shutter, harm]

theorem State.shutterArmed_spec (s : State) (w : Word64) : (s.shutterArmed w).rb Reg.GT_SHUTTER_CTRL 1 = true ∧
    (s.shutterArmed w).sends s (w.toNat - s.now) .shutterTake ∧ (s.shutterArmed w).cores = s.cores := by
  refine ⟨?_, State.mem_agenda_send _ _ _, rfl⟩
  rw [State.shutterArmed]
  exact (State.rb_wb _ _ _ _ _ _ (by decide)).trans (if_pos ⟨rfl, rfl⟩)

/-! ### LIFECYCLE_ADVANCE (R515) -/

/-- The lifecycle, SECVER and the free values used are as before. -/
def LifeStep (s t : State) : Prop := t.free = s.free ∧ t.enc.state = s.enc.state ∧ t.enc.secver = s.enc.secver

theorem LifeStep.refl (s : State) : LifeStep s s := ⟨rfl, rfl, rfl⟩

theorem LifeStep.trans {s t u : State} (h : LifeStep s t) (k : LifeStep t u) : LifeStep s u :=
  ⟨k.1.trans h.1, k.2.1.trans h.2.1, k.2.2.trans h.2.2⟩

theorem LifeStep.foldl {α : Type} {f : State → α → State} (hf : ∀ s x, LifeStep s (f s x)) (l : List α) (s : State) :
    LifeStep s (l.foldl f s) := by
  induction l generalizing s with
  | nil => exact .refl s
  | cons x l ih => exact (hf s x).trans (ih _)

theorem LifeStep.wr (s : State) (a v : Nat) : LifeStep s (s.wr a v) := ⟨rfl, rfl, rfl⟩

theorem LifeStep.wb (s : State) (a i : Nat) (b : Bool) : LifeStep s (s.wb a i b) := .wr s _ _

theorem LifeStep.editEnc (s : State) (f : Enc → Enc) (h : (f s.enc).state = s.enc.state) (k : (f s.enc).secver = s.enc.secver) :
    LifeStep s (s.editEnc f) := ⟨rfl, h, k⟩

theorem LifeStep.after (s : State) (ns : Nat) (a : Act) : LifeStep s (s.after ns a) := ⟨rfl, rfl, rfl⟩

theorem LifeStep.clearKeys (s : State) (c : Nat) : LifeStep s (s.clearKeys c) := by
  have hkeys : LifeStep s ([0, 1, 2, 3].foldl (fun s k => s.wr (Reg.ENC_KEY c k) 0) s) := .foldl (fun s _ => .wr s _ _) _ s
  unfold State.clearKeys
  generalize [0, 1, 2, 3].foldl (fun s k => s.wr (Reg.ENC_KEY c k) 0) s = u at hkeys
  exact (hkeys.trans (.wb u _ _ _)).trans (.editEnc _ _ rfl rfl)

theorem LifeStep.clearAllKeys (s : State) : LifeStep s s.clearAllKeys := .foldl LifeStep.clearKeys _ s

theorem LifeStep.endScan (s : State) : LifeStep s s.endScan := by
  unfold State.endScan
  split
  · exact ⟨rfl, rfl, rfl⟩
  · exact .refl s

/-- Only the registers and the agenda of debug, the keys and the scan are touched when debug closes. -/
theorem LifeStep.closeDebug (s : State) : LifeStep s s.closeDebug := by
  have hregs : LifeStep s { s with regs := s.regs.filter fun e => decide (e.1 < 0x400000000000), dbg := {} } := ⟨rfl, rfl, rfl⟩
  exact ((hregs.trans (.editEnc _ _ rfl rfl)).trans (.clearAllKeys _)).trans (.endScan _)

theorem LifeStep.wf (s : State) (a hi lo v : Nat) : LifeStep s (s.wf a hi lo v) := .wr s _ _

theorem LifeStep.editLemam (s : State) (f : Lemam → Lemam) : LifeStep s (s.editLemam f) := ⟨rfl, rfl, rfl⟩

theorem LifeStep.lemamCleared (s : State) : LifeStep s s.lemamCleared := by
  unfold State.lemamCleared State.lemamShow
  exact (LifeStep.editLemam s _).trans (.wf _ _ _ _ _)

theorem LifeStep.setCore (s : State) (c : Nat) (x : Core) : LifeStep s (s.setCore c x) := ⟨rfl, rfl, rfl⟩

theorem LifeStep.eraseAll (s : State) : LifeStep s s.eraseAll := ⟨rfl, rfl, rfl⟩

theorem LifeStep.gated (s : State) (c : Nat) : LifeStep s ((s.setCore c {}).wb (Reg.PVT_COREPT c) 2 true) :=
  (LifeStep.setCore s c {}).trans (.wb (s.setCore c {}) _ _ _)

theorem LifeStep.gatedAll (s : State) (l : List Nat) : LifeStep s (l.foldl (fun s c => (s.setCore c {}).wb (Reg.PVT_COREPT c) 2 true) s) :=
  .foldl LifeStep.gated l s

theorem LifeStep.ended (s : State) : LifeStep s ((s.bootHalt.armAvs).kickLemam) := ⟨rfl, rfl, rfl⟩

theorem LifeStep.enterReturn (s : State) : LifeStep s s.enterReturn := by
  have hclear := ((LifeStep.closeDebug s).trans (.eraseAll _)).trans (.lemamCleared _)
  have hall := hclear.trans ((LifeStep.gatedAll _ (List.range 96)).trans (.ended _))
  rw [State.enterReturn]
  exact hall

theorem LifeStep.answered (s : State) (status : Nat) (data : List Byte) : LifeStep s (s.answered status data) := ⟨rfl, rfl, rfl⟩

/-- The state whose fuses hold a lifecycle, a version and a key. -/
def State.burnt (s : State) (target version : Nat) (key : List Byte) : State :=
  { s with free := s.free + 1 }.editEnc fun x => { x with state := target, secver := max x.secver version, keyHash := key }

/-- What a burn leads to (R515): a return ends all, the end of BLANK begins a start, and any other closes debug. -/
def State.afterBurn (s : State) (now target : Nat) : State :=
  if target = now then s
  else if target = lifeReturn then s.enterReturn
  else if now = 0 then s.endScan.after 15000000 (.boot 6) else s.closeDebug

theorem LifeStep.afterBurn (s : State) (now target : Nat) : LifeStep s (s.afterBurn now target) := by
  unfold State.afterBurn
  split_ifs
  · exact .refl s
  · exact .enterReturn s
  · exact (LifeStep.endScan s).trans (.after _ _ _)
  · exact .closeDebug s

/-- A free value decides between a burn and HW_FAULT (entry 109). -/
theorem State.runLifecycle_eq (s : State) (src : CmdSource) (p : List Byte) : ∃ key, s.runLifecycle (rowCmd src 0xB0 p).route (rowCmd src 0xB0 p) =
    if (Config.freeWord s.free).toNat % 2 = 1 then { s with free := s.free + 1 }.answered 8 []
    else ((s.burnt (parOf p 0 1) (parOf p 2 1) key).afterBurn s.enc.state (parOf p 0 1)).answered 0 [] := by
  refine ⟨if s.enc.state = 0 ∧ parOf p 0 1 ≠ 0 then (p.drop 4).take 48 else s.enc.keyHash, ?_⟩
  have hparams : (rowCmd src 0xB0 p).params = p := rfl
  unfold State.runLifecycle State.fresh State.afterBurn State.burnt
  simp only [rowCmd_parOf, hparams]
  split_ifs
  case pos => exact State.reply_row_failed _ src 0xB0 p 8 [] (by decide)
  all_goals exact State.reply_row _ src 0xB0 p []

/-- What R485 and R515 ask of the parameters of LIFECYCLE_ADVANCE. -/
structure State.LifeBlock (s : State) (src : CmdSource) (p : List Byte) : Prop where
  length : p.length = 52
  current : parOf p 1 1 = s.enc.state
  step : (s.enc.state, parOf p 0 1) ∈ [(0, 0), (0, 1), (0, 2), (1, 1), (1, 2), (1, 3), (2, 2), (2, 3)]
  byBoard : parOf p 0 1 = 3 → src = .spi
  inService : s.enc.state = 2 → parOf p 0 1 = 3 → s.mode = modeService
  version : parOf p 2 1 ≤ 64
  zero : parOf p 3 1 = 0
  key : parOf p 4 48 ≠ 0 ↔ s.enc.state = 0 ∧ parOf p 0 1 ≠ 0

theorem lifeStep_of_listed {now target : Nat} (h : (now, target) ∈ [(0, 0), (0, 1), (0, 2), (1, 1), (1, 2), (1, 3), (2, 2), (2, 3)]) :
    lifeStep now target = true := by
  simp only [List.mem_cons, List.not_mem_nil, or_false, Prod.mk.injEq] at h
  rcases h with ⟨rfl, rfl⟩ | ⟨rfl, rfl⟩ | ⟨rfl, rfl⟩ | ⟨rfl, rfl⟩ | ⟨rfl, rfl⟩ | ⟨rfl, rfl⟩ | ⟨rfl, rfl⟩ | ⟨rfl, rfl⟩ <;> rfl

theorem State.lifeParams_of_block {s : State} {src : CmdSource} {p : List Byte} (h : s.LifeBlock src p) :
    s.lifeParams (rowCmd src 0xB0 p) = true := by
  obtain ⟨-, hcur, hstep, -, -, hver, hzero, hkey⟩ := h
  have hkey' : ((parOf p 4 48 != 0) == decide (s.enc.state = 0 ∧ parOf p 0 1 ≠ 0)) = true := by
    by_cases hk : parOf p 4 48 = 0
    · have hn : ¬ (s.enc.state = 0 ∧ parOf p 0 1 ≠ 0) := fun e => hkey.mpr e hk
      rw [decide_eq_false hn, hk]
      rfl
    · rw [decide_eq_true (hkey.mp hk), bne_iff_ne.mpr hk]
      rfl
  simp only [State.lifeParams, rowCmd_parOf]
  exact Bool.and_eq_true_iff.mpr ⟨Bool.and_eq_true_iff.mpr ⟨Bool.and_eq_true_iff.mpr ⟨Bool.and_eq_true_iff.mpr
    ⟨decide_eq_true hcur, lifeStep_of_listed hstep⟩, decide_eq_true hver⟩, beq_iff_eq.mpr hzero⟩, hkey'⟩

/-- LIFECYCLE_ADVANCE burns, or answers HW_FAULT. -/
theorem State.exec_lifecycleAdvance (s : State) (src : CmdSource) (p : List Byte) (hrun : s.lemamRuns = true) (hret : s.enc.state ≠ 3)
    (hsrc : sourceCode src = 1 ∨ sourceCode src = 2) (hblock : s.LifeBlock src p) :
    ∃ t, exec (.lifecycleAdvance src p) s = .next t ∧ t.free = s.free + 1 ∧
      ((t.lemam.reply = (8, []) ∧ t.enc = s.enc) ∨
        (t.lemam.reply = (0, []) ∧ t.enc.state = parOf p 0 1 ∧ t.enc.secver = max s.enc.secver (parOf p 2 1))) := by
  have hexec : exec (.lifecycleAdvance src p) s = .next (s.row src 0xB0 p) := rfl
  have hlife : ¬ s.enc.state = lifeReturn := hret
  have hmgmt : src ≠ .mgmt := by
    rintro rfl
    exact absurd hsrc (by decide)
  have hden : s.cmdDenied (rowCmd src 0xB0 p) = false := by
    have hboard : (parOf p 0 1 == lifeReturn && sourceCode src != 2) = false := by
      by_cases h : parOf p 0 1 = 3
      · rw [hblock.byBoard h]
        exact Bool.and_eq_false_iff.mpr (.inr rfl)
      · simp [lifeReturn, h]
    simpa [State.cmdDenied, hlife, rowCmd_parOf] using hboard
  have hmode : s.cmdMode (rowCmd src 0xB0 p) = true := by
    have hserv : (parOf p 0 1 != lifeReturn || s.enc.state != 2 || s.mode == modeService) = true := by
      by_cases h : parOf p 0 1 = 3
      · by_cases h2 : s.enc.state = 2
        · simp [hblock.inService h2 h]
        · simp [h2]
      · simp [lifeReturn, h]
    have hsrc' : (src != .mgmt || s.mode == modeService) = true := by simp [hmgmt]
    have heq : s.cmdMode (rowCmd src 0xB0 p) = ((src != .mgmt || s.mode == modeService) &&
      (parOf p 0 1 != lifeReturn || s.enc.state != 2 || s.mode == modeService)) := rfl
    rw [heq, hsrc', hserv]
    rfl
  have hpass : s.Passes (rowCmd src 0xB0 p) :=
    { source := by rcases hsrc with h | h <;> simp [cmdSources, h]
      allowed := hden
      mode := hmode
      header := rowCmd_headerGood src 0xB0 p (by rw [hblock.length]; decide) (by simp [cmdLength, hblock.length])
      values := State.lifeParams_of_block hblock
      unlocked := rfl }
  have hdo : s.cmdRun (rowCmd src 0xB0 p) = s.runLifecycle (rowCmd src 0xB0 p).route (rowCmd src 0xB0 p) := rfl
  obtain ⟨key, heq⟩ := s.runLifecycle_eq src p
  rw [hexec, s.row_free src 0xB0 p hrun hpass (by decide), hdo, heq]
  refine ⟨_, rfl, ?_⟩
  split_ifs
  · exact ⟨rfl, .inl ⟨rfl, rfl⟩⟩
  · obtain ⟨hfree, hstate, hver⟩ := LifeStep.afterBurn (s.burnt (parOf p 0 1) (parOf p 2 1) key) s.enc.state (parOf p 0 1)
    exact ⟨hfree, .inr ⟨rfl, hstate, hver⟩⟩

/-! ### DEBUG_UNLOCK (R521) -/

/-- DRAM, the points and the ERT copies are as before. -/
def EraseStep (s t : State) : Prop := t.mem = s.mem ∧ t.points = s.points ∧ t.ert = s.ert

theorem EraseStep.refl (s : State) : EraseStep s s := ⟨rfl, rfl, rfl⟩

theorem EraseStep.trans {s t u : State} (h : EraseStep s t) (k : EraseStep t u) : EraseStep s u :=
  ⟨k.1.trans h.1, k.2.1.trans h.2.1, k.2.2.trans h.2.2⟩

theorem EraseStep.foldl {α : Type} {f : State → α → State} (hf : ∀ s x, EraseStep s (f s x)) (l : List α) (s : State) :
    EraseStep s (l.foldl f s) := by
  induction l generalizing s with
  | nil => exact .refl s
  | cons x l ih => exact (hf s x).trans (ih _)

theorem EraseStep.wr (s : State) (a v : Nat) : EraseStep s (s.wr a v) := ⟨rfl, rfl, rfl⟩

theorem EraseStep.wf (s : State) (a hi lo v : Nat) : EraseStep s (s.wf a hi lo v) := .wr s _ _

theorem EraseStep.wb (s : State) (a i : Nat) (b : Bool) : EraseStep s (s.wb a i b) := .wr s _ _

theorem EraseStep.editEnc (s : State) (f : Enc → Enc) : EraseStep s (s.editEnc f) := ⟨rfl, rfl, rfl⟩

theorem EraseStep.clearKeys (s : State) (c : Nat) : EraseStep s (s.clearKeys c) := by
  have hkeys : EraseStep s ([0, 1, 2, 3].foldl (fun s k => s.wr (Reg.ENC_KEY c k) 0) s) := .foldl (fun s _ => .wr s _ _) _ s
  unfold State.clearKeys
  generalize [0, 1, 2, 3].foldl (fun s k => s.wr (Reg.ENC_KEY c k) 0) s = u at hkeys
  exact (hkeys.trans (.wb u _ _ _)).trans (.editEnc _ _)

theorem EraseStep.clearAllKeys (s : State) : EraseStep s s.clearAllKeys := .foldl EraseStep.clearKeys _ s

theorem EraseStep.log (s : State) (c : SheetClass) (unit : Word32) (addr : Nat) : EraseStep s (s.log c unit addr) := by
  rw [State.log_eq]
  exact .refl s

theorem EraseStep.enterMode (s : State) (m cause : Nat) : EraseStep s (s.enterMode m cause) := by
  have hshown : EraseStep s (s.modeShown m cause) := (((EraseStep.wf s _ _ _ _).trans (.wf _ _ _ _ _)).trans (.wf _ _ _ _ _)).trans (.wr _ _ _)
  rw [State.enterMode_log]
  generalize s.modeShown m cause = u at hshown
  exact (hshown.trans (show EraseStep u (u.signalsOf m) from ⟨rfl, rfl, rfl⟩)).trans (.log _ _ _ _)

theorem State.enterMode_enc (s : State) (m cause : Nat) : (s.enterMode m cause).enc = s.enc := by
  have hlog : ∀ (u : State) (c : SheetClass) (unit : Word32) (addr : Nat), (u.log c unit addr).enc = u.enc := by
    intro u c unit addr
    rw [State.log_eq]
  rw [State.enterMode_log, hlog, show ∀ u : State, (u.signalsOf m).enc = u.enc from fun _ => rfl]
  simp [State.modeShown]

/-- Memory that holds nothing. -/
def State.erased (s : State) : State := { s with sheet := {}, mem := [], poison := [], points := [], ert := [] }

/-- Debug opens once the points and the keys are cleared. -/
def State.debugOpened (s : State) : State := ((s.wr Reg.PT_FORCED_COUNT 0).clearAllKeys).editEnc fun x => { x with debugOpen := true }

/-- The start that DEBUG_UNLOCK leads to. -/
def State.startsAfresh (s : State) (ns : Nat) : State :=
  (setModes s fun m => { m with boot := m.found, willFlash := !m.dramReady }).after (3000000 + ns) (.boot 5)

theorem State.runUnlock_eq (s : State) (src : CmdSource) (op : Nat) (p : List Byte) : s.runUnlock (rowCmd src op p).route =
    ((s.warmReset.erased.debugOpened.modeAfter s.mode modePreflash 1).answered 0 []).startsAfresh s.preflashTime := by
  unfold State.runUnlock State.startsAfresh State.debugOpened State.erased
  dsimp only
  rw [State.reply_row]

theorem State.debugOpened_spec (s : State) : s.erased.debugOpened.enc.debugOpen = true ∧ s.erased.debugOpened.mem = [] ∧
    s.erased.debugOpened.points = [] ∧ s.erased.debugOpened.ert = [] := by
  obtain ⟨hmem, hpoints, hert⟩ := (EraseStep.wr s.erased Reg.PT_FORCED_COUNT 0).trans (.clearAllKeys _)
  unfold State.debugOpened
  generalize (s.erased.wr Reg.PT_FORCED_COUNT 0).clearAllKeys = u at hmem hpoints hert
  exact ⟨rfl, hmem, hpoints, hert⟩

theorem State.modeAfter_spec (s : State) (prev : Nat) : (s.modeAfter prev modePreflash 1).mode = modePreflash ∧
    (s.modeAfter prev modePreflash 1).enc = s.enc ∧ EraseStep s (s.modeAfter prev modePreflash 1) := by
  refine ⟨State.enterMode_mode _ _ _ (by decide), State.enterMode_enc _ _ _, ?_⟩
  exact (EraseStep.wf s _ _ _ _).trans (.enterMode _ _ _)

theorem State.exec_debugUnlock (s : State) (hrun : s.lemamRuns = true) (hlife : s.enc.state = 1) :
    ∃ t, exec (.debugUnlock .spi) s = .next t ∧ t.lemam.reply = (0, []) ∧ t.enc.debugOpen = true ∧ t.mode = modePreflash ∧ t.mem = [] ∧
      t.points = [] ∧ t.ert = [] := by
  have hexec : exec (.debugUnlock .spi) s = .next (s.row .spi 0xB1 []) := rfl
  have hpass : s.Passes (rowCmd .spi 0xB1 []) :=
    { source := by decide
      allowed := by simp [State.cmdDenied, hlife, lifeReturn]
      mode := s.cmdMode_any .spi 0xB1 [] (by decide) (fun h => by cases h)
      header := rfl
      values := rfl
      unlocked := rfl }
  have hdo : s.cmdRun (rowCmd .spi 0xB1 []) = s.runUnlock (rowCmd .spi 0xB1 []).route := rfl
  rw [hexec, s.row_free .spi 0xB1 [] hrun hpass (by decide), hdo, s.runUnlock_eq]
  refine ⟨_, rfl, ?_⟩
  obtain ⟨hopen, hmem, hpoints, hert⟩ := s.warmReset.debugOpened_spec
  generalize s.warmReset.erased.debugOpened = u at hopen hmem hpoints hert
  obtain ⟨hmode, henc, hmem', hpoints', hert'⟩ := u.modeAfter_spec s.mode
  generalize u.modeAfter s.mode modePreflash 1 = v at hmode henc hmem' hpoints' hert'
  exact ⟨rfl, (congrArg Enc.debugOpen henc).trans hopen, hmode, hmem'.trans hmem, hpoints'.trans hpoints, hert'.trans hert⟩

/-! ### TIME_STEP (R27) -/

/-- Global time, GT_STATUS and GT_STEP_COUNT, memory and the cores are as before. -/
structure TimeKept (s t : State) : Prop where
  now : t.gt.now = s.gt.now
  status : t.rd Reg.GT_STATUS = s.rd Reg.GT_STATUS
  count : t.rd Reg.GT_STEP_COUNT = s.rd Reg.GT_STEP_COUNT
  mem : t.mem = s.mem
  cores : t.cores = s.cores

theorem TimeKept.refl (s : State) : TimeKept s s := ⟨rfl, rfl, rfl, rfl, rfl⟩

theorem TimeKept.trans {s t u : State} (h : TimeKept s t) (k : TimeKept t u) : TimeKept s u :=
  ⟨k.now.trans h.now, k.status.trans h.status, k.count.trans h.count, k.mem.trans h.mem, k.cores.trans h.cores⟩

theorem TimeKept.foldl {α : Type} {f : State → α → State} (hf : ∀ s x, TimeKept s (f s x)) (l : List α) (s : State) :
    TimeKept s (l.foldl f s) := by
  induction l generalizing s with
  | nil => exact .refl s
  | cons x l ih => exact (hf s x).trans (ih _)

theorem TimeKept.ite {s t u : State} {c : Prop} [Decidable c] (h : TimeKept s t) (k : TimeKept s u) : TimeKept s (if c then t else u) := by
  split
  · exact h
  · exact k

theorem TimeKept.wr (s : State) (a v : Nat) (hs : a ≠ Reg.GT_STATUS) (hc : a ≠ Reg.GT_STEP_COUNT) : TimeKept s (s.wr a v) :=
  ⟨rfl, State.rd_wr_ne s v hs, State.rd_wr_ne s v hc, rfl, rfl⟩

theorem TimeKept.send (s : State) (ns : Nat) (i : Instr) : TimeKept s (s.send ns i) := ⟨rfl, rfl, rfl, rfl, rfl⟩

theorem TimeKept.setBase (s : State) (b : Nat) (x : Base) : TimeKept s (s.setBase b x) := ⟨rfl, rfl, rfl, rfl, rfl⟩

/-! What a jump of global time does to the bases, the crossings, the arbiters and what waits for an instant. -/

theorem TimeKept.showSense (s : State) (b : Nat) (d : Int) : TimeKept s (s.showSense b d) :=
  .ite (.refl s) (.wr s (Reg.PHB_STATUS b) _ (by simp only [Reg.PHB_STATUS, Reg.GT_STATUS]; omega)
    (by simp only [Reg.PHB_STATUS, Reg.GT_STEP_COUNT]; omega))

theorem TimeKept.noteMove (s : State) (b old : Nat) (d : Int) (jumped : Bool) : TimeKept s (s.noteMove b old d jumped) :=
  (TimeKept.setBase s b _).trans (.showSense _ _ _)

theorem TimeKept.noteCrossed (s : State) (ns : List Nat) (jumped : Bool) : TimeKept s (s.noteCrossed ns jumped) :=
  .foldl (fun s n => (show TimeKept s { s with crossed := s.crossed ++ [(n, jumped, s.clk)] } from ⟨rfl, rfl, rfl, rfl, rfl⟩).trans (.send _ _ _)) ns s

theorem TimeKept.gtStepped (s : State) (gt : Nat) (old : List (Nat × Int)) : TimeKept s (s.gtStepped gt old) := by
  have hmark : TimeKept s { s with gt := { s.gt with stepped := some (s.clk, gt) } } := ⟨rfl, rfl, rfl, rfl, rfl⟩
  exact (hmark.trans (.foldl (fun s e => .noteMove s _ _ _ _) _ _)).trans (.noteCrossed _ _ _)

theorem TimeKept.publishBlackout (s : State) (n gt : Nat) : TimeKept s (s.publishBlackout n gt) := by
  refine TimeKept.trans (t := s.wr (Reg.MC_BLACKOUT_NEXT n) gt) (.wr s _ _ ?_ ?_) (.wr _ _ _ ?_ ?_) <;>
    simp only [Reg.MC_BLACKOUT_NEXT, Reg.ARB_BLACKOUT_NEXT, Reg.GT_STATUS, Reg.GT_STEP_COUNT] <;> omega

theorem TimeKept.arbStepped (s : State) (step : Nat) : TimeKept s (s.arbStepped step) :=
  .foldl (fun s _ => .ite (.publishBlackout s _ _) (.refl s)) _ s

theorem TimeKept.homesStepped (s : State) (old : Nat) : TimeKept s (s.homesStepped old) := ⟨rfl, rfl, rfl, rfl, rfl⟩

theorem TimeKept.kickPort (s : State) (p ns : Nat) : TimeKept s (s.kickPort p ns) := .ite (.send s _ _) (.refl s)

theorem TimeKept.netStepped (s : State) : TimeKept s s.netStepped :=
  .foldl (fun s _ => (TimeKept.kickPort s _ _).trans (.send _ _ _)) _ s

/-- Work that is only put on the agenda. -/
theorem TimeKept.of_agenda {s t : State} (h : AgendaStep s t) : TimeKept s t := by
  unfold AgendaStep at h
  generalize t.agenda = l at h
  rw [h]
  exact ⟨rfl, rfl, rfl, rfl, rfl⟩

theorem AgendaStep.ite {s t u : State} {c : Prop} [Decidable c] (h : AgendaStep s t) (k : AgendaStep s u) :
    AgendaStep s (if c then t else u) := by
  split
  · exact h
  · exact k

theorem AgendaStep.baseInstants (s : State) (b : Nat) : AgendaStep s (s.baseInstants b) := by
  have hwhen : ∀ (c : Bool) (i : Instr) (s : State), AgendaStep s (if c then s.send 0 i else s) :=
    fun c i s => .ite (.send s 0 i) (.refl s)
  unfold State.baseInstants
  dsimp only
  refine .ite (.refl s) (.ite ?_ (.ite (hwhen _ _ s) (.ite ((hwhen _ _ s).trans (hwhen _ _ _)) (.refl s))))
  split
  · exact (hwhen _ _ s).trans (hwhen _ _ _)
  · exact .refl s

theorem AgendaStep.instants (s : State) : AgendaStep s s.instants :=
  (AgendaStep.ite (.send s 0 .srcLost) (.refl s)).trans (.foldl AgendaStep.baseInstants _ _)

theorem AgendaStep.armTimer (s : State) (c : Nat) (v : View) : AgendaStep s (s.armTimer c v) :=
  .ite (.refl s) (.ite (.send s _ _) (.send s _ _))

theorem AgendaStep.armTimers (s : State) : AgendaStep s s.armTimers :=
  .foldl (fun s c => .ite (.foldl (fun s v => .ite (.refl s) (.armTimer s c v)) _ s) (.refl s)) _ s

/-! The step itself. -/

/-- Global time and the anchors of the bases that do not follow it moved by a step. -/
def State.timeMoved (s : State) (step : Nat) : State :=
  let s0 := { s with crossed := [] }
  let others := (List.range 16).filter fun b => s0.baseOn b && s0.baseSrc b != srcTime
  let s1 := { s0 with gt := { s0.gt with now := BitVec.ofNat 64 (s.now + step) } }
  let s2 := others.foldl (fun s b =>
    let x := s.base b
    s.setBase b { x with anchorGt := BitVec.ofNat 64 (x.anchorGt.toNat + step) }) s1
  s2.gtStepped s.now s0.timeBases

/-- STEPPED is set, TIME_ESTIMATED clear, and the step is counted. -/
def State.stepCounted (s : State) : State :=
  ((s.wb Reg.GT_STATUS 6 true).wb Reg.GT_STATUS 0 false).wr Reg.GT_STEP_COUNT ((s.rd Reg.GT_STEP_COUNT + 1) % 2 ^ 32)

/-- All that reads global time is put right after a step. -/
def State.timeFollowed (s : State) (old step : Nat) : State :=
  ((((((s.arbStepped step).homesStepped old).netStepped).instants).armTimers).send 0 .gateTimeout).send 0 .shutterTake

theorem State.stepTime_eq (s : State) (step : Nat) : s.stepTime step = ((s.timeMoved step).stepCounted).timeFollowed s.now step := by
  unfold State.stepTime State.timeMoved State.stepCounted State.timeFollowed
  rfl

theorem TimeKept.timeMoved (s : State) (step : Nat) :
    TimeKept { s with gt := { s.gt with now := BitVec.ofNat 64 (s.now + step) } } (s.timeMoved step) := by
  have hstart : TimeKept { s with gt := { s.gt with now := BitVec.ofNat 64 (s.now + step) } }
      { s with crossed := [], gt := { s.gt with now := BitVec.ofNat 64 (s.now + step) } } := ⟨rfl, rfl, rfl, rfl, rfl⟩
  exact (hstart.trans (.foldl (fun s b => .setBase s b _) _ _)).trans (.gtStepped _ _ _)

theorem TimeKept.timeFollowed (s : State) (old step : Nat) : TimeKept s (s.timeFollowed old step) :=
  ((((((TimeKept.arbStepped s step).trans (.homesStepped _ _)).trans (.netStepped _)).trans (.of_agenda (.instants _))).trans
    (.of_agenda (.armTimers _))).trans (.send _ _ _)).trans (.send _ _ _)

theorem State.stepCounted_spec (s : State) : s.stepCounted.rb Reg.GT_STATUS 6 = true ∧ s.stepCounted.rb Reg.GT_STATUS 0 = false ∧
    s.stepCounted.rd Reg.GT_STEP_COUNT = (s.rd Reg.GT_STEP_COUNT + 1) % 2 ^ 32 := by
  unfold State.stepCounted
  refine ⟨?_, ?_, ?_⟩
  · rw [State.rb_wr_ne _ _ _ (by decide), State.rb_wb _ _ _ _ _ _ (by decide), if_neg (by decide), State.rb_wb _ _ _ _ _ _ (by decide),
      if_pos ⟨rfl, rfl⟩]
  · rw [State.rb_wr_ne _ _ _ (by decide), State.rb_wb _ _ _ _ _ _ (by decide), if_pos ⟨rfl, rfl⟩]
  · rw [State.rd_wr_same]
    exact Nat.mod_eq_of_lt ((Nat.mod_lt _ (by decide)).trans (by decide))

/-- A step adds to global time at once, sets STEPPED, clears TIME_ESTIMATED and is counted. -/
theorem State.stepTime_spec (s : State) (w : Word64) : (s.stepTime w.toNat).gt.now = s.gt.now + w ∧
    (s.stepTime w.toNat).rb Reg.GT_STATUS 6 = true ∧ (s.stepTime w.toNat).rb Reg.GT_STATUS 0 = false ∧
    (s.stepTime w.toNat).rd Reg.GT_STEP_COUNT = (s.rd Reg.GT_STEP_COUNT + 1) % 2 ^ 32 ∧ (s.stepTime w.toNat).mem = s.mem ∧
    (s.stepTime w.toNat).cores = s.cores := by
  rw [s.stepTime_eq w.toNat]
  have hmoved := TimeKept.timeMoved s w.toNat
  have hnow : BitVec.ofNat 64 (s.now + w.toNat) = s.gt.now + w := by
    simp [State.now, BitVec.ofNat_add]
  generalize s.timeMoved w.toNat = u at hmoved
  obtain ⟨hset, hclear, hcount⟩ := u.stepCounted_spec
  have hkept : u.stepCounted.gt = u.gt ∧ u.stepCounted.mem = u.mem ∧ u.stepCounted.cores = u.cores := ⟨rfl, rfl, rfl⟩
  generalize u.stepCounted = v at hset hclear hcount hkept
  obtain ⟨hgt, hmem, hcores⟩ := hkept
  have hend := TimeKept.timeFollowed v s.now w.toNat
  generalize v.timeFollowed s.now w.toNat = t at hend
  refine ⟨?_, (State.rb_of_rd hend.status 6).trans hset, (State.rb_of_rd hend.status 0).trans hclear, ?_, (hend.mem.trans hmem).trans hmoved.mem,
    (hend.cores.trans hcores).trans hmoved.cores⟩
  · rw [hend.now, hgt, hmoved.now, ← hnow]
  · rw [hend.count, hcount, hmoved.count]
    rfl

theorem State.exec_timeStep (s : State) (src : CmdSource) (w : Word64) (hrun : s.lemamRuns = true) (hmay : s.takes src [0, 1, 2])
    (hmode : s.mode ∈ [3, 5, 6, 7]) (hlow : 1 ≤ w.toNat) (hhigh : w.toNat ≤ 2 ^ 40) :
    exec (.timeStep src w) s = .next ((s.stepTime w.toNat).answered 0 (toBytes 8 (s.gt.now + w).toNat)) := by
  have hexec : exec (.timeStep src w) s = .next (s.row src 0x81 (toBytes 8 w.toNat)) := rfl
  have hpar := par_word src 0x81 w
  have hm : s.cmdMode (rowCmd src 0x81 (toBytes 8 w.toNat)) = true := by
    simp only [List.mem_cons, List.not_mem_nil, or_false] at hmode
    have hok : (s.mode == modeRun || s.mode == modeDegraded || s.mode == modeSafeHold || s.mode == modeService) = true := by
      rcases hmode with h | h | h | h <;> rw [h] <;> rfl
    exact Bool.and_eq_true_iff.mpr ⟨mgmt_mode s src hmay.2.2, hok⟩
  have hpass := s.passes_open src 0x81 (toBytes 8 w.toNat) (by decide) hmay hm (rowCmd_headerGood src _ _ (by simp) (by simp [cmdLength]))
    (by
      have hval : s.cmdValues (rowCmd src 0x81 (toBytes 8 w.toNat)) = decide (1 ≤ (rowCmd src 0x81 (toBytes 8 w.toNat)).par 0 8 ∧
        (rowCmd src 0x81 (toBytes 8 w.toNat)).par 0 8 ≤ 2 ^ 40) := rfl
      rw [hval, hpar]
      exact decide_eq_true ⟨hlow, hhigh⟩) rfl
  have hdo : ∀ n, (rowCmd src 0x81 (toBytes 8 w.toNat)).par 0 8 = n → s.cmdRun (rowCmd src 0x81 (toBytes 8 w.toNat)) =
      (s.stepTime n).answered 0 (toBytes 8 (s.stepTime n).now) := by
    rintro _ rfl
    rfl
  rw [hexec, s.row_free src 0x81 _ hrun hpass (by decide), hdo _ hpar, State.now, (s.stepTime_spec w).1]

/-! ### A reply changes nothing but the state of Lemam -/

theorem State.answered_of_regs {s u : State} (h : u = { s with regs := u.regs }) (status : Nat) (data : List Byte) :
    u.answered status data = { s with regs := (u.answered status data).regs, lemam := (u.answered status data).lemam } := by
  rw [h]
  rfl

theorem State.answered_of_queues {s u : State} (h : u = { s with regs := u.regs, queues := u.queues }) (status : Nat) (data : List Byte) :
    u.answered status data = { s with
      regs := (u.answered status data).regs, queues := (u.answered status data).queues, lemam := (u.answered status data).lemam } := by
  rw [h]
  rfl

theorem State.answered_of_channels {s u : State} (h : u = { s with mcs := u.mcs, agenda := u.agenda }) (status : Nat) (data : List Byte) :
    u.answered status data = { s with
      mcs := (u.answered status data).mcs, lemam := (u.answered status data).lemam, agenda := (u.answered status data).agenda } := by
  rw [h]
  rfl

theorem State.await_of_channels {s u : State} (h : u = { s with mcs := u.mcs }) (r : Route) (n : Nat) :
    u.await r n = { s with mcs := (u.await r n).mcs, lemam := (u.await r n).lemam } := by
  rw [h]
  rfl

theorem State.rd_answered (u : State) (status : Nat) (data : List Byte) (a : Nat) : (u.answered status data).rd a = u.rd a := rfl

theorem State.regsKept_answered {s u : State} {l : List Nat} (h : s.regsKept u l) (status : Nat) (data : List Byte) :
    s.regsKept (u.answered status data) l := h

theorem State.queue_answered (u : State) (status : Nat) (data : List Byte) (q : Nat) : (u.answered status data).queue q = u.queue q := rfl

theorem State.acts_answered {s u : State} {i : Instr} (h : exec i s = .next (u.answered 0 [])) : s.acts i (u.answered 0 []) := ⟨h, rfl⟩

/-! ### Commands that answer OK, with all that they leave -/

theorem State.dramDelaysetLoad_acts (s : State) (src : CmdSource) (p : List Byte)
    (hexec : exec (.dramDelaysetLoad src p) s = .next ((s.loadSet (parOf p 0 1) (parOf p 1 1) (p.drop 4)).answered 0 [])) :
    ∃ t, s.acts (.dramDelaysetLoad src p) t ∧ (∀ k < 256, t.rd (Reg.MC_DS_WORD (parOf p 0 1) (parOf p 1 1 * 256 + k)) =
      parOf p (4 + 4 * k) 4 &&& dsMask (parOf p 1 1 * 256 + k)) ∧ t = { s with regs := t.regs, lemam := t.lemam } := by
  obtain ⟨hword, heq⟩ := s.loadSet_spec (parOf p 0 1) (parOf p 1 1) p
  generalize s.loadSet (parOf p 0 1) (parOf p 1 1) (p.drop 4) = u at hexec hword heq
  exact ⟨_, State.acts_answered hexec, fun k hk => (u.rd_answered 0 [] _).trans (hword k hk), State.answered_of_regs heq 0 []⟩

theorem State.viCreate_acts (s : State) (src : CmdSource) (p : List Byte) (hblock : ViBlock p)
    (hexec : exec (.viCreate src p) s = .next ((s.viMade p).answered 0 [])) : ∃ t, s.acts (.viCreate src p) t ∧
      t.rd (Reg.VI_CFG (parOf p 0 2)) = 1 + parOf p 4 1 * 2 ^ 8 + parOf p 2 2 * 2 ^ 16 ∧
      t.rd (Reg.VI_QRANGE (parOf p 0 2)) = parOf p 16 4 + parOf p 20 2 * 2 ^ 18 ∧
      t.rd (Reg.VI_VEC (parOf p 0 2)) = parOf p 22 2 + parOf p 24 1 * 2 ^ 16 ∧ t.rd (Reg.VI_S2BASE (parOf p 0 2)) = parOf p 8 8 ∧
      t = { s with regs := t.regs, lemam := t.lemam } ∧
      s.regsKept t [Reg.VI_CFG (parOf p 0 2), Reg.VI_QRANGE (parOf p 0 2), Reg.VI_VEC (parOf p 0 2), Reg.VI_S2BASE (parOf p 0 2)] := by
  have hqueues := hblock.queues
  have hvec := hblock.vec
  have hsome := hblock.some
  obtain ⟨hcfg, hrange, hvecs, hs2, hkept⟩ := s.makeVi_spec (parOf p 0 2) (parOf p 2 2) (parOf p 8 8) (parOf p 4 1) (parOf p 16 4)
    (parOf p 20 2) (parOf p 22 2) (parOf p 24 1) hblock.vmid hblock.base hblock.eid (by omega) hblock.count (by omega) hblock.vecs
  have heq := s.makeVi_eq (parOf p 0 2) (parOf p 2 2) (parOf p 8 8) (parOf p 4 1) (parOf p 16 4) (parOf p 20 2) (parOf p 22 2) (parOf p 24 1)
  unfold State.viMade at hexec
  generalize s.makeVi (parOf p 0 2) (parOf p 2 2) (parOf p 8 8) (parOf p 4 1) (parOf p 16 4) (parOf p 20 2) (parOf p 22 2)
    (parOf p 24 1) = u at hexec hcfg hrange hvecs hs2 hkept heq
  exact ⟨_, State.acts_answered hexec, hcfg, hrange, hvecs, hs2, State.answered_of_regs heq 0 [], State.regsKept_answered hkept 0 []⟩

theorem State.queueBind_acts (s : State) (src : CmdSource) (p : List Byte)
    (hexec : exec (.queueBind src p) s = .next ((s.queueBound p).answered 0 [])) : ∃ t, s.acts (.queueBind src p) t ∧
      t.qState (parOf p 0 4) = qIdle ∧ t.qHead (parOf p 0 4) = 0 ∧ t.qTail (parOf p 0 4) = 0 ∧
      t.qGen (parOf p 0 4) = (s.qGen (parOf p 0 4) + 1) % 256 ∧ t.queue (parOf p 0 4) = boundQueue p ∧
      t = { s with regs := t.regs, queues := t.queues, lemam := t.lemam } ∧
      s.regsKept t [qstat (parOf p 0 4), Reg.QE_QDISC (engineOf (parOf p 0 4)) (parOf p 0 4 % 65536)] := by
  obtain ⟨hstate, hhead, htail, hgen, hctx, hkept⟩ := s.queueBound_spec p
  obtain ⟨h1, h2, h3, h4⟩ := State.queueWord_congr ((s.queueBound p).rd_answered 0 [] (qstat (parOf p 0 4)))
  exact ⟨(s.queueBound p).answered 0 [], State.acts_answered hexec, h1.trans hstate, h2.trans hhead, h3.trans htail, h4.trans hgen,
    (State.queue_answered _ 0 [] _).trans hctx, State.answered_of_queues (s.queueBound_step p) 0 [], State.regsKept_answered hkept 0 []⟩

theorem State.dramEraseDevice_acts (s : State) (src : CmdSource) (a b d e : Byte) (n : Nat)
    (hexec : exec (.dramEraseDevice src a b d e) s = .next ((s.eraseBegun a.toNat (b.toNat * 2 + d.toNat) e.toNat).await
      (rowCmd src 0x54 [a, b, d, e]).route n)) : ∃ t, exec (.dramEraseDevice src a b d e) s = .next t ∧
      tabGet 0 (t.mc a.toNat).erasing (b.toNat * 2 + d.toNat) = e.toNat + 1 ∧ (∀ n, n ≠ a.toNat → t.mc n = s.mc n) ∧
      t = { s with mcs := t.mcs, lemam := t.lemam } := by
  obtain ⟨hdev, hrest, heq⟩ := s.eraseBegun_spec a.toNat (b.toNat * 2 + d.toNat) e.toNat
  generalize s.eraseBegun a.toNat (b.toNat * 2 + d.toNat) e.toNat = u at hexec hdev hrest heq
  exact ⟨_, hexec, hdev, hrest, State.await_of_channels heq _ _⟩

theorem State.dramScrubSet_acts (s : State) (src : CmdSource) (a b : Byte)
    (hexec : exec (.dramScrubSet src a b) s = .next (((bitsOf a.toNat 8).foldl (fun s n => s.setScrub n b.toNat) s).answered 0 [])) :
    ∃ t, s.acts (.dramScrubSet src a b) t ∧
      (∀ n < 8, (t.mc n).scrubHours = if a.getLsbD n then b.toNat else (s.mc n).scrubHours) ∧
      t = { s with mcs := t.mcs, lemam := t.lemam, agenda := t.agenda } := by
  obtain ⟨hhours, heq⟩ := s.foldl_setScrub b.toNat (bitsOf a.toNat 8)
  generalize (bitsOf a.toNat 8).foldl (fun s n => s.setScrub n b.toNat) s = u at hexec hhours heq
  refine ⟨_, State.acts_answered hexec, fun n hn => (hhours n).trans ?_, State.answered_of_channels heq 0 []⟩
  simp only [mem_bitsOf, hn, true_and]

/-! ### Commands that are deferred -/

/-- The command is deferred, and only its own part has changed memory. -/
def State.defers (s : State) (i : Instr) (d : Deferred) : Prop := ∃ t, exec i s = .next t ∧ s.deferred t d

theorem State.defers_reset {s : State} {i : Instr} {v : Nat} {d : Deferred} (h : exec i s = .next ((s.resetVi v).defer d)) : s.defers i d :=
  ⟨_, h, s.deferred_resetVi v d⟩

theorem State.defers_alone {s : State} {i : Instr} {d : Deferred} (h : exec i s = .next (s.defer d)) : s.defers i d :=
  ⟨_, h, State.deferred_defer d rfl rfl⟩

theorem State.dramDelaysetSelect_acts (s : State) (src : CmdSource) (a b : Byte) (d : Deferred) (ha : a < 4)
    (hexec : exec (.dramDelaysetSelect src a b) s = .next ((s.selectSet a.toNat (bitsOf b.toNat 8)).defer d)) :
    s.defers (.dramDelaysetSelect src a b) d ∧ ∀ t, exec (.dramDelaysetSelect src a b) s = .next t → ∀ n < 8, b.getLsbD n = true →
      t.rf (Reg.MC_STATUS n) 7 6 = a.toNat ∧ t.rb (Reg.MC_STATUS n) 5 = true := by
  obtain ⟨hdef, hval⟩ := s.delaysetSelected a.toNat d (bitsOf b.toNat 8) (by bv_omega)
  refine ⟨⟨_, hexec, hdef⟩, fun t ht n hn hb => ?_⟩
  rw [hexec] at ht
  cases ht
  exact hval n ((mem_bitsOf b n).mpr ⟨hn, hb⟩) hn

theorem State.queueReset_acts (s : State) (src : CmdSource) (x : Word32) (d : Deferred)
    (hexec : exec (.queueReset src x) s = .next ((s.resetQueue x.toNat).defer d)) : s.defers (.queueReset src x) d ∧
      ∀ t, exec (.queueReset src x) s = .next t → t.qHead x.toNat = 0 ∧ t.qTail x.toNat = 0 ∧ t.qGen x.toNat = (s.qGen x.toNat + 1) % 256 ∧
        t.qState x.toNat = (if s.qState x.toNat = qError then qUnbound else qIdle) ∧ (t.queue x.toNat).flight = [] ∧
        (t.queue x.toNat).next = 0 := by
  refine ⟨⟨_, hexec, s.deferred_resetQueue x.toNat d⟩, fun t ht => ?_⟩
  rw [hexec] at ht
  cases ht
  exact s.queueReset_spec x.toNat d

/-! ### Who may ask for a mode (R485) -/

theorem State.maySet_same {s : State} {src : CmdSource} {a : Byte} (hmay : s.takes src [0, 1, 2, 3]) (hm : a.toNat = s.mode)
    (hpeer : sourceCode src = 3 → a = 6) (hstandby : s.mode = modeStandby → src = .spi) : s.MaySetMode src a :=
  { life := hmay.1
    source := hmay.2.1
    peer := hpeer
    service := .inl (by rw [← hm, modeService]; bv_omega)
    standby := hstandby }

theorem State.maySet_safeHold {s : State} {src : CmdSource} (hmay : s.takes src [0, 1, 2, 3]) (hm : s.mode ∈ [3, 4, 5, 7])
    (hserv : s.mode = modeService → sourceCode src = 1 ∨ sourceCode src = 2) : s.MaySetMode src 6 :=
  { life := hmay.1
    source := hmay.2.1
    peer := fun _ => rfl
    service := by
      by_cases h : s.mode = modeService
      · exact .inr (hserv h)
      · exact .inl ⟨fun e => absurd e (by decide), fun e => absurd e h⟩
    standby := fun h => by simp [h, modeStandby] at hm }

/-- A board controller or a PL3 ring may ask for any mode that leads out of or into SERVICE. -/
theorem State.maySet_high {s : State} {src : CmdSource} {a : Byte} (hlife : s.enc.state ≠ 3)
    (hhigh : sourceCode src = 1 ∨ sourceCode src = 2) (hm : s.mode ≠ modeStandby) : s.MaySetMode src a :=
  { life := hlife
    source := by rcases hhigh with h | h <;> simp [h]
    peer := fun h => by omega
    service := .inr hhigh
    standby := fun h => absurd h hm }

/-- Outside SERVICE and STANDBY every source but a peer may ask for a mode other than SERVICE. -/
theorem State.maySet_open {s : State} {src : CmdSource} {a : Byte} (hmay : s.takes src [0, 1, 2]) (ha : a ≠ 7) (hm : s.mode ≠ modeService)
    (hstandby : s.mode ≠ modeStandby) : s.MaySetMode src a := by
  obtain ⟨hlife, hsrc, -⟩ := hmay
  simp only [List.mem_cons, List.not_mem_nil, or_false] at hsrc
  exact { life := hlife
          source := by rcases hsrc with h | h | h <;> simp [h]
          peer := fun h => by omega
          service := .inl ⟨fun e => absurd e ha, fun e => absurd e hm⟩
          standby := fun h => absurd h hstandby }

/-! ### Every command of Lemam (R485) -/

/-- Settles O53, by what each of the 34 commands does once every check of R480 has passed. -/
theorem commandsOfLemamAct : Obligations.Commands_of_Lemam_act := by
  unfold Obligations.Commands_of_Lemam_act
  intro s src p a b d e ws h x y w hrun may op steady free room high answers par list route cause done defers writes there rights
  refine ⟨?echo, ?getInfo, ?modeGet, ?pvtRead, ?spareStatus, ?contactRead, ?pairStatus, ?configChecksum, ?modeSet, ?powerPointSet,
    ?spareEngage, ?contactClear, ?dramConfig, ?delaysetLoad, ?delaysetSelect, ?marginScan, ?eraseDevice, ?repairRow, ?scrubSet, ?viCreate,
    ?viDestroy, ?viReset, ?queueBind, ?queueReset, ?portConfig, ?switchConfig, ?dinathConfig, ?phaseBaseConfig, ?pairConfig, ?timeStep,
    ?shutter, ?lifecycleAdvance, ?debugUnlock, ?lockRegion⟩
  case echo => exact s.exec_echo src p hrun
  case getInfo =>
    intro hmgmt
    exact s.infoBytes_eq ▸ s.exec_getInfo src hrun hmgmt
  case modeGet =>
    intro hmay
    exact s.modeBytes_eq ▸ s.exec_modeGet src hrun hmay
  case pvtRead =>
    intro hmay ha h1 h64 hrange
    exact s.monitorBytes_eq a b.toNat d.toNat ha ▸ s.exec_pvtRead src a b d hrun hmay h1 h64 (monitorCount_eq a ha ▸ hrange)
  case spareStatus =>
    intro hmay hab
    obtain ⟨n, r, heq, hlen⟩ := s.spareReply_eq a b
    exact ⟨n, r, heq ▸ s.exec_spareStatus src a b hrun hmay hab, hlen⟩
  case contactRead =>
    intro hmgmt h1 h127
    obtain ⟨hlen, hmem⟩ := s.sheet.answer_mem x a.toNat
    exact ⟨s.sheet.answer x a.toNat, hlen, hmem, s.exec_contactRead src x a hrun hmgmt h1 h127⟩
  case pairStatus =>
    intro hmay
    exact ⟨s.pairBytes, s.exec_pairStatus src hrun hmay, s.pairBytes_length⟩
  case configChecksum => exact fun hmay hthere => s.exec_configChecksum src h x y hrun hmay hthere
  case modeSet =>
    intro i waits wakes
    refine ⟨fun hmay hm ha hpeer hstandby => ?_, fun hmay ha hm hserv hst => ?_, fun hlife hsrc ha hm hst => ?_, fun hlife hsrc ha hm hst => ?_,
      fun hlife hhigh ha hm hst => ?_, fun hmay ha hm hst => ?_, fun hlife hhigh ha hm hst => ?_, fun hmay ha hst hlt => ?_⟩
    · exact s.exec_modeSet_same src a hrun (State.maySet_same hmay hm hpeer hstandby) ha hm
    · subst ha
      exact s.exec_modeSet_safeHold src hrun (State.maySet_safeHold hmay hm hserv) hm hst
    · subst hsrc ha
      exact s.exec_modeSet_wakeSafe hrun hlife hm hst
    · subst hsrc ha
      exact s.exec_modeSet_wake hrun hlife hm hst
    · subst ha
      exact s.exec_modeSet_service src hrun (State.maySet_high hlife hhigh (by rw [hm]; decide)) hm hst
    · subst ha
      exact s.exec_modeSet_standby src hrun (State.maySet_open hmay (by decide) (by rcases hm with h | h <;> rw [h] <;> decide)
        (by rcases hm with h | h <;> rw [h] <;> decide)) hm hst
    · subst ha
      exact s.exec_modeSet_run src hrun (State.maySet_high hlife hhigh (by rw [hm]; decide)) hm hst
    · have hset : s.MaySetMode src a := by
        rcases ha with ⟨rfl, hm⟩ | ⟨rfl, hm, -⟩ <;> exact State.maySet_open hmay (by decide) (by rw [hm]; decide) (by rw [hm]; decide)
      exact s.exec_modeSet_agreed src a hrun hset ha hst hlt
  case powerPointSet =>
    refine ⟨fun hone hb => ?_, fun hmay hop ha hb heid => ?_, fun hone hb hup => ?_, fun hone hb hgated => ?_, fun hone hb => ?_⟩
    · exact s.exec_powerPointSet_point src a b hrun hone hb
    · subst ha
      exact s.exec_powerPointSet_all src b hrun hmay hop hb heid
    · subst hb
      exact s.exec_powerPointSet_off src a hrun hone hup
    · subst hb
      exact s.exec_powerPointSet_on src a hrun hone hgated
    · exact s.exec_powerPointSet_already src a b hrun hone hb
  case spareEngage =>
    intro i cl hs idle dark hlife hhigh
    refine ⟨fun hm ha hb hd hh hfree hwork hgated => ?_, fun hop ha hb hd hh hfree hwork => ?_, fun hop ha hb hd h32 h40 hfree hwork => ?_,
      fun hop ha hb hd hh hfree hnew hidle => ?_, fun hop ha hb hd hquad hfree hnew hoff => ?_, fun hop ha hb hd hh hfree hwork => ?_⟩
    · subst ha
      exact s.exec_spareEngage_core src b d h hrun hlife hhigh hm hb hd hh hfree hwork hgated
    · subst ha
      exact s.exec_spareEngage_llc src b d h hrun hlife hhigh hop hb hd hh hfree hwork
    · subst ha
      exact s.exec_spareEngage_dir src b d h hrun hlife hhigh hop hb hd h32 h40 hfree hwork
    · subst ha hd
      exact s.exec_spareEngage_phase src b h hrun hlife hhigh hop hb hh hfree hnew hidle
    · subst ha hd
      exact s.exec_spareEngage_lane src b h hrun hlife hhigh hop hb hquad hfree hnew hoff
    · subst ha hb hd hh
      exact s.exec_spareEngage_command src hrun hlife hhigh hop hfree hwork
  case contactClear =>
    intro hmay
    exact ⟨_, ⟨s.exec_contactClear src hrun hmay, rfl⟩, rfl, rfl, rfl⟩
  case dramConfig =>
    rintro hlife rfl hm hready hlen h0 h1 h2 h3 h11
    exact ⟨_, ⟨s.exec_dramConfig p hrun hlife hm hready hlen h0 h1 h2 h3 h11, rfl⟩, rfl, rfl⟩
  case delaysetLoad =>
    intro hmay hop hlen hn hset hz hlock hactive hpend hfree
    exact s.dramDelaysetLoad_acts src p (s.exec_dramDelaysetLoad src p hrun hmay hop hlen hn hset hz hlock hactive hpend hfree)
  case delaysetSelect =>
    intro hmay hop ha hpend hroom hfree
    exact s.dramDelaysetSelect_acts src a b _ ha (s.exec_dramDelaysetSelect src a b hrun hmay hop ha hpend hroom hfree)
  case marginScan =>
    intro hlife hsrc hmgmt hmode hlen hn hz hfrozen hroom hfree
    exact State.defers_alone (s.exec_dramMarginScan src p hrun hlife hsrc hmgmt hmode hlen hn hz hfrozen hroom hfree)
  case eraseDevice =>
    intro hmay hop ha hb hd he herased herasing hfree
    exact s.dramEraseDevice_acts src a b d e _ (s.exec_dramEraseDevice src a b d e hrun hmay hop ha hb hd he herased herasing hfree)
  case repairRow =>
    intro hmay hmode hlen hn hsub hrank hdev hgroup hbank hz hrow hfrozen hroom hfree
    exact State.defers_alone (s.exec_dramRepairRow src p hrun hmay hmode hlen hn hsub hrank hdev hgroup hbank hz hrow hfrozen hroom hfree)
  case scrubSet =>
    intro hmay hop hb hfree
    exact s.dramScrubSet_acts src a b (s.exec_dramScrubSet src a b hrun hmay hop hb hfree)
  case viCreate =>
    intro v hmay hop hlen hv hvmid heid hpl hz halign hbase h1 hcount hqueues hengine hvecs hvec hrest hnew hfree hapart
    have hblock : ViBlock p := ⟨hv, hvmid, heid, hz, halign, hbase, h1, hcount, hqueues, hengine, hvecs, hvec, hrest⟩
    exact s.viCreate_acts src p hblock (s.exec_viCreate src p hrun hmay hop hlen hblock hpl hnew hfree hapart)
  case viDestroy =>
    intro hmay hop hh hvalid hname hroom hfree
    exact State.defers_reset (s.exec_viDestroy src h hrun hmay hop hh hvalid hname hroom hfree)
  case viReset =>
    intro hmay hop hh hvalid hname hroom hfree
    exact State.defers_reset (s.exec_viReset src h hrun hmay hop hh hvalid hname hroom hfree)
  case queueBind =>
    intro q v hmay hop hlen hvi hname hkind hsmall hlarge hvec hport hring hcomp hunbound hfree
    have hblock : s.BindBlock p v := ⟨hvi, hkind, hsmall, hlarge, hvec, hport, hring, hcomp⟩
    exact s.queueBind_acts src p (s.exec_queueBind src p v hrun hmay hop hlen hblock hname hunbound hfree)
  case queueReset =>
    intro q hmay hop hq hbound hroom hvi
    exact s.queueReset_acts src x _ (s.exec_queueReset src x hrun hmay hop hq hbound hroom hvi)
  case portConfig =>
    intro hmay hop l hl hlock _
    exact s.exec_portConfig src a ws l hrun hmay hop hl hlock
  case switchConfig =>
    intro hmay hop l hl hlock _
    exact s.exec_switchConfig src ws l hrun hmay hop hl hlock
  case dinathConfig =>
    intro hmay hop l hl hlock hguard
    exact s.exec_dinathConfig src ws l hrun hmay hop hl hlock (hguard rfl)
  case phaseBaseConfig =>
    intro hmay hop l hl hlock _
    exact s.exec_phaseBaseConfig src a ws l hrun hmay hop hl hlock
  case pairConfig =>
    intro hmay hop l hl hlock _
    exact s.exec_pairConfig src ws l hrun hmay hop hl hlock
  case timeStep =>
    intro hmay hmode h1 h40
    obtain ⟨hnow, hset, hclear, hcount, hmem, hcores⟩ := s.stepTime_spec w
    exact ⟨_, s.exec_timeStep src w hrun hmay hmode h1 h40, hnow, hset, hclear, hcount, rfl, hmem, hcores⟩
  case shutter =>
    intro hmay hop harmed
    refine ⟨fun hw => ?_, fun hw => ?_⟩
    · obtain ⟨hctrl, hsend, hcores⟩ := s.shutterArmed_spec w
      exact ⟨_, s.exec_shutter_later src w hrun hmay hop harmed hw, rfl, hctrl, hsend, hcores⟩
    · obtain ⟨hmem, hctrl, hgt⟩ := s.shutter_spec s.now s.now_lt rfl
      exact ⟨_, s.exec_shutter_now src w hrun hmay hop harmed hw, rfl, hctrl, hgt, hmem⟩
  case lifecycleAdvance =>
    intro hlife hhigh hlen hcur hstep hspi hserv hver hz hkey
    exact s.exec_lifecycleAdvance src p hrun hlife hhigh ⟨hlen, hcur, hstep, hspi, hserv, hver, hz, hkey⟩
  case debugUnlock =>
    rintro rfl hlife
    obtain ⟨t, hexec, hreply, hrest⟩ := s.exec_debugUnlock hrun hlife
    exact ⟨t, ⟨hexec, hreply⟩, hrest⟩
  case lockRegion =>
    intro hmay hop h18 hthere
    refine ⟨_, ⟨s.exec_lockRegion src h x y hrun hmay hop h18 hthere, rfl⟩, fun k hk => ?_, fun l hl => ?_, fun l hl => ?_, rfl⟩
    · exact (s.mem_lockArea h.toNat x.toNat y.toNat _).mpr (.inr ⟨k, hk, rfl⟩)
    · exact (s.mem_lockArea h.toNat x.toNat y.toNat l).mpr (.inl hl)
    · rcases (s.mem_lockArea h.toNat x.toNat y.toNat l).mp hl with hl | ⟨k, hk, rfl⟩
      · exact .inl hl
      · exact .inr ⟨rfl, Nat.le_add_right _ _, Nat.add_lt_add_left hk _⟩

end Sys2Proof.Machine
end

section
/-!
PROOF. What the operations that the units of the phase engine share change: registers and the agenda (`RegStep`), the router's
sources, and what of a state they leave as it was.
-/
namespace Sys2Proof.Machine

/-! ### Entries of the agenda -/

/-- An effect put into the agenda drops nothing that waits there. -/
theorem mem_agendaInsert_of_mem {due : Nat} {a : Act} {e : Nat × Act} {l : List (Nat × Act)} (h : e ∈ l) : e ∈ agendaInsert due a l := by
  induction l with
  | nil => cases h
  | cons x l ih =>
    unfold agendaInsert
    split
    · exact List.mem_cons_of_mem _ h
    · rcases List.mem_cons.mp h with rfl | h
      · exact List.mem_cons_self
      · exact List.mem_cons_of_mem _ (ih h)

theorem State.mem_agenda_after (s : State) (ns : Nat) (a : Act) : (s.clk + ns, a) ∈ (s.after ns a).agenda := agendaInsert_self _ _ _

/-- A change of what a pin drives reaches the ball. -/
theorem State.mem_ballFollows (s : State) (p : PinId) (late : Nat) :
    (s.clk + (8 + late), Act.ball p (s.pinDrive p.val)) ∈ (s.ballFollows p.val late).agenda := by
  rw [State.ballFollows, finOfNat_val]
  exact s.mem_agenda_after _ _

/-! ### States that differ in registers and the agenda -/

/-- `t` is `s` but for the agenda and the registers listed. -/
structure RegStep (rs : List Nat) (s t : State) : Prop where
  frame : t = { s with regs := t.regs, agenda := t.agenda }
  kept : s.regsKept t rs

section
variable {rs qs : List Nat} {s t u : State}

theorem RegStep.refl (s : State) : RegStep rs s s := ⟨rfl, fun _ _ => rfl⟩

theorem RegStep.wr {a v : Nat} (h : RegStep rs s t) (ha : a ∈ rs) : RegStep rs s (t.wr a v) :=
  ⟨congrArg (·.wr a v) h.frame, h.kept.wr ha⟩

theorem RegStep.wb {a i : Nat} {v : Bool} (h : RegStep rs s t) (ha : a ∈ rs) : RegStep rs s (t.wb a i v) := h.wr ha

theorem RegStep.wf {a hi lo v : Nat} (h : RegStep rs s t) (ha : a ∈ rs) : RegStep rs s (t.wf a hi lo v) := h.wr ha

theorem RegStep.trans (h : RegStep rs s t) (k : RegStep rs t u) : RegStep rs s u := by
  refine ⟨?_, h.kept.trans k.kept⟩
  have hk := k.frame
  generalize u.regs = r, u.agenda = l at hk ⊢
  rw [hk, h.frame]

theorem RegStep.weaken (h : RegStep rs s t) (hsub : ∀ a ∈ rs, a ∈ qs) : RegStep qs s t :=
  ⟨h.frame, fun a ha => h.kept a fun hr => ha (hsub a hr)⟩

theorem RegStep.ite {c : Prop} [Decidable c] (h : RegStep rs s t) (k : RegStep rs s u) : RegStep rs s (if c then t else u) := by
  split <;> assumption

theorem RegStep.of_agenda (h : AgendaStep s t) : RegStep rs s t := by
  unfold AgendaStep at h
  generalize t.agenda = l at h
  rw [h]
  exact ⟨rfl, fun _ _ => rfl⟩

theorem RegStep.after {ns : Nat} {a : Act} (h : RegStep rs s t) : RegStep rs s (t.after ns a) := h.trans (.of_agenda (.after t ns a))

theorem RegStep.send {ns : Nat} {i : Instr} (h : RegStep rs s t) : RegStep rs s (t.send ns i) := h.after

theorem RegStep.ballFollows {p late : Nat} (h : RegStep rs s t) : RegStep rs s (t.ballFollows p late) := h.after

/-- A source that becomes pending changes its router register and the agenda. -/
theorem RegStep.source {n : Nat} (h : RegStep rs s t) (hn : Reg.IRT_SRC_CFG n ∈ rs) : RegStep rs s (t.source n) :=
  .ite h (.ite (.ite (h.wb hn).send ((h.wb hn).trans (.of_agenda (.dispatchAt _ _ _ _)))) (h.wb hn))

theorem RegStep.pinBankEvent {k i : Nat} (h : RegStep rs s t) (hn : Reg.IRT_SRC_CFG (bankSource k) ∈ rs) :
    RegStep rs s (t.pinBankEvent k i) := .ite (h.source hn) h

theorem RegStep.clk (h : RegStep rs s t) : t.clk = s.clk := by rw [h.frame]

theorem RegStep.rb (h : RegStep rs s t) {a : Nat} (ha : a ∉ rs) (i : Nat) : t.rb a i = s.rb a i := State.rb_of_rd (h.kept a ha) i

end

/-! ### States that differ in registers, pins and the agenda -/

/-- `t` is `s` but for the pins, the agenda and the registers listed. -/
structure ActStep (rs : List Nat) (s t : State) : Prop where
  frame : t = { s with regs := t.regs, agenda := t.agenda, pins := t.pins }
  kept : s.regsKept t rs

section
variable {rs qs : List Nat} {s t u : State}

theorem ActStep.of_regs (h : RegStep rs s t) : ActStep rs s t := by
  refine ⟨?_, h.kept⟩
  have hframe := h.frame
  generalize t.regs = r, t.agenda = l at hframe
  rw [hframe]

theorem ActStep.of_pins (h : PinStep s t) : ActStep rs s t := by
  unfold PinStep at h
  generalize t.pins = x, t.agenda = l at h
  rw [h]
  exact ⟨rfl, fun _ _ => rfl⟩

theorem ActStep.refl (s : State) : ActStep rs s s := .of_regs (.refl s)

theorem ActStep.trans (h : ActStep rs s t) (k : ActStep rs t u) : ActStep rs s u := by
  refine ⟨?_, h.kept.trans k.kept⟩
  have hk := k.frame
  generalize u.regs = r, u.agenda = l, u.pins = x at hk ⊢
  rw [hk, h.frame]

theorem ActStep.ite {c : Prop} [Decidable c] (h : ActStep rs s t) (k : ActStep rs s u) : ActStep rs s (if c then t else u) := by
  split <;> assumption

theorem ActStep.weaken (h : ActStep rs s t) (hsub : ∀ a ∈ rs, a ∈ qs) : ActStep qs s t :=
  ⟨h.frame, fun a ha => h.kept a fun hr => ha (hsub a hr)⟩

/-- Pins and the agenda change no register. -/
theorem PinStep.regs (h : PinStep s t) : t.regs = s.regs := by rw [h]

theorem PinStep.setPin (s : State) (p : Nat) (x : Pin) : PinStep s (s.setPin p x) := rfl

theorem PinStep.pinArrive (s : State) (p : Nat) (a : PinAct) (late : Nat) : PinStep s (s.pinArrive p a late) := rfl

end

/-! ### The router's sources (R182) -/

/-- An effect put into the agenda leaves the registers. -/
theorem AgendaStep.regs {s t : State} (h : AgendaStep s t) : t.regs = s.regs := by rw [h]

/-- A source that is not reserved is pending after its event. -/
theorem State.rb_source_pending (s : State) {n : Nat} (h : sourceReserved n = false) : (s.source n).rb (Reg.IRT_SRC_CFG n) 2 = true := by
  unfold State.source
  dsimp only
  have hset : (s.wb (Reg.IRT_SRC_CFG n) 2 true).rb (Reg.IRT_SRC_CFG n) 2 = true := by simp [State.rb_wb]
  split
  · next hp => exact hp.resolve_left (by simp [h])
  · split
    · split
      · exact hset
      · rw [State.dispatch, State.rb_congr (AgendaStep.dispatchAt _ _ _ _).regs]
        exact hset
    · exact hset

end Sys2Proof.Machine
end

section
/-!
PROOF. Linked counters (O15): a tick counts or wraps, a wrap raises the enabled actions, and a compare's action loads COUNT and sets RUN.
-/
namespace Sys2Proof.Machine

/-! ### A wrap (R88) -/

section
variable (s : State) (n : Nat)

/-- The state in which a wrap has set WRAP and raised the counter's interrupt. -/
def State.wrapped (s : State) (n : Nat) : State :=
  if (s.rd (Reg.CTR_CTRL n)).testBit 2 then (s.wb (Reg.CTR_STATUS n) 0 true).source (ctrSource n) else s.wb (Reg.CTR_STATUS n) 0 true

/-- The task event of a wrap and the tick of a linked counter are put on the agenda. -/
theorem State.ctrWrap_agenda : AgendaStep (s.wrapped n) (s.ctrWrap n) := by
  unfold State.ctrWrap
  extract_lets c s1 s2 s3
  have hevent : AgendaStep s2 s3 := .ite (.send _ _ _) (.refl _)
  exact .ite (hevent.trans (.send _ _ _)) hevent

theorem State.wrapped_step : RegStep [Reg.IRT_SRC_CFG (ctrSource n)] (s.wb (Reg.CTR_STATUS n) 0 true) (s.wrapped n) :=
  .ite (RegStep.source (.refl _) List.mem_cons_self) (.refl _)

/-- A wrap changes CTR_STATUS, the router's source and the agenda. -/
theorem State.ctrWrap_step : RegStep [Reg.CTR_STATUS n, Reg.IRT_SRC_CFG (ctrSource n)] s (s.ctrWrap n) :=
  (((RegStep.refl s).wb List.mem_cons_self).trans ((s.wrapped_step n).weaken fun _ h => List.mem_cons_of_mem _ h)).trans
    (.of_agenda (s.ctrWrap_agenda n))

theorem State.rb_ctrWrap_wrap : (s.ctrWrap n).rb (Reg.CTR_STATUS n) 0 = true := by
  have hne : Reg.CTR_STATUS n ≠ Reg.IRT_SRC_CFG (ctrSource n) := by unfold Reg.CTR_STATUS Reg.IRT_SRC_CFG ctrSource; omega
  rw [State.rb_congr (s.ctrWrap_agenda n).regs, (s.wrapped_step n).rb (by simpa using hne), State.rb_wb _ _ _ _ _ _ (by decide)]
  simp

theorem sourceReserved_ctrSource {n : Nat} (h : n < 64) : sourceReserved (ctrSource n) = false := by
  simp only [sourceReserved, ctrSource, Bool.or_eq_false_iff]
  refine ⟨⟨⟨decide_eq_false ?_, decide_eq_false ?_⟩, decide_eq_false ?_⟩, decide_eq_false ?_⟩ <;> omega

variable {s n} in
theorem State.rb_ctrWrap_pending (hn : n < 64) (h : s.rb (Reg.CTR_CTRL n) 2 = true) :
    (s.ctrWrap n).rb (Reg.IRT_SRC_CFG (ctrSource n)) 2 = true := by
  have hraised : s.wrapped n = (s.wb (Reg.CTR_STATUS n) 0 true).source (ctrSource n) := if_pos h
  rw [State.rb_congr (s.ctrWrap_agenda n).regs, hraised]
  exact State.rb_source_pending _ (sourceReserved_ctrSource hn)

variable {s n} in
/-- A wrap ticks the running counter that is linked to this one. -/
theorem State.ctrWrap_ticks {m : CtrId} (hm : m.val = n + 1) (hrun : s.rb (Reg.CTR_CTRL m.val) 0 = true)
    (hlink : s.ctrLinked m.val = true) : (s.clk, Act.cmd (.ctrTick m)) ∈ (s.ctrWrap n).agenda := by
  have hlt := m.isLt
  rw [hm] at hrun hlink
  have hm' : Fin.ofNat 64 (n + 1) = m := by rw [← hm, finOfNat_val]
  have hclk' : (s.wrapped n).clk = s.clk := (s.wrapped_step n).clk
  unfold State.ctrWrap
  extract_lets c s1 s2 s3
  have hclk : s3.clk = s.clk := (RegStep.ite (rs := []) (RegStep.refl s2).send (.refl s2)).clk.trans hclk'
  rw [if_pos ⟨by omega, hrun, hlink⟩, hm', ← hclk]
  exact s3.mem_agenda_send 0 (.ctrTick m)

end

/-! ### A tick (R88) -/

/-- A tick of a running counter at TOP. -/
theorem exec_ctrTick_top {s : State} {n : CtrId} (hrun : s.rb (Reg.CTR_CTRL n.val) 0 = true)
    (htop : s.rd (Reg.CTR_COUNT n.val) = s.rd (Reg.CTR_TOP n.val)) : ∃ t, exec (.ctrTick n) s = .next t ∧
      t.rd (Reg.CTR_COUNT n.val) = 0 ∧ t.rb (Reg.CTR_STATUS n.val) 0 = true ∧
      (∀ m : CtrId, m.val = n.val + 1 → s.rb (Reg.CTR_CTRL m.val) 0 = true → s.ctrLinked m.val = true →
        (s.clk, Act.cmd (.ctrTick m)) ∈ t.agenda) ∧
      (s.rb (Reg.CTR_CTRL n.val) 2 = true → t.rb (Reg.IRT_SRC_CFG (ctrSource n.val)) 2 = true) ∧
      RegStep [Reg.CTR_COUNT n.val, Reg.CTR_STATUS n.val, Reg.IRT_SRC_CFG (ctrSource n.val)] s t := by
  have hexec : exec (.ctrTick n) s = execCtrTick n s := rfl
  have hctrl (m i : Nat) : (s.wr (Reg.CTR_COUNT n.val) 0).rb (Reg.CTR_CTRL m) i = s.rb (Reg.CTR_CTRL m) i :=
    State.rb_wr_ne s _ _ (by unfold Reg.CTR_COUNT Reg.CTR_CTRL; omega)
  have hstep := (s.wr (Reg.CTR_COUNT n.val) 0).ctrWrap_step n.val
  refine ⟨(s.wr (Reg.CTR_COUNT n.val) 0).ctrWrap n.val, ?_, ?_, State.rb_ctrWrap_wrap _ _, fun m hm hm0 hlink => ?_, fun h2 => ?_, ?_⟩
  · rw [hexec, execCtrTick, if_pos hrun, if_pos htop]
  · have hnot : Reg.CTR_COUNT n.val ∉ [Reg.CTR_STATUS n.val, Reg.IRT_SRC_CFG (ctrSource n.val)] := by
      simp only [List.mem_cons, List.not_mem_nil, or_false, Reg.CTR_COUNT, Reg.CTR_STATUS, Reg.IRT_SRC_CFG, ctrSource]
      omega
    rw [hstep.kept _ hnot, State.rd_wr_same, Nat.zero_mod]
  · exact State.ctrWrap_ticks hm ((hctrl m.val 0).trans hm0) (by rw [State.ctrLinked, hctrl]; exact hlink)
  · exact State.rb_ctrWrap_pending n.isLt ((hctrl n.val 2).trans h2)
  · exact ((RegStep.refl s).wr List.mem_cons_self).trans (hstep.weaken fun _ h => List.mem_cons_of_mem _ h)

/-! ### A compare's action (R88) -/

section
variable (s : State) (n : Nat)

/-- COUNT loaded with 0 by an action with bit 0. -/
def State.ctrLoaded (s : State) (n : Nat) (load : Bool) : State := if load then s.wr (Reg.CTR_COUNT n) 0 else s

theorem State.ctrLoaded_rd (load : Bool) (a : Nat) :
    (s.ctrLoaded n load).rd a = if a = Reg.CTR_COUNT n ∧ load = true then 0 else s.rd a := by
  cases load
  · simp [State.ctrLoaded]
  · simp [State.ctrLoaded, State.rd_wr, eq_comm]

theorem State.ctrLoaded_eq (load : Bool) : s.ctrLoaded n load = { s with regs := (s.ctrLoaded n load).regs } := by
  cases load <;> rfl

/-- Setting RUN changes CTR_CTRL.RUN and the counter, and neither where RUN was 1. -/
theorem State.ctrRun_spec : (∀ i, (s.ctrRun n).rb (Reg.CTR_CTRL n) i = if i = 0 then true else s.rb (Reg.CTR_CTRL n) i) ∧
    s.regsKept (s.ctrRun n) [Reg.CTR_CTRL n] ∧ (s.rb (Reg.CTR_CTRL n) 0 = true → s.ctrRun n = s) ∧
    s.ctrRun n = { s with regs := (s.ctrRun n).regs, ctrs := (s.ctrRun n).ctrs } := by
  unfold State.ctrRun
  split
  · next hrun =>
    refine ⟨fun i => ?_, fun _ _ => rfl, fun _ => rfl, rfl⟩
    by_cases hi : i = 0 <;> simp [hi, hrun]
  · next hrun =>
    refine ⟨fun i => ?_, fun a ha => ?_, fun h => absurd h hrun, rfl⟩
    · simp only [State.rb, State.setCtr_rd]
      rw [← State.rb, State.rb_wb _ _ _ _ _ _ (by decide)]
      simp only [true_and, eq_comm (a := 0)]
      rfl
    · rw [State.setCtr_rd, State.rd_wb_ne _ _ _ fun e => ha (by simp [e])]

/-- What a compare's action leaves of a counter. -/
theorem State.ctrAct_spec (act : BitVec 2) : let t := s.ctrAct n act
    t.rd (Reg.CTR_COUNT n) = (if act.getLsbD 0 then 0 else s.rd (Reg.CTR_COUNT n)) ∧
    (∀ i, t.rb (Reg.CTR_CTRL n) i = if i = 0 then s.rb (Reg.CTR_CTRL n) 0 || act.getLsbD 1 else s.rb (Reg.CTR_CTRL n) i) ∧
    (s.rb (Reg.CTR_CTRL n) 0 = true → t.ctr n = s.ctr n) ∧
    s.regsKept t [Reg.CTR_COUNT n, Reg.CTR_CTRL n] ∧ t = { s with regs := t.regs, ctrs := t.ctrs } := by
  have hne : Reg.CTR_CTRL n ≠ Reg.CTR_COUNT n := by unfold Reg.CTR_CTRL Reg.CTR_COUNT; omega
  have hctrl : (s.ctrLoaded n (act.getLsbD 0)).rd (Reg.CTR_CTRL n) = s.rd (Reg.CTR_CTRL n) := by
    rw [State.ctrLoaded_rd, if_neg (by simp [hne])]
  have hact : s.ctrAct n act = if act.getLsbD 1 then (s.ctrLoaded n (act.getLsbD 0)).ctrRun n else s.ctrLoaded n (act.getLsbD 0) := rfl
  have hcount : (s.ctrLoaded n (act.getLsbD 0)).rd (Reg.CTR_COUNT n) = if act.getLsbD 0 then 0 else s.rd (Reg.CTR_COUNT n) := by
    rw [State.ctrLoaded_rd]
    simp
  have hkept : s.regsKept (s.ctrLoaded n (act.getLsbD 0)) [Reg.CTR_COUNT n, Reg.CTR_CTRL n] := fun a ha => by
    rw [State.ctrLoaded_rd, if_neg fun h => ha (by simp [h.1])]
  have hframe := s.ctrLoaded_eq n (act.getLsbD 0)
  generalize s.ctrLoaded n (act.getLsbD 0) = u at *
  have hctr : u.ctr n = s.ctr n := by rw [hframe]; rfl
  intro t
  cases hrun : act.getLsbD 1
  · have ht : t = u := hact.trans (if_neg (by rw [hrun]; decide))
    rw [ht]
    refine ⟨hcount, fun i => ?_, fun _ => hctr, hkept, by rw [hframe]⟩
    rw [State.rb_of_rd hctrl]
    by_cases hi : i = 0 <;> simp [hi]
  · have ht : t = u.ctrRun n := hact.trans (if_pos hrun)
    obtain ⟨hbits, hregs, hsame, hrest⟩ := u.ctrRun_spec n
    rw [ht]
    refine ⟨(hregs _ (by simpa using hne.symm)).trans hcount, fun i => ?_, fun h0 => ?_, fun a ha => ?_, ?_⟩
    · rw [hbits, State.rb_of_rd hctrl]
      simp
    · rw [hsame ((State.rb_of_rd hctrl 0).trans h0), hctr]
    · exact (hregs a fun h => ha (List.mem_cons_of_mem _ h)).trans (hkept a ha)
    · generalize (u.ctrRun n).regs = r, (u.ctrRun n).ctrs = c at hrest
      rw [hrest, hframe]

end

/-- Settles O15, from what a wrap and a compare's action leave. -/
theorem linkedCounters : Obligations.Linked_counters := by
  unfold Obligations.Linked_counters
  refine ⟨fun s n => ⟨fun hoff => ?_, fun hrun hbelow => ?_, fun hrun htop => ?_⟩, fun s n act => ?_⟩
  · have hexec : exec (.ctrTick n) s = execCtrTick n s := rfl
    rw [hexec, execCtrTick, if_neg (by simp [hoff])]
  · have hexec : exec (.ctrTick n) s = execCtrTick n s := rfl
    rw [execCtrTick, if_pos hrun, if_neg hbelow] at hexec
    refine ⟨_, hexec, ?_, rfl, .wr (fun _ _ => rfl) List.mem_cons_self⟩
    rw [State.rd_wr_same]
    omega
  · obtain ⟨t, hexec, hcount, hwrap, hlink, hirq, hstep⟩ := exec_ctrTick_top hrun htop
    exact ⟨t, hexec, hcount, hwrap, hlink, hirq, hstep.frame, hstep.kept⟩
  · have hexec : exec (.linkedCounterAction n act) s = .next ((s.ctrAct n.val act).setCtr n.val
      { (s.ctrAct n.val act).ctr n.val with lastAct := some (s.clk / 2, act) }) := rfl
    obtain ⟨hcount, hbits, hctr, hkept, hframe⟩ := s.ctrAct_spec n.val act
    refine ⟨_, hexec, hcount, hbits 0, fun h0 => ?_, fun i hi => (hbits i).trans (if_neg (by omega)), ?_, hkept⟩
    · rw [State.setCtr_ctr_same, hctr h0]
    · generalize s.ctrAct n.val act = u at hframe
      rw [hframe]
      rfl

end Sys2Proof.Machine
end

section
/-!
PROOF. Captures (O13): an event schedules its capture, a capture that lands shows itself in CAP_STATUS, and a read takes it.
-/
namespace Sys2Proof.Machine

/-! ### An event (R81, R82) -/

/-- An event lets the pin's buffer see the edge, and is then taken by the channel. -/
theorem exec_captureEvent (s : State) (n : CapId) (rise : Bool) (instant : Word64) : ∃ l : Tab Pin,
    exec (.captureEvent n rise instant) s = .next (({ s with pins := l } : State).captureAt n rise instant) := by
  have hexec : exec (.captureEvent n rise instant) s = execCaptureEvent n rise instant s := rfl
  by_cases hthreshold : (s.rd (Reg.CAP_CTRL n.val)).testBit 3 = true
  · exact ⟨s.pins, by rw [hexec, execCaptureEvent, if_pos hthreshold]⟩
  · refine ⟨(s.seeLevel (fld (s.rd (Reg.CAP_CTRL n.val)) 12 4) rise).pins, ?_⟩
    rw [hexec, execCaptureEvent, if_neg hthreshold]
    rfl

theorem State.captureAt_step (s : State) (n : CapId) (rise : Bool) (instant : Word64) : AgendaStep s (s.captureAt n rise instant) :=
  .ite (.after _ _ _) (.refl _)

/-! ### A capture that becomes readable (R83) -/

section
variable (s : State) (n v : Nat) (rise : Bool)

/-- The state in which a capture stands in CAP_VALUE and CAP_STATUS. -/
def State.capHeld (s : State) (n v : Nat) (rise : Bool) : State :=
  (((if s.rb (Reg.CAP_STATUS n) 0 then s.wb (Reg.CAP_STATUS n) 1 true else s).wr (Reg.CAP_VALUE n) v).wb (Reg.CAP_STATUS n) 0 true).wb
    (Reg.CAP_STATUS n) 2 rise

theorem Reg.cap_status_ne_value (n : Nat) : Reg.CAP_STATUS n ≠ Reg.CAP_VALUE n := by unfold Reg.CAP_STATUS Reg.CAP_VALUE; omega

theorem State.capHeld_step : RegStep [Reg.CAP_VALUE n, Reg.CAP_STATUS n] s (s.capHeld n v rise) := by
  have hs : Reg.CAP_STATUS n ∈ [Reg.CAP_VALUE n, Reg.CAP_STATUS n] := by simp
  exact (((RegStep.ite ((RegStep.refl s).wb hs) (.refl s)).wr List.mem_cons_self).wb hs).wb hs

theorem State.rd_capHeld_value : (s.capHeld n v rise).rd (Reg.CAP_VALUE n) = v % 2 ^ 64 := by
  rw [State.capHeld, State.rd_wb_ne _ _ _ (Reg.cap_status_ne_value n), State.rd_wb_ne _ _ _ (Reg.cap_status_ne_value n),
    State.rd_wr_same]

/-- FULL, the edge, and OVERRUN where FULL stood. -/
theorem State.rb_capHeld_status : (s.capHeld n v rise).rb (Reg.CAP_STATUS n) 0 = true ∧
    (s.capHeld n v rise).rb (Reg.CAP_STATUS n) 2 = rise ∧
    (s.capHeld n v rise).rb (Reg.CAP_STATUS n) 1 = (s.rb (Reg.CAP_STATUS n) 1 || s.rb (Reg.CAP_STATUS n) 0) := by
  have hover : (if s.rb (Reg.CAP_STATUS n) 0 then s.wb (Reg.CAP_STATUS n) 1 true else s).rb (Reg.CAP_STATUS n) 1 =
      (s.rb (Reg.CAP_STATUS n) 1 || s.rb (Reg.CAP_STATUS n) 0) := by
    cases h : s.rb (Reg.CAP_STATUS n) 0 <;> simp [State.rb_wb]
  refine ⟨?_, ?_, ?_⟩
  · simp [State.capHeld, State.rb_wb]
  · simp [State.capHeld, State.rb_wb]
  · simp only [State.capHeld, State.rb_wb _ _ _ _ _ _ (show 2 < 64 by decide), State.rb_wb _ _ _ _ _ _ (show 0 < 64 by decide)]
    simpa [State.rb_wr_ne _ _ _ (Reg.cap_status_ne_value n).symm] using hover

end

/-- A capture that lands is held, and then raises the enabled actions. -/
theorem State.landCapture_step (s : State) (n : Nat) (v : Word64) (rise : Bool) (gt : Word64) : ∃ x : Cap,
    RegStep [Reg.IRT_SRC_CFG (capSource n)] ((s.setCap n x).capHeld n v.toNat rise) (s.landCapture n v rise gt) := by
  have hm : Reg.IRT_SRC_CFG (capSource n) ∈ [Reg.IRT_SRC_CFG (capSource n)] := List.mem_cons_self
  exact ⟨_, .ite (RegStep.ite (RegStep.source (.refl _) hm) (.refl _)).send (.ite (RegStep.source (.refl _) hm) (.refl _))⟩

/-- What a capture that lands leaves. -/
theorem State.landCapture_spec (s : State) {n : Nat} (hn : n < 256) (v : Word64) (rise : Bool) (gt : Word64) :
    let t := s.landCapture n v rise gt
    let st := Reg.CAP_STATUS n
    t.rd (Reg.CAP_VALUE n) = v.toNat ∧ t.rb st 0 = true ∧ t.rb st 2 = rise ∧ t.rb st 1 = (s.rb st 1 || s.rb st 0) ∧
    t = { s with regs := t.regs, caps := t.caps, agenda := t.agenda } ∧
    s.regsKept t [Reg.CAP_VALUE n, st, Reg.IRT_SRC_CFG (capSource n)] := by
  obtain ⟨x, hstep⟩ := s.landCapture_step n v rise gt
  obtain ⟨hfull, hedge, hover⟩ := (s.setCap n x).rb_capHeld_status n v.toNat rise
  have hvalue := (s.setCap n x).rd_capHeld_value n v.toNat rise
  have hheld := (s.setCap n x).capHeld_step n v.toNat rise
  have hst : Reg.CAP_STATUS n ∉ [Reg.IRT_SRC_CFG (capSource n)] := by
    simp only [List.mem_singleton, Reg.CAP_STATUS, Reg.IRT_SRC_CFG, capSource]; omega
  have hva : Reg.CAP_VALUE n ∉ [Reg.IRT_SRC_CFG (capSource n)] := by
    simp only [List.mem_singleton, Reg.CAP_VALUE, Reg.IRT_SRC_CFG, capSource]; omega
  intro t st
  have hall : RegStep [Reg.CAP_VALUE n, st, Reg.IRT_SRC_CFG (capSource n)] (s.setCap n x) t :=
    (hheld.weaken (by simp +contextual [st])).trans (hstep.weaken (by simp))
  refine ⟨?_, (hstep.rb hst 0).trans hfull, (hstep.rb hst 2).trans hedge, (hstep.rb hst 1).trans hover, ?_, hall.kept⟩
  · rw [hstep.kept _ hva, hvalue, Nat.mod_eq_of_lt v.isLt]
  · have hframe := hall.frame
    generalize t = u at hframe
    rw [hframe]
    rfl

/-! ### A read (R83) -/

/-- A read in a clock without a capture. -/
theorem State.readCapture_plain {s : State} {n : Nat} (h : (s.cap n).landed ≠ some s.clk) : ∃ x : Cap,
    s.readCapture n = (s.rd (Reg.CAP_VALUE n), (s.setCap n x).wb (Reg.CAP_STATUS n) 0 false) := by
  rw [State.readCapture, if_neg h]
  exact ⟨_, rfl⟩

theorem exec_capValue {s : State} {n : CapId} (h : (s.cap n.val).landed ≠ some s.clk) : ∃ x : Cap, exec (.capValue n) s =
    .next { (s.setCap n.val x).wb (Reg.CAP_STATUS n.val) 0 false with lastRead := BitVec.ofNat 64 (s.rd (Reg.CAP_VALUE n.val)) } := by
  have hexec : exec (.capValue n) s = execCapValue n s := rfl
  obtain ⟨x, hx⟩ := State.readCapture_plain h
  rw [execCapValue, hx] at hexec
  exact ⟨x, hexec⟩

/-- Settles O13, from what an event, a capture that lands and a read leave. -/
theorem captures : Obligations.Captures := by
  unfold Obligations.Captures
  refine ⟨fun s n rise instant => ?_, fun s n v rise gt => s.landCapture_spec n.isLt v rise gt, fun s n h => ?_⟩
  · obtain ⟨l, hexec⟩ := exec_captureEvent s n rise instant
    refine ⟨_, hexec, ?_, fun h => congrArg State.agenda (if_pos h),
      fun h => (congrArg State.agenda (if_neg h) : _ = ({ s with pins := l } : State).agenda)⟩
    have hstep := ({ s with pins := l } : State).captureAt_step n rise instant
    generalize ({ s with pins := l } : State).captureAt n rise instant = t at hstep
    rw [hstep]
  · obtain ⟨x, hexec⟩ := exec_capValue h
    refine ⟨_, hexec, ?_, ?_, fun i hi => ?_, rfl, .wb (fun _ _ => rfl) List.mem_cons_self⟩
    · rw [BitVec.toNat_ofNat, Nat.mod_eq_of_lt (s.rd_lt _)]
    · exact (State.rb_wb (s.setCap n.val x) _ _ 0 0 false (by decide)).trans (if_pos ⟨rfl, rfl⟩)
    · exact (State.rb_wb (s.setCap n.val x) _ _ 0 i false (by decide)).trans (if_neg (by omega))

end Sys2Proof.Machine
end

section
/-!
PROOF. Sigma-delta channels (O14): the flags that a valid result raises, and the loss of a channel's clock.
-/
namespace Sys2Proof.Machine

section
variable (s : State) (n : Nat)

/-! ### Flags, threshold events and trips (R86) -/

/-- The registers that show a channel's flags. -/
def sdfShown (n : Nat) : List Nat := [Reg.SDF_STATUS n, Reg.IRT_SRC_CFG (sdfSource n)]

theorem Reg.sdf_source_ne_status : Reg.IRT_SRC_CFG (sdfSource n) ≠ Reg.SDF_STATUS n := by
  unfold Reg.SDF_STATUS Reg.IRT_SRC_CFG sdfSource; omega

theorem State.sdfFlag_source (bit : Nat) :
    RegStep [Reg.IRT_SRC_CFG (sdfSource n)] (s.wb (Reg.SDF_STATUS n) bit true) (s.sdfFlag n bit) :=
  .ite (RegStep.source (.refl _) List.mem_cons_self) (.refl _)

theorem State.sdfFlag_step (bit : Nat) : RegStep (sdfShown n) s (s.sdfFlag n bit) :=
  ((RegStep.refl s).wb List.mem_cons_self).trans ((s.sdfFlag_source n bit).weaken fun _ h => List.mem_cons_of_mem _ h)

/-- The flag is set; every other flag stays. -/
theorem State.rb_sdfFlag {bit : Nat} (h : bit < 64) (i : Nat) :
    (s.sdfFlag n bit).rb (Reg.SDF_STATUS n) i = if bit = i then true else s.rb (Reg.SDF_STATUS n) i := by
  rw [(s.sdfFlag_source n bit).rb (by simpa using (Reg.sdf_source_ne_status n).symm), State.rb_wb _ _ _ _ _ _ h]
  simp

theorem State.sdfEvent_agenda (bit : Nat) (rise : Bool) : AgendaStep (s.sdfFlag n bit) (s.sdfEvent n bit rise) :=
  .foldl (fun _ _ => .send _ _ _) _ _

theorem State.trip_pins : PinStep (s.sdfFlag n 4) (s.trip n) :=
  .foldl (fun _ _ => by split <;> rfl) _ _

theorem State.sdfEvent_step (bit : Nat) (rise : Bool) : ActStep (sdfShown n) s (s.sdfEvent n bit rise) :=
  .of_regs ((s.sdfFlag_step n bit).trans (.of_agenda (s.sdfEvent_agenda n bit rise)))

theorem State.trip_step : ActStep (sdfShown n) s (s.trip n) :=
  (ActStep.of_regs (s.sdfFlag_step n 4)).trans (.of_pins (s.trip_pins n))

theorem State.rb_sdfEvent {bit : Nat} (h : bit < 64) (rise : Bool) (i : Nat) :
    (s.sdfEvent n bit rise).rb (Reg.SDF_STATUS n) i = if bit = i then true else s.rb (Reg.SDF_STATUS n) i := by
  rw [State.rb_congr (s.sdfEvent_agenda n bit rise).regs, s.rb_sdfFlag n h]

theorem State.rb_trip (i : Nat) : (s.trip n).rb (Reg.SDF_STATUS n) i = if 4 = i then true else s.rb (Reg.SDF_STATUS n) i := by
  rw [State.rb_congr (s.trip_pins n).regs, s.rb_sdfFlag n (by decide)]

/-! ### A valid result (R84, R86) -/

variable (r : Int)

/-- The result lies above SDF_THR_HI, or below SDF_THR_LO. -/
def State.sdfHigh (s : State) (n : Nat) (r : Int) : Bool := decide (r > toSigned 32 (s.rd (Reg.SDF_THR_HI n)))
def State.sdfLow (s : State) (n : Nat) (r : Int) : Bool := decide (r < toSigned 32 (s.rd (Reg.SDF_THR_LO n)))

/-- A threshold event where a result passes a threshold. -/
def State.sdfPasses (s : State) (n bit : Nat) (rise now was : Bool) : State := if now ∧ ¬ was then s.sdfEvent n bit rise else s

/-- The state in which a valid result has been checked against both thresholds. -/
def State.sdfJudged (s : State) (n : Nat) (r : Int) : State :=
  let s2 := (s.sdfPasses n 1 true (s.sdfHigh n r) (s.sdf n).wasHigh).sdfPasses n 2 false (s.sdfLow n r) (s.sdf n).wasLow
  if s.sdfHigh n r ∨ s.sdfLow n r then s2.trip n else s2

theorem State.sdfPasses_step (bit : Nat) (rise now was : Bool) : ActStep (sdfShown n) s (s.sdfPasses n bit rise now was) :=
  .ite (s.sdfEvent_step n bit rise) (.refl s)

theorem State.rb_sdfPasses {bit : Nat} (h : bit < 64) (rise now was : Bool) (i : Nat) :
    (s.sdfPasses n bit rise now was).rb (Reg.SDF_STATUS n) i = (s.rb (Reg.SDF_STATUS n) i || (decide (bit = i) && now && !was)) := by
  unfold State.sdfPasses
  split
  · next hp =>
    rw [s.rb_sdfEvent n h]
    by_cases hi : bit = i <;> simp [hi, hp]
  · next hp => cases now <;> cases was <;> simp at hp ⊢

theorem State.sdfJudged_step : ActStep (sdfShown n) s (s.sdfJudged n r) := by
  have hpass := (s.sdfPasses_step n 1 true (s.sdfHigh n r) (s.sdf n).wasHigh).trans
    (State.sdfPasses_step _ n 2 false (s.sdfLow n r) (s.sdf n).wasLow)
  exact .ite (hpass.trans (State.trip_step _ n)) hpass

/-- The flags that a valid result raises. -/
theorem State.rb_sdfJudged (i : Nat) : (s.sdfJudged n r).rb (Reg.SDF_STATUS n) i =
    (s.rb (Reg.SDF_STATUS n) i || (decide (1 = i) && s.sdfHigh n r && !(s.sdf n).wasHigh) ||
      (decide (2 = i) && s.sdfLow n r && !(s.sdf n).wasLow) || (decide (4 = i) && (s.sdfHigh n r || s.sdfLow n r))) := by
  unfold State.sdfJudged
  dsimp only
  split
  · next ht =>
    have ht' : (s.sdfHigh n r || s.sdfLow n r) = true := by simpa using ht
    rw [State.rb_trip, State.rb_sdfPasses _ _ (by decide), State.rb_sdfPasses _ _ (by decide), ht']
    by_cases hi : 4 = i <;> simp [hi]
  · next ht =>
    have ht' : (s.sdfHigh n r || s.sdfLow n r) = false := by simpa using ht
    rw [State.rb_sdfPasses _ _ (by decide), State.rb_sdfPasses _ _ (by decide), ht']
    simp

theorem State.sdfMains_agenda : AgendaStep s (s.sdfMains n r) := by
  unfold State.sdfMains
  split
  · exact .ite (.refl s) (.foldl (fun _ _ => .send _ _ _) _ _)
  · exact .refl s

/-- The state in which a valid result has been noted in its channel, and fed to the MAINS bases. -/
def State.sdfNoted (s : State) (n : Nat) (r : Int) : State := ((s.sdfJudged n r).sdfMains n r).setSdf n
  { s.sdf n with wasHigh := s.sdfHigh n r, wasLow := s.sdfLow n r, last := some (r, s.gt.now) }

/-- The state with another agenda and other work presented. -/
def State.worked (s : State) (l : List (Nat × Act)) (w : Tab (Option Work)) (k : Nat) : State :=
  { s with agenda := l, work := w, nextTag := k }

@[simp] theorem State.worked_rd (s : State) (l : List (Nat × Act)) (w : Tab (Option Work)) (k a : Nat) : (s.worked l w k).rd a = s.rd a := rfl

theorem State.sdfNoted_eq : ∃ (x : Sdf) (l : List (Nat × Act)), x.results = (s.sdf n).results ∧
    s.sdfNoted n r = ((s.sdfJudged n r).setSdf n x).worked l (s.sdfJudged n r).work (s.sdfJudged n r).nextTag := by
  have hmains : AgendaStep (s.sdfJudged n r) ((s.sdfJudged n r).sdfMains n r) := State.sdfMains_agenda _ n r
  refine ⟨{ s.sdf n with wasHigh := s.sdfHigh n r, wasLow := s.sdfLow n r, last := some (r, s.gt.now) },
    ((s.sdfJudged n r).sdfMains n r).agenda, rfl, ?_⟩
  rw [State.sdfNoted]
  generalize (s.sdfJudged n r).sdfMains n r = u at hmains
  generalize s.sdfJudged n r = j at hmains
  rw [hmains]
  rfl

/-- A valid result is noted, and its point write may follow. -/
theorem State.sdfValid_noted : ∃ l w k, s.sdfValid n r = (s.sdfNoted n r).worked l w k := by
  unfold State.sdfValid
  extract_lets x high low s1 s2 s3 s4 s5
  have hnoted : s5 = s.sdfNoted n r := rfl
  rw [← hnoted]
  split
  · exact ⟨_, _, _, rfl⟩
  · exact ⟨_, _, _, rfl⟩

/-- Beside the flags a valid result changes what the channel holds, the agenda and the work presented. -/
theorem State.sdfValid_judged : ((s.sdfValid n r).sdf n).results = (s.sdf n).results ∧
    (∀ a, (s.sdfValid n r).rd a = (s.sdfJudged n r).rd a) ∧
    s.sdfValid n r = { s with regs := (s.sdfValid n r).regs, sdfs := (s.sdfValid n r).sdfs, agenda := (s.sdfValid n r).agenda
                              pins := (s.sdfValid n r).pins, work := (s.sdfValid n r).work, nextTag := (s.sdfValid n r).nextTag } := by
  obtain ⟨x, l0, hx, hnoted⟩ := s.sdfNoted_eq n r
  obtain ⟨l, w, k, hvalid⟩ := s.sdfValid_noted n r
  have hframe := (s.sdfJudged_step n r).frame
  rw [hvalid, hnoted]
  generalize s.sdfJudged n r = j at hframe
  refine ⟨(congrArg Sdf.results (State.setSdf_sdf_same j n x)).trans hx, fun a => ?_, ?_⟩
  · rw [State.worked_rd, State.worked_rd, State.setSdf_rd]
  · rw [hframe]
    rfl

end

/-! ### A result (R84, R85) -/

section
variable {s : State} {n : SdId} {sum : BitVec 25}

/-- The state in which a result stands in SDF_RESULT and is counted. -/
def State.sdfResult (s : State) (n : Nat) (r : Int) : State :=
  (s.wr (Reg.SDF_RESULT n) (wrapTo 32 r)).setSdf n { s.sdf n with results := min 3 ((s.sdf n).results + 1), clockLost := false }

/-- A result of an even M cubed, with the clock running. -/
theorem exec_sdResult (hen : s.rb (Reg.SDF_CTRL n.val) 0 = true) (hclk : s.modes.refclk = true) (hrun : (s.sdf n.val).clockLost = false)
    (heven : s.decim n.val ^ 3 % 2 = 0) : let r : Int := (sum.toNat : Int) - (s.decim n.val ^ 3 / 2 : Nat)
    exec (.sdResult n sum) s = if min 3 ((s.sdf n.val).results + 1) < 3 then .next (s.sdfResult n.val r)
      else .next (((s.sdfResult n.val r).wb (Reg.SDF_STATUS n.val) 0 true).sdfValid n.val r) := by
  intro r
  have hexec : exec (.sdResult n sum) s = execSdResult n sum s := rfl
  have hvalue : s.sdfValue n.val sum.toNat = (r, s) := if_pos heven
  rw [hexec, execSdResult, if_pos ⟨hen, hclk⟩, hvalue]
  simp only [hrun, Bool.false_eq_true, if_false, State.sdfResult]

theorem State.rd_sdfResult (s : State) (n : Nat) (r : Int) : (s.sdfResult n r).rd (Reg.SDF_RESULT n) = wrapTo 32 r := by
  have hlt : wrapTo 32 r < 2 ^ 64 := (wrapTo_lt 32 r).trans (by decide)
  rw [State.sdfResult, State.setSdf_rd, State.rd_wr_same, Nat.mod_eq_of_lt hlt]

/-- The state in which the result is also shown as valid. -/
def State.sdfShownValid (s : State) (n : Nat) (r : Int) : State := (s.sdfResult n r).wb (Reg.SDF_STATUS n) 0 true

theorem State.rd_sdfShownValid (s : State) (n : Nat) (r : Int) {a : Nat} (hr : Reg.SDF_RESULT n ≠ a) (hs : Reg.SDF_STATUS n ≠ a) :
    (s.sdfShownValid n r).rd a = s.rd a := by
  rw [State.sdfShownValid, State.rd_wb_ne _ _ _ hs, State.sdfResult, State.setSdf_rd, State.rd_wr_ne _ _ hr]

theorem Reg.sdf_result_ne_status (n : Nat) : Reg.SDF_RESULT n ≠ Reg.SDF_STATUS n := by unfold Reg.SDF_RESULT Reg.SDF_STATUS; omega

theorem State.rb_sdfShownValid (s : State) (n : Nat) (r : Int) (i : Nat) :
    (s.sdfShownValid n r).rb (Reg.SDF_STATUS n) i = if 0 = i then true else s.rb (Reg.SDF_STATUS n) i := by
  rw [State.sdfShownValid, State.rb_wb _ _ _ _ _ _ (by decide)]
  simp only [true_and]
  exact if_congr Iff.rfl rfl (State.rb_wr_ne s _ _ (Reg.sdf_result_ne_status n))

theorem State.sdfShownValid_eq (s : State) (n : Nat) (r : Int) : s.sdfShownValid n r =
    { s with regs := (s.sdfShownValid n r).regs, sdfs := (s.sdfShownValid n r).sdfs } := rfl

theorem State.sdfShownValid_sdf (s : State) (n : Nat) (r : Int) : (s.sdfShownValid n r).sdf n =
    { s.sdf n with results := min 3 ((s.sdf n).results + 1), clockLost := false } := by
  simp [State.sdfShownValid, State.sdfResult]

/-- A result from the third on: shown, valid, and judged against the thresholds. -/
theorem State.sdfValid_spec {s t : State} {n : Nat} {r : Int} (ht : t = (s.sdfShownValid n r).sdfValid n r) :
    let st := Reg.SDF_STATUS n
    t.rd (Reg.SDF_RESULT n) = wrapTo 32 r ∧ (t.sdf n).results = min 3 ((s.sdf n).results + 1) ∧ t.rb st 0 = true ∧
    t.rb st 1 = (s.rb st 1 || (s.sdfHigh n r && !(s.sdf n).wasHigh)) ∧
    t.rb st 2 = (s.rb st 2 || (s.sdfLow n r && !(s.sdf n).wasLow)) ∧
    t.rb st 4 = (s.rb st 4 || s.sdfHigh n r || s.sdfLow n r) ∧
    t = { s with regs := t.regs, sdfs := t.sdfs, agenda := t.agenda, pins := t.pins, work := t.work, nextTag := t.nextTag } ∧
    s.regsKept t [Reg.SDF_RESULT n, st, Reg.IRT_SRC_CFG (sdfSource n)] := by
  intro st
  have hhigh : (s.sdfShownValid n r).sdfHigh n r = s.sdfHigh n r := by
    rw [State.sdfHigh, s.rd_sdfShownValid n r (by unfold Reg.SDF_RESULT Reg.SDF_THR_HI; omega)
      (by unfold Reg.SDF_STATUS Reg.SDF_THR_HI; omega), State.sdfHigh]
  have hlow : (s.sdfShownValid n r).sdfLow n r = s.sdfLow n r := by
    rw [State.sdfLow, s.rd_sdfShownValid n r (by unfold Reg.SDF_RESULT Reg.SDF_THR_LO; omega)
      (by unfold Reg.SDF_STATUS Reg.SDF_THR_LO; omega), State.sdfLow]
  have hsdf := s.sdfShownValid_sdf n r
  have hbits := (s.sdfShownValid n r).rb_sdfJudged n r
  simp only [hhigh, hlow, hsdf, s.rb_sdfShownValid n r] at hbits
  have hstep := (s.sdfShownValid n r).sdfJudged_step n r
  have hresult : (s.sdfShownValid n r).rd (Reg.SDF_RESULT n) = wrapTo 32 r :=
    (State.rd_wb_ne _ _ _ (Reg.sdf_result_ne_status n).symm).trans (s.rd_sdfResult n r)
  have hnot : Reg.SDF_RESULT n ∉ sdfShown n := by
    simp only [sdfShown, List.mem_cons, List.not_mem_nil, or_false, Reg.SDF_RESULT, Reg.SDF_STATUS, Reg.IRT_SRC_CFG, sdfSource]
    omega
  obtain ⟨hcount, hsame, hframe⟩ := (s.sdfShownValid n r).sdfValid_judged n r
  rw [← ht] at hcount hsame hframe
  have hflag (i : Nat) : t.rb st i = ((s.sdfShownValid n r).sdfJudged n r).rb st i := State.rb_of_rd (hsame st) i
  refine ⟨(hsame _).trans ((hstep.kept _ hnot).trans hresult), hcount.trans (by rw [hsdf]), ?_, ?_, ?_, ?_, ?_, fun a ha => ?_⟩
  · rw [hflag, hbits]; simp
  · rw [hflag, hbits]; simp [st]
  · rw [hflag, hbits]; simp [st]
  · rw [hflag, hbits]; simp [st, Bool.or_assoc]
  · have hshown := s.sdfShownValid_eq n r
    generalize s.sdfShownValid n r = u at hframe hshown
    generalize t.regs = x1, t.sdfs = x2, t.agenda = x3, t.pins = x4, t.work = x5, t.nextTag = x6 at hframe
    rw [hframe, hshown]
  · obtain ⟨hr, hs, hi⟩ : a ≠ Reg.SDF_RESULT n ∧ a ≠ st ∧ a ≠ Reg.IRT_SRC_CFG (sdfSource n) := by simpa using ha
    have hnot : a ∉ sdfShown n := by simpa [sdfShown] using ⟨hs, hi⟩
    rw [hsame, hstep.kept a hnot, s.rd_sdfShownValid n r hr.symm hs.symm]

/-! ### The loss of a clock (R85) -/

/-- The loss of an input changes its bases, and no register behind those of the bases. -/
theorem State.mainsLost_fold (l : List Nat) (hl : ∀ b ∈ l, b < 16) (s : State) : let t := l.foldl (fun s b => s.mainsLost b false) s
    (∀ a, 0x12001000 ≤ a → t.rd a = s.rd a) ∧ t = { s with regs := t.regs, bases := t.bases, agenda := t.agenda } := by
  induction l generalizing s with
  | nil => exact ⟨fun _ _ => rfl, rfl⟩
  | cons b l ih =>
    have hb := hl b List.mem_cons_self
    obtain ⟨hrd, hframe⟩ := ih (fun x hx => hl x (List.mem_cons_of_mem _ hx)) (s.mainsLost b false)
    have hstep := s.mainsLost_step b false
    refine ⟨fun a ha => (hrd a ha).trans (hstep.kept a ?_), ?_⟩
    · simp only [phbShown, List.mem_cons, List.not_mem_nil, or_false, Reg.PHB_STATUS, Reg.PHB_RATE, Reg.PHB_RATE_GT]
      omega
    · have hlost := hstep.frame
      simp only [List.foldl_cons] at hframe ⊢
      generalize l.foldl (fun s b => s.mainsLost b false) (s.mainsLost b false) = t at hframe
      generalize t.regs = x, t.bases = y, t.agenda = z at hframe
      rw [hframe, hlost]

theorem State.sdfBases_lt {s : State} {n b : Nat} (h : b ∈ s.sdfBases n) : b < 16 :=
  List.mem_range.mp (List.mem_filter.mp h).1

/-- The state in which the loss of a channel's clock is shown. -/
def State.clockLost (s : State) (n : Nat) : State :=
  ((s.setSdf n { s.sdf n with clockLost := true, last := none }).sdfFlag n 3).wb (Reg.SDF_STATUS n) 0 false

theorem exec_clkLoss {s : State} {n : SdId} (hen : s.rb (Reg.SDF_CTRL n.val) 0 = true) (hpin : s.rb (Reg.SDF_CTRL n.val) 1 = false)
    (hclk : s.modes.refclk = true) (hrun : (s.sdf n.val).clockLost = false) : exec (.clkLoss n) s =
      .next ((s.sdfBases n.val).foldl (fun s b => s.mainsLost b false)
        (if s.rb (Reg.SDF_CTRL n.val) 19 then (s.clockLost n.val).trip n.val else s.clockLost n.val)) := by
  have hexec : exec (.clkLoss n) s = execClkLoss n s := rfl
  rw [hexec, execClkLoss]
  exact if_pos ⟨hen, by simpa [State.rb] using hpin, hclk, by simp [hrun]⟩

theorem State.clockLost_step (s : State) (n : Nat) :
    RegStep (sdfShown n) (s.setSdf n { s.sdf n with clockLost := true, last := none }) (s.clockLost n) :=
  (State.sdfFlag_step _ n 3).wb List.mem_cons_self

theorem State.rb_clockLost (s : State) (n i : Nat) :
    (s.clockLost n).rb (Reg.SDF_STATUS n) i = if 0 = i then false else if 3 = i then true else s.rb (Reg.SDF_STATUS n) i := by
  rw [State.clockLost, State.rb_wb _ _ _ _ _ _ (by decide), State.rb_sdfFlag _ n (by decide)]
  simp only [true_and]
  rfl

/-- The loss of a channel's clock, with the trip where TRIP_ON_LOSS asks for it. -/
theorem State.clkLoss_spec (s : State) (n : Nat) (trips : Bool) :
    let u := if trips then (s.clockLost n).trip n else s.clockLost n
    u.rb (Reg.SDF_STATUS n) 3 = true ∧ u.rb (Reg.SDF_STATUS n) 0 = false ∧ (trips = true → u.rb (Reg.SDF_STATUS n) 4 = true) ∧
    ActStep (sdfShown n) (s.setSdf n { s.sdf n with clockLost := true, last := none }) u := by
  have hlost := ActStep.of_regs (s.clockLost_step n)
  cases trips
  · simp [s.rb_clockLost n, hlost]
  · simp [State.rb_trip, s.rb_clockLost n, hlost.trans ((s.clockLost n).trip_step n)]

end

/-- Settles O14, from what a valid result and the loss of a clock leave. -/
theorem sigmaDeltaChannels : Obligations.Sigma_delta_channels := by
  unfold Obligations.Sigma_delta_channels
  refine ⟨fun s n sum hen hclk hrun heven => ?_, fun s n hen hpin hclk hrun => ?_⟩
  · intro r st high low
    have hexec : exec (.sdResult n sum) s = _ := exec_sdResult hen hclk hrun heven
    obtain ⟨hresult, hcount, hvalid, hhigh, hlow, htrip, hframe, hkept⟩ :=
      State.sdfValid_spec (s := s) (n := n.val) (r := r) rfl
    by_cases hthird : (s.sdf n.val).results < 2
    · rw [if_pos (by omega)] at hexec
      exact ⟨_, hexec, s.rd_sdfResult n.val r, congrArg Sdf.results (State.setSdf_sdf_same _ _ _),
        fun _ => ⟨rfl, .wr (fun _ _ => rfl) List.mem_cons_self⟩, fun h => absurd hthird (Nat.not_lt_of_le h)⟩
    · rw [if_neg (by omega)] at hexec
      exact ⟨_, hexec, hresult, hcount, fun h => absurd h hthird, fun _ => ⟨hvalid, hhigh, hlow, htrip, hframe, hkept⟩⟩
  · obtain ⟨hloss, hvalid, htrip, hstep⟩ := s.clkLoss_spec n.val (s.rb (Reg.SDF_CTRL n.val) 19)
    have hexec := exec_clkLoss hen hpin hclk hrun
    obtain ⟨hrd, hframe⟩ := State.mainsLost_fold (s.sdfBases n.val) (fun _ => State.sdfBases_lt)
      (if s.rb (Reg.SDF_CTRL n.val) 19 then (s.clockLost n.val).trip n.val else s.clockLost n.val)
    generalize (if s.rb (Reg.SDF_CTRL n.val) 19 then (s.clockLost n.val).trip n.val else s.clockLost n.val) = u at *
    generalize (s.sdfBases n.val).foldl (fun s b => s.mainsLost b false) u = t at *
    have hst : t.rd (Reg.SDF_STATUS n.val) = u.rd (Reg.SDF_STATUS n.val) := hrd _ (by unfold Reg.SDF_STATUS; omega)
    have hresult : u.rd (Reg.SDF_RESULT n.val) = s.rd (Reg.SDF_RESULT n.val) := hstep.kept _ (by
      simp only [sdfShown, List.mem_cons, List.not_mem_nil, or_false, Reg.SDF_RESULT, Reg.SDF_STATUS, Reg.IRT_SRC_CFG, sdfSource]
      omega)
    refine ⟨t, hexec, (State.rb_of_rd hst 3).trans hloss, (State.rb_of_rd hst 0).trans hvalid,
      fun h => (State.rb_of_rd hst 4).trans (htrip h), (hrd _ (by unfold Reg.SDF_RESULT; omega)).trans hresult, ?_, ?_, ?_⟩
    all_goals rw [hframe, hstep.frame]
    · exact congrArg Sdf.clockLost (State.setSdf_sdf_same s n.val _)
    · rfl
    · rfl

end Sys2Proof.Machine
end

section
/-!
PROOF. Phase pins (O10, O11): the actions of one phase clock resolved together, and the writes of a pin's registers.
-/
namespace Sys2Proof.Machine

/-! ### The actions of one phase clock (R73, R74, R77) -/

/-- An action to safe: drive-to-safe or a trip. -/
def PinAct.toSafe (a : PinAct) : Prop := a = .safe ∨ a = .trip

theorem PinAct.toSafe_iff (a : PinAct) : (a == .safe || a == .trip) = true ↔ a.toSafe := by simp [PinAct.toSafe]

/-- The state that drive-to-safe, else drive-to-active, else the parity of the toggles gives. -/
theorem resolveActs_safe {before : Bool} {acts : List PinAct} (h : ∃ a ∈ acts, a.toSafe) : resolveActs before acts = false := by
  refine if_pos ?_
  obtain ⟨a, ha, rfl | rfl⟩ := h <;> simp [ha]

theorem resolveActs_active {before : Bool} {acts : List PinAct} (h : ∀ a ∈ acts, ¬ a.toSafe) (hact : .active ∈ acts) :
    resolveActs before acts = true := by
  have hnone : ¬ (acts.contains .safe = true ∨ acts.contains .trip = true) := by
    rintro (hs | ht)
    · exact h .safe (by simpa using hs) (.inl rfl)
    · exact h .trip (by simpa using ht) (.inr rfl)
  exact (if_neg hnone).trans (if_pos (by simpa using hact))

theorem resolveActs_toggle {before : Bool} {acts : List PinAct} (h : ∀ a ∈ acts, a = .toggle) :
    resolveActs before acts = (before != (acts.length % 2 == 1)) := by
  have hno {a : PinAct} (ha : a ≠ .toggle) : ¬ acts.contains a = true := fun hc => ha (h a (by simpa using hc))
  have hnone : ¬ (acts.contains .safe = true ∨ acts.contains .trip = true) := not_or.mpr ⟨hno (by decide), hno (by decide)⟩
  exact (if_neg hnone).trans (if_neg (hno (by decide)))

theorem actsConflict_iff (acts : List PinAct) : actsConflict acts = true ↔
    2 ≤ acts.length ∧ ¬ (∀ a ∈ acts, a = .active) ∧ ¬ (∀ a ∈ acts, a.toSafe) := by
  simp [actsConflict, PinAct.toSafe, and_assoc]

section
variable (s : State) (p : Nat)

/-- The actions that have reached a pin in the present phase clock. -/
def State.arrived (s : State) (p : Nat) : List PinAct := ((s.pin p).acts.filter fun e => e.1 = s.clk).map (·.2)

theorem State.actsNow_eq : s.actsNow p = if ¬ s.pinTakes p then []
    else if s.mode = modeSafeHold then (s.arrived p).filter fun a => a == .safe || a == .trip else s.arrived p := rfl

/-- An action is dropped where the pin takes actions, the device is in SAFE_HOLD, and the action is not to safe. -/
theorem State.dropsHold_iff : s.dropsHold p = true ↔ s.pinTakes p = true ∧ s.mode = modeSafeHold ∧ ∃ a ∈ s.arrived p, ¬ a.toSafe := by
  simp only [State.dropsHold, State.arrived, Bool.and_eq_true, beq_iff_eq, List.any_eq_true, bne_iff_ne, List.mem_map, List.mem_filter,
    decide_eq_true_eq, PinAct.toSafe, not_or, and_assoc]
  constructor
  · rintro ⟨ht, hm, e, he, hc, hs, htr⟩
    exact ⟨ht, hm, e.2, ⟨e, he, hc, rfl⟩, hs, htr⟩
  · rintro ⟨ht, hm, _, ⟨e, he, hc, rfl⟩, hs, htr⟩
    exact ⟨ht, hm, e, he, hc, hs, htr⟩

variable {s p}

theorem State.resolvePin_idle (h : s.actsNow p = []) :
    s.resolvePin p = if s.dropsHold p then s.wb (Reg.PIN_STATUS p) 5 true else s := if_pos h

/-- A pin that takes no action now is left as it is. -/
theorem State.resolvePin_blocked (h : s.pinTakes p = false) : s.resolvePin p = s := by
  rw [State.resolvePin_idle (by simp [State.actsNow_eq, h]), if_neg (by simp [s.dropsHold_iff, h])]

/-- In SAFE_HOLD actions of which none is to safe are dropped. -/
theorem State.resolvePin_dropped (ht : s.pinTakes p = true) (hm : s.mode = modeSafeHold) (hne : s.arrived p ≠ [])
    (hsafe : ∀ a ∈ s.arrived p, ¬ a.toSafe) : s.resolvePin p = s.wb (Reg.PIN_STATUS p) 5 true := by
  obtain ⟨a, ha⟩ := List.exists_mem_of_ne_nil _ hne
  have hnow : s.actsNow p = [] := by
    rw [State.actsNow_eq, if_neg (by simp [ht]), if_pos hm, List.filter_eq_nil_iff]
    exact fun b hb => (PinAct.toSafe_iff b).not.mpr (hsafe b hb)
  rw [State.resolvePin_idle hnow, if_pos ((s.dropsHold_iff p).mpr ⟨ht, hm, a, ha, hsafe a ha⟩)]

/-- The pin as the resolution of a phase clock leaves it. -/
def State.resolvedNow (s : State) (p : Nat) (acts : List PinAct) : Pin :=
  { s.pin p with resolvedAt := some s.clk, before := s.rb (Reg.PIN_STATUS p) 1, clashed := actsConflict acts }

/-- The state in which a conflict and a trip among the actions have been noted. -/
def State.clashNoted (s : State) (p : Nat) (acts : List PinAct) : State :=
  let s1 := s.setPin p (s.resolvedNow p acts)
  let s2 := if actsConflict acts then (s1.wb (Reg.PIN_STATUS p) 2 true).pinBankEvent (p / 32) 0 else s1
  if acts.contains .trip then s2.wb (Reg.PIN_STATUS p) 6 true else s2

/-- The state in which the actions have given the pin its state. -/
def State.pinResolved (s : State) (p : Nat) (acts : List PinAct) : State :=
  (s.clashNoted p acts).wb (Reg.PIN_STATUS p) 1 (resolveActs (s.rb (Reg.PIN_STATUS p) 1) acts)

/-- Actions that take part are resolved, and the ball follows. -/
theorem State.resolvePin_resolved (ht : s.pinTakes p = true) (hm : s.mode = modeSafeHold → ∀ a ∈ s.arrived p, a.toSafe)
    (hne : s.arrived p ≠ []) (hnew : (s.pin p).resolvedAt ≠ some s.clk) :
    s.resolvePin p = (s.pinResolved p (s.arrived p)).ballFollows p := by
  have hnow : s.actsNow p = s.arrived p := by
    rw [State.actsNow_eq, if_neg (by simp [ht])]
    split
    · next h => exact List.filter_eq_self.mpr fun a ha => (PinAct.toSafe_iff a).mpr (hm h a ha)
    · rfl
  have hdrop : s.dropsHold p = false := by
    rw [Bool.eq_false_iff, Ne, s.dropsHold_iff]
    rintro ⟨-, h, a, ha, hno⟩
    exact hno (hm h a ha)
  unfold State.resolvePin
  simp only [hnow, hdrop, if_neg hne, hnew, Bool.false_eq_true, if_false, decide_false, Bool.false_and, Bool.not_false, Bool.and_true]
  rfl

variable (s p) (acts : List PinAct)

/-- The registers that a pin's events show themselves in. -/
def pinShown (p : Nat) : List Nat := [Reg.PIN_STATUS p, Reg.IRT_SRC_CFG (bankSource (p / 32))]

theorem pin_status_mem : Reg.PIN_STATUS p ∈ pinShown p := List.mem_cons_self
theorem pin_source_mem : Reg.IRT_SRC_CFG (bankSource (p / 32)) ∈ pinShown p := List.mem_cons_of_mem _ List.mem_cons_self

variable {p} in
theorem Reg.pin_status_not_source (hp : p < 512) : Reg.PIN_STATUS p ∉ [Reg.IRT_SRC_CFG (bankSource (p / 32))] := by
  simp only [Reg.PIN_STATUS, Reg.IRT_SRC_CFG, List.mem_singleton]
  omega

/-- A conflict: CONFLICT is set and the bank's event raised. -/
theorem State.clashNoted_step : RegStep (pinShown p) (s.setPin p (s.resolvedNow p acts)) (s.clashNoted p acts) := by
  have hs := pin_status_mem p
  have hclash := RegStep.ite (c := actsConflict acts = true)
    (((RegStep.refl (s.setPin p (s.resolvedNow p acts))).wb (i := 2) (v := true) hs).pinBankEvent (k := p / 32) (i := 0) (pin_source_mem p))
    (.refl _)
  exact .ite (hclash.wb hs) hclash

theorem State.pinResolved_step : ActStep (pinShown p) s (s.pinResolved p acts) :=
  (ActStep.of_pins (.setPin s p _)).trans (.of_regs ((s.clashNoted_step p acts).wb (pin_status_mem p)))

variable {p}

theorem State.rb_clashNoted (hp : p < 512) : (s.clashNoted p acts).rb (Reg.PIN_STATUS p) 2 =
    (s.rb (Reg.PIN_STATUS p) 2 || actsConflict acts) := by
  have hbank : ∀ u : State, (u.pinBankEvent (p / 32) 0).rb (Reg.PIN_STATUS p) 2 = u.rb (Reg.PIN_STATUS p) 2 := fun u =>
    ((RegStep.refl u).pinBankEvent List.mem_cons_self).rb (Reg.pin_status_not_source hp) 2
  have hpin : (s.setPin p (s.resolvedNow p acts)).rb (Reg.PIN_STATUS p) 2 = s.rb (Reg.PIN_STATUS p) 2 := rfl
  unfold State.clashNoted
  dsimp only
  split <;> cases hc : actsConflict acts <;> simp [State.rb_wb, hbank, hpin]

theorem State.rb_pinResolved (hp : p < 512) : (s.pinResolved p acts).rb (Reg.PIN_STATUS p) 1 = resolveActs (s.rb (Reg.PIN_STATUS p) 1) acts ∧
    (s.pinResolved p acts).rb (Reg.PIN_STATUS p) 2 = (s.rb (Reg.PIN_STATUS p) 2 || actsConflict acts) := by
  rw [State.pinResolved, State.rb_wb _ _ _ _ _ _ (by decide), State.rb_wb _ _ _ _ _ _ (by decide)]
  exact ⟨if_pos ⟨rfl, rfl⟩, (if_neg (by simp)).trans (s.rb_clashNoted acts hp)⟩

end

/-- Settles O10, by the three ways in which the actions of a phase clock meet a pin. -/
theorem pinActionsAreResolved : Obligations.Pin_actions_are_resolved := by
  unfold Obligations.Pin_actions_are_resolved
  intro s p acts hacts hne hnew safe st
  have harr : s.arrived p.val = acts := hacts
  have hexec : exec (.pinAction p) s = .next (s.resolvePin p.val) := rfl
  refine ⟨fun ht => ?_, fun ht hm hsafe => ?_, fun ht hm => ?_⟩
  · rw [hexec, State.resolvePin_blocked ht]
  · rw [hexec, State.resolvePin_dropped ht hm (by rwa [harr]) (by rwa [harr])]
  · rw [State.resolvePin_resolved ht (by rwa [harr]) (by rwa [harr]) hnew, harr] at hexec
    obtain ⟨hstate, hclash⟩ := s.rb_pinResolved acts p.isLt
    have hstep : ActStep (pinShown p.val) s ((s.pinResolved p.val acts).ballFollows p.val) :=
      (s.pinResolved_step p.val acts).trans (.of_regs (RegStep.refl _).ballFollows)
    have hclk : (s.pinResolved p.val acts).clk = s.clk := by rw [(s.pinResolved_step p.val acts).frame]
    refine ⟨_, hexec, fun h => hstate.trans (resolveActs_safe h), fun h ha => hstate.trans (resolveActs_active h ha),
      fun h => hstate.trans (resolveActs_toggle h), ?_, ?_, hstep.frame, hstep.kept⟩
    · show (s.pinResolved p.val acts).rb st 2 = true ↔ _
      rw [hclash, Bool.or_eq_true, actsConflict_iff]
      rfl
    · rw [← hclk]
      exact (s.pinResolved p.val acts).mem_ballFollows p 0

/-! ### Writes of another enclave (R75, R89) -/

/-- A write that is denied: EID_REJECT is set, an entry is presented, and the bank's event raised. -/
theorem State.denyPin_spec (s : State) {p : Nat} (hp : p < 512) (addr : Nat) : let t := s.denyPin p addr
    t.rb (Reg.PIN_STATUS p) 3 = true ∧
    (s.sheet.intake.length < 64 → ∃ e, t.sheet.intake = s.sheet.intake ++ [e] ∧ e.cls = 0x21 ∧ e.unit = unitPin p ∧
      e.addr = BitVec.ofNat 64 addr) ∧
    t = { s with regs := t.regs, agenda := t.agenda, sheet := t.sheet } ∧ s.regsKept t (pinShown p) := by
  intro t
  have hstep : RegStep [Reg.IRT_SRC_CFG (bankSource (p / 32))] ((s.wb (Reg.PIN_STATUS p) 3 true).log .enclaveDeny (unitPin p) addr) t :=
    (RegStep.refl _).pinBankEvent List.mem_cons_self
  have hlog := (s.wb (Reg.PIN_STATUS p) 3 true).log_eq .enclaveDeny (unitPin p) addr 0 false
  have hentry := (s.wb (Reg.PIN_STATUS p) 3 true).log_intake .enclaveDeny (unitPin p) addr 0 false
  generalize (s.wb (Reg.PIN_STATUS p) 3 true).log .enclaveDeny (unitPin p) addr = u at hstep hlog hentry
  have hregs : u.regs = (s.wb (Reg.PIN_STATUS p) 3 true).regs := by rw [hlog]
  have hsheet : t.sheet = u.sheet := by rw [hstep.frame]
  refine ⟨?_, fun hroom => ?_, ?_, fun a ha => ?_⟩
  · rw [hstep.rb (Reg.pin_status_not_source hp), State.rb_congr hregs]
    simp [State.rb_wb]
  · rw [hsheet, hentry hroom]
    exact ⟨_, rfl, rfl, rfl, rfl⟩
  · have hframe := hstep.frame
    generalize t = v at hframe
    rw [hframe, hlog]
    rfl
  · obtain ⟨hs, hi⟩ : a ≠ Reg.PIN_STATUS p ∧ a ≠ Reg.IRT_SRC_CFG (bankSource (p / 32)) := by simpa [pinShown] using ha
    rw [hstep.kept a (by simpa using hi), State.rd_congr hregs, State.rd_wb_ne _ _ _ hs.symm]

/-- EID_REJECT set for a write of PIN_OWNER below PL3. -/
theorem State.rejectOwner_spec (s : State) {p : Nat} (hp : p < 512) : let t := (s.wb (Reg.PIN_STATUS p) 3 true).pinBankEvent (p / 32) 1
    t.rb (Reg.PIN_STATUS p) 3 = true ∧ RegStep (pinShown p) s t := by
  refine ⟨?_, ((RegStep.refl s).wb (pin_status_mem p)).pinBankEvent (pin_source_mem p)⟩
  rw [((RegStep.refl (s.wb (Reg.PIN_STATUS p) 3 true)).pinBankEvent (k := p / 32) (i := 1) List.mem_cons_self).rb
    (Reg.pin_status_not_source hp)]
  simp [State.rb_wb]

/-! ### PIN_CFG by the owner's enclave (R72, R79) -/

section
variable {s : State} {p : PinId} {who : Requester} {w : Nat}

/-- A pin that becomes OUTPUT enters SAFE, without the actions it was given before. -/
def State.cfgStored (s : State) (p w : Nat) : State :=
  let s1 := s.storeReg (Reg.PIN_CFG p) w
  if s.pinMode p ≠ 1 ∧ s1.pinMode p = 1 then (s1.setPin p { s1.pin p with acts := [] }).wb (Reg.PIN_STATUS p) 1 false else s1

theorem State.writePinCfg_owner (h : who.eid.toNat = s.rf (Reg.PIN_OWNER p.val) 5 0) :
    s.writePinCfg p.val who w = (s.cfgStored p.val w).driveChanged p.val (s.pinDrive p.val) := if_neg (not_not.mpr h)

/-- The registers that a write of PIN_CFG may change. -/
theorem State.cfgStored_step (hu : s.unlockedAt (Reg.PIN_CFG p.val) = true) :
    ActStep [Reg.PIN_CFG p.val, Reg.PIN_STATUS p.val] s (s.cfgStored p.val w) := by
  obtain ⟨hkept, hframe⟩ := s.storeReg_unlocked w hu
  have hstore : RegStep [Reg.PIN_CFG p.val, Reg.PIN_STATUS p.val] s (s.storeReg (Reg.PIN_CFG p.val) w) := by
    refine ⟨?_, fun a ha => hkept a fun h => ha (List.mem_cons.mpr (.inl (List.mem_singleton.mp h)))⟩
    generalize s.storeReg (Reg.PIN_CFG p.val) w = u at hframe
    rw [hframe]
  refine .ite ?_ (.of_regs hstore)
  exact (ActStep.of_regs hstore).trans ((ActStep.of_pins (.setPin _ _ _)).trans (.of_regs ((RegStep.refl _).wb (by simp))))

/-- The fields stored, and the state of the pin. -/
theorem State.cfgStored_spec (hu : s.unlockedAt (Reg.PIN_CFG p.val) = true) : let u := s.cfgStored p.val w
    u.rd (Reg.PIN_CFG p.val) = (s.storeReg (Reg.PIN_CFG p.val) w).rd (Reg.PIN_CFG p.val) ∧
    (s.pinMode p.val ≠ 1 → u.pinMode p.val = 1 → u.rb (Reg.PIN_STATUS p.val) 1 = false) ∧
    (¬ (s.pinMode p.val ≠ 1 ∧ u.pinMode p.val = 1) → u.rd (Reg.PIN_STATUS p.val) = s.rd (Reg.PIN_STATUS p.val)) := by
  intro u
  have hne : Reg.PIN_STATUS p.val ≠ Reg.PIN_CFG p.val := by unfold Reg.PIN_STATUS Reg.PIN_CFG; omega
  have hcfg : u.rd (Reg.PIN_CFG p.val) = (s.storeReg (Reg.PIN_CFG p.val) w).rd (Reg.PIN_CFG p.val) := by
    show (State.cfgStored s p.val w).rd _ = _
    unfold State.cfgStored
    dsimp only
    split
    · rw [State.rd_wb_ne _ _ _ hne, State.setPin_rd]
    · rfl
  have hmode : u.pinMode p.val = (s.storeReg (Reg.PIN_CFG p.val) w).pinMode p.val := by
    rw [State.pinMode, State.rf_congr hcfg, State.pinMode]
  refine ⟨hcfg, fun hwas his => ?_, fun hnot => ?_⟩
  · have hu' : u = _ := if_pos ⟨hwas, hmode ▸ his⟩
    rw [hu', State.rb_wb _ _ _ _ _ _ (by decide), if_pos ⟨rfl, rfl⟩]
  · have hu' : u = _ := if_neg (hmode ▸ hnot)
    rw [hu']
    exact (s.storeReg_unlocked w hu).1 _ (by simpa using hne)

/-- A change of what the pin drives is put on the agenda, and nothing else follows. -/
theorem State.driveChanged_agenda (u : State) (p : Nat) (old : Drive) : AgendaStep u (u.driveChanged p old) :=
  .ite (.refl u) (.after _ _ _)

theorem State.driveChanged_ball (u : State) (p : PinId) {old : Drive} (h : u.pinDrive p.val ≠ old) :
    (u.clk + 9, Act.ball p (u.pinDrive p.val)) ∈ (u.driveChanged p.val old).agenda := by
  rw [State.driveChanged, if_neg h]
  exact u.mem_ballFollows p 1

end

/-- What a pin drives does not rest on the agenda. -/
theorem AgendaStep.pinDrive {s t : State} (h : AgendaStep s t) (p : Nat) : t.pinDrive p = s.pinDrive p := by
  unfold AgendaStep at h
  generalize t.agenda = l at h
  rw [h]
  rfl

/-- A write of PIN_CFG, unlocked and by the owner's enclave. -/
theorem State.writePinCfg_spec {s : State} {p : PinId} {who : Requester} (w : Nat) (h : who.eid.toNat = s.rf (Reg.PIN_OWNER p.val) 5 0)
    (hu : s.unlockedAt (Reg.PIN_CFG p.val) = true) : let t := s.writePinCfg p.val who w
    t.rd (Reg.PIN_CFG p.val) = (s.storeReg (Reg.PIN_CFG p.val) w).rd (Reg.PIN_CFG p.val) ∧
    (s.pinMode p.val ≠ 1 → t.pinMode p.val = 1 → t.rb (Reg.PIN_STATUS p.val) 1 = false) ∧
    (¬ (s.pinMode p.val ≠ 1 ∧ t.pinMode p.val = 1) → t.rd (Reg.PIN_STATUS p.val) = s.rd (Reg.PIN_STATUS p.val)) ∧
    (t.pinDrive p.val ≠ s.pinDrive p.val → (s.clk + 9, Act.ball p (t.pinDrive p.val)) ∈ t.agenda) ∧
    ActStep [Reg.PIN_CFG p.val, Reg.PIN_STATUS p.val] s t := by
  intro t
  obtain ⟨hcfg, hsafe, hstays⟩ := State.cfgStored_spec (w := w) hu
  have hstep := State.cfgStored_step (w := w) hu
  have ht : t = (s.cfgStored p.val w).driveChanged p.val (s.pinDrive p.val) := State.writePinCfg_owner h
  have hball := (s.cfgStored p.val w).driveChanged_ball p (old := s.pinDrive p.val)
  have hagenda : AgendaStep (s.cfgStored p.val w) t := ht ▸ State.driveChanged_agenda _ _ _
  have hclk : (s.cfgStored p.val w).clk = s.clk := by rw [hstep.frame]
  rw [← ht] at hball
  generalize s.cfgStored p.val w = u at *
  have hrd (a : Nat) : t.rd a = u.rd a := State.rd_congr hagenda.regs a
  have hmode : t.pinMode p.val = u.pinMode p.val := by rw [State.pinMode, State.rf_congr (hrd _), State.pinMode]
  rw [hmode, hrd, hrd, State.rb_of_rd (hrd _), hagenda.pinDrive, ← hclk]
  exact ⟨hcfg, hsafe, hstays, hball, hstep.trans (.of_regs (.of_agenda hagenda))⟩

/-! ### PIN_ACT by the owner's enclave (R73, R76) -/

/-- An action of software that a pin takes, outside SAFE_HOLD and not paired, waits for the next clock. -/
theorem State.pinSubmit_arrives {s : State} {p eid tag late : Nat} {phase : Bool} (a : PinAct) (hm : s.mode ≠ modeSafeHold)
    (he : eid = s.rf (Reg.PIN_OWNER p) 5 0) (ht : s.pinTakes p = true) (hpair : s.rb (Reg.PIN_CFG p) 12 = false) :
    s.pinSubmit p a eid phase tag late = s.pinArrive p a late := by
  unfold State.pinSubmit
  rw [if_neg (by simp [hm]), if_neg (not_not.mpr he), if_neg (by simp [ht])]
  exact ite_eq_left_iff.mpr fun _ => if_pos hpair

theorem State.pinArrive_spec (s : State) (p : PinId) (a : PinAct) (late : Nat) : let t := s.pinArrive p.val a late
    (s.clk + late, a) ∈ (t.pin p.val).acts ∧ (s.clk + late, Act.cmd (.pinAction p)) ∈ t.agenda ∧
    t = { s with agenda := t.agenda, pins := t.pins } := by
  refine ⟨?_, ?_, rfl⟩
  · simp [State.pinArrive]
  · rw [State.pinArrive, finOfNat_val]
    exact State.mem_agenda_send _ late _

/-- Settles O11, from a denied write, a write of PIN_CFG by the owner's enclave, and an action that a pin takes. -/
theorem pinRegisterWrites : Obligations.Pin_register_writes := by
  unfold Obligations.Pin_register_writes
  refine ⟨fun s p who v hne c hc => ?_, fun s p who w c he hu hc => ?_, fun s p who v he => ⟨fun h0 => ?_, fun a ha hmode hclock hm hpair => ?_⟩,
    fun s p who v => ⟨fun h3 => ?_, fun h3 => ?_⟩⟩
  · have hexec : exec c.1 s = .next (s.denyPin p.val c.2) := by
      rcases hc with rfl | rfl | rfl
      · exact congrArg Host.Outcome.next (if_pos hne)
      · exact congrArg Host.Outcome.next (if_pos hne)
      · exact congrArg Host.Outcome.next (if_pos hne)
    exact ⟨_, hexec, s.denyPin_spec p.isLt c.2⟩
  · have hexec : exec c s = .next (s.writePinCfg p.val who w) := by
      rcases hc with ⟨v, rfl, rfl⟩ | ⟨rfl, rfl⟩ <;> rfl
    obtain ⟨hcfg, hsafe, hstays, hball, hstep⟩ := State.writePinCfg_spec w he hu
    exact ⟨_, hexec, hcfg, hsafe, hstays, hball, hstep.frame, hstep.kept⟩
  · have hexec : exec (.pinAct p who v) s = .next (s.writePinAct p.val who v.toNat) := rfl
    rw [hexec, State.writePinAct, if_neg (not_not.mpr he), h0]
    rfl
  · have hexec : exec (.pinAct p who v) s = .next (s.writePinAct p.val who v.toNat) := rfl
    have ht : s.pinTakes p.val = true := by simp [State.pinTakes, hmode, hclock]
    rw [State.writePinAct, if_neg (not_not.mpr he), ha] at hexec
    simp only [State.pinSubmit_arrives a hm he ht hpair] at hexec
    exact ⟨_, hexec, s.pinArrive_spec p a 1⟩
  · exact congrArg Host.Outcome.next (if_pos h3)
  · obtain ⟨hset, hstep⟩ := s.rejectOwner_spec p.isLt
    exact ⟨_, congrArg Host.Outcome.next (if_neg h3), hset, hstep.frame, hstep.kept⟩

end Sys2Proof.Machine
end

section
/-!
PROOF. Pin banks (O12): what the hold of a bank and its end leave of the bank's pins, and from these the supply's failure, its return
and a change of VSEL.
-/
namespace Sys2Proof.Machine

/-- `t` is `s` but for the pins, the banks, the agenda and the registers listed. -/
structure BankStep (rs : List Nat) (s t : State) : Prop where
  frame : t = { s with regs := t.regs, pins := t.pins, banks := t.banks, agenda := t.agenda }
  kept : s.regsKept t rs

section
variable {rs : List Nat} {s t u : State}

theorem BankStep.of_act (h : ActStep rs s t) : BankStep rs s t := by
  refine ⟨?_, h.kept⟩
  have hframe := h.frame
  generalize t.regs = r, t.agenda = l, t.pins = x at hframe
  rw [hframe]

theorem BankStep.trans (h : BankStep rs s t) (k : BankStep rs t u) : BankStep rs s u := by
  refine ⟨?_, h.kept.trans k.kept⟩
  have hk := k.frame
  generalize u.regs = r, u.pins = x, u.banks = y, u.agenda = l at hk ⊢
  rw [hk, h.frame]

theorem BankStep.weaken {qs : List Nat} (h : BankStep rs s t) (hsub : ∀ a ∈ rs, a ∈ qs) : BankStep qs s t :=
  ⟨h.frame, fun a ha => h.kept a fun hr => ha (hsub a hr)⟩

theorem BankStep.setBank {k : Nat} {x : Bank} (h : BankStep rs s t) : BankStep rs s (t.setBank k x) :=
  ⟨congrArg (·.setBank k x) h.frame, h.kept⟩

theorem BankStep.wb {a i : Nat} {v : Bool} (h : BankStep rs s t) (ha : a ∈ rs) : BankStep rs s (t.wb a i v) :=
  h.trans (.of_act (.of_regs ((RegStep.refl t).wb ha)))

theorem BankStep.ite {c : Prop} [Decidable c] (h : BankStep rs s t) (k : BankStep rs s u) : BankStep rs s (if c then t else u) := by
  split <;> assumption

end

/-! ### What a held pin is released with (R78, R595) -/

/-- The pull of a pin of a held bank. -/
def State.heldPull (s : State) (p : Nat) : BitVec 2 := if s.quadOff (p / 128) ∨ s.pinsInReset then 1 else s.pinPull p

theorem State.pinDrive_held {s : State} {p : Nat} (h : s.bankHeld (p / 32) = true) : s.pinDrive p = .released (s.heldPull p) := by
  unfold State.pinDrive State.heldPull
  dsimp only
  split
  · rfl
  · rw [if_neg (by simp [h])]

theorem State.pullNow_held {s : State} {p : Nat} (h : s.bankHeld (p / 32) = true) : s.pullNow p = s.heldPull p := by
  rw [State.pullNow, State.pinDrive_held h]

theorem State.heldPull_congr {s t : State} {p : Nat} (hm : t.modes = s.modes) (hmode : t.rd Reg.PVT_MODE = s.rd Reg.PVT_MODE)
    (hcfg : t.rd (Reg.PIN_CFG p) = s.rd (Reg.PIN_CFG p)) : t.heldPull p = s.heldPull p := by
  simp only [State.heldPull, State.quadOff, State.pinsInReset, State.mode, State.pinPull, hm, State.rf_congr hmode, State.rf_congr hcfg]
  rfl

theorem PinStep.heldPull {s t : State} (h : PinStep s t) (p : Nat) : t.heldPull p = s.heldPull p := by
  rw [h]
  rfl

theorem PinStep.bankHeld {s t : State} (h : PinStep s t) (k : Nat) : t.bankHeld k = s.bankHeld k := by
  rw [h]
  rfl

theorem PinStep.bank {s t : State} (h : PinStep s t) (k : Nat) : t.bank k = s.bank k := by
  rw [h]
  rfl

theorem State.releasePad_pin (s : State) (p q : Nat) (pull : BitVec 2) :
    (s.releasePad p pull).pin q = if p = q then { s.pin p with ball := .released pull } else s.pin q := by
  have hset : (s.releasePad p pull).pin q = (s.setPin p { s.pin p with ball := .released pull }).pin q := rfl
  rw [hset]
  split
  · next h => rw [← h, State.setPin_pin_same]
  · next h => exact State.setPin_pin_ne _ _ _ _ h

/-- Pins of held banks released one after the other. -/
theorem State.releasePads_spec (s : State) (l : List Nat) (hl : ∀ p ∈ l, s.bankHeld (p / 32) = true) :
    let t := l.foldl (fun s p => s.releasePad p (s.pullNow p)) s
    PinStep s t ∧ (∀ p ∈ l, (t.pin p).ball = .released (s.heldPull p)) ∧ (∀ p, p ∉ l → t.pin p = s.pin p) := by
  induction l using List.reverseRecOn with
  | nil => exact ⟨rfl, by simp, fun _ _ => rfl⟩
  | append_singleton l m ih =>
    obtain ⟨hstep, hballs, hothers⟩ := ih fun p hp => hl p (List.mem_append_left _ hp)
    simp only [List.foldl_append, List.foldl_cons, List.foldl_nil]
    generalize l.foldl (fun s p => s.releasePad p (s.pullNow p)) s = u at hstep hballs hothers
    have hpull : u.pullNow m = s.heldPull m := by
      rw [State.pullNow_held (by rw [hstep.bankHeld]; exact hl m (by simp)), hstep.heldPull]
    refine ⟨hstep.trans rfl, fun p hp => ?_, fun p hp => ?_⟩
    · rw [State.releasePad_pin, hpull]
      split
      · next h => rw [h]
      · next h => exact hballs p (by simpa [Ne.symm h] using hp)
    · obtain ⟨hpl, hpm⟩ : p ∉ l ∧ p ≠ m := by simpa using hp
      rw [State.releasePad_pin, if_neg (Ne.symm hpm), hothers p hpl]

/-! ### The hold of a bank (R78, R595) -/

theorem mem_bankPins {k p : Nat} : p ∈ bankPins k ↔ p / 32 = k := by
  simp only [bankPins, List.mem_map, List.mem_range]
  constructor
  · rintro ⟨i, hi, rfl⟩
    omega
  · rintro rfl
    exact ⟨p % 32, Nat.mod_lt _ (by decide), by omega⟩

section
variable (s : State) (k : Nat)

/-- The state in which SUPPLY_OK is clear, and 100 µs count afresh. -/
def State.supplyLost (s : State) (k : Nat) : State := (s.wb (Reg.PIN_BANK_STATUS k) 0 false).setBank k { s.bank k with since := s.clk }

@[simp] theorem State.setBank_rb (x : Bank) (a i : Nat) : (s.setBank k x).rb a i = s.rb a i := rfl

theorem State.rb_supplyLost : (s.supplyLost k).rb (Reg.PIN_BANK_STATUS k) 0 = false := by
  rw [State.supplyLost, State.setBank_rb, State.rb_wb _ _ _ _ _ _ (by decide), if_pos ⟨rfl, rfl⟩]

variable {k} in
theorem State.rd_supplyLost_ne {a : Nat} (h : Reg.PIN_BANK_STATUS k ≠ a) : (s.supplyLost k).rd a = s.rd a := by
  rw [State.supplyLost, State.setBank_rd, State.rd_wb_ne _ _ _ h]

/-- Every pin of a bank whose SUPPLY_OK clears is released, and no other. -/
theorem State.holdBank_pins : PinStep (s.supplyLost k) (s.holdBank k) ∧
    (∀ i < 32, ((s.holdBank k).pin (k * 32 + i)).ball = .released (s.heldPull (k * 32 + i))) ∧
    (∀ p, p / 32 ≠ k → (s.holdBank k).pin p = s.pin p) := by
  have hheld : ∀ p ∈ bankPins k, (s.supplyLost k).bankHeld (p / 32) = true := fun p hp => by
    rw [mem_bankPins.mp hp, State.bankHeld, s.rb_supplyLost k]
    simp
  obtain ⟨hstep, hballs, hothers⟩ := (s.supplyLost k).releasePads_spec (bankPins k) hheld
  refine ⟨hstep, fun i hi => (hballs _ (mem_bankPins.mpr (by omega))).trans ?_, fun p hp => (hothers p (mem_bankPins.not.mpr hp)).trans ?_⟩
  · rw [State.heldPull_congr (t := s.supplyLost k) (s := s) rfl]
    · exact s.rd_supplyLost_ne (by unfold Reg.PIN_BANK_STATUS Reg.PVT_MODE; omega)
    · exact s.rd_supplyLost_ne (by unfold Reg.PIN_BANK_STATUS Reg.PIN_CFG; omega)
  · rw [State.supplyLost, State.setBank_pin_at, State.wb_pin_at]

theorem State.holdBank_step : BankStep [Reg.PIN_BANK_STATUS k] s (s.holdBank k) := by
  have hlost : BankStep [Reg.PIN_BANK_STATUS k] s (s.supplyLost k) :=
    ((BankStep.of_act (.refl s)).wb List.mem_cons_self).setBank
  exact hlost.trans (.of_act (.of_pins (s.holdBank_pins k).1))

theorem State.holdBank_regs : (s.holdBank k).regs = (s.supplyLost k).regs := (s.holdBank_pins k).1.regs

theorem State.holdBank_ok : (s.holdBank k).rb (Reg.PIN_BANK_STATUS k) 0 = false := by
  rw [State.rb_congr (s.holdBank_regs k), s.rb_supplyLost k]

theorem State.holdBank_since : ((s.holdBank k).bank k).since = s.clk := by
  rw [(s.holdBank_pins k).1.bank, State.supplyLost, State.setBank_bank_same]

end

/-! ### A bank that is held no longer (R78) -/

theorem AgendaStep.pinMode {s t : State} (h : AgendaStep s t) (p : Nat) : t.pinMode p = s.pinMode p := by
  rw [h]
  rfl

theorem AgendaStep.bank {s t : State} (h : AgendaStep s t) (k : Nat) : t.bank k = s.bank k := by
  rw [h]
  rfl

/-- Pins in OUTPUT mode that drive their states again one after the other. -/
theorem State.ballsFollow_spec (s : State) (l : List Nat) (late : Nat) :
    let t := l.foldl (fun s p => if s.pinMode p = 1 then s.ballFollows p late else s) s
    AgendaStep s t ∧ ∀ p : PinId, p.val ∈ l → s.pinMode p.val = 1 → (s.clk + (8 + late), Act.ball p (s.pinDrive p.val)) ∈ t.agenda := by
  induction l using List.reverseRecOn with
  | nil => exact ⟨rfl, by simp⟩
  | append_singleton l m ih =>
    obtain ⟨hstep, hballs⟩ := ih
    simp only [List.foldl_append, List.foldl_cons, List.foldl_nil]
    generalize l.foldl (fun s p => if s.pinMode p = 1 then s.ballFollows p late else s) s = u at hstep hballs
    refine ⟨hstep.trans (.ite (.after _ _ _) (.refl _)), fun p hp hmode => ?_⟩
    rcases List.mem_append.mp hp with hp | hp
    · have hmem := hballs p hp hmode
      split
      · exact mem_agendaInsert_of_mem hmem
      · exact hmem
    · obtain rfl : p.val = m := by simpa using hp
      have hmem := u.mem_ballFollows p late
      rw [if_pos (by rw [hstep.pinMode]; exact hmode)]
      rw [hstep.pinDrive, show u.clk = s.clk by rw [hstep]] at hmem
      exact hmem

theorem State.freeBank_spec (s : State) (k late : Nat) : AgendaStep s (s.freeBank k late) ∧ ∀ p : PinId, p.val / 32 = k →
    s.pinMode p.val = 1 → (s.clk + (8 + late), Act.ball p ((s.freeBank k late).pinDrive p.val)) ∈ (s.freeBank k late).agenda := by
  obtain ⟨hstep, hballs⟩ := s.ballsFollow_spec (bankPins k) late
  exact ⟨hstep, fun p hp hmode => by
    rw [AgendaStep.pinDrive (t := s.freeBank k late) hstep]
    exact hballs p (mem_bankPins.mpr hp) hmode⟩

/-! ### The commands of a bank -/

section
variable (u : State) (k : Nat)

/-- The state in which the supply is known to lie outside its range. -/
def State.supplyOut (u : State) (k : Nat) : State :=
  (u.setBank k { u.bank k with outside := true }).wb (Reg.PIN_BANK_STATUS k) 1 true

theorem State.supplyOut_step : BankStep [Reg.PIN_BANK_STATUS k] u (u.supplyOut k) :=
  ((BankStep.of_act (.refl u)).setBank).wb List.mem_cons_self

theorem State.rb_supplyOut (i : Nat) :
    (u.supplyOut k).rb (Reg.PIN_BANK_STATUS k) i = if 1 = i then true else u.rb (Reg.PIN_BANK_STATUS k) i := by
  rw [State.supplyOut, State.rb_wb _ _ _ _ _ _ (by decide), State.setBank_rb]
  simp only [true_and]

theorem State.supplyOut_pin (p : Nat) : (u.supplyOut k).pin p = u.pin p := by
  rw [State.supplyOut, State.wb_pin_at, State.setBank_pin_at]

theorem State.supplyOut_since : ((u.supplyOut k).bank k).since = (u.bank k).since := by
  rw [State.supplyOut, State.wb_bank_at, State.setBank_bank_same]

end

theorem RegStep.pin {rs : List Nat} {s t : State} (h : RegStep rs s t) (p : Nat) : t.pin p = s.pin p := by
  rw [h.frame]
  rfl

theorem Reg.bank_status_not_source (k : Nat) : Reg.PIN_BANK_STATUS k ∉ [Reg.IRT_SRC_CFG (bankSource k)] := by
  simp only [List.mem_singleton, Reg.PIN_BANK_STATUS, Reg.IRT_SRC_CFG, bankSource]
  omega

section
variable (s : State) (k : BankId)

/-- The state in which the failure of a bank's supply has been noted. -/
def State.supplyFailed (s : State) (k : Nat) : State := (s.holdBank k).supplyOut k

theorem State.supplyFailed_step : BankStep [Reg.PIN_BANK_STATUS k.val] s (s.supplyFailed k.val) :=
  (s.holdBank_step k.val).trans (State.supplyOut_step _ k.val)

theorem State.supplyFailed_pin (p : Nat) : (s.supplyFailed k.val).pin p = (s.holdBank k.val).pin p := State.supplyOut_pin _ k.val p

theorem State.rb_supplyFailed : (s.supplyFailed k.val).rb (Reg.PIN_BANK_STATUS k.val) 0 = false ∧
    (s.supplyFailed k.val).rb (Reg.PIN_BANK_STATUS k.val) 1 = true := by
  rw [State.supplyFailed, State.rb_supplyOut, State.rb_supplyOut]
  exact ⟨s.holdBank_ok k.val, rfl⟩

/-- The supply leaves its range: the bank is held, and its event may follow. -/
theorem exec_supplyErr : ∃ t, exec (.supplyErr k) s = .next t ∧
    RegStep [Reg.IRT_SRC_CFG (bankSource k.val)] (s.supplyFailed k.val) t :=
  ⟨if s.rb (Reg.PIN_BANK_STATUS k.val) 0 then (s.supplyFailed k.val).pinBankEvent k.val 2 else s.supplyFailed k.val, rfl,
    .ite ((RegStep.refl _).pinBankEvent List.mem_cons_self) (.refl _)⟩

/-- What the failure of a bank's supply leaves. -/
theorem supplyErr_spec {t : State} (h : RegStep [Reg.IRT_SRC_CFG (bankSource k.val)] (s.supplyFailed k.val) t) :
    t.rb (Reg.PIN_BANK_STATUS k.val) 0 = false ∧ t.rb (Reg.PIN_BANK_STATUS k.val) 1 = true ∧
    (∀ i < 32, (t.pin (k.val * 32 + i)).ball = .released (s.heldPull (k.val * 32 + i))) ∧
    (∀ p, p / 32 ≠ k.val → t.pin p = s.pin p) ∧
    BankStep [Reg.PIN_BANK_STATUS k.val, Reg.IRT_SRC_CFG (bankSource k.val)] s t := by
  obtain ⟨-, hballs, hothers⟩ := s.holdBank_pins k.val
  obtain ⟨hok, herr⟩ := s.rb_supplyFailed k
  have hnot := Reg.bank_status_not_source k.val
  have hpin (p : Nat) : t.pin p = (s.holdBank k.val).pin p := (h.pin p).trans (s.supplyFailed_pin k p)
  refine ⟨(h.rb hnot 0).trans hok, (h.rb hnot 1).trans herr, fun i hi => ?_, fun p hp => (hpin p).trans (hothers p hp), ?_⟩
  · rw [hpin]
    exact hballs i hi
  · exact ((s.supplyFailed_step k).weaken (by simp)).trans (.of_act (.of_regs (h.weaken (by simp))))

end

/-! ### A write of PIN_BANK_CFG (R78, R80, R577) -/

section
variable {s : State} {k : BankId} (who : Requester) (v : Word32)

/-- The state in which a write of PIN_BANK_CFG stands and is known to have come. -/
def State.vselStored (s : State) (k v : Nat) : State := (s.storeReg (Reg.PIN_BANK_CFG k) v).setBank k { s.bank k with written := true }

/-- A write of PIN_BANK_CFG that keeps VSEL. -/
theorem exec_vsel_same (h : (s.storeReg (Reg.PIN_BANK_CFG k.val) v.toNat).rb (Reg.PIN_BANK_CFG k.val) 0 = s.rb (Reg.PIN_BANK_CFG k.val) 0) :
    exec (.vsel k who v) s = .next (if s.rb (Reg.PIN_BANK_STATUS k.val) 0 ∧ ¬ (s.bank k.val).written then
      (s.vselStored k.val v.toNat).freeBank k.val 1 else s.vselStored k.val v.toNat) := congrArg Host.Outcome.next (if_pos h)

/-- The state in which a bank whose supply was out of range before is held for another VSEL. -/
def State.vselHeld (s : State) (k v : Nat) : State := ((s.vselStored k v).holdBank k).setBank k
  { ((s.vselStored k v).holdBank k).bank k with outside := false }

/-- A write of PIN_BANK_CFG that changes VSEL. -/
theorem exec_vsel_changed
    (h : (s.storeReg (Reg.PIN_BANK_CFG k.val) v.toNat).rb (Reg.PIN_BANK_CFG k.val) 0 ≠ s.rb (Reg.PIN_BANK_CFG k.val) 0) :
    exec (.vsel k who v) s = .next (if s.rb (Reg.PIN_BANK_STATUS k.val) 0 then (s.vselStored k.val v.toNat).supplyFailed k.val
      else s.vselHeld k.val v.toNat) := congrArg Host.Outcome.next (if_neg h)

/-- A bank held for another VSEL: its pins are released, and 100 µs count from now. -/
theorem State.vselChanged_spec {u t : State} {v : Nat} (hu : u = s.vselStored k.val v)
    (ht : t = u.supplyFailed k.val ∨ t = s.vselHeld k.val v) : t.rb (Reg.PIN_BANK_STATUS k.val) 0 = false ∧
    (∀ p, t.pin p = (u.holdBank k.val).pin p) ∧ (t.bank k.val).since = ((u.holdBank k.val).bank k.val).since ∧
    BankStep [Reg.PIN_BANK_STATUS k.val] u t := by
  rcases ht with rfl | rfl
  · exact ⟨(u.rb_supplyFailed k).1, u.supplyFailed_pin k, State.supplyOut_since _ k.val, u.supplyFailed_step k⟩
  · rw [State.vselHeld, ← hu]
    refine ⟨?_, fun p => State.setBank_pin_at .., ?_, (u.holdBank_step k.val).setBank⟩
    · rw [State.setBank_rb, u.holdBank_ok]
    · rw [State.setBank_bank_same]

theorem State.vselStored_step (v : Nat) (hu : s.unlockedAt (Reg.PIN_BANK_CFG k.val) = true) :
    BankStep [Reg.PIN_BANK_CFG k.val] s (s.vselStored k.val v) := by
  obtain ⟨hkept, hframe⟩ := s.storeReg_unlocked v hu
  have hstore : RegStep [Reg.PIN_BANK_CFG k.val] s (s.storeReg (Reg.PIN_BANK_CFG k.val) v) := by
    refine ⟨?_, hkept⟩
    generalize s.storeReg (Reg.PIN_BANK_CFG k.val) v = u at hframe
    rw [hframe]
  exact (BankStep.of_act (.of_regs hstore)).setBank

/-- A change of VSEL, unlocked. -/
theorem exec_vsel_changed_spec (hu : s.unlockedAt (Reg.PIN_BANK_CFG k.val) = true)
    (h : (s.storeReg (Reg.PIN_BANK_CFG k.val) v.toNat).rb (Reg.PIN_BANK_CFG k.val) 0 ≠ s.rb (Reg.PIN_BANK_CFG k.val) 0) :
    ∃ t, exec (.vsel k who v) s = .next t ∧ t.rb (Reg.PIN_BANK_STATUS k.val) 0 = false ∧
      t.rd (Reg.PIN_BANK_CFG k.val) = (s.storeReg (Reg.PIN_BANK_CFG k.val) v.toNat).rd (Reg.PIN_BANK_CFG k.val) ∧
      (∀ i < 32, (t.pin (k.val * 32 + i)).ball = .released (s.heldPull (k.val * 32 + i))) ∧ (t.bank k.val).since = s.clk ∧
      BankStep [Reg.PIN_BANK_STATUS k.val, Reg.PIN_BANK_CFG k.val] s t := by
  have hk := k.isLt
  have hexec := exec_vsel_changed who v h
  generalize ht : (if s.rb (Reg.PIN_BANK_STATUS k.val) 0 then (s.vselStored k.val v.toNat).supplyFailed k.val
    else s.vselHeld k.val v.toNat) = t at hexec
  have hcases : t = (s.vselStored k.val v.toNat).supplyFailed k.val ∨ t = s.vselHeld k.val v.toNat := by
    rw [← ht]
    exact (ite_eq_or_eq _ _ _)
  obtain ⟨hok, hpin, hsince, hstep⟩ := State.vselChanged_spec rfl hcases
  have hstored := State.vselStored_step v.toNat hu
  obtain ⟨-, hballs, -⟩ := (s.vselStored k.val v.toNat).holdBank_pins k.val
  have hcfg : Reg.PIN_BANK_CFG k.val ∉ [Reg.PIN_BANK_STATUS k.val] := by
    simp only [List.mem_singleton, Reg.PIN_BANK_STATUS, Reg.PIN_BANK_CFG]
    omega
  have hclk : (s.vselStored k.val v.toNat).clk = s.clk := by rw [hstored.frame]
  have hmodes : (s.vselStored k.val v.toNat).modes = s.modes := by rw [hstored.frame]
  refine ⟨t, hexec, hok, ?_, fun i hi => ?_, ?_, (hstored.weaken (by simp)).trans (hstep.weaken (by simp))⟩
  · rw [hstep.kept _ hcfg, State.vselStored, State.setBank_rd]
  · rw [hpin, hballs i hi, State.heldPull_congr hmodes]
    · exact hstored.kept _ (by simp only [List.mem_singleton, Reg.PIN_BANK_CFG, Reg.PVT_MODE]; omega)
    · exact hstored.kept _ (by simp only [List.mem_singleton, Reg.PIN_BANK_CFG, Reg.PIN_CFG]; omega)
  · rw [hsince, State.holdBank_since, hclk]

/-- A write that keeps VSEL, unlocked: the first since a reset frees a bank whose supply is in range. -/
theorem exec_vsel_same_spec
    (h : (s.storeReg (Reg.PIN_BANK_CFG k.val) v.toNat).rb (Reg.PIN_BANK_CFG k.val) 0 = s.rb (Reg.PIN_BANK_CFG k.val) 0)
    (hu : s.unlockedAt (Reg.PIN_BANK_CFG k.val) = true) :
    let s1 := s.storeReg (Reg.PIN_BANK_CFG k.val) v.toNat
    ∃ t, exec (.vsel k who v) s = .next t ∧ (t.bank k.val).written = true ∧ t = { s1 with banks := t.banks, agenda := t.agenda } ∧
      (((s.bank k.val).written = true ∨ s.rb (Reg.PIN_BANK_STATUS k.val) 0 = false) → t.agenda = s1.agenda) ∧
      ((s.bank k.val).written = false → s.rb (Reg.PIN_BANK_STATUS k.val) 0 = true → ∀ p : PinId, p.val / 32 = k.val →
        s.pinMode p.val = 1 → (s.clk + 9, Act.ball p (t.pinDrive p.val)) ∈ t.agenda) := by
  intro s1
  have hk := k.isLt
  have hstored := State.vselStored_step v.toNat hu
  have hwritten : ((s.vselStored k.val v.toNat).bank k.val).written = true := congrArg Bank.written (State.setBank_bank_same ..)
  have hbanks : s.vselStored k.val v.toNat = { s1 with banks := (s.vselStored k.val v.toNat).banks } := rfl
  have hexec := exec_vsel_same who v h
  obtain ⟨hfree, hballs⟩ := (s.vselStored k.val v.toNat).freeBank_spec k.val 1
  by_cases hfirst : s.rb (Reg.PIN_BANK_STATUS k.val) 0 = true ∧ ¬ (s.bank k.val).written = true
  · rw [if_pos hfirst] at hexec
    obtain ⟨hok, hnew⟩ := hfirst
    refine ⟨_, hexec, ?_, ?_, fun hnot => ?_, fun _ _ p hp hmode => ?_⟩
    · rw [hfree.bank]
      exact hwritten
    · unfold AgendaStep at hfree
      generalize (s.vselStored k.val v.toNat).freeBank k.val 1 = t at hfree ⊢
      generalize s.vselStored k.val v.toNat = u at hbanks hfree
      generalize t.agenda = l at hfree ⊢
      rw [hfree, hbanks]
    · exact absurd hnot (by simp [hok, hnew])
    · have hcfg : (s.vselStored k.val v.toNat).rd (Reg.PIN_CFG p.val) = s.rd (Reg.PIN_CFG p.val) :=
        hstored.kept _ (by simp only [List.mem_singleton, Reg.PIN_BANK_CFG, Reg.PIN_CFG]; omega)
      have hclk : (s.vselStored k.val v.toNat).clk = s.clk := by rw [hstored.frame]
      rw [← hclk]
      exact hballs p hp (by rw [State.pinMode, State.rf_congr hcfg]; exact hmode)
  · rw [if_neg hfirst] at hexec
    exact ⟨_, hexec, hwritten, rfl, fun _ => rfl, fun hold hok => absurd ⟨hok, by simp [hold]⟩ hfirst⟩

end

/-! ### The return of a supply (R78) -/

/-- The supply has stayed in range for 100 µs. -/
theorem exec_supplyOk {s : State} {k : BankId} (h100 : (s.bank k.val).since + 100000 ≤ s.clk)
    (hok : s.rb (Reg.PIN_BANK_STATUS k.val) 0 = false) : ∃ x : Bank, exec (.supplyOk k) s =
      .next (((s.setBank k.val x).wb (Reg.PIN_BANK_STATUS k.val) 0 true).freeBank k.val 0) :=
  ⟨_, if_pos ⟨h100, hok⟩⟩

/-- Settles O12, from the hold of a bank and its end. -/
theorem pinBanks : Obligations.Pin_banks := by
  unfold Obligations.Pin_banks
  refine ⟨fun s k => ?_, fun s k who v hu => ⟨fun h => exec_vsel_same_spec who v h hu, fun h => ?_⟩, fun s k h100 hok => ?_⟩
  · obtain ⟨t, hexec, hraise⟩ := exec_supplyErr s k
    obtain ⟨hclear, herr, hballs, hothers, hstep⟩ := supplyErr_spec s k hraise
    exact ⟨t, hexec, hclear, herr, hballs, hothers, hstep.frame, hstep.kept⟩
  · obtain ⟨t, hexec, hclear, hcfg, hballs, hsince, hstep⟩ := exec_vsel_changed_spec who v hu h
    exact ⟨t, hexec, hclear, hcfg, hballs, hsince, hstep.frame, hstep.kept⟩
  · obtain ⟨x, hexec⟩ := exec_supplyOk h100 hok
    have hset : ((s.setBank k.val x).wb (Reg.PIN_BANK_STATUS k.val) 0 true).rb (Reg.PIN_BANK_STATUS k.val) 0 = true := by
      rw [State.rb_wb _ _ _ _ _ _ (by decide), if_pos ⟨rfl, rfl⟩]
    have hcfg (p : Nat) : Reg.PIN_BANK_STATUS k.val ≠ Reg.PIN_CFG p := by unfold Reg.PIN_BANK_STATUS Reg.PIN_CFG; omega
    obtain ⟨hfree, hballs⟩ := ((s.setBank k.val x).wb (Reg.PIN_BANK_STATUS k.val) 0 true).freeBank_spec k.val 0
    have hmode (p : Nat) : ((s.setBank k.val x).wb (Reg.PIN_BANK_STATUS k.val) 0 true).pinMode p = s.pinMode p := by
      rw [State.pinMode, State.rf_congr (State.rd_wb_ne _ _ _ (hcfg p)), State.pinMode]
      rfl
    refine ⟨_, hexec, (State.rb_congr hfree.regs _ _).trans hset, fun p hp hm => hballs p hp ((hmode p.val).trans hm), ?_, fun a ha => ?_⟩
    · unfold AgendaStep at hfree
      generalize ((s.setBank k.val x).wb (Reg.PIN_BANK_STATUS k.val) 0 true).freeBank k.val 0 = t at hfree
      generalize t.agenda = l at hfree ⊢
      rw [hfree]
      rfl
    · rw [State.rd_congr hfree.regs, State.rd_wb_ne _ _ _ fun e => ha (by simp [e]), State.setBank_rd]

end Sys2Proof.Machine
end

section
/-!
PROOF. Compare registers (O9): what a compare's lateness, projection and crossings rest on, and what a write leaves of them.
-/
namespace Sys2Proof.Machine

/-! ### What a compare rests on (R62 to R66) -/

/-- `t` is `s` as far as compare n is concerned: the same registers but CMP_STATUS and CMP_PROJ, the same bases, GT and phase clock. -/
structure SameCmp (n : Nat) (s t : State) : Prop where
  rd : ∀ a, a ≠ Reg.CMP_STATUS n → a ≠ Reg.CMP_PROJ n → t.rd a = s.rd a
  bases : t.bases = s.bases
  gt : t.gt = s.gt
  clk : t.clk = s.clk

section
variable {n : Nat} {s t u : State}

theorem SameCmp.refl (s : State) : SameCmp n s s := ⟨fun _ _ _ => rfl, rfl, rfl, rfl⟩

theorem SameCmp.trans (h : SameCmp n s t) (k : SameCmp n t u) : SameCmp n s u :=
  ⟨fun a hs hp => (k.rd a hs hp).trans (h.rd a hs hp), k.bases.trans h.bases, k.gt.trans h.gt, k.clk.trans h.clk⟩

theorem SameCmp.ctrl (h : SameCmp n s t) : t.rd (Reg.CMP_CTRL n) = s.rd (Reg.CMP_CTRL n) :=
  h.rd _ (by unfold Reg.CMP_CTRL Reg.CMP_STATUS; omega) (by unfold Reg.CMP_CTRL Reg.CMP_PROJ; omega)

theorem SameCmp.value (h : SameCmp n s t) : t.rd (Reg.CMP_VALUE n) = s.rd (Reg.CMP_VALUE n) :=
  h.rd _ (by unfold Reg.CMP_VALUE Reg.CMP_STATUS; omega) (by unfold Reg.CMP_VALUE Reg.CMP_PROJ; omega)

theorem SameCmp.bind (h : SameCmp n s t) : t.cmpBind n = s.cmpBind n := State.rf_congr h.ctrl 9 5

theorem SameCmp.up (h : SameCmp n s t) : t.cmpUp n = s.cmpUp n := by rw [State.cmpUp, State.rf_congr h.ctrl, State.cmpUp]

theorem SameCmp.down (h : SameCmp n s t) : t.cmpDown n = s.cmpDown n := State.rb_of_rd h.ctrl 2

theorem SameCmp.now (h : SameCmp n s t) : t.now = s.now := by rw [State.now, h.gt, State.now]

theorem SameCmp.base (h : SameCmp n s t) (b : Nat) : t.base b = s.base b := by rw [State.base, h.bases, State.base]

theorem SameCmp.run (h : SameCmp n s t) {b : Nat} (hb : b < 16) : SameRun b s t :=
  .of_rd (h.rd _ (by unfold Reg.PHB_CTRL Reg.CMP_STATUS; omega) (by unfold Reg.PHB_CTRL Reg.CMP_PROJ; omega))
    (h.rd _ (by unfold Reg.PHB_STATUS Reg.CMP_STATUS; omega) (by unfold Reg.PHB_STATUS Reg.CMP_PROJ; omega))
    (h.rd _ (by unfold Reg.PHB_TIME_RATIO Reg.CMP_STATUS; omega) (by unfold Reg.PHB_TIME_RATIO Reg.CMP_PROJ; omega))

theorem SameCmp.baseValue (h : SameCmp n s t) {b : Nat} (hb : b < 16) : t.baseValue b = s.baseValue b :=
  (h.run hb).baseValue (by rw [h.base]) (by rw [h.base]) (by rw [h.base]) (by rw [h.base]) h.gt

theorem SameCmp.movedNow (h : SameCmp n s t) : t.movedNow n = s.movedNow n := by
  simp only [State.movedNow, h.bind, h.base, h.gt, h.clk]

theorem SameCmp.refNow (h : SameCmp n s t) : t.refNow n = s.refNow n := by
  rw [State.refNow, State.refNow, h.bind, h.now]
  split
  · next hb => rw [h.baseValue hb]
  · rfl

theorem SameCmp.lateAgainst (h : SameCmp n s t) (ref : Nat) : t.lateAgainst n ref = s.lateAgainst n ref := by
  simp only [State.lateAgainst, h.bind, h.value, h.up, h.down]

theorem SameCmp.isLate (h : SameCmp n s t) : t.isLate n = s.isLate n := by
  rw [State.isLate, h.lateAgainst, State.refStart, h.movedNow, h.refNow, State.isLate, State.refStart]

theorem SameCmp.projection (h : SameCmp n s t) : t.projection n = s.projection n := by
  have harm : t.rb (Reg.CMP_CTRL n) 0 = s.rb (Reg.CMP_CTRL n) 0 := State.rb_of_rd h.ctrl 0
  rcases Nat.lt_trichotomy (s.cmpBind n) 16 with hb | hb | hb
  · simp only [State.projection, h.bind, harm, h.value, h.baseValue hb, (h.run hb).on, h.base, h.up, h.down, h.now]
  · simp [State.projection, h.bind, harm, h.value, hb]
  · simp [State.projection, h.bind, harm, hb, hb.ne']

end

/-- The registers hold any projection. -/
theorem State.projection_word (s : State) (n : Nat) : s.projection n < 2 ^ 64 := by
  by_cases hb : s.cmpBind n = 16
  · unfold State.projection
    dsimp only
    rw [if_pos hb]
    split
    · decide
    · exact s.rd_lt _
  · exact s.projection_lt n hb

/-! ### LATE and the projection after a write (R44, R64) -/

section
variable (u : State) (n : Nat)

/-- The state in which an armed compare has been checked for LATE and projected. -/
def State.cmpChecked (u : State) (n : Nat) : State := (if u.rb (Reg.CMP_CTRL n) 0 then u.checkLate n else u).project n

theorem Reg.cmp_proj_ne_status : Reg.CMP_PROJ n ≠ Reg.CMP_STATUS n := by unfold Reg.CMP_PROJ Reg.CMP_STATUS; omega

/-- LATE is set where the compare is armed and late; every other bit of CMP_STATUS stays. -/
theorem State.rb_cmpChecked (i : Nat) : (u.cmpChecked n).rb (Reg.CMP_STATUS n) i =
    (u.rb (Reg.CMP_STATUS n) i || (decide (i = 2) && u.rb (Reg.CMP_CTRL n) 0 && u.isLate n)) := by
  have hlate : (u.checkLate n).rb (Reg.CMP_STATUS n) i = (u.rb (Reg.CMP_STATUS n) i || (decide (i = 2) && u.isLate n)) := by
    unfold State.checkLate
    split
    · next h =>
      rw [State.rb_wb _ _ _ _ _ _ (by decide)]
      by_cases hi : i = 2 <;> simp [hi, h, eq_comm]
    · next h => simp [h]
  rw [State.cmpChecked, State.project, State.rb_wr_ne _ _ _ (Reg.cmp_proj_ne_status n)]
  split
  · next h => rw [hlate, h, Bool.and_true]
  · next h => simp [h]

theorem State.checkLate_step : RegStep [Reg.CMP_STATUS n, Reg.CMP_PROJ n] u (u.checkLate n) :=
  .ite ((RegStep.refl u).wb List.mem_cons_self) (.refl u)

theorem State.cmpChecked_kept : u.regsKept (u.cmpChecked n) [Reg.CMP_STATUS n, Reg.CMP_PROJ n] :=
  ((RegStep.ite (u.checkLate_step n) (.refl u)).wr (List.mem_cons_of_mem _ List.mem_cons_self)).kept

theorem State.cmpChecked_eq : u.cmpChecked n = { u with regs := (u.cmpChecked n).regs } := by
  unfold State.cmpChecked State.checkLate
  split
  · split <;> rfl
  · rfl

theorem State.cmpChecked_same : SameCmp n u (u.cmpChecked n) := by
  have hframe := u.cmpChecked_eq n
  refine ⟨fun a hs hp => u.cmpChecked_kept n a (by simp [hs, hp]), ?_, ?_, ?_⟩ <;> rw [hframe]

/-- CMP_PROJ shows the projection of the state. -/
theorem State.rd_cmpChecked_proj : (u.cmpChecked n).rd (Reg.CMP_PROJ n) = u.projection n := by
  have hsame : SameCmp n u (if u.rb (Reg.CMP_CTRL n) 0 then u.checkLate n else u) := by
    unfold State.checkLate
    split
    · split
      · exact ⟨fun a hs _ => State.rd_wb_ne _ _ _ hs.symm, rfl, rfl, rfl⟩
      · exact .refl u
    · exact .refl u
  rw [State.cmpChecked, State.project, State.rd_wr_same, hsame.projection, Nat.mod_eq_of_lt (u.projection_word n)]

end

/-! ### A crossing noted anew (R65) -/

section
variable (v : State) (n : Nat)

/-- The move of a compare's reference crosses it. -/
def State.crossesNow (t : State) (n : Nat) (m : Nat × Int × Bool) : Bool :=
  if t.cmpBind n = 16 then t.crossesGt n m.1
  else if m.2.2 then t.jumpsBase n m.1 m.2.1 else t.crossesBase n m.1 (t.baseValue (t.cmpBind n))

/-- The crossings but those of compare n in the present phase clock. -/
def State.otherCrossings (s : State) (n : Nat) : List (Nat × Bool × Nat) := s.crossed.filter fun e => !(e.1 == n && e.2.2 == s.clk)

variable {v n} in
theorem State.recheck_still (h : v.movedNow n = none) : v.recheck n = { v with crossed := v.otherCrossings n } := by
  unfold State.recheck
  rw [h]
  rfl

variable {v n} in
theorem State.recheck_moved {m : Nat × Int × Bool} (h : v.movedNow n = some m) : v.recheck n =
    if v.rb (Reg.CMP_CTRL n) 0 ∧ v.crossesNow n m = true then ({ v with crossed := v.otherCrossings n } : State).noteCrossed [n] m.2.2
    else { v with crossed := v.otherCrossings n } := by
  unfold State.recheck
  rw [h]
  rfl

/-- Noting a crossing anew queues its match and changes nothing else. -/
theorem State.recheck_queued : ∃ l a, v.recheck n = v.queued l a := by
  cases h : v.movedNow n with
  | none => exact ⟨_, _, State.recheck_still h⟩
  | some m =>
    rw [State.recheck_moved h]
    split
    · obtain ⟨l, a, hq⟩ := State.noteCrossed_eq { v with crossed := v.otherCrossings n } [n] m.2.2
      exact ⟨l, a, hq⟩
    · exact ⟨_, _, rfl⟩

variable {v n} in
/-- The crossing is noted exactly when the compare is armed and the move crosses it. -/
theorem State.recheck_crossed {m : Nat × Int × Bool} (h : v.movedNow n = some m) :
    (n, m.2.2, v.clk) ∈ (v.recheck n).crossed ↔ v.rb (Reg.CMP_CTRL n) 0 = true ∧ v.crossesNow n m = true := by
  have hno : (n, m.2.2, v.clk) ∉ v.otherCrossings n := by simp [State.otherCrossings]
  rw [State.recheck_moved h]
  split
  · next hc =>
    have hcrossed : (({ v with crossed := v.otherCrossings n } : State).noteCrossed [n] m.2.2).crossed =
        v.otherCrossings n ++ [(n, m.2.2, v.clk)] := rfl
    rw [hcrossed]
    simp only [List.mem_append, List.mem_singleton, or_true, true_iff]
    exact hc
  · next hc => exact iff_of_false hno hc

theorem State.queued_same (l : List (Nat × Bool × Nat)) (a : List (Nat × Act)) : SameCmp n v (v.queued l a) :=
  ⟨fun _ _ _ => rfl, rfl, rfl, rfl⟩

end

/-! ### What a write of a compare leaves (R44, R64, R65) -/

/-- `t` is `u` after a write of compare n has been checked, projected and looked at for a crossing. -/
structure CmpWritten (n : Nat) (u t : State) : Prop where
  late : t.rb (Reg.CMP_STATUS n) 2 = (u.rb (Reg.CMP_STATUS n) 2 || (u.rb (Reg.CMP_CTRL n) 0 && u.isLate n))
  bits : u.bitsKept t (Reg.CMP_STATUS n) 2 2
  proj : t.rd (Reg.CMP_PROJ n) = u.projection n
  kept : u.regsKept t [Reg.CMP_STATUS n, Reg.CMP_PROJ n]
  same : SameCmp n u t
  still : t.movedNow n = none → t = { u with regs := t.regs, crossed := u.otherCrossings n }
  moved : ∀ m, t.movedNow n = some m → t = { u with regs := t.regs, crossed := t.crossed, agenda := t.agenda } ∧
    ((n, m.2.2, u.clk) ∈ t.crossed ↔ t.rb (Reg.CMP_CTRL n) 0 = true ∧ t.crossesNow n m = true)

theorem State.recheck_written (u : State) (n : Nat) : CmpWritten n u ((u.cmpChecked n).recheck n) := by
  have hbits := u.rb_cmpChecked n
  have hproj := u.rd_cmpChecked_proj n
  have hkept := u.cmpChecked_kept n
  have hsame := u.cmpChecked_same n
  have hframe := u.cmpChecked_eq n
  generalize u.cmpChecked n = v at *
  obtain ⟨l, a, hq⟩ := v.recheck_queued n
  have hclk : v.clk = u.clk := hsame.clk
  have hcross (m : Nat × Int × Bool) : (v.queued l a).crossesNow n m = v.crossesNow n m := rfl
  have hmoved : (v.queued l a).movedNow n = v.movedNow n := rfl
  refine ⟨?_, fun i hi => ?_, ?_, ?_, ?_, fun h => ?_, fun m h => ?_⟩
  · rw [hq]
    exact (hbits 2).trans (by simp)
  · rw [hq]
    exact (hbits i).trans (by simp [show i ≠ 2 by omega])
  · rw [hq]
    exact hproj
  · rw [hq]
    exact hkept
  · rw [hq]
    exact hsame.trans (v.queued_same n l a)
  · rw [hq, hmoved] at h
    rw [State.recheck_still h, State.otherCrossings, hclk]
    generalize v.regs = r at hframe
    rw [hframe]
    rfl
  · rw [hq, hmoved] at h
    rw [← hclk, State.recheck_crossed h, hq, hcross]
    refine ⟨?_, Iff.rfl⟩
    generalize v.regs = r at hframe
    rw [hframe]
    rfl

/-! ### The writes of a compare's registers (R70, R93) -/

/-- The state in which a write of CMP_CTRL stands with its writer's enclave. -/
def State.ctrlStored (s : State) (n : Nat) (who : Requester) (v : Nat) : State := (s.storeReg (Reg.CMP_CTRL n) v).cmpWriter n who

/-- The state in which a write of CMP_VALUE stands and its phase clock is noted. -/
def State.valueStored (s : State) (n v : Nat) : State :=
  (s.storeReg (Reg.CMP_VALUE n) v).setCmp n { s.cmp n with writtenAt := some s.clk }

section
variable {s : State} {n : Nat} (who : Requester) (v : Nat)

theorem State.ctrlStored_spec (hu : s.unlockedAt (Reg.CMP_CTRL n) = true) : let u := s.ctrlStored n who v
    u.rd (Reg.CMP_CTRL n) = putFld ((s.storeReg (Reg.CMP_CTRL n) v).rd (Reg.CMP_CTRL n)) 21 16 who.eid.toNat ∧
    s.regsKept u [Reg.CMP_CTRL n] ∧ u = { s with regs := u.regs } := by
  obtain ⟨hkept, hframe⟩ := s.storeReg_unlocked v hu
  refine ⟨State.rd_wf_same _ _ 21 16 _ (by decide) (by decide), hkept.wr List.mem_cons_self, ?_⟩
  unfold State.ctrlStored
  generalize s.storeReg (Reg.CMP_CTRL n) v = u at hframe
  generalize u.regs = r at hframe
  rw [hframe]
  rfl

theorem State.valueStored_spec (hu : s.unlockedAt (Reg.CMP_VALUE n) = true) : let u := s.valueStored n v
    u.rd (Reg.CMP_VALUE n) = (s.storeReg (Reg.CMP_VALUE n) v).rd (Reg.CMP_VALUE n) ∧ (u.cmp n).writtenAt = some s.clk ∧
    s.regsKept u [Reg.CMP_VALUE n] ∧ u = { s with regs := u.regs, cmps := u.cmps } := by
  obtain ⟨hkept, hframe⟩ := s.storeReg_unlocked v hu
  refine ⟨rfl, congrArg Cmp.writtenAt (State.setCmp_cmp_same ..), hkept, ?_⟩
  unfold State.valueStored
  generalize s.storeReg (Reg.CMP_VALUE n) v = u at hframe
  generalize u.regs = r at hframe
  rw [hframe]
  rfl

theorem State.writeCmpAction_spec (hu : s.unlockedAt (Reg.CMP_ACTION n) = true) : let t := s.writeCmpAction n who v
    t.rd (Reg.CMP_ACTION n) = (s.storeReg (Reg.CMP_ACTION n) v).rd (Reg.CMP_ACTION n) ∧
    t.rf (Reg.CMP_CTRL n) 21 16 = who.eid.toNat ∧ s.bitsKept t (Reg.CMP_CTRL n) 21 16 ∧
    t = { s with regs := t.regs } ∧ s.regsKept t [Reg.CMP_ACTION n, Reg.CMP_CTRL n] := by
  have hne : Reg.CMP_CTRL n ≠ Reg.CMP_ACTION n := by unfold Reg.CMP_CTRL Reg.CMP_ACTION; omega
  obtain ⟨hkept, hframe⟩ := s.storeReg_unlocked v hu
  have hctrl : (s.storeReg (Reg.CMP_ACTION n) v).rd (Reg.CMP_CTRL n) = s.rd (Reg.CMP_CTRL n) := hkept _ (by simpa using hne)
  have heid : who.eid.toNat < 2 ^ 6 := who.eid.isLt
  refine ⟨State.rd_wf_ne _ 21 16 _ hne, ?_, fun i hi => ?_, ?_, ?_⟩
  · exact (State.rf_wf_same _ _ 21 16 _ (by decide) (by decide)).trans (Nat.mod_eq_of_lt heid)
  · exact (State.rb_wf_out _ _ (by decide) (by decide) hi).trans (State.rb_of_rd hctrl i)
  · unfold State.writeCmpAction
    generalize s.storeReg (Reg.CMP_ACTION n) v = u at hframe
    generalize u.regs = r at hframe
    rw [hframe]
    rfl
  · exact State.regsKept.wr (fun a ha => hkept a fun h => ha (by simpa using .inl (List.mem_singleton.mp h))) (by simp)

end

/-- The registers of a compare's write. -/
theorem CmpWritten.kept_from {n a : Nat} {s u t : State} (h : CmpWritten n u t) (hu : s.regsKept u [a]) :
    s.regsKept t [a, Reg.CMP_STATUS n, Reg.CMP_PROJ n] := fun x hx => by
  obtain ⟨ha, hs, hp⟩ : x ≠ a ∧ x ≠ Reg.CMP_STATUS n ∧ x ≠ Reg.CMP_PROJ n := by simpa using hx
  rw [h.kept x (by simp [hs, hp]), hu x (by simpa using ha)]

/-- Settles O9, from what a stored write of a compare leaves once it has been checked. -/
theorem compareRegisters : Obligations.Compare_registers := by
  unfold Obligations.Compare_registers
  intro crosses moved
  have hmoved (s t u v : State) (n : CmpId) (h : CmpWritten n.val u t) (hv : { u with regs := t.regs } = v)
      (hclk : u.clk = s.clk) (hcrossed : u.crossed = s.crossed) : moved s t n v := by
    refine ⟨fun hm => ?_, fun m hm => ?_⟩
    · have hlist : u.otherCrossings n.val = s.crossed.filter fun e => !(e.1 == n.val && e.2.2 == s.clk) := by
        rw [State.otherCrossings, hclk, hcrossed]
      rw [← hlist, ← hv]
      exact h.still hm
    · obtain ⟨hframe, hnoted⟩ := h.moved m hm
      rw [← hv, ← hclk]
      exact ⟨hframe, hnoted⟩
  refine ⟨fun s n who v hu => ?_, fun s n v hu => ?_, fun s n who v hu => ⟨_, rfl, s.writeCmpAction_spec who v.toNat hu⟩⟩
  · obtain ⟨hctrl, hkept, hframe⟩ := State.ctrlStored_spec who v.toNat hu
    have h := (s.ctrlStored n.val who v.toNat).recheck_written n.val
    have hexec : exec (.cmpCtrl n who v) s = .next (((s.ctrlStored n.val who v.toNat).cmpChecked n.val).recheck n.val) := rfl
    generalize ((s.ctrlStored n.val who v.toNat).cmpChecked n.val).recheck n.val = t at h hexec
    generalize s.ctrlStored n.val who v.toNat = u at *
    have hst : u.rd (Reg.CMP_STATUS n.val) = s.rd (Reg.CMP_STATUS n.val) :=
      hkept _ (by simp only [List.mem_singleton, Reg.CMP_STATUS, Reg.CMP_CTRL]; omega)
    refine ⟨t, hexec, h.same.ctrl.trans hctrl, ?_, h.proj.trans h.same.projection.symm,
      hmoved s t u _ n h (by rw [hframe]) (by rw [hframe]) (by rw [hframe]),
      fun i hi => (h.bits i hi).trans (State.rb_of_rd hst i), h.kept_from hkept⟩
    rw [h.late, h.same.isLate, State.rb_of_rd hst, State.rb_of_rd h.same.ctrl]
  · obtain ⟨hvalue, hwritten, hkept, hframe⟩ := State.valueStored_spec v.toNat hu
    have h := (s.valueStored n.val v.toNat).recheck_written n.val
    have hexec : exec (.cmpValue n v) s = .next (((s.valueStored n.val v.toNat).cmpChecked n.val).recheck n.val) := rfl
    generalize ((s.valueStored n.val v.toNat).cmpChecked n.val).recheck n.val = t at h hexec
    generalize s.valueStored n.val v.toNat = u at *
    have hrd {a : Nat} (ha : a ≠ Reg.CMP_VALUE n.val) : u.rd a = s.rd a := hkept a (by simpa using ha)
    have hst := hrd (a := Reg.CMP_STATUS n.val) (by unfold Reg.CMP_STATUS Reg.CMP_VALUE; omega)
    have hctrl := hrd (a := Reg.CMP_CTRL n.val) (by unfold Reg.CMP_CTRL Reg.CMP_VALUE; omega)
    have hcmps : t.cmps = u.cmps := by
      cases hm : t.movedNow n.val with
      | none => rw [h.still hm]
      | some m => rw [(h.moved m hm).1]
    refine ⟨t, hexec, h.same.value.trans hvalue, ?_, h.proj.trans h.same.projection.symm, ?_,
      hmoved s t u _ n h (by rw [hcmps, hframe]) (by rw [hframe]) (by rw [hframe]),
      fun i hi => (h.bits i hi).trans (State.rb_of_rd hst i), h.kept_from hkept⟩
    · rw [h.late, h.same.isLate, State.rb_of_rd hst, State.rb_of_rd hctrl]
    · rw [State.cmp, hcmps]
      exact hwritten

end Sys2Proof.Machine
end

section
/-!
PROOF. The match of a compare (O8): what it leaves of the compare's registers, the action on its pin, and what it puts on the agenda.
-/
namespace Sys2Proof.Machine

/-! ### The compare's own registers (R63, R65) -/

section
variable (s : State) (n : Nat)

/-- The state in which CMP_MATCH_GT, MATCHED and the clock of the match stand. -/
def State.matchNoted (s : State) (n clock : Nat) : State :=
  ((s.setCmp n { s.cmp n with matchedAt := some clock }).wr (Reg.CMP_MATCH_GT n) s.now).wb (Reg.CMP_STATUS n) 0 true

/-- The state in which the match is counted, and JUMPED shown for a jump. -/
def State.matchCounted (s : State) (n clock : Nat) (jumped : Bool) : State :=
  let s2 := s.matchNoted n clock
  let s3 := s2.wf (Reg.CMP_STATUS n) 15 8 (satInc 8 (s2.rf (Reg.CMP_STATUS n) 15 8))
  if jumped then s3.wb (Reg.CMP_STATUS n) 1 true else s3

/-- The state in which ONE_SHOT has cleared ARM. -/
def State.matchShown (s : State) (n clock : Nat) (jumped : Bool) : State :=
  if s.rb (Reg.CMP_CTRL n) 3 then (s.matchCounted n clock jumped).wb (Reg.CMP_CTRL n) 0 false else s.matchCounted n clock jumped

/-- `t` is `s` but for the compares' records and the registers listed. -/
structure CmpStep (rs : List Nat) (s t : State) : Prop where
  frame : t = { s with regs := t.regs, cmps := t.cmps }
  kept : s.regsKept t rs

variable {s n} in
theorem CmpStep.wr {rs : List Nat} {t : State} {a v : Nat} (h : CmpStep rs s t) (ha : a ∈ rs) : CmpStep rs s (t.wr a v) :=
  ⟨congrArg (·.wr a v) h.frame, h.kept.wr ha⟩

variable {s n} in
theorem CmpStep.ite {rs : List Nat} {t u : State} {c : Prop} [Decidable c] (h : CmpStep rs s t) (k : CmpStep rs s u) :
    CmpStep rs s (if c then t else u) := by
  split <;> assumption

theorem CmpStep.setCmp (rs : List Nat) (x : Cmp) : CmpStep rs s (s.setCmp n x) := ⟨rfl, fun _ _ => rfl⟩

/-- The registers that a match shows itself in. -/
def matchRegs (n : Nat) : List Nat :=
  [Reg.CMP_CTRL n, Reg.CMP_STATUS n, Reg.CMP_VALUE n, Reg.CMP_MATCH_GT n, Reg.CMP_PROJ n]

variable (clock : Nat) (jumped : Bool)

theorem State.matchNoted_step : CmpStep [Reg.CMP_MATCH_GT n, Reg.CMP_STATUS n] s (s.matchNoted n clock) :=
  ((CmpStep.setCmp s n _ _).wr (by simp)).wr (by simp)

theorem Reg.cmp_status_ne_matchGt : Reg.CMP_STATUS n ≠ Reg.CMP_MATCH_GT n := by unfold Reg.CMP_STATUS Reg.CMP_MATCH_GT; omega

theorem State.rd_matchNoted_gt : (s.matchNoted n clock).rd (Reg.CMP_MATCH_GT n) = s.now := by
  rw [State.matchNoted, State.rd_wb_ne _ _ _ (Reg.cmp_status_ne_matchGt n), State.rd_wr_same]
  exact Nat.mod_eq_of_lt s.gt.now.isLt

theorem State.rd_matchNoted_status :
    (s.matchNoted n clock).rd (Reg.CMP_STATUS n) = putFld (s.rd (Reg.CMP_STATUS n)) 0 0 (b2n true) := by
  rw [State.matchNoted, State.rd_wb_same _ _ _ _ (by decide), State.rd_wr_ne _ _ (Reg.cmp_status_ne_matchGt n).symm, State.setCmp_rd]

theorem State.matchNoted_cmp : (s.matchNoted n clock).cmp n = { s.cmp n with matchedAt := some clock } := by
  rw [State.matchNoted, State.wb_cmp_at, State.wr_cmp_at, State.setCmp_cmp_same]

theorem State.matchCounted_step : CmpStep [Reg.CMP_MATCH_GT n, Reg.CMP_STATUS n] s (s.matchCounted n clock jumped) := by
  have hcount := (s.matchNoted_step n clock).wr (a := Reg.CMP_STATUS n) (v := putFld ((s.matchNoted n clock).rd (Reg.CMP_STATUS n)) 15 8
    (satInc 8 ((s.matchNoted n clock).rf (Reg.CMP_STATUS n) 15 8))) (by simp)
  exact .ite (hcount.wr (by simp)) hcount

/-- The flags and the count of a match. -/
theorem State.matchCounted_status : let t := s.matchCounted n clock jumped
    let st := Reg.CMP_STATUS n
    t.rb st 0 = true ∧ t.rf st 15 8 = min 255 (s.rf st 15 8 + 1) ∧ t.rb st 1 = (s.rb st 1 || jumped) := by
  intro t st
  have hnoted := s.rd_matchNoted_status n clock
  generalize hu : s.matchNoted n clock = u at hnoted
  have ht : t = if jumped then (u.wf st 15 8 (satInc 8 (u.rf st 15 8))).wb st 1 true else u.wf st 15 8 (satInc 8 (u.rf st 15 8)) := by
    rw [← hu]
    rfl
  have hbit (i : Nat) : u.rb st i = if 0 = i then true else s.rb st i := by
    rw [State.rb, hnoted, testBit_putBit, State.rb]
  have hfield : u.rf st 15 8 = s.rf st 15 8 := by
    rw [State.rf, hnoted, fld_putFld_ne _ _ _ _ _ _ (by decide) (by decide) (by decide), State.rf]
  have hcount : (u.wf st 15 8 (satInc 8 (u.rf st 15 8))).rf st 15 8 = min 255 (s.rf st 15 8 + 1) := by
    rw [State.rf_wf_same _ _ _ _ _ (by decide) (by decide), hfield, satInc]
    omega
  have hlow {i : Nat} (hi : i < 8) : (u.wf st 15 8 (satInc 8 (u.rf st 15 8))).rb st i = u.rb st i :=
    State.rb_wf_out _ _ (by decide) (by decide) (.inl hi)
  rw [ht]
  cases jumped
  · exact ⟨(hlow (by decide)).trans (hbit 0), hcount, (hlow (by decide)).trans ((hbit 1).trans (Bool.or_false _).symm)⟩
  · refine ⟨?_, ?_, ?_⟩
    · rw [if_pos rfl, State.rb_wb _ _ _ _ _ _ (by decide), if_neg (by simp), hlow (by decide), hbit]
      rfl
    · rw [if_pos rfl, State.rf_wb_out _ _ (by decide) (by decide) (by decide), hcount]
    · rw [if_pos rfl, State.rb_wb _ _ _ _ _ _ (by decide), if_pos ⟨rfl, rfl⟩, Bool.or_true]

theorem State.matchCounted_gt : (s.matchCounted n clock jumped).rd (Reg.CMP_MATCH_GT n) = s.now := by
  have hne := Reg.cmp_status_ne_matchGt n
  unfold State.matchCounted
  dsimp only
  split
  · rw [State.rd_wb_ne _ _ _ hne, State.rd_wf_ne _ _ _ _ hne, State.rd_matchNoted_gt]
  · rw [State.rd_wf_ne _ _ _ _ hne, State.rd_matchNoted_gt]

theorem State.matchCounted_cmp : (s.matchCounted n clock jumped).cmp n = { s.cmp n with matchedAt := some clock } := by
  rw [← s.matchNoted_cmp n clock]
  unfold State.matchCounted
  dsimp only
  split
  · rw [State.wb_cmp_at, State.wf_cmp_at]
  · rw [State.wf_cmp_at]

theorem State.matchShown_step : CmpStep [Reg.CMP_CTRL n, Reg.CMP_MATCH_GT n, Reg.CMP_STATUS n] s (s.matchShown n clock jumped) := by
  obtain ⟨hframe, hkept⟩ := s.matchCounted_step n clock jumped
  have hcounted : CmpStep [Reg.CMP_CTRL n, Reg.CMP_MATCH_GT n, Reg.CMP_STATUS n] s (s.matchCounted n clock jumped) :=
    ⟨hframe, fun a ha => hkept a fun h => ha (List.mem_cons_of_mem _ h)⟩
  exact .ite (hcounted.wr List.mem_cons_self) hcounted

theorem State.rd_matchShown_ne {a : Nat} (h : Reg.CMP_CTRL n ≠ a) :
    (s.matchShown n clock jumped).rd a = (s.matchCounted n clock jumped).rd a := by
  unfold State.matchShown
  split
  · rw [State.rd_wb_ne _ _ _ h]
  · rfl

/-- ONE_SHOT clears ARM; every other bit of CMP_CTRL stays. -/
theorem State.matchShown_ctrl :
    (∀ i, (s.matchShown n clock jumped).rb (Reg.CMP_CTRL n) i =
      if i = 0 ∧ s.rb (Reg.CMP_CTRL n) 3 = true then false else s.rb (Reg.CMP_CTRL n) i) ∧
    (s.matchShown n clock jumped).cmpBind n = s.cmpBind n := by
  have hctrl : (s.matchCounted n clock jumped).rd (Reg.CMP_CTRL n) = s.rd (Reg.CMP_CTRL n) := by
    refine (s.matchCounted_step n clock jumped).kept _ ?_
    simp only [List.mem_cons, List.not_mem_nil, or_false, Reg.CMP_CTRL, Reg.CMP_MATCH_GT, Reg.CMP_STATUS]
    omega
  unfold State.matchShown
  split
  · next h3 =>
    refine ⟨fun i => ?_, ?_⟩
    · rw [State.rb_wb _ _ _ _ _ _ (by decide), State.rb_of_rd hctrl]
      simp [h3, eq_comm]
    · exact (State.rf_wb_out _ _ (by decide) (by decide) (by decide)).trans (State.rf_congr hctrl 9 5)
  · next h3 => exact ⟨fun i => by rw [State.rb_of_rd hctrl]; simp [h3], State.rf_congr hctrl 9 5⟩

theorem State.matchShown_cmp : (s.matchShown n clock jumped).cmp n = { s.cmp n with matchedAt := some clock } := by
  rw [← s.matchCounted_cmp n clock jumped]
  unfold State.matchShown
  split
  · rw [State.wb_cmp_at]
  · rfl

/-! ### AUTO_STEP (R63, R65) -/

/-- A base's compare value is stepped in its low 48 bits. -/
theorem putFld_low48 (v x : Nat) : putFld v 47 0 (x % 2 ^ 48) = v / 2 ^ 48 * 2 ^ 48 + x % 2 ^ 48 := by
  simp [putFld, Nat.shiftRight_eq_div_pow, Nat.shiftLeft_eq, Nat.mod_one]

/-- The value that AUTO_STEP gives a compare. -/
def steppedValue (bind v st : Nat) : Nat := if bind < 16 then v / 2 ^ 48 * 2 ^ 48 + (v + st) % 2 ^ 48 else (v + st) % 2 ^ 64

theorem steppedValue_lt {bind v st : Nat} (hv : v < 2 ^ 64) : steppedValue bind v st < 2 ^ 64 := by
  unfold steppedValue
  split <;> omega

theorem Reg.cmp_status_ne_value : Reg.CMP_STATUS n ≠ Reg.CMP_VALUE n := by unfold Reg.CMP_STATUS Reg.CMP_VALUE; omega

/-- What AUTO_STEP leaves: the value stepped where it applies, and of CMP_STATUS only LATE changed. -/
theorem State.autoStep_spec : let t := s.autoStep n clock
    t.rd (Reg.CMP_VALUE n) = (if s.rb (Reg.CMP_CTRL n) 4 = true ∧ (s.cmp n).writtenAt ≠ some clock then
      steppedValue (s.cmpBind n) (s.rd (Reg.CMP_VALUE n)) (s.rd (Reg.CMP_STEP n)) else s.rd (Reg.CMP_VALUE n)) ∧
    (∀ i, i ≠ 2 → t.rb (Reg.CMP_STATUS n) i = s.rb (Reg.CMP_STATUS n) i) ∧
    t.rf (Reg.CMP_STATUS n) 15 8 = s.rf (Reg.CMP_STATUS n) 15 8 ∧
    s.regsKept t [Reg.CMP_VALUE n, Reg.CMP_STATUS n] ∧ t = { s with regs := t.regs } := by
  have hne := Reg.cmp_status_ne_value n
  intro t
  by_cases happ : s.rb (Reg.CMP_CTRL n) 4 = true ∧ (s.cmp n).writtenAt ≠ some clock
  · rw [if_pos happ]
    generalize hx : steppedValue (s.cmpBind n) (s.rd (Reg.CMP_VALUE n)) (s.rd (Reg.CMP_STEP n)) = x
    have hlt : x < 2 ^ 64 := hx ▸ steppedValue_lt (s.rd_lt _)
    have ht : t = if (s.wr (Reg.CMP_VALUE n) x).lateAgainst n ((s.wr (Reg.CMP_VALUE n) x).refNow n) then
        (s.wr (Reg.CMP_VALUE n) x).wb (Reg.CMP_STATUS n) 2 true else s.wr (Reg.CMP_VALUE n) x := by
      rw [← hx, steppedValue, ← putFld_low48]
      exact if_pos happ
    have hst : (s.wr (Reg.CMP_VALUE n) x).rd (Reg.CMP_STATUS n) = s.rd (Reg.CMP_STATUS n) := State.rd_wr_ne _ _ hne.symm
    have hvalue : (s.wr (Reg.CMP_VALUE n) x).rd (Reg.CMP_VALUE n) = x := by rw [State.rd_wr_same, Nat.mod_eq_of_lt hlt]
    have hkept : s.regsKept (s.wr (Reg.CMP_VALUE n) x) [Reg.CMP_VALUE n, Reg.CMP_STATUS n] := .wr (fun _ _ => rfl) (by simp)
    rw [ht]
    split
    · refine ⟨?_, fun i hi => ?_, ?_, hkept.wb (by simp), rfl⟩
      · rw [State.rd_wb_ne _ _ _ hne, hvalue]
      · rw [State.rb_wb _ _ _ _ _ _ (by decide), if_neg (by simp [hi.symm]), State.rb_of_rd hst]
      · rw [State.rf_wb_out _ _ (by decide) (by decide) (by decide), State.rf_congr hst]
    · exact ⟨hvalue, fun i _ => State.rb_of_rd hst i, State.rf_congr hst 15 8, hkept, rfl⟩
  · have ht : t = s := if_neg happ
    rw [ht, if_neg happ]
    exact ⟨rfl, fun _ _ => rfl, rfl, fun _ _ => rfl, rfl⟩

end

/-! ### The registers of a match, put together -/

/-- The state in which a match has shown itself in its compare's registers. -/
def State.matchSettled (s : State) (n clock : Nat) (jumped : Bool) : State := ((s.matchShown n clock jumped).autoStep n clock).project n

/-- What a match leaves of its compare. -/
structure Matched (n clock : Nat) (jumped : Bool) (s t : State) : Prop where
  gt : t.rd (Reg.CMP_MATCH_GT n) = s.now
  matched : t.rb (Reg.CMP_STATUS n) 0 = true
  count : t.rf (Reg.CMP_STATUS n) 15 8 = min 255 (s.rf (Reg.CMP_STATUS n) 15 8 + 1)
  jumped : t.rb (Reg.CMP_STATUS n) 1 = (s.rb (Reg.CMP_STATUS n) 1 || jumped)
  arm : t.rb (Reg.CMP_CTRL n) 0 = !s.rb (Reg.CMP_CTRL n) 3
  value : t.rd (Reg.CMP_VALUE n) = if s.rb (Reg.CMP_CTRL n) 4 = true ∧ (s.cmp n).writtenAt ≠ some clock then
    steppedValue (s.cmpBind n) (s.rd (Reg.CMP_VALUE n)) (s.rd (Reg.CMP_STEP n)) else s.rd (Reg.CMP_VALUE n)
  noted : (t.cmp n).matchedAt = some clock

/-- What a match leaves stands in its registers and its record. -/
theorem Matched.of_same {n clock : Nat} {jumped : Bool} {s t u : State} (h : Matched n clock jumped s t)
    (hrd : ∀ a ∈ matchRegs n, u.rd a = t.rd a) (hcmps : u.cmps = t.cmps) : Matched n clock jumped s u := by
  have hst := hrd (Reg.CMP_STATUS n) (by simp [matchRegs])
  have hctrl := hrd (Reg.CMP_CTRL n) (by simp [matchRegs])
  refine ⟨?_, ?_, ?_, ?_, ?_, ?_, ?_⟩
  · rw [hrd _ (by simp [matchRegs]), h.gt]
  · rw [State.rb_of_rd hst, h.matched]
  · rw [State.rf_congr hst, h.count]
  · rw [State.rb_of_rd hst, h.jumped]
  · rw [State.rb_of_rd hctrl, h.arm]
  · rw [hrd _ (by simp [matchRegs]), h.value]
  · rw [State.cmp, hcmps]
    exact h.noted

section
variable {s : State} {n clock : Nat} {jumped : Bool}

theorem State.matchSettled_step (s : State) (n clock : Nat) (jumped : Bool) :
    CmpStep (matchRegs n) s (s.matchSettled n clock jumped) := by
  obtain ⟨hframe, hkept⟩ := s.matchShown_step n clock jumped
  obtain ⟨-, -, -, hstepped, hrest⟩ := (s.matchShown n clock jumped).autoStep_spec n clock
  have hauto : CmpStep (matchRegs n) s ((s.matchShown n clock jumped).autoStep n clock) := by
    refine ⟨?_, fun a ha => ?_⟩
    · generalize (s.matchShown n clock jumped).autoStep n clock = t at hrest
      generalize t.regs = r at hrest
      rw [hrest, hframe]
    · obtain ⟨hc, hst, hv, hg, -⟩ : a ≠ Reg.CMP_CTRL n ∧ a ≠ Reg.CMP_STATUS n ∧ a ≠ Reg.CMP_VALUE n ∧ a ≠ Reg.CMP_MATCH_GT n ∧
        a ≠ Reg.CMP_PROJ n := by simpa [matchRegs] using ha
      rw [hstepped a (by simp [hv, hst]), hkept a (by simp [hc, hg, hst])]
  exact hauto.wr (by simp [matchRegs])

/-- The settled compare is projected last, which changes CMP_PROJ only. -/
theorem State.matchSettled_stepped (s : State) (n clock : Nat) (jumped : Bool) {a : Nat} (h : Reg.CMP_PROJ n ≠ a) :
    (s.matchSettled n clock jumped).rd a = ((s.matchShown n clock jumped).autoStep n clock).rd a := State.rd_wr_ne _ _ h

/-- AUTO_STEP judges the compare as it stood before the match. -/
theorem State.matchShown_autoStep (s : State) (n clock : Nat) (jumped : Bool) :
    ((s.matchShown n clock jumped).autoStep n clock).rd (Reg.CMP_VALUE n) =
      if s.rb (Reg.CMP_CTRL n) 4 = true ∧ (s.cmp n).writtenAt ≠ some clock then
        steppedValue (s.cmpBind n) (s.rd (Reg.CMP_VALUE n)) (s.rd (Reg.CMP_STEP n)) else s.rd (Reg.CMP_VALUE n) := by
  obtain ⟨hctrl, hbind⟩ := s.matchShown_ctrl n clock jumped
  obtain ⟨-, hkept⟩ := s.matchShown_step n clock jumped
  have h4 : (s.matchShown n clock jumped).rb (Reg.CMP_CTRL n) 4 = s.rb (Reg.CMP_CTRL n) 4 := (hctrl 4).trans (if_neg (by simp))
  have hvalue : (s.matchShown n clock jumped).rd (Reg.CMP_VALUE n) = s.rd (Reg.CMP_VALUE n) := hkept _ (by
    simp only [List.mem_cons, List.not_mem_nil, or_false, Reg.CMP_VALUE, Reg.CMP_CTRL, Reg.CMP_MATCH_GT, Reg.CMP_STATUS]
    omega)
  have hstep : (s.matchShown n clock jumped).rd (Reg.CMP_STEP n) = s.rd (Reg.CMP_STEP n) := hkept _ (by
    simp only [List.mem_cons, List.not_mem_nil, or_false, Reg.CMP_STEP, Reg.CMP_CTRL, Reg.CMP_MATCH_GT, Reg.CMP_STATUS]
    omega)
  rw [((s.matchShown n clock jumped).autoStep_spec n clock).1, h4, s.matchShown_cmp, hbind, hvalue, hstep]

/-- A match of an armed compare. -/
theorem State.matchSettled_spec (harm : s.rb (Reg.CMP_CTRL n) 0 = true) : Matched n clock jumped s (s.matchSettled n clock jumped) := by
  have hshown {a : Nat} (h : Reg.CMP_CTRL n ≠ a) := s.rd_matchShown_ne n clock jumped h
  have hst := hshown (a := Reg.CMP_STATUS n) (by unfold Reg.CMP_CTRL Reg.CMP_STATUS; omega)
  have hgt := (hshown (a := Reg.CMP_MATCH_GT n) (by unfold Reg.CMP_CTRL Reg.CMP_MATCH_GT; omega)).trans (s.matchCounted_gt n clock jumped)
  obtain ⟨hmatched, hcount, hjumped⟩ := s.matchCounted_status n clock jumped
  obtain ⟨hctrl, -⟩ := s.matchShown_ctrl n clock jumped
  obtain ⟨-, hbits, hfield, hkept, hrest⟩ := (s.matchShown n clock jumped).autoStep_spec n clock
  have hset {a : Nat} (h : Reg.CMP_PROJ n ≠ a) := s.matchSettled_stepped n clock jumped h
  have hset_st := hset (Reg.cmp_proj_ne_status n)
  refine ⟨?_, ?_, ?_, ?_, ?_, ?_, ?_⟩
  · rw [hset (by unfold Reg.CMP_PROJ Reg.CMP_MATCH_GT; omega), hkept _ (by
      simp only [List.mem_cons, List.not_mem_nil, or_false, Reg.CMP_VALUE, Reg.CMP_MATCH_GT, Reg.CMP_STATUS]
      omega), hgt]
  · rw [State.rb_of_rd hset_st, hbits 0 (by decide), State.rb_of_rd hst, hmatched]
  · rw [State.rf_congr hset_st, hfield, State.rf_congr hst, hcount]
  · rw [State.rb_of_rd hset_st, hbits 1 (by decide), State.rb_of_rd hst, hjumped]
  · rw [State.rb_of_rd (hset (by unfold Reg.CMP_PROJ Reg.CMP_CTRL; omega)), State.rb_of_rd (hkept (Reg.CMP_CTRL n) (by
      simp only [List.mem_cons, List.not_mem_nil, or_false, Reg.CMP_VALUE, Reg.CMP_CTRL, Reg.CMP_STATUS]
      omega)), hctrl 0, harm]
    cases s.rb (Reg.CMP_CTRL n) 3 <;> rfl
  · rw [hset (by unfold Reg.CMP_PROJ Reg.CMP_VALUE; omega), s.matchShown_autoStep]
  · have hcmps : ((s.matchShown n clock jumped).autoStep n clock).cmps = (s.matchShown n clock jumped).cmps := by rw [hrest]
    have hcmp : (s.matchSettled n clock jumped).cmp n = (s.matchShown n clock jumped).cmp n := by
      rw [State.cmp, State.cmp, ← hcmps]
      rfl
    rw [hcmp, s.matchShown_cmp]

end

/-! ### The action of a match on its pin (R67, R70, R73, R75, R77) -/

/-- `t` is `s` but for pins, the contact sheet, the agenda and the registers listed. -/
structure SubmitStep (rs : List Nat) (s t : State) : Prop where
  frame : t = { s with regs := t.regs, agenda := t.agenda, pins := t.pins, sheet := t.sheet }
  kept : s.regsKept t rs

section
variable {rs : List Nat} {s t u : State}

theorem SubmitStep.of_act (h : ActStep rs s t) : SubmitStep rs s t := by
  refine ⟨?_, h.kept⟩
  have hframe := h.frame
  generalize t.regs = r, t.agenda = l, t.pins = x at hframe
  rw [hframe]

theorem SubmitStep.of_agenda (h : AgendaStep s t) : SubmitStep rs s t := .of_act (.of_regs (.of_agenda h))

theorem SubmitStep.refl (s : State) : SubmitStep rs s s := .of_act (.refl s)

theorem SubmitStep.ite {c : Prop} [Decidable c] (h : SubmitStep rs s t) (k : SubmitStep rs s u) :
    SubmitStep rs s (if c then t else u) := by
  split <;> assumption

theorem SubmitStep.denyPin (s : State) {p : Nat} (hp : p < 512) (addr : Nat) : SubmitStep (pinShown p) s (s.denyPin p addr) := by
  obtain ⟨-, -, hframe, hkept⟩ := s.denyPin_spec hp addr
  refine ⟨?_, hkept⟩
  generalize s.denyPin p addr = t at hframe
  generalize t.regs = r, t.agenda = l, t.sheet = x at hframe
  rw [hframe]

/-- An action submitted to a pin is dropped, denied, put to the gate, or arrives. -/
theorem SubmitStep.pinSubmit (s : State) {p : Nat} (hp : p < 512) (a : PinAct) (eid : Nat) (phase : Bool) (tag late : Nat) :
    SubmitStep (pinShown p) s (s.pinSubmit p a eid phase tag late) := by
  have hflag (i : Nat) : SubmitStep (pinShown p) s (s.wb (Reg.PIN_STATUS p) i true) :=
    .of_act (.of_regs ((RegStep.refl s).wb (pin_status_mem p)))
  have harrive : SubmitStep (pinShown p) s (s.pinArrive p a late) := .of_act (.of_pins (.pinArrive s p a late))
  exact .ite (hflag 5) (.ite (.denyPin s hp 0) (.ite (.refl s) (.ite harrive (.ite harrive (.ite (.of_agenda (.send s _ _)) (hflag 4))))))

end

theorem fld_lt (v hi lo : Nat) : fld v hi lo < 2 ^ (hi - lo + 1) := Nat.mod_lt _ (by positivity)

/-- The pin action of a match touches the pin that CMP_ACTION names. -/
theorem State.matchPin_step (s : State) (n : Nat) (jumped : Bool) (tag : Nat) :
    SubmitStep (pinShown (fld (s.rd (Reg.CMP_ACTION n)) 16 8)) s (s.matchPin n jumped tag) := by
  unfold State.matchPin
  dsimp only
  split
  · exact .ite (.refl s) (.pinSubmit s (fld_lt _ _ _) _ _ _ _ _)
  · exact .refl s

/-- The other actions of a match wait in the agenda. -/
theorem State.matchOthers_agenda (s : State) (n : Nat) : AgendaStep s (s.matchOthers n) := by
  unfold State.matchOthers
  extract_lets act link s1 s2 s3
  have h1 : AgendaStep s s1 := .ite (.send _ _ _) (.refl _)
  have h2 : AgendaStep s s2 := .ite (h1.trans (.send _ _ _)) h1
  have hsource : AgendaStep s2 (s2.sourceAfter 10 (cmpSource n)) := .ite (.send _ _ _) (.refl _)
  have h3 : AgendaStep s s3 := .ite (h2.trans hsource) h2
  exact .ite h3 (h3.trans (.send _ _ _))

/-! ### The match (R63, R65, R502) -/

/-- The state in which a match has acted on its pin. -/
def State.matchActed (s : State) (n clock : Nat) (jumped : Bool) : State := (s.matchSettled n clock jumped).matchPin n jumped
  (if s.cmpBind n < 16 then s.rd (Reg.CMP_VALUE n) % 2 ^ 48 else s.rd (Reg.CMP_VALUE n))

/-- After the pin's action a match changes the agenda, or the interrupts held while REFCLK is stopped. -/
theorem State.matchCmp_acted (s : State) (n clock : Nat) (jumped : Bool) : ∃ l m,
    s.matchCmp n clock jumped = { s.matchActed n clock jumped with agenda := l, modes := m } := by
  have hdo : s.matchCmp n clock jumped = if s.modes.refclk ∨ s.cmpBind n ≥ 16 then (s.matchActed n clock jumped).matchOthers n
      else if s.rb (Reg.CMP_ACTION n) 4 then { s.matchActed n clock jumped with modes :=
        { (s.matchActed n clock jumped).modes with heldIrqs := (s.matchActed n clock jumped).modes.heldIrqs ++ [n] } }
      else s.matchActed n clock jumped := rfl
  have hothers := (s.matchActed n clock jumped).matchOthers_agenda n
  rw [hdo]
  split
  · exact ⟨_, _, hothers⟩
  · split
    · exact ⟨_, _, rfl⟩
    · exact ⟨_, _, rfl⟩

/-- What the match of an armed compare leaves. -/
theorem State.matchCmp_spec {s t : State} {n clock : Nat} {jumped : Bool} (hn : n < 1024) (harm : s.rb (Reg.CMP_CTRL n) 0 = true)
    (ht : t = s.matchCmp n clock jumped) : Matched n clock jumped s t ∧
      t = { s with regs := t.regs, agenda := t.agenda, cmps := t.cmps, pins := t.pins, sheet := t.sheet, modes := t.modes } ∧
      s.regsKept t (matchRegs n ++ pinShown (fld (s.rd (Reg.CMP_ACTION n)) 16 8)) := by
  have hmatched : Matched n clock jumped s (s.matchSettled n clock jumped) := State.matchSettled_spec harm
  obtain ⟨hsettled, hkept⟩ := s.matchSettled_step n clock jumped
  obtain ⟨hpin, hpins⟩ := (s.matchSettled n clock jumped).matchPin_step n jumped
    (if s.cmpBind n < 16 then s.rd (Reg.CMP_VALUE n) % 2 ^ 48 else s.rd (Reg.CMP_VALUE n))
  obtain ⟨l, m, hacted⟩ := s.matchCmp_acted n clock jumped
  rw [← ht, State.matchActed] at hacted
  generalize s.matchSettled n clock jumped = u at *
  generalize u.matchPin n jumped (if s.cmpBind n < 16 then s.rd (Reg.CMP_VALUE n) % 2 ^ 48 else s.rd (Reg.CMP_VALUE n)) = w at *
  have haction : u.rd (Reg.CMP_ACTION n) = s.rd (Reg.CMP_ACTION n) := hkept _ (by
    simp only [matchRegs, List.mem_cons, List.not_mem_nil, or_false, Reg.CMP_ACTION, Reg.CMP_CTRL, Reg.CMP_STATUS, Reg.CMP_VALUE,
      Reg.CMP_MATCH_GT, Reg.CMP_PROJ]
    omega)
  rw [haction] at hpins
  have hrd (a : Nat) : t.rd a = w.rd a := State.rd_congr (by rw [hacted]) a
  have hp : fld (s.rd (Reg.CMP_ACTION n)) 16 8 < 512 := fld_lt _ _ _
  generalize fld (s.rd (Reg.CMP_ACTION n)) 16 8 = p at hp hpins
  have hown : ∀ a ∈ matchRegs n, a ∉ pinShown p := by
    simp only [matchRegs, pinShown, List.mem_cons, List.not_mem_nil, or_false, Reg.CMP_CTRL, Reg.CMP_STATUS, Reg.CMP_VALUE,
      Reg.CMP_MATCH_GT, Reg.CMP_PROJ, Reg.PIN_STATUS, Reg.IRT_SRC_CFG]
    omega
  refine ⟨hmatched.of_same (fun a ha => (hrd a).trans (hpins a (hown a ha))) (by rw [hacted, hpin]), ?_, fun a ha => ?_⟩
  · rw [hacted]
    generalize w.regs = x1, w.agenda = x2, w.pins = x3, w.sheet = x4 at hpin
    rw [hpin, hsettled]
  · rw [List.mem_append, not_or] at ha
    rw [hrd, hpins a ha.2, hkept a ha.1]

/-- Settles O8, from what a match leaves of its compare and of its pin. -/
theorem compareMatch : Obligations.Compare_match := by
  unfold Obligations.Compare_match
  intro s n m jumped clock hfind ctrl st v step p
  have hexec : exec (.compareMatch n) s = execCompareMatch n s := rfl
  rw [execCompareMatch, hfind] at hexec
  refine ⟨fun hdrop => ?_, fun harm hfirst => ?_⟩
  · rw [hexec]
    refine if_neg fun h => ?_
    rcases hdrop with hoff | hdone
    · exact Bool.false_ne_true (hoff.symm.trans h.1)
    · exact h.2 hdone
  · generalize hs1 : ({ s with crossed := s.crossed.filter (fun e => e.1 ≠ n.val) } : State) = s1
    have hgo : exec (.compareMatch n) s = .next (s1.matchCmp n.val clock jumped) := by
      rw [hexec, ← hs1]
      exact if_pos ⟨harm, hfirst⟩
    have harm1 : s1.rb (Reg.CMP_CTRL n.val) 0 = true := by rw [← hs1]; exact harm
    obtain ⟨hmatched, hframe, hkept⟩ := State.matchCmp_spec n.isLt harm1 rfl
    generalize s1.matchCmp n.val clock jumped = t at hgo hmatched hframe hkept
    subst hs1
    refine ⟨t, hgo, hmatched.gt, hmatched.matched, hmatched.count, hmatched.jumped, hmatched.arm, hmatched.noted, hmatched.value,
      ?_, ?_, hkept⟩
    · rw [hframe]
    · generalize t.regs = x1, t.agenda = x2, t.cmps = x3, t.pins = x4, t.sheet = x5, t.modes = x6 at hframe
      rw [hframe]

end Sys2Proof.Machine
end

section
/-!
PROOF. Phase cores: a core that is put back into the state, what its readers then see, and what the operations that stop a core, fault
it or make it enter preemption leave of it and of the registers (R121, R122, R128, R129).
-/
namespace Sys2Proof.Machine

/-! ### A table that is written twice -/

section
variable {α : Type}

theorem tabErase_tabErase (t : Tab α) (i : Nat) : tabErase (tabErase t i) i = tabErase t i := by
  simp [tabErase, List.filter_filter]

theorem tabErase_tabInsert (t : Tab α) (i : Nat) (v : α) : tabErase (tabInsert i v t) i = tabErase t i := by
  induction t with
  | nil => simp [tabInsert, tabErase]
  | cons e t ih =>
    unfold tabInsert
    split
    · simp [tabErase]
    · rw [tabErase, List.filter_cons, ← tabErase, ih, tabErase, tabErase, List.filter_cons]

/-- The second of two writes under a key is the one that stands. -/
theorem tabSet_tabSet [DecidableEq α] (d : α) (t : Tab α) (i : Nat) (v w : α) : tabSet d (tabSet d t i v) i w = tabSet d t i w := by
  have herase : tabErase (tabSet d t i v) i = tabErase t i := by
    rw [tabSet]
    split
    · exact tabErase_tabErase t i
    · rw [tabErase_tabInsert, tabErase_tabErase]
  rw [tabSet, herase, tabSet]

theorem mem_of_tabFind {t : Tab α} {i : Nat} {v : α} (h : tabFind t i = some v) : (i, v) ∈ t := by
  induction t with
  | nil => cases h
  | cons e t ih =>
    obtain ⟨k, x⟩ := e
    rw [tabFind] at h
    split at h
    · next hk =>
      cases h
      exact hk ▸ List.mem_cons_self
    · exact List.mem_cons_of_mem _ (ih h)

/-- An entry of a table after a write is the one written, or was there before. -/
theorem mem_tabSet [DecidableEq α] {d : α} {t : Tab α} {i : Nat} {v : α} {e : Nat × α} (h : e ∈ tabSet d t i v) :
    e = (i, v) ∨ e ∈ t := by
  rw [tabSet] at h
  split at h
  · exact .inr (List.mem_filter.mp h).1
  · exact (tabInsert_mem i v _ e h).imp_right fun h => (List.mem_filter.mp h).1

end

/-! ### A core that is put back -/

section
variable (s : State) (n : Nat) (c : PCore)

@[simp] theorem State.setPcore_setPcore (d : PCore) : (s.setPcore n c).setPcore n d = s.setPcore n d := by
  simp only [State.setPcore, tabSet_tabSet]

@[simp] theorem State.setPcore_rb (a i : Nat) : (s.setPcore n c).rb a i = s.rb a i := rfl
@[simp] theorem State.setPcore_rf (a hi lo : Nat) : (s.setPcore n c).rf a hi lo = s.rf a hi lo := rfl
@[simp] theorem State.setPcore_pcState (m : Nat) : (s.setPcore n c).pcState m = s.pcState m := rfl

@[simp] theorem State.setPcore_preg (r : PReg) : (s.setPcore n c).preg n r = tabGet 0 c.p r.toNat := by
  rw [State.preg, State.setPcore_pcore_same]

@[simp] theorem State.setPcore_pacc (a : AccId) : (s.setPcore n c).pacc n a = if a then c.acc1 else c.acc0 := by
  rw [State.pacc, State.setPcore_pcore_same]

@[simp] theorem State.setPcore_setPreg (r : PReg) (v : Word32) :
    (s.setPcore n c).setPreg n r v = s.setPcore n { c with p := tabSet 0 c.p r.toNat v } := by
  rw [State.setPreg, State.setPcore_pcore_same, State.setPcore_setPcore]

@[simp] theorem State.setPcore_setPacc (a : AccId) (v : Word64) :
    (s.setPcore n c).setPacc n a v = s.setPcore n (if a then { c with acc1 := v } else { c with acc0 := v }) := by
  rw [State.setPacc, State.setPcore_pcore_same, State.setPcore_setPcore]

/-- A pair is its two registers (R106). -/
@[simp] theorem State.setPcore_setPpair (r : PReg) (v : Word64) : (s.setPcore n c).setPpair n r v =
    s.setPcore n { c with p := tabSet 0 (tabSet 0 c.p r.toNat (v.setWidth 32)) (r + 1).toNat ((v >>> 32).setWidth 32) } := by
  rw [State.setPpair, State.setPcore_setPreg, State.setPcore_setPreg]

end

/-! ### States that differ in one core and in registers -/

/-- `t` is `s` but for phase core n and the registers listed. -/
structure PcStep (n : Nat) (rs : List Nat) (s t : State) : Prop where
  frame : t = { s with pcores := t.pcores, regs := t.regs }
  others : ∀ k, k ≠ n → t.pcore k = s.pcore k
  kept : s.regsKept t rs

section
variable {n : Nat} {rs qs : List Nat} {s t u : State}

theorem PcStep.refl (s : State) : PcStep n rs s s := ⟨rfl, fun _ _ => rfl, fun _ _ => rfl⟩

theorem PcStep.trans (h : PcStep n rs s t) (k : PcStep n rs t u) : PcStep n rs s u := by
  refine ⟨?_, fun m hm => (k.others m hm).trans (h.others m hm), h.kept.trans k.kept⟩
  have hk := k.frame
  generalize u.regs = r, u.pcores = l at hk ⊢
  rw [hk, h.frame]

theorem PcStep.setPcore (s : State) (n : Nat) (c : PCore) : PcStep n rs s (s.setPcore n c) :=
  ⟨rfl, fun k hk => s.setPcore_pcore_ne n c k hk.symm, fun _ _ => rfl⟩

theorem PcStep.wr (s : State) {a : Nat} (v : Nat) (ha : a ∈ rs) : PcStep n rs s (s.wr a v) :=
  ⟨rfl, fun _ _ => rfl, State.regsKept.wr (fun _ _ => rfl) ha⟩

theorem PcStep.wf (s : State) {a : Nat} (hi lo v : Nat) (ha : a ∈ rs) : PcStep n rs s (s.wf a hi lo v) := .wr s _ ha

theorem PcStep.wb (s : State) {a : Nat} (i : Nat) (b : Bool) (ha : a ∈ rs) : PcStep n rs s (s.wb a i b) := .wr s _ ha

theorem PcStep.ite {c : Prop} [Decidable c] (h : PcStep n rs s t) (k : PcStep n rs s u) : PcStep n rs s (if c then t else u) := by
  split <;> assumption

theorem PcStep.weaken (h : PcStep n rs s t) (hsub : ∀ a ∈ rs, a ∈ qs) : PcStep n qs s t :=
  ⟨h.frame, h.others, fun a ha => h.kept a fun hr => ha (hsub a hr)⟩

theorem PcStep.clk (h : PcStep n rs s t) : t.clk = s.clk := by rw [h.frame]
theorem PcStep.mem (h : PcStep n rs s t) : t.mem = s.mem := by rw [h.frame]

theorem PcStep.rb (h : PcStep n rs s t) {a : Nat} (ha : a ∉ rs) (i : Nat) : t.rb a i = s.rb a i := State.rb_of_rd (h.kept a ha) i
theorem PcStep.rf (h : PcStep n rs s t) {a : Nat} (ha : a ∉ rs) (hi lo : Nat) : t.rf a hi lo = s.rf a hi lo := State.rf_congr (h.kept a ha) hi lo

end

/-! ### A core that runs, stops or abandons its instruction -/

/-- The clocks spent RUNNING are counted up to a change of STATE (R132). -/
def PCore.clocked (c : PCore) (clk st : Nat) : PCore :=
  { c with
    cycles := c.cycles + (match c.since with | some t => clk - t | none => 0)
    since := if st = 1 then some clk else none }

/-- A pending change of timing mode is committed (R115). -/
def PCore.committed (c : PCore) : PCore :=
  match c.flatNext with
  | some (_, m) => { c with flat := m, flatNext := none }
  | none => c

/-- What a core is once the instruction that R122 abandons, if one is in progress, is undone, and a sleeping WAITEV has ended. -/
def PCore.abandoned (c : PCore) (clk : Nat) : PCore :=
  match c.long with
  | some l =>
    if clk < l.until_ then
      { c with pc := l.pc, lcnt := l.lcnt, busy := clk, long := none, sleep := none, p := tabSet 0 c.p l.rd.toNat l.old }
    else { c with long := none, sleep := none }
  | none => { c with sleep := none }

theorem PCore.committed_none {c : PCore} (h : c.flatNext = none) : c.committed = c := by rw [PCore.committed, h]

theorem PCore.committed_eq (c : PCore) : c.committed = { c with flat := c.committed.flat, flatNext := none } := by
  unfold PCore.committed
  split
  · rfl
  · next h => rw [← h]

theorem PCore.abandoned_none {c : PCore} (clk : Nat) (h : c.long = none) : c.abandoned clk = { c with sleep := none } := by
  rw [PCore.abandoned, h]

theorem PCore.abandoned_some {c : PCore} {clk : Nat} {l : PcLong} (h : c.long = some l) (hu : clk < l.until_) : c.abandoned clk =
    { c with pc := l.pc, lcnt := l.lcnt, busy := clk, long := none, sleep := none, p := tabSet 0 c.p l.rd.toNat l.old } := by
  simp only [PCore.abandoned, h, if_pos hu]

/-- Abandoning an instruction leaves what the instruction did not write. -/
theorem PCore.abandoned_eq (c : PCore) (clk : Nat) : ∃ pc lcnt busy p, c.abandoned clk =
    { c with pc := pc, lcnt := lcnt, busy := busy, p := p, long := none, sleep := none } := by
  unfold PCore.abandoned
  split
  · split
    · exact ⟨_, _, _, _, rfl⟩
    · exact ⟨_, _, _, _, rfl⟩
  · next h => exact ⟨c.pc, c.lcnt, c.busy, c.p, by rw [h]⟩

section
variable (s : State) (n : Nat)

theorem State.setPcState_eq (st : Nat) :
    s.setPcState n st = (s.setPcore n ((s.pcore n).clocked s.clk st)).wf (Reg.PCC_STATUS n) 2 0 st := rfl

@[simp] theorem State.setPcState_pcore (st : Nat) : (s.setPcState n st).pcore n = (s.pcore n).clocked s.clk st := by
  rw [State.setPcState_eq, State.wf_pcore_at, State.setPcore_pcore_same]

theorem State.setPcState_pcState {st : Nat} (h : st < 8) : (s.setPcState n st).pcState n = st := by
  rw [State.pcState, State.setPcState_eq, State.rf_wf_same _ _ _ _ _ (by decide) (by decide)]
  exact Nat.mod_eq_of_lt h

/-- The bits of PCC_STATUS beside STATE. -/
theorem State.rb_setPcState (st : Nat) {i : Nat} (h : 3 ≤ i) : (s.setPcState n st).rb (Reg.PCC_STATUS n) i = s.rb (Reg.PCC_STATUS n) i := by
  rw [State.setPcState_eq, State.rb_wf_out _ _ (by decide) (by decide) (.inr h), State.setPcore_rb]

theorem PcStep.setPcState (st : Nat) : PcStep n [Reg.PCC_STATUS n] s (s.setPcState n st) :=
  (PcStep.setPcore s n _).trans (.wf _ 2 0 st List.mem_cons_self)

/-- A bit of PCC_STATUS above STATE that is written leaves STATE. -/
theorem State.pcState_wb {i : Nat} (b : Bool) (hi : 3 ≤ i) (h64 : i < 64) : (s.wb (Reg.PCC_STATUS n) i b).pcState n = s.pcState n :=
  s.rf_wb_out b h64 (.inr hi) (by decide)

theorem State.commitMode_none (h : (s.pcore n).flatNext = none) : s.commitMode n = s := by
  rw [State.commitMode]
  simp only [h]

@[simp] theorem State.commitMode_pcore : (s.commitMode n).pcore n = (s.pcore n).committed := by
  rcases h : (s.pcore n).flatNext with _ | ⟨k, m⟩
  · rw [s.commitMode_none n h, PCore.committed_none h]
  · simp only [State.commitMode, PCore.committed, h, State.setPcore_pcore_same]

theorem PcStep.commitMode {rs : List Nat} : PcStep n rs s (s.commitMode n) := by
  unfold State.commitMode
  dsimp only
  split
  · exact .setPcore s n _
  · exact .refl s

theorem State.abandon_eq : s.abandon n = s.setPcore n ((s.pcore n).abandoned s.clk) := by
  rcases h : (s.pcore n).long with _ | l
  · simp only [State.abandon, PCore.abandoned, h]
  · simp only [State.abandon, PCore.abandoned, h]
    split
    · rw [State.setPcore_setPreg]
    · rfl

end

/-! ### Sources of the phase cores (R128) -/

theorem sourceReserved_pcSource {n : Nat} (h : n < 256) : sourceReserved (pcSource n) = false := by
  simp only [sourceReserved, pcSource, Bool.or_eq_false_iff]
  refine ⟨⟨⟨decide_eq_false ?_, decide_eq_false ?_⟩, decide_eq_false ?_⟩, decide_eq_false ?_⟩ <;> omega

end Sys2Proof.Machine
end

section
/-!
PROOF. What surrounds every instruction of a phase core (O16): the fetch and the checks before it, the ways in which it ends, and what a
fault, a stop and an entry to preemption leave (R103, R113, R121, R122, R128).
-/
namespace Sys2Proof.Machine

/-! ### Faults (R128) -/

section
variable (s : State) (n : Nat) (cause : PcFault) (addr : Nat)

/-- The state in which a fault shows in the core's registers. -/
def State.pcFaultShown (s : State) (n : Nat) (cause : PcFault) (addr : Nat) : State :=
  let s1 := (s.commitMode n).setPcState n 3
  let s2 := s1.setPcore n { s1.pcore n with wait := none, long := none, sleep := none, stopping := false, stepping := false }
  (s2.wr (Reg.PCC_FAULT n) cause.code).wr (Reg.PCC_FAULT_ADDR n) (addr % 2 ^ 32)

/-- The state in which a fault has been reported. -/
def State.pcFaultLogged (s : State) (n : Nat) (cause : PcFault) (addr phys : Nat) : State :=
  let s3 := s.pcFaultShown n cause addr
  if cause = .poison then s3.log .poisonUse (s.unitPc n) phys else s3

theorem State.pcFault_eq (phys : Nat) : s.pcFault n cause addr phys =
    if s.rb (Reg.PCC_CTRL n) 3 then (s.pcFaultLogged n cause addr phys).source (pcSource n) else s.pcFaultLogged n cause addr phys := rfl

theorem State.pcFaultShown_step :
    PcStep n [Reg.PCC_STATUS n, Reg.PCC_FAULT n, Reg.PCC_FAULT_ADDR n] s (s.pcFaultShown n cause addr) :=
  (((PcStep.commitMode s n).trans ((PcStep.setPcState _ n 3).weaken (by simp))).trans (.setPcore _ n _)).trans
    ((PcStep.wr _ _ (by simp)).trans (.wr _ _ (by simp)))

theorem State.pcFaultShown_status : (s.pcFaultShown n cause addr).pcState n = 3 := by
  have h1 : Reg.PCC_FAULT_ADDR n ≠ Reg.PCC_STATUS n := by unfold Reg.PCC_FAULT_ADDR Reg.PCC_STATUS; omega
  have h2 : Reg.PCC_FAULT n ≠ Reg.PCC_STATUS n := by unfold Reg.PCC_FAULT Reg.PCC_STATUS; omega
  rw [State.pcFaultShown, State.pcState, State.rf_wr_ne _ _ h1, State.rf_wr_ne _ _ h2, State.setPcore_rf]
  exact State.setPcState_pcState _ n (by decide)

theorem State.pcFaultShown_cause : (s.pcFaultShown n cause addr).rd (Reg.PCC_FAULT n) = cause.code := by
  have h1 : Reg.PCC_FAULT_ADDR n ≠ Reg.PCC_FAULT n := by unfold Reg.PCC_FAULT_ADDR Reg.PCC_FAULT; omega
  rw [State.pcFaultShown, State.rd_wr_ne _ _ h1, State.rd_wr_same]
  cases cause <;> rfl

theorem State.pcFaultShown_addr : (s.pcFaultShown n cause addr).rd (Reg.PCC_FAULT_ADDR n) = addr % 2 ^ 32 := by
  rw [State.pcFaultShown, State.rd_wr_same]
  omega

theorem State.pcFaultShown_pcore : (s.pcFaultShown n cause addr).pcore n =
    { ((s.pcore n).committed.clocked s.clk 3) with wait := none, long := none, sleep := none, stopping := false, stepping := false } := by
  simp only [State.pcFaultShown, State.wr_pcore_at, State.setPcore_pcore_same, State.setPcState_pcore, State.commitMode_pcore,
    (PcStep.commitMode (rs := []) s n).clk]

/-- The report of a fault changes the contact sheet and the agenda only. -/
theorem State.pcFaultLogged_eq (phys : Nat) : let t := s.pcFaultLogged n cause addr phys
    t = { s.pcFaultShown n cause addr with sheet := t.sheet, agenda := t.agenda } := by
  intro t
  simp only [t, State.pcFaultLogged]
  split
  · exact State.log_eq ..
  · rfl

end

/-- The registers, the cores and memory are what remains of a fault once it has been reported and raised. -/
theorem State.pcFault_shown (s : State) (n : Nat) (cause : PcFault) (addr phys : Nat) :
    let t := s.pcFault n cause addr phys
    let u := s.pcFaultShown n cause addr
    t.pcores = u.pcores ∧ t.mem = u.mem ∧ u.regsKept t [Reg.IRT_SRC_CFG (pcSource n)] := by
  intro t u
  have hlog := s.pcFaultLogged_eq n cause addr phys
  have hstep : RegStep [Reg.IRT_SRC_CFG (pcSource n)] (s.pcFaultLogged n cause addr phys) t :=
    .ite (.source (.refl _) List.mem_cons_self) (.refl _)
  generalize s.pcFaultLogged n cause addr phys = v at hlog hstep
  have hregs : v.regs = u.regs := by rw [hlog]
  refine ⟨?_, ?_, fun a ha => (hstep.kept a ha).trans (State.rd_congr hregs a)⟩
  · rw [hstep.frame, hlog]
  · rw [hstep.frame, hlog]

/-- A register of a phase core is none of the router's. -/
theorem Reg.pcc_ne_irt {a n m : Nat} (hn : n < 256) (ha : a < 0x11000000 + n * 0x1000 + 0x1000) : a ≠ Reg.IRT_SRC_CFG m := by
  unfold Reg.IRT_SRC_CFG
  omega

/-! ### The start of an instruction -/

/-- The state in which an instruction of core n starts: nothing remains of one that R122 could abandon. -/
def State.pcStarted (s : State) (n : Nat) : State := s.setPcore n { s.pcore n with long := none }

@[simp] theorem State.pcStarted_pcore (s : State) (n : Nat) : (s.pcStarted n).pcore n = { s.pcore n with long := none } :=
  s.setPcore_pcore_same n _

/-- What a fault of an instruction leaves (R128). -/
theorem State.pcFaults_started {s : State} {n : Nat} (hn : n < 256) {i : Instr} {cause : PcFault} {addr phys : Nat}
    (hx : exec i s = .next ((s.pcStarted n).pcFault n cause addr phys)) : s.pcFaults n i cause.code (addr % 2 ^ 32) := by
  have hshown := (s.pcStarted n).pcFaultShown_step n cause addr
  have hcore := (s.pcStarted n).pcFaultShown_pcore n cause addr
  have hstate := (s.pcStarted n).pcFaultShown_status n cause addr
  have hcause := (s.pcStarted n).pcFaultShown_cause n cause addr
  have haddr := (s.pcStarted n).pcFaultShown_addr n cause addr
  obtain ⟨hcores, hmem, hkept⟩ := (s.pcStarted n).pcFault_shown n cause addr phys
  have hraised (hie : s.rb (Reg.PCC_CTRL n) 3 = true) :
      ((s.pcStarted n).pcFault n cause addr phys).rb (Reg.IRT_SRC_CFG (pcSource n)) 2 = true := by
    rw [State.pcFault_eq, if_pos (show (s.pcStarted n).rb (Reg.PCC_CTRL n) 3 = true from hie)]
    exact State.rb_source_pending _ (sourceReserved_pcSource hn)
  have hpcc (a : Nat) (ha : a < 0x11000000 + n * 0x1000 + 0x1000) : a ∉ [Reg.IRT_SRC_CFG (pcSource n)] := by
    simpa using Reg.pcc_ne_irt hn ha
  rw [State.pcStarted_pcore, PCore.committed_eq] at hcore
  generalize (s.pcStarted n).pcFault n cause addr phys = t at *
  generalize (s.pcStarted n).pcFaultShown n cause addr = u at *
  have htcore : t.pcore n = u.pcore n := by rw [State.pcore, hcores, State.pcore]
  refine ⟨t, hx, ?_, ?_, ?_, ?_, ?_, ?_, ?_, hmem.trans hshown.mem, hraised, fun a ha => ?_⟩
  · rw [State.pcState, State.rf_congr (hkept _ (hpcc _ (by unfold Reg.PCC_STATUS; omega)))]
    exact hstate
  · rw [hkept _ (hpcc _ (by unfold Reg.PCC_FAULT; omega)), hcause]
  · rw [hkept _ (hpcc _ (by unfold Reg.PCC_FAULT_ADDR; omega)), haddr]
  · rw [htcore, hcore]; rfl
  · rw [htcore, hcore]; rfl
  · rw [htcore, hcore]; rfl
  · rw [htcore, hcore]; rfl
  · simp only [List.mem_cons, List.not_mem_nil, or_false, not_or] at ha
    obtain ⟨h1, h2, h3, h4⟩ := ha
    rw [hkept a (by simpa using h4), hshown.kept a (by simp [h1, h2, h3])]
    rfl

/-- A fault at an address of 32 bits. -/
theorem State.pcFaults_at {s : State} {n : Nat} (hn : n < 256) {i : Instr} {cause : PcFault} {addr phys : Nat}
    (hx : exec i s = .next ((s.pcStarted n).pcFault n cause addr phys)) (ha : addr < 2 ^ 32) : s.pcFaults n i cause.code addr := by
  have h := State.pcFaults_started hn hx
  rwa [Nat.mod_eq_of_lt ha] at h

/-! ### A stop (R122, R129) -/

/-- What a stop that is not a halt by debug leaves of the core. -/
def PCore.stopped (c : PCore) (clk : Nat) : PCore :=
  { (c.abandoned clk).committed.clocked clk 0 with stopping := false, halting := none, stepping := false }

theorem State.pcStopNow_spec {s : State} {n : Nat} (hh : (s.pcore n).halting = none) : let t := s.pcStopNow n
    PcStep n [Reg.PCC_STATUS n] s t ∧ t.pcState n = 0 ∧ t.pcore n = (s.pcore n).stopped s.clk := by
  intro t
  have hclk : ((s.abandon n).commitMode n).clk = s.clk := by
    rw [(PcStep.commitMode (rs := []) (s.abandon n) n).clk, s.abandon_eq]
    rfl
  have ht : t = (((s.abandon n).commitMode n).setPcState n 0).setPcore n ((s.pcore n).stopped s.clk) := by
    have hhalted : (((s.pcore n).abandoned s.clk).committed.clocked s.clk 0).halted = ((s.pcore n).halted || (s.pcore n).halting.isSome) := by
      obtain ⟨pc, lcnt, busy, p, ha⟩ := (s.pcore n).abandoned_eq s.clk
      rw [ha, PCore.committed_eq, hh, Option.isSome_none, Bool.or_false]
      rfl
    simp only [t, State.pcStopNow, State.setPcState_pcore, State.commitMode_pcore, hclk, hh]
    rw [s.abandon_eq, State.setPcore_pcore_same, PCore.stopped]
    rw [hh] at hhalted
    rw [← hhalted]
  rw [ht]
  refine ⟨?_, State.setPcState_pcState _ n (by decide), State.setPcore_pcore_same ..⟩
  rw [s.abandon_eq]
  exact (((PcStep.setPcore s n _).trans (.commitMode _ n)).trans (.setPcState _ n 0)).trans (.setPcore _ n _)

/-! ### Preemption (R121, R122) -/

/-- What an entry to preemption makes of a core whose instruction in progress has been abandoned. -/
def PCore.preempted (c : PCore) (clk : Nat) (vec : Word32) : PCore :=
  { c.clocked clk 1 with
    shadow := { pc := c.pc, ctask := c.ctask, tdl := c.tdl, lcnt := c.lcnt, lbeg := c.lbeg, lend := c.lend, flat := c.flat }
    lcnt := 0, pc := vec, busy := clk + 4 }

theorem State.preempt_step (s : State) (n : Nat) : PcStep n [Reg.PCC_STATUS n, Reg.PCC_PRE_PC n] s (s.preempt n) := by
  have hstart : PcStep n [Reg.PCC_STATUS n, Reg.PCC_PRE_PC n] s ((s.abandon n).commitMode n) := by
    rw [s.abandon_eq]
    exact (PcStep.setPcore s n _).trans (.commitMode _ n)
  exact (((hstart.trans (.setPcore _ n _)).trans (.wr _ _ (by simp))).trans (.wb _ 3 true (by simp))).trans
    ((PcStep.setPcState _ n 1).weaken (by simp))

theorem State.preempt_spec {s : State} {n : Nat} (hf : (s.pcore n).flatNext = none) : let t := s.preempt n
    let c := (s.pcore n).abandoned s.clk
    t.pcState n = 1 ∧ t.rb (Reg.PCC_STATUS n) 3 = true ∧ t.rd (Reg.PCC_PRE_PC n) = c.pc.toNat ∧
      t.pcore n = c.preempted s.clk (BitVec.ofNat 32 (s.rd (Reg.PCC_PRE_VEC n))) := by
  intro t c
  have hne : Reg.PCC_STATUS n ≠ Reg.PCC_PRE_PC n := by unfold Reg.PCC_STATUS Reg.PCC_PRE_PC; omega
  have hc : c.flatNext = none := by
    obtain ⟨pc, lcnt, busy, p, ha⟩ := (s.pcore n).abandoned_eq s.clk
    rw [show c = _ from ha]
    exact hf
  have hcommit : (s.setPcore n c).commitMode n = s.setPcore n c := State.commitMode_none _ n (by rw [State.setPcore_pcore_same, hc])
  have ht : t = (((s.setPcore n { c with
      shadow := { pc := c.pc, ctask := c.ctask, tdl := c.tdl, lcnt := c.lcnt, lbeg := c.lbeg, lend := c.lend, flat := c.flat }
      lcnt := 0, pc := BitVec.ofNat 32 (s.rd (Reg.PCC_PRE_VEC n)), busy := s.clk + 4 }).wr (Reg.PCC_PRE_PC n) c.pc.toNat).wb
      (Reg.PCC_STATUS n) 3 true).setPcState n 1 := by
    simp only [t, State.preempt, s.abandon_eq]
    rw [show (s.pcore n).abandoned s.clk = c from rfl, hcommit, State.setPcore_pcore_same, State.setPcore_setPcore]
  rw [ht]
  refine ⟨State.setPcState_pcState _ n (by decide), ?_, ?_, ?_⟩
  · rw [State.rb_setPcState _ n 1 (by decide), State.rb_wb _ _ _ _ _ _ (by decide)]
    simp
  · rw [(PcStep.setPcState _ n 1).kept _ (by simpa using hne.symm), State.rd_wb_ne _ _ _ hne, State.rd_wr_same]
    have := c.pc.isLt
    omega
  · rw [State.setPcState_pcore, State.wb_pcore_at, State.wr_pcore_at, State.setPcore_pcore_same]
    rfl

/-! ### The checks before an instruction -/

/-- The parts of `pcPlain`. -/
structure State.PlainCore (s : State) (n : Nat) : Prop where
  ready : s.pcReady n = true
  stopping : (s.pcore n).stopping = false
  halting : (s.pcore n).halting = none
  stepping : (s.pcore n).stepping = false
  flatNext : (s.pcore n).flatNext = none
  preempt : s.preemptAsked n = false
  fetch : pcFetchable (s.pcore n).pc = true
  good : s.poisoned (localAddr n (s.pcore n).pc.toNat) = false
  cmp0 : s.rb (Reg.DBG_PCMP_CFG n 0) 0 = false
  cmp1 : s.rb (Reg.DBG_PCMP_CFG n 1) 0 = false

theorem State.PlainCore.of_pcPlain {s : State} {n : Nat} (h : s.pcPlain n = true) : s.PlainCore n := by
  simp only [State.pcPlain, Bool.and_eq_true, Bool.not_eq_true', Option.isNone_iff_eq_none] at h
  obtain ⟨⟨⟨⟨⟨⟨⟨⟨⟨hready, hstop⟩, hhalt⟩, hstep⟩, hflat⟩, hpre⟩, hfetch⟩, hgood⟩, h0⟩, h1⟩ := h
  exact ⟨hready, hstop, hhalt, hstep, hflat, hpre, hfetch, hgood, h0, h1⟩

/-- Comparators that are not enabled match nothing (R545). -/
theorem State.pcCompare_none {s : State} {n : Nat} (h0 : s.rb (Reg.DBG_PCMP_CFG n 0) 0 = false)
    (h1 : s.rb (Reg.DBG_PCMP_CFG n 1) 0 = false) (addr kind : Nat) : s.pcCompare n addr kind = .ok s := by
  rw [State.rb] at h0 h1
  unfold State.pcCompare
  split
  · rfl
  · extract_lets hits s1
    have hnone : hits = [] := by
      simp only [hits, List.filter_cons, List.filter_nil, h0, h1, Bool.false_and, Bool.false_eq_true, if_false]
    simp only [s1, hnone, List.any_nil, List.foldl_nil, Bool.false_eq_true, false_and, if_false]

/-- An instruction that is due at a core that cannot execute has no effect (assumption 9). -/
theorem State.runPc_not_ready {s : State} {n : Nat} (h : s.pcReady n = false) (e : Bool) (op : State → PRes) : s.runPc n e op = s := by
  rw [State.runPc, if_pos (by simp [h])]

section
variable {s : State} {n : Nat} {e : Bool} {op : State → PRes}

/-- Whether the core is asked for preemption is seen from its events, PCC_STATUS and PCC_TASK_CFG. -/
theorem State.preemptAsked_setPcore (s : State) (n : Nat) {c : PCore} (h : c.queues = (s.pcore n).queues) :
    (s.setPcore n c).preemptAsked n = s.preemptAsked n := by
  rw [State.preemptAsked, State.setPcore_pcore_same, h]
  rfl

theorem State.runPc_stops (hr : s.pcReady n = true) (hs : (s.pcore n).stopping = true) :
    s.runPc n e op = (s.pcStarted n).pcStopNow n := by
  rw [State.runPc, if_neg (by simp [hr])]
  exact if_pos (.inl (by rw [← State.pcStarted, State.pcStarted_pcore]; exact hs))

theorem State.runPc_preempts (hr : s.pcReady n = true) (hs : (s.pcore n).stopping = false) (hh : (s.pcore n).halting = none)
    (hp : s.preemptAsked n = true) : s.runPc n e op = (s.pcStarted n).preempt n := by
  rw [State.runPc, if_neg (by simp [hr])]
  have hpre : (s.pcStarted n).preemptAsked n = true := by
    rw [State.pcStarted, State.preemptAsked_setPcore]
    · exact hp
    · rfl
  exact (if_neg (by rw [← State.pcStarted, State.pcStarted_pcore]; simp [hs, hh])).trans (if_pos hpre)

/-- The state in which an instruction that started in `s1` ends, under a timing mode. -/
def State.pcEnded (s1 : State) (n : Nat) (flat : Bool) : PRes → State
  | .next t region fl => t.pcDone n (if flat then fl else region) none
  | .jump t a region fl =>
    if pcFetchable a then t.pcDone n (if flat then fl else region) (some a) else s1.pcFault n .fetch a.toNat
  | .fault t cause addr => t.pcFault n cause addr
  | .done t => t

/-- The fetch, the comparators and the check of R116, in the state in which an instruction starts, and its effect. -/
def State.pcFetched (s1 : State) (n : Nat) (e : Bool) (op : State → PRes) : State :=
  let c := s1.pcore n
  if ¬ pcFetchable c.pc then s1.pcFault n .fetch c.pc.toNat
  else if s1.poisoned (localAddr n c.pc.toNat) then s1.pcFault n .poison c.pc.toNat
  else
    match s1.pcCompare n c.pc.toNat 0 with
    | .error s2 => s2
    | .ok s2 => if e ∧ c.lcnt ≠ 0 ∧ c.pc = c.lend then s2.pcFault n .loop c.pc.toNat else s2.pcEnded n c.flat (op s2)

/-- A core that nothing else is asked of goes on to the fetch. -/
theorem State.runPc_fetches (hr : s.pcReady n = true) (hs : (s.pcore n).stopping = false) (hh : (s.pcore n).halting = none)
    (hp : s.preemptAsked n = false) (hf : (s.pcore n).flatNext = none) : s.runPc n e op = (s.pcStarted n).pcFetched n e op := by
  have hpre : (s.pcStarted n).preemptAsked n = false := by
    rw [State.pcStarted, State.preemptAsked_setPcore]
    · exact hp
    · rfl
  rw [State.runPc, if_neg (by simp [hr]), State.pcFetched]
  extract_lets _ s0 c s1 pc flat
  have hc : c = { s.pcore n with long := none } := s.pcStarted_pcore n
  have hs1 : s1 = s.pcStarted n := by
    simp only [s1, hc, hf]
    rfl
  have hflat : flat = ((s.pcStarted n).pcore n).flat := by simp only [flat, hs1]
  rw [if_neg (by simp [hc, hs, hh]), if_neg (by rw [show s0.preemptAsked n = false from hpre]; decide), hs1, hflat]
  refine if_congr Iff.rfl rfl (if_congr Iff.rfl rfl ?_)
  rw [show pc = ((s.pcStarted n).pcore n).pc.toNat from rfl]
  cases (s.pcStarted n).pcCompare n ((s.pcStarted n).pcore n).pc.toNat 0 with
  | error s2 => rfl
  | ok s2 => exact if_congr Iff.rfl rfl (by cases op s2 <;> rfl)

/-- A core that cannot fetch at its PC faults with FETCH (R103, R128). -/
theorem State.runPc_unfetchable (hr : s.pcReady n = true) (hs : (s.pcore n).stopping = false) (hh : (s.pcore n).halting = none)
    (hp : s.preemptAsked n = false) (hf : (s.pcore n).flatNext = none) (hpc : pcFetchable (s.pcore n).pc = false) :
    s.runPc n e op = (s.pcStarted n).pcFault n .fetch (s.pcore n).pc.toNat := by
  rw [State.runPc_fetches hr hs hh hp hf, State.pcFetched, State.pcStarted_pcore]
  exact if_pos (by simp [hpc])

/-- A core that finds an uncorrectable word at its PC faults with POISON (R128). -/
theorem State.runPc_poisoned (hr : s.pcReady n = true) (hs : (s.pcore n).stopping = false) (hh : (s.pcore n).halting = none)
    (hp : s.preemptAsked n = false) (hf : (s.pcore n).flatNext = none) (hpc : pcFetchable (s.pcore n).pc = true)
    (hbad : s.poisoned (localAddr n (s.pcore n).pc.toNat) = true) :
    s.runPc n e op = (s.pcStarted n).pcFault n .poison (s.pcore n).pc.toNat := by
  rw [State.runPc_fetches hr hs hh hp hf, State.pcFetched, State.pcStarted_pcore]
  exact (if_neg (by simp [hpc])).trans (if_pos hbad)

/-- A core that executes plainly comes to the check of R116 and to the effect. -/
theorem State.PlainCore.runPc_eq (h : s.PlainCore n) : let c := s.pcore n
    s.runPc n e op = if e ∧ c.lcnt ≠ 0 ∧ c.pc = c.lend then (s.pcStarted n).pcFault n .loop c.pc.toNat
      else (s.pcStarted n).pcEnded n c.flat (op (s.pcStarted n)) := by
  intro c
  have hgood : (s.pcStarted n).poisoned (localAddr n c.pc.toNat) = false := h.good
  have hcmp : (s.pcStarted n).pcCompare n c.pc.toNat 0 = .ok (s.pcStarted n) :=
    State.pcCompare_none (s := s.pcStarted n) h.cmp0 h.cmp1 _ 0
  rw [State.runPc_fetches h.ready h.stopping h.halting h.preempt h.flatNext, State.pcFetched, State.pcStarted_pcore]
  refine (if_neg (by simp [h.fetch])).trans ((if_neg (by rw [hgood]; decide)).trans ?_)
  rw [hcmp]

/-- An instruction of a core that executes plainly has its effect, unless it may not end a loop and does (R116). -/
theorem State.runPc_plain (h : s.PlainCore n) (he : e = true → s.pcNotAtEnd n = true) :
    s.runPc n e op = (s.pcStarted n).pcEnded n (s.pcore n).flat (op (s.pcStarted n)) := by
  refine h.runPc_eq.trans (if_neg ?_)
  rintro ⟨he', hlcnt, hpc⟩
  have hn := he he'
  simp only [State.pcNotAtEnd, Bool.or_eq_true, beq_iff_eq, bne_iff_ne, ne_eq] at hn
  exact hn.elim hlcnt fun k => k hpc

theorem State.runPc_next (h : s.PlainCore n) (he : e = true → s.pcNotAtEnd n = true) {t : State} {r f : Nat}
    (hop : op (s.pcStarted n) = .next t r f) : s.runPc n e op = t.pcDone n (if (s.pcore n).flat then f else r) none := by
  rw [State.runPc_plain h he, hop, State.pcEnded]

theorem State.runPc_jump (h : s.PlainCore n) (he : e = true → s.pcNotAtEnd n = true) {t : State} {a : Word32} {r f : Nat}
    (hop : op (s.pcStarted n) = .jump t a r f) (ha : pcFetchable a = true) :
    s.runPc n e op = t.pcDone n (if (s.pcore n).flat then f else r) (some a) := by
  rw [State.runPc_plain h he, hop, State.pcEnded]
  exact if_pos ha

theorem State.runPc_jump_faults (h : s.PlainCore n) (he : e = true → s.pcNotAtEnd n = true) {t : State} {a : Word32} {r f : Nat}
    (hop : op (s.pcStarted n) = .jump t a r f) (ha : pcFetchable a = false) :
    s.runPc n e op = (s.pcStarted n).pcFault n .fetch a.toNat := by
  rw [State.runPc_plain h he, hop, State.pcEnded]
  exact if_neg (by simp [ha])

theorem State.runPc_faults (h : s.PlainCore n) (he : e = true → s.pcNotAtEnd n = true) {t : State} {cause : PcFault} {addr : Nat}
    (hop : op (s.pcStarted n) = .fault t cause addr) : s.runPc n e op = t.pcFault n cause addr := by
  rw [State.runPc_plain h he, hop, State.pcEnded]

theorem State.runPc_done (h : s.PlainCore n) (he : e = true → s.pcNotAtEnd n = true) {t : State}
    (hop : op (s.pcStarted n) = .done t) : s.runPc n e op = t := by
  rw [State.runPc_plain h he, hop, State.pcEnded]

/-- An instruction that may not end a loop that counts faults with LOOP there (R116). -/
theorem State.runPc_at_end (h : s.PlainCore n) (he : s.pcNotAtEnd n = false) :
    s.runPc n true op = (s.pcStarted n).pcFault n .loop (s.pcore n).pc.toNat := by
  refine h.runPc_eq.trans (if_pos ⟨rfl, ?_⟩)
  simpa only [State.pcNotAtEnd, Bool.or_eq_false_iff, beq_eq_false_iff_ne, bne_eq_false_iff_eq] using he

end

/-! ### The end of an instruction (R113, R115, R116) -/

/-- What an instruction that completes leaves of a core: `busy` is the clock at which the next can start. -/
def PCore.done (c : PCore) (busy : Nat) (jump : Option Word32) : PCore :=
  { c with
    pc := (c.follow jump).1, lcnt := (c.follow jump).2, busy := busy, wait := none
    flatNext := c.flatNext.map fun x => (x.1 - 1, x.2) }

/-- Nothing is asked of a core that would follow the instruction it is in. -/
structure State.PcQuiet (t : State) (n : Nat) : Prop where
  stepping : (t.pcore n).stepping = false
  stopping : (t.pcore n).stopping = false
  halting : (t.pcore n).halting = none
  preempt : t.preemptAsked n = false

theorem State.pcDone_quiet {t : State} {n : Nat} (h : t.PcQuiet n) (count : Nat) (jump : Option Word32) :
    t.pcDone n count jump = t.setPcore n ((t.pcore n).done (t.clk + count) jump) := by
  change t.pcEnd n count _ _ id = _
  unfold State.pcEnd
  extract_lets c c1 s1 s2
  have hs1 : s1 = t.setPcore n ((t.pcore n).done (t.clk + count) jump) := congrArg (t.setPcore n) (if_neg (by simp [c, h.stepping]))
  have hs2 : s2 = s1 := if_neg (by simp [c, h.stepping, h.stopping, h.halting])
  have hpre : s2.preemptAsked n = false := by
    rw [hs2, hs1, State.preemptAsked_setPcore t n (c := (t.pcore n).done (t.clk + count) jump) rfl]
    exact h.preempt
  rw [if_neg (Bool.eq_false_iff.mp hpre), hs2, hs1]

/-- What of a core may ask for something between its instructions. -/
def PCore.asks (c : PCore) : Tab (List PcEvent) × Bool × Bool × Option Nat := (c.queues, c.stepping, c.stopping, c.halting)

/-- What of a core says where its program goes on. -/
def PCore.place (c : PCore) : Word32 × Word32 × Word32 × Word32 × Option (Nat × Bool) := (c.pc, c.lcnt, c.lbeg, c.lend, c.flatNext)

/-- A core stays quiet while its events and requests stay. -/
theorem State.PlainCore.quiet_of {s t : State} {n : Nat} (h : s.PlainCore n) (ha : (t.pcore n).asks = (s.pcore n).asks)
    (hp : t.preemptAsked n = s.preemptAsked n) : t.PcQuiet n := by
  simp only [PCore.asks, Prod.mk.injEq] at ha
  obtain ⟨-, h1, h2, h3⟩ := ha
  exact ⟨h1.trans h.stepping, h2.trans h.stopping, h3.trans h.halting, hp.trans h.preempt⟩

theorem State.PlainCore.quiet {s : State} {n : Nat} (h : s.PlainCore n) {c : PCore} (ha : c.asks = (s.pcore n).asks) :
    (s.setPcore n c).PcQuiet n := by
  refine h.quiet_of ?_ (s.preemptAsked_setPcore n ?_)
  · rw [State.setPcore_pcore_same, ha]
  · simp only [PCore.asks, Prod.mk.injEq] at ha
    exact ha.1

/-- The core behind an instruction that leaves its place in the program. -/
theorem State.PlainCore.done_eq {s : State} {n : Nat} (h : s.PlainCore n) {c : PCore} (count : Nat) (hp : c.place = (s.pcore n).place) :
    { c.done (s.clk + count) none with long := none } = s.pcAfter n count c := by
  simp only [PCore.place, Prod.mk.injEq] at hp
  obtain ⟨hpc, h1, h2, h3, h4⟩ := hp
  have hf : c.follow none = (s.pcore n).follow none := by simp only [PCore.follow, hpc, h1, h2, h3]
  simp only [PCore.done, State.pcAfter, hf, h4.trans h.flatNext, Option.map_none]

/-- A core that is put back is all that a command changes. -/
theorem State.pcGives_of_setPcore {s : State} {n : Nat} {i : Instr} {c : PCore} (hx : exec i s = .next (s.setPcore n c)) :
    s.pcGives n i c :=
  ⟨_, hx, s.setPcore_pcore_same n c, fun k hk => s.setPcore_pcore_ne n c k hk.symm, rfl⟩

/-- An instruction of a plain core whose effect is on the core alone. -/
theorem State.PlainCore.runs {s : State} {n : Nat} {e : Bool} {op : State → PRes} {c : PCore} {region flat : Nat} (h : s.PlainCore n)
    (he : e = true → s.pcNotAtEnd n = true) (hop : op (s.pcStarted n) = .next (s.setPcore n c) region flat)
    (ha : c.asks = (s.pcore n).asks) :
    s.runPc n e op = s.setPcore n (c.done (s.clk + (if (s.pcore n).flat then flat else region)) none) := by
  rw [State.runPc_next h he hop, State.pcDone_quiet (h.quiet ha), State.setPcore_pcore_same, State.setPcore_setPcore]
  rfl

/-- An instruction of a plain core whose effect turns the core into `c` and leaves its place in the program. -/
theorem State.PlainCore.pcGives {s : State} {n : Nat} {i : Instr} {e : Bool} {op : State → PRes} {c : PCore} {region flat : Nat}
    (h : s.PlainCore n) (he : e = true → s.pcNotAtEnd n = true) (hx : exec i s = .next (s.runPc n e op))
    (hop : op (s.pcStarted n) = .next (s.setPcore n { c with long := none }) region flat)
    (ha : c.asks = (s.pcore n).asks) (hp : c.place = (s.pcore n).place) :
    s.pcGives n i (s.pcAfter n (if (s.pcore n).flat then flat else region) c) := by
  rw [← h.done_eq _ hp]
  exact State.pcGives_of_setPcore (hx.trans (congrArg _ (h.runs (c := { c with long := none }) he hop ha)))

/-! ### The obligation -/

theorem PCore.stopped_eq {c : PCore} (clk : Nat) (h : c.long = none) : ∃ flat, c.stopped clk =
    { c.clocked clk 0 with sleep := none, stopping := false, halting := none, stepping := false, flat := flat, flatNext := none } := by
  rw [PCore.stopped, PCore.abandoned_none clk h, PCore.committed_eq]
  exact ⟨_, rfl⟩

/-- NOP moves the PC on. -/
theorem State.PlainCore.nop {s : State} {pc : PcId} (h : s.PlainCore pc.val) :
    s.pcGives pc.val (.pcNop pc) (s.pcAfter pc.val 2 (s.pcore pc.val)) := by
  have hgives := h.pcGives (c := s.pcore pc.val) (e := false) (op := fun s => .next s 2 2) (i := .pcNop pc) nofun rfl rfl rfl rfl
  rwa [ite_self] at hgives

/-- Settles O16, by the ways in which an instruction gives way before its effect. -/
theorem phaseCoreBoundary : Obligations.Phase_core_boundary := by
  unfold Obligations.Phase_core_boundary
  intro s pc n c
  have hexec : exec (.pcNop pc) s = .next (s.runPc n false fun s => .next s 2 2) := rfl
  refine ⟨fun hr => ?_, fun hr hs hh => ?_, fun hr hs hh hp hf => ?_, fun hr hs hh hp hf => ⟨fun hpc => ?_, fun hpc hbad => ?_⟩,
    fun h => (State.PlainCore.of_pcPlain h).nop⟩
  · rw [hexec, State.runPc_not_ready hr]
  · have hhalt : ((s.pcStarted n).pcore n).halting = none := by rw [State.pcStarted_pcore]; exact hh
    obtain ⟨hstep, hstate, hcore⟩ := State.pcStopNow_spec hhalt
    rw [State.pcStarted_pcore] at hcore
    obtain ⟨flat, hstopped⟩ := PCore.stopped_eq (c := { s.pcore n with long := none }) (s.pcStarted n).clk rfl
    rw [hstopped] at hcore
    refine ⟨_, hexec.trans (by rw [State.runPc_stops hr hs]), hstate, ?_, ?_, ?_, hstep.mem, hstep.kept⟩
    · rw [hcore]; rfl
    · rw [hcore]; rfl
    · rw [hcore]
  · have hflat : ((s.pcStarted n).pcore n).flatNext = none := by rw [State.pcStarted_pcore]; exact hf
    obtain ⟨-, hinpre, hprepc, hcore⟩ := State.preempt_spec hflat
    rw [State.pcStarted_pcore, PCore.abandoned_none _ rfl] at hprepc hcore
    refine ⟨_, hexec.trans (by rw [State.runPc_preempts hr hs hh hp]), hprepc, hinpre, ?_, ?_, ?_, ?_, ?_,
      ((s.pcStarted n).preempt_step n).kept⟩ <;> rw [hcore] <;> rfl
  · exact State.pcFaults_at pc.isLt (hexec.trans (by rw [State.runPc_unfetchable hr hs hh hp hf hpc])) c.pc.isLt
  · exact State.pcFaults_at pc.isLt (hexec.trans (by rw [State.runPc_poisoned hr hs hh hp hf hpc hbad])) c.pc.isLt

end Sys2Proof.Machine
end

section
/-!
PROOF. The instructions of the phase cores that change registers only (O17, O18, O19): integer, saturation and division, and binary32.
-/
namespace Sys2Proof.Machine

/-! ### The arms of the dispatch -/

theorem exec_pcAlu (pc fn rd rs1 rs2) (s : State) : exec (.pcAlu pc fn rd rs1 rs2) s = execPcAlu pc fn rd rs1 rs2 s := rfl
theorem exec_pcShift (pc fn rd rs1 rs2) (s : State) : exec (.pcShift pc fn rd rs1 rs2) s = execPcShift pc fn rd rs1 rs2 s := rfl
theorem exec_pcSlt (pc sign rd rs1 rs2) (s : State) : exec (.pcSlt pc sign rd rs1 rs2) s = execPcSlt pc sign rd rs1 rs2 s := rfl
theorem exec_pcMul (pc rd rs1 rs2) (s : State) : exec (.pcMul pc rd rs1 rs2) s = execPcMul pc rd rs1 rs2 s := rfl
theorem exec_pcMulh (pc sign rd rs1 rs2) (s : State) : exec (.pcMulh pc sign rd rs1 rs2) s = execPcMulh pc sign rd rs1 rs2 s := rfl
theorem exec_qadd (pc sub rd rs1 rs2) (s : State) : exec (.qadd pc sub rd rs1 rs2) s = execQadd pc sub rd rs1 rs2 s := rfl
theorem exec_pcMinMax (pc fn rd rs1 rs2) (s : State) : exec (.pcMinMax pc fn rd rs1 rs2) s = execPcMinMax pc fn rd rs1 rs2 s := rfl
theorem exec_pcAluImm (pc fn rd rs1 imm) (s : State) : exec (.pcAluImm pc fn rd rs1 imm) s = execPcAluImm pc fn rd rs1 imm s := rfl
theorem exec_pcShiftImm (pc fn rd rs1 amount) (s : State) : exec (.pcShiftImm pc fn rd rs1 amount) s = execPcShiftImm pc fn rd rs1 amount s := rfl
theorem exec_pcLui (pc rd imm) (s : State) : exec (.pcLui pc rd imm) s = execPcLui pc rd imm s := rfl
theorem exec_mac (pc fn acc rs1 rs2) (s : State) : exec (.mac pc fn acc rs1 rs2) s = execMac pc fn acc rs1 rs2 s := rfl
theorem exec_accrd (pc rd acc shift round) (s : State) : exec (.accrd pc rd acc shift round) s = execAccrd pc rd acc shift round s := rfl
theorem exec_accwr (pc acc rs1 shift) (s : State) : exec (.accwr pc acc rs1 shift) s = execAccwr pc acc rs1 shift s := rfl
theorem exec_pcDiv (pc fn rd rs1 rs2) (s : State) : exec (.pcDiv pc fn rd rs1 rs2) s = execPcDiv pc fn rd rs1 rs2 s := rfl
theorem exec_pcFadd (pc fn rd rs1 rs2) (s : State) : exec (.pcFadd pc fn rd rs1 rs2) s = execPcFadd pc fn rd rs1 rs2 s := rfl
theorem exec_fmac (pc rd rs1 rs2) (s : State) : exec (.fmac pc rd rs1 rs2) s = execFmac pc rd rs1 rs2 s := rfl
theorem exec_pcFdiv (pc rd rs1 rs2) (s : State) : exec (.pcFdiv pc rd rs1 rs2) s = execPcFdiv pc rd rs1 rs2 s := rfl
theorem exec_pcFsqrt (pc rd rs1) (s : State) : exec (.pcFsqrt pc rd rs1) s = execPcFsqrt pc rd rs1 s := rfl
theorem exec_pcFcompare (pc fn rd rs1 rs2) (s : State) : exec (.pcFcompare pc fn rd rs1 rs2) s = execPcFcompare pc fn rd rs1 rs2 s := rfl
theorem exec_pcFcvt (pc toInt rd rs1) (s : State) : exec (.pcFcvt pc toInt rd rs1) s = execPcFcvt pc toInt rd rs1 s := rfl
theorem exec_fabsFneg (pc neg rd rs1) (s : State) : exec (.fabsFneg pc neg rd rs1) s = execFabsFneg pc neg rd rs1 s := rfl

/-! ### Registers at the start of an instruction -/

section
variable (s : State) (n : Nat)

@[simp] theorem State.pcStarted_preg (r : PReg) : (s.pcStarted n).preg n r = s.preg n r := by
  rw [State.pcStarted, State.setPcore_preg, State.preg]

@[simp] theorem State.pcStarted_ppair (r : PReg) : (s.pcStarted n).ppair n r = s.ppair n r := by
  rw [State.ppair, State.pcStarted_preg, State.pcStarted_preg, State.ppair]

@[simp] theorem State.pcStarted_pacc (a : AccId) : (s.pcStarted n).pacc n a = s.pacc n a := by
  rw [State.pcStarted, State.setPcore_pacc, State.pacc]

@[simp] theorem State.pcStarted_setPcore (c : PCore) : (s.pcStarted n).setPcore n c = s.setPcore n c := s.setPcore_setPcore n _ c

@[simp] theorem State.pcStarted_setPreg (r : PReg) (v : Word32) :
    (s.pcStarted n).setPreg n r v = s.setPcore n { s.pcore n with long := none, p := tabSet 0 (s.pcore n).p r.toNat v } :=
  s.setPcore_setPreg n _ r v

@[simp] theorem State.pcStarted_setPpair (r : PReg) (v : Word64) : (s.pcStarted n).setPpair n r v =
    s.setPcore n { s.pcore n with
      long := none, p := tabSet 0 (tabSet 0 (s.pcore n).p r.toNat (v.setWidth 32)) (r + 1).toNat ((v >>> 32).setWidth 32) } :=
  s.setPcore_setPpair n _ r v

/-- A core with an accumulator written. -/
def PCore.withAcc (c : PCore) (a : AccId) (v : Word64) : PCore := if a then { c with acc1 := v } else { c with acc0 := v }

@[simp] theorem State.pcStarted_setPacc (a : AccId) (v : Word64) :
    (s.pcStarted n).setPacc n a v = s.setPcore n { (s.pcore n).withAcc a v with long := none } := by
  rw [State.pcStarted, State.setPcore_setPacc]
  cases a <;> rfl

end

/-! ### Instructions that write rd (R107) -/

section
variable {s : State} {pc : PcId} {i : Instr} {rd rs1 rs2 : PReg} {count : Nat} {v : Word32}

theorem State.PlainCore.pcReg_writes {f : State → Word32} (h : s.PlainCore pc.val) (hx : exec i s = s.pcReg pc rd count f)
    (hv : f (s.pcStarted pc.val) = v) : s.pcWrites pc.val i rd count v := by
  have hgives := h.pcGives (c := { s.pcore pc.val with p := tabSet 0 (s.pcore pc.val).p rd.toNat v }) (region := count) (flat := count)
    (e := false) nofun hx (by rw [hv, State.pcStarted_setPreg]) rfl rfl
  rwa [ite_self] at hgives

theorem State.PlainCore.pcRR_writes {f : Word32 → Word32 → Word32} (h : s.PlainCore pc.val)
    (hx : exec i s = s.pcRR pc rd rs1 rs2 count f) (hv : f (s.preg pc.val rs1) (s.preg pc.val rs2) = v) :
    s.pcWrites pc.val i rd count v :=
  h.pcReg_writes hx (by rw [State.pcStarted_preg, State.pcStarted_preg, hv])

end

/-! ### The values of R107 -/

theorem bit32_slt (a b : Word32) : bit32 (a.slt b) = if a.toInt < b.toInt then 1 else 0 := by
  simp only [bit32, BitVec.slt, decide_eq_true_eq]

theorem bit32_ult (a b : Word32) : bit32 (a.ult b) = if a.toNat < b.toNat then 1 else 0 := by
  simp only [bit32, BitVec.ult, decide_eq_true_eq]

/-- The upper half of a signed product. -/
theorem mulh_signed (a b : Word32) :
    BitVec.ofInt 32 (a.toInt * b.toInt / 2 ^ 32) = (a.signExtend 64 * b.signExtend 64).extractLsb' 32 32 := by
  have hprod : a.signExtend 64 * b.signExtend 64 = BitVec.ofInt 64 (a.toInt * b.toInt) := by
    rw [BitVec.ofInt_mul, BitVec.signExtend, BitVec.signExtend]
  rw [hprod]
  generalize a.toInt * b.toInt = p
  apply BitVec.eq_of_toNat_eq
  simp only [BitVec.toNat_ofInt, BitVec.extractLsb'_toNat, Nat.shiftRight_eq_div_pow]
  omega

/-- The upper half of an unsigned product. -/
theorem mulh_unsigned (a b : Word32) :
    BitVec.ofNat 32 (a.toNat * b.toNat / 2 ^ 32) = (a.zeroExtend 64 * b.zeroExtend 64).extractLsb' 32 32 := by
  have ha := a.isLt
  have hb := b.isLt
  have hlt : a.toNat * b.toNat < 2 ^ 32 * 2 ^ 32 := Nat.mul_lt_mul'' ha hb
  apply BitVec.eq_of_toNat_eq
  simp only [BitVec.toNat_ofNat, BitVec.extractLsb'_toNat, Nat.shiftRight_eq_div_pow, BitVec.toNat_mul, BitVec.truncate_eq_setWidth,
    BitVec.toNat_setWidth]
  rw [Nat.mod_eq_of_lt (a := a.toNat) (by omega), Nat.mod_eq_of_lt (a := b.toNat) (by omega), Nat.mod_eq_of_lt (a := _ * _) (by omega)]

/-- Of two words that compare as equal either may be picked. -/
theorem pick_signed (a b : Word32) : (if a.slt b then a else b) = if a.toInt ≤ b.toInt then a else b := by
  by_cases heq : a.toInt = b.toInt
  · rw [BitVec.eq_of_toInt_eq heq, ite_self, ite_self]
  · have hle : a.toInt < b.toInt ↔ a.toInt ≤ b.toInt := by omega
    simp only [BitVec.slt, decide_eq_true_eq, hle]

theorem pick_signed_greater (a b : Word32) : (if b.slt a then a else b) = if b.toInt ≤ a.toInt then a else b := by
  by_cases heq : b.toInt = a.toInt
  · rw [BitVec.eq_of_toInt_eq heq, ite_self, ite_self]
  · have hle : b.toInt < a.toInt ↔ b.toInt ≤ a.toInt := by omega
    simp only [BitVec.slt, decide_eq_true_eq, hle]

theorem lui_value (imm : BitVec 22) : imm.setWidth 32 <<< 10 = BitVec.ofNat 32 (imm.toNat * 1024) := by
  apply BitVec.eq_of_toNat_eq
  have := imm.isLt
  simp only [BitVec.toNat_shiftLeft, BitVec.toNat_setWidth, BitVec.toNat_ofNat, Nat.shiftLeft_eq]
  omega

theorem bit32_slti (a : Word32) (imm : BitVec 18) : bit32 (a.slt (imm.signExtend 32)) = if a.toInt < imm.toInt then 1 else 0 := by
  rw [bit32_slt, BitVec.toInt_signExtend_of_le (by decide)]

/-- Settles O17, by the value that each form writes to rd. -/
theorem phaseCoreInteger : Obligations.Phase_core_integer := by
  unfold Obligations.Phase_core_integer
  intro s pc rd rs1 rs2 hplain n a b
  have h := State.PlainCore.of_pcPlain hplain
  have hrs1 : (s.pcStarted n).preg n rs1 = a := s.pcStarted_preg n rs1
  refine ⟨h.pcRR_writes (exec_pcAlu ..) rfl, h.pcRR_writes (exec_pcAlu ..) rfl, h.pcRR_writes (exec_pcAlu ..) rfl,
    h.pcRR_writes (exec_pcAlu ..) rfl, h.pcRR_writes (exec_pcAlu ..) rfl, h.pcRR_writes (exec_pcShift ..) rfl,
    h.pcRR_writes (exec_pcShift ..) rfl, h.pcRR_writes (exec_pcShift ..) rfl, h.pcRR_writes (exec_pcSlt ..) (bit32_slt a b),
    h.pcRR_writes (exec_pcSlt ..) (bit32_ult a b), h.pcRR_writes (exec_pcMul ..) rfl, h.pcRR_writes (exec_pcMulh ..) (mulh_signed a b),
    h.pcRR_writes (exec_pcMulh ..) (mulh_unsigned a b), h.pcRR_writes (exec_pcMinMax ..) (pick_signed a b),
    h.pcRR_writes (exec_pcMinMax ..) (pick_signed_greater a b), fun imm => ?immediate, fun k => ?shifts,
    fun imm => h.pcReg_writes (exec_pcLui ..) (lui_value imm)⟩
  case immediate =>
    refine ⟨h.pcReg_writes (exec_pcAluImm ..) ?_, h.pcReg_writes (exec_pcAluImm ..) ?_, h.pcReg_writes (exec_pcAluImm ..) ?_,
      h.pcReg_writes (exec_pcAluImm ..) ?_, h.pcReg_writes (exec_pcAluImm ..) ?_⟩
    · rw [hrs1]
    · rw [hrs1]
    · rw [hrs1]
    · rw [hrs1]
    · rw [hrs1]; exact bit32_slti a imm
  case shifts =>
    refine ⟨h.pcReg_writes (exec_pcShiftImm ..) ?_, h.pcReg_writes (exec_pcShiftImm ..) ?_, h.pcReg_writes (exec_pcShiftImm ..) ?_⟩ <;>
      rw [hrs1] <;> rfl

/-! ### SAT (R108) -/

/-- A core is asked for preemption as before while its events, INPRE and PCC_TASK_CFG stay. -/
theorem PcStep.preemptAsked {n : Nat} {rs : List Nat} {s t : State} (h : PcStep n rs s t) (hq : (t.pcore n).queues = (s.pcore n).queues)
    (h3 : t.rb (Reg.PCC_STATUS n) 3 = s.rb (Reg.PCC_STATUS n) 3) (hcfg : ∀ k, Reg.PCC_TASK_CFG n k ∉ rs) :
    t.preemptAsked n = s.preemptAsked n := by
  simp only [State.preemptAsked, h3, hq, h.rb (hcfg _)]

section
variable (s : State) (n : Nat) (b : Bool)

theorem State.pcSat_step : PcStep n [Reg.PCC_STATUS n] s (s.pcSat n b) := .ite (.wb s 6 true List.mem_cons_self) (.refl s)

@[simp] theorem State.pcSat_pcore (m : Nat) : (s.pcSat n b).pcore m = s.pcore m := by
  cases b <;> rfl

theorem State.rb_pcSat (i : Nat) :
    (s.pcSat n b).rb (Reg.PCC_STATUS n) i = if i = 6 then s.rb (Reg.PCC_STATUS n) 6 || b else s.rb (Reg.PCC_STATUS n) i := by
  cases b
  · by_cases hi : i = 6 <;> simp [State.pcSat, hi]
  · rw [State.pcSat, if_pos rfl, State.rb_wb _ _ _ _ _ _ (by decide)]
    by_cases hi : i = 6
    · simp [hi]
    · simp [hi, Ne.symm hi]

end

/-- SAT is set by a clamp of `v` to a width and stays otherwise; nothing else but phase core n changes. -/
structure State.Saturated (s t : State) (n w : Nat) (v : Int) : Prop where
  sat : t.rb (Reg.PCC_STATUS n) 6 = (s.rb (Reg.PCC_STATUS n) 6 || decide (clampSigned w v ≠ v))
  bits : s.bitsKept t (Reg.PCC_STATUS n) 6 6
  step : PcStep n [Reg.PCC_STATUS n] s t

/-- An instruction of a plain core that turns the core into `c` and clamps `v`. -/
theorem State.PlainCore.saturates {s : State} {n : Nat} {i : Instr} {op : State → PRes} {c : PCore} {count w : Nat} {v : Int}
    (h : s.PlainCore n) (hx : exec i s = .next (s.runPc n false op))
    (hop : op (s.pcStarted n) = .next ((s.setPcore n { c with long := none }).pcSat n (clampSigned w v != v)) count count)
    (ha : c.asks = (s.pcore n).asks) (hp : c.place = (s.pcore n).place) :
    ∃ t, exec i s = .next t ∧ s.Saturated t n w v ∧ t.pcore n = s.pcAfter n count c := by
  generalize hu : (s.setPcore n { c with long := none }).pcSat n (clampSigned w v != v) = u at hop
  have hstep : PcStep n [Reg.PCC_STATUS n] s u := hu ▸ (PcStep.setPcore s n _).trans (State.pcSat_step _ n _)
  have hcore : u.pcore n = { c with long := none } := by rw [← hu, State.pcSat_pcore, State.setPcore_pcore_same]
  have hbit (j : Nat) : u.rb (Reg.PCC_STATUS n) j =
      if j = 6 then s.rb (Reg.PCC_STATUS n) 6 || decide (clampSigned w v ≠ v) else s.rb (Reg.PCC_STATUS n) j := by
    have hclamp : (clampSigned w v != v) = decide (clampSigned w v ≠ v) := Bool.eq_iff_iff.mpr (by simp)
    rw [← hu, State.rb_pcSat, State.setPcore_rb, State.setPcore_rb, hclamp]
  have hquiet : u.PcQuiet n := by
    refine h.quiet_of (by rw [hcore]; exact ha) (hstep.preemptAsked ?_ (hbit 3) fun k => ?_)
    · rw [hcore]
      simp only [PCore.asks, Prod.mk.injEq] at ha
      exact ha.1
    · simp only [List.mem_singleton, Reg.PCC_TASK_CFG, Reg.PCC_STATUS]
      omega
  have hrun : exec i s = .next (u.setPcore n ((u.pcore n).done (s.clk + count) none)) := by
    rw [hx, State.runPc_next (e := false) h nofun hop, ite_self, State.pcDone_quiet hquiet, hstep.clk]
  refine ⟨_, hrun, ⟨hbit 6, fun j hj => (hbit j).trans (if_neg (by omega)), hstep.trans (.setPcore u n _)⟩, ?_⟩
  rw [State.setPcore_pcore_same, hcore, ← h.done_eq count hp]
  rfl

/-- An instruction of a plain core that writes rd with `v` clamped to 32 signed bits. -/
theorem State.PlainCore.saturates_preg {s : State} {n : Nat} {i : Instr} {op : State → PRes} {rd : PReg} {count : Nat} (v : Int)
    (h : s.PlainCore n) (hx : exec i s = .next (s.runPc n false op))
    (hop : op (s.pcStarted n) =
      .next (((s.pcStarted n).setPreg n rd (BitVec.ofInt 32 (clampSigned 32 v))).pcSat n (clampSigned 32 v != v)) count count) :
    ∃ t, exec i s = .next t ∧ s.Saturated t n 32 v ∧ t.pcore n =
      s.pcAfter n count { s.pcore n with p := tabSet 0 (s.pcore n).p rd.toNat (BitVec.ofInt 32 (clampSigned 32 v)) } :=
  h.saturates hx (by rw [hop, State.pcStarted_setPreg]) rfl rfl

/-! ### Division (R108) -/

/-- An instruction that R122 abandons keeps what undoing it takes. -/
theorem State.pcStarted_pcLong (s : State) (n count : Nat) (rd : PReg) (v : Word32) : ∃ l, (s.pcStarted n).pcLong n count rd v =
    s.setPcore n { s.pcore n with long := some l, p := tabSet 0 (s.pcore n).p rd.toNat v } := by
  refine ⟨{ until_ := s.clk + count, pc := (s.pcore n).pc, rd := rd, old := s.preg n rd, lcnt := (s.pcore n).lcnt }, ?_⟩
  rw [State.pcLong, State.pcStarted_preg, State.pcStarted_pcore, State.pcStarted_setPcore, State.setPcore_setPreg]
  rfl

/-- DIV, FDIV and the like: rd, the place in the program and the time change, and what R122 needs is kept. -/
theorem State.PlainCore.pcLong_runs {s : State} {pc : PcId} {i : Instr} {op : State → PRes} {rd : PReg} {v : Word32} {count : Nat}
    (h : s.PlainCore pc.val) (hx : exec i s = .next (s.runPc pc.val false op))
    (hop : op (s.pcStarted pc.val) = .next ((s.pcStarted pc.val).pcLong pc.val count rd v) count count) :
    ∃ t, exec i s = .next t ∧ t = { s with pcores := t.pcores } ∧ (∀ m, m ≠ pc.val → t.pcore m = s.pcore m) ∧
      { t.pcore pc.val with long := none } =
        s.pcAfter pc.val count { s.pcore pc.val with p := tabSet 0 (s.pcore pc.val).p rd.toNat v } := by
  obtain ⟨l, hl⟩ := s.pcStarted_pcLong pc.val count rd v
  rw [hl] at hop
  have hrun := hx.trans (congrArg _ (h.runs nofun hop rfl))
  rw [ite_self] at hrun
  refine ⟨_, hrun, rfl, fun m hm => s.setPcore_pcore_ne _ _ m hm.symm, ?_⟩
  rw [State.setPcore_pcore_same]
  exact h.done_eq count rfl

/-- Of the signed quotients only that of -2^31 by -1 leaves the range (R108). -/
theorem sdiv_value (a b : Word32) :
    a.sdiv b = if a.toInt = -(2 ^ 31) ∧ b = -1 then a else BitVec.ofInt 32 (a.toInt.tdiv b.toInt) := by
  split
  · next hmin =>
    obtain ⟨ha, rfl⟩ := hmin
    have ha' : a = BitVec.ofInt 32 (-(2 ^ 31)) := by rw [← ha, BitVec.ofInt_toInt]
    rw [ha']
    decide
  · rw [← BitVec.ofInt_toInt (x := a.sdiv b), BitVec.toInt_sdiv]
    exact BitVec.eq_of_toInt_eq (by rw [BitVec.toInt_ofInt, BitVec.toInt_ofInt, Int.bmod_bmod])

theorem srem_value (a b : Word32) :
    a.srem b = if a.toInt = -(2 ^ 31) ∧ b = -1 then 0 else BitVec.ofInt 32 (a.toInt.tmod b.toInt) := by
  split
  · next hmin =>
    obtain ⟨ha, rfl⟩ := hmin
    have ha' : a = BitVec.ofInt 32 (-(2 ^ 31)) := by rw [← ha, BitVec.ofInt_toInt]
    rw [ha']
    decide
  · rw [← BitVec.ofInt_toInt (x := a.srem b), BitVec.toInt_srem]

theorem udiv_value (a b : Word32) : a / b = BitVec.ofNat 32 (a.toNat / b.toNat) := by
  rw [← BitVec.toNat_udiv, BitVec.ofNat_toNat, BitVec.setWidth_eq]

theorem umod_value (a b : Word32) : a % b = BitVec.ofNat 32 (a.toNat % b.toNat) := by
  rw [← BitVec.toNat_umod, BitVec.ofNat_toNat, BitVec.setWidth_eq]

theorem pcDivide_value (fn : DivFn) (a b : Word32) : pcDivide fn a b = match fn with
    | .div => if b = 0 then -1 else if a.toInt = -(2 ^ 31) ∧ b = -1 then a else BitVec.ofInt 32 (a.toInt.tdiv b.toInt)
    | .divu => if b = 0 then 0xFFFFFFFF else BitVec.ofNat 32 (a.toNat / b.toNat)
    | .rem => if b = 0 then a else if a.toInt = -(2 ^ 31) ∧ b = -1 then 0 else BitVec.ofInt 32 (a.toInt.tmod b.toInt)
    | .remu => if b = 0 then a else BitVec.ofNat 32 (a.toNat % b.toNat) := by
  cases fn with
  | div => simp only [pcDivide, sdiv_value]; rfl
  | divu => simp only [pcDivide, udiv_value]; rfl
  | rem => simp only [pcDivide, srem_value]
  | remu => simp only [pcDivide, umod_value]

theorem State.Saturated.others {s t : State} {n w : Nat} {v : Int} (h : s.Saturated t n w v) :
    t.rb (Reg.PCC_STATUS n) 6 = (s.rb (Reg.PCC_STATUS n) 6 || decide (clampSigned w v ≠ v)) ∧
      s.bitsKept t (Reg.PCC_STATUS n) 6 6 ∧ s.regsKept t [Reg.PCC_STATUS n] ∧
      t = { s with pcores := t.pcores, regs := t.regs } ∧ (∀ k, k ≠ n → t.pcore k = s.pcore k) :=
  ⟨h.sat, h.bits, h.step.kept, h.step.frame, h.step.others⟩

/-- What MAC, MSU and MULA put into their accumulator before the clamp. -/
def macValue (fn : MacFn) (acc p : Int) : Int := match fn with | .mac => acc + p | .msu => acc - p | .mula => p

/-- MAC, MSU and MULA. -/
theorem State.PlainCore.mac {s : State} {pc : PcId} (h : s.PlainCore pc.val) (fn : MacFn) (acc : AccId) (rs1 rs2 : PReg) :
    let v := macValue fn (s.pacc pc.val acc).toInt ((s.preg pc.val rs1).toInt * (s.preg pc.val rs2).toInt)
    ∃ t, exec (.mac pc fn acc rs1 rs2) s = .next t ∧ s.Saturated t pc.val 64 v ∧
      t.pcore pc.val = s.pcAfter pc.val 4 ((s.pcore pc.val).withAcc acc (BitVec.ofInt 64 (clampSigned 64 v))) := by
  intro v
  refine h.saturates (exec_mac ..) ?_ (by cases acc <;> rfl) (by cases acc <;> rfl)
  rw [State.pcStarted_preg, State.pcStarted_preg, State.pcStarted_pacc]
  exact congrArg (fun u => PRes.next (u.pcSat pc.val (clampSigned 64 v != v)) 4 4) (State.pcStarted_setPacc ..)

/-- Settles O18, by the exact value that each form clamps and by the quotients and remainders of the division. -/
theorem phaseCoreSaturationAndDivision : Obligations.Phase_core_saturation_and_division := by
  unfold Obligations.Phase_core_saturation_and_division
  intro s pc rd rs1 rs2 acc hplain n a b clamp sat
  have h := State.PlainCore.of_pcPlain hplain
  refine ⟨fun sub => ?qadd, fun fn => ?mac, fun k round => ?accrd, fun k => ⟨_, ?accwr, rfl⟩, fun fn => ?div⟩
  case qadd =>
    obtain ⟨t, hx, hsat, hcore⟩ := h.saturates_preg (if sub then a.toInt - b.toInt else a.toInt + b.toInt)
      (exec_qadd pc sub rd rs1 rs2 s) (by rw [State.pcStarted_preg, State.pcStarted_preg])
    exact ⟨t, hx, hsat.others, hcore⟩
  case mac =>
    obtain ⟨t, hx, hsat, (hcore : t.pcore n = _)⟩ := h.mac fn acc rs1 rs2
    refine ⟨t, hx, hsat.others, ?_⟩
    simp only [State.pacc, hcore]
    cases acc <;> exact ⟨rfl, rfl, rfl, rfl, rfl⟩
  case accrd =>
    obtain ⟨t, hx, hsat, hcore⟩ := h.saturates_preg
      (((s.pacc n acc).toInt + (if round = true ∧ 0 < k.toNat then 2 ^ (k.toNat - 1) else 0)) / 2 ^ k.toNat)
      (exec_accrd pc rd acc k round s) (by rw [State.pcStarted_pacc])
    exact ⟨t, hx, hsat.others, hcore⟩
  case accwr =>
    have hgives := h.pcGives (c := (s.pcore n).withAcc acc (a.signExtend 64 <<< k.toNat)) (region := 3) (flat := 3) (e := false) nofun
      (exec_accwr pc acc rs1 k s) (by rw [State.pcStarted_preg, State.pcStarted_setPacc]) (by cases acc <;> rfl) (by cases acc <;> rfl)
    rwa [ite_self] at hgives
  case div =>
    obtain ⟨t, hx, hframe, hothers, hcore⟩ := h.pcLong_runs (v := pcDivide fn a b) (rd := rd) (count := 20)
      (exec_pcDiv pc fn rd rs1 rs2 s) (by rw [State.pcStarted_preg, State.pcStarted_preg])
    have hp : (t.pcore n).p = tabSet 0 (s.pcore n).p rd.toNat (pcDivide fn a b) := congrArg PCore.p hcore
    have hvalue : t.preg n rd = pcDivide fn a b := by rw [State.preg, hp, tabGet_set_same]
    exact ⟨t, hx, hframe, by rw [hp, hvalue], congrArg PCore.busy hcore, congrArg PCore.pc hcore, hothers,
      hvalue.trans (pcDivide_value fn a b)⟩

/-! ### Binary32 (R109) -/

/-- A comparison with a NaN is false. -/
theorem FNum.compare_nan {fn : FpCmp} {a b : FNum} (h : a = .nan ∨ b = .nan) : FNum.compare fn a b = false := by
  refine if_pos ?_
  rcases h with rfl | rfl
  · rfl
  · exact Bool.or_true _

/-- Settles O19, by the result of each form on the operands with their subnormals flushed. -/
theorem phaseCoreFloatingPoint : Obligations.Phase_core_floating_point := by
  unfold Obligations.Phase_core_floating_point
  intro s pc rd rs1 rs2 hplain n a b
  have h := State.PlainCore.of_pcPlain hplain
  refine ⟨h.pcRR_writes (exec_pcFadd ..) rfl, h.pcRR_writes (exec_pcFadd ..) rfl, h.pcRR_writes (exec_pcFadd ..) rfl,
    h.pcReg_writes (exec_fmac ..) ?_, h.pcRR_writes (exec_pcFcompare ..) rfl, h.pcRR_writes (exec_pcFcompare ..) rfl,
    fun hnan fn hmin hmax => h.pcRR_writes (exec_pcFcompare ..) ?_, h.pcRR_writes (exec_pcFcompare ..) rfl,
    h.pcRR_writes (exec_pcFcompare ..) rfl, h.pcRR_writes (exec_pcFcompare ..) rfl, h.pcReg_writes (exec_pcFcvt ..) ?_,
    h.pcReg_writes (exec_pcFcvt ..) ?_, h.pcReg_writes (exec_fabsFneg ..) ?_, h.pcReg_writes (exec_fabsFneg ..) ?_,
    fun i k v hi => ?long⟩
  · rw [State.pcStarted_preg, State.pcStarted_preg, State.pcStarted_preg]
  · cases fn with
    | min => exact absurd rfl hmin
    | max => exact absurd rfl hmax
    | eq => exact congrArg bit32 (FNum.compare_nan hnan)
    | lt => exact congrArg bit32 (FNum.compare_nan hnan)
    | le => exact congrArg bit32 (FNum.compare_nan hnan)
  · rw [State.pcStarted_preg]; rfl
  · rw [State.pcStarted_preg]; rfl
  · rw [State.pcStarted_preg]; rfl
  · rw [State.pcStarted_preg]; rfl
  case long =>
    rcases hi with ⟨rfl, rfl, rfl⟩ | ⟨rfl, rfl, rfl⟩
    · exact h.pcLong_runs (exec_pcFdiv ..) (by rw [State.pcStarted_preg, State.pcStarted_preg])
    · exact h.pcLong_runs (exec_pcFsqrt ..) (by rw [State.pcStarted_preg])

end Sys2Proof.Machine
end

section
/-!
PROOF. Branches, jumps and loops of the phase cores (O22, O23).
-/
namespace Sys2Proof.Machine

/-! ### The arms of the dispatch -/

theorem exec_pcBranch (pc fn rs1 rs2 off) (s : State) : exec (.pcBranch pc fn rs1 rs2 off) s = execPcBranch pc fn rs1 rs2 off s := rfl
theorem exec_pcJal (pc off) (s : State) : exec (.pcJal pc off) s = execPcJal pc off s := rfl
theorem exec_pcJalr (pc rd rs1 imm) (s : State) : exec (.pcJalr pc rd rs1 imm) s = execPcJalr pc rd rs1 imm s := rfl
theorem exec_pcLoop (pc rs1 imm) (s : State) : exec (.pcLoop pc rs1 imm) s = execPcLoop pc rs1 imm s := rfl
theorem exec_pcLoopi (pc count length) (s : State) : exec (.pcLoopi pc count length) s = execPcLoopi pc count length s := rfl
theorem exec_waitev (pc rd imm) (s : State) : exec (.waitev pc rd imm) s = execWaitev pc rd imm s := rfl
theorem exec_tret (pc) (s : State) : exec (.tret pc) s = execTret pc s := rfl
theorem exec_pcStop (pc) (s : State) : exec (.pcStop pc) s = execPcStop pc s := rfl


/-! ### Ways in which an instruction of a plain core ends -/

theorem PCore.done_eq {c : PCore} (h : c.flatNext = none) (busy : Nat) (jump : Option Word32) :
    c.done busy jump = { c with pc := (c.follow jump).1, lcnt := (c.follow jump).2, busy := busy, wait := none } := by
  rw [PCore.done, h]
  rfl

/-- A jump out of the loop clears LCNT (R116). -/
theorem PCore.follow_jump (c : PCore) (t : Word32) : (c.follow (some t)).2 = if c.lbeg ≤ t ∧ t ≤ c.lend then c.lcnt else 0 := by
  by_cases hin : c.lbeg ≤ t ∧ t ≤ c.lend
  · exact (if_neg fun hout => hout.2 hin).trans (if_pos hin).symm
  · rw [if_neg hin]
    by_cases h0 : c.lcnt = 0
    · exact (if_neg fun hout => hout.1 h0).trans h0
    · exact if_pos ⟨h0, hin⟩

section
variable {s : State} {n : Nat} {i : Instr} {e : Bool} {op : State → PRes} {c : PCore} {region flat : Nat} {target a l : Word32}

/-- An instruction of a plain core whose effect is on the core alone, and which goes on behind itself. -/
theorem State.PlainCore.gives (h : s.PlainCore n) (he : e = true → s.pcNotAtEnd n = true) (hx : exec i s = .next (s.runPc n e op))
    (hop : op (s.pcStarted n) = .next (s.setPcore n c) region flat) (ha : c.asks = (s.pcore n).asks)
    (hf : c.flatNext = (s.pcore n).flatNext) (hgo : c.follow none = (a, l)) :
    s.pcGives n i { c with pc := a, lcnt := l, busy := s.clk + (if (s.pcore n).flat then flat else region), wait := none } := by
  refine State.pcGives_of_setPcore (hx.trans (congrArg _ ?_))
  rw [h.runs he hop ha, PCore.done_eq (hf.trans h.flatNext), hgo]

/-- An instruction of a plain core whose effect is on the core alone, and which jumps. -/
theorem State.PlainCore.jumps (h : s.PlainCore n) (he : e = true → s.pcNotAtEnd n = true) (hx : exec i s = .next (s.runPc n e op))
    (hop : op (s.pcStarted n) = .jump (s.setPcore n c) target region flat) (ht : pcFetchable target = true) (ha : c.asks = (s.pcore n).asks)
    (hf : c.flatNext = (s.pcore n).flatNext) (hgo : (c.follow (some target)).2 = l) :
    s.pcGives n i { c with pc := target, lcnt := l, busy := s.clk + (if (s.pcore n).flat then flat else region), wait := none } := by
  refine State.pcGives_of_setPcore (hx.trans (congrArg _ ?_))
  rw [State.runPc_jump h he hop ht, State.pcDone_quiet (h.quiet ha), State.setPcore_pcore_same, State.setPcore_setPcore,
    PCore.done_eq (hf.trans h.flatNext), ← hgo]
  rfl

/-- A jump to a place that cannot be fetched from. -/
theorem State.PlainCore.jump_faults {t : State} (h : s.PlainCore n) (hn : n < 256) (he : e = true → s.pcNotAtEnd n = true)
    (hx : exec i s = .next (s.runPc n e op)) (hop : op (s.pcStarted n) = .jump t target region flat) (ht : pcFetchable target = false) :
    s.pcFaults n i 2 target.toNat :=
  State.pcFaults_at hn (hx.trans (congrArg _ (State.runPc_jump_faults h he hop ht))) target.isLt

/-- A fault of an instruction of a plain core. -/
theorem State.PlainCore.faults {cause : PcFault} {addr : Nat} (h : s.PlainCore n) (hn : n < 256) (he : e = true → s.pcNotAtEnd n = true)
    (hx : exec i s = .next (s.runPc n e op)) (hop : op (s.pcStarted n) = .fault (s.pcStarted n) cause addr) (ha : addr < 2 ^ 32) :
    s.pcFaults n i cause.code addr :=
  State.pcFaults_at hn (hx.trans (congrArg _ (State.runPc_faults h he hop))) ha

/-- An instruction that may not end a loop that counts. -/
theorem State.PlainCore.loop_faults (h : s.PlainCore n) (hn : n < 256) (he : s.pcNotAtEnd n = false)
    (hx : exec i s = .next (s.runPc n true op)) : s.pcFaults n i 6 (s.pcore n).pc.toNat :=
  State.pcFaults_at hn (hx.trans (congrArg _ (State.runPc_at_end h he))) (s.pcore n).pc.isLt

end

/-! ### Offsets in words -/

theorem shiftLeft_two (x : Word32) : x <<< 2 = 4 * x := by
  apply BitVec.eq_of_toNat_eq
  rw [BitVec.toNat_shiftLeft, BitVec.toNat_mul, Nat.shiftLeft_eq, Nat.mul_comm]
  rfl

/-- A length of at most 18 bits that is not 0 has its end elsewhere. -/
theorem add_four_mul_ne {x : Word32} (pc : Word32) (hx : x ≠ 0) (hlo : -(2 ^ 17) ≤ x.toInt) (hhi : x.toInt < 2 ^ 17) : pc ≠ pc + 4 * x := by
  intro h
  have hzero : (4 * x).toNat = 0 := congrArg BitVec.toNat (left_eq_add.mp h)
  rw [BitVec.toNat_mul, show (4 : Word32).toNat = 4 from rfl] at hzero
  have hpos : x.toNat ≠ 0 := fun h0 => hx (BitVec.eq_of_toNat_eq h0)
  have := x.isLt
  rw [BitVec.toInt_eq_toNat_cond] at hlo hhi
  split at hlo <;> omega

/-! ### Branches and jumps (R107) -/

/-- Whether a branch is taken. -/
def branchTaken (fn : BranchFn) (a b : Word32) : Prop :=
  match fn with
  | .eq => a = b | .ne => a ≠ b | .lt => a.toInt < b.toInt | .ge => b.toInt ≤ a.toInt
  | .ltu => a.toNat < b.toNat | .geu => b.toNat ≤ a.toNat

/-- Where a taken branch jumps to, and what one that is not taken leaves. -/
theorem execPcBranch_eq (pc : PcId) (fn : BranchFn) (rs1 rs2 : PReg) (off : BitVec 18) (s : State) :
    ∃ op, exec (.pcBranch pc fn rs1 rs2 off) s = .next (s.runPc pc.val true op) ∧
      (branchTaken fn (s.preg pc.val rs1) (s.preg pc.val rs2) →
        op (s.pcStarted pc.val) = .jump (s.pcStarted pc.val) ((s.pcore pc.val).pc + 4 * off.signExtend 32) 4 4) ∧
      (¬ branchTaken fn (s.preg pc.val rs1) (s.preg pc.val rs2) → op (s.pcStarted pc.val) = .next (s.pcStarted pc.val) 3 4) := by
  refine ⟨_, exec_pcBranch pc fn rs1 rs2 off s, fun ht => ?_, fun ht => ?_⟩
  · rw [State.pcStarted_preg, State.pcStarted_preg, State.pcStarted_pcore, shiftLeft_two]
    refine if_pos ?_
    cases fn <;> simpa [branchTaken, BitVec.slt, BitVec.ult] using ht
  · rw [State.pcStarted_preg, State.pcStarted_preg]
    refine if_neg ?_
    cases fn <;> simpa [branchTaken, BitVec.slt, BitVec.ult] using ht

/-- Settles O23, by the target and the link of each form. -/
theorem phaseCoreBranches : Obligations.Phase_core_branches := by
  unfold Obligations.Phase_core_branches
  intro s pc hplain hend n c goes
  have h := State.PlainCore.of_pcPlain hplain
  have he : true = true → s.pcNotAtEnd n = true := fun _ => hend
  have hgoes (i : Instr) (op : State → PRes) (target : Word32) (count : Nat) (p : Tab Word32)
      (hx : exec i s = .next (s.runPc n true op))
      (hop : op (s.pcStarted n) = .jump (s.setPcore n { c with long := none, p := p }) target count count) : goes i target count p :=
    ⟨fun ht => by have hgives := h.jumps he hx hop ht rfl rfl rfl; rwa [ite_self] at hgives, h.jump_faults pc.isLt he hx hop⟩
  refine ⟨fun fn rs1 rs2 off => ?branch, fun off => hgoes _ _ _ _ _ (exec_pcJal ..) ?jal,
    fun rd rs1 imm => hgoes _ _ _ _ _ (exec_pcJalr ..) ?jalr⟩
  case branch =>
    obtain ⟨op, hx, htaken, hnot⟩ := execPcBranch_eq pc fn rs1 rs2 off s
    exact ⟨fun ht => hgoes _ op _ _ _ hx (htaken ht), fun ht => h.pcGives he hx (hnot ht) rfl rfl⟩
  case jal =>
    change PRes.jump ((s.pcStarted n).setPreg n 15 (((s.pcStarted n).pcore n).pc + 4)) (((s.pcStarted n).pcore n).pc + _) 4 4 = _
    rw [State.pcStarted_pcore, State.pcStarted_setPreg, shiftLeft_two]
    rfl
  case jalr => rw [State.pcAddr, State.pcStarted_preg, State.pcStarted_pcore, State.pcStarted_setPreg]

/-! ### Loops (R116) -/

/-- The core whose loop has been set. -/
def PCore.looped (c : PCore) (count length : Word32) : PCore := { c with lcnt := count, lbeg := c.pc + 4, lend := c.pc + 4 * length }

theorem State.pcStarted_pcSetLoop (s : State) (n : Nat) (count length : Word32) : (s.pcStarted n).pcSetLoop n count length =
    if (s.pcore n).lcnt ≠ 0 ∨ length = 0 then .fault (s.pcStarted n) .loop (s.pcore n).pc.toNat
    else if count = 0 then
      .jump (s.setPcore n { (s.pcore n).looped count length with long := none }) ((s.pcore n).pc + 4 * length + 4) 3 3
    else .next (s.setPcore n { (s.pcore n).looped count length with long := none }) 3 3 := by
  simp only [State.pcSetLoop, State.pcStarted_pcore, State.pcStarted_setPcore, shiftLeft_two]
  rfl

/-- LOOP and LOOPI with a length of at most 18 bits. -/
theorem State.PlainCore.setLoop {s : State} {n : Nat} {i : Instr} {op : State → PRes} {count length : Word32} (h : s.PlainCore n)
    (hn : n < 256) (hx : exec i s = .next (s.runPc n true op)) (hop : op (s.pcStarted n) = (s.pcStarted n).pcSetLoop n count length)
    (hlo : -(2 ^ 17) ≤ length.toInt) (hhi : length.toInt < 2 ^ 17) :
    let c := s.pcore n
    let set : PCore := { c.looped count length with busy := s.clk + 3, long := none, wait := none }
    (c.lcnt = 0 → length ≠ 0 → count ≠ 0 → s.pcGives n i { set with pc := c.pc + 4 }) ∧
    (c.lcnt = 0 → length ≠ 0 → count = 0 → pcFetchable (c.pc + 4 * length + 4) = true →
      s.pcGives n i { set with pc := c.pc + 4 * length + 4 }) ∧
    (c.lcnt ≠ 0 ∨ length = 0 → s.pcFaults n i 6 c.pc.toNat) := by
  intro c set
  rw [State.pcStarted_pcSetLoop] at hop
  have hfree (hc : c.lcnt = 0) (_ : true = true) : s.pcNotAtEnd n = true := by
    rw [State.pcNotAtEnd, show (s.pcore n).lcnt = 0 from hc]
    rfl
  refine ⟨fun hc hl hcount => ?_, fun hc hl hcount ht => ?_, fun hbad => ?_⟩
  · rw [if_neg (not_or.mpr ⟨not_not.mpr hc, hl⟩), if_neg hcount] at hop
    have hgives := h.gives (hfree hc) hx hop rfl rfl (if_neg fun hend => add_four_mul_ne c.pc hl hlo hhi hend.2)
    rwa [ite_self] at hgives
  · rw [if_neg (not_or.mpr ⟨not_not.mpr hc, hl⟩), if_pos hcount] at hop
    have hgives := h.jumps (hfree hc) hx hop ht rfl rfl (if_neg fun hout => hout.1 hcount)
    rwa [ite_self] at hgives
  · cases he : s.pcNotAtEnd n with
    | false => exact h.loop_faults hn he hx
    | true =>
      rw [if_pos hbad] at hop
      exact h.faults hn (fun _ => he) hx hop c.pc.isLt

/-- An instruction that may not end a loop. -/
theorem exec_of_mayNotEnd {pc : PcId} {i : Instr} (s : State)
    (hi : (∃ fn a b off, i = .pcBranch pc fn a b off) ∨ (∃ off, i = .pcJal pc off) ∨ (∃ a b imm, i = .pcJalr pc a b imm) ∨
      (∃ a imm, i = .pcLoop pc a imm) ∨ (∃ a b, i = .pcLoopi pc a b) ∨ (∃ rd m, i = .waitev pc rd m) ∨ i = .tret pc ∨ i = .pcStop pc) :
    ∃ op, exec i s = .next (s.runPc pc.val true op) := by
  obtain ⟨fn, a, b, off, rfl⟩ | ⟨off, rfl⟩ | ⟨a, b, imm, rfl⟩ | ⟨a, imm, rfl⟩ | ⟨a, b, rfl⟩ | ⟨rd, m, rfl⟩ | rfl | rfl := hi
  · exact ⟨_, exec_pcBranch pc fn a b off s⟩
  · exact ⟨_, exec_pcJal pc off s⟩
  · exact ⟨_, exec_pcJalr pc a b imm s⟩
  · exact ⟨_, exec_pcLoop pc a imm s⟩
  · exact ⟨_, exec_pcLoopi pc a b s⟩
  · exact ⟨_, exec_waitev pc rd m s⟩
  · exact ⟨_, exec_tret pc s⟩
  · exact ⟨_, exec_pcStop pc s⟩

/-- Settles O22, by the place at which the program goes on after the last instruction of a loop and the loop that LOOP sets. -/
theorem phaseCoreLoops : Obligations.Phase_core_loops := by
  unfold Obligations.Phase_core_loops
  intro s pc hplain n c
  have h := State.PlainCore.of_pcPlain hplain
  refine ⟨fun i count length hi => ?set, fun hend hcnt => ?back, fun hend hcnt => ?last, fun r off he ht => ?branch,
    fun he i hi => ?fault⟩
  case set =>
    obtain ⟨rs1, imm, rfl, rfl, rfl⟩ | ⟨k, l, rfl, rfl, rfl⟩ := hi
    · refine h.setLoop pc.isLt (exec_pcLoop pc rs1 imm s) (by rw [State.pcStarted_preg]) ?_ ?_ <;>
        rw [BitVec.toInt_signExtend_of_le (by decide)]
      · exact BitVec.le_toInt imm
      · exact BitVec.toInt_lt
    · have hl := l.isLt
      have hint : (l.zeroExtend 32).toInt = l.toNat := by
        rw [BitVec.toInt_eq_toNat_cond, BitVec.zeroExtend, BitVec.toNat_setWidth, Nat.mod_eq_of_lt (by omega)]
        exact if_pos (by omega)
      exact h.setLoop pc.isLt (exec_pcLoopi pc k l s) rfl (by omega) (by omega)
  case back =>
    have hne : c.lcnt ≠ 0 := fun h0 => by simp [h0] at hcnt
    have hne1 : c.lcnt ≠ 1 := fun h1 => by simp [h1] at hcnt
    have hfollow : (s.pcore n).follow none = (c.lbeg, c.lcnt - 1) := (if_pos ⟨hne, hend⟩).trans (by rw [if_neg hne1])
    have hnop := h.nop
    rwa [State.pcAfter, hfollow] at hnop
  case last =>
    have hfollow : (s.pcore n).follow none = (c.lend + 4, 0) :=
      (if_pos ⟨by rw [show (s.pcore n).lcnt = 1 from hcnt]; decide, hend⟩).trans (by rw [show (s.pcore n).lcnt = 1 from hcnt]; rfl)
    have hnop := h.nop
    rwa [State.pcAfter, hfollow] at hnop
  case branch =>
    obtain ⟨op, hx, htaken, -⟩ := execPcBranch_eq pc .eq r r off s
    have hgives := h.jumps (fun _ => he) hx (htaken rfl) ht rfl rfl (PCore.follow_jump ..)
    rwa [ite_self] at hgives
  case fault =>
    obtain ⟨op, hx⟩ := exec_of_mayNotEnd s hi
    exact h.loop_faults pc.isLt he hx

end Sys2Proof.Machine
end

section
/-!
PROOF. Points, posts and time at the phase cores (O25).
-/
namespace Sys2Proof.Machine

/-! ### The arms of the dispatch -/

theorem exec_evsend (pc rs1 input) (s : State) : exec (.evsend pc rs1 input) s = execEvsend pc rs1 input s := rfl
theorem exec_pina (pc rs1 act) (s : State) : exec (.pina pc rs1 act) s = execPina pc rs1 act s := rfl
theorem exec_ptld (pc status rd rs1) (s : State) : exec (.ptld pc status rd rs1) s = execPtld pc status rd rs1 s := rfl
theorem exec_ptst (pc rs1 rs2) (s : State) : exec (.ptst pc rs1 rs2) s = execPtst pc rs1 rs2 s := rfl
theorem exec_dbell (pc rs1 rs2) (s : State) : exec (.dbell pc rs1 rs2) s = execDbell pc rs1 rs2 s := rfl
theorem exec_pcRdgt (pc rd) (s : State) : exec (.pcRdgt pc rd) s = execPcRdgt pc rd s := rfl
theorem exec_setdl (pc add rs1) (s : State) : exec (.setdl pc add rs1) s = execSetdl pc add rs1 s := rfl
theorem exec_settm (pc mode) (s : State) : exec (.settm pc mode) s = execSettm pc mode s := rfl
theorem exec_pcIllegalInstruction (pc word) (s : State) : exec (.pcIllegalInstruction pc word) s = execPcIllegalInstruction pc word s := rfl


/-! ### Instructions that reach beyond the core -/

@[simp] theorem State.pcStarted_pcEid (s : State) (n : Nat) : (s.pcStarted n).pcEid n = s.pcEid n := rfl
@[simp] theorem State.pcStarted_pcRequester (s : State) (n : Nat) : (s.pcStarted n).pcRequester n = s.pcRequester n := rfl

@[simp] theorem State.pcStarted_pcStamp (s : State) (n : Nat) : (s.pcStarted n).pcStamp n = s.pcStamp n := by
  rw [State.pcStamp, State.pcStarted_pcore]
  rfl

section
variable {s u : State} {n : Nat} {i : Instr} {e : Bool} {op : State → PRes} {c : PCore} {region flat : Nat}

/-- An instruction of a plain core after whose effect nothing is asked of the core. -/
theorem State.PlainCore.ends (h : s.PlainCore n) (he : e = true → s.pcNotAtEnd n = true) (hop : op (s.pcStarted n) = .next u region flat)
    (hcore : u.pcore n = { c with long := none }) (hp : c.place = (s.pcore n).place) (hq : u.PcQuiet n) (hclk : u.clk = s.clk) :
    s.runPc n e op = u.setPcore n (s.pcAfter n (if (s.pcore n).flat then flat else region) c) := by
  rw [State.runPc_next h he hop, State.pcDone_quiet hq, hcore, hclk, ← h.done_eq _ hp]
  rfl

/-- An instruction of a plain core that puts one effect on the agenda. -/
theorem State.PlainCore.sends {ns : Nat} {act : Act} (h : s.PlainCore n) (hx : exec i s = .next (s.runPc n false op))
    (hop : op (s.pcStarted n) = .next ((s.setPcore n { c with long := none }).after ns act) region flat)
    (ha : c.asks = (s.pcore n).asks) (hp : c.place = (s.pcore n).place) :
    ∃ t, exec i s = .next t ∧ t.agenda = agendaInsert (s.clk + ns) act s.agenda ∧
      t.pcore n = s.pcAfter n (if (s.pcore n).flat then flat else region) c ∧ (∀ k, k ≠ n → t.pcore k = s.pcore k) ∧
      t = { s with pcores := t.pcores, agenda := t.agenda } := by
  have hcore : ((s.setPcore n { c with long := none }).after ns act).pcore n = { c with long := none } := s.setPcore_pcore_same n _
  obtain ⟨hq1, hq2, hq3, hq4⟩ := h.quiet (c := { c with long := none }) ha
  refine ⟨_, hx.trans (congrArg _ (h.ends nofun hop hcore hp ⟨hq1, hq2, hq3, hq4⟩ rfl)), rfl, State.setPcore_pcore_same ..,
    fun k hk => ?_, rfl⟩
  rw [State.setPcore_pcore_ne _ _ _ _ hk.symm]
  exact s.setPcore_pcore_ne _ _ _ hk.symm

/-- An instruction of a plain core whose effect turns the core into `c`, in as many clocks under both timing modes. -/
theorem State.PlainCore.turns {count : Nat} (h : s.PlainCore n) (hx : exec i s = .next (s.runPc n false op))
    (hop : op (s.pcStarted n) = .next (s.setPcore n { c with long := none }) count count) (ha : c.asks = (s.pcore n).asks)
    (hp : c.place = (s.pcore n).place) : s.pcGives n i (s.pcAfter n count c) := by
  have hgives := h.pcGives (e := false) nofun hx hop ha hp
  rwa [ite_self] at hgives

/-- An instruction of a plain core that waits at its PC. -/
theorem State.PlainCore.waits (h : s.PlainCore n) (hx : exec i s = .next (s.runPc n false op))
    (hop : op (s.pcStarted n) = .done (s.setPcore n c)) : s.pcGives n i c :=
  State.pcGives_of_setPcore (hx.trans (congrArg _ (State.runPc_done (e := false) h nofun hop)))

end

/-! ### Posts (R125, R126) -/

section
variable {s : State} {pc : PcId} {i : Instr} {op : State → PRes} {x : PostEntry}

/-- PTST and DBELL join the post queue, fault or wait. -/
theorem State.PlainCore.posts (h : s.PlainCore pc.val) (hx : exec i s = .next (s.runPc pc.val false op))
    (hop : op (s.pcStarted pc.val) = (s.pcStarted pc.val).pcPost pc.val x) (htarget : x.target < 2 ^ 32) :
    let n := pc.val
    let c := s.pcore n
    (c.post.length < 4 → ∃ t, exec i s = .next t ∧ t.pcore n = s.pcAfter n 3 { c with post := c.post ++ [x] } ∧
      t.agenda = agendaInsert (s.clk + 1) (.cmd (.postQueueDrain pc)) s.agenda ∧ t = { s with pcores := t.pcores, agenda := t.agenda }) ∧
    (4 ≤ c.post.length → c.flat = true → s.pcFaults n i 4 x.target) ∧
    (4 ≤ c.post.length → c.flat = false → s.pcGives n i { c with wait := some (.post x), long := none }) := by
  intro n c
  have hpost : (s.pcStarted n).pcPost n x = if c.post.length < 4 then
      .next ((s.setPcore n { c with post := c.post ++ [x], long := none }).after 1 (.cmd (.postQueueDrain pc))) 3 3
      else if c.flat then .fault (s.pcStarted n) .flat x.target
      else .done (s.setPcore n { c with wait := some (.post x), long := none }) := by
    simp only [State.pcPost, State.pushPost, State.send, State.pcStarted_pcore, State.pcStarted_setPcore, n, finOfNat_val]
    rfl
  rw [show s.pcStarted pc.val = s.pcStarted n from rfl, show pc.val = n from rfl, hpost] at hop
  refine ⟨fun hroom => ?_, fun hfull hflat => ?_, fun hfull hflat => ?_⟩
  · rw [if_pos hroom] at hop
    obtain ⟨t, hxt, hagenda, hcore, -, hframe⟩ := h.sends (c := { c with post := c.post ++ [x] }) hx hop rfl rfl
    rw [ite_self] at hcore
    exact ⟨t, hxt, hcore, hagenda, hframe⟩
  · rw [if_neg (by omega), if_pos hflat] at hop
    exact h.faults (e := false) pc.isLt nofun hx hop htarget
  · rw [if_neg (by omega), if_neg (by simp [hflat])] at hop
    exact h.waits hx hop

end

/-! ### The obligation -/

theorem setWidth_shift_eq (v : Word64) : (v >>> 32).setWidth 32 = BitVec.ofNat 32 (v.toNat / 2 ^ 32) := by
  apply BitVec.eq_of_toNat_eq
  rw [BitVec.toNat_setWidth, BitVec.toNat_ushiftRight, BitVec.toNat_ofNat, Nat.shiftRight_eq_div_pow]

/-- An instruction that takes a pair faults with ILLEGAL at an odd register (R106). -/
theorem State.PlainCore.illegal {s : State} {pc : PcId} {i : Instr} {op : State → PRes} (h : s.PlainCore pc.val)
    (hx : exec i s = .next (s.runPc pc.val false op))
    (hop : op (s.pcStarted pc.val) = .fault (s.pcStarted pc.val) .illegal ((s.pcStarted pc.val).pcore pc.val).pc.toNat) :
    s.pcFaults pc.val i 1 (s.pcore pc.val).pc.toNat :=
  h.faults (e := false) (cause := .illegal) pc.isLt nofun hx (hop.trans (by rw [State.pcStarted_pcore])) (s.pcore pc.val).pc.isLt

/-- PTLD: the core waits for the point, and asks ARB_PT for it. -/
theorem State.PlainCore.ptld_asks {s : State} {pc : PcId} (h : s.PlainCore pc.val) (status : Bool) (r rs1 : PReg)
    (hr : pairOdd r = false) (hflat : (s.pcore pc.val).flat = false) :
    let n := pc.val
    let pt := (s.preg n rs1).toNat % 2 ^ 17
    ∃ t, exec (.ptld pc status r rs1) s = .next t ∧ t.pcore n = { s.pcore n with wait := some (.point pt (.pair r)), long := none } ∧
      t.agenda = agendaInsert (s.clk + 2) (.cmd (.arbRequest 12
        { port := n / 64, stamp := s.pcStamp n, key := BitVec.ofNat 46 pt, bytes := 16, tag := s.nextTag })) s.agenda ∧
      t = { s with pcores := t.pcores, agenda := t.agenda, work := t.work, nextTag := s.nextTag + 1 } := by
  intro n pt
  let s1 := s.setPcore n { s.pcore n with wait := some (.point pt (.pair r)), long := none }
  let t := s1.present 2 12 (n / 64) (s.pcStamp n) pt 16
    (.point (Fin.ofNat 131072 pt) (s.pcRequester n) (if status then .readStatus else .readValue))
  have hx : exec (.ptld pc status r rs1) s = .next t := by
    refine (exec_ptld pc status r rs1 s).trans (congrArg _ (State.runPc_done (e := false) h nofun ?_))
    simp only [State.pcStarted_preg, State.pcStarted_pcore, State.pcStarted_setPcore, State.pcStarted_pcStamp, State.pcStarted_pcRequester]
    exact (if_neg (by simp [hr])).trans (if_neg (by simp [hflat]))
  exact ⟨t, hx, s.setPcore_pcore_same n _, rfl, rfl⟩

theorem State.PlainCore.ptld_flat {s : State} {pc : PcId} (h : s.PlainCore pc.val) (status : Bool) (r rs1 : PReg)
    (hr : pairOdd r = false) (hflat : (s.pcore pc.val).flat = true) :
    s.pcFaults pc.val (.ptld pc status r rs1) 4 ((s.preg pc.val rs1).toNat % 2 ^ 17) := by
  refine h.faults (e := false) (cause := .flat) pc.isLt nofun (exec_ptld pc status r rs1 s) ?_ (by omega)
  simp only [State.pcStarted_preg, State.pcStarted_pcore]
  exact (if_neg (by simp [hr])).trans (if_pos hflat)

/-- SETTM takes effect behind two further instructions (R115). -/
theorem State.PlainCore.settm {s : State} {pc : PcId} (h : s.PlainCore pc.val) (mode : Bool) : s.pcGives pc.val (.settm pc mode)
    (s.pcAfter pc.val 3 { s.pcore pc.val with flatNext := some (2, mode) }) := by
  have hrun := h.runs (e := false) (op := fun s => .next (s.setPcore pc.val { s.pcore pc.val with flatNext := some (3, mode) }) 3 3)
    (c := { s.pcore pc.val with flatNext := some (3, mode), long := none }) nofun
    (by simp only [State.pcStarted_pcore, State.pcStarted_setPcore]; rfl) rfl
  rw [ite_self] at hrun
  exact State.pcGives_of_setPcore ((exec_settm pc mode s).trans (congrArg _ hrun))

/-- Settles O25, by the effect of each form on the core, the agenda and the post queue. -/
theorem phaseCorePointsAndTime : Obligations.Phase_core_points_and_time := by
  unfold Obligations.Phase_core_points_and_time
  intro s pc rs1 r hplain n c pt posts
  have h := State.PlainCore.of_pcPlain hplain
  refine ⟨fun status => ⟨fun ho => h.illegal (exec_ptld ..) (if_pos ho), h.ptld_flat status r rs1, h.ptld_asks status r rs1⟩,
    fun ho => h.illegal (exec_ptst ..) (if_pos ho), fun ho => h.posts (exec_ptst ..) ((if_neg (by simp [ho])).trans ?ptst) ?point,
    h.posts (exec_dbell ..) ?dbell ?task, fun ho => h.illegal (exec_pcRdgt ..) (if_pos ho),
    fun ho => h.turns (exec_pcRdgt ..) ((if_neg (by simp [ho])).trans ?rdgt) rfl rfl, h.turns (exec_setdl ..) ?add rfl rfl,
    fun ho => h.illegal (exec_setdl ..) (if_pos ho), fun ho => h.turns (exec_setdl ..) ?set rfl rfl,
    h.settm, fun word hw => h.illegal ((exec_pcIllegalInstruction ..).trans (if_neg (by simp [hw]))) rfl⟩
  case ptst => rw [State.pcStarted_preg, State.pcStarted_ppair, State.pcStarted_pcStamp, State.pcStarted_pcEid]
  case point => exact Nat.lt_of_lt_of_le (Nat.mod_lt _ (by decide)) (by decide)
  case dbell => simp only [State.pcStarted_preg, State.pcStarted_pcStamp, State.pcStarted_pcEid]; rfl
  case task => exact Nat.lt_of_lt_of_le (Nat.mod_lt _ (by decide)) (by decide)
  case rdgt =>
    rw [State.pcStarted_setPpair, setWidth_shift_eq, State.now, BitVec.ofNat_toNat]
    rfl
  case add => simp only [State.pcStarted_preg, State.pcStarted_pcore, State.pcStarted_setPcore]; rfl
  case set =>
    simp only [State.pcStarted_ppair, State.pcStarted_pcore, State.pcStarted_setPcore]
    exact (if_neg Bool.false_ne_true).trans (if_neg (by simp [ho]))

end Sys2Proof.Machine
end

section
/-!
PROOF. Events at the phase cores (O24): WAITEV, EVSEND, PINA, TRET and STOP.
-/
namespace Sys2Proof.Machine

/-! ### Cores and registers are written in any order -/

theorem State.wf_setPcore (s : State) (a hi lo v n : Nat) (c : PCore) : (s.wf a hi lo v).setPcore n c = (s.setPcore n c).wf a hi lo v := rfl
theorem State.wb_setPcore (s : State) (a i : Nat) (b : Bool) (n : Nat) (c : PCore) : (s.wb a i b).setPcore n c = (s.setPcore n c).wb a i b := rfl

/-! ### The end of an instruction at which something may be asked of the core -/

/-- What the end of an instruction leaves beside the core: an effect on the agenda at most. -/
theorem State.pcEnd_spec (s : State) (n count : Nat) (pc lcnt : Word32) (f : PCore → PCore) :
    let c := s.pcore n
    let c1 := f { c with pc := pc, lcnt := lcnt, busy := s.clk + count, wait := none, flatNext := c.flatNext.map fun x => (x.1 - 1, x.2) }
    let t := s.pcEnd n count pc lcnt f
    t.pcore n = (if c.stepping then { c1 with halting := some 2, stepping := false } else c1) ∧ (∀ k, k ≠ n → t.pcore k = s.pcore k) ∧
      t = { s with pcores := t.pcores, agenda := t.agenda } := by
  intro c c1 t
  let u := s.setPcore n (if c.stepping then { c1 with halting := some 2, stepping := false } else c1)
  have ht : AgendaStep u t :=
    (AgendaStep.ite (.after u _ _) (.refl u)).trans (.ite (.send _ _ _) (.refl _))
  have hcore (k : Nat) : t.pcore k = u.pcore k := by rw [State.pcore, ht, State.pcore]
  refine ⟨(hcore n).trans (s.setPcore_pcore_same n _), fun k hk => (hcore k).trans (s.setPcore_pcore_ne n _ k hk.symm), ?_⟩
  have hcores : t.pcores = u.pcores := by rw [ht]
  rw [hcores]
  exact ht

/-- What an instruction that completes leaves of the core and of the rest. -/
theorem State.pcDone_spec (s : State) (n count : Nat) (jump : Option Word32) : let t := s.pcDone n count jump
    (∃ halting stepping, t.pcore n =
      { (s.pcore n).done (s.clk + count) jump with halting := halting, stepping := stepping }) ∧
      (∀ k, k ≠ n → t.pcore k = s.pcore k) ∧ t = { s with pcores := t.pcores, agenda := t.agenda } := by
  intro t
  obtain ⟨hcore, hrest⟩ := s.pcEnd_spec n count ((s.pcore n).follow jump).1 ((s.pcore n).follow jump).2 id
  refine ⟨?_, hrest⟩
  rw [show t.pcore n = _ from hcore]
  split
  · exact ⟨some 2, false, rfl⟩
  · exact ⟨(s.pcore n).halting, (s.pcore n).stepping, rfl⟩

/-! ### The next event of an input (R118, R119) -/

/-- What WAITEV leaves of a core: `q` is what stays at the input and `relative` the deadline that PCC_TASK_CFG gives the task. -/
def PCore.popped (c : PCore) (i : Nat) (rd : PReg) (e : PcEvent) (q : List PcEvent) (relative : Nat) : PCore :=
  { c with
    queues := tabSet [] c.queues i q, ctask := BitVec.ofNat 3 i, tdl := e.gt + BitVec.ofNat 64 relative
    p := tabSet 0 c.p rd.toNat (BitVec.ofNat 32 (i * 2 ^ 16 + e.source.toNat)) }

section
variable {s : State} {n i : Nat} {rd : PReg} {e d : PcEvent} {q l : List PcEvent}

theorem State.popEvent_of_no_shed (hq : (s.pcore n).queue i = e :: q) (hs : s.shedNow n i = []) : s.popEvent n i rd =
    (s.setPcore n ((s.pcore n).popped i rd e q (s.rf (Reg.PCC_TASK_CFG n i) 23 0))).wr (Reg.PCC_EV_GT n) e.gt.toNat := by
  simp only [State.popEvent, hq, State.unshed]
  rw [show (s.setPcore n _).shedNow n i = [] from (by rw [State.shedNow, State.setPcore_pcore_same]; exact hs)]
  simp only [State.setPcore_setPreg]
  rfl

theorem State.popEvent_of_shed (hq : (s.pcore n).queue i = e :: q) (hs : s.shedNow n i = d :: l) : s.popEvent n i rd =
    ((((s.setPcore n { (s.pcore n).popped i rd e (eventInsert d q) (s.rf (Reg.PCC_TASK_CFG n i) 23 0) with
      shed := tabSet [] (s.pcore n).shed i l }).wf (Reg.PCC_TASK_STAT n i) 31 16 (s.rf (Reg.PCC_TASK_STAT n i) 31 16 - 1)).wb
      (Reg.PCC_TASK_STAT n i) 4 (s.rf (Reg.PCC_TASK_STAT n i) 31 16 - 1 != 0))).wr (Reg.PCC_EV_GT n) e.gt.toNat := by
  simp only [State.popEvent, hq, State.unshed]
  rw [show (s.setPcore n _).shedNow n i = d :: l from (by rw [State.shedNow, State.setPcore_pcore_same]; exact hs)]
  simp only [State.setPcore_pcore_same, State.setPcore_setPcore, State.setPreg, State.wb_pcore_at, State.wf_pcore_at]
  simp only [State.wb_setPcore, State.wf_setPcore, State.setPcore_setPcore, PCore.queue, PCore.popped, tabGet_set_same, tabSet_tabSet]
  rfl

theorem Reg.PCC_EV_GT_ne_STAT (n i : Nat) : Reg.PCC_EV_GT n ≠ Reg.PCC_TASK_STAT n i := by
  unfold Reg.PCC_EV_GT Reg.PCC_TASK_STAT
  omega

theorem State.popEvent_no_shed_spec (hq : (s.pcore n).queue i = e :: q) (hs : s.shedNow n i = []) : let t := s.popEvent n i rd
    t.pcore n = (s.pcore n).popped i rd e q (s.rf (Reg.PCC_TASK_CFG n i) 23 0) ∧ t.rd (Reg.PCC_EV_GT n) = e.gt.toNat ∧
      PcStep n [Reg.PCC_EV_GT n] s t := by
  intro t
  rw [show t = _ from State.popEvent_of_no_shed hq hs]
  refine ⟨?_, ?_, (PcStep.setPcore s n _).trans (.wr _ _ List.mem_cons_self)⟩
  · rw [State.wr_pcore_at, State.setPcore_pcore_same]
  · rw [State.rd_wr_same, Nat.mod_eq_of_lt e.gt.isLt]

theorem State.popEvent_shed_spec (hq : (s.pcore n).queue i = e :: q) (hs : s.shedNow n i = d :: l) : let t := s.popEvent n i rd
    let st := Reg.PCC_TASK_STAT n i
    t.pcore n = { (s.pcore n).popped i rd e (eventInsert d q) (s.rf (Reg.PCC_TASK_CFG n i) 23 0) with
        shed := tabSet [] (s.pcore n).shed i l } ∧
      t.rd (Reg.PCC_EV_GT n) = e.gt.toNat ∧ t.rf st 31 16 = s.rf st 31 16 - 1 ∧ PcStep n [Reg.PCC_EV_GT n, st] s t := by
  intro t st
  rw [show t = _ from State.popEvent_of_shed hq hs]
  refine ⟨?_, ?_, ?_, ((PcStep.setPcore s n _).trans (.wf _ _ _ _ ?stat)).trans ((PcStep.wb _ _ _ ?stat).trans (.wr _ _ List.mem_cons_self))⟩
  case stat => simp [st]
  · rw [State.wr_pcore_at, State.wb_pcore_at, State.wf_pcore_at, State.setPcore_pcore_same]
  · rw [State.rd_wr_same, Nat.mod_eq_of_lt e.gt.isLt]
  · have hlt : s.rf (Reg.PCC_TASK_STAT n i) 31 16 < 2 ^ 16 := fld_lt _ 31 16
    rw [State.rf_wr_ne _ _ (Reg.PCC_EV_GT_ne_STAT n i), State.rf_wb_out _ _ (by decide) (by decide) (by decide),
      State.rf_wf_same _ _ _ _ _ (by decide) (by decide)]
    exact Nat.mod_eq_of_lt (by omega)

end

/-! ### Whether the core is asked for preemption -/

theorem State.preemptAsked_eq_false {s : State} {n : Nat} : s.preemptAsked n = false ↔
    s.rb (Reg.PCC_STATUS n) 3 = true ∨ ∀ x ∈ (s.pcore n).queues, x.2 ≠ [] → s.rb (Reg.PCC_TASK_CFG n x.1) 24 = false := by
  simp [State.preemptAsked, or_iff_not_imp_left]

/-- An event that leaves an input asks for nothing. -/
theorem State.preemptAsked_popped {s t : State} {n i : Nat} {e : PcEvent} {q r : List PcEvent} (hq : (s.pcore n).queue i = e :: q)
    (hs : s.preemptAsked n = false) (hr : (t.pcore n).queues = tabSet [] (s.pcore n).queues i r)
    (hbit : t.rb (Reg.PCC_STATUS n) 3 = s.rb (Reg.PCC_STATUS n) 3)
    (hcfg : ∀ k, t.rb (Reg.PCC_TASK_CFG n k) 24 = s.rb (Reg.PCC_TASK_CFG n k) 24) : t.preemptAsked n = false := by
  rw [State.preemptAsked_eq_false] at hs ⊢
  refine hs.imp hbit.trans fun hs x hx hne => (hcfg _).trans ?_
  have hfind : tabFind (s.pcore n).queues i = some (e :: q) := by
    rw [PCore.queue, tabGet] at hq
    cases h : tabFind (s.pcore n).queues i with
    | none => rw [h] at hq; cases hq
    | some l => rw [h] at hq; exact congrArg some hq
  rcases mem_tabSet (hr ▸ hx) with rfl | hx
  · exact hs (i, e :: q) (mem_of_tabFind hfind) (List.cons_ne_nil _ _)
  · exact hs _ hx hne

/-! ### The obligation -/

section
variable {s : State} {pc : PcId}

theorem State.pcStarted_queue (n i : Nat) : ((s.pcStarted n).pcore n).queue i = (s.pcore n).queue i := by
  rw [State.pcStarted_pcore]
  rfl

theorem State.pcStarted_shedNow (n i : Nat) : (s.pcStarted n).shedNow n i = s.shedNow n i := by
  rw [State.shedNow, State.pcStarted_pcore]
  rfl

/-- WAITEV with an event to take. -/
theorem State.PlainCore.waitev_pops (h : s.PlainCore pc.val) (rd : PReg) (imm : BitVec 9) (he : s.pcNotAtEnd pc.val = true) {i : Nat}
    (hi : (s.pcore pc.val).ready (imm.setWidth 8) = some i) : exec (.waitev pc rd imm) s =
      .next (((s.pcStarted pc.val).popEvent pc.val i rd).pcDone pc.val 4 none) := by
  refine (exec_waitev pc rd imm s).trans (congrArg _ ((State.runPc_next h (fun _ => he) ?_).trans (by rw [ite_self])))
  have hready : ((s.pcStarted pc.val).pcore pc.val).ready (imm.setWidth 8) = some i := by rw [State.pcStarted_pcore]; exact hi
  simp only [hready]

/-- WAITEV without one, and with imm[8]. -/
theorem State.PlainCore.waitev_polls (h : s.PlainCore pc.val) (rd : PReg) (imm : BitVec 9) (he : s.pcNotAtEnd pc.val = true)
    (hi : (s.pcore pc.val).ready (imm.setWidth 8) = none) (himm : imm.getLsbD 8 = true) :
    s.pcWrites pc.val (.waitev pc rd imm) rd 4 0xFFFFFFFF := by
  have hready : ((s.pcStarted pc.val).pcore pc.val).ready (imm.setWidth 8) = none := by rw [State.pcStarted_pcore]; exact hi
  have hgives := h.pcGives (region := 4) (flat := 4) (c := { s.pcore pc.val with p := tabSet 0 (s.pcore pc.val).p rd.toNat 0xFFFFFFFF })
    (fun _ => he) (exec_waitev pc rd imm s) (by simp only [hready, if_pos himm, State.pcStarted_setPreg]; rfl) rfl rfl
  rwa [ite_self] at hgives

/-- WAITEV without one sleeps. -/
theorem State.PlainCore.waitev_sleeps (h : s.PlainCore pc.val) (rd : PReg) (imm : BitVec 9) (he : s.pcNotAtEnd pc.val = true)
    (hi : (s.pcore pc.val).ready (imm.setWidth 8) = none) (himm : imm.getLsbD 8 = false) :
    exec (.waitev pc rd imm) s =
      .next ((s.setPcore pc.val { s.pcore pc.val with long := none, sleep := some (rd, imm.setWidth 8, none) }).setPcState pc.val 2) := by
  refine (exec_waitev pc rd imm s).trans (congrArg _ (State.runPc_done h (fun _ => he) ?_))
  have hready : ((s.pcStarted pc.val).pcore pc.val).ready (imm.setWidth 8) = none := by rw [State.pcStarted_pcore]; exact hi
  simp only [hready, himm]
  rw [State.pcStarted_pcore, State.pcStarted_setPcore]
  rfl

/-- What of the shadow does not say where the program goes on. -/
def PcShadow.restore (h : PcShadow) (d : PCore) : PCore :=
  { d with ctask := h.ctask, tdl := h.tdl, lbeg := h.lbeg, lend := h.lend, flat := h.flat, flatNext := none }

/-- TRET: the shadow is what the core goes on with (R121). -/
theorem State.PlainCore.tret_spec (h : s.PlainCore pc.val) (he : s.pcNotAtEnd pc.val = true) :
    let n := pc.val
    let c := s.pcore n
    ∃ t, exec (.tret pc) s = .next t ∧ t.rb (Reg.PCC_STATUS n) 3 = false ∧
      t.pcore n =
        { c with
          pc := c.shadow.pc, lcnt := c.shadow.lcnt, lbeg := c.shadow.lbeg, lend := c.shadow.lend
          ctask := c.shadow.ctask, tdl := c.shadow.tdl, flat := c.shadow.flat, busy := s.clk + 3, long := none, wait := none } ∧
      t = { s with pcores := t.pcores, regs := t.regs, agenda := t.agenda } ∧
      s.bitsKept t (Reg.PCC_STATUS n) 3 3 ∧ s.regsKept t [Reg.PCC_STATUS n] := by
  intro n c
  let u := (s.pcStarted n).wb (Reg.PCC_STATUS n) 3 false
  have hu : u.pcore n = { c with long := none } := by rw [State.wb_pcore_at, State.pcStarted_pcore]
  have hstepping : c.stepping = false := h.stepping
  have hflat : c.flatNext = none := h.flatNext
  obtain ⟨hcore, -, hframe⟩ := u.pcEnd_spec n 3 c.shadow.pc c.shadow.lcnt c.shadow.restore
  have hx : exec (.tret pc) s = .next (u.pcEnd n 3 c.shadow.pc c.shadow.lcnt c.shadow.restore) := by
    refine (exec_tret pc s).trans (congrArg _ (State.runPc_done h (fun _ => he) ?_))
    simp only [State.pcStarted_pcore]
    rfl
  generalize u.pcEnd n 3 _ _ _ = t at hcore hframe hx
  have hregs : t.regs = u.regs := by rw [hframe]
  have hrd (a : Nat) : t.rd a = u.rd a := State.rd_congr hregs a
  have hbit (i : Nat) : t.rb (Reg.PCC_STATUS n) i = if 3 = i then false else s.rb (Reg.PCC_STATUS n) i := by
    rw [State.rb_of_rd (hrd _), State.rb_wb _ _ _ _ _ _ (by decide)]
    simp only [true_and]
    rfl
  refine ⟨t, hx, hbit 3, ?_, ?_, fun i hi => (hbit i).trans (if_neg (by omega)), fun a ha => ?_⟩
  · rw [hcore, hu, if_neg (by simp [hstepping])]
    simp only [hflat]
    rfl
  · rw [hregs]
    exact hframe
  · exact (hrd a).trans (State.rd_wb_ne _ _ _ (by simpa using fun hx => ha (by simp [hx])))

/-- The state in which STOP has ended the run, before it raises its source. -/
def State.pcStopped (s : State) (n : Nat) : State :=
  let s1 := ((s.pcStarted n).setPcState n 0).wb (Reg.PCC_CTRL n) 0 false
  let c := s1.pcore n
  (s1.setPcore n { c with busy := s.clk + 2, cycles := c.cycles + 2, stepping := false, halted := false }).wb (Reg.PCC_STATUS n) 10 true

theorem Reg.PCC_CTRL_ne_STATUS (n : Nat) : Reg.PCC_CTRL n ≠ Reg.PCC_STATUS n := by
  unfold Reg.PCC_CTRL Reg.PCC_STATUS
  omega

theorem State.pcStopped_pcState (s : State) (n : Nat) : (s.pcStopped n).pcState n = 0 := by
  rw [State.pcStopped, State.pcState_wb (i := 10) _ _ _ (by decide) (by decide), State.setPcore_pcState, State.pcState, State.wb,
    State.rf_wf_ne _ _ (Reg.PCC_CTRL_ne_STATUS n)]
  exact State.setPcState_pcState _ n (by decide)

theorem State.pcStopped_run (s : State) (n : Nat) : (s.pcStopped n).rb (Reg.PCC_CTRL n) 0 = false := by
  simp [State.pcStopped, State.rb_wb, (Reg.PCC_CTRL_ne_STATUS n).symm]

theorem State.pcStopped_stopped (s : State) (n : Nat) : (s.pcStopped n).rb (Reg.PCC_STATUS n) 10 = true := by
  simp [State.pcStopped, State.rb_wb]

theorem State.PlainCore.stop_eq (h : s.PlainCore pc.val) (he : s.pcNotAtEnd pc.val = true) : exec (.pcStop pc) s =
    .next (if s.rb (Reg.PCC_CTRL pc.val) 4 then (s.pcStopped pc.val).source (pcSource pc.val) else s.pcStopped pc.val) := by
  have hstep : ((s.pcStarted pc.val).pcore pc.val).stepping = false := by rw [State.pcStarted_pcore]; exact h.stepping
  have hcommit : (s.pcStarted pc.val).commitMode pc.val = s.pcStarted pc.val :=
    State.commitMode_none _ _ (by rw [State.pcStarted_pcore]; exact h.flatNext)
  refine (exec_pcStop pc s).trans (congrArg _ (State.runPc_done h (fun _ => he) ?_))
  simp only [hstep, hcommit]
  rfl

theorem State.PlainCore.stop_spec (h : s.PlainCore pc.val) (he : s.pcNotAtEnd pc.val = true) :
    let n := pc.val
    let c := s.pcore n
    ∃ t, exec (.pcStop pc) s = .next t ∧ t.pcState n = 0 ∧ t.rb (Reg.PCC_CTRL n) 0 = false ∧
      t.rb (Reg.PCC_STATUS n) 10 = true ∧ (t.pcore n).pc = c.pc ∧ (t.pcore n).p = c.p ∧ (t.pcore n).queues = c.queues ∧
      (s.rb (Reg.PCC_CTRL n) 4 = true → t.rb (Reg.IRT_SRC_CFG (pcSource n)) 2 = true) ∧
      t = { s with pcores := t.pcores, regs := t.regs, agenda := t.agenda } ∧
      s.regsKept t [Reg.PCC_STATUS n, Reg.PCC_CTRL n, Reg.IRT_SRC_CFG (pcSource n)] := by
  intro n c
  let u := s.pcStopped n
  have hu : PcStep n [Reg.PCC_STATUS n, Reg.PCC_CTRL n] s u :=
    ((((PcStep.setPcore s n _).trans ((PcStep.setPcState _ n 0).weaken (by simp))).trans (.wb _ _ _ (by simp))).trans
      (.setPcore _ n _)).trans (.wb _ _ _ (by simp))
  have hcore : u.pcore n = { ({ c with long := none } : PCore).clocked s.clk 0 with
      busy := s.clk + 2, cycles := (({ c with long := none } : PCore).clocked s.clk 0).cycles + 2, stepping := false, halted := false } := by
    simp only [u, State.pcStopped, State.wb_pcore_at, State.setPcore_pcore_same, State.setPcState_pcore, State.pcStarted_pcore]
    rfl
  have hn : n < 256 := pc.isLt
  have hx := h.stop_eq he
  have hstep : RegStep [Reg.IRT_SRC_CFG (pcSource n)] u (if s.rb (Reg.PCC_CTRL n) 4 then u.source (pcSource n) else u) :=
    .ite (.source (.refl _) List.mem_cons_self) (.refl _)
  have hraised (hie : s.rb (Reg.PCC_CTRL n) 4 = true) :
      (if s.rb (Reg.PCC_CTRL n) 4 then u.source (pcSource n) else u).rb (Reg.IRT_SRC_CFG (pcSource n)) 2 = true := by
    rw [if_pos hie]
    exact State.rb_source_pending _ (sourceReserved_pcSource hn)
  rw [show (if s.rb (Reg.PCC_CTRL pc.val) 4 then _ else _) = if s.rb (Reg.PCC_CTRL n) 4 then u.source (pcSource n) else u from rfl] at hx
  generalize (if s.rb (Reg.PCC_CTRL n) 4 then u.source (pcSource n) else u) = t at hx hstep hraised
  have hother (a : Nat) (ha : a < 0x11000000 + n * 0x1000 + 0x1000) : t.rd a = u.rd a :=
    hstep.kept a (by simpa using Reg.pcc_ne_irt hn ha)
  have htcore : t.pcore n = u.pcore n := by rw [State.pcore, hstep.frame, State.pcore]
  refine ⟨t, hx, ?_, ?_, ?_, ?_, ?_, ?_, hraised, ?_, fun a ha => ?_⟩
  · rw [State.pcState, State.rf_congr (hother _ (by unfold Reg.PCC_STATUS; omega))]
    exact s.pcStopped_pcState n
  · rw [State.rb_of_rd (hother _ (by unfold Reg.PCC_CTRL; omega))]
    exact s.pcStopped_run n
  · rw [State.rb_of_rd (hother _ (by unfold Reg.PCC_STATUS; omega))]
    exact s.pcStopped_stopped n
  · rw [htcore, hcore]; rfl
  · rw [htcore, hcore]; rfl
  · rw [htcore, hcore]; rfl
  · have hcores : t.pcores = u.pcores := by rw [hstep.frame]
    have hk := hstep.frame
    generalize t.regs = r, t.agenda = g at hk ⊢
    rw [hk, hu.frame]
  · simp only [List.mem_cons, List.not_mem_nil, or_false, not_or] at ha
    obtain ⟨h1, h2, h3⟩ := ha
    exact (hstep.kept a (by simpa using h3)).trans (hu.kept a (by simp [h1, h2]))

end

/-- Settles O24, by what each form leaves of the core, its registers and the agenda. -/
theorem phaseCoreEvents : Obligations.Phase_core_events := by
  unfold Obligations.Phase_core_events
  intro s pc hplain n c
  have h := State.PlainCore.of_pcPlain hplain
  refine ⟨fun rd imm he => ⟨fun i e q hi hq => ⟨fun d l hs => ?shed, fun hs => ?pop⟩, h.waitev_polls rd imm he, fun hi himm => ?sleep⟩,
    fun rs1 input => ?evsend, fun rs1 act => ?pina, h.tret_spec, h.stop_spec⟩
  case shed =>
    obtain ⟨hcore, hgt, hstat, hpop⟩ := State.popEvent_shed_spec (s := s.pcStarted n) (rd := rd)
      (by rw [State.pcStarted_queue]; exact hq) (by rw [State.pcStarted_shedNow]; exact hs)
    obtain ⟨⟨halting, stepping, hdone⟩, -, hframe⟩ := ((s.pcStarted n).popEvent n i rd).pcDone_spec n 4 none
    have hx := h.waitev_pops rd imm he hi
    rw [show pc.val = n from rfl] at hx
    generalize ((s.pcStarted n).popEvent n i rd).pcDone n 4 none = t at hdone hframe hx
    generalize (s.pcStarted n).popEvent n i rd = u at *
    have hrd (a : Nat) : t.rd a = u.rd a := State.rd_congr (by rw [hframe]) a
    rw [hcore] at hdone
    refine ⟨t, hx, ?_, (hrd _).trans hgt, ?_, (State.rf_congr (hrd _) 31 16).trans hstat⟩
    · rw [hdone]
      exact tabGet_set_same ..
    · rw [hdone]; rfl
  case pop =>
    obtain ⟨hcore, hgt, hpop⟩ := State.popEvent_no_shed_spec (s := s.pcStarted n) (rd := rd)
      (by rw [State.pcStarted_queue]; exact hq) (by rw [State.pcStarted_shedNow]; exact hs)
    rw [State.pcStarted_pcore] at hcore
    have hx := h.waitev_pops rd imm he hi
    rw [show pc.val = n from rfl] at hx
    generalize (s.pcStarted n).popEvent n i rd = u at *
    have hstep : PcStep n [Reg.PCC_EV_GT n] s u := (PcStep.setPcore s n _).trans hpop
    have hpre : u.preemptAsked n = false := by
      refine State.preemptAsked_popped hq h.preempt (by rw [hcore]; rfl) (hstep.rb ?_ 3) fun k => hstep.rb ?_ 24
      · simp only [List.mem_singleton, Reg.PCC_STATUS, Reg.PCC_EV_GT]
        omega
      · simp only [List.mem_singleton, Reg.PCC_TASK_CFG, Reg.PCC_EV_GT]
        omega
    have hquiet : u.PcQuiet n := by
      refine ⟨?_, ?_, ?_, hpre⟩ <;> rw [hcore]
      · exact h.stepping
      · exact h.stopping
      · exact h.halting
    have hdone : u.pcDone n 4 none = u.setPcore n (s.pcAfter n 4 (c.popped i rd e q (s.rf (Reg.PCC_TASK_CFG n i) 23 0))) := by
      rw [State.pcDone_quiet hquiet, hcore, hstep.clk]
      exact congrArg _ (h.done_eq (c := c.popped i rd e q (s.rf (Reg.PCC_TASK_CFG n i) 23 0)) 4 rfl)
    have hend := hstep.trans (.setPcore u n (s.pcAfter n 4 (c.popped i rd e q (s.rf (Reg.PCC_TASK_CFG n i) 23 0))))
    rw [hdone] at hx
    exact ⟨_, hx, hgt, State.setPcore_pcore_same .., hend.frame, hend.kept⟩
  case sleep =>
    have hstep := (PcStep.setPcore s n { c with long := none, sleep := some (rd, imm.setWidth 8, none) }).trans (.setPcState _ n 2)
    refine ⟨_, h.waitev_sleeps rd imm he hi himm, State.setPcState_pcState _ n (by decide), ?_, ?_, ?_, hstep.frame, hstep.kept⟩ <;>
      rw [State.setPcState_pcore, State.setPcore_pcore_same] <;> rfl
  case evsend =>
    obtain ⟨t, hx, hagenda, hcore, -, hframe⟩ := h.sends (c := c) (exec_evsend pc rs1 input s) (by rw [State.pcStarted_preg]; rfl) rfl rfl
    rw [ite_self] at hcore
    exact ⟨t, hx, hagenda, hcore, hframe⟩
  case pina =>
    obtain ⟨t, hx, hagenda, hcore, -, hframe⟩ := h.sends (c := c) (exec_pina pc rs1 act s) (by rw [State.pcStarted_preg]; rfl) rfl rfl
    rw [ite_self] at hcore
    exact ⟨t, hx, hagenda, hcore, hframe⟩

end Sys2Proof.Machine
end

section
/-!
PROOF. Accesses of the phase cores (O20, O21): the bytes of local memory, the regions of a core's address space, and loads and stores.
-/
namespace Sys2Proof.Machine

/-! ### Bytes of local memory (R100, R105) -/

theorem toBytes_getElem (n v j : Nat) (h : j < (toBytes n v).length) : ((toBytes n v)[j]).toNat = v / 2 ^ (8 * j) % 256 := by
  induction n generalizing v j with
  | zero => exact absurd h (Nat.not_lt_zero j)
  | succ n ih =>
    cases j with
    | zero => simp [toBytes]
    | succ j =>
      have hpow : v / 256 / 2 ^ (8 * j) = v / 2 ^ (8 * (j + 1)) := by
        rw [Nat.div_div_eq_div_mul, Nat.mul_succ, Nat.pow_add, Nat.mul_comm]
      exact (ih (v / 256) j (by simpa [toBytes] using h)).trans (by rw [hpow])

/-- No local memory lies in the boot ROM. -/
theorem inRom_local (n off j : Nat) : inRom (localAddr n off + j) = false :=
  decide_eq_false (by unfold localAddr; omega)

/-- A write of local memory writes its bytes and clears marks. -/
theorem State.writeLocal_eq (s : State) (n off bytes v : Nat) : ∃ poison, s.writeLocal n off bytes v =
    { s.setBytes (localAddr n off) (toBytes bytes v) with poison := poison } := by
  rw [State.writeLocal]
  generalize s.setBytes (localAddr n off) (toBytes bytes v) = u
  generalize List.map _ _ = l
  induction l generalizing u with
  | nil => exact ⟨u.poison, rfl⟩
  | cons w l ih =>
    rw [List.foldl_cons]
    split
    · obtain ⟨p, hp⟩ := ih (u.setPoison (localAddr n w) false)
      exact ⟨p, hp⟩
    · exact ih u

theorem State.setBytes_frame (s : State) (a : Nat) (l : List Byte) : s.setBytes a l = { s with mem := (s.setBytes a l).mem } := by
  induction l generalizing s a with
  | nil => rfl
  | cons b l ih =>
    rw [State.setBytes, ih]
    rfl

/-- A write of local memory writes exactly its bytes, least significant first (R100). -/
theorem State.writeLocal_spec (s : State) (n off bytes v : Nat) : let t := s.writeLocal n off bytes v
    (∀ j < bytes, (t.byte (localAddr n off + j)).toNat = v / 2 ^ (8 * j) % 256) ∧
      (∀ y, y < localAddr n off ∨ localAddr n off + bytes ≤ y → t.byte y = s.byte y) ∧ t = { s with mem := t.mem, poison := t.poison } := by
  obtain ⟨p, ht⟩ := s.writeLocal_eq n off bytes v
  intro t
  have hbyte (y : Nat) : t.byte y = (s.setBytes (localAddr n off) (toBytes bytes v)).byte y := by rw [show t = _ from ht]; rfl
  refine ⟨fun j hj => ?_, fun y hy => ?_, ?_⟩
  · rw [hbyte, State.byte_setBytes_in _ _ _ _ (by rw [toBytes_length]; exact hj) (inRom_local n off j)]
    exact toBytes_getElem ..
  · rw [hbyte, State.byte_setBytes_out _ _ _ _ (by rw [toBytes_length]; exact hy)]
  · rw [show t = _ from ht, s.setBytes_frame]

/-! ### The regions of a core's address space (R104) -/

section
variable (s : State) (n : Nat)

@[simp] theorem State.pcStarted_pcPermit (a bytes : Nat) (st : Bool) :
    (s.pcStarted n).pcPermit n a bytes st = s.pcPermit n a bytes st := rfl
@[simp] theorem State.pcStarted_pcPhys (a : Nat) (r : PcRegion) : (s.pcStarted n).pcPhys n a r = s.pcPhys n a r := rfl
@[simp] theorem State.pcStarted_badLocal (off bytes : Nat) (whole : Bool) :
    (s.pcStarted n).badLocal n off bytes whole = s.badLocal n off bytes whole := rfl
@[simp] theorem State.pcStarted_pcAddr (r : PReg) (imm : BitVec 18) : (s.pcStarted n).pcAddr n r imm = s.preg n r + imm.signExtend 32 := by
  rw [State.pcAddr, State.pcStarted_preg]

theorem State.pcPermit_local {s : State} {n : Nat} {a bytes : Nat} (st : Bool) (h : a + bytes ≤ 0x10000) (hb : 0 < bytes) :
    s.pcPermit n a bytes st = .ok .mem := by
  have hmem (i : Nat) (hi : i < bytes) : s.pcRegion n (a + i) st = some .mem := if_pos (by omega)
  have hnone : ((List.range bytes).find? fun i => s.pcRegion n (a + i) st != some .mem) = none := by
    rw [List.find?_eq_none]
    intro i hi
    simp [hmem i (List.mem_range.mp hi)]
  simp only [State.pcPermit, show s.pcRegion n a st = some .mem from hmem 0 hb, hnone]

end

/-! ### Loads and stores -/

theorem exec_pcLoad (pc fn rd rs1 imm) (s : State) : exec (.pcLoad pc fn rd rs1 imm) s = execPcLoad pc fn rd rs1 imm s := rfl
theorem exec_pcStore (pc size rs2 rs1 imm) (s : State) : exec (.pcStore pc size rs2 rs1 imm) s = execPcStore pc size rs2 rs1 imm s := rfl
theorem exec_pcLd (pc dst rs1 imm) (s : State) : exec (.pcLd pc dst rs1 imm) s = execPcLd pc dst rs1 imm s := rfl
theorem exec_pcSd (pc src rs1 imm) (s : State) : exec (.pcSd pc src rs1 imm) s = execPcSd pc src rs1 imm s := rfl

section
variable {s : State} {pc : PcId} {i : Instr} {op : State → PRes} {va : Word32} {bytes flat : Nat} {dest : PcDest}

/-- An access that a byte forbids (R104). -/
theorem State.PlainCore.access_faults {store : Option Word64} {bad : Nat} (h : s.PlainCore pc.val)
    (hx : exec i s = .next (s.runPc pc.val false op))
    (hop : op (s.pcStarted pc.val) = (s.pcStarted pc.val).pcAccess pc.val va bytes flat store dest)
    (hbad : s.pcPermit pc.val va.toNat bytes store.isSome = .error bad) : s.pcFaults pc.val i 3 (bad % 2 ^ 32) := by
  have hfault : (s.pcStarted pc.val).pcAccess pc.val va bytes flat store dest = .fault (s.pcStarted pc.val) .access bad := by
    simp only [State.pcAccess, State.pcStarted_pcPermit, hbad]
  exact State.pcFaults_started pc.isLt (cause := .access) (hx.trans (congrArg _ (State.runPc_faults (e := false) h nofun (hop.trans hfault))))

/-- The comparators let every access of a plain core through. -/
theorem State.PlainCore.pcCompare {n : Nat} (h : s.PlainCore n) (addr kind : Nat) :
    (s.pcStarted n).pcCompare n addr kind = .ok (s.pcStarted n) :=
  State.pcCompare_none (s := s.pcStarted n) h.cmp0 h.cmp1 addr kind

theorem State.PlainCore.local_load (h : s.PlainCore pc.val) (hperm : s.pcPermit pc.val va.toNat bytes false = .ok .mem)
    (hgood : s.badLocal pc.val va.toNat bytes true = none) : (s.pcStarted pc.val).pcAccess pc.val va bytes flat none dest =
      .next ((s.pcStarted pc.val).after 2 (.engine pc
        { vaddr := va, paddr := localAddr pc.val va.toNat, bytes := bytes, store := none, dest := dest }))
        (3 + localClocks va.toNat bytes false) flat := by
  simp only [State.pcAccess, Option.isSome_none, State.pcStarted_pcPermit, hperm, h.pcCompare, Bool.not_false, State.pcStarted_badLocal, hgood,
    finOfNat_val]
  rfl

theorem State.PlainCore.local_store {v : Word64} (h : s.PlainCore pc.val) (hperm : s.pcPermit pc.val va.toNat bytes true = .ok .mem)
    (hgood : s.badLocal pc.val va.toNat bytes false = none) : (s.pcStarted pc.val).pcAccess pc.val va bytes flat (some v) dest =
      .next ((s.pcStarted pc.val).after (1 + localClocks va.toNat bytes true) (.engine pc
        { vaddr := va, paddr := localAddr pc.val va.toNat, bytes := bytes, store := some v, dest := dest }))
        (2 + localClocks va.toNat bytes true) flat := by
  simp only [State.pcAccess, Option.isSome_some, State.pcStarted_pcPermit, hperm, h.pcCompare, Bool.not_true, State.pcStarted_badLocal, hgood,
    finOfNat_val]
  rfl

theorem State.PlainCore.engine_load (h : s.PlainCore pc.val) (hperm : s.pcPermit pc.val va.toNat 4 false = .ok .engine) :
    (s.pcStarted pc.val).pcAccess pc.val va 4 flat none dest =
      .next ((s.pcStarted pc.val).after (2 + s.slotTerm pc.val) (.engine pc
        { vaddr := va, paddr := s.pcPhys pc.val va.toNat .engine, bytes := 4, store := none, dest := dest })) (9 + s.slotTerm pc.val) flat := by
  simp only [State.pcAccess, Option.isSome_none, State.pcStarted_pcPermit, hperm, h.pcCompare, finOfNat_val]
  rfl

theorem State.PlainCore.engine_store {v : Word64} (h : s.PlainCore pc.val) (hperm : s.pcPermit pc.val va.toNat 4 true = .ok .engine) :
    (s.pcStarted pc.val).pcAccess pc.val va 4 flat (some v) dest =
      .next ((s.pcStarted pc.val).after (3 + s.slotTerm pc.val) (.engine pc
        { vaddr := va, paddr := s.pcPhys pc.val va.toNat .engine, bytes := 4, store := some v, dest := dest })) (4 + s.slotTerm pc.val) flat := by
  simp only [State.pcAccess, Option.isSome_some, State.pcStarted_pcPermit, hperm, h.pcCompare, finOfNat_val]
  rfl

end

/-! ### What an access of local memory does when it is performed -/

/-- Little-endian bytes that are sign-extended. -/
theorem ofInt_toSigned {w : Nat} (hw : 0 < w) (v : Nat) : BitVec.ofInt 32 (toSigned w v) = (BitVec.ofNat w v).signExtend 32 := by
  have hpow : 2 ^ w = 2 * 2 ^ (w - 1) := by rw [← Nat.pow_succ', Nat.succ_eq_add_one, Nat.sub_add_cancel hw]
  rw [BitVec.signExtend, BitVec.toInt_eq_toNat_cond, BitVec.toNat_ofNat]
  refine congrArg _ ?_
  unfold toSigned
  dsimp only
  by_cases hlt : v % 2 ^ w < 2 ^ (w - 1)
  · rw [if_pos hlt, if_pos (by omega)]
  · rw [if_neg hlt, if_neg (by omega)]
    norm_cast

theorem State.setPreg_eq (s : State) (n : Nat) (r : PReg) (v : Word32) :
    s.setPreg n r v = s.setPcore n { s.pcore n with p := tabSet 0 (s.pcore n).p r.toNat v } := rfl

theorem State.setPpair_eq (s : State) (n : Nat) (r : PReg) (v : Word64) : s.setPpair n r v = s.setPcore n { s.pcore n with
    p := tabSet 0 (tabSet 0 (s.pcore n).p r.toNat (v.setWidth 32)) (r + 1).toNat ((v >>> 32).setWidth 32) } := by
  rw [State.setPpair, s.setPreg_eq, State.setPcore_setPreg]

/-- The upper half of a pair that is read. -/
theorem ofNat_pair_high (v : Nat) : (BitVec.ofNat 64 v >>> 32).setWidth 32 = BitVec.ofNat 32 (v / 2 ^ 32) := by
  rw [setWidth_shift_eq, BitVec.toNat_ofNat]
  apply BitVec.eq_of_toNat_eq
  rw [BitVec.toNat_ofNat, BitVec.toNat_ofNat]
  omega

theorem ofNat_pair_low (v : Nat) : (BitVec.ofNat 64 v).setWidth 32 = BitVec.ofNat 32 v := by
  apply BitVec.eq_of_toNat_eq
  rw [BitVec.toNat_setWidth, BitVec.toNat_ofNat, BitVec.toNat_ofNat]
  omega

section
variable (u : State) (n : Nat) (bytes x : Nat) (r : PReg)

theorem State.pcDeliver_signed (hb : 0 < bytes) : u.pcDeliver n bytes (.reg r true) x = u.setPcore n { u.pcore n with
    p := tabSet 0 (u.pcore n).p r.toNat ((BitVec.ofNat (8 * bytes) x).signExtend 32) } := by
  rw [← ofInt_toSigned (by omega)]
  rfl

theorem State.pcDeliver_unsigned : u.pcDeliver n bytes (.reg r false) x = u.setPcore n { u.pcore n with
    p := tabSet 0 (u.pcore n).p r.toNat (BitVec.ofNat 32 x) } := rfl

theorem State.pcDeliver_pair : u.pcDeliver n bytes (.pair r) x = u.setPcore n { u.pcore n with
    p := tabSet 0 (tabSet 0 (u.pcore n).p r.toNat (BitVec.ofNat 32 x)) (r + 1).toNat (BitVec.ofNat 32 (x / 2 ^ 32)) } := by
  rw [State.pcDeliver, State.setPpair_eq, ofNat_pair_low, ofNat_pair_high]

end

section
variable (u : State) (pc : PcId) {va : Word32} {bytes : Nat}

/-- A load of local memory gives its bytes to its destination. -/
theorem State.fall_load (dest : PcDest) (h : va.toNat < 0x10000) :
    u.fall (.engine pc { vaddr := va, paddr := localAddr pc.val va.toNat, bytes := bytes, store := none, dest := dest }) =
      u.pcDeliver pc.val bytes dest (u.bytes (localAddr pc.val va.toNat) bytes) := if_pos h

theorem State.fall_store {v : Word64} (dest : PcDest) (h : va.toNat < 0x10000) :
    u.fall (.engine pc { vaddr := va, paddr := localAddr pc.val va.toNat, bytes := bytes, store := some v, dest := dest }) =
      u.writeLocal pc.val va.toNat bytes v.toNat := if_pos h

end

/-- Settles O20, by the bytes that each access moves when it is performed. -/
theorem phaseCoreLocalMemory : Obligations.Phase_core_local_memory := by
  unfold Obligations.Phase_core_local_memory
  intro s pc rs1 imm hplain n va a ok performed loads stored v
  have h := State.PlainCore.of_pcPlain hplain
  have hload (i : Instr) (op : State → PRes) (bytes : Nat) (dest : PcDest) (gives : State → PCore) (hx : exec i s = .next (s.runPc n false op))
      (hop : op (s.pcStarted n) = (s.pcStarted n).pcAccess n va bytes (if bytes = 8 then 17 else 16) none dest)
      (hok : ok bytes true) (hb : 0 < bytes)
      (hgives : ∀ u : State, u.pcDeliver n bytes dest (u.bytes (localAddr n a) bytes) = u.setPcore n (gives u)) :
      loads i bytes dest gives := by
    obtain ⟨hin, hgood⟩ := hok
    refine ⟨h.sends (c := s.pcore n) hx (hop.trans (h.local_load (State.pcPermit_local false hin hb) hgood)) rfl rfl, fun u => ?_⟩
    have hfall := (u.fall_load pc dest (by omega)).trans (hgives u)
    rw [hfall]
    exact ⟨u.setPcore_pcore_same n _, rfl, fun k hk => u.setPcore_pcore_ne n _ k hk.symm⟩
  have hstore (i : Instr) (op : State → PRes) (bytes : Nat) (d : Word64) (hx : exec i s = .next (s.runPc n false op))
      (hop : op (s.pcStarted n) = (s.pcStarted n).pcAccess n va bytes 11 (some d) (.reg 0 false)) (hok : ok bytes false) (hb : 0 < bytes) :
      stored i bytes d := by
    obtain ⟨hin, hgood⟩ := hok
    refine ⟨h.sends (c := s.pcore n) hx (hop.trans (h.local_store (State.pcPermit_local true hin hb) hgood)) rfl rfl, fun u => ?_⟩
    intro t
    rw [show t = _ from u.fall_store pc _ (by omega)]
    exact u.writeLocal_spec n a bytes d.toNat
  have haddr : (s.pcStarted n).pcAddr n rs1 imm = va := s.pcStarted_pcAddr n rs1 imm
  refine ⟨fun rd => ⟨fun hok => ⟨?lb, ?lbu⟩, fun hok => ⟨?lh, ?lhu⟩, fun hok => ?lw⟩, fun hok => ⟨fun r hr => ?ld, ?lda0, ?lda1⟩,
    fun r hr => ⟨h.illegal (exec_pcLd ..) (if_pos hr), h.illegal (exec_pcSd ..) (if_pos hr)⟩,
    fun rs2 => ⟨fun hok => ?sb, fun hok => ?sh, fun hok => ?sw⟩, fun hok => ⟨fun r hr => ?sd, fun acc => ?sta⟩⟩
  case lb => exact hload _ _ 1 _ _ (exec_pcLoad ..) (by rw [haddr]; rfl) hok (by decide) fun u => u.pcDeliver_signed n 1 _ rd (by decide)
  case lbu => exact hload _ _ 1 _ _ (exec_pcLoad ..) (by rw [haddr]; rfl) hok (by decide) fun u => u.pcDeliver_unsigned n 1 _ rd
  case lh => exact hload _ _ 2 _ _ (exec_pcLoad ..) (by rw [haddr]; rfl) hok (by decide) fun u => u.pcDeliver_signed n 2 _ rd (by decide)
  case lhu => exact hload _ _ 2 _ _ (exec_pcLoad ..) (by rw [haddr]; rfl) hok (by decide) fun u => u.pcDeliver_unsigned n 2 _ rd
  case lw => exact hload _ _ 4 _ _ (exec_pcLoad ..) (by rw [haddr]; rfl) hok (by decide) fun u => u.pcDeliver_unsigned n 4 _ rd
  case ld =>
    exact hload _ _ 8 _ _ (exec_pcLd ..) ((if_neg (by simp [hr])).trans (by rw [haddr]; rfl)) hok (by decide)
      fun u => u.pcDeliver_pair n 8 _ r
  case lda0 => exact hload _ _ 8 _ _ (exec_pcLd ..) (by rw [haddr]; rfl) hok (by decide) fun u => rfl
  case lda1 => exact hload _ _ 8 _ _ (exec_pcLd ..) (by rw [haddr]; rfl) hok (by decide) fun u => rfl
  case sb => exact hstore _ _ 1 _ (exec_pcStore ..) (by rw [haddr, State.pcStarted_preg]) hok (by decide)
  case sh => exact hstore _ _ 2 _ (exec_pcStore ..) (by rw [haddr, State.pcStarted_preg]) hok (by decide)
  case sw => exact hstore _ _ 4 _ (exec_pcStore ..) (by rw [haddr, State.pcStarted_preg]) hok (by decide)
  case sd => exact hstore _ _ 8 _ (exec_pcSd ..) ((if_neg (by simp [hr])).trans (by rw [haddr, State.pcStarted_ppair])) hok (by decide)
  case sta => exact hstore _ _ 8 _ (exec_pcSd ..) (by rw [← haddr, ← s.pcStarted_pacc n acc]) hok (by decide)

/-! ### Windows (R111) -/

/-- Messages that are sent one after another all come onto the agenda. -/
theorem mem_agenda_foldl_send {α : Type} (f : α → Instr) (ns : Nat) (l : List α) (s : State) :
    let t := l.foldl (fun s x => s.send ns (f x)) s
    (∀ e ∈ s.agenda, e ∈ t.agenda) ∧ (∀ x ∈ l, (s.clk + ns, Act.cmd (f x)) ∈ t.agenda) ∧ AgendaStep s t := by
  induction l generalizing s with
  | nil => exact ⟨fun e he => he, nofun, rfl⟩
  | cons y l ih =>
    obtain ⟨hold, hnew, hstep⟩ := ih (s.send ns (f y))
    have hsent : (s.clk + ns, Act.cmd (f y)) ∈ (s.send ns (f y)).agenda := agendaInsert_self _ _ _
    refine ⟨fun e he => hold e (mem_agendaInsert_of_mem he), fun x hx => ?_, (AgendaStep.send s ns (f y)).trans hstep⟩
    rcases List.mem_cons.mp hx with rfl | hx
    · exact hold _ hsent
    · exact hnew x hx

/-- The state in which a load of window memory has asked for its lines. -/
def State.windowAsked (s : State) (n : Nat) (x : PcAccess) (lines : List Nat) : State :=
  lines.foldl (fun t l => t.send reqNs (.readOnce (busReq (s.pcRequester n) l (s.pcStamp n))))
    (s.setPcore n { s.pcore n with wait := some (.window x lines []), long := none })

/-- The lines that a load of a word touches. -/
def wordLines (p : Nat) : List Nat := if lineOf p = lineOf (p + 3) then [lineOf p] else [lineOf p, lineOf (p + 3)]

theorem mem_wordLines (p : Nat) : lineOf p ∈ wordLines p ∧ lineOf (p + 3) ∈ wordLines p := by
  unfold wordLines
  split
  · next h => exact ⟨List.mem_cons_self, h ▸ List.mem_cons_self⟩
  · exact ⟨List.mem_cons_self, by simp⟩

section
variable {s : State} {n : Nat} {W : Win} {x : PcAccess}

/-- A load of a word of window memory in an open window waits for its lines. -/
theorem State.pcWindowAccess_homed (hx : x.bytes = 4) (hload : x.store = none) (hfirst : s.window x.paddr = some W)
    (hlast : s.window (x.paddr + 3) = some W) (ho : windowOpen W x.paddr (s.pcRequester n) = true)
    (ho3 : windowOpen W (x.paddr + 3) (s.pcRequester n) = true) (hm : s.mode ≠ modeStandby) (hh : s.inHomed x.paddr = true) :
    (s.pcStarted n).pcWindowAccess n x = .done (s.windowAsked n x (wordLines x.paddr)) := by
  have hlast' : (s.pcStarted n).window (x.paddr + 3) = some W := hlast
  have hfirst' : (s.pcStarted n).window x.paddr = some W := hfirst
  have hm' : (s.pcStarted n).mode ≠ modeStandby := hm
  have hh' : (s.pcStarted n).inHomed x.paddr = true := hh
  unfold State.pcWindowAccess
  simp only [hx, hload, hlast', hfirst', show x.paddr + 4 - 1 = x.paddr + 3 from rfl, State.pcStarted_pcRequester, ho, ho3, hh', hm',
    State.pcStarted_pcStamp, State.pcStarted_setPcore, State.pcStarted_pcore]
  rw [if_neg (by decide), if_neg (by simp), if_neg (fun h => h.1), if_pos trivial]
  rfl

end

section
variable {s : State} {pc : PcId} {va : Word32} {dest : PcDest} {w : Nat}

theorem State.PlainCore.window_flat (h : s.PlainCore pc.val) (hperm : s.pcPermit pc.val va.toNat 4 false = .ok (.window w))
    (hflat : (s.pcore pc.val).flat = true) :
    (s.pcStarted pc.val).pcAccess pc.val va 4 16 none dest = .fault (s.pcStarted pc.val) .flat va.toNat := by
  simp only [State.pcAccess, Option.isSome_none, State.pcStarted_pcPermit, hperm, h.pcCompare, State.pcStarted_pcore]
  exact if_pos hflat

theorem State.PlainCore.window_load (h : s.PlainCore pc.val) (hperm : s.pcPermit pc.val va.toNat 4 false = .ok (.window w))
    (hflat : (s.pcore pc.val).flat = false) : (s.pcStarted pc.val).pcAccess pc.val va 4 16 none dest =
      (s.pcStarted pc.val).pcWindowAccess pc.val
        { vaddr := va, paddr := s.pcPhys pc.val va.toNat (.window w), bytes := 4, store := none, dest := dest } := by
  simp only [State.pcAccess, Option.isSome_none, State.pcStarted_pcPermit, State.pcStarted_pcPhys, hperm, h.pcCompare]
  rw [State.pcStarted_pcore]
  exact if_neg (by simp [hflat])

end

/-- Settles O21, by what an access of each region comes to. -/
theorem phaseCoreOtherRegions : Obligations.Phase_core_other_regions := by
  unfold Obligations.Phase_core_other_regions
  intro s pc rd rs1 imm hplain n va k
  have h := State.PlainCore.of_pcPlain hplain
  have haddr : (s.pcStarted n).pcAddr n rs1 imm = va := s.pcStarted_pcAddr n rs1 imm
  refine ⟨fun bad hbad => ?loadDenied,
    fun bad hbad => ?storeDenied, fun hok => ?load, fun hok => ?store,
    fun w hok => ⟨fun hflat => ?flat, fun p W hp hflat hfirst hlast ho ho3 hm hh => ?window⟩⟩
  case loadDenied =>
    exact h.access_faults (store := none) (flat := 16) (dest := .reg rd false) (exec_pcLoad pc .lw rd rs1 imm s) (by rw [haddr]) hbad
  case storeDenied =>
    exact h.access_faults (store := some ((s.preg n rd).setWidth 64)) (flat := 11) (dest := .reg 0 false) (exec_pcStore pc .sw rd rs1 imm s)
      (by rw [haddr, State.pcStarted_preg]) hbad
  case load =>
    obtain ⟨t, hx, hagenda, hcore, -, hframe⟩ :=
      h.sends (c := s.pcore n) (exec_pcLoad pc .lw rd rs1 imm s) (by rw [haddr]; exact h.engine_load hok) rfl rfl
    exact ⟨t, hx, hagenda, hcore, hframe⟩
  case store =>
    obtain ⟨t, hx, hagenda, hcore, -, hframe⟩ :=
      h.sends (c := s.pcore n) (exec_pcStore pc .sw rd rs1 imm s) (by rw [haddr, State.pcStarted_preg]; exact h.engine_store hok) rfl rfl
    exact ⟨t, hx, hagenda, hcore, hframe⟩
  case flat =>
    exact h.faults (e := false) (cause := .flat) pc.isLt nofun (exec_pcLoad pc .lw rd rs1 imm s)
      (by rw [haddr]; exact h.window_flat hok hflat) va.isLt
  case window =>
    subst hp
    let x : PcAccess := { vaddr := va, paddr := s.pcPhys n va.toNat (.window w), bytes := 4, store := none, dest := .reg rd false }
    obtain ⟨-, hsent, hstep⟩ := mem_agenda_foldl_send (fun l => Instr.readOnce (busReq (s.pcRequester n) l (s.pcStamp n))) reqNs
      (wordLines x.paddr) (s.setPcore n { s.pcore n with wait := some (.window x (wordLines x.paddr) []), long := none })
    have hx : exec (.pcLoad pc .lw rd rs1 imm) s = .next (s.windowAsked n x (wordLines x.paddr)) := by
      refine (exec_pcLoad pc .lw rd rs1 imm s).trans (congrArg _ (State.runPc_done (e := false) h nofun ?_))
      rw [haddr]
      exact (h.window_load hok hflat).trans (State.pcWindowAccess_homed (x := x) rfl rfl hfirst hlast ho ho3 hm hh)
    have hcore : (s.windowAsked n x (wordLines x.paddr)).pcore n =
        { s.pcore n with wait := some (.window x (wordLines x.paddr) []), long := none } := by
      rw [State.windowAsked, State.pcore, hstep]
      exact s.setPcore_pcore_same n _
    refine ⟨_, x, wordLines x.paddr, hx, ?_, rfl, rfl, rfl, (mem_wordLines _).1, (mem_wordLines _).2, hsent, ?_, ?_⟩
    · rw [hcore]
    · rw [hcore]
    · have hcores : (s.windowAsked n x (wordLines x.paddr)).pcores = _ := congrArg State.pcores hstep
      rw [hcores]
      exact hstep

end Sys2Proof.Machine
end

section
/-!
PROOF. What happens at a phase core beside its instructions (O26): events that enter, a sleeping WAITEV that ends, the entry to
preemption, accesses of its local memory by others, and the post queue.
-/
namespace Sys2Proof.Machine

/-! ### The arms of the dispatch -/

theorem exec_taskEvent (pc input source instant) (s : State) :
    exec (.taskEvent pc input source instant) s = execTaskEvent pc input source instant s := rfl
theorem exec_waitevWake (pc) (s : State) : exec (.waitevWake pc) s = execWaitevWake pc s := rfl
theorem exec_preemptionEntry (pc) (s : State) : exec (.preemptionEntry pc) s = execPreemptionEntry pc s := rfl
theorem exec_localMemoryAccess (pc who offset size store) (s : State) :
    exec (.localMemoryAccess pc who offset size store) s = execLocalMemoryAccess pc who offset size store s := rfl
theorem exec_postQueueDrain (pc) (s : State) : exec (.postQueueDrain pc) s = execPostQueueDrain pc s := rfl


/-! ### States that differ in one core, in registers and in the agenda -/

/-- `t` is `s` but for phase core n, the registers listed and the agenda. -/
structure PcReach (n : Nat) (rs : List Nat) (s t : State) : Prop where
  frame : t = { s with pcores := t.pcores, regs := t.regs, agenda := t.agenda }
  others : ∀ k, k ≠ n → t.pcore k = s.pcore k
  kept : s.regsKept t rs

section
variable {n : Nat} {rs : List Nat} {s t u : State}

theorem PcReach.of_step (h : PcStep n rs s t) : PcReach n rs s t := by
  refine ⟨?_, h.others, h.kept⟩
  have hf := h.frame
  generalize t.regs = r, t.pcores = p at hf ⊢
  rw [hf]

theorem PcReach.of_agenda (h : AgendaStep s t) : PcReach n rs s t := by
  unfold AgendaStep at h
  refine ⟨?_, fun k _ => ?_, fun a _ => State.rd_congr (by rw [h]) a⟩
  · generalize t.agenda = g at h ⊢
    rw [h]
  · rw [State.pcore, h, State.pcore]

theorem PcReach.trans (h : PcReach n rs s t) (k : PcReach n rs t u) : PcReach n rs s u := by
  refine ⟨?_, fun m hm => (k.others m hm).trans (h.others m hm), h.kept.trans k.kept⟩
  have hk := k.frame
  generalize u.regs = r, u.pcores = l, u.agenda = g at hk ⊢
  rw [hk, h.frame]

theorem PcReach.refl (s : State) : PcReach n rs s s := .of_step (.refl s)

theorem PcReach.ite {c : Prop} [Decidable c] (h : PcReach n rs s t) (k : PcReach n rs s u) : PcReach n rs s (if c then t else u) := by
  split <;> assumption

theorem PcReach.mem (h : PcReach n rs s t) : t.mem = s.mem := by rw [h.frame]
theorem PcReach.gt (h : PcReach n rs s t) : t.gt = s.gt := by rw [h.frame]

end

/-! ### Events that enter (R117) -/

/-- The entry to preemption keeps the events of the core. -/
theorem State.preempt_queues (s : State) (n : Nat) : ((s.preempt n).pcore n).queues = (s.pcore n).queues := by
  obtain ⟨pc, lcnt, busy, p, habandoned⟩ := (s.pcore n).abandoned_eq s.clk
  simp only [State.preempt, State.setPcState_pcore, State.wb_pcore_at, State.wr_pcore_at, State.setPcore_pcore_same, State.commitMode_pcore,
    s.abandon_eq, habandoned]
  rw [PCore.committed_eq]
  rfl

theorem State.testPreempt_reach (s : State) (n : Nat) : PcReach n [Reg.PCC_STATUS n, Reg.PCC_PRE_PC n] s (s.testPreempt n) :=
  .ite (.ite (.of_agenda (.send _ _ _)) (.of_step (s.preempt_step n))) (.refl s)

theorem State.testPreempt_queues (s : State) (n : Nat) : ((s.testPreempt n).pcore n).queues = (s.pcore n).queues := by
  rw [State.testPreempt]
  split
  · split
    · rfl
    · exact s.preempt_queues n
  · rfl

theorem State.rouse_reach {rs : List Nat} (s : State) (n : Nat) : PcReach n rs s (s.rouse n) := by
  rw [State.rouse]
  split
  · exact .ite ((PcReach.of_step (.setPcore s n _)).trans (.of_agenda (.send _ _ _))) (.refl s)
  · exact .refl s

theorem State.rouse_queues (s : State) (n : Nat) : ((s.rouse n).pcore n).queues = (s.pcore n).queues := by
  rw [State.rouse]
  split
  · split
    · exact (congrArg PCore.queues (s.setPcore_pcore_same n _)).trans rfl
    · rfl
  · rfl

section
variable (s : State) (n input : Nat) (source : BitVec 11) (gt : Word64)

theorem State.enterEvent_reach : PcReach n [Reg.PCC_TASK_STAT n input] s (s.enterEvent n input source gt) := by
  rw [State.enterEvent]
  split
  · exact .of_step (.setPcore s n _)
  · refine (PcReach.of_step ?_).trans (.of_agenda (.after _ _ _))
    exact (((PcStep.setPcore s n _).trans (.wb _ _ _ List.mem_cons_self)).trans (.wf _ _ _ _ List.mem_cons_self)).trans (.setPcore _ n _)

/-- Up to eight events stay at an input. -/
theorem State.enterEvent_queues : ((s.enterEvent n input source gt).pcore n).queues = tabSet [] (s.pcore n).queues input
    ((eventInsert { source := source, gt := gt, clk := s.clk } ((s.pcore n).queue input)).take 8) := by
  rw [State.enterEvent]
  split
  · exact congrArg PCore.queues (s.setPcore_pcore_same n _)
  · refine (congrArg PCore.queues (State.setPcore_pcore_same _ n _)).trans ?_
    simp only [State.wf_pcore_at, State.wb_pcore_at, State.setPcore_pcore_same]

/-- An event that finds room changes no register. -/
theorem State.enterEvent_room (h : (eventInsert { source := source, gt := gt, clk := s.clk } ((s.pcore n).queue input)).length ≤ 8) (a : Nat) :
    (s.enterEvent n input source gt).rd a = s.rd a := by
  rw [State.enterEvent]
  simp only [List.drop_eq_nil_of_le h]
  rfl

/-- A ninth event is counted. -/
theorem State.enterEvent_drop (h : 8 < (eventInsert { source := source, gt := gt, clk := s.clk } ((s.pcore n).queue input)).length) :
    let t := s.enterEvent n input source gt
    let st := Reg.PCC_TASK_STAT n input
    t.rb st 4 = true ∧ t.rf st 31 16 = min 65535 (s.rf st 31 16 + 1) := by
  intro t st
  have hregs : t.regs = ((s.wb st 4 true).wf st 31 16 (satInc 16 (s.rf st 31 16))).regs := by
    simp only [t, State.enterEvent]
    split
    · next hnil => exact absurd (List.drop_eq_nil_iff.mp hnil) (by omega)
    · rfl
  have hrd (a : Nat) := State.rd_congr hregs a
  refine ⟨?_, ?_⟩
  · rw [State.rb_of_rd (hrd st), State.rb_wf_out _ _ (by decide) (by decide) (.inl (by decide)), State.rb_wb _ _ _ _ _ _ (by decide)]
    simp
  · rw [State.rf_congr (hrd st), State.rf_wf_same _ _ _ _ _ (by decide) (by decide)]
    have hlt : s.rf st 31 16 < 2 ^ 16 := fld_lt _ 31 16
    rw [satInc, Nat.min_comm, Nat.mod_eq_of_lt (by omega)]
    rfl

end

theorem State.taskEvent_spec (s : State) (pc : PcId) (input : BitVec 3) (source : BitVec 11) (gt : Word64) :
    let n := pc.val
    let c := s.pcore n
    let q := eventInsert { source := source, gt := gt, clk := s.clk } (c.queue input.toNat)
    let st := Reg.PCC_TASK_STAT n input.toNat
    ∃ t, exec (.taskEvent pc input source gt) s = .next t ∧ (t.pcore n).queue input.toNat = q.take 8 ∧
      (∀ k, k ≠ input.toNat → (t.pcore n).queue k = c.queue k) ∧ (q.length ≤ 8 → t.rd st = s.rd st) ∧
      (8 < q.length → t.rb st 4 = true ∧ t.rf st 31 16 = min 65535 (s.rf st 31 16 + 1)) ∧
      t.mem = s.mem ∧ t.gt = s.gt ∧ (∀ k, k ≠ n → t.pcore k = s.pcore k) := by
  intro n c q st
  let u := s.enterEvent n input.toNat source gt
  let v := if u.preemptAsked n then u.testPreempt n else u
  have hu : PcReach n [st] s u := s.enterEvent_reach n input.toNat source gt
  have ht : PcReach n [Reg.PCC_STATUS n, Reg.PCC_PRE_PC n] u (v.rouse n) :=
    (PcReach.ite (u.testPreempt_reach n) (.refl u)).trans (v.rouse_reach n)
  have hqueues : ((v.rouse n).pcore n).queues = tabSet [] c.queues input.toNat (q.take 8) := by
    have hv : (v.pcore n).queues = (u.pcore n).queues := by
      simp only [v]
      split
      · exact u.testPreempt_queues n
      · rfl
    rw [v.rouse_queues, hv]
    exact s.enterEvent_queues n input.toNat source gt
  have hst : (v.rouse n).rd st = u.rd st := by
    refine ht.kept st ?_
    simp only [List.mem_cons, List.not_mem_nil, or_false, st, Reg.PCC_TASK_STAT, Reg.PCC_STATUS, Reg.PCC_PRE_PC]
    omega
  refine ⟨v.rouse n, exec_taskEvent pc input source gt s, ?_, fun k hk => ?_, fun hroom => ?_, fun hfull => ?_, ht.mem.trans hu.mem,
    ht.gt.trans hu.gt, fun k hk => (ht.others k hk).trans (hu.others k hk)⟩
  · rw [PCore.queue, hqueues, tabGet_set_same]
  · rw [PCore.queue, hqueues, tabGet_set_ne _ _ _ _ hk.symm, PCore.queue]
  · exact hst.trans (s.enterEvent_room n input.toNat source gt hroom st)
  · obtain ⟨hovf, hdrops⟩ := s.enterEvent_drop n input.toNat source gt hfull
    exact ⟨(State.rb_of_rd hst 4).trans hovf, (State.rf_congr hst 31 16).trans hdrops⟩

/-! ### A sleeping WAITEV (R119) -/

/-- The pop of an event: `r` stays at the input. -/
theorem State.popEvent_spec {s : State} {n i : Nat} {rd : PReg} {e : PcEvent} {q : List PcEvent} (hq : (s.pcore n).queue i = e :: q) :
    let t := s.popEvent n i rd
    let st := Reg.PCC_TASK_STAT n i
    ∃ r shed, t.pcore n = { (s.pcore n).popped i rd e r (s.rf (Reg.PCC_TASK_CFG n i) 23 0) with shed := shed } ∧
      t.rd (Reg.PCC_EV_GT n) = e.gt.toNat ∧ PcStep n [Reg.PCC_EV_GT n, st] s t ∧
      (s.shedNow n i = [] → r = q ∧ PcStep n [Reg.PCC_EV_GT n] s t) ∧
      (∀ d l, s.shedNow n i = d :: l → r = eventInsert d q ∧ t.rf st 31 16 = s.rf st 31 16 - 1) := by
  intro t st
  cases hs : s.shedNow n i with
  | nil =>
    obtain ⟨hcore, hgt, hstep⟩ := State.popEvent_no_shed_spec (rd := rd) hq hs
    exact ⟨q, _, hcore, hgt, hstep.weaken (by simp), fun _ => ⟨rfl, hstep⟩, nofun⟩
  | cons d l =>
    obtain ⟨hcore, hgt, hstat, hstep⟩ := State.popEvent_shed_spec (rd := rd) hq hs
    refine ⟨eventInsert d q, _, hcore, hgt, hstep, nofun, fun d' l' hd => ?_⟩
    obtain ⟨rfl, rfl⟩ := List.cons.inj hd
    exact ⟨rfl, hstat⟩

theorem State.waitevWake_spec {s : State} {pc : PcId} {rd : PReg} {mask : BitVec 8} {due i : Nat} {e : PcEvent} {q : List PcEvent}
    (hsleep : (s.pcore pc.val).sleep = some (rd, mask, some due)) (hstate : s.pcState pc.val = 2) (hdue : due ≤ s.clk)
    (hclk : s.modes.refclk = true) (hi : (s.pcore pc.val).ready mask = some i) (hq : (s.pcore pc.val).queue i = e :: q) :
    let n := pc.val
    let c := s.pcore n
    ∃ t, exec (.waitevWake pc) s = .next t ∧ t.pcState n = 1 ∧ t.rd (Reg.PCC_EV_GT n) = e.gt.toNat ∧ (t.pcore n).sleep = none ∧
      (t.pcore n).ctask = BitVec.ofNat 3 i ∧
      (s.shedNow n i = [] → (t.pcore n).queue i = q ∧ s.regsKept t [Reg.PCC_EV_GT n, Reg.PCC_STATUS n]) ∧
      (∀ d l, s.shedNow n i = d :: l → (t.pcore n).queue i = eventInsert d q ∧ t.rf (Reg.PCC_TASK_STAT n i) 31 16 =
        s.rf (Reg.PCC_TASK_STAT n i) 31 16 - 1 ∧ s.regsKept t [Reg.PCC_EV_GT n, Reg.PCC_STATUS n, Reg.PCC_TASK_STAT n i]) ∧
      (t.pcore n).tdl = e.gt + BitVec.ofNat 64 (s.rf (Reg.PCC_TASK_CFG n i) 23 0) ∧
      (t.pcore n).p = tabSet 0 c.p rd.toNat (BitVec.ofNat 32 (i * 2 ^ 16 + e.source.toNat)) ∧
      (t.pcore n).pc = (c.follow none).1 ∧ t.mem = s.mem := by
  intro n c
  let s0 := s.setPcore n { c with sleep := none }
  have hs0 : s0.pcore n = { c with sleep := none } := s.setPcore_pcore_same n _
  have hshed : s0.shedNow n i = s.shedNow n i := by
    rw [State.shedNow, hs0]
    rfl
  obtain ⟨r, shed, hcore, hgt, hpop, hroom, hfull⟩ := State.popEvent_spec (s := s0) (n := n) (rd := rd) (i := i) (e := e) (q := q)
    (by rw [hs0]; exact hq)
  rw [hs0] at hcore
  rw [hshed] at hroom hfull
  let w := (s0.popEvent n i rd).setPcState n 1
  have hx : exec (.waitevWake pc) s = .next (w.pcDone n 0 none) := by
    refine (exec_waitevWake pc s).trans ?_
    simp only [execWaitevWake, hsleep, hi]
    exact if_pos ⟨hstate, hdue, hclk⟩
  obtain ⟨⟨halting, stepping, hdone⟩, -, hframe⟩ := w.pcDone_spec n 0 none
  have hw : w.pcore n = _ := ((s0.popEvent n i rd).setPcState_pcore n 1).trans (congrArg (PCore.clocked · _ 1) hcore)
  have hwstep : PcStep n [Reg.PCC_STATUS n] (s0.popEvent n i rd) w := .setPcState _ n 1
  have hwstate : w.pcState n = 1 := State.setPcState_pcState _ n (by decide)
  rw [hw] at hdone
  generalize w.pcDone n 0 none = t at hx hdone hframe
  have hrd (a : Nat) : t.rd a = w.rd a := State.rd_congr (by rw [hframe]) a
  have hne : ∀ a, a ≠ Reg.PCC_STATUS n → t.rd a = (s0.popEvent n i rd).rd a := fun a ha => (hrd a).trans (hwstep.kept a (by simpa using ha))
  have hkept {rs : List Nat} (h : PcStep n rs s0 (s0.popEvent n i rd)) (a : Nat) (ha : a ≠ Reg.PCC_STATUS n) (hrs : a ∉ rs) :
      t.rd a = s.rd a :=
    (hne a ha).trans (h.kept a hrs)
  refine ⟨t, hx, (State.rf_congr (hrd _) 2 0).trans hwstate, (hne _ ?_).trans hgt, by rw [hdone]; rfl, by rw [hdone]; rfl, fun hs => ?_,
    fun d l hs => ?_, by rw [hdone]; rfl, by rw [hdone]; rfl, by rw [hdone]; rfl, ?_⟩
  · unfold Reg.PCC_EV_GT Reg.PCC_STATUS
    omega
  · obtain ⟨rfl, hstep⟩ := hroom hs
    refine ⟨?_, fun a ha => ?_⟩
    · rw [hdone]
      exact tabGet_set_same ..
    · simp only [List.mem_cons, List.not_mem_nil, or_false, not_or] at ha
      exact hkept hstep a ha.2 (by simp [ha.1])
  · obtain ⟨rfl, hstat⟩ := hfull d l hs
    refine ⟨?_, (State.rf_congr (hne _ ?_) 31 16).trans hstat, fun a ha => ?_⟩
    · rw [hdone]
      exact tabGet_set_same ..
    · unfold Reg.PCC_TASK_STAT Reg.PCC_STATUS
      omega
    · simp only [List.mem_cons, List.not_mem_nil, or_false, not_or] at ha
      obtain ⟨h1, h2, h3⟩ := ha
      exact hkept hpop a h2 (by simp [h1, h3])
  · have hmem : t.mem = w.mem := by rw [hframe]
    exact hmem.trans (hwstep.mem.trans hpop.mem)

/-! ### The entry to preemption (R121, R122) -/

theorem State.preemptionEntry_spec {s : State} {pc : PcId} (hstate : s.pcState pc.val = 1 ∨ s.pcState pc.val = 2)
    (hasked : s.preemptAsked pc.val = true) (hidle : s.pcInFlight pc.val = false) (hflat : (s.pcore pc.val).flatNext = none) :
    let n := pc.val
    let c := s.pcore n
    ∃ t, exec (.preemptionEntry pc) s = .next t ∧ t.pcState n = 1 ∧ t.rb (Reg.PCC_STATUS n) 3 = true ∧
      (t.pcore n).pc = BitVec.ofNat 32 (s.rd (Reg.PCC_PRE_VEC n)) ∧ (t.pcore n).lcnt = 0 ∧ (t.pcore n).busy = s.clk + 4 ∧
      (t.pcore n).acc0 = c.acc0 ∧ (t.pcore n).acc1 = c.acc1 ∧ (t.pcore n).sleep = none ∧
      (c.long = none → t.rd (Reg.PCC_PRE_PC n) = c.pc.toNat ∧ (t.pcore n).p = c.p ∧ (t.pcore n).shadow.pc = c.pc ∧
        (t.pcore n).shadow.lcnt = c.lcnt) ∧
      (∀ l, c.long = some l → s.clk < l.until_ → t.rd (Reg.PCC_PRE_PC n) = l.pc.toNat ∧ (t.pcore n).p = tabSet 0 c.p l.rd.toNat l.old ∧
        (t.pcore n).shadow.pc = l.pc ∧ (t.pcore n).shadow.lcnt = l.lcnt) ∧
      t = { s with pcores := t.pcores, regs := t.regs } ∧ s.regsKept t [Reg.PCC_STATUS n, Reg.PCC_PRE_PC n] := by
  intro n c
  obtain ⟨h1, hinpre, hprepc, hcore⟩ := State.preempt_spec hflat
  have hstep := s.preempt_step n
  obtain ⟨pc', lcnt, busy, p, habandoned⟩ := c.abandoned_eq s.clk
  have hx : exec (.preemptionEntry pc) s = .next (s.preempt n) :=
    (exec_preemptionEntry pc s).trans (if_pos ⟨hstate, hasked, by rw [hidle]; decide⟩)
  have hcore' : (s.preempt n).pcore n = _ := hcore
  rw [show s.pcore pc.val = c from rfl] at hcore hprepc
  refine ⟨_, hx, h1, hinpre, by rw [hcore']; rfl, by rw [hcore']; rfl, by rw [hcore']; rfl, ?_, ?_, ?_, fun hl => ?_, fun l hl hu => ?_,
    hstep.frame, hstep.kept⟩
  · rw [hcore, habandoned]; rfl
  · rw [hcore, habandoned]; rfl
  · rw [hcore, habandoned]; rfl
  · rw [PCore.abandoned_none _ hl] at hcore hprepc
    exact ⟨hprepc, by rw [hcore]; rfl, by rw [hcore]; rfl, by rw [hcore]; rfl⟩
  · rw [PCore.abandoned_some hl hu] at hcore hprepc
    exact ⟨hprepc, by rw [hcore]; rfl, by rw [hcore]; rfl, by rw [hcore]; rfl⟩

/-! ### Accesses by others (R105) -/

theorem execLocalMemoryAccess_read {s : State} {pc : PcId} (who : Requester) {off : BitVec 16} {size : BitVec 2}
    (hgood : s.badLocal pc.val off.toNat (2 ^ size.toNat) true = none) : exec (.localMemoryAccess pc who off size none) s =
      .next { s with lastRead := BitVec.ofNat 64 (s.bytes (localAddr pc.val off.toNat) (2 ^ size.toNat)) } := by
  rw [exec_localMemoryAccess]
  simp only [execLocalMemoryAccess, State.outsideLocal, Option.map_none, Option.isNone_none, hgood]
  rfl

theorem execLocalMemoryAccess_write {s : State} {pc : PcId} (who : Requester) {off : BitVec 16} {size : BitVec 2} (v : Word64)
    (hgood : s.badLocal pc.val off.toNat (2 ^ size.toNat) false = none) : exec (.localMemoryAccess pc who off size (some v)) s =
      .next (s.writeLocal pc.val off.toNat (2 ^ size.toNat) v.toNat) := by
  rw [exec_localMemoryAccess]
  simp only [execLocalMemoryAccess, State.outsideLocal, Option.map_some, Option.isNone_some, hgood]
  rfl

/-! ### The post queue (R126) -/

section
variable {s : State} {pc : PcId} {e : PostEntry} {rest : List PostEntry}

theorem State.postQueueDrain_point (hpost : (s.pcore pc.val).post = e :: rest) (hposting : (s.pcore pc.val).posting = false)
    (hpoint : e.point = true) :
    let n := pc.val
    ∃ t, exec (.postQueueDrain pc) s = .next t ∧ (t.pcore n).post = e :: rest ∧ (t.pcore n).posting = true ∧
      t.agenda = agendaInsert s.clk (.cmd (.arbRequest 12
        { port := n / 64, stamp := e.stamp, key := BitVec.ofNat 46 e.target, bytes := 16, tag := s.nextTag })) s.agenda ∧
      t = { s with pcores := t.pcores, agenda := t.agenda, work := t.work, nextTag := s.nextTag + 1 } := by
  intro n
  let s1 := s.setPcore n { s.pcore n with post := e :: rest, posting := true }
  have hs1 : s1.pcore n = { s.pcore n with post := e :: rest, posting := true } := s.setPcore_pcore_same n _
  refine ⟨s1.present 0 12 (n / 64) e.stamp e.target 16 (.point (Fin.ofNat 131072 e.target) (e.who n) (.write e.value none)),
    ?_, ?_, ?_, rfl, rfl⟩
  · rw [exec_postQueueDrain]
    simp only [execPostQueueDrain, hpost, hposting, hpoint]
    rw [if_neg Bool.false_ne_true, if_pos trivial]
  · exact congrArg PCore.post hs1
  · exact congrArg PCore.posting hs1

theorem State.postQueueDrain_doorbell (hpost : (s.pcore pc.val).post = e :: rest) (hposting : (s.pcore pc.val).posting = false)
    (hpoint : e.point = false) (hwait : (s.pcore pc.val).wait = none) :
    let n := pc.val
    ∃ t, exec (.postQueueDrain pc) s = .next t ∧ (t.pcore n).post = rest ∧
      (s.clk, Act.cmd (.doorbell (Fin.ofNat 262144 e.target) (e.who n) e.value e.stamp)) ∈ t.agenda ∧
      t = { s with pcores := t.pcores, agenda := t.agenda } := by
  intro n
  let s1 := s.setPcore n { s.pcore n with post := rest, posting := false, wait := none }
  let s2 := if (e :: rest).length ≤ 1 then s1 else s1.send 0 (.postQueueDrain (Fin.ofNat 256 n))
  have hpop : s.popPost n = s2 := by
    simp only [State.popPost, hpost, hwait, n]
    rfl
  have hs2 : AgendaStep s1 s2 := .ite (.refl s1) (.send s1 0 _)
  have hclk : s2.clk = s.clk := by rw [hs2]; rfl
  have hx : exec (.postQueueDrain pc) s = .next (s2.send 0 (.doorbell (Fin.ofNat 262144 e.target) (e.who n) e.value e.stamp)) := by
    rw [exec_postQueueDrain, ← hpop]
    simp only [execPostQueueDrain, hpost, hposting, hpoint]
    rfl
  refine ⟨_, hx, ?_, ?_, ?_⟩
  · have hcores : (s2.pcore n).post = (s1.pcore n).post := by rw [State.pcore, hs2, State.pcore]
    exact hcores.trans (congrArg PCore.post (s.setPcore_pcore_same n _))
  · rw [← hclk]
    exact agendaInsert_self ..
  · have hstep := hs2.trans (AgendaStep.send s2 0 (.doorbell (Fin.ofNat 262144 e.target) (e.who n) e.value e.stamp))
    unfold AgendaStep at hstep
    have hcores := congrArg State.pcores hstep
    rw [hcores]
    exact hstep

end

/-- Settles O26, by what each of these commands leaves of the core. -/
theorem phaseCoreTaskInputs : Obligations.Phase_core_task_inputs := by
  unfold Obligations.Phase_core_task_inputs
  intro s pc n c
  refine ⟨s.taskEvent_spec pc, fun rd mask due i e q => State.waitevWake_spec, State.preemptionEntry_spec,
    fun who off size => ⟨execLocalMemoryAccess_read who, fun v hgood => ?_⟩,
    fun e rest hpost hposting => ⟨State.postQueueDrain_point hpost hposting, State.postQueueDrain_doorbell hpost hposting⟩⟩
  exact ⟨_, execLocalMemoryAccess_write who v hgood, s.writeLocal_spec n off.toNat _ v.toNat⟩

end Sys2Proof.Machine
end

section
/-!
PROOF. PCC_CTRL and the registers that R130 guards (O27): start, stop, timing mode and reset of a phase core.
-/
namespace Sys2Proof.Machine

/-! ### The arms of the dispatch -/

theorem exec_runStart (pc who) (s : State) : exec (.runStart pc who) s = execRunStart pc who s := rfl
theorem exec_runStop (pc who) (s : State) : exec (.runStop pc who) s = execRunStop pc who s := rfl
theorem exec_tmode (pc who mode) (s : State) : exec (.tmode pc who mode) s = execTmode pc who mode s := rfl
theorem exec_coreRst (pc who) (s : State) : exec (.coreRst pc who) s = execCoreRst pc who s := rfl
theorem exec_pccEvPost (pc who input) (s : State) : exec (.pccEvPost pc who input) s = execPccEvPost pc who input s := rfl
theorem exec_pccEid (pc who reg value) (s : State) : exec (.pccEid pc who reg value) s = execPccEid pc who reg value s := rfl


/-! ### PCC_CTRL in the register map -/

def pccCtrlRow : RegDesc := ⟨0x11000000, 256, 0x1000, 1, 0x0, false, 0x0, 0x39, 0x2, 0x0, 0x4, 7, 0x2⟩

theorem regs11_ctrl : regs11 = pccCtrlRow :: regs11.tail := rfl

theorem regFind_pccCtrl {n : Nat} (hn : n < 256) : regFind (Reg.PCC_CTRL n) = some (pccCtrlRow, n, 0) := by
  have hfind : pccCtrlRow.find (Reg.PCC_CTRL n) = some (n, 0) := by
    simp [RegDesc.find, pccCtrlRow, Reg.PCC_CTRL, hn]
  have hwin : regWindow (Reg.PCC_CTRL n) = regs11 := by
    have hdiv : Reg.PCC_CTRL n / 0x1000000 = 0x11 := by
      unfold Reg.PCC_CTRL
      omega
    simp [regWindow, hdiv]
  rw [regFind, hwin, regs11_ctrl, regFindIn, hfind]

section
variable {s : State} {n : Nat}

/-- A write of PCC_CTRL that is not locked writes RUN and TMODE. -/
theorem State.rb_storeReg_ctrl (hn : n < 256) (hfree : s.unlockedAt (Reg.PCC_CTRL n) = true) (v : Nat) {k : Nat} (hk : k < 2) :
    (s.storeReg (Reg.PCC_CTRL n) v).rb (Reg.PCC_CTRL n) k = v.testBit k := by
  have hfind := regFind_pccCtrl hn
  have hlocked : s.lockedBits pccCtrlRow (Reg.PCC_CTRL n) n 0 = 0 := by
    simpa [State.unlockedAt, hfind] using hfree
  have hflag : lockFlag pccCtrlRow.area (areaUnit pccCtrlRow.area (Reg.PCC_CTRL n) n 0) ≠ some (Reg.PCC_CTRL n, k) := by
    rw [show lockFlag pccCtrlRow.area (areaUnit pccCtrlRow.area (Reg.PCC_CTRL n) n 0) = some (Reg.PCC_STATUS n, 9) from rfl]
    intro h
    obtain ⟨-, hbit⟩ := Prod.mk.inj (Option.some.inj h)
    omega
  have hmask : ∀ k < 2, (pccCtrlRow.rw ||| pccCtrlRow.rwl).testBit k = true := by decide
  rw [State.rb_storeReg hfind (Nat.lt_trans hk (by decide)) hflag, hlocked, hmask k hk, Nat.zero_testBit]
  rfl

/-- A write of PCC_CTRL that is not locked changes no other register. -/
theorem State.storeReg_ctrl_step (hfree : s.unlockedAt (Reg.PCC_CTRL n) = true) (v : Nat) :
    PcStep n [Reg.PCC_CTRL n] s (s.storeReg (Reg.PCC_CTRL n) v) := by
  obtain ⟨hkept, hframe⟩ := s.storeReg_unlocked v hfree
  generalize s.storeReg (Reg.PCC_CTRL n) v = t at hkept hframe
  refine ⟨?_, fun k _ => by rw [State.pcore, hframe, State.pcore], hkept⟩
  have hcores : t.pcores = s.pcores := by rw [hframe]
  rw [hcores]
  exact hframe

/-- What a write of TMODE leaves of the core. -/
theorem State.tmodeWritten_eq (s : State) (n : Nat) (flat : Bool) : s.tmodeWritten n flat = s.setPcore n
    (if s.pcState n = 0 ∨ s.pcState n = 3 then { s.pcore n with flat := flat, flatNext := none }
      else { s.pcore n with
        flatNext := some (if (s.pcore n).sleep.isSome || (s.pcore n).wait.isSome then 3 else 2, flat) }) := by
  rw [State.tmodeWritten]
  split <;> rfl

/-- The state in which PCC_CTRL has been written, before a start or a stop. -/
def State.ctrlWritten (s : State) (n v : Nat) : State :=
  let a := Reg.PCC_CTRL n
  let s1 := s.storeReg a v
  if s1.rb a 1 ≠ s.rb a 1 ∨ ((s.pcore n).flatDue ≠ v.testBit 1 ∧ s.unlockedAt a) then s1.tmodeWritten n (v.testBit 1) else s1

theorem State.ctrlWritten_step (hfree : s.unlockedAt (Reg.PCC_CTRL n) = true) (v : Nat) :
    PcStep n [Reg.PCC_CTRL n] s (s.ctrlWritten n v) := by
  refine .ite ((s.storeReg_ctrl_step hfree v).trans ?_) (s.storeReg_ctrl_step hfree v)
  rw [State.tmodeWritten_eq]
  exact .setPcore _ n _

theorem State.ctrlWritten_regs (s : State) (n v : Nat) : (s.ctrlWritten n v).regs = (s.storeReg (Reg.PCC_CTRL n) v).regs := by
  rw [State.ctrlWritten]
  split
  · rw [State.tmodeWritten_eq]
    rfl
  · rfl

theorem State.rb_ctrlWritten (hn : n < 256) (hfree : s.unlockedAt (Reg.PCC_CTRL n) = true) (v : Nat) {k : Nat} (hk : k < 2) :
    (s.ctrlWritten n v).rb (Reg.PCC_CTRL n) k = v.testBit k :=
  (State.rb_of_rd (State.rd_congr (s.ctrlWritten_regs n v) _) k).trans (State.rb_storeReg_ctrl hn hfree v hk)

theorem State.storeReg_ctrl_pcore (hfree : s.unlockedAt (Reg.PCC_CTRL n) = true) (v : Nat) :
    (s.storeReg (Reg.PCC_CTRL n) v).pcore n = s.pcore n := by
  obtain ⟨-, hframe⟩ := s.storeReg_unlocked v hfree
  rw [State.pcore, hframe, State.pcore]

/-- A write of PCC_CTRL leaves the core, but for its timing mode. -/
theorem State.ctrlWritten_pcore (hfree : s.unlockedAt (Reg.PCC_CTRL n) = true) (v : Nat) : ∃ flat next,
    (s.ctrlWritten n v).pcore n = { s.pcore n with flat := flat, flatNext := next } := by
  rw [State.ctrlWritten]
  dsimp only
  split
  · rw [State.tmodeWritten_eq, State.setPcore_pcore_same, State.storeReg_ctrl_pcore hfree]
    split
    · exact ⟨_, _, rfl⟩
    · exact ⟨_, _, rfl⟩
  · rw [State.storeReg_ctrl_pcore hfree]
    exact ⟨_, _, rfl⟩

theorem State.ctrlWritten_pcState (hfree : s.unlockedAt (Reg.PCC_CTRL n) = true) (v : Nat) :
    (s.ctrlWritten n v).pcState n = s.pcState n :=
  (State.ctrlWritten_step hfree v).rf (by simpa using (Reg.PCC_CTRL_ne_STATUS n).symm) 2 0

/-- A write of PCC_CTRL without CORE_RST. -/
theorem State.writePccCtrl_eq (s : State) (n : Nat) {v : Nat} (hv : v.testBit 2 = false) :
    let was := s.rb (Reg.PCC_CTRL n) 0
    let now := (s.storeReg (Reg.PCC_CTRL n) v).rb (Reg.PCC_CTRL n) 0
    let u := s.ctrlWritten n v
    s.writePccCtrl n v = if ¬ was ∧ now then
        if s.modes.lostPcs.contains n then u
        else if s.pcState n = 0 ∨ s.pcState n = 3 then u.pcStart n
        else u.setPcore n { u.pcore n with stopping := false }
      else if was ∧ ¬ now then (u.setPcore n { u.pcore n with stopping := true }).pcStop n
      else u := by
  intro was now u
  exact if_neg (by simp [hv])

end

/-! ### A start (R129) -/

/-- The core that starts at `entry`. -/
def PCore.started (c : PCore) (entry : Word32) (clk : Nat) : PCore :=
  { c with
    pc := entry, lcnt := 0, busy := clk + 4, wait := none, long := none, sleep := none
    halted := false, stepping := false, stopping := false, halting := none }

theorem Reg.PCC_FAULT_ne_STATUS (n : Nat) : Reg.PCC_FAULT n ≠ Reg.PCC_STATUS n := by
  unfold Reg.PCC_FAULT Reg.PCC_STATUS
  omega

section
variable (s : State) (n : Nat)

/-- The state in which a start has cleared what stood of the last run. -/
def State.pcCleared (s : State) (n : Nat) : State :=
  ((s.wr (Reg.PCC_FAULT n) 0).wb (Reg.PCC_STATUS n) 3 false).setPcore n
    ((s.pcore n).started (BitVec.ofNat 32 (s.rd (Reg.PCC_ENTRY n))) s.clk)

theorem State.pcStart_eq : s.pcStart n =
    (if (s.pcore n).halted then (s.pcCleared n).wb (Reg.DBG_PC_STATUS n) 0 false else s.pcCleared n).setPcState n 1 := rfl

theorem State.pcCleared_step : PcStep n [Reg.PCC_STATUS n, Reg.PCC_FAULT n] s (s.pcCleared n) :=
  ((PcStep.wr s _ (by simp)).trans (.wb _ _ _ (by simp))).trans (.setPcore _ n _)

theorem State.pcCleared_pcore : (s.pcCleared n).pcore n = (s.pcore n).started (BitVec.ofNat 32 (s.rd (Reg.PCC_ENTRY n))) s.clk :=
  State.setPcore_pcore_same _ n _

theorem State.pcCleared_fault : (s.pcCleared n).rd (Reg.PCC_FAULT n) = 0 := by
  have hrd : ((s.wr (Reg.PCC_FAULT n) 0).wb (Reg.PCC_STATUS n) 3 false).rd (Reg.PCC_FAULT n) = 0 := by
    rw [State.rd_wb_ne _ _ _ (Reg.PCC_FAULT_ne_STATUS n).symm, State.rd_wr_same, Nat.zero_mod]
  exact hrd

theorem State.pcCleared_inpre : (s.pcCleared n).rb (Reg.PCC_STATUS n) 3 = false := by
  have hrb : ((s.wr (Reg.PCC_FAULT n) 0).wb (Reg.PCC_STATUS n) 3 false).rb (Reg.PCC_STATUS n) 3 = false := by
    rw [State.rb_wb _ _ _ _ _ _ (by decide), if_pos ⟨rfl, rfl⟩]
  exact hrb

theorem State.pcStart_spec (hn : n < 256) : let t := s.pcStart n
    PcStep n [Reg.PCC_STATUS n, Reg.PCC_FAULT n, Reg.DBG_PC_STATUS n] s t ∧ t.pcState n = 1 ∧ t.rd (Reg.PCC_FAULT n) = 0 ∧
      t.rb (Reg.PCC_STATUS n) 3 = false ∧
      t.pcore n = ((s.pcore n).started (BitVec.ofNat 32 (s.rd (Reg.PCC_ENTRY n))) s.clk).clocked s.clk 1 := by
  intro t
  let u := if (s.pcore n).halted then (s.pcCleared n).wb (Reg.DBG_PC_STATUS n) 0 false else s.pcCleared n
  have hdbg : PcStep n [Reg.DBG_PC_STATUS n] (s.pcCleared n) u := .ite (.wb _ _ _ (by simp)) (.refl _)
  have hrun : PcStep n [Reg.PCC_STATUS n] u (u.setPcState n 1) := .setPcState u n 1
  have hstatus : Reg.PCC_STATUS n ∉ [Reg.DBG_PC_STATUS n] := by
    simp only [List.mem_singleton, Reg.PCC_STATUS, Reg.DBG_PC_STATUS]
    omega
  have hfault : Reg.PCC_FAULT n ∉ [Reg.DBG_PC_STATUS n] := by
    simp only [List.mem_singleton, Reg.PCC_FAULT, Reg.DBG_PC_STATUS]
    omega
  have hu : u.pcore n = (s.pcore n).started (BitVec.ofNat 32 (s.rd (Reg.PCC_ENTRY n))) s.clk := by
    simp only [u]
    split
    · rw [State.wb_pcore_at, s.pcCleared_pcore n]
    · exact s.pcCleared_pcore n
  have hclk : u.clk = s.clk := hdbg.clk.trans (s.pcCleared_step n).clk
  rw [show t = u.setPcState n 1 from s.pcStart_eq n]
  refine ⟨(((s.pcCleared_step n).weaken (by simp)).trans (hdbg.weaken (by simp))).trans (hrun.weaken (by simp)),
    State.setPcState_pcState u n (by decide), ?_, ?_, ?_⟩
  · rw [hrun.kept _ (by simpa using Reg.PCC_FAULT_ne_STATUS n), hdbg.kept _ hfault, s.pcCleared_fault]
  · rw [State.rb_setPcState _ n 1 (by decide), hdbg.rb hstatus, s.pcCleared_inpre]
  · rw [State.setPcState_pcore, hu, hclk]

end

section
variable {s : State} {pc : PcId}

theorem State.runStart_spec (who : Requester) (hfree : s.unlockedAt (Reg.PCC_CTRL pc.val) = true)
    (hrst : s.rb (Reg.PCC_CTRL pc.val) 2 = false) (hrun : s.rb (Reg.PCC_CTRL pc.val) 0 = false)
    (hstate : s.pcState pc.val = 0 ∨ s.pcState pc.val = 3)
    (hlost : s.modes.lostPcs.contains pc.val = false) :
    let n := pc.val
    let c := s.pcore n
    let ctrl := Reg.PCC_CTRL n
    ∃ t, exec (.runStart pc who) s = .next t ∧ t.rb ctrl 0 = true ∧ t.pcState n = 1 ∧ t.rd (Reg.PCC_FAULT n) = 0 ∧
      t.rb (Reg.PCC_STATUS n) 3 = false ∧ (t.pcore n).pc = BitVec.ofNat 32 (s.rd (Reg.PCC_ENTRY n)) ∧ (t.pcore n).lcnt = 0 ∧
      (t.pcore n).busy = s.clk + 4 ∧ (t.pcore n).p = c.p ∧ (t.pcore n).acc0 = c.acc0 ∧ (t.pcore n).acc1 = c.acc1 ∧
      (t.pcore n).queues = c.queues ∧ t = { s with pcores := t.pcores, regs := t.regs } ∧
      s.regsKept t [ctrl, Reg.PCC_STATUS n, Reg.PCC_FAULT n, Reg.DBG_PC_STATUS n] := by
  intro n c ctrl
  have hn : n < 256 := pc.isLt
  let v := putFld (s.rd ctrl) 0 0 (b2n true)
  let u := s.ctrlWritten n v
  have hbit (j : Nat) : v.testBit j = if 0 = j then true else s.rb ctrl j := testBit_putBit _ 0 j true
  have hu : PcStep n [ctrl] s u := State.ctrlWritten_step hfree v
  have hx : exec (.runStart pc who) s = .next (u.pcStart n) := by
    refine (exec_runStart pc who s).trans (congrArg _ ((s.writePccCtrl_eq n (v := v) ((hbit 2).trans hrst)).trans ?_))
    rw [State.rb_storeReg_ctrl hn hfree v (by decide), hbit 0, show s.rb (Reg.PCC_CTRL n) 0 = false from hrun]
    exact (if_pos (by simp)).trans ((if_neg (by rw [hlost]; decide)).trans (if_pos hstate))
  obtain ⟨hstep, h1, hfault, hinpre, hcore⟩ := u.pcStart_spec n hn
  obtain ⟨flat, next, hucore⟩ := State.ctrlWritten_pcore hfree v
  rw [show u.pcore n = _ from hucore, hu.clk, hu.kept (Reg.PCC_ENTRY n) ?entry] at hcore
  have hend := (hu.weaken (qs := [ctrl, Reg.PCC_STATUS n, Reg.PCC_FAULT n, Reg.DBG_PC_STATUS n]) (by simp)).trans (hstep.weaken (by simp))
  refine ⟨_, hx, ?_, h1, hfault, hinpre, by rw [hcore]; rfl, by rw [hcore]; rfl, by rw [hcore]; rfl, by rw [hcore]; rfl, by rw [hcore]; rfl,
    by rw [hcore]; rfl, by rw [hcore]; rfl, hend.frame, hend.kept⟩
  case entry =>
    simp only [List.mem_singleton, Reg.PCC_ENTRY, ctrl, Reg.PCC_CTRL]
    omega
  · rw [hstep.rb (a := ctrl) ?_ 0, State.rb_ctrlWritten hn hfree v (by decide), hbit 0]
    · rfl
    · simp only [List.mem_cons, List.not_mem_nil, or_false, ctrl, Reg.PCC_CTRL, Reg.PCC_STATUS, Reg.PCC_FAULT, Reg.DBG_PC_STATUS]
      omega

/-! ### A stop (R122, R129) -/

theorem State.runStop_spec (who : Requester) (hfree : s.unlockedAt (Reg.PCC_CTRL pc.val) = true)
    (hrst : s.rb (Reg.PCC_CTRL pc.val) 2 = false) (hrun : s.rb (Reg.PCC_CTRL pc.val) 0 = true)
    (hstate : s.pcState pc.val = 1 ∨ s.pcState pc.val = 2)
    (hidle : s.pcInFlight pc.val = false) (hlong : (s.pcore pc.val).long = none) (hhalting : (s.pcore pc.val).halting = none) :
    let n := pc.val
    let c := s.pcore n
    let ctrl := Reg.PCC_CTRL n
    ∃ t, exec (.runStop pc who) s = .next t ∧ t.rb ctrl 0 = false ∧ t.pcState n = 0 ∧ (t.pcore n).pc = c.pc ∧
      (t.pcore n).p = c.p ∧ (t.pcore n).sleep = none ∧ t = { s with pcores := t.pcores, regs := t.regs } ∧
      s.regsKept t [ctrl, Reg.PCC_STATUS n] := by
  intro n c ctrl
  have hn : n < 256 := pc.isLt
  let v := putFld (s.rd ctrl) 0 0 (b2n false)
  have hbit (j : Nat) : v.testBit j = if 0 = j then false else s.rb ctrl j := testBit_putBit _ 0 j false
  have hw : PcStep n [ctrl] s (s.ctrlWritten n v) := State.ctrlWritten_step hfree v
  let u := (s.ctrlWritten n v).setPcore n { (s.ctrlWritten n v).pcore n with stopping := true }
  have hu : PcStep n [ctrl] s u := hw.trans (.setPcore _ n _)
  obtain ⟨flat, next, hwcore⟩ := State.ctrlWritten_pcore hfree v
  have hucore : u.pcore n = { c with flat := flat, flatNext := next, stopping := true } := by
    rw [State.setPcore_pcore_same, hwcore]
  have hustate : u.pcState n = s.pcState n := State.ctrlWritten_pcState hfree v
  have huidle : u.pcInFlight n = false := by
    simp only [State.pcInFlight, hucore, hu.clk]
    exact hidle
  have hx : exec (.runStop pc who) s = .next (u.pcStopNow n) := by
    refine (exec_runStop pc who s).trans (congrArg _ ((s.writePccCtrl_eq n (v := v) ((hbit 2).trans hrst)).trans ?_))
    rw [State.rb_storeReg_ctrl hn hfree v (by decide), hbit 0, show s.rb (Reg.PCC_CTRL n) 0 = true from hrun]
    refine (if_neg (by simp)).trans ((if_pos (by simp)).trans ?_)
    exact (if_pos (hustate ▸ hstate)).trans (if_neg (by rw [huidle]; decide))
  obtain ⟨hstep, h0, hcore⟩ := State.pcStopNow_spec (s := u) (n := n) (by rw [hucore]; exact hhalting)
  rw [hucore] at hcore
  obtain ⟨flat', hstopped⟩ := PCore.stopped_eq (c := { c with flat := flat, flatNext := next, stopping := true }) u.clk hlong
  rw [hstopped] at hcore
  have hend := (hu.weaken (qs := [ctrl, Reg.PCC_STATUS n]) (by simp)).trans (hstep.weaken (by simp))
  refine ⟨_, hx, ?_, h0, by rw [hcore]; rfl, by rw [hcore]; rfl, by rw [hcore], hend.frame, hend.kept⟩
  rw [hstep.rb (by simpa using Reg.PCC_CTRL_ne_STATUS n) 0]
  exact (State.rb_ctrlWritten hn hfree v (by decide)).trans (hbit 0)

/-! ### The timing mode (R115) -/

theorem State.tmode_spec (who : Requester) (mode : Bool) (hfree : s.unlockedAt (Reg.PCC_CTRL pc.val) = true)
    (hrst : s.rb (Reg.PCC_CTRL pc.val) 2 = false) (hmode : s.rb (Reg.PCC_CTRL pc.val) 1 ≠ mode) :
    let n := pc.val
    let c := s.pcore n
    let ctrl := Reg.PCC_CTRL n
    ∃ t, exec (.tmode pc who mode) s = .next t ∧ t.rb ctrl 1 = mode ∧
      ((s.pcState n = 0 ∨ s.pcState n = 3) → t.pcore n = { c with flat := mode, flatNext := none }) ∧
      (¬ (s.pcState n = 0 ∨ s.pcState n = 3) →
        t.pcore n = { c with flatNext := some (if c.sleep.isSome || c.wait.isSome then 3 else 2, mode) }) ∧
      t = { s with pcores := t.pcores, regs := t.regs } ∧ s.regsKept t [ctrl] := by
  intro n c ctrl
  have hn : n < 256 := pc.isLt
  let v := putFld (s.rd ctrl) 1 1 (b2n mode)
  have hbit (j : Nat) : v.testBit j = if 1 = j then mode else s.rb ctrl j := testBit_putBit _ 1 j mode
  have hu : PcStep n [ctrl] s (s.ctrlWritten n v) := State.ctrlWritten_step hfree v
  have hx : exec (.tmode pc who mode) s = .next (s.ctrlWritten n v) := by
    refine (exec_tmode pc who mode s).trans (congrArg _ ((s.writePccCtrl_eq n (v := v) ((hbit 2).trans hrst)).trans ?_))
    rw [State.rb_storeReg_ctrl hn hfree v (by decide), hbit 0]
    refine (if_neg fun h => ?_).trans (if_neg fun h => ?_)
    · exact h.1 h.2
    · exact h.2 h.1
  have hcore : (s.ctrlWritten n v).pcore n = if s.pcState n = 0 ∨ s.pcState n = 3 then { c with flat := mode, flatNext := none }
      else { c with flatNext := some (if c.sleep.isSome || c.wait.isSome then 3 else 2, mode) } := by
    have hnew : (s.storeReg ctrl v).rb ctrl 1 ≠ s.rb ctrl 1 := by
      rw [State.rb_storeReg_ctrl hn hfree v (by decide), hbit 1]
      exact hmode.symm
    have hst : (s.storeReg ctrl v).pcState n = s.pcState n :=
      (State.storeReg_ctrl_step hfree v).rf (by simpa using (Reg.PCC_CTRL_ne_STATUS n).symm) 2 0
    rw [State.ctrlWritten]
    refine (congrArg (State.pcore · n) (if_pos (.inl hnew))).trans ?_
    rw [State.tmodeWritten_eq, State.setPcore_pcore_same, State.storeReg_ctrl_pcore hfree, hst, hbit 1]
    rfl
  exact ⟨_, hx, (State.rb_ctrlWritten hn hfree v (by decide)).trans (hbit 1), fun h => hcore.trans (if_pos h),
    fun h => hcore.trans (if_neg h), hu.frame, hu.kept⟩

/-! ### CORE_RST (R131) -/

/-- A table without the entries whose keys a test refuses. -/
theorem tabFind_filter {α : Type} (p : Nat → Bool) (t : Tab α) (i : Nat) :
    tabFind (t.filter fun e => p e.1) i = if p i then tabFind t i else none := by
  induction t with
  | nil => simp [tabFind]
  | cons e t ih =>
    rw [List.filter_cons]
    by_cases hk : e.1 = i
    · cases hp : p i <;> simp [tabFind, hk, hp, ih]
    · cases hp : p e.1 <;> simp [tabFind, hk, ih]

theorem State.rd_clearPcc (s : State) (n a : Nat) : (s.clearPcc n).rd a =
    if Reg.PCC_CTRL n ≤ a ∧ a < Reg.PCC_CTRL (n + 1) then (regReset a).toNat else s.rd a := by
  rw [State.rd, tabGet, State.clearPcc]
  dsimp only
  rw [tabFind_filter fun k => !(decide (Reg.PCC_CTRL n ≤ k) && decide (k < Reg.PCC_CTRL (n + 1)))]
  by_cases hin : Reg.PCC_CTRL n ≤ a ∧ a < Reg.PCC_CTRL (n + 1)
  · rw [if_pos hin, if_neg (by simp [hin])]
    rfl
  · rw [if_neg hin, if_pos (by simpa [imp_iff_not_or] using hin), State.rd, tabGet]

theorem State.coreRst_spec (s : State) (pc : PcId) (who : Requester) :
    let n := pc.val
    ∃ t, exec (.coreRst pc who) s = .next t ∧ t.pcore n = {} ∧ (∀ k, k ≠ n → t.pcore k = s.pcore k) ∧
      (∀ a, Reg.PCC_CTRL n ≤ a → a < Reg.PCC_CTRL (n + 1) → t.rd a = (regReset a).toNat) ∧
      (∀ a, a < Reg.PCC_CTRL n ∨ Reg.PCC_CTRL (n + 1) ≤ a → t.rd a = s.rd a) ∧
      t = { s with pcores := t.pcores, regs := t.regs, agenda := t.agenda } := by
  intro n
  have hx : exec (.coreRst pc who) s = .next (s.pcReset n) :=
    (exec_coreRst pc who s).trans (congrArg _ (if_pos (testBit_putBit _ 2 2 true)))
  have hrd (a : Nat) : (s.pcReset n).rd a = (s.clearPcc n).rd a := rfl
  refine ⟨_, hx, State.setPcore_pcore_same (s.clearPcc n) n {}, fun k hk => State.setPcore_pcore_ne (s.clearPcc n) n {} k hk.symm,
    fun a hlo hhi => ?_, fun a ha => ?_, rfl⟩
  · rw [hrd, State.rd_clearPcc, if_pos ⟨hlo, hhi⟩]
  · rw [hrd, State.rd_clearPcc, if_neg (by omega)]

/-! ### EV_POST and the registers that R130 guards -/

theorem State.pccEvPost_eq (s : State) (pc : PcId) (who : Requester) (input : BitVec 3) : exec (.pccEvPost pc who input) s =
    .next { s with agenda := agendaInsert s.clk (.cmd (.taskEvent pc input 2047 s.gt.now)) s.agenda } := by
  rw [exec_pccEvPost, execPccEvPost, State.postEvent, finOfNat_val]
  rfl

theorem State.pccEid_busy (who : Requester) (r : PccGuarded) (v : Word64) (hstate : s.pcState pc.val = 1 ∨ s.pcState pc.val = 2) :
    let n := pc.val
    ∃ t, exec (.pccEid pc who r v) s = .next t ∧ t.rb (Reg.PCC_STATUS n) 8 = true ∧ s.bitsKept t (Reg.PCC_STATUS n) 8 8 ∧
      t = { s with regs := t.regs } ∧ s.regsKept t [Reg.PCC_STATUS n] := by
  intro n
  have hbit (i : Nat) : (s.wb (Reg.PCC_STATUS n) 8 true).rb (Reg.PCC_STATUS n) i = if 8 = i then true else s.rb (Reg.PCC_STATUS n) i := by
    rw [State.rb_wb _ _ _ _ _ _ (by decide)]
    simp
  refine ⟨s.wb (Reg.PCC_STATUS n) 8 true, (exec_pccEid pc who r v s).trans (congrArg _ (if_pos hstate)), hbit 8,
    fun i hi => (hbit i).trans (if_neg (by omega)), rfl, (PcStep.wb (n := n) s 8 true List.mem_cons_self).kept⟩

theorem State.pccEid_idle (who : Requester) (r : PccGuarded) (v : Word64) (hstate : s.pcState pc.val = 0 ∨ s.pcState pc.val = 3) :
    (r = .eid → who.pl ≠ 3 → exec (.pccEid pc who r v) s = .next s) ∧
      (r ≠ .eid ∨ who.pl = 3 → exec (.pccEid pc who r v) s = .next (s.storeReg (guardedAddr pc.val r) v.toNat)) := by
  have hidle : ¬ (s.pcState pc.val = 1 ∨ s.pcState pc.val = 2) := by omega
  refine ⟨fun hr hpl => ?_, fun hor => ?_⟩
  · exact (exec_pccEid pc who r v s).trans (congrArg _ ((if_neg hidle).trans (if_pos ⟨hr, hpl⟩)))
  · refine (exec_pccEid pc who r v s).trans (congrArg _ ((if_neg hidle).trans (if_neg ?_)))
    rintro ⟨hr, hpl⟩
    exact hor.elim (fun h => h hr) hpl

end

/-- Settles O27, by what a write of PCC_CTRL and of a guarded register leaves. -/
theorem phaseCoreStartStopAndReset : Obligations.Phase_core_start_stop_and_reset := by
  unfold Obligations.Phase_core_start_stop_and_reset
  intro s pc who n c ctrl
  exact ⟨fun hfree hrst => ⟨State.runStart_spec who hfree hrst, State.runStop_spec who hfree hrst,
      fun mode => State.tmode_spec who mode hfree hrst⟩,
    s.coreRst_spec pc who, s.pccEvPost_eq pc who, fun r v => ⟨State.pccEid_busy who r v, State.pccEid_idle who r v⟩⟩

end Sys2Proof.Machine
end
